-- ==== Sys2Proof/Word.lean ====
section
/-! DEFINITION. The machine words of the KLA-9616: bytes, register words, and the W40 element. -/

namespace Sys2Proof

/-- One byte; multi-byte fields are little-endian (00_scope.md, "Number notation and units"). -/
abbrev Byte := BitVec 8

/-- A register of a page (R349) or an FP32 value. -/
abbrev W32 := BitVec 32

/-- A configuration word of a core (R83). -/
abbrev W64 := BitVec 64

/-- A well element (03_core.md, "W40"). -/
abbrev W40 := BitVec 40

end Sys2Proof
end

