-- ==== Sys2Proof/Syntax.lean ====
section
/-! DEFINITION. The commands of the block: one constructor of `Instr` per row of the table of operations and
events. The table gives no bits; the operands are what the spec says the row carries. -/

namespace Sys2Proof

/-- Who makes a register access (R530). -/
inductive Requester where
  | host | mgmt | firmware
deriving DecidableEq, Repr

/-- A packet of the host link (09_optics.md, tables "Packet header" and "Packet operations"), with the port it
came on. LEN counts data bytes, or the bytes a read asks for. -/
structure Pkt where
  op     : Nat := 0
  win    : Nat := 0
  poison : Bool := false
  masked : Bool := false
  tag    : Nat := 0
  status : Nat := 0
  len    : Nat := 0
  aux    : Nat := 0
  addr   : Nat := 0
  data   : List Byte := []
  mask   : Nat := 0
  port   : Nat := 0
deriving DecidableEq, Repr

/-- An ownership page: a stack's HBMC page or a slice's PDIE page (08_memory.md, "Ownership registers"). -/
inductive OwnPage where
  | stack (s : Fin 12)
  | slice (p : Fin 4)
deriving DecidableEq, Repr

/-- What the heads of a step computed for one branch (R51, R53): the last HEADS tile's outputs, and the new
carried state as the bytes of its block (R42), and for a scored group the attention probability of each entry of each
layer (R202). -/
structure HeadOut where
  group    : Nat
  index    : Nat
  reward   : W32
  value    : W32
  mean     : List W32
  logScale : List W32
  state    : List Byte
deriving DecidableEq, Repr

/-- How a boot stage ended (R468): done, for stage 0x8 with the pseudo-channels whose training failed (R470), or failed
with a low digit of the failure code. -/
inductive StageEnd where
  | done (untrained : List (Fin 12 × Fin 64))
  | failed (digit : Fin 15)
deriving DecidableEq, Repr

/-- The 227 rows of opcode_table.json, in its order. -/
inductive Instr where
  | db (p : Pkt)
  | push (p : Pkt)
  | run (q : Fin 4096)
  | move (q : Fin 4096)
  | checkpoint (q : Fin 4096)
  | reduce (q : Fin 4096)
  | barrier (q : Fin 4096)
  | openGroup (q : Fin 4096)
  | stepGroups (q : Fin 4096)
  | fork (q : Fin 4096)
  | prune (q : Fin 4096)
  | close (q : Fin 4096)
  | commandStart (q : Fin 4096) (seq : W32)
  | windowGrant
  | publish (q : Fin 4096) (seq : W32)
  | lineageSpaceFreed
  | descriptorSwap (q : Fin 4096) (seq : W32)
  | enable (r : Requester) (host : List (Nat × Byte))
  | disable (r : Requester)
  | resetSeq (r : Requester)
  | whCommandStart (q : Fin 4096) (seq : W32)
  | stepStart (q : Fin 4096) (seq : W32)
  | stepClose (q : Fin 4096) (seq : W32) (heads : List HeadOut)
  | holdResume (q : Fin 4096) (seq : W32)
  | rederiveDone (g : Fin 256)
  | countUpdate
  | holdingReturn
  | seqCreate (r : Requester)
  | seqDestroy (r : Requester)
  | dropFront (r : Requester)
  | evictEntry (r : Requester)
  | setPolicy (r : Requester)
  | sealTail (r : Requester)
  | deferredEdit (sequence : Nat)
  | kvpCfgEnable (r : Requester) (v : W32)
  | whCfgEnable (r : Requester) (v : W32)
  | dispatchMessage (cl : Fin 256) (q : Fin 4096) (seq : W32) (layer : Nat)
  | placementScan
  | claim (cl : Fin 256) (counter : Fin 1024)
  | itemComplete (core : Fin 10240)
  | doneIncrement (cl : Fin 256) (counter : Fin 1024) (job item gen : Nat)
  | gaugeAdvance (gauge : Fin 65536) (value : BitVec 24) (gen : Byte) (counter : Fin 1024) (job item : Nat)
  | waitWake (core : Fin 10240)
  | array (core : Fin 10240)
  | loadStat (core : Fin 10240)
  | drain (core : Fin 10240)
  | save40 (core : Fin 10240)
  | restore40 (core : Fin 10240)
  | wait (core : Fin 10240)
  | yieldMark (core : Fin 10240)
  | endWord (core : Fin 10240)
  | moveRead (core : Fin 10240)
  | moveWrite (core : Fin 10240)
  | add32 (core : Fin 10240)
  | add64 (core : Fin 10240)
  | fadd32 (core : Fin 10240)
  | max32 (core : Fin 10240)
  | min32 (core : Fin 10240)
  | swap32 (core : Fin 10240)
  | swap64 (core : Fin 10240)
  | cas32 (core : Fin 10240)
  | cas64 (core : Fin 10240)
  | fma (core : Fin 10240)
  | add (core : Fin 10240)
  | mul (core : Fin 10240)
  | max (core : Fin 10240)
  | min (core : Fin 10240)
  | select (core : Fin 10240)
  | vectorCmp (core : Fin 10240)
  | add40 (core : Fin 10240)
  | add40w (core : Fin 10240)
  | cvt (core : Fin 10240)
  | exp (core : Fin 10240)
  | ln (core : Fin 10240)
  | exp2 (core : Fin 10240)
  | log2 (core : Fin 10240)
  | sin2pi (core : Fin 10240)
  | cos2pi (core : Fin 10240)
  | tanh (core : Fin 10240)
  | sigmoid (core : Fin 10240)
  | sqrt (core : Fin 10240)
  | rcp (core : Fin 10240)
  | rsqrt (core : Fin 10240)
  | sum (core : Fin 10240)
  | rmax (core : Fin 10240)
  | rmin (core : Fin 10240)
  | topk (core : Fin 10240)
  | splitmix (core : Fin 10240)
  | gate40w (core : Fin 10240)
  | fma40 (core : Fin 10240)
  | lscan40 (core : Fin 10240)
  | coreFault (core : Fin 10240) (cause : Fin 7) (well : Fin 24)
  | coreTestStart (r : Requester) (core : Fin 10240)
  | selfTestDone (core : Fin 10240) (pass : Bool) (failUnit : Fin 7)
  | clusterFault (cl : Fin 256)
  | dieLost (die : Fin 16)
  | clusterStoreUe (cl : Fin 256) (addr : Fin 2097152) (reader : Fin 40)
  | cacheUe (slice : Fin 4) (off : Fin 100663296)
  | hbmUe (stack : Fin 12) (addr : BitVec 36)
  | unitRelease (stack : Fin 12) (pc : Fin 64)
  | retrain (stack : Fin 12) (ch : Fin 32)
  | retrainEnd (stack : Fin 12) (pass0 pass1 : Bool)
  | temperatureRead (stack : Fin 12) (celsius : Byte)
  | refreshInterval (stack : Fin 12)
  | grant (r : Requester) (page : OwnPage)
  | revoke (r : Requester) (page : OwnPage)
  | query (r : Requester) (page : OwnPage)
  | zeroDone (page : OwnPage)
  | revokeEffect (page : OwnPage)
  | reductionDone (q : Fin 4096) (seq : W32)
  | laneTrain (port : Fin 24) (rx : Bool) (lane : Fin 8) (partnerLight : Bool)
  | laneLock (port : Fin 24) (rx : Bool) (lane : Fin 8) (rtt : BitVec 16)
  | lockTimeout (port : Fin 24) (rx : Bool) (lane : Fin 8)
  | laneDown (port : Fin 24) (rx : Bool) (lane : Fin 8)
  | lightLost (port : Fin 24) (rx : Bool) (lane : Fin 8)
  | laserModuleLoss (m : Fin 3)
  | linkLost
  | resetLanes (r : Requester) (port : Fin 24)
  | rejoin (r : Requester) (port : Fin 24)
  | calibrationSlot (port : Fin 24)
  | slotEnd (port : Fin 24)
  | slotAnnounce (port : Fin 24)
  | flit (port : Fin 24) (bytes : List Byte) (decoded : Bool)
  | nak (port : Fin 24) (ack : BitVec 12)
  | ack (port : Fin 24) (ack : BitVec 12)
  | credit (port : Fin 24) (cls : Fin 3) (slots : Nat)
  | laneAdd (port : Fin 24) (rx : Bool) (lane : Fin 8) (cwseq : Byte)
  | laneDrop (port : Fin 24) (rx : Bool) (lane : Fin 8)
  | handover (failed : Fin 8) (lastSeq : BitVec 12)
  | handoverDone (port : Fin 8)
  | portFailed (port : Fin 8)
  | cisternPortFailed (port : Fin 24)
  | rdNc (p : Pkt)
  | rdS (p : Pkt)
  | rdM (p : Pkt)
  | wr (p : Pkt)
  | wb (p : Pkt)
  | evict (p : Pkt)
  | cmp (p : Pkt)
  | cmpD (p : Pkt)
  | rclAck (p : Pkt)
  | rclData (p : Pkt)
  | recallTimeout (line : BitVec 40)
  | stallWatch (port : Fin 8)
  | cData (m : Fin 16) (tag : Nat) (status : Nat) (data : List Byte)
  | cCmp (m : Fin 16) (tag : Nat) (status : Nat)
  | cisCfgEnable (r : Requester) (m : Fin 16) (v : W32)
  | format (r : Requester) (m : Fin 16)
  | release (r : Requester) (m : Fin 16)
  | trim (r : Requester) (m : Fin 16)
  | create (r : Requester)
  | destroy (r : Requester)
  | sliceEnd (ctx : Fin 4096)
  | sliceOverrun (ctx : Fin 4096)
  | coreRelease (core : Fin 10240)
  | swapOut
  | saveComplete (ctx : Fin 4096)
  | swapIn
  | restoreComplete (ctx : Fin 4096)
  | pwrOk (straps : Fin 16)
  | powerLoss
  | refLost (ref : Fin 2)
  | pllUnlock
  | powerRecompute (watts mv : BitVec 16) (fit : Fin 28)
  | droop (cl : Fin 256)
  | droopCalibration (cl : Fin 256)
  | dieTemperatureRead (compute : List Byte) (port : List Byte) (control : Byte) (photonic : List Byte)
  | park (cl : Fin 256)
  | pwrLimitWrite (r : Requester) (v : W32)
  | warm (r : Requester)
  | recovery (r : Requester)
  | clusterReset (r : Requester)
  | resetDone
  | clusterResetDone (cl : Fin 256)
  | bootStage (e : StageEnd)
  | stageTimeout
  | bootCtrlClearCount (r : Requester)
  | setPrefer (r : Requester) (slot : Fin 2)
  | commitSvn (r : Requester)
  | secCtrlRevoke (r : Requester) (slot : Fin 4)
  | lcGo (r : Requester)
  | lcRequest (target : Fin 8) (token : List Byte)
  | getIdentity
  | getCert (offset len : Nat)
  | attest (nonce : List Byte)
  | getBootCause
  | getSignState
  | clearCount
  | treeDone
  | requestUpdate (image : Nat)
  | regRead (offset : Nat) (size : Nat)
  | regWrite (offset : Nat) (size : Nat) (value : W64)
  | send (r : Requester) (len : BitVec 14)
  | mboxAck (r : Requester)
  | setdasa (addr : BitVec 7)
  | errorRecord
  | blackAction
  | thermalHoldEnd
  | errInject (r : Requester) (v : W32)
  | errFirstClear (r : Requester)
  | pgErrFirstClear (r : Requester) (cls inst : Nat)
  | sample
  | throttleWindow
  | mark (r : Requester) (v : W32)
  | trcCfgEnable (r : Requester) (v : W32)
  | go (r : Requester)
  | domainHalt (d : Fin 315)
  | halted
  | captured
  | stopRelease (r : Requester)
  | domainResume (d : Fin 315)
  | released
  | wfgGo (r : Requester)
  | wfgDone
  | snap (r : Requester) (cls inst : Nat)
  | pgApply (r : Requester) (cls inst : Nat)
  | take (r : Requester) (cls inst : Nat)
  | give (r : Requester) (cls inst : Nat)
  | registerWrite (r : Requester) (offset : Nat) (v : W32)
  | vinLow (mv : BitVec 16)
  | ctrlBlock (block : Byte)
  | portDieLost (p : Fin 4)
  | debugInstruction
  | droopSlotEnd (cl : Fin 256)
  | requestFirmwareData (offset : Nat) (data : List Byte)
  | stopCapData (r : Requester)
  | seqStatus (r : Requester) (cl : Fin 256)
deriving DecidableEq, Repr

end Sys2Proof
end

