-- ==== Sys2Proof/Config.lean ====
section
/-! DEFINITION. What the spec leaves open: free values, opaque constants without a body. Each is named in
a row of the assumption log. -/

namespace Sys2Proof.Config

/-- A byte of host memory that the device has neither written nor been sent (log 3). -/
opaque hostByte : Nat → Byte

/-- The 16 bytes of the fused SERIAL (R547; log 4). -/
opaque serial : Nat → Byte

/-- Which of the free objects is taken: any of them (R182 fixes only the region; log 6). -/
opaque pick : Nat → Nat

/-- A free value for a result the spec does not state, drawn by the state's counter (log 2). -/
opaque freeValue : Nat → W64

/-- Device addresses of the plan records of a segment of the program image whose descriptor is at an
address and has a VERSION: the spec gives no container (log 7). -/
opaque imagePlans : (desc version segment : Nat) → List Nat

/-- Number of segments of the image (R390, BAD_IMAGE; log 7). -/
opaque imageSegments : (desc version : Nat) → Nat

/-- Byte address of the image's storage base that the offsets of a plan record count from (log 7). -/
opaque imageBase : (desc version : Nat) → Nat

/-- Tokens per step of the image (R48; log 7). -/
opaque imageTokens : (desc version : Nat) → Nat

/-- Action width A of the image, before the bound of R51 (log 7). -/
opaque imageActions : (desc version : Nat) → Nat

/-- The image's state shape, its extents from dimension 0 (R44, BAD_ROOT; log 7). -/
opaque imageShape : (desc version : Nat) → List Nat

/-- Elements of the image's state shape. -/
def imageState (desc version : Nat) : Nat := (imageShape desc version).foldl (· * ·) 1

/-- Where a wellhead image keeps the weights of a layer of its step: their device address and their bytes, 0 for none
(R50; log 7). -/
opaque stepWeights : (desc version layer : Nat) → Nat × Nat

/-- LOGP: the log-density of an action under a policy head's mean and log-scale in FP32, for which the spec gives no formula
(R76; log 88). -/
opaque logDensity : (action mean logScale : List W32) → W32

/-- The score of a branch that a PRUNE ranks in HOST mode without a SCORES tensor (R63, R79; log 88). -/
opaque missingScore : (groupSeed branchSeed : W32) → (steps : Nat) → W32

/-- Does a wellhead image's plan narrow the carried state of trajectory rows with RND = 1, and the TILE its lanes load, by
branch key and step (R160, R164; log 116). -/
opaque trajStochastic : (desc version : Nat) → Bool
opaque trajTile : (key step : Nat) → Nat

/-- A dimension of an action before the policy head has given its first outputs, by group seed, branch seed, STEPS and
dimension (R51, R52; log 88). -/
opaque firstAction : (groupSeed branchSeed : W32) → (steps dim : Nat) → W32

/-- The sequences a segment of the image appends to, each with the positions it appends (R196, R198; log 7). -/
opaque imageAppend : (desc version segment : Nat) → List (Nat × Nat)

/-- Device address of table `slot` of the element table set at an image offset; none where the slot is empty. The
spec lays out a table and not the set (R130; log 7). -/
opaque tableAddr : (desc version off slot : Nat) → Option Nat

/-- Does the header of a table set select compatibility mode (R136, R168; log 7). -/
opaque tableCompat : (desc version off : Nat) → Bool

/-- A field of an attention header: 0 KV_FMT, 1 query rate class is that of KV_FMT, 2 D, 3 KVH, 4 G, 5 layers per holder.
The spec gives the parameters and no layout (R176; log 7). -/
opaque attnField : (desc version off field : Nat) → Nat

/-- The scale c of an attention layer, in FP32 (R165); the frame of a row block's queries, by the row block and the positions
its holder has (R169); the sequence that is a RUN's holder of an ordinal (R177). The plan states them, in no layout the spec
gives (log 7). -/
opaque attnScale : (desc version off : Nat) → W32
opaque attnFrame : (desc version off rowBlock positions : Nat) → Nat
opaque attnSeq : (desc version off holder : Nat) → Nat

/-- A key or value row that an item appends to a holder (R190): the holder's ordinal, the attention layer and key-value head,
whether it is a value row, which of the appended positions, and the core-store address of the row. -/
structure KvRow where
  holder : Nat
  layer  : Nat
  head   : Nat
  value  : Bool
  token  : Nat
  at_    : Nat
deriving DecidableEq, Repr

/-- The rows an item of a layer appends: the plan says so in no layout the spec gives (log 7). -/
opaque kvRows : (desc version layer item : Nat) → List KvRow

/-- One piece that a weight pump moves between a tensor and a core store: the descriptor slot of the command (0x100: a device
address; 0x101: the state block of the tile's branch), the byte offset there, the length, the core-store address from the
stream's, and a constant written in place of data. -/
structure Piece where
  slot  : Nat
  off   : Nat
  len   : Nat
  at_   : Nat
  const : Option Byte := none
deriving DecidableEq, Repr

/-- The pieces the pumps fetch into a stream's buffer for a level-0 tile of a layer, and those they store from an output
stream's: the spec does not say which bytes of a tensor make a tile (R246, R260; log 7). A tile is named by its element
origin, in a convolution with its tap. -/
opaque tilePieces : (desc version layer stream : Nat) → (tile : List Nat) → List Piece
opaque tileDrains : (desc version layer stream : Nat) → (tile : List Nat) → List Piece

/-- The fields of a VECTOR word: operation code and operand fields; the spec gives no bit layout (log 8). -/
opaque vectorField : W64 → Nat → Nat

/-- The mask and the address of a SAVE40 or RESTORE40 word: no bit layout (log 8). -/
opaque saveField : W64 → Nat → Nat

/-- A vector function of a code at an FP32 input, before the accuracy bound of R118 (log 9). -/
opaque vecFn : (fn : Nat) → W32 → W32

/-- The greater or the lesser of two FP32 values where IEEE 754 leaves a choice: a NaN, or zeros of two signs (log 9). -/
opaque maxMin : (greater : Bool) → W32 → W32 → W32

/-- The pattern of a NaN written in a narrow format, and what a format without NaN gets, by format and operands (log 18). -/
opaque nanPayload : (fmt key : Nat) → Nat

/-- The 16 bits U that an LFSR lane gives (R113 does not say which of its bits; log 20). -/
opaque lfsrBits : W32 → Nat

/-- The scale of a block whose scale the OCP specification leaves open: all zero, or with a NaN or an infinity (log 19). -/
opaque mxScale : (key : Nat) → Byte

/-- A byte of the NEXT link of a page's record at a time: the order of the free lists is open (R182, R183; log 6). -/
opaque nextLink : (page byte now : Nat) → Byte

/-- The value of a counter whose events no row of the table carries, or of a bit that shows one cycle, by page class,
instance, offset and time (logs 89 and 101). -/
opaque openCount : (cls inst off now : Nat) → W64

/-- Cycles in which a stage of a core's array held during a pass (R124; log 101). -/
opaque stallCycles : (core now : Nat) → Nat

/-- A function of the KL-5 compatibility pipeline (R139; log 9). -/
opaque compatFn : (fn : Nat) → W32 → W32

/-- The result word of a vector compare (R116 gives no encoding; log 8). -/
opaque cmpResult : W32 → W32 → W32

/-- The TILE that a CVT word with RND = 1 loads its lanes with, by the ordinal of the drain that follows it in the plan:
R114 gives a TILE to drains alone (log 20). -/
opaque cvtTile : Nat → Nat

/-- The arrival tag a VECTOR, SAVE40 or RESTORE40 word names, if any: R146 lets a word name one and gives no field; the
words the spec lays out have none (log 8). -/
opaque wordTag : W64 → Option Nat

/-- A power of a group's GAMMA with an exponent above 1 in FP32: the spec does not say how the power is rounded (R53,
R63; log 30). -/
opaque gammaPower : W32 → Nat → W32

/-- SHA-256 (log 10). -/
opaque sha256 : List Byte → Nat → Byte

/-- Does the LMS signature over a message verify under a vendor key slot (RFC 8554; log 10). -/
opaque lmsVerify : (slot : Nat) → (msg sig : List Byte) → Bool

/-- Byte of the HSS signature of a message at an index (R491; log 10). -/
opaque hssSign : (index : Nat) → (msg : List Byte) → Nat → Byte

/-- Byte of the HSS public key, and of the identity certificate (R490; log 10). -/
opaque identityKey : Nat → Byte
opaque certificate : Nat → Byte

/-- DIGEST of the ROM's minimal firmware (R491; log 10). -/
opaque romDigest : Nat → Byte

/-- SVN that a report names in minimal mode (R491; log 10). -/
opaque romSvn : Nat

/-- Byte of the boot flash as the part was delivered, where the spec does not fix it (R480; log 16). -/
opaque flashByte : Nat → Byte

/-- The response to a PLDM message carried by the mailbox: the messages of DSP0267 have no layout in the spec (R493,
R555; log 47). -/
opaque pldmResponse : List Byte → List Byte

/-- DEVICE_TAG and CHECK of a cistern label for a key epoch (R371; log 10). -/
opaque deviceTag : Nat → Byte
opaque labelCheck : (keyEpoch lcTransitions : Nat) → (serial : Nat) → Nat → Byte

/-- Byte of a block as the inline cipher of a module stores it, and as it reads one back, for a key epoch (R370, R371;
log 10). -/
opaque cisEncrypt : (keyEpoch block : Nat) → List Byte → Nat → Byte
opaque cisDecrypt : (keyEpoch block : Nat) → List Byte → Nat → Byte

/-- The number a HOLD trace record gives a hold state: the spec names the states and gives no codes (log 25). -/
opaque holdCode : Nat → Nat

/-- What a capture holds of a domain's queues: NQ, the number of bytes of its queue records, a multiple of 16, and their
bytes; and the cycle count of a domain that is no cluster (14, "Queue record": the contents are not specified; log 11). -/
opaque captureNq : (domain : Nat) → Nat
opaque captureUnits : (domain : Nat) → Nat
opaque captureByte : (domain index : Nat) → Byte
opaque captureCycles : (domain time : Nat) → Nat

end Sys2Proof.Config
end

