-- ==== Sys2Proof/Machine/Regs.lean ====
section
/-! DEFINITION. The register tables of the spec: every field of every page with its place, access code, reset value and
block (15_registers.md and the register tables of each block's chapter), and the 64-bit counters. -/

namespace Sys2Proof.Machine

/-- Access codes (R17). -/
inductive Access where
  | ro | rws | rwb | rwl | w1c | wo
deriving DecidableEq, Repr

/-- The block whose idle and busy states govern a field (R538, table "Blocks and boundaries"). -/
inductive Blk where
  | page | pool | edit | own | window | core | sequencer | wfg
deriving DecidableEq, Repr

/-- A register field: page class, offset of its register, low bit, width, access, reset value, reserved encodings
that R574 refuses, and block. A per-core field has the offset of core 0. -/
structure Field where
  cls   : Nat
  off   : Nat
  lo    : Nat
  width : Nat
  acc   : Access
  reset : Nat
  rsv   : List Nat
  blk   : Blk
deriving DecidableEq, Repr

/-- A 64-bit counter or 64-bit register: page class and offset. -/
structure Cnt where
  cls : Nat
  off : Nat
deriving DecidableEq, Repr


/-- WH_CFG.ENABLE (R82). -/
def F.WH_CFG.ENABLE : Field := ⟨0x02, 0x100, 0, 1, .rws, 0, [], .page⟩

/-- WH_MAX_INFLIGHT.N (R82). -/
def F.WH_MAX_INFLIGHT.N : Field := ⟨0x02, 0x104, 0, 5, .rws, 16, [], .page⟩

/-- WH_BT_BASE.BASE (R82). -/
def F.WH_BT_BASE.BASE : Field := ⟨0x02, 0x108, 0, 14, .rws, 0, [], .page⟩

/-- WH_SP_CFG.BSIZE (R82). -/
def F.WH_SP_CFG.BSIZE : Field := ⟨0x02, 0x10C, 0, 8, .rws, 0, [], .page⟩

/-- WH_SP_BASE.BASE (R82). -/
def F.WH_SP_BASE.BASE : Field := ⟨0x02, 0x110, 0, 28, .rws, 0, [], .page⟩

/-- WH_SP_COUNT.N (R82). -/
def F.WH_SP_COUNT.N : Field := ⟨0x02, 0x114, 0, 24, .rws, 0, [], .page⟩

/-- WH_HIST_BASE_LO.BASE (R82). -/
def F.WH_HIST_BASE_LO.BASE : Field := ⟨0x02, 0x118, 24, 8, .rws, 0, [], .page⟩

/-- WH_HIST_BASE_HI.BASE (R82). -/
def F.WH_HIST_BASE_HI.BASE : Field := ⟨0x02, 0x11C, 0, 32, .rws, 0, [], .page⟩

/-- WH_LIVE.N (R82). -/
def F.WH_LIVE.N : Field := ⟨0x02, 0x120, 0, 17, .ro, 0, [], .page⟩

/-- WH_OPEN_GROUPS.N (R82). -/
def F.WH_OPEN_GROUPS.N : Field := ⟨0x02, 0x124, 0, 9, .ro, 0, [], .page⟩

/-- WH_SP_FREE.N (R82). -/
def F.WH_SP_FREE.N : Field := ⟨0x02, 0x128, 0, 24, .ro, 0, [], .page⟩

/-- WH_HOLD.WAIT_PAGE (R82). -/
def F.WH_HOLD.WAIT_PAGE : Field := ⟨0x02, 0x12C, 0, 1, .ro, 0, [], .page⟩

/-- WH_HOLD.WAIT_STATE (R82). -/
def F.WH_HOLD.WAIT_STATE : Field := ⟨0x02, 0x12C, 1, 1, .ro, 0, [], .page⟩

/-- WH_HOLD.GROUP (R82). -/
def F.WH_HOLD.GROUP : Field := ⟨0x02, 0x12C, 8, 8, .ro, 0, [], .page⟩

/-- WH_INT_STATUS.HOLD (R82). -/
def F.WH_INT_STATUS.HOLD : Field := ⟨0x02, 0x130, 0, 1, .w1c, 0, [], .page⟩

/-- WH_INT_STATUS.HISTORY_FULL (R82). -/
def F.WH_INT_STATUS.HISTORY_FULL : Field := ⟨0x02, 0x130, 1, 1, .w1c, 0, [], .page⟩

/-- WH_INT_STATUS.REDERIVE_START (R82). -/
def F.WH_INT_STATUS.REDERIVE_START : Field := ⟨0x02, 0x130, 2, 1, .w1c, 0, [], .page⟩

/-- WH_INT_STATUS.REDERIVE_DONE (R82). -/
def F.WH_INT_STATUS.REDERIVE_DONE : Field := ⟨0x02, 0x130, 3, 1, .w1c, 0, [], .page⟩

/-- WH_INT_EN.MASK (R82). -/
def F.WH_INT_EN.MASK : Field := ⟨0x02, 0x134, 0, 4, .rwl, 0, [], .page⟩

/-- WH_GRP_SEL.GROUP (R82). -/
def F.WH_GRP_SEL.GROUP : Field := ⟨0x02, 0x138, 0, 8, .rwl, 0, [], .page⟩

/-- WH_GRP_INFO.STATE (R82). -/
def F.WH_GRP_INFO.STATE : Field := ⟨0x02, 0x13C, 0, 3, .ro, 0, [], .page⟩

/-- WH_GRP_INFO.BRANCHES (R82). -/
def F.WH_GRP_INFO.BRANCHES : Field := ⟨0x02, 0x13C, 8, 13, .ro, 0, [], .page⟩

/-- WH_GRP_STEP.STEP (R82). -/
def F.WH_GRP_STEP.STEP : Field := ⟨0x02, 0x140, 0, 16, .ro, 0, [], .page⟩

/-- WH_GRP_STEP.HISTORY (R82). -/
def F.WH_GRP_STEP.HISTORY : Field := ⟨0x02, 0x140, 16, 11, .ro, 0, [], .page⟩

/-- WH_GRP_CTX.CONTEXT (R82). -/
def F.WH_GRP_CTX.CONTEXT : Field := ⟨0x02, 0x144, 0, 16, .ro, 0, [], .page⟩

/-- CORE_CFG.W40_SAT (R128). -/
def F.CORE_CFG.W40_SAT : Field := ⟨0x11, 0x400, 0, 1, .rwb, 1, [], .core⟩

/-- CORE_CFG.NARROW_SAT (R128). -/
def F.CORE_CFG.NARROW_SAT : Field := ⟨0x11, 0x400, 1, 1, .rwb, 1, [], .core⟩

/-- CORE_CFG.ELT_COMPAT (R128). -/
def F.CORE_CFG.ELT_COMPAT : Field := ⟨0x11, 0x400, 2, 1, .rws, 0, [], .core⟩

/-- CORE_CFG.PLACE (R128). -/
def F.CORE_CFG.PLACE : Field := ⟨0x11, 0x400, 3, 1, .rwl, 1, [], .core⟩

/-- CORE_STATUS.BUSY (R128). -/
def F.CORE_STATUS.BUSY : Field := ⟨0x11, 0x404, 0, 1, .ro, 0, [], .core⟩

/-- CORE_STATUS.FUSED (R128). -/
def F.CORE_STATUS.FUSED : Field := ⟨0x11, 0x404, 1, 1, .ro, 0, [], .core⟩

/-- CORE_STATUS.OFFLINE (R128). -/
def F.CORE_STATUS.OFFLINE : Field := ⟨0x11, 0x404, 2, 1, .ro, 0, [], .core⟩

/-- CORE_STATUS.TESTING (R128). -/
def F.CORE_STATUS.TESTING : Field := ⟨0x11, 0x404, 3, 1, .ro, 0, [], .core⟩

/-- CORE_STATUS.LIVE_WELLS (R128). -/
def F.CORE_STATUS.LIVE_WELLS : Field := ⟨0x11, 0x404, 4, 5, .ro, 0, [], .core⟩

/-- CORE_STATUS.STALL_FEED (R128). -/
def F.CORE_STATUS.STALL_FEED : Field := ⟨0x11, 0x404, 9, 1, .ro, 0, [], .core⟩

/-- CORE_STATUS.STALL_OUT (R128). -/
def F.CORE_STATUS.STALL_OUT : Field := ⟨0x11, 0x404, 10, 1, .ro, 0, [], .core⟩

/-- CORE_STATUS.WORDQ (R128). -/
def F.CORE_STATUS.WORDQ : Field := ⟨0x11, 0x404, 16, 6, .ro, 0, [], .core⟩

/-- CORE_TEST.START (R128). -/
def F.CORE_TEST.START : Field := ⟨0x11, 0x408, 0, 1, .wo, 0, [], .core⟩

/-- CORE_TEST.DONE (R128). -/
def F.CORE_TEST.DONE : Field := ⟨0x11, 0x408, 1, 1, .ro, 0, [], .core⟩

/-- CORE_TEST.PASS (R128). -/
def F.CORE_TEST.PASS : Field := ⟨0x11, 0x408, 2, 1, .ro, 0, [], .core⟩

/-- CORE_TEST.FAIL_UNIT (R128). -/
def F.CORE_TEST.FAIL_UNIT : Field := ⟨0x11, 0x408, 8, 3, .ro, 0, [], .core⟩

/-- CORE_FAULT.CAUSE (R128). -/
def F.CORE_FAULT.CAUSE : Field := ⟨0x11, 0x40C, 0, 8, .ro, 0, [], .core⟩

/-- CORE_FAULT.WELL (R128). -/
def F.CORE_FAULT.WELL : Field := ⟨0x11, 0x40C, 8, 5, .ro, 0, [], .core⟩

/-- CORE_FAULT.CLEAR (R128). -/
def F.CORE_FAULT.CLEAR : Field := ⟨0x11, 0x40C, 31, 1, .wo, 0, [], .core⟩

/-- KVP_CFG.ENABLE (R207). -/
def F.KVP_CFG.ENABLE : Field := ⟨0x04, 0x100, 0, 1, .rws, 0, [], .pool⟩

/-- KVP_CFG.PSIZE (R207). -/
def F.KVP_CFG.PSIZE : Field := ⟨0x04, 0x100, 1, 3, .rws, 3, [6, 7], .pool⟩

/-- KVP_TP_CFG.SLOT (R207). -/
def F.KVP_TP_CFG.SLOT : Field := ⟨0x04, 0x104, 0, 4, .rws, 1, [], .pool⟩

/-- KVP_TP_BASE.BASE (R207). -/
def F.KVP_TP_BASE.BASE : Field := ⟨0x04, 0x108, 0, 28, .rws, 0, [], .pool⟩

/-- KVP_SEQ_BASE.BASE (R207). -/
def F.KVP_SEQ_BASE.BASE : Field := ⟨0x04, 0x10C, 0, 28, .rws, 0, [], .pool⟩

/-- KVP_SEQ_COUNT.N (R207). -/
def F.KVP_SEQ_COUNT.N : Field := ⟨0x04, 0x110, 0, 21, .rws, 0, [], .pool⟩

/-- KVP_REC_BASE.BASE (R207). -/
def F.KVP_REC_BASE.BASE : Field := ⟨0x04, 0x114, 0, 28, .rws, 0, [], .pool⟩

/-- KVP_REG_SEL.REGION (R207). -/
def F.KVP_REG_SEL.REGION : Field := ⟨0x04, 0x118, 0, 4, .rwl, 0, [12, 13, 14, 15], .pool⟩

/-- KVP_REG_BASE.BASE (R207). -/
def F.KVP_REG_BASE.BASE : Field := ⟨0x04, 0x11C, 0, 28, .rws, 0, [], .pool⟩

/-- KVP_REG_COUNT.N (R207). -/
def F.KVP_REG_COUNT.N : Field := ⟨0x04, 0x120, 0, 25, .rws, 0, [], .pool⟩

/-- KVP_FREE.N (R207). -/
def F.KVP_FREE.N : Field := ⟨0x04, 0x124, 0, 25, .ro, 0, [], .pool⟩

/-- KVP_HELD.N (R207). -/
def F.KVP_HELD.N : Field := ⟨0x04, 0x128, 0, 25, .ro, 0, [], .pool⟩

/-- KVP_HOLD.WAIT_PAGE (R207). -/
def F.KVP_HOLD.WAIT_PAGE : Field := ⟨0x04, 0x12C, 0, 1, .ro, 0, [], .pool⟩

/-- KVP_HOLD.WAIT_TABLE (R207). -/
def F.KVP_HOLD.WAIT_TABLE : Field := ⟨0x04, 0x12C, 1, 1, .ro, 0, [], .pool⟩

/-- KVP_HOLD.QUEUE (R207). -/
def F.KVP_HOLD.QUEUE : Field := ⟨0x04, 0x12C, 16, 12, .ro, 0, [], .pool⟩

/-- KVP_INT_STATUS.HOLD (R207). -/
def F.KVP_INT_STATUS.HOLD : Field := ⟨0x04, 0x130, 0, 1, .w1c, 0, [], .pool⟩

/-- KVP_INT_STATUS.EDIT_DONE (R207). -/
def F.KVP_INT_STATUS.EDIT_DONE : Field := ⟨0x04, 0x130, 1, 1, .w1c, 0, [], .pool⟩

/-- KVP_INT_STATUS.EDIT_FULL (R207). -/
def F.KVP_INT_STATUS.EDIT_FULL : Field := ⟨0x04, 0x130, 2, 1, .w1c, 0, [], .pool⟩

/-- KVP_INT_STATUS.LOW (R207). -/
def F.KVP_INT_STATUS.LOW : Field := ⟨0x04, 0x130, 3, 1, .w1c, 0, [], .pool⟩

/-- KVP_INT_EN.MASK (R207). -/
def F.KVP_INT_EN.MASK : Field := ⟨0x04, 0x134, 0, 4, .rwl, 0, [], .pool⟩

/-- KVP_LOW_MARK.N (R207). -/
def F.KVP_LOW_MARK.N : Field := ⟨0x04, 0x138, 0, 25, .rwl, 0, [], .pool⟩

/-- KVP_EDIT_OP.OP (R207). -/
def F.KVP_EDIT_OP.OP : Field := ⟨0x04, 0x13C, 0, 4, .rws, 0, [], .edit⟩

/-- KVP_EDIT_OP.BRANCH (R207). -/
def F.KVP_EDIT_OP.BRANCH : Field := ⟨0x04, 0x13C, 4, 1, .rws, 0, [], .edit⟩

/-- KVP_EDIT_TARGET.ID (R207). -/
def F.KVP_EDIT_TARGET.ID : Field := ⟨0x04, 0x140, 0, 20, .rws, 0, [], .edit⟩

/-- KVP_EDIT_ARG0.VALUE (R207). -/
def F.KVP_EDIT_ARG0.VALUE : Field := ⟨0x04, 0x144, 0, 32, .rws, 0, [], .edit⟩

/-- KVP_EDIT_ARG1.VALUE (R207). -/
def F.KVP_EDIT_ARG1.VALUE : Field := ⟨0x04, 0x148, 0, 32, .rws, 0, [], .edit⟩

/-- KVP_EDIT_CTX.CONTEXT (R207). -/
def F.KVP_EDIT_CTX.CONTEXT : Field := ⟨0x04, 0x14C, 0, 16, .rws, 0, [], .edit⟩

/-- KVP_EDIT_GO.GO (R207). -/
def F.KVP_EDIT_GO.GO : Field := ⟨0x04, 0x150, 0, 1, .wo, 0, [], .edit⟩

/-- KVP_EDIT_STATUS.BUSY (R207). -/
def F.KVP_EDIT_STATUS.BUSY : Field := ⟨0x04, 0x154, 0, 1, .ro, 0, [], .edit⟩

/-- KVP_EDIT_STATUS.DEFERRED (R207). -/
def F.KVP_EDIT_STATUS.DEFERRED : Field := ⟨0x04, 0x154, 1, 1, .ro, 0, [], .edit⟩

/-- KVP_EDIT_STATUS.RESULT (R207). -/
def F.KVP_EDIT_STATUS.RESULT : Field := ⟨0x04, 0x154, 4, 4, .ro, 0, [], .edit⟩

/-- SEQ_CFG.CLAIM_AHEAD (R275). -/
def F.SEQ_CFG.CLAIM_AHEAD : Field := ⟨0x11, 0x100, 0, 2, .rwb, 1, [], .sequencer⟩

/-- SEQ_STATUS.BUSY (R275). -/
def F.SEQ_STATUS.BUSY : Field := ⟨0x11, 0x104, 0, 1, .ro, 0, [], .sequencer⟩

/-- SEQ_STATUS.LAYERS (R275). -/
def F.SEQ_STATUS.LAYERS : Field := ⟨0x11, 0x104, 1, 3, .ro, 0, [], .sequencer⟩

/-- SEQ_STATUS.WAIT_CLAIM (R275). -/
def F.SEQ_STATUS.WAIT_CLAIM : Field := ⟨0x11, 0x104, 4, 1, .ro, 0, [], .sequencer⟩

/-- SEQ_STATUS.FENCED (R275). -/
def F.SEQ_STATUS.FENCED : Field := ⟨0x11, 0x104, 5, 1, .ro, 0, [], .sequencer⟩

/-- SEQ_JOB.JOB (R275). -/
def F.SEQ_JOB.JOB : Field := ⟨0x11, 0x108, 0, 32, .ro, 0, [], .sequencer⟩

/-- SEQ_JOBINFO.GEN (R275). -/
def F.SEQ_JOBINFO.GEN : Field := ⟨0x11, 0x10C, 0, 8, .ro, 0, [], .sequencer⟩

/-- SEQ_JOBINFO.COUNTER (R275). -/
def F.SEQ_JOBINFO.COUNTER : Field := ⟨0x11, 0x10C, 8, 10, .ro, 0, [], .sequencer⟩

/-- OWN_OP.OP (R328). -/
def F.OWN_OP.OP (cls : Nat) : Field := ⟨cls, 0x140, 0, 2, .rws, 0, [0], .own⟩

/-- OWN_FIRST.GRANULE (R328). -/
def F.OWN_FIRST.GRANULE (cls : Nat) : Field := ⟨cls, 0x144, 0, 15, .rws, 0, [], .own⟩

/-- OWN_COUNT.N (R328). -/
def F.OWN_COUNT.N (cls : Nat) : Field := ⟨cls, 0x148, 0, 16, .rws, 0, [], .own⟩

/-- OWN_CTX.CONTEXT (R328). -/
def F.OWN_CTX.CONTEXT (cls : Nat) : Field := ⟨cls, 0x14C, 0, 16, .rws, 65534, [], .own⟩

/-- OWN_GO.GO (R328). -/
def F.OWN_GO.GO (cls : Nat) : Field := ⟨cls, 0x150, 0, 1, .wo, 0, [], .own⟩

/-- OWN_STATUS.BUSY (R328). -/
def F.OWN_STATUS.BUSY (cls : Nat) : Field := ⟨cls, 0x154, 0, 1, .ro, 0, [], .own⟩

/-- OWN_STATUS.DEFERRED (R328). -/
def F.OWN_STATUS.DEFERRED (cls : Nat) : Field := ⟨cls, 0x154, 1, 1, .ro, 0, [], .own⟩

/-- OWN_STATUS.ZEROING (R328). -/
def F.OWN_STATUS.ZEROING (cls : Nat) : Field := ⟨cls, 0x154, 2, 1, .ro, 0, [], .own⟩

/-- OWN_STATUS.RESULT (R328). -/
def F.OWN_STATUS.RESULT (cls : Nat) : Field := ⟨cls, 0x154, 4, 4, .ro, 0, [], .own⟩

/-- PDIE_SYS.SIZE (R329). -/
def F.PDIE_SYS.SIZE : Field := ⟨0x20, 0x100, 0, 16, .ro, 2, [], .page⟩

/-- PDIE_WIN_CFG.DEPTH (R329). -/
def F.PDIE_WIN_CFG.DEPTH : Field := ⟨0x20, 0x104, 0, 3, .rwb, 3, [], .window⟩

/-- PDIE_WIN_BASE.BASE (R329). -/
def F.PDIE_WIN_BASE.BASE : Field := ⟨0x20, 0x108, 0, 11, .rws, 0, [], .window⟩

/-- PDIE_WIN_SIZE.SIZE (R329). -/
def F.PDIE_WIN_SIZE.SIZE : Field := ⟨0x20, 0x10C, 0, 11, .rws, 0, [], .window⟩

/-- PDIE_STATUS.BUSY (R329). -/
def F.PDIE_STATUS.BUSY : Field := ⟨0x20, 0x110, 0, 1, .ro, 0, [], .page⟩

/-- PDIE_STATUS.WIN_WAIT (R329). -/
def F.PDIE_STATUS.WIN_WAIT : Field := ⟨0x20, 0x110, 1, 1, .ro, 0, [], .page⟩

/-- PDIE_STATUS.RPUMP_BUSY (R329). -/
def F.PDIE_STATUS.RPUMP_BUSY : Field := ⟨0x20, 0x110, 2, 2, .ro, 0, [], .page⟩

/-- PDIE_INT_STATUS.OWN_DONE (R329). -/
def F.PDIE_INT_STATUS.OWN_DONE : Field := ⟨0x20, 0x114, 0, 1, .w1c, 0, [], .page⟩

/-- PDIE_INT_STATUS.RED_DONE (R329). -/
def F.PDIE_INT_STATUS.RED_DONE : Field := ⟨0x20, 0x114, 1, 1, .w1c, 0, [], .page⟩

/-- PDIE_INT_EN.MASK (R329). -/
def F.PDIE_INT_EN.MASK : Field := ⟨0x20, 0x118, 0, 2, .rwl, 0, [], .page⟩

/-- HBMC_CFG.ZERO_SHARE (R331). -/
def F.HBMC_CFG.ZERO_SHARE : Field := ⟨0x21, 0x100, 0, 2, .rwb, 0, [3], .page⟩

/-- HBMC_STATUS.BUSY (R331). -/
def F.HBMC_STATUS.BUSY : Field := ⟨0x21, 0x104, 0, 1, .ro, 0, [], .page⟩

/-- HBMC_STATUS.TRAINED (R331). -/
def F.HBMC_STATUS.TRAINED : Field := ⟨0x21, 0x104, 1, 1, .ro, 0, [], .page⟩

/-- HBMC_STATUS.RETIRED (R331). -/
def F.HBMC_STATUS.RETIRED : Field := ⟨0x21, 0x104, 2, 1, .ro, 0, [], .page⟩

/-- HBMC_STATUS.RETIRED_PC (R331). -/
def F.HBMC_STATUS.RETIRED_PC : Field := ⟨0x21, 0x104, 3, 6, .ro, 0, [], .page⟩

/-- HBMC_STATUS.OFFLINE (R331). -/
def F.HBMC_STATUS.OFFLINE : Field := ⟨0x21, 0x104, 9, 1, .ro, 0, [], .page⟩

/-- HBMC_STATUS.RETRAINING (R331). -/
def F.HBMC_STATUS.RETRAINING : Field := ⟨0x21, 0x104, 10, 1, .ro, 0, [], .page⟩

/-- HBMC_STATUS.RETRAIN_CH (R331). -/
def F.HBMC_STATUS.RETRAIN_CH : Field := ⟨0x21, 0x104, 11, 5, .ro, 0, [], .page⟩

/-- HBMC_TEMP.TEMP (R331). -/
def F.HBMC_TEMP.TEMP : Field := ⟨0x21, 0x108, 0, 8, .ro, 0, [], .page⟩

/-- HBMC_TEMP.STEP (R331). -/
def F.HBMC_TEMP.STEP : Field := ⟨0x21, 0x108, 8, 2, .ro, 0, [], .page⟩

/-- HBMC_REF_CFG.MIN_STEP (R331). -/
def F.HBMC_REF_CFG.MIN_STEP : Field := ⟨0x21, 0x10C, 0, 2, .rwl, 0, [], .page⟩

/-- HBMC_FAULT.PC (R331). -/
def F.HBMC_FAULT.PC : Field := ⟨0x21, 0x110, 0, 6, .ro, 0, [], .page⟩

/-- HBMC_FAULT.KIND (R331). -/
def F.HBMC_FAULT.KIND : Field := ⟨0x21, 0x110, 6, 2, .ro, 0, [], .page⟩

/-- HBMC_FAULT.CLEAR (R331). -/
def F.HBMC_FAULT.CLEAR : Field := ⟨0x21, 0x110, 31, 1, .wo, 0, [], .page⟩

/-- HBMC_INT_STATUS.STEP_CHANGE (R331). -/
def F.HBMC_INT_STATUS.STEP_CHANGE : Field := ⟨0x21, 0x114, 0, 1, .w1c, 0, [], .page⟩

/-- HBMC_INT_STATUS.PC_RETIRED (R331). -/
def F.HBMC_INT_STATUS.PC_RETIRED : Field := ⟨0x21, 0x114, 1, 1, .w1c, 0, [], .page⟩

/-- HBMC_INT_STATUS.OWN_DONE (R331). -/
def F.HBMC_INT_STATUS.OWN_DONE : Field := ⟨0x21, 0x114, 2, 1, .w1c, 0, [], .page⟩

/-- HBMC_INT_STATUS.ZERO_DONE (R331). -/
def F.HBMC_INT_STATUS.ZERO_DONE : Field := ⟨0x21, 0x114, 3, 1, .w1c, 0, [], .page⟩

/-- HBMC_INT_EN.MASK (R331). -/
def F.HBMC_INT_EN.MASK : Field := ⟨0x21, 0x118, 0, 4, .rwl, 0, [], .page⟩

/-- OP_CFG.ENABLE (R376). -/
def F.OP_CFG.ENABLE : Field := ⟨0x30, 0x100, 0, 1, .rws, 0, [], .page⟩

/-- OP_CFG.ROLE (R376). -/
def F.OP_CFG.ROLE : Field := ⟨0x30, 0x100, 1, 1, .ro, 0, [], .page⟩

/-- OP_STATUS.UP (R376). -/
def F.OP_STATUS.UP : Field := ⟨0x30, 0x104, 0, 1, .ro, 0, [], .page⟩

/-- OP_STATUS.FAILED (R376). -/
def F.OP_STATUS.FAILED : Field := ⟨0x30, 0x104, 1, 1, .ro, 0, [], .page⟩

/-- OP_STATUS.IN_SLOT (R376). -/
def F.OP_STATUS.IN_SLOT : Field := ⟨0x30, 0x104, 2, 1, .ro, 0, [], .page⟩

/-- OP_STATUS.LIT_TX (R376). -/
def F.OP_STATUS.LIT_TX : Field := ⟨0x30, 0x104, 8, 4, .ro, 0, [], .page⟩

/-- OP_STATUS.LIT_RX (R376). -/
def F.OP_STATUS.LIT_RX : Field := ⟨0x30, 0x104, 12, 4, .ro, 0, [], .page⟩

/-- OP_LANE_TX.STATE (R376). -/
def F.OP_LANE_TX.STATE : Field := ⟨0x30, 0x108, 0, 16, .ro, 0, [], .page⟩

/-- OP_LANE_RX.STATE (R376). -/
def F.OP_LANE_RX.STATE : Field := ⟨0x30, 0x10C, 0, 16, .ro, 0, [], .page⟩

/-- OP_LASER.PRESENT (R376). -/
def F.OP_LASER.PRESENT : Field := ⟨0x30, 0x110, 0, 8, .ro, 0, [], .page⟩

/-- OP_CTRL.RESET_LANES (R376). -/
def F.OP_CTRL.RESET_LANES : Field := ⟨0x30, 0x114, 0, 1, .wo, 0, [], .page⟩

/-- OP_CTRL.REJOIN (R376). -/
def F.OP_CTRL.REJOIN : Field := ⟨0x30, 0x114, 1, 1, .wo, 0, [], .page⟩

/-- OP_INT_STATUS.LANE_DOWN (R376). -/
def F.OP_INT_STATUS.LANE_DOWN : Field := ⟨0x30, 0x118, 0, 1, .w1c, 0, [], .page⟩

/-- OP_INT_STATUS.LANE_UP (R376). -/
def F.OP_INT_STATUS.LANE_UP : Field := ⟨0x30, 0x118, 1, 1, .w1c, 0, [], .page⟩

/-- OP_INT_STATUS.PORT_DOWN (R376). -/
def F.OP_INT_STATUS.PORT_DOWN : Field := ⟨0x30, 0x118, 2, 1, .w1c, 0, [], .page⟩

/-- OP_INT_STATUS.PORT_UP (R376). -/
def F.OP_INT_STATUS.PORT_UP : Field := ⟨0x30, 0x118, 3, 1, .w1c, 0, [], .page⟩

/-- OP_INT_EN.MASK (R376). -/
def F.OP_INT_EN.MASK : Field := ⟨0x30, 0x11C, 0, 4, .rwl, 0, [], .page⟩

/-- HL_CFG.PUSH_EN (R377). -/
def F.HL_CFG.PUSH_EN : Field := ⟨0x31, 0x100, 0, 1, .rwb, 1, [], .page⟩

/-- HL_STATUS.UP (R377). -/
def F.HL_STATUS.UP : Field := ⟨0x31, 0x104, 0, 1, .ro, 0, [], .page⟩

/-- HL_STATUS.HANDOVER (R377). -/
def F.HL_STATUS.HANDOVER : Field := ⟨0x31, 0x104, 1, 1, .ro, 0, [], .page⟩

/-- HL_STATUS.LONG_ROUTE (R377). -/
def F.HL_STATUS.LONG_ROUTE : Field := ⟨0x31, 0x104, 2, 1, .ro, 0, [], .page⟩

/-- HL_STATUS.MINIMAL (R377). -/
def F.HL_STATUS.MINIMAL : Field := ⟨0x31, 0x104, 3, 1, .ro, 0, [], .page⟩

/-- HL_STATUS.LIVE (R377). -/
def F.HL_STATUS.LIVE : Field := ⟨0x31, 0x104, 8, 8, .ro, 0, [], .page⟩

/-- HL_PORTMAP.MAP (R377). -/
def F.HL_PORTMAP.MAP : Field := ⟨0x31, 0x108, 0, 24, .ro, 16434824, [], .page⟩

/-- HL_RTT.NS (R377). -/
def F.HL_RTT.NS : Field := ⟨0x31, 0x10C, 0, 16, .ro, 0, [], .page⟩

/-- HL_FILTER.LINES (R377). -/
def F.HL_FILTER.LINES : Field := ⟨0x31, 0x110, 0, 25, .ro, 0, [], .page⟩

/-- HL_BLOCK_VEC.VECTOR (R377). -/
def F.HL_BLOCK_VEC.VECTOR : Field := ⟨0x31, 0x114, 0, 11, .rwl, 0, [], .page⟩

/-- HL_STALL_WATCH.MS (R377). -/
def F.HL_STALL_WATCH.MS : Field := ⟨0x31, 0x118, 0, 16, .rwl, 10, [], .page⟩

/-- HL_INT_STATUS.PORT_LOST (R377). -/
def F.HL_INT_STATUS.PORT_LOST : Field := ⟨0x31, 0x11C, 0, 1, .w1c, 0, [], .page⟩

/-- HL_INT_STATUS.HANDOVER_DONE (R377). -/
def F.HL_INT_STATUS.HANDOVER_DONE : Field := ⟨0x31, 0x11C, 1, 1, .w1c, 0, [], .page⟩

/-- HL_INT_STATUS.STALL (R377). -/
def F.HL_INT_STATUS.STALL : Field := ⟨0x31, 0x11C, 2, 1, .w1c, 0, [], .page⟩

/-- HL_INT_STATUS.RECALL_TIMEOUT (R377). -/
def F.HL_INT_STATUS.RECALL_TIMEOUT : Field := ⟨0x31, 0x11C, 3, 1, .w1c, 0, [], .page⟩

/-- HL_INT_EN.MASK (R377). -/
def F.HL_INT_EN.MASK : Field := ⟨0x31, 0x120, 0, 4, .rwl, 0, [], .page⟩

/-- CIS_CFG.ENABLE (R378). -/
def F.CIS_CFG.ENABLE : Field := ⟨0x22, 0x100, 0, 1, .rws, 0, [], .page⟩

/-- CIS_STATUS.STATE (R378). -/
def F.CIS_STATUS.STATE : Field := ⟨0x22, 0x104, 0, 3, .ro, 0, [], .page⟩

/-- CIS_STATUS.BUSY (R378). -/
def F.CIS_STATUS.BUSY : Field := ⟨0x22, 0x104, 3, 1, .ro, 0, [], .page⟩

/-- CIS_STATUS.WORN (R378). -/
def F.CIS_STATUS.WORN : Field := ⟨0x22, 0x104, 4, 1, .ro, 0, [], .page⟩

/-- CIS_OWNER.CONTEXT (R378). -/
def F.CIS_OWNER.CONTEXT : Field := ⟨0x22, 0x108, 0, 16, .rws, 65534, [], .page⟩

/-- CIS_OP.OP (R378). -/
def F.CIS_OP.OP : Field := ⟨0x22, 0x10C, 0, 3, .rws, 0, [], .page⟩

/-- CIS_ARG0.VALUE (R378). -/
def F.CIS_ARG0.VALUE : Field := ⟨0x22, 0x110, 0, 32, .rws, 0, [], .page⟩

/-- CIS_ARG1.VALUE (R378). -/
def F.CIS_ARG1.VALUE : Field := ⟨0x22, 0x114, 0, 32, .rws, 0, [], .page⟩

/-- CIS_ARG2.BLOCKS (R378). -/
def F.CIS_ARG2.BLOCKS : Field := ⟨0x22, 0x118, 0, 16, .rws, 0, [], .page⟩

/-- CIS_GO.GO (R378). -/
def F.CIS_GO.GO : Field := ⟨0x22, 0x11C, 0, 1, .wo, 0, [], .page⟩

/-- CIS_OP_STATUS.BUSY (R378). -/
def F.CIS_OP_STATUS.BUSY : Field := ⟨0x22, 0x120, 0, 1, .ro, 0, [], .page⟩

/-- CIS_OP_STATUS.RESULT (R378). -/
def F.CIS_OP_STATUS.RESULT : Field := ⟨0x22, 0x120, 4, 4, .ro, 0, [], .page⟩

/-- CIS_INT_STATUS.ATTACHED (R378). -/
def F.CIS_INT_STATUS.ATTACHED : Field := ⟨0x22, 0x124, 0, 1, .w1c, 0, [], .page⟩

/-- CIS_INT_STATUS.OFFLINE (R378). -/
def F.CIS_INT_STATUS.OFFLINE : Field := ⟨0x22, 0x124, 1, 1, .w1c, 0, [], .page⟩

/-- CIS_INT_STATUS.OP_DONE (R378). -/
def F.CIS_INT_STATUS.OP_DONE : Field := ⟨0x22, 0x124, 2, 1, .w1c, 0, [], .page⟩

/-- CIS_INT_STATUS.CAT_FULL (R378). -/
def F.CIS_INT_STATUS.CAT_FULL : Field := ⟨0x22, 0x124, 3, 1, .w1c, 0, [], .page⟩

/-- CIS_INT_EN.MASK (R378). -/
def F.CIS_INT_EN.MASK : Field := ⟨0x22, 0x128, 0, 4, .rwl, 0, [], .page⟩

/-- CIS_CAT_HEAD.SEQ (R378). -/
def F.CIS_CAT_HEAD.SEQ : Field := ⟨0x22, 0x160, 0, 64, .ro, 0, [], .page⟩

/-- CIS_CAPACITY.BLOCKS (R378). -/
def F.CIS_CAPACITY.BLOCKS : Field := ⟨0x22, 0x168, 0, 64, .ro, 0, [], .page⟩

/-- SCHED_CFG.ENABLE (R440). -/
def F.SCHED_CFG.ENABLE : Field := ⟨0x01, 0x100, 0, 1, .rws, 0, [], .page⟩

/-- SCHED_SLICE.US (R440). -/
def F.SCHED_SLICE.US : Field := ⟨0x01, 0x104, 0, 16, .rwb, 2000, [], .page⟩

/-- SCHED_GRACE.US (R440). -/
def F.SCHED_GRACE.US : Field := ⟨0x01, 0x108, 0, 16, .rwl, 200, [], .page⟩

/-- SCHED_POOL_BASE.BASE (R440). -/
def F.SCHED_POOL_BASE.BASE : Field := ⟨0x01, 0x10C, 0, 19, .rws, 0, [], .page⟩

/-- SCHED_POOL_COUNT.N (R440). -/
def F.SCHED_POOL_COUNT.N : Field := ⟨0x01, 0x110, 0, 15, .rws, 0, [], .page⟩

/-- SCHED_POOL_FREE.UNITS (R440). -/
def F.SCHED_POOL_FREE.UNITS : Field := ⟨0x01, 0x114, 0, 30, .ro, 0, [], .page⟩

/-- SCHED_STATUS.RESIDENT (R440). -/
def F.SCHED_STATUS.RESIDENT : Field := ⟨0x01, 0x118, 0, 6, .ro, 0, [], .page⟩

/-- SCHED_STATUS.YIELDING (R440). -/
def F.SCHED_STATUS.YIELDING : Field := ⟨0x01, 0x118, 6, 1, .ro, 0, [], .page⟩

/-- SCHED_STATUS.OUT_READY (R440). -/
def F.SCHED_STATUS.OUT_READY : Field := ⟨0x01, 0x118, 8, 12, .ro, 0, [], .page⟩

/-- SCHED_INT_STATUS.OVERRUN (R440). -/
def F.SCHED_INT_STATUS.OVERRUN : Field := ⟨0x01, 0x11C, 0, 1, .w1c, 0, [], .page⟩

/-- SCHED_INT_STATUS.POOL_SHORT (R440). -/
def F.SCHED_INT_STATUS.POOL_SHORT : Field := ⟨0x01, 0x11C, 1, 1, .w1c, 0, [], .page⟩

/-- SCHED_INT_STATUS.SWAP (R440). -/
def F.SCHED_INT_STATUS.SWAP : Field := ⟨0x01, 0x11C, 2, 1, .w1c, 0, [], .page⟩

/-- SCHED_INT_EN.MASK (R440). -/
def F.SCHED_INT_EN.MASK : Field := ⟨0x01, 0x120, 0, 3, .rwl, 0, [], .page⟩

/-- SCHED_CTX_SEL.CONTEXT (R440). -/
def F.SCHED_CTX_SEL.CONTEXT : Field := ⟨0x01, 0x124, 0, 12, .rwl, 0, [], .page⟩

/-- SCHED_CTX_OP.OP (R440). -/
def F.SCHED_CTX_OP.OP : Field := ⟨0x01, 0x128, 0, 2, .wo, 0, [3], .page⟩

/-- SCHED_CTX_OP.RESULT (R440). -/
def F.SCHED_CTX_OP.RESULT : Field := ⟨0x01, 0x128, 4, 2, .ro, 0, [], .page⟩

/-- SCHED_CTX_CLIENT.CLIENT (R440). -/
def F.SCHED_CTX_CLIENT.CLIENT : Field := ⟨0x01, 0x12C, 0, 10, .ro, 0, [], .page⟩

/-- SCHED_CTX_STATE.STATE (R440). -/
def F.SCHED_CTX_STATE.STATE : Field := ⟨0x01, 0x130, 0, 4, .ro, 0, [], .page⟩

/-- SCHED_CTX_STATE.SLOT (R440). -/
def F.SCHED_CTX_STATE.SLOT : Field := ⟨0x01, 0x130, 4, 5, .ro, 0, [], .page⟩

/-- SCHED_CTX_STATE.RESIDENT (R440). -/
def F.SCHED_CTX_STATE.RESIDENT : Field := ⟨0x01, 0x130, 9, 1, .ro, 0, [], .page⟩

/-- SCHED_CTX_STATE.CORES (R440). -/
def F.SCHED_CTX_STATE.CORES : Field := ⟨0x01, 0x130, 16, 14, .ro, 0, [], .page⟩

/-- SCHED_CLIENT_SEL.CLIENT (R440). -/
def F.SCHED_CLIENT_SEL.CLIENT : Field := ⟨0x01, 0x134, 0, 10, .rwl, 0, [], .page⟩

/-- CLK_STATUS.REF0_OK (R465). -/
def F.CLK_STATUS.REF0_OK : Field := ⟨0x08, 0x100, 0, 1, .ro, 0, [], .page⟩

/-- CLK_STATUS.REF1_OK (R465). -/
def F.CLK_STATUS.REF1_OK : Field := ⟨0x08, 0x100, 1, 1, .ro, 0, [], .page⟩

/-- CLK_STATUS.PLL_LOCKED (R465). -/
def F.CLK_STATUS.PLL_LOCKED : Field := ⟨0x08, 0x100, 2, 1, .ro, 0, [], .page⟩

/-- CLK_STATUS.TB_UNSYNC (R465). -/
def F.CLK_STATUS.TB_UNSYNC : Field := ⟨0x08, 0x100, 3, 1, .ro, 0, [], .page⟩

/-- CLK_SEL.CLUSTER (R465). -/
def F.CLK_SEL.CLUSTER : Field := ⟨0x08, 0x104, 0, 8, .rwl, 0, [], .page⟩

/-- CLK_CL_POINT.POINT (R465). -/
def F.CLK_CL_POINT.POINT : Field := ⟨0x08, 0x108, 0, 5, .ro, 0, [], .page⟩

/-- CLK_CL_POINT.PARKED (R465). -/
def F.CLK_CL_POINT.PARKED : Field := ⟨0x08, 0x108, 5, 1, .ro, 0, [], .page⟩

/-- CLK_CL_POINT.HELD (R465). -/
def F.CLK_CL_POINT.HELD : Field := ⟨0x08, 0x108, 6, 1, .ro, 0, [], .page⟩

/-- CLK_CL_MAX.POINT (R465). -/
def F.CLK_CL_MAX.POINT : Field := ⟨0x08, 0x10C, 0, 5, .rwl, 26, [], .page⟩

/-- CLK_INT_STATUS.REF_LOST (R465). -/
def F.CLK_INT_STATUS.REF_LOST : Field := ⟨0x08, 0x110, 0, 1, .w1c, 0, [], .page⟩

/-- CLK_INT_STATUS.STRETCH (R465). -/
def F.CLK_INT_STATUS.STRETCH : Field := ⟨0x08, 0x110, 1, 1, .w1c, 0, [], .page⟩

/-- CLK_INT_EN.MASK (R465). -/
def F.CLK_INT_EN.MASK : Field := ⟨0x08, 0x114, 0, 2, .rwl, 0, [], .page⟩

/-- PWR_LIMIT.WATTS (R466). -/
def F.PWR_LIMIT.WATTS : Field := ⟨0x09, 0x100, 0, 12, .rwl, 2400, [], .page⟩

/-- PWR_CFG.PARK (R466). -/
def F.PWR_CFG.PARK : Field := ⟨0x09, 0x104, 0, 1, .rwb, 0, [], .page⟩

/-- PWR_CFG.PARK_DELAY (R466). -/
def F.PWR_CFG.PARK_DELAY : Field := ⟨0x09, 0x104, 8, 8, .rwb, 10, [], .page⟩

/-- PWR_STATUS.STATE (R466). -/
def F.PWR_STATUS.STATE : Field := ⟨0x09, 0x108, 0, 2, .ro, 0, [], .page⟩

/-- PWR_STATUS.POINT (R466). -/
def F.PWR_STATUS.POINT : Field := ⟨0x09, 0x108, 8, 5, .ro, 0, [], .page⟩

/-- PWR_INPUT.WATTS (R466). -/
def F.PWR_INPUT.WATTS : Field := ⟨0x09, 0x10C, 0, 16, .ro, 0, [], .page⟩

/-- PWR_VIN.MV (R466). -/
def F.PWR_VIN.MV : Field := ⟨0x09, 0x110, 0, 16, .ro, 0, [], .page⟩

/-- PWR_TEMP.COMPUTE (R466). -/
def F.PWR_TEMP.COMPUTE : Field := ⟨0x09, 0x114, 0, 8, .ro, 0, [], .page⟩

/-- PWR_TEMP.PORT (R466). -/
def F.PWR_TEMP.PORT : Field := ⟨0x09, 0x114, 8, 8, .ro, 0, [], .page⟩

/-- PWR_TEMP.CONTROL (R466). -/
def F.PWR_TEMP.CONTROL : Field := ⟨0x09, 0x114, 16, 8, .ro, 0, [], .page⟩

/-- PWR_TEMP.PHOTONIC (R466). -/
def F.PWR_TEMP.PHOTONIC : Field := ⟨0x09, 0x114, 24, 8, .ro, 0, [], .page⟩

/-- PWR_MEAN_CLK.MHZ (R466). -/
def F.PWR_MEAN_CLK.MHZ : Field := ⟨0x09, 0x118, 0, 12, .ro, 0, [], .page⟩

/-- PWR_INT_STATUS.LIMITED (R466). -/
def F.PWR_INT_STATUS.LIMITED : Field := ⟨0x09, 0x11C, 0, 1, .w1c, 0, [], .page⟩

/-- PWR_INT_STATUS.THERMAL (R466). -/
def F.PWR_INT_STATUS.THERMAL : Field := ⟨0x09, 0x11C, 1, 1, .w1c, 0, [], .page⟩

/-- PWR_INT_STATUS.VIN_LOW (R466). -/
def F.PWR_INT_STATUS.VIN_LOW : Field := ⟨0x09, 0x11C, 2, 1, .w1c, 0, [], .page⟩

/-- PWR_INT_EN.MASK (R466). -/
def F.PWR_INT_EN.MASK : Field := ⟨0x09, 0x120, 0, 3, .rwl, 0, [], .page⟩

/-- RST_CTRL.WARM (R467). -/
def F.RST_CTRL.WARM : Field := ⟨0x0A, 0x100, 0, 1, .wo, 0, [], .page⟩

/-- RST_CTRL.RECOVERY (R467). -/
def F.RST_CTRL.RECOVERY : Field := ⟨0x0A, 0x100, 1, 1, .wo, 0, [], .page⟩

/-- RST_CTRL.CLUSTER (R467). -/
def F.RST_CTRL.CLUSTER : Field := ⟨0x0A, 0x100, 2, 1, .wo, 0, [], .page⟩

/-- RST_CLUSTER.CLUSTER (R467). -/
def F.RST_CLUSTER.CLUSTER : Field := ⟨0x0A, 0x104, 0, 8, .rwl, 0, [], .page⟩

/-- RST_STATUS.IN_PROGRESS (R467). -/
def F.RST_STATUS.IN_PROGRESS : Field := ⟨0x0A, 0x108, 0, 1, .ro, 0, [], .page⟩

/-- RST_STATUS.CLUSTER_BUSY (R467). -/
def F.RST_STATUS.CLUSTER_BUSY : Field := ⟨0x0A, 0x108, 1, 1, .ro, 0, [], .page⟩

/-- RST_STATUS.LAST (R467). -/
def F.RST_STATUS.LAST : Field := ⟨0x0A, 0x108, 2, 3, .ro, 1, [], .page⟩

/-- RST_STATUS.LAST_CLUSTER (R467). -/
def F.RST_STATUS.LAST_CLUSTER : Field := ⟨0x0A, 0x108, 8, 8, .ro, 0, [], .page⟩

/-- RST_CAUSE.CAUSE (R467). -/
def F.RST_CAUSE.CAUSE : Field := ⟨0x0A, 0x10C, 0, 4, .ro, 0, [], .page⟩

/-- RST_INT_STATUS.DONE (R467). -/
def F.RST_INT_STATUS.DONE : Field := ⟨0x0A, 0x110, 0, 1, .w1c, 0, [], .page⟩

/-- RST_INT_EN.MASK (R467). -/
def F.RST_INT_EN.MASK : Field := ⟨0x0A, 0x114, 0, 1, .rwl, 0, [], .page⟩

/-- BOOT_STATUS.STAGE (R498). -/
def F.BOOT_STATUS.STAGE : Field := ⟨0x0C, 0x100, 0, 4, .ro, 1, [], .page⟩

/-- BOOT_STATUS.MODE (R498). -/
def F.BOOT_STATUS.MODE : Field := ⟨0x0C, 0x100, 4, 2, .ro, 0, [], .page⟩

/-- BOOT_STATUS.FALLBACK (R498). -/
def F.BOOT_STATUS.FALLBACK : Field := ⟨0x0C, 0x100, 6, 1, .ro, 0, [], .page⟩

/-- BOOT_STATUS.DEGRADED (R498). -/
def F.BOOT_STATUS.DEGRADED : Field := ⟨0x0C, 0x100, 7, 1, .ro, 0, [], .page⟩

/-- BOOT_STATUS.MIN_NO_HBM (R498). -/
def F.BOOT_STATUS.MIN_NO_HBM : Field := ⟨0x0C, 0x100, 8, 1, .ro, 0, [], .page⟩

/-- BOOT_STATUS.MIN_STACK (R498). -/
def F.BOOT_STATUS.MIN_STACK : Field := ⟨0x0C, 0x100, 9, 2, .ro, 0, [], .page⟩

/-- BOOT_STATUS.SLOT (R498). -/
def F.BOOT_STATUS.SLOT : Field := ⟨0x0C, 0x100, 11, 1, .ro, 0, [], .page⟩

/-- BOOT_STATUS.COUNT (R498). -/
def F.BOOT_STATUS.COUNT : Field := ⟨0x0C, 0x100, 12, 3, .ro, 0, [], .page⟩

/-- BOOT_CAUSE.KIND (R498). -/
def F.BOOT_CAUSE.KIND : Field := ⟨0x0C, 0x104, 0, 2, .ro, 0, [], .page⟩

/-- BOOT_CAUSE.PART (R498). -/
def F.BOOT_CAUSE.PART : Field := ⟨0x0C, 0x104, 4, 4, .ro, 0, [], .page⟩

/-- BOOT_CAUSE.INSTANCE (R498). -/
def F.BOOT_CAUSE.INSTANCE : Field := ⟨0x0C, 0x104, 8, 8, .ro, 0, [], .page⟩

/-- BOOT_FAIL.CODE0 (R498). -/
def F.BOOT_FAIL.CODE0 : Field := ⟨0x0C, 0x108, 0, 8, .ro, 0, [], .page⟩

/-- BOOT_FAIL.CODE1 (R498). -/
def F.BOOT_FAIL.CODE1 : Field := ⟨0x0C, 0x108, 8, 8, .ro, 0, [], .page⟩

/-- BOOT_FAIL.CODE2 (R498). -/
def F.BOOT_FAIL.CODE2 : Field := ⟨0x0C, 0x108, 16, 8, .ro, 0, [], .page⟩

/-- BOOT_FW.VERSION (R498). -/
def F.BOOT_FW.VERSION : Field := ⟨0x0C, 0x10C, 0, 32, .ro, 0, [], .page⟩

/-- BOOT_SVN.SVN (R498). -/
def F.BOOT_SVN.SVN : Field := ⟨0x0C, 0x110, 0, 16, .ro, 0, [], .page⟩

/-- BOOT_CTRL.CLEAR_COUNT (R498). -/
def F.BOOT_CTRL.CLEAR_COUNT : Field := ⟨0x0C, 0x114, 0, 1, .wo, 0, [], .page⟩

/-- BOOT_CTRL.SET_PREFER (R498). -/
def F.BOOT_CTRL.SET_PREFER : Field := ⟨0x0C, 0x114, 1, 1, .wo, 0, [], .page⟩

/-- BOOT_CTRL.SLOT (R498). -/
def F.BOOT_CTRL.SLOT : Field := ⟨0x0C, 0x114, 2, 1, .wo, 0, [], .page⟩

/-- BOOT_INT_STATUS.MINIMAL (R498). -/
def F.BOOT_INT_STATUS.MINIMAL : Field := ⟨0x0C, 0x118, 0, 1, .w1c, 0, [], .page⟩

/-- BOOT_INT_STATUS.FW_STAGED (R498). -/
def F.BOOT_INT_STATUS.FW_STAGED : Field := ⟨0x0C, 0x118, 1, 1, .w1c, 0, [], .page⟩

/-- BOOT_INT_EN.MASK (R498). -/
def F.BOOT_INT_EN.MASK : Field := ⟨0x0C, 0x11C, 0, 2, .rwl, 0, [], .page⟩

/-- SEC_STATUS.ENGINE_BUSY (R499). -/
def F.SEC_STATUS.ENGINE_BUSY : Field := ⟨0x0D, 0x100, 0, 1, .ro, 0, [], .page⟩

/-- SEC_STATUS.TREE_GEN (R499). -/
def F.SEC_STATUS.TREE_GEN : Field := ⟨0x0D, 0x100, 1, 1, .ro, 0, [], .page⟩

/-- SEC_STATUS.TREE_READY (R499). -/
def F.SEC_STATUS.TREE_READY : Field := ⟨0x0D, 0x100, 2, 1, .ro, 0, [], .page⟩

/-- SEC_STATUS.NO_SIGN (R499). -/
def F.SEC_STATUS.NO_SIGN : Field := ⟨0x0D, 0x100, 3, 1, .ro, 0, [], .page⟩

/-- SEC_STATUS.TREE (R499). -/
def F.SEC_STATUS.TREE : Field := ⟨0x0D, 0x100, 8, 15, .ro, 0, [], .page⟩

/-- SEC_REVOKED.MASK (R499). -/
def F.SEC_REVOKED.MASK : Field := ⟨0x0D, 0x104, 0, 4, .ro, 0, [], .page⟩

/-- SEC_SVN.FUSE (R499). -/
def F.SEC_SVN.FUSE : Field := ⟨0x0D, 0x108, 0, 7, .ro, 0, [], .page⟩

/-- SEC_CTRL.COMMIT_SVN (R499). -/
def F.SEC_CTRL.COMMIT_SVN : Field := ⟨0x0D, 0x10C, 0, 1, .wo, 0, [], .page⟩

/-- SEC_CTRL.REVOKE (R499). -/
def F.SEC_CTRL.REVOKE : Field := ⟨0x0D, 0x10C, 1, 1, .wo, 0, [], .page⟩

/-- SEC_CTRL.SLOT (R499). -/
def F.SEC_CTRL.SLOT : Field := ⟨0x0D, 0x10C, 4, 2, .wo, 0, [], .page⟩

/-- SEC_INT_STATUS.TREE_DONE (R499). -/
def F.SEC_INT_STATUS.TREE_DONE : Field := ⟨0x0D, 0x110, 0, 1, .w1c, 0, [], .page⟩

/-- SEC_INT_STATUS.LOW_INDICES (R499). -/
def F.SEC_INT_STATUS.LOW_INDICES : Field := ⟨0x0D, 0x110, 1, 1, .w1c, 0, [], .page⟩

/-- SEC_INT_EN.MASK (R499). -/
def F.SEC_INT_EN.MASK : Field := ⟨0x0D, 0x114, 0, 2, .rwl, 0, [], .page⟩

/-- LC_STATE.STATE (R500). -/
def F.LC_STATE.STATE : Field := ⟨0x0E, 0x100, 0, 3, .ro, 0, [], .page⟩

/-- LC_STATE.TRANSITIONS (R500). -/
def F.LC_STATE.TRANSITIONS : Field := ⟨0x0E, 0x100, 3, 5, .ro, 0, [], .page⟩

/-- LC_STATE.PENDING (R500). -/
def F.LC_STATE.PENDING : Field := ⟨0x0E, 0x100, 8, 1, .ro, 0, [], .page⟩

/-- LC_STATE.PENDING_TO (R500). -/
def F.LC_STATE.PENDING_TO : Field := ⟨0x0E, 0x100, 9, 3, .ro, 0, [], .page⟩

/-- LC_TARGET.STATE (R500). -/
def F.LC_TARGET.STATE : Field := ⟨0x0E, 0x104, 0, 3, .rws, 0, [], .page⟩

/-- LC_GO.GO (R500). -/
def F.LC_GO.GO : Field := ⟨0x0E, 0x108, 0, 1, .wo, 0, [], .page⟩

/-- LC_STATUS.RESULT (R500). -/
def F.LC_STATUS.RESULT : Field := ⟨0x0E, 0x10C, 0, 4, .ro, 0, [], .page⟩

/-- LC_JTAG.LEVEL (R500). -/
def F.LC_JTAG.LEVEL : Field := ⟨0x0E, 0x110, 0, 2, .ro, 0, [], .page⟩

/-- ERR_CFG.FIRST_MIN (R525). -/
def F.ERR_CFG.FIRST_MIN : Field := ⟨0x40, 0x100, 0, 2, .rwl, 2, [], .page⟩

/-- ERR_CFG.COALESCE (R525). -/
def F.ERR_CFG.COALESCE : Field := ⟨0x40, 0x100, 2, 1, .rwl, 1, [], .page⟩

/-- ERR_STATUS.FIRST_VALID (R525). -/
def F.ERR_STATUS.FIRST_VALID : Field := ⟨0x40, 0x104, 0, 1, .ro, 0, [], .page⟩

/-- ERR_STATUS.HANDLING (R525). -/
def F.ERR_STATUS.HANDLING : Field := ⟨0x40, 0x104, 1, 1, .ro, 0, [], .page⟩

/-- ERR_STATUS.HANDLING_SEV (R525). -/
def F.ERR_STATUS.HANDLING_SEV : Field := ⟨0x40, 0x104, 2, 2, .ro, 0, [], .page⟩

/-- ERR_STATUS.FORCED (R525). -/
def F.ERR_STATUS.FORCED : Field := ⟨0x40, 0x104, 4, 1, .ro, 0, [], .page⟩

/-- ERR_STATUS.THERMAL_HOLD (R525). -/
def F.ERR_STATUS.THERMAL_HOLD : Field := ⟨0x40, 0x104, 5, 1, .ro, 0, [], .page⟩

/-- ERR_HEAD.SEQ (R525). -/
def F.ERR_HEAD.SEQ : Field := ⟨0x40, 0x108, 0, 32, .ro, 0, [], .page⟩

/-- ERR_TAIL.SEQ (R525). -/
def F.ERR_TAIL.SEQ : Field := ⟨0x40, 0x10C, 0, 32, .rwl, 0, [], .page⟩

/-- ERR_INT_STATUS.GREY (R525). -/
def F.ERR_INT_STATUS.GREY : Field := ⟨0x40, 0x110, 0, 1, .w1c, 0, [], .page⟩

/-- ERR_INT_STATUS.AMBER (R525). -/
def F.ERR_INT_STATUS.AMBER : Field := ⟨0x40, 0x110, 1, 1, .w1c, 0, [], .page⟩

/-- ERR_INT_STATUS.RED (R525). -/
def F.ERR_INT_STATUS.RED : Field := ⟨0x40, 0x110, 2, 1, .w1c, 0, [], .page⟩

/-- ERR_INT_STATUS.BLACK (R525). -/
def F.ERR_INT_STATUS.BLACK : Field := ⟨0x40, 0x110, 3, 1, .w1c, 0, [], .page⟩

/-- ERR_INT_STATUS.LOST (R525). -/
def F.ERR_INT_STATUS.LOST : Field := ⟨0x40, 0x110, 4, 1, .w1c, 0, [], .page⟩

/-- ERR_INT_EN.MASK (R525). -/
def F.ERR_INT_EN.MASK : Field := ⟨0x40, 0x114, 0, 5, .rwl, 0, [], .page⟩

/-- ERR_FIRST_CTRL.CLEAR (R525). -/
def F.ERR_FIRST_CTRL.CLEAR : Field := ⟨0x40, 0x118, 0, 1, .wo, 0, [], .page⟩

/-- ERR_INJECT.CODE (R525). -/
def F.ERR_INJECT.CODE : Field := ⟨0x40, 0x11C, 0, 16, .wo, 0, [], .page⟩

/-- ERR_INJECT.SEV (R525). -/
def F.ERR_INJECT.SEV : Field := ⟨0x40, 0x11C, 16, 2, .wo, 0, [], .page⟩

/-- TRC_CFG.ENABLE (R526). -/
def F.TRC_CFG.ENABLE : Field := ⟨0x41, 0x100, 0, 1, .rws, 0, [], .page⟩

/-- TRC_CFG.WRAP (R526). -/
def F.TRC_CFG.WRAP : Field := ⟨0x41, 0x100, 1, 1, .rws, 1, [], .page⟩

/-- TRC_CFG.SHARE (R526). -/
def F.TRC_CFG.SHARE : Field := ⟨0x41, 0x100, 4, 5, .rwl, 30, [], .page⟩

/-- TRC_TYPES.MASK (R526). -/
def F.TRC_TYPES.MASK : Field := ⟨0x41, 0x104, 0, 16, .rwb, 0, [], .page⟩

/-- TRC_BASE.BASE (R526). -/
def F.TRC_BASE.BASE : Field := ⟨0x41, 0x108, 0, 19, .rws, 0, [], .page⟩

/-- TRC_COUNT.N (R526). -/
def F.TRC_COUNT.N : Field := ⟨0x41, 0x10C, 0, 15, .rws, 0, [], .page⟩

/-- TRC_SAMPLE.US (R526). -/
def F.TRC_SAMPLE.US : Field := ⟨0x41, 0x110, 0, 16, .rwb, 0, [], .page⟩

/-- TRC_SAMPLE.CLASS (R526). -/
def F.TRC_SAMPLE.CLASS : Field := ⟨0x41, 0x110, 16, 8, .rwb, 17, [], .page⟩

/-- TRC_TRIG.TYPE (R526). -/
def F.TRC_TRIG.TYPE : Field := ⟨0x41, 0x114, 0, 4, .rwl, 0, [], .page⟩

/-- TRC_TRIG.STOP (R526). -/
def F.TRC_TRIG.STOP : Field := ⟨0x41, 0x114, 4, 1, .rwl, 0, [], .page⟩

/-- TRC_TRIG.CODE (R526). -/
def F.TRC_TRIG.CODE : Field := ⟨0x41, 0x114, 16, 16, .rwl, 0, [], .page⟩

/-- TRC_MARK.VALUE (R526). -/
def F.TRC_MARK.VALUE : Field := ⟨0x41, 0x118, 0, 32, .wo, 0, [], .page⟩

/-- TRC_STATUS.FULL (R526). -/
def F.TRC_STATUS.FULL : Field := ⟨0x41, 0x11C, 0, 1, .ro, 0, [], .page⟩

/-- TRC_STATUS.THROTTLED (R526). -/
def F.TRC_STATUS.THROTTLED : Field := ⟨0x41, 0x11C, 1, 1, .ro, 0, [], .page⟩

/-- TRC_STATUS.TRIGGERED (R526). -/
def F.TRC_STATUS.TRIGGERED : Field := ⟨0x41, 0x11C, 2, 1, .ro, 0, [], .page⟩

/-- TRC_INT_STATUS.FULL (R526). -/
def F.TRC_INT_STATUS.FULL : Field := ⟨0x41, 0x120, 0, 1, .w1c, 0, [], .page⟩

/-- TRC_INT_STATUS.TRIGGER (R526). -/
def F.TRC_INT_STATUS.TRIGGER : Field := ⟨0x41, 0x120, 1, 1, .w1c, 0, [], .page⟩

/-- TRC_INT_STATUS.DROPPED (R526). -/
def F.TRC_INT_STATUS.DROPPED : Field := ⟨0x41, 0x120, 2, 1, .w1c, 0, [], .page⟩

/-- TRC_INT_EN.MASK (R526). -/
def F.TRC_INT_EN.MASK : Field := ⟨0x41, 0x124, 0, 3, .rwl, 0, [], .page⟩

/-- STOP_CFG.LEAD (R527). -/
def F.STOP_CFG.LEAD : Field := ⟨0x43, 0x100, 0, 16, .rwl, 1000, [], .page⟩

/-- STOP_CFG.ON_RED (R527). -/
def F.STOP_CFG.ON_RED : Field := ⟨0x43, 0x100, 16, 1, .rwl, 0, [], .page⟩

/-- STOP_CTRL.GO (R527). -/
def F.STOP_CTRL.GO : Field := ⟨0x43, 0x104, 0, 1, .wo, 0, [], .page⟩

/-- STOP_CTRL.RELEASE (R527). -/
def F.STOP_CTRL.RELEASE : Field := ⟨0x43, 0x104, 1, 1, .wo, 0, [], .page⟩

/-- STOP_STATUS.STATE (R527). -/
def F.STOP_STATUS.STATE : Field := ⟨0x43, 0x108, 0, 3, .ro, 0, [], .page⟩

/-- STOP_STATUS.PARTIAL (R527). -/
def F.STOP_STATUS.PARTIAL : Field := ⟨0x43, 0x108, 3, 1, .ro, 0, [], .page⟩

/-- STOP_STATUS.CAUSE (R527). -/
def F.STOP_STATUS.CAUSE : Field := ⟨0x43, 0x108, 4, 4, .ro, 0, [], .page⟩

/-- STOP_STATUS.REFUSED (R527). -/
def F.STOP_STATUS.REFUSED : Field := ⟨0x43, 0x108, 8, 1, .ro, 0, [], .page⟩

/-- STOP_CAP_ADDR.OFFSET (R527). -/
def F.STOP_CAP_ADDR.OFFSET : Field := ⟨0x43, 0x10C, 0, 23, .rwl, 0, [], .page⟩

/-- WFG_CTRL.GO (R527). -/
def F.WFG_CTRL.GO : Field := ⟨0x43, 0x110, 0, 1, .wo, 0, [], .wfg⟩

/-- WFG_BASE_LO.BASE (R527). -/
def F.WFG_BASE_LO.BASE : Field := ⟨0x43, 0x114, 12, 20, .rws, 0, [], .wfg⟩

/-- WFG_BASE_HI.BASE (R527). -/
def F.WFG_BASE_HI.BASE : Field := ⟨0x43, 0x118, 0, 32, .rws, 0, [], .wfg⟩

/-- WFG_SIZE.PAGES (R527). -/
def F.WFG_SIZE.PAGES : Field := ⟨0x43, 0x11C, 0, 16, .rws, 0, [], .wfg⟩

/-- WFG_STATUS.BUSY (R527). -/
def F.WFG_STATUS.BUSY : Field := ⟨0x43, 0x120, 0, 1, .ro, 0, [], .wfg⟩

/-- WFG_STATUS.DONE (R527). -/
def F.WFG_STATUS.DONE : Field := ⟨0x43, 0x120, 1, 1, .ro, 0, [], .wfg⟩

/-- WFG_STATUS.TRUNCATED (R527). -/
def F.WFG_STATUS.TRUNCATED : Field := ⟨0x43, 0x120, 2, 1, .ro, 0, [], .wfg⟩

/-- WFG_STATUS.CUT (R527). -/
def F.WFG_STATUS.CUT : Field := ⟨0x43, 0x120, 3, 1, .ro, 0, [], .wfg⟩

/-- WFG_STATUS.CYCLES (R527). -/
def F.WFG_STATUS.CYCLES : Field := ⟨0x43, 0x120, 16, 16, .ro, 0, [], .wfg⟩

/-- STOP_INT_STATUS.HALTED (R527). -/
def F.STOP_INT_STATUS.HALTED : Field := ⟨0x43, 0x124, 0, 1, .w1c, 0, [], .page⟩

/-- STOP_INT_STATUS.CAPTURED (R527). -/
def F.STOP_INT_STATUS.CAPTURED : Field := ⟨0x43, 0x124, 1, 1, .w1c, 0, [], .page⟩

/-- STOP_INT_STATUS.RELEASED (R527). -/
def F.STOP_INT_STATUS.RELEASED : Field := ⟨0x43, 0x124, 2, 1, .w1c, 0, [], .page⟩

/-- STOP_INT_STATUS.WFG_DONE (R527). -/
def F.STOP_INT_STATUS.WFG_DONE : Field := ⟨0x43, 0x124, 3, 1, .w1c, 0, [], .page⟩

/-- STOP_INT_EN.MASK (R527). -/
def F.STOP_INT_EN.MASK : Field := ⟨0x43, 0x128, 0, 4, .rwl, 0, [], .page⟩

/-- PG_ID.REVISION (R532). -/
def F.PG_ID.REVISION (cls : Nat) : Field := ⟨cls, 0x000, 0, 8, .ro, 17, [], .page⟩

/-- PG_ID.INSTANCE (R532). -/
def F.PG_ID.INSTANCE (cls : Nat) : Field := ⟨cls, 0x000, 8, 8, .ro, 0, [], .page⟩

/-- PG_ID.CLASS (R532). -/
def F.PG_ID.CLASS (cls : Nat) : Field := ⟨cls, 0x000, 16, 8, .ro, 0, [], .page⟩

/-- PG_CAPS.UNITS (R532). -/
def F.PG_CAPS.UNITS (cls : Nat) : Field := ⟨cls, 0x004, 0, 12, .ro, 0, [], .page⟩

/-- PG_CAPS.INSTANCES (R532). -/
def F.PG_CAPS.INSTANCES (cls : Nat) : Field := ⟨cls, 0x004, 16, 9, .ro, 0, [], .page⟩

/-- PG_CTRL.INT_MASTER (R532). -/
def F.PG_CTRL.INT_MASTER (cls : Nat) : Field := ⟨cls, 0x008, 0, 1, .rwl, 1, [], .page⟩

/-- PG_CTRL.SNAP (R532). -/
def F.PG_CTRL.SNAP (cls : Nat) : Field := ⟨cls, 0x008, 1, 1, .wo, 0, [], .page⟩

/-- PG_STATUS.BUSY (R532). -/
def F.PG_STATUS.BUSY (cls : Nat) : Field := ⟨cls, 0x00C, 0, 1, .ro, 0, [], .page⟩

/-- PG_STATUS.WRITE_REJECT (R532). -/
def F.PG_STATUS.WRITE_REJECT (cls : Nat) : Field := ⟨cls, 0x00C, 1, 1, .w1c, 0, [], .page⟩

/-- PG_STATUS.APPLY_PENDING (R532). -/
def F.PG_STATUS.APPLY_PENDING (cls : Nat) : Field := ⟨cls, 0x00C, 2, 1, .ro, 0, [], .page⟩

/-- PG_STATUS.LOCK_ABORT (R532). -/
def F.PG_STATUS.LOCK_ABORT (cls : Nat) : Field := ⟨cls, 0x00C, 3, 1, .w1c, 0, [], .page⟩

/-- PG_STATUS.INT_PENDING (R532). -/
def F.PG_STATUS.INT_PENDING (cls : Nat) : Field := ⟨cls, 0x00C, 4, 1, .ro, 0, [], .page⟩

/-- PG_ERR_FIRST.CODE (R532). -/
def F.PG_ERR_FIRST.CODE (cls : Nat) : Field := ⟨cls, 0x010, 0, 16, .ro, 0, [], .page⟩

/-- PG_ERR_FIRST.SEV (R532). -/
def F.PG_ERR_FIRST.SEV (cls : Nat) : Field := ⟨cls, 0x010, 16, 2, .ro, 0, [], .page⟩

/-- PG_ERR_FIRST.SLOT (R532). -/
def F.PG_ERR_FIRST.SLOT (cls : Nat) : Field := ⟨cls, 0x010, 18, 6, .ro, 0, [], .page⟩

/-- PG_ERR_FIRST.VALID (R532). -/
def F.PG_ERR_FIRST.VALID (cls : Nat) : Field := ⟨cls, 0x010, 30, 1, .ro, 0, [], .page⟩

/-- PG_ERR_FIRST.CLEAR (R532). -/
def F.PG_ERR_FIRST.CLEAR (cls : Nat) : Field := ⟨cls, 0x010, 31, 1, .wo, 0, [], .page⟩

/-- PG_ERR_MASK.GREY (R532). -/
def F.PG_ERR_MASK.GREY (cls : Nat) : Field := ⟨cls, 0x014, 0, 1, .rwl, 0, [], .page⟩

/-- PG_ERR_MASK.AMBER (R532). -/
def F.PG_ERR_MASK.AMBER (cls : Nat) : Field := ⟨cls, 0x014, 1, 1, .rwl, 0, [], .page⟩

/-- PG_ERR_COUNT.N (R532). -/
def F.PG_ERR_COUNT.N (cls : Nat) : Field := ⟨cls, 0x018, 0, 32, .ro, 0, [], .page⟩

/-- PG_APPLY.APPLY (R532). -/
def F.PG_APPLY.APPLY (cls : Nat) : Field := ⟨cls, 0x01C, 0, 1, .wo, 0, [], .page⟩

/-- PG_DOMAIN.DOMAIN (R532). -/
def F.PG_DOMAIN.DOMAIN (cls : Nat) : Field := ⟨cls, 0x020, 0, 9, .ro, 0, [], .page⟩

/-- PG_LOCK.HOLDER (R532). -/
def F.PG_LOCK.HOLDER (cls : Nat) : Field := ⟨cls, 0x024, 0, 2, .ro, 0, [], .page⟩

/-- PG_LOCK.TAKE (R532). -/
def F.PG_LOCK.TAKE (cls : Nat) : Field := ⟨cls, 0x024, 4, 1, .wo, 0, [], .page⟩

/-- PG_LOCK.GIVE (R532). -/
def F.PG_LOCK.GIVE (cls : Nat) : Field := ⟨cls, 0x024, 5, 1, .wo, 0, [], .page⟩

/-- GL_PART.PART (R547). -/
def F.GL_PART.PART : Field := ⟨0x00, 0x100, 0, 16, .ro, 38422, [], .page⟩

/-- GL_CORES.N (R547). -/
def F.GL_CORES.N : Field := ⟨0x00, 0x104, 0, 14, .ro, 10240, [], .page⟩

/-- GL_COUNTS.CLUSTERS (R547). -/
def F.GL_COUNTS.CLUSTERS : Field := ⟨0x00, 0x108, 0, 9, .ro, 256, [], .page⟩

/-- GL_COUNTS.CDIES (R547). -/
def F.GL_COUNTS.CDIES : Field := ⟨0x00, 0x108, 9, 5, .ro, 16, [], .page⟩

/-- GL_COUNTS.STACKS (R547). -/
def F.GL_COUNTS.STACKS : Field := ⟨0x00, 0x108, 14, 4, .ro, 12, [], .page⟩

/-- GL_COUNTS.PORTS (R547). -/
def F.GL_COUNTS.PORTS : Field := ⟨0x00, 0x108, 18, 5, .ro, 24, [], .page⟩

/-- GL_COUNTS.PDIES (R547). -/
def F.GL_COUNTS.PDIES : Field := ⟨0x00, 0x108, 23, 3, .ro, 4, [], .page⟩

/-- GL_SERIAL0.VALUE (R547). -/
def F.GL_SERIAL0.VALUE : Field := ⟨0x00, 0x110, 0, 32, .ro, 0, [], .page⟩

/-- GL_SERIAL1.VALUE (R547). -/
def F.GL_SERIAL1.VALUE : Field := ⟨0x00, 0x114, 0, 32, .ro, 0, [], .page⟩

/-- GL_SERIAL2.VALUE (R547). -/
def F.GL_SERIAL2.VALUE : Field := ⟨0x00, 0x118, 0, 32, .ro, 0, [], .page⟩

/-- GL_SERIAL3.VALUE (R547). -/
def F.GL_SERIAL3.VALUE : Field := ⟨0x00, 0x11C, 0, 32, .ro, 0, [], .page⟩

/-- GL_SCRATCH0.VALUE (R547). -/
def F.GL_SCRATCH0.VALUE : Field := ⟨0x00, 0x120, 0, 32, .rwl, 0, [], .page⟩

/-- GL_SCRATCH1.VALUE (R547). -/
def F.GL_SCRATCH1.VALUE : Field := ⟨0x00, 0x124, 0, 32, .rwl, 0, [], .page⟩

/-- GL_SCRATCH2.VALUE (R547). -/
def F.GL_SCRATCH2.VALUE : Field := ⟨0x00, 0x128, 0, 32, .rwl, 0, [], .page⟩

/-- GL_SCRATCH3.VALUE (R547). -/
def F.GL_SCRATCH3.VALUE : Field := ⟨0x00, 0x12C, 0, 32, .rwl, 0, [], .page⟩

/-- Q_TABLE_LO.BASE (R549). -/
def F.Q_TABLE_LO.BASE : Field := ⟨0x03, 0x100, 12, 20, .rws, 0, [], .page⟩

/-- Q_TABLE_HI.BASE (R549). -/
def F.Q_TABLE_HI.BASE : Field := ⟨0x03, 0x104, 0, 32, .rws, 0, [], .page⟩

/-- Q_SEL.QUEUE (R549). -/
def F.Q_SEL.QUEUE : Field := ⟨0x03, 0x108, 0, 12, .rwl, 0, [], .page⟩

/-- Q_OP.OP (R549). -/
def F.Q_OP.OP : Field := ⟨0x03, 0x10C, 0, 2, .wo, 0, [], .page⟩

/-- Q_OP.RESULT (R549). -/
def F.Q_OP.RESULT : Field := ⟨0x03, 0x10C, 4, 3, .ro, 0, [], .page⟩

/-- Q_STATE.ENABLED (R549). -/
def F.Q_STATE.ENABLED : Field := ⟨0x03, 0x110, 0, 1, .ro, 0, [], .page⟩

/-- Q_STATE.DRAINING (R549). -/
def F.Q_STATE.DRAINING : Field := ⟨0x03, 0x110, 1, 1, .ro, 0, [], .page⟩

/-- Q_STATE.INPUT_WAIT (R549). -/
def F.Q_STATE.INPUT_WAIT : Field := ⟨0x03, 0x110, 2, 1, .ro, 0, [], .page⟩

/-- Q_STATE.RETURNING (R549). -/
def F.Q_STATE.RETURNING : Field := ⟨0x03, 0x110, 3, 1, .ro, 0, [], .page⟩

/-- Q_HEAD.SEQ (R549). -/
def F.Q_HEAD.SEQ : Field := ⟨0x03, 0x114, 0, 32, .ro, 0, [], .page⟩

/-- Q_TAIL.SEQ (R549). -/
def F.Q_TAIL.SEQ : Field := ⟨0x03, 0x118, 0, 32, .ro, 0, [], .page⟩

/-- Q_ENABLED.N (R549). -/
def F.Q_ENABLED.N : Field := ⟨0x03, 0x11C, 0, 13, .ro, 0, [], .page⟩

/-- LIN_BASE_LO.BASE (R549). -/
def F.LIN_BASE_LO.BASE : Field := ⟨0x03, 0x120, 12, 20, .rws, 0, [], .page⟩

/-- LIN_BASE_HI.BASE (R549). -/
def F.LIN_BASE_HI.BASE : Field := ⟨0x03, 0x124, 0, 32, .rws, 0, [], .page⟩

/-- LIN_SIZE.PAGES (R549). -/
def F.LIN_SIZE.PAGES : Field := ⟨0x03, 0x128, 0, 20, .rws, 0, [], .page⟩

/-- LIN_FREE.UNITS (R549). -/
def F.LIN_FREE.UNITS : Field := ⟨0x03, 0x12C, 0, 26, .ro, 0, [], .page⟩

/-- Q_INT_STATUS.LINEAGE_FULL (R549). -/
def F.Q_INT_STATUS.LINEAGE_FULL : Field := ⟨0x03, 0x130, 0, 1, .w1c, 0, [], .page⟩

/-- Q_INT_STATUS.TAIL_OVERRUN (R549). -/
def F.Q_INT_STATUS.TAIL_OVERRUN : Field := ⟨0x03, 0x130, 1, 1, .w1c, 0, [], .page⟩

/-- Q_INT_STATUS.RETURNED (R549). -/
def F.Q_INT_STATUS.RETURNED : Field := ⟨0x03, 0x130, 2, 1, .w1c, 0, [], .page⟩

/-- Q_INT_EN.MASK (R549). -/
def F.Q_INT_EN.MASK : Field := ⟨0x03, 0x134, 0, 3, .rwl, 0, [], .page⟩

/-- MG_CFG.STATIC_ADDR (R553). -/
def F.MG_CFG.STATIC_ADDR : Field := ⟨0x38, 0x100, 0, 7, .rws, 0x40, [], .page⟩

/-- MG_CFG.MBOX_EN (R553). -/
def F.MG_CFG.MBOX_EN : Field := ⟨0x38, 0x100, 8, 1, .rws, 0, [], .page⟩

/-- MG_STATUS.DYN_VALID (R553). -/
def F.MG_STATUS.DYN_VALID : Field := ⟨0x38, 0x104, 0, 1, .ro, 0, [], .page⟩

/-- MG_STATUS.DYN_ADDR (R553). -/
def F.MG_STATUS.DYN_ADDR : Field := ⟨0x38, 0x104, 1, 7, .ro, 0, [], .page⟩

/-- MG_STATUS.MBOX_BUSY (R553). -/
def F.MG_STATUS.MBOX_BUSY : Field := ⟨0x38, 0x104, 8, 1, .ro, 0, [], .page⟩

/-- MG_STATUS.RSP_READY (R553). -/
def F.MG_STATUS.RSP_READY : Field := ⟨0x38, 0x104, 9, 1, .ro, 0, [], .page⟩

/-- MG_MBOX_LO.BASE (R553). -/
def F.MG_MBOX_LO.BASE : Field := ⟨0x38, 0x108, 12, 20, .rws, 0, [], .page⟩

/-- MG_MBOX_HI.BASE (R553). -/
def F.MG_MBOX_HI.BASE : Field := ⟨0x38, 0x10C, 0, 32, .rws, 0, [], .page⟩

/-- MG_MBOX_REQ.LEN (R553). -/
def F.MG_MBOX_REQ.LEN : Field := ⟨0x38, 0x110, 0, 14, .wo, 0, [], .page⟩

/-- MG_MBOX_REQ.SEND (R553). -/
def F.MG_MBOX_REQ.SEND : Field := ⟨0x38, 0x110, 31, 1, .wo, 0, [], .page⟩

/-- MG_MBOX_RSP.LEN (R553). -/
def F.MG_MBOX_RSP.LEN : Field := ⟨0x38, 0x114, 0, 14, .ro, 0, [], .page⟩

/-- MG_MBOX_RSP.ACK (R553). -/
def F.MG_MBOX_RSP.ACK : Field := ⟨0x38, 0x114, 30, 1, .wo, 0, [], .page⟩

/-- MG_INT_STATUS.RSP_READY (R553). -/
def F.MG_INT_STATUS.RSP_READY : Field := ⟨0x38, 0x118, 0, 1, .w1c, 0, [], .page⟩

/-- MG_INT_STATUS.ATTACHED (R553). -/
def F.MG_INT_STATUS.ATTACHED : Field := ⟨0x38, 0x118, 1, 1, .w1c, 0, [], .page⟩

/-- MG_INT_EN.MASK (R553). -/
def F.MG_INT_EN.MASK : Field := ⟨0x38, 0x11C, 0, 2, .rwl, 0, [], .page⟩

/-- CD_STATUS.PLACED (R557). -/
def F.CD_STATUS.PLACED : Field := ⟨0x10, 0x100, 0, 16, .ro, 65535, [], .page⟩

/-- CD_STATUS.REMOVED (R557). -/
def F.CD_STATUS.REMOVED : Field := ⟨0x10, 0x100, 16, 1, .ro, 0, [], .page⟩

/-- CD_STATUS.TEMP (R557). -/
def F.CD_STATUS.TEMP : Field := ⟨0x10, 0x100, 24, 8, .ro, 0, [], .page⟩

/-- CLS_STATUS.IN_PLACEMENT (R558). -/
def F.CLS_STATUS.IN_PLACEMENT : Field := ⟨0x11, 0x200, 0, 1, .ro, 1, [], .sequencer⟩

/-- CLS_STATUS.STORE_OWNED (R558). -/
def F.CLS_STATUS.STORE_OWNED : Field := ⟨0x11, 0x200, 1, 1, .ro, 0, [], .sequencer⟩

/-- CLS_STATUS.FREE_CORES (R558). -/
def F.CLS_STATUS.FREE_CORES : Field := ⟨0x11, 0x200, 8, 6, .ro, 40, [], .sequencer⟩

/-- The fields of the WELLHEAD table. -/
def fieldsOfWellhead : List Field :=
  [F.WH_CFG.ENABLE, F.WH_MAX_INFLIGHT.N, F.WH_BT_BASE.BASE, F.WH_SP_CFG.BSIZE, F.WH_SP_BASE.BASE, F.WH_SP_COUNT.N, F.WH_HIST_BASE_LO.BASE, F.WH_HIST_BASE_HI.BASE, F.WH_LIVE.N, F.WH_OPEN_GROUPS.N, F.WH_SP_FREE.N, F.WH_HOLD.WAIT_PAGE, F.WH_HOLD.WAIT_STATE, F.WH_HOLD.GROUP, F.WH_INT_STATUS.HOLD, F.WH_INT_STATUS.HISTORY_FULL, F.WH_INT_STATUS.REDERIVE_START, F.WH_INT_STATUS.REDERIVE_DONE, F.WH_INT_EN.MASK, F.WH_GRP_SEL.GROUP, F.WH_GRP_INFO.STATE, F.WH_GRP_INFO.BRANCHES, F.WH_GRP_STEP.STEP, F.WH_GRP_STEP.HISTORY] ++
  [F.WH_GRP_CTX.CONTEXT]

/-- The fields of the CORE table. -/
def fieldsOfCore : List Field :=
  [F.CORE_CFG.W40_SAT, F.CORE_CFG.NARROW_SAT, F.CORE_CFG.ELT_COMPAT, F.CORE_CFG.PLACE, F.CORE_STATUS.BUSY, F.CORE_STATUS.FUSED, F.CORE_STATUS.OFFLINE, F.CORE_STATUS.TESTING, F.CORE_STATUS.LIVE_WELLS, F.CORE_STATUS.STALL_FEED, F.CORE_STATUS.STALL_OUT, F.CORE_STATUS.WORDQ, F.CORE_TEST.START, F.CORE_TEST.DONE, F.CORE_TEST.PASS, F.CORE_TEST.FAIL_UNIT, F.CORE_FAULT.CAUSE, F.CORE_FAULT.WELL, F.CORE_FAULT.CLEAR]

/-- The fields of the KVPOOL table. -/
def fieldsOfKvpool : List Field :=
  [F.KVP_CFG.ENABLE, F.KVP_CFG.PSIZE, F.KVP_TP_CFG.SLOT, F.KVP_TP_BASE.BASE, F.KVP_SEQ_BASE.BASE, F.KVP_SEQ_COUNT.N, F.KVP_REC_BASE.BASE, F.KVP_REG_SEL.REGION, F.KVP_REG_BASE.BASE, F.KVP_REG_COUNT.N, F.KVP_FREE.N, F.KVP_HELD.N, F.KVP_HOLD.WAIT_PAGE, F.KVP_HOLD.WAIT_TABLE, F.KVP_HOLD.QUEUE, F.KVP_INT_STATUS.HOLD, F.KVP_INT_STATUS.EDIT_DONE, F.KVP_INT_STATUS.EDIT_FULL, F.KVP_INT_STATUS.LOW, F.KVP_INT_EN.MASK, F.KVP_LOW_MARK.N, F.KVP_EDIT_OP.OP, F.KVP_EDIT_OP.BRANCH, F.KVP_EDIT_TARGET.ID] ++
  [F.KVP_EDIT_ARG0.VALUE, F.KVP_EDIT_ARG1.VALUE, F.KVP_EDIT_CTX.CONTEXT, F.KVP_EDIT_GO.GO, F.KVP_EDIT_STATUS.BUSY, F.KVP_EDIT_STATUS.DEFERRED, F.KVP_EDIT_STATUS.RESULT]

/-- The fields of the CLUSTER table. -/
def fieldsOfCluster : List Field :=
  [F.SEQ_CFG.CLAIM_AHEAD, F.SEQ_STATUS.BUSY, F.SEQ_STATUS.LAYERS, F.SEQ_STATUS.WAIT_CLAIM, F.SEQ_STATUS.FENCED, F.SEQ_JOB.JOB, F.SEQ_JOBINFO.GEN, F.SEQ_JOBINFO.COUNTER, F.CLS_STATUS.IN_PLACEMENT, F.CLS_STATUS.STORE_OWNED, F.CLS_STATUS.FREE_CORES]

/-- The fields of the OWN table. -/
def fieldsOfOwn (cls : Nat) : List Field :=
  [F.OWN_OP.OP cls, F.OWN_FIRST.GRANULE cls, F.OWN_COUNT.N cls, F.OWN_CTX.CONTEXT cls, F.OWN_GO.GO cls, F.OWN_STATUS.BUSY cls, F.OWN_STATUS.DEFERRED cls, F.OWN_STATUS.ZEROING cls, F.OWN_STATUS.RESULT cls]

/-- The fields of the PDIE table. -/
def fieldsOfPdie : List Field :=
  [F.PDIE_SYS.SIZE, F.PDIE_WIN_CFG.DEPTH, F.PDIE_WIN_BASE.BASE, F.PDIE_WIN_SIZE.SIZE, F.PDIE_STATUS.BUSY, F.PDIE_STATUS.WIN_WAIT, F.PDIE_STATUS.RPUMP_BUSY, F.PDIE_INT_STATUS.OWN_DONE, F.PDIE_INT_STATUS.RED_DONE, F.PDIE_INT_EN.MASK]

/-- The fields of the HBMC table. -/
def fieldsOfHbmc : List Field :=
  [F.HBMC_CFG.ZERO_SHARE, F.HBMC_STATUS.BUSY, F.HBMC_STATUS.TRAINED, F.HBMC_STATUS.RETIRED, F.HBMC_STATUS.RETIRED_PC, F.HBMC_STATUS.OFFLINE, F.HBMC_STATUS.RETRAINING, F.HBMC_STATUS.RETRAIN_CH, F.HBMC_TEMP.TEMP, F.HBMC_TEMP.STEP, F.HBMC_REF_CFG.MIN_STEP, F.HBMC_FAULT.PC, F.HBMC_FAULT.KIND, F.HBMC_FAULT.CLEAR, F.HBMC_INT_STATUS.STEP_CHANGE, F.HBMC_INT_STATUS.PC_RETIRED, F.HBMC_INT_STATUS.OWN_DONE, F.HBMC_INT_STATUS.ZERO_DONE, F.HBMC_INT_EN.MASK]

/-- The fields of the OPORT table. -/
def fieldsOfOport : List Field :=
  [F.OP_CFG.ENABLE, F.OP_CFG.ROLE, F.OP_STATUS.UP, F.OP_STATUS.FAILED, F.OP_STATUS.IN_SLOT, F.OP_STATUS.LIT_TX, F.OP_STATUS.LIT_RX, F.OP_LANE_TX.STATE, F.OP_LANE_RX.STATE, F.OP_LASER.PRESENT, F.OP_CTRL.RESET_LANES, F.OP_CTRL.REJOIN, F.OP_INT_STATUS.LANE_DOWN, F.OP_INT_STATUS.LANE_UP, F.OP_INT_STATUS.PORT_DOWN, F.OP_INT_STATUS.PORT_UP, F.OP_INT_EN.MASK]

/-- The fields of the HOSTLINK table. -/
def fieldsOfHostlink : List Field :=
  [F.HL_CFG.PUSH_EN, F.HL_STATUS.UP, F.HL_STATUS.HANDOVER, F.HL_STATUS.LONG_ROUTE, F.HL_STATUS.MINIMAL, F.HL_STATUS.LIVE, F.HL_PORTMAP.MAP, F.HL_RTT.NS, F.HL_FILTER.LINES, F.HL_BLOCK_VEC.VECTOR, F.HL_STALL_WATCH.MS, F.HL_INT_STATUS.PORT_LOST, F.HL_INT_STATUS.HANDOVER_DONE, F.HL_INT_STATUS.STALL, F.HL_INT_STATUS.RECALL_TIMEOUT, F.HL_INT_EN.MASK]

/-- The fields of the CISTERN table. -/
def fieldsOfCistern : List Field :=
  [F.CIS_CFG.ENABLE, F.CIS_STATUS.STATE, F.CIS_STATUS.BUSY, F.CIS_STATUS.WORN, F.CIS_OWNER.CONTEXT, F.CIS_OP.OP, F.CIS_ARG0.VALUE, F.CIS_ARG1.VALUE, F.CIS_ARG2.BLOCKS, F.CIS_GO.GO, F.CIS_OP_STATUS.BUSY, F.CIS_OP_STATUS.RESULT, F.CIS_INT_STATUS.ATTACHED, F.CIS_INT_STATUS.OFFLINE, F.CIS_INT_STATUS.OP_DONE, F.CIS_INT_STATUS.CAT_FULL, F.CIS_INT_EN.MASK, F.CIS_CAT_HEAD.SEQ, F.CIS_CAPACITY.BLOCKS]

/-- The fields of the SCHED table. -/
def fieldsOfSched : List Field :=
  [F.SCHED_CFG.ENABLE, F.SCHED_SLICE.US, F.SCHED_GRACE.US, F.SCHED_POOL_BASE.BASE, F.SCHED_POOL_COUNT.N, F.SCHED_POOL_FREE.UNITS, F.SCHED_STATUS.RESIDENT, F.SCHED_STATUS.YIELDING, F.SCHED_STATUS.OUT_READY, F.SCHED_INT_STATUS.OVERRUN, F.SCHED_INT_STATUS.POOL_SHORT, F.SCHED_INT_STATUS.SWAP, F.SCHED_INT_EN.MASK, F.SCHED_CTX_SEL.CONTEXT, F.SCHED_CTX_OP.OP, F.SCHED_CTX_OP.RESULT, F.SCHED_CTX_CLIENT.CLIENT, F.SCHED_CTX_STATE.STATE, F.SCHED_CTX_STATE.SLOT, F.SCHED_CTX_STATE.RESIDENT, F.SCHED_CTX_STATE.CORES, F.SCHED_CLIENT_SEL.CLIENT]

/-- The fields of the CLOCK table. -/
def fieldsOfClock : List Field :=
  [F.CLK_STATUS.REF0_OK, F.CLK_STATUS.REF1_OK, F.CLK_STATUS.PLL_LOCKED, F.CLK_STATUS.TB_UNSYNC, F.CLK_SEL.CLUSTER, F.CLK_CL_POINT.POINT, F.CLK_CL_POINT.PARKED, F.CLK_CL_POINT.HELD, F.CLK_CL_MAX.POINT, F.CLK_INT_STATUS.REF_LOST, F.CLK_INT_STATUS.STRETCH, F.CLK_INT_EN.MASK]

/-- The fields of the POWER table. -/
def fieldsOfPower : List Field :=
  [F.PWR_LIMIT.WATTS, F.PWR_CFG.PARK, F.PWR_CFG.PARK_DELAY, F.PWR_STATUS.STATE, F.PWR_STATUS.POINT, F.PWR_INPUT.WATTS, F.PWR_VIN.MV, F.PWR_TEMP.COMPUTE, F.PWR_TEMP.PORT, F.PWR_TEMP.CONTROL, F.PWR_TEMP.PHOTONIC, F.PWR_MEAN_CLK.MHZ, F.PWR_INT_STATUS.LIMITED, F.PWR_INT_STATUS.THERMAL, F.PWR_INT_STATUS.VIN_LOW, F.PWR_INT_EN.MASK]

/-- The fields of the RESET table. -/
def fieldsOfReset : List Field :=
  [F.RST_CTRL.WARM, F.RST_CTRL.RECOVERY, F.RST_CTRL.CLUSTER, F.RST_CLUSTER.CLUSTER, F.RST_STATUS.IN_PROGRESS, F.RST_STATUS.CLUSTER_BUSY, F.RST_STATUS.LAST, F.RST_STATUS.LAST_CLUSTER, F.RST_CAUSE.CAUSE, F.RST_INT_STATUS.DONE, F.RST_INT_EN.MASK]

/-- The fields of the BOOT table. -/
def fieldsOfBoot : List Field :=
  [F.BOOT_STATUS.STAGE, F.BOOT_STATUS.MODE, F.BOOT_STATUS.FALLBACK, F.BOOT_STATUS.DEGRADED, F.BOOT_STATUS.MIN_NO_HBM, F.BOOT_STATUS.MIN_STACK, F.BOOT_STATUS.SLOT, F.BOOT_STATUS.COUNT, F.BOOT_CAUSE.KIND, F.BOOT_CAUSE.PART, F.BOOT_CAUSE.INSTANCE, F.BOOT_FAIL.CODE0, F.BOOT_FAIL.CODE1, F.BOOT_FAIL.CODE2, F.BOOT_FW.VERSION, F.BOOT_SVN.SVN, F.BOOT_CTRL.CLEAR_COUNT, F.BOOT_CTRL.SET_PREFER, F.BOOT_CTRL.SLOT, F.BOOT_INT_STATUS.MINIMAL, F.BOOT_INT_STATUS.FW_STAGED, F.BOOT_INT_EN.MASK]

/-- The fields of the SECURITY table. -/
def fieldsOfSecurity : List Field :=
  [F.SEC_STATUS.ENGINE_BUSY, F.SEC_STATUS.TREE_GEN, F.SEC_STATUS.TREE_READY, F.SEC_STATUS.NO_SIGN, F.SEC_STATUS.TREE, F.SEC_REVOKED.MASK, F.SEC_SVN.FUSE, F.SEC_CTRL.COMMIT_SVN, F.SEC_CTRL.REVOKE, F.SEC_CTRL.SLOT, F.SEC_INT_STATUS.TREE_DONE, F.SEC_INT_STATUS.LOW_INDICES, F.SEC_INT_EN.MASK]

/-- The fields of the LIFECYCLE table. -/
def fieldsOfLifecycle : List Field :=
  [F.LC_STATE.STATE, F.LC_STATE.TRANSITIONS, F.LC_STATE.PENDING, F.LC_STATE.PENDING_TO, F.LC_TARGET.STATE, F.LC_GO.GO, F.LC_STATUS.RESULT, F.LC_JTAG.LEVEL]

/-- The fields of the ERROR table. -/
def fieldsOfError : List Field :=
  [F.ERR_CFG.FIRST_MIN, F.ERR_CFG.COALESCE, F.ERR_STATUS.FIRST_VALID, F.ERR_STATUS.HANDLING, F.ERR_STATUS.HANDLING_SEV, F.ERR_STATUS.FORCED, F.ERR_STATUS.THERMAL_HOLD, F.ERR_HEAD.SEQ, F.ERR_TAIL.SEQ, F.ERR_INT_STATUS.GREY, F.ERR_INT_STATUS.AMBER, F.ERR_INT_STATUS.RED, F.ERR_INT_STATUS.BLACK, F.ERR_INT_STATUS.LOST, F.ERR_INT_EN.MASK, F.ERR_FIRST_CTRL.CLEAR, F.ERR_INJECT.CODE, F.ERR_INJECT.SEV]

/-- The fields of the TRACE table. -/
def fieldsOfTrace : List Field :=
  [F.TRC_CFG.ENABLE, F.TRC_CFG.WRAP, F.TRC_CFG.SHARE, F.TRC_TYPES.MASK, F.TRC_BASE.BASE, F.TRC_COUNT.N, F.TRC_SAMPLE.US, F.TRC_SAMPLE.CLASS, F.TRC_TRIG.TYPE, F.TRC_TRIG.STOP, F.TRC_TRIG.CODE, F.TRC_MARK.VALUE, F.TRC_STATUS.FULL, F.TRC_STATUS.THROTTLED, F.TRC_STATUS.TRIGGERED, F.TRC_INT_STATUS.FULL, F.TRC_INT_STATUS.TRIGGER, F.TRC_INT_STATUS.DROPPED, F.TRC_INT_EN.MASK]

/-- The fields of the STOP table. -/
def fieldsOfStop : List Field :=
  [F.STOP_CFG.LEAD, F.STOP_CFG.ON_RED, F.STOP_CTRL.GO, F.STOP_CTRL.RELEASE, F.STOP_STATUS.STATE, F.STOP_STATUS.PARTIAL, F.STOP_STATUS.CAUSE, F.STOP_STATUS.REFUSED, F.STOP_CAP_ADDR.OFFSET, F.WFG_CTRL.GO, F.WFG_BASE_LO.BASE, F.WFG_BASE_HI.BASE, F.WFG_SIZE.PAGES, F.WFG_STATUS.BUSY, F.WFG_STATUS.DONE, F.WFG_STATUS.TRUNCATED, F.WFG_STATUS.CUT, F.WFG_STATUS.CYCLES, F.STOP_INT_STATUS.HALTED, F.STOP_INT_STATUS.CAPTURED, F.STOP_INT_STATUS.RELEASED, F.STOP_INT_STATUS.WFG_DONE, F.STOP_INT_EN.MASK]

/-- The fields of the HDR table. -/
def fieldsOfHdr (cls : Nat) : List Field :=
  [F.PG_ID.REVISION cls, F.PG_ID.INSTANCE cls, F.PG_ID.CLASS cls, F.PG_CAPS.UNITS cls, F.PG_CAPS.INSTANCES cls, F.PG_CTRL.INT_MASTER cls, F.PG_CTRL.SNAP cls, F.PG_STATUS.BUSY cls, F.PG_STATUS.WRITE_REJECT cls, F.PG_STATUS.APPLY_PENDING cls, F.PG_STATUS.LOCK_ABORT cls, F.PG_STATUS.INT_PENDING cls, F.PG_ERR_FIRST.CODE cls, F.PG_ERR_FIRST.SEV cls, F.PG_ERR_FIRST.SLOT cls, F.PG_ERR_FIRST.VALID cls, F.PG_ERR_FIRST.CLEAR cls, F.PG_ERR_MASK.GREY cls, F.PG_ERR_MASK.AMBER cls, F.PG_ERR_COUNT.N cls, F.PG_APPLY.APPLY cls, F.PG_DOMAIN.DOMAIN cls, F.PG_LOCK.HOLDER cls, F.PG_LOCK.TAKE cls] ++
  [F.PG_LOCK.GIVE cls]

/-- The fields of the GLOBAL table. -/
def fieldsOfGlobal : List Field :=
  [F.GL_PART.PART, F.GL_CORES.N, F.GL_COUNTS.CLUSTERS, F.GL_COUNTS.CDIES, F.GL_COUNTS.STACKS, F.GL_COUNTS.PORTS, F.GL_COUNTS.PDIES, F.GL_SERIAL0.VALUE, F.GL_SERIAL1.VALUE, F.GL_SERIAL2.VALUE, F.GL_SERIAL3.VALUE, F.GL_SCRATCH0.VALUE, F.GL_SCRATCH1.VALUE, F.GL_SCRATCH2.VALUE, F.GL_SCRATCH3.VALUE]

/-- The fields of the QUEUE table. -/
def fieldsOfQueue : List Field :=
  [F.Q_TABLE_LO.BASE, F.Q_TABLE_HI.BASE, F.Q_SEL.QUEUE, F.Q_OP.OP, F.Q_OP.RESULT, F.Q_STATE.ENABLED, F.Q_STATE.DRAINING, F.Q_STATE.INPUT_WAIT, F.Q_STATE.RETURNING, F.Q_HEAD.SEQ, F.Q_TAIL.SEQ, F.Q_ENABLED.N, F.LIN_BASE_LO.BASE, F.LIN_BASE_HI.BASE, F.LIN_SIZE.PAGES, F.LIN_FREE.UNITS, F.Q_INT_STATUS.LINEAGE_FULL, F.Q_INT_STATUS.TAIL_OVERRUN, F.Q_INT_STATUS.RETURNED, F.Q_INT_EN.MASK]

/-- The fields of the MGMT table. -/
def fieldsOfMgmt : List Field :=
  [F.MG_CFG.STATIC_ADDR, F.MG_CFG.MBOX_EN, F.MG_STATUS.DYN_VALID, F.MG_STATUS.DYN_ADDR, F.MG_STATUS.MBOX_BUSY, F.MG_STATUS.RSP_READY, F.MG_MBOX_LO.BASE, F.MG_MBOX_HI.BASE, F.MG_MBOX_REQ.LEN, F.MG_MBOX_REQ.SEND, F.MG_MBOX_RSP.LEN, F.MG_MBOX_RSP.ACK, F.MG_INT_STATUS.RSP_READY, F.MG_INT_STATUS.ATTACHED, F.MG_INT_EN.MASK]

/-- The fields of the CDIE table. -/
def fieldsOfCdie : List Field :=
  [F.CD_STATUS.PLACED, F.CD_STATUS.REMOVED, F.CD_STATUS.TEMP]

/-- WH_CNT_STEPS (R82). -/
def C.WH_CNT_STEPS : Cnt := ⟨0x02, 0x180⟩

/-- WH_CNT_CHILDREN (R82). -/
def C.WH_CNT_CHILDREN : Cnt := ⟨0x02, 0x188⟩

/-- WH_CNT_PRUNED (R82). -/
def C.WH_CNT_PRUNED : Cnt := ⟨0x02, 0x190⟩

/-- WH_CNT_HOLD_NS (R82). -/
def C.WH_CNT_HOLD_NS : Cnt := ⟨0x02, 0x198⟩

/-- CORE_CNT_PASSES (R128). -/
def C.CORE_CNT_PASSES : Cnt := ⟨0x11, 0x420⟩

/-- CORE_CNT_STALL (R128). -/
def C.CORE_CNT_STALL : Cnt := ⟨0x11, 0x428⟩

/-- CORE_CNT_SAT (R128). -/
def C.CORE_CNT_SAT : Cnt := ⟨0x11, 0x430⟩

/-- CORE_CNT_ECC (R128). -/
def C.CORE_CNT_ECC : Cnt := ⟨0x11, 0x438⟩

/-- KVP_EPOCH (R207). -/
def C.KVP_EPOCH : Cnt := ⟨0x04, 0x180⟩

/-- KVP_CNT_TAKEN (R207). -/
def C.KVP_CNT_TAKEN : Cnt := ⟨0x04, 0x188⟩

/-- KVP_CNT_RETURNED (R207). -/
def C.KVP_CNT_RETURNED : Cnt := ⟨0x04, 0x190⟩

/-- KVP_CNT_EVICTED (R207). -/
def C.KVP_CNT_EVICTED : Cnt := ⟨0x04, 0x198⟩

/-- KVP_CNT_ZEROED (R207). -/
def C.KVP_CNT_ZEROED : Cnt := ⟨0x04, 0x1A0⟩

/-- KVP_CNT_HOLD_NS (R207). -/
def C.KVP_CNT_HOLD_NS : Cnt := ⟨0x04, 0x1A8⟩

/-- SEQ_CNT_WORDS (R275). -/
def C.SEQ_CNT_WORDS : Cnt := ⟨0x11, 0x180⟩

/-- SEQ_CNT_SKIPPED (R275). -/
def C.SEQ_CNT_SKIPPED : Cnt := ⟨0x11, 0x188⟩

/-- SEQ_CNT_JOBS (R275). -/
def C.SEQ_CNT_JOBS : Cnt := ⟨0x11, 0x190⟩

/-- SEQ_CNT_RECLAIMED (R275). -/
def C.SEQ_CNT_RECLAIMED : Cnt := ⟨0x11, 0x198⟩

/-- PDIE_CNT_ATOMICS (R329). -/
def C.PDIE_CNT_ATOMICS : Cnt := ⟨0x20, 0x180⟩

/-- PDIE_CNT_WIN_BYTES (R329). -/
def C.PDIE_CNT_WIN_BYTES : Cnt := ⟨0x20, 0x188⟩

/-- PDIE_CNT_REDUCED (R329). -/
def C.PDIE_CNT_REDUCED : Cnt := ⟨0x20, 0x190⟩

/-- PDIE_CNT_FENCED (R329). -/
def C.PDIE_CNT_FENCED : Cnt := ⟨0x20, 0x198⟩

/-- HBMC_CNT_CE (R331). -/
def C.HBMC_CNT_CE : Cnt := ⟨0x21, 0x180⟩

/-- HBMC_CNT_UE (R331). -/
def C.HBMC_CNT_UE : Cnt := ⟨0x21, 0x188⟩

/-- HBMC_CNT_ZEROED (R331). -/
def C.HBMC_CNT_ZEROED : Cnt := ⟨0x21, 0x190⟩

/-- HBMC_CNT_ADDED (R331). -/
def C.HBMC_CNT_ADDED : Cnt := ⟨0x21, 0x198⟩

/-- HBMC_CNT_RETRAIN (R331). -/
def C.HBMC_CNT_RETRAIN : Cnt := ⟨0x21, 0x1A0⟩

/-- HBMC_CNT_HOT_NS (R331). -/
def C.HBMC_CNT_HOT_NS : Cnt := ⟨0x21, 0x1A8⟩

/-- OP_CNT_CW (R376). -/
def C.OP_CNT_CW : Cnt := ⟨0x30, 0x180⟩

/-- OP_CNT_CORR (R376). -/
def C.OP_CNT_CORR : Cnt := ⟨0x30, 0x188⟩

/-- OP_CNT_UNCORR (R376). -/
def C.OP_CNT_UNCORR : Cnt := ⟨0x30, 0x190⟩

/-- OP_CNT_CRC (R376). -/
def C.OP_CNT_CRC : Cnt := ⟨0x30, 0x198⟩

/-- OP_CNT_REPLAY (R376). -/
def C.OP_CNT_REPLAY : Cnt := ⟨0x30, 0x1A0⟩

/-- OP_CNT_SLOTS (R376). -/
def C.OP_CNT_SLOTS : Cnt := ⟨0x30, 0x1A8⟩

/-- HL_CNT_RECALLS (R377). -/
def C.HL_CNT_RECALLS : Cnt := ⟨0x31, 0x180⟩

/-- HL_CNT_PUSH_USED (R377). -/
def C.HL_CNT_PUSH_USED : Cnt := ⟨0x31, 0x188⟩

/-- HL_CNT_PUSH_MISSED (R377). -/
def C.HL_CNT_PUSH_MISSED : Cnt := ⟨0x31, 0x190⟩

/-- HL_CNT_HANDOVERS (R377). -/
def C.HL_CNT_HANDOVERS : Cnt := ⟨0x31, 0x198⟩

/-- HL_CNT_STALLS (R377). -/
def C.HL_CNT_STALLS : Cnt := ⟨0x31, 0x1A0⟩

/-- HL_CNT_DB_DROPPED (R377). -/
def C.HL_CNT_DB_DROPPED : Cnt := ⟨0x31, 0x1A8⟩

/-- CIS_CAT_HEAD (R378). -/
def C.CIS_CAT_HEAD : Cnt := ⟨0x22, 0x160⟩

/-- CIS_CAPACITY (R378). -/
def C.CIS_CAPACITY : Cnt := ⟨0x22, 0x168⟩

/-- CIS_CNT_READ (R378). -/
def C.CIS_CNT_READ : Cnt := ⟨0x22, 0x180⟩

/-- CIS_CNT_WRITTEN (R378). -/
def C.CIS_CNT_WRITTEN : Cnt := ⟨0x22, 0x188⟩

/-- CIS_CNT_COMMITS (R378). -/
def C.CIS_CNT_COMMITS : Cnt := ⟨0x22, 0x190⟩

/-- CIS_CNT_MEDIA (R378). -/
def C.CIS_CNT_MEDIA : Cnt := ⟨0x22, 0x198⟩

/-- SCHED_CNT_YIELDS (R440). -/
def C.SCHED_CNT_YIELDS : Cnt := ⟨0x01, 0x180⟩

/-- SCHED_CNT_SWAPS (R440). -/
def C.SCHED_CNT_SWAPS : Cnt := ⟨0x01, 0x188⟩

/-- SCHED_CNT_SAVED_BYTES (R440). -/
def C.SCHED_CNT_SAVED_BYTES : Cnt := ⟨0x01, 0x190⟩

/-- SCHED_CNT_RECOVERY_NS (R440). -/
def C.SCHED_CNT_RECOVERY_NS : Cnt := ⟨0x01, 0x198⟩

/-- CL_CNT_EXEC_NS (R440). -/
def C.CL_CNT_EXEC_NS : Cnt := ⟨0x01, 0x1C0⟩

/-- CL_CNT_WAIT_NS (R440). -/
def C.CL_CNT_WAIT_NS : Cnt := ⟨0x01, 0x1C8⟩

/-- CL_CNT_HOLD_NS (R440). -/
def C.CL_CNT_HOLD_NS : Cnt := ⟨0x01, 0x1D0⟩

/-- CL_CNT_OVERRUN_NS (R440). -/
def C.CL_CNT_OVERRUN_NS : Cnt := ⟨0x01, 0x1D8⟩

/-- CL_CNT_PREEMPTED (R440). -/
def C.CL_CNT_PREEMPTED : Cnt := ⟨0x01, 0x1E0⟩

/-- CL_CNT_OVERRUNS (R440). -/
def C.CL_CNT_OVERRUNS : Cnt := ⟨0x01, 0x1E8⟩

/-- CL_CNT_SWAPPED (R440). -/
def C.CL_CNT_SWAPPED : Cnt := ⟨0x01, 0x1F0⟩

/-- CL_CNT_PUBLISHED (R440). -/
def C.CL_CNT_PUBLISHED : Cnt := ⟨0x01, 0x1F8⟩

/-- CLK_TB (R465). -/
def C.CLK_TB : Cnt := ⟨0x08, 0x180⟩

/-- CLK_CNT_CYCLES (R465). -/
def C.CLK_CNT_CYCLES : Cnt := ⟨0x08, 0x188⟩

/-- CLK_CNT_STRETCH (R465). -/
def C.CLK_CNT_STRETCH : Cnt := ⟨0x08, 0x190⟩

/-- CLK_CNT_DROOP_CAL (R465). -/
def C.CLK_CNT_DROOP_CAL : Cnt := ⟨0x08, 0x198⟩

/-- CLK_CNT_POINT_CHANGES (R465). -/
def C.CLK_CNT_POINT_CHANGES : Cnt := ⟨0x08, 0x1A0⟩

/-- PWR_CNT_ENERGY (R466). -/
def C.PWR_CNT_ENERGY : Cnt := ⟨0x09, 0x180⟩

/-- PWR_CNT_LIMITED_NS (R466). -/
def C.PWR_CNT_LIMITED_NS : Cnt := ⟨0x09, 0x188⟩

/-- PWR_CNT_THERMAL_NS (R466). -/
def C.PWR_CNT_THERMAL_NS : Cnt := ⟨0x09, 0x190⟩

/-- PWR_CNT_PARKS (R466). -/
def C.PWR_CNT_PARKS : Cnt := ⟨0x09, 0x198⟩

/-- RST_CNT_WARM (R467). -/
def C.RST_CNT_WARM : Cnt := ⟨0x0A, 0x180⟩

/-- RST_CNT_RECOVERY (R467). -/
def C.RST_CNT_RECOVERY : Cnt := ⟨0x0A, 0x188⟩

/-- RST_CNT_CLUSTER (R467). -/
def C.RST_CNT_CLUSTER : Cnt := ⟨0x0A, 0x190⟩

/-- RST_LAST_NS (R467). -/
def C.RST_LAST_NS : Cnt := ⟨0x0A, 0x198⟩

/-- BOOT_DONE_NS (R498). -/
def C.BOOT_DONE_NS : Cnt := ⟨0x0C, 0x180⟩

/-- BOOT_CNT_RECORDS (R498). -/
def C.BOOT_CNT_RECORDS : Cnt := ⟨0x0C, 0x188⟩

/-- SEC_NEXT_INDEX (R499). -/
def C.SEC_NEXT_INDEX : Cnt := ⟨0x0D, 0x180⟩

/-- SEC_CNT_SIGNED (R499). -/
def C.SEC_CNT_SIGNED : Cnt := ⟨0x0D, 0x188⟩

/-- SEC_CNT_ABANDONED (R499). -/
def C.SEC_CNT_ABANDONED : Cnt := ⟨0x0D, 0x190⟩

/-- SEC_CNT_RESERVED (R499). -/
def C.SEC_CNT_RESERVED : Cnt := ⟨0x0D, 0x198⟩

/-- ERR_CNT_GREY (R525). -/
def C.ERR_CNT_GREY : Cnt := ⟨0x40, 0x180⟩

/-- ERR_CNT_AMBER (R525). -/
def C.ERR_CNT_AMBER : Cnt := ⟨0x40, 0x188⟩

/-- ERR_CNT_RED (R525). -/
def C.ERR_CNT_RED : Cnt := ⟨0x40, 0x190⟩

/-- ERR_CNT_BLACK (R525). -/
def C.ERR_CNT_BLACK : Cnt := ⟨0x40, 0x198⟩

/-- ERR_CNT_LOST (R525). -/
def C.ERR_CNT_LOST : Cnt := ⟨0x40, 0x1A0⟩

/-- ERR_CNT_COALESCED (R525). -/
def C.ERR_CNT_COALESCED : Cnt := ⟨0x40, 0x1A8⟩

/-- TRC_WR (R526). -/
def C.TRC_WR : Cnt := ⟨0x41, 0x180⟩

/-- TRC_CNT_RECORDS (R526). -/
def C.TRC_CNT_RECORDS : Cnt := ⟨0x41, 0x188⟩

/-- TRC_CNT_DROPPED (R526). -/
def C.TRC_CNT_DROPPED : Cnt := ⟨0x41, 0x190⟩

/-- TRC_CNT_THROTTLED (R526). -/
def C.TRC_CNT_THROTTLED : Cnt := ⟨0x41, 0x198⟩

/-- STOP_TARGET (R527). -/
def C.STOP_TARGET : Cnt := ⟨0x43, 0x160⟩

/-- STOP_CAP_DATA (R527). -/
def C.STOP_CAP_DATA : Cnt := ⟨0x43, 0x168⟩

/-- STOP_CAP_LEN (R527). -/
def C.STOP_CAP_LEN : Cnt := ⟨0x43, 0x170⟩

/-- STOP_CNT_STOPS (R527). -/
def C.STOP_CNT_STOPS : Cnt := ⟨0x43, 0x180⟩

/-- STOP_CNT_NS (R527). -/
def C.STOP_CNT_NS : Cnt := ⟨0x43, 0x188⟩

/-- WFG_CNT_REPORTS (R527). -/
def C.WFG_CNT_REPORTS : Cnt := ⟨0x43, 0x190⟩

/-- PG_SNAP_TIME (R532). -/
def C.PG_SNAP_TIME (cls : Nat) : Cnt := ⟨cls, 0x028⟩

/-- GL_CNT_REG_READS (R547). -/
def C.GL_CNT_REG_READS : Cnt := ⟨0x00, 0x180⟩

/-- GL_CNT_REG_WRITES (R547). -/
def C.GL_CNT_REG_WRITES : Cnt := ⟨0x00, 0x188⟩

/-- LIN_NEXT (R549). -/
def C.LIN_NEXT : Cnt := ⟨0x03, 0x160⟩

/-- LIN_OLDEST (R549). -/
def C.LIN_OLDEST : Cnt := ⟨0x03, 0x168⟩

/-- Q_CNT_ACCEPTED (R549). -/
def C.Q_CNT_ACCEPTED : Cnt := ⟨0x03, 0x180⟩

/-- Q_CNT_REFUSED (R549). -/
def C.Q_CNT_REFUSED : Cnt := ⟨0x03, 0x188⟩

/-- Q_CNT_PUBLISHED (R549). -/
def C.Q_CNT_PUBLISHED : Cnt := ⟨0x03, 0x190⟩

/-- Q_CNT_NO_EFFECT (R549). -/
def C.Q_CNT_NO_EFFECT : Cnt := ⟨0x03, 0x198⟩

/-- Q_CNT_REEXECUTED (R549). -/
def C.Q_CNT_REEXECUTED : Cnt := ⟨0x03, 0x1A0⟩

/-- Q_CNT_RETURNED (R549). -/
def C.Q_CNT_RETURNED : Cnt := ⟨0x03, 0x1A8⟩

/-- LIN_CNT_RECORDS (R549). -/
def C.LIN_CNT_RECORDS : Cnt := ⟨0x03, 0x1B0⟩

/-- LIN_CNT_RERUN (R549). -/
def C.LIN_CNT_RERUN : Cnt := ⟨0x03, 0x1B8⟩

/-- MG_CNT_I3C_MSGS (R553). -/
def C.MG_CNT_I3C_MSGS : Cnt := ⟨0x38, 0x180⟩

/-- MG_CNT_MBOX_MSGS (R553). -/
def C.MG_CNT_MBOX_MSGS : Cnt := ⟨0x38, 0x188⟩

/-- MG_CNT_REG (R553). -/
def C.MG_CNT_REG : Cnt := ⟨0x38, 0x190⟩

/-- MG_CNT_DROPPED (R553). -/
def C.MG_CNT_DROPPED : Cnt := ⟨0x38, 0x198⟩

/-- The 64-bit registers of the WELLHEAD table. -/
def cntsOfWellhead : List Cnt := [C.WH_CNT_STEPS, C.WH_CNT_CHILDREN, C.WH_CNT_PRUNED, C.WH_CNT_HOLD_NS]

/-- The 64-bit registers of the CORE table. -/
def cntsOfCore : List Cnt := [C.CORE_CNT_PASSES, C.CORE_CNT_STALL, C.CORE_CNT_SAT, C.CORE_CNT_ECC]

/-- The 64-bit registers of the KVPOOL table. -/
def cntsOfKvpool : List Cnt := [C.KVP_EPOCH, C.KVP_CNT_TAKEN, C.KVP_CNT_RETURNED, C.KVP_CNT_EVICTED, C.KVP_CNT_ZEROED, C.KVP_CNT_HOLD_NS]

/-- The 64-bit registers of the CLUSTER table. -/
def cntsOfCluster : List Cnt := [C.SEQ_CNT_WORDS, C.SEQ_CNT_SKIPPED, C.SEQ_CNT_JOBS, C.SEQ_CNT_RECLAIMED]

/-- The 64-bit registers of the PDIE table. -/
def cntsOfPdie : List Cnt := [C.PDIE_CNT_ATOMICS, C.PDIE_CNT_WIN_BYTES, C.PDIE_CNT_REDUCED, C.PDIE_CNT_FENCED]

/-- The 64-bit registers of the HBMC table. -/
def cntsOfHbmc : List Cnt := [C.HBMC_CNT_CE, C.HBMC_CNT_UE, C.HBMC_CNT_ZEROED, C.HBMC_CNT_ADDED, C.HBMC_CNT_RETRAIN, C.HBMC_CNT_HOT_NS]

/-- The 64-bit registers of the OPORT table. -/
def cntsOfOport : List Cnt := [C.OP_CNT_CW, C.OP_CNT_CORR, C.OP_CNT_UNCORR, C.OP_CNT_CRC, C.OP_CNT_REPLAY, C.OP_CNT_SLOTS]

/-- The 64-bit registers of the HOSTLINK table. -/
def cntsOfHostlink : List Cnt := [C.HL_CNT_RECALLS, C.HL_CNT_PUSH_USED, C.HL_CNT_PUSH_MISSED, C.HL_CNT_HANDOVERS, C.HL_CNT_STALLS, C.HL_CNT_DB_DROPPED]

/-- The 64-bit registers of the CISTERN table. -/
def cntsOfCistern : List Cnt := [C.CIS_CAT_HEAD, C.CIS_CAPACITY, C.CIS_CNT_READ, C.CIS_CNT_WRITTEN, C.CIS_CNT_COMMITS, C.CIS_CNT_MEDIA]

/-- The 64-bit registers of the SCHED table. -/
def cntsOfSched : List Cnt := [C.SCHED_CNT_YIELDS, C.SCHED_CNT_SWAPS, C.SCHED_CNT_SAVED_BYTES, C.SCHED_CNT_RECOVERY_NS, C.CL_CNT_EXEC_NS, C.CL_CNT_WAIT_NS, C.CL_CNT_HOLD_NS, C.CL_CNT_OVERRUN_NS, C.CL_CNT_PREEMPTED, C.CL_CNT_OVERRUNS, C.CL_CNT_SWAPPED, C.CL_CNT_PUBLISHED]

/-- The 64-bit registers of the CLOCK table. -/
def cntsOfClock : List Cnt := [C.CLK_TB, C.CLK_CNT_CYCLES, C.CLK_CNT_STRETCH, C.CLK_CNT_DROOP_CAL, C.CLK_CNT_POINT_CHANGES]

/-- The 64-bit registers of the POWER table. -/
def cntsOfPower : List Cnt := [C.PWR_CNT_ENERGY, C.PWR_CNT_LIMITED_NS, C.PWR_CNT_THERMAL_NS, C.PWR_CNT_PARKS]

/-- The 64-bit registers of the RESET table. -/
def cntsOfReset : List Cnt := [C.RST_CNT_WARM, C.RST_CNT_RECOVERY, C.RST_CNT_CLUSTER, C.RST_LAST_NS]

/-- The 64-bit registers of the BOOT table. -/
def cntsOfBoot : List Cnt := [C.BOOT_DONE_NS, C.BOOT_CNT_RECORDS]

/-- The 64-bit registers of the SECURITY table. -/
def cntsOfSecurity : List Cnt := [C.SEC_NEXT_INDEX, C.SEC_CNT_SIGNED, C.SEC_CNT_ABANDONED, C.SEC_CNT_RESERVED]

/-- The 64-bit registers of the ERROR table. -/
def cntsOfError : List Cnt := [C.ERR_CNT_GREY, C.ERR_CNT_AMBER, C.ERR_CNT_RED, C.ERR_CNT_BLACK, C.ERR_CNT_LOST, C.ERR_CNT_COALESCED]

/-- The 64-bit registers of the TRACE table. -/
def cntsOfTrace : List Cnt := [C.TRC_WR, C.TRC_CNT_RECORDS, C.TRC_CNT_DROPPED, C.TRC_CNT_THROTTLED]

/-- The 64-bit registers of the STOP table. -/
def cntsOfStop : List Cnt := [C.STOP_TARGET, C.STOP_CAP_DATA, C.STOP_CAP_LEN, C.STOP_CNT_STOPS, C.STOP_CNT_NS, C.WFG_CNT_REPORTS]

/-- The 64-bit registers of the GLOBAL table. -/
def cntsOfGlobal : List Cnt := [C.GL_CNT_REG_READS, C.GL_CNT_REG_WRITES]

/-- The 64-bit registers of the QUEUE table. -/
def cntsOfQueue : List Cnt := [C.LIN_NEXT, C.LIN_OLDEST, C.Q_CNT_ACCEPTED, C.Q_CNT_REFUSED, C.Q_CNT_PUBLISHED, C.Q_CNT_NO_EFFECT, C.Q_CNT_REEXECUTED, C.Q_CNT_RETURNED, C.LIN_CNT_RECORDS, C.LIN_CNT_RERUN]

/-- The 64-bit registers of the MGMT table. -/
def cntsOfMgmt : List Cnt := [C.MG_CNT_I3C_MSGS, C.MG_CNT_MBOX_MSGS, C.MG_CNT_REG, C.MG_CNT_DROPPED]

/-- The pages (R531): class, instances, and whether PG_DOMAIN counts on with the instance. -/
def pageClasses : List (Nat × Nat × Nat) :=
  [(0x00, 1, 313), (0x01, 1, 313), (0x02, 1, 313), (0x03, 1, 313), (0x04, 1, 313), (0x08, 1, 313), (0x09, 1, 313),
   (0x0A, 1, 313), (0x0C, 1, 312), (0x0D, 1, 312), (0x0E, 1, 312), (0x10, 16, 256), (0x11, 256, 0), (0x20, 4, 272),
   (0x21, 12, 276), (0x22, 16, 296), (0x30, 24, 288), (0x31, 1, 313), (0x38, 1, 314), (0x40, 1, 313), (0x41, 1, 313),
   (0x43, 1, 313)]

/-- Instances of a class, none where the map lists no such class (R529, R531). -/
def instancesOf (cls : Nat) : Option Nat := (pageClasses.find? (fun p => p.1 == cls)).map (fun p => p.2.1)

/-- PG_DOMAIN of a page (R531, R441). -/
def domainOf (cls inst : Nat) : Nat :=
  match pageClasses.find? (fun p => p.1 == cls) with
  | some (_, n, d) => if n = 1 then d else d + inst
  | none => 0

/-- The block fields of a page class, the header and the per-core blocks apart. -/
def blockFields (cls : Nat) : List Field :=
  match cls with
  | 0x00 => fieldsOfGlobal
  | 0x01 => fieldsOfSched
  | 0x02 => fieldsOfWellhead
  | 0x03 => fieldsOfQueue
  | 0x04 => fieldsOfKvpool
  | 0x08 => fieldsOfClock
  | 0x09 => fieldsOfPower
  | 0x0A => fieldsOfReset
  | 0x0C => fieldsOfBoot
  | 0x0D => fieldsOfSecurity
  | 0x0E => fieldsOfLifecycle
  | 0x10 => fieldsOfCdie
  | 0x11 => fieldsOfCluster
  | 0x20 => fieldsOfPdie ++ fieldsOfOwn 0x20
  | 0x21 => fieldsOfHbmc ++ fieldsOfOwn 0x21
  | 0x22 => fieldsOfCistern
  | 0x30 => fieldsOfOport
  | 0x31 => fieldsOfHostlink
  | 0x38 => fieldsOfMgmt
  | 0x40 => fieldsOfError
  | 0x41 => fieldsOfTrace
  | 0x43 => fieldsOfStop
  | _ => []


/-- The fields of the register at a page offset, with the offset moved to the core's own block in a CLUSTER page
(R528, R558). -/
def fieldsAt (cls off : Nat) : List Field :=
  if off < 0x100 then (fieldsOfHdr cls).filter (fun f => f.off == off)
  else if cls = 0x11 ∧ 0x400 ≤ off ∧ off < 0xE00 then
    (fieldsOfCore.filter (fun f => f.off == 0x400 + (off - 0x400) % 64)).map (fun f => { f with off := off })
  else (blockFields cls).filter (fun f => f.off == off)

/-- A per-core field of local core k (R128). -/
def Field.core (f : Field) (k : Nat) : Field := { f with off := f.off + 64 * k }

/-- The value a field holds while nothing has written it (the Reset column; R532 for the identity fields; R376 for
OP_CFG.ROLE). -/
def resetOf (f : Field) (inst : Nat) : Nat :=
  if f.off = 0 then
    (if f.lo = 8 then inst else if f.lo = 16 then f.cls else f.reset)
  else if f.off = 0x20 then domainOf f.cls inst
  else if f.off = 0x04 ∧ f.lo = 16 then (instancesOf f.cls).getD 0
  else if f = F.OP_CFG.ROLE then (if inst < 8 then 0 else 1)
  else f.reset

end Sys2Proof.Machine
end

