-- ==== Sys2Proof/Machine/State.lean ====
section
/-! DEFINITION. The state of the block as plain data: everything the spec gives the device, grouped by the engine
that owns it, and the state power-on reset leaves. Collections indexed by a number are sparse lists of
(number, value) pairs in rising order; a number that is not listed holds the resting value of its kind. -/

namespace Sys2Proof.Machine

/-- A sparse map: strictly rising keys, no entry equal to the resting value. -/
abbrev SMap (α : Type) := List (Nat × α)

/-- Byte-addressed storage; an unlisted byte of device storage is 0, as the power-on wipe leaves it (R460). -/
abbrev Mem := List Host.Cell

/-! ## Time, power and registers -/

/-- Device states (R459), with HALTED (R471) and OFF. -/
inductive Power where
  | off | starting | active | resetting | minimal | halted
deriving DecidableEq, Repr

/-- The time base (R445), the device state, and the straps sampled at PWR_OK (R565). -/
structure Tm where
  now    : Nat := 0
  power  : Power := .starting
  straps : Nat := 0
deriving DecidableEq, Repr

/-- The register window: field values in force and held boundary-shadowed values (R540), keyed by page, bank,
offset and low bit; 64-bit block counters; counter slots and their snapshots (R536). -/
structure Regs where
  fields : SMap Nat := []
  held   : SMap Nat := []
  cnts   : SMap Nat := []
  slots  : SMap Nat := []
  snaps  : SMap Nat := []
deriving DecidableEq, Repr

/-! ## Host link -/

/-- What a host-memory write of the device is for, so that its CMP has its consequence (R351). -/
inductive HwrFor where
  | journal (q seq : Nat)
  | lineage (index : Nat)
  | completion (q seq : Nat)
  | completionLast (q seq : Nat)
  | returnedLast (q seq : Nat)
  | history | report | mailbox | rewrite
deriving DecidableEq, Repr

/-- An outstanding HWR. -/
structure Hwr where
  tag  : Nat
  addr : Nat
  data : List Byte
  what : HwrFor
deriving DecidableEq, Repr

/-- What an outstanding HRD reads. -/
inductive HrdFor where
  | record (q slot : Nat)
  | mailbox
deriving DecidableEq, Repr

/-- An outstanding HRD. -/
structure Hrd where
  tag  : Nat
  addr : Nat
  what : HrdFor
deriving DecidableEq, Repr

/-- What waits for a recall (R353): nothing, a unit read of a stack, a host access, or a device write. -/
inductive RecallWait where
  | unit (stack pc : Nat)
  | access (p : Pkt)
  | bytes (addr : Nat) (data : List Byte)
deriving DecidableEq, Repr

/-- An outstanding RECALL of a 64-byte line, with its tag and its issue time (R356). -/
structure Recall where
  line  : Nat
  tag   : Nat
  at_   : Nat
  waits : List RecallWait
deriving DecidableEq, Repr

/-- A line the host holds (R352): clean or modified. -/
structure HeldLine where
  line     : Nat
  modified : Bool
deriving DecidableEq, Repr

/-- Everything the device sends (tables "Packet operations" and "Control messages", R554 for management). -/
inductive Out where
  | hrd (tag addr : Nat)
  | hwr (tag addr : Nat) (data : List Byte)
  | intr (vector source : Nat)
  | recall (line tag : Nat)
  | cmp (port tag status : Nat)
  | cmpD (port tag status : Nat) (data : List Byte)
  | cIdent (m tag : Nat)
  | cRead (m tag block blocks : Nat)
  | cWrite (m tag block : Nat) (data : List Byte)
  | cFlush (m tag : Nat)
  | cTrim (m tag block blocks : Nat)
  | ctrl (port code bits : Nat)
  | ackFlit (port seq : Nat) (nak : Bool)
  | replay (port seq : Nat)
  | mgmt (code status : Nat) (data : List Byte)
deriving DecidableEq, Repr

/-- A ring-cache entry (R359). -/
structure RingEntry where
  q    : Nat
  slot : Nat
  rec_ : List Byte
deriving DecidableEq, Repr

/-- The host link and the command engine's ring cache. -/
structure Hl where
  hostMem   : Mem := []
  hwr       : List Hwr := []
  hrd       : List Hrd := []
  nextTag   : Nat := 0
  out       : List Out := []
  ringCache : List RingEntry := []
  filter    : List HeldLine := []
  recalls   : List Recall := []
deriving DecidableEq, Repr

/-! ## Optical ports -/

/-- Lane states (R337). -/
inductive LaneSt where
  | dark | dim | lit | failed
deriving DecidableEq, Repr

/-- A lane of one direction: its state, when it entered it, its moves to DIM since it last left DARK (R337),
light at its input, and whether it is in the flit rotation. -/
structure Lane where
  st    : LaneSt := .dark
  since : Nat := 0
  moves : List Nat := []
  light : Bool := false
  rot   : Bool := false
deriving DecidableEq, Repr

/-- A sent flit kept for replay (R345): its SEQ, its fifteen slots and what it carries, whole or a part. -/
structure Flit where
  seq   : Nat
  slots : List W64
  what  : Out
deriving DecidableEq, Repr

/-- A port: lanes by number, 8 per direction (R332); flit layer (R343 to R347); calibration slot (R339);
hand-over (R361); whether it has been UP since it was last enabled (R361, R367). -/
structure Port where
  tx        : SMap Lane := []
  rx        : SMap Lane := []
  everUp    : Bool := false
  phase     : Nat := 0
  slotUntil : Option Nat := none
  announced : Option Nat := none
  heldTx    : List Out := []
  txNext    : Nat := 0
  retry     : List Flit := []
  rxNext    : Nat := 0
  nakSent   : Bool := false
  credits   : List Nat := [0, 0, 0]
  partialIn : List W64 := []
  partialSince : Option Nat := none
  stalled   : Bool := false
  handing   : Bool := false
deriving DecidableEq, Repr

structure Op where
  ports : SMap Port := []
deriving DecidableEq, Repr

/-! ## Queues, commands, lineage -/

/-- A completion record that is due (table "Completion record"), in the order the ring takes it. -/
structure Done where
  seq    : Nat
  rec_   : List Byte := []
  acceptedAt : Option Nat := none
  tag    : Nat := 0
  result : Nat := 0
  time   : Nat := 0
  flags  : Nat := 0
  detail : Nat := 0
  status : Nat := 0
  intr   : Bool := false
  returned : Bool := false
deriving DecidableEq, Repr

/-- A queue (R379 to R382, R580): the descriptor copy taken at ENABLE; its position, the SEQ of its oldest slot without
a completion record and the SEQ of its next slot; the tail of the doorbells; the next slot whose record is to be
fetched; the records in hand by SEQ; the completion records due; and whether the record of the oldest slot is being
written; the slots a reset has it take afresh whose commands had begun (R403). -/
structure Queue where
  enabled  : Bool := false
  draining : Bool := false
  desc     : List Byte := []
  position : Option (Nat × Nat) := none
  tail     : Nat := 0
  asked    : Nat := 0
  inHand   : List (Nat × List Byte) := []
  done     : List Done := []
  writing  : Bool := false
  returning : Bool := false
  again    : List Nat := []
deriving DecidableEq, Repr

/-- What a held command waits for (11_scheduling.md, "Context states"; 02, 05, 06, 07, 09, 10). -/
inductive Hold where
  | page | state | table | gauge | counter | cistern | rederive | fence | group
deriving DecidableEq, Repr

/-- Stages of an accepted command: waiting to start, running, outputs staged (publication step 1), lineage record
written and not acknowledged (step 3), effects done. -/
inductive Stage where
  | waiting | running | staged | lineage | finished
deriving DecidableEq, Repr

/-- A descriptor a command names (R384, R396): its address, whether it is an output, the storage of the new version,
and the 64 bytes as read at start. -/
structure DescUse where
  addr  : Nat
  out   : Bool
  store : Nat
  img   : List Byte
deriving DecidableEq, Repr

/-- A page of the pool or a state block with its image (R185, R186). -/
inductive Obj where
  | page (n : Nat)
  | block (n : Nat)
deriving DecidableEq, Repr

/-- An entry of a page-table image (R187) with its score (R202). -/
structure Entry where
  page    : Nat
  fill    : Nat
  evicted : Bool
  score   : BitVec 16
deriving DecidableEq, Repr

/-- A page-table image (05_attention.md, "Page-table image"); `entries` lists the layers, each in entry order. -/
structure Image where
  gen         : Nat := 0
  layers      : Nat := 0
  cap         : Nat := 0
  kvh         : Nat := 0
  scored      : Bool := false
  tailSealed  : Bool := false
  firstPos    : Nat := 0
  positions   : Nat := 0
  windowStart : Nat := 0
  entries     : List (List Entry) := []
deriving DecidableEq, Repr

/-- A branch-table entry (R81), with the policy head's last outputs and the action its running step consumes (R51).
State 0 FREE, 1 LIVE, 2 DONE. -/
structure Branch where
  state       : Nat := 0
  tailSealed  : Bool := false
  seed        : W32 := 0
  parent      : Nat := 0
  birthStep   : Nat := 0
  steps       : Nat := 0
  score       : W32 := 0
  value       : W32 := 0
  positions   : Nat := 0
  windowStart : Nat := 0
  block       : Option Nat := none
  ptGen       : Nat := 0
  mean        : List W32 := []
  logScale    : List W32 := []
  action      : List W32 := []
deriving DecidableEq, Repr

/-- A software edit of a holder (R203, R204): the values of the edit registers, and for EVICT_ENTRY the first position
of the entry that the holder's image then had at the index, and which edit of the device it was. -/
structure Edit where
  op     : Nat
  branch : Bool
  target : Nat
  arg0   : W32
  arg1   : W32
  ctx    : Nat
  pos    : Nat := 0
  serial : Nat := 0
deriving DecidableEq, Repr

/-- The attention mass that a pair gave to each entry of a layer of a branch (R202): the branch's key, the layer of its
image, the pair in (query head, row block) order, the mass of each entry by index summed over the pair's rows, none where
the pair did not read the entry. -/
structure PairMass where
  key   : Nat
  layer : Nat
  pair  : Nat
  mass  : List (Option W32)
deriving DecidableEq, Repr

/-- The staging of a wellhead command: groups it locks, its step, staged branch entries and images, objects taken, count
increments made, references to drop at publication and at the next step, those whose release a step has queued (R46),
children or kept indices, edits applied, the branches of the running step by key, per group the steps run, and the attention
mass of the running step. -/
structure Work where
  groups    : List Nat := []
  step      : Nat := 0
  inStep    : Bool := false
  branches  : SMap Branch := []
  images    : SMap Image := []
  taken     : List Obj := []
  added     : List (Obj × Nat) := []
  drops     : List Obj := []
  stepDrops : List Obj := []
  released  : List Obj := []
  list      : List Nat := []
  edits     : List (Nat × Edit) := []
  stepped   : List Nat := []
  ran       : List (Nat × Nat) := []
  mass      : List PairMass := []
deriving DecidableEq, Repr

/-- A layer of a RUN or STEP command as the scheduler sees it (R417 to R421, R265, R320): its ordinal in the command, its
program segment and the ordinal of that segment's first layer. -/
structure Layer where
  ord     : Nat
  plan    : Nat
  placed  : List Nat := []
  n       : Nat := 0
  k       : Nat := 0
  counter : Nat := 0
  started : Bool := false
  ended   : Bool := false
  windowBytes : Nat := 0
  windowReady : Bool := false
  seg     : Nat := 0
  first   : Nat := 0
deriving DecidableEq, Repr

/-- Kinds of command record (10_queues.md, "Command records"; R78). -/
inductive Kind where
  | run | move | checkpoint | reduce | barrier | open_ | step | fork | prune | close
deriving DecidableEq, Repr

/-- An accepted and unpublished command; `since` is when it was last held or staged (R523); `snaps` the images of sequences
that were current at its base epoch (R192); `tileBase` the drain ordinals of the steps it has closed (R263). -/
structure Cmd where
  q         : Nat
  seq       : Nat
  ctx       : Nat
  client    : Nat := 0
  kind      : Kind
  rec_      : List Byte
  acceptedAt : Nat := 0
  journalled : Bool := false
  stage     : Stage := .waiting
  hold      : Option Hold := none
  epoch     : Option Nat := none
  cflags    : Nat := 1
  status    : Nat := 0
  result    : Nat := 0
  detail    : W32 := 0xFFFFFFFF
  descs     : List DescUse := []
  gaugeRun  : Option (Nat × Nat) := none
  counterRun : Option (Nat × Nat) := none
  reserved  : Nat := 0
  appendTo  : List Nat := []
  layers    : List Layer := []
  work      : Work := {}
  data      : List (Nat × Nat × List Byte) := []
  lineIndex : Nat := 0
  begun     : Bool := false
  execNs    : Nat := 0
  waitsLog  : Bool := false
  since     : Nat := 0
  snaps     : List (Nat × Image) := []
  tileBase  : Nat := 0
deriving DecidableEq, Repr

/-- A lineage record of the log (10_queues.md, "Lineage record"). Slots hold the image, the descriptor address,
OUT, OLD storage, RELEASED, COVER, and the commands that had started before the publication and keep the old storage
(R279). -/
structure LinSlot where
  img      : List Byte
  desc     : Nat
  out      : Bool
  old      : Nat := 0
  released : Bool := false
  cover    : Nat := 0
  waitFor  : List (Nat × Nat) := []
deriving DecidableEq, Repr

structure LinRec where
  index   : Nat
  q       : Nat
  ctx     : Nat
  seq     : Nat
  time    : Nat
  nondet  : Bool
  retired : Bool
  rec_    : List Byte
  slots   : List LinSlot
  off     : Nat
  bytes   : Nat
  freed   : Bool := false
deriving DecidableEq, Repr

/-- The command engine. `arrivals` lists the doorbells with slots still to take, in arrival order, as queue and tail
(R382); `checked` the program images whose plan records have passed their checks and are kept, as descriptor, VERSION and
segment, 0x10000 for all the segments a wellhead image runs (R252). -/
structure Cq where
  queues  : SMap Queue := []
  arrivals : List (Nat × Nat) := []
  cmds    : List Cmd := []
  lineage : List LinRec := []
  linNext : Nat := 1
  linOff  : Nat := 0
  checked : List (Nat × Nat × Nat) := []
deriving DecidableEq, Repr

/-! ## Wellhead and pools -/

/-- A rollout group (R35 to R41). State 0 CLOSED, 1 OPEN, 2 BUSY, 3 REDERIVING. -/
structure Group where
  state      : Nat := 0
  owner      : Nat := 0
  capacity   : Nat := 0
  horizon    : Nat := 0
  window     : Nat := 0
  actionMode : Nat := 0
  scoreMode  : Nat := 0
  flags      : Nat := 0
  image      : Nat := 0
  imageVersion : Nat := 0
  gamma      : W32 := 0
  seed       : W32 := 0
  rootBlock  : Option Nat := none
  traj       : Nat := 0
  rootSeq    : Nat := 0
  layers     : Nat := 0
  kvh        : Nat := 0
  cap        : Nat := 0
  kvFmt      : Nat := 0
  headDim    : Nat := 0
  tpf        : Nat := 0
  keepNewest : Nat := 0
  decay      : W32 := 0
  scored     : Bool := false
  steps      : Nat := 0
  history    : List (List Byte) := []
  lock       : Option (Nat × Nat) := none
  edits      : List Edit := []
  evictStep  : Option Nat := none
deriving DecidableEq, Repr

structure Wh where
  groups   : SMap Group := []
  branches : SMap Branch := []
  sbCount  : SMap Nat := []
  sbStaged : List Nat := []
deriving DecidableEq, Repr

/-- A sequence: descriptor fields (05, "Sequence descriptor"), the epoch its current image became current at, whether an
OPEN has its tail sealed once the command that appends to it has ended (R45), and its two images (R186). -/
structure Seq where
  valid      : Bool := false
  evict      : Bool := false
  scored     : Bool := false
  appending  : Bool := false
  slot       : Nat := 0
  owner      : Nat := 0
  layers     : Nat := 0
  kvh        : Nat := 0
  kvFmt      : Nat := 0
  headDim    : Nat := 0
  tpf        : Nat := 0
  cap        : Nat := 0
  keepNewest : Nat := 0
  decay      : W32 := 0
  since      : Nat := 0
  sealNext   : Bool := false
  img0       : Image := {}
  img1       : Image := {}
deriving DecidableEq, Repr

/-- One queued change of a reference count (R47): the object, whether it adds, how many, and the epoch tag its fall
to zero carries (R191). -/
structure RefUpd where
  obj : Obj
  add : Bool
  n   : Nat
  tag : Nat
deriving DecidableEq, Repr

structure Kv where
  epoch    : Nat := 0
  pgCount  : SMap Nat := []
  pgOwner  : SMap Nat := []
  pgStaged : List Nat := []
  rotor    : Nat := 0
  holding  : List (Nat × Obj) := []
  refq     : List RefUpd := []
  seqs     : SMap Seq := []
  images   : SMap Image := []
  deferred : List Edit := []
  editNext : Nat := 0
deriving DecidableEq, Repr

/-! ## Tiling: gauges, counters, clusters, cores -/

/-- A gauge word (R231). -/
structure Gauge where
  value : Nat := 0
  gen   : Nat := 0
deriving DecidableEq, Repr

/-- A work counter record (R265). -/
structure Counter where
  next  : Nat := 0
  limit : Nat := 0
  done  : Nat := 0
  rq    : Nat := 0
  items : Nat := 0
deriving DecidableEq, Repr

/-- A fence entry, which is a reclaim entry until it is claimed (R271 to R273). -/
structure Fence where
  pdie    : Nat
  q       : Nat
  seq     : Nat
  counter : Nat
  job     : Nat
  mask    : Nat
  gen     : Nat
  reclaim : Bool
deriving DecidableEq, Repr

/-- A claimed job on a cluster (R266, R268): the items it has and those of them complete, as masks. -/
structure Job where
  job   : Nat
  mask  : Nat
  gen   : Nat
  done  : Nat := 0
deriving DecidableEq, Repr

/-- A layer on a cluster sequencer (R258), with the jobs claimed and not started in claim order, the cores by position
(R241), whether its dispatch message has arrived, and the items of its running job that are still to deal, each to a
position or, re-dealt, to any (R270). -/
structure SeqLayer where
  q       : Nat
  seq     : Nat
  layer   : Nat
  counter : Nat
  n       : Nat
  cores   : List Nat
  job     : Option Job := none
  ahead   : List Job := []
  exhausted : Bool := false
  dispatched : Bool := false
  deal    : List (Nat × Option Nat) := []
deriving DecidableEq, Repr

/-- A cluster (07, 08): placement, layers, the owner and the bytes of its store. -/
structure Cluster where
  removed  : Bool := false
  layers   : List SeqLayer := []
  owner    : Option (Nat × Nat) := none
  store    : Mem := []
  lastUe   : Option Nat := none
  droopUntil : Option Nat := none
deriving DecidableEq, Repr

/-- A stationary tile: format, the 16 scales, and the two elements of each cell (k, n) at index k * 16 + n (R93, R95). -/
structure Stat where
  fmt    : Nat := 0
  mx     : Bool := false
  half   : Nat := 0
  scales : List Byte := []
  cells  : SMap (BitVec 16) := []
deriving DecidableEq, Repr

/-- The operations of a VECTOR word (table "Vector operations"; R142, R152, R153). -/
inductive VecOp where
  | fma | add | mul | max | min | select | cmp | add40 | add40w | cvt
  | exp | ln | exp2 | log2 | sin2pi | cos2pi | tanh | sigmoid | sqrt | rcp | rsqrt
  | sum | rmax | rmin | topk | splitmix | gate40w | fma40 | lscan40
deriving DecidableEq, Repr

/-- A VECTOR word's fields: operand and destination addresses in 32-byte units (a well number where the operation
touches a well), the length in vectors of 32 elements, and the operation's own fields (log 8). -/
structure VecWord where
  op   : VecOp
  a    : Nat := 0
  b    : Nat := 0
  c    : Nat := 0
  d    : Nat := 0
  len  : Nat := 1
  fmtA : Nat := 0
  fmtD : Nat := 0
  rnd  : Bool := false
  aux  : Nat := 0
deriving DecidableEq, Repr

/-- A configuration word in a queue: the kinds whose bits the spec lays out are held as their 64 bits. -/
inductive CoreWord where
  | bits (w : W64)
  | vec (v : VecWord)
  | save40 (mask : BitVec 24) (addr : Nat)
  | restore40 (mask : BitVec 24) (addr : Nat)
deriving DecidableEq, Repr

/-- A queued word with what the sequencer attaches when it issues it: the drain's TILE (R263); in `at_` the gauge or
counter number of a WAIT and of an ADVANCE, run base added (R232), or the address of the atomic tensor (R293); the
value of an ADVANCE (R233); the item it was issued for; the core-store addresses of a convolution's 16 moving rows
(R210); the arrival tag the word names (R146); the fills it reads, as stream and fill, and those of output streams that it writes, with the stream's number of
buffers (R260); the index of its step among those its item runs; the items of its REDUCE group, by local index as a mask, that must be complete
before it starts (R242). -/
structure QWord where
  w     : CoreWord
  tile  : Nat := 0
  at_   : Nat := 0
  gval  : Nat := 0
  item  : Option Nat := none
  rows  : List Nat := []
  tag   : Option Nat := none
  fill  : List (Nat × Nat) := []
  outs  : List (Nat × Nat × Nat) := []
  step  : Nat := 0
  after : Nat := 0
deriving DecidableEq, Repr

/-- What a core is placed on and the item it runs (R241, R269), how many items of the layer it has begun, and the fills of
its item that the pumps have still to issue, and those of output streams they have still to store, as stream and fill
(R260). -/
structure Place where
  q       : Nat
  seq     : Nat
  layer   : Nat
  counter : Nat
  job     : Nat := 0
  item    : Option Nat := none
  gen     : Nat := 0
  since   : Nat := 0
  ord     : Nat := 0
  due     : List (Nat × Nat) := []
  outs    : List (Nat × Nat) := []
deriving DecidableEq, Repr

/-- What a WAIT word waits for (R236, R274), and since when. -/
structure Waiting where
  counter : Bool
  index   : Nat
  target  : Nat
  since   : Nat := 0
deriving DecidableEq, Repr

/-- A core record of the save pool (11, "Core record"): where it yielded and what it saved (R425), and the 64-byte unit of
the pool where its bytes begin. -/
structure SavedCore where
  q      : Nat
  seq    : Nat
  cluster : Nat
  position : Nat
  point  : Nat
  layer  : Nat
  place  : Place
  mask   : Nat
  wells  : SMap W40
  csAddr : Nat
  csLen  : Nat
  bytes  : Mem
  queue  : List QWord
  waiting : Option Waiting := none
  tags   : Nat := 0
  at_    : Option Nat := none
deriving DecidableEq, Repr

/-- A core (03): wells keyed well * 256 + row * 16 + column, the wells written since the last zeroing, the context whose
values the wells hold (R104), core store, stationary registers, word queue, words not yet issued, arrival tags, element
tables and the set they were loaded from (image, VERSION and offset; R135), LFSR lanes, the command seed and the command it
last served (R538); `out` while a fault or a failed self-test keeps it out of placement (R125, R126). -/
structure Core where
  wells    : SMap W40 := []
  written  : Nat := 0
  lastCtx  : Option Nat := none
  store    : Mem := []
  shadow   : Stat := {}
  active   : Stat := {}
  queue    : List QWord := []
  issue    : List QWord := []
  tags     : Nat := 0
  tables   : List (List Byte) := []
  tableSet : Option (Nat × Nat × Nat) := none
  lfsr     : List W32 := []
  cmdSeed  : W32 := 0
  lastCmd  : Option (Nat × Nat) := none
  place    : Option Place := none
  waiting  : Option Waiting := none
  ended    : Bool := false
  saving   : Option SavedCore := none
  out      : Bool := false
deriving DecidableEq, Repr

/-- A DONE increment or a gauge advance on its way to its home (R233, R269, R272): its command, cluster, counter, job,
local item and generation; for an advance the gauge and its value. -/
structure Traffic where
  q       : Nat
  seq     : Nat
  cl      : Nat
  counter : Nat
  job     : Nat
  item    : Nat
  gen     : Nat
  gauge   : Option (Nat × Nat) := none
deriving DecidableEq, Repr

structure Tl where
  traffic  : List Traffic := []
  gauges   : SMap Gauge := []
  counters : SMap Counter := []
  fences   : List Fence := []
  clusters : SMap Cluster := []
  cores    : SMap Core := []
deriving DecidableEq, Repr

/-! ## Memory tiers -/

/-- A unit read queued at a pseudo-channel (R299, R300): the pseudo-channel, the device address of the first byte asked
for, the core and core-store address the bytes go to, their number (within the unit), and whether U8 data are offset
(R219). -/
structure UnitRead where
  pc   : Nat
  addr : Nat
  core : Nat
  dest : Nat
  len  : Nat
  u8   : Bool := false
deriving DecidableEq, Repr

/-- A stack (R301 to R307). -/
structure Stack where
  retired  : List Nat := []
  offline  : Bool := false
  ues      : List (Nat × Nat × Nat) := []
  reads    : List UnitRead := []
  retrainFrom : Option Nat := none
  reading  : Nat := 0
  tempStep : Nat := 0
  stepInForce : Nat := 0
  hotSince : Nat := 0
deriving DecidableEq, Repr

/-- A grant whose granules are being zeroed (R311), and a deferred revoke (R312). -/
structure Granting where
  page  : Nat
  first : Nat
  count : Nat
  ctx   : Nat
deriving DecidableEq, Repr

/-- A request for the weight window (R320, R321), when it was made, and the 4 KiB unit of the ring where its image begins once
it is granted. -/
structure WinReq where
  q       : Nat
  seq     : Nat
  layer   : Nat
  bytes   : Nat
  granted : Bool := false
  since   : Nat := 0
  at_     : Nat := 0
deriving DecidableEq, Repr

/-- The tiers: device memory and the slices, poisoned 64-byte units, stacks, owners, grants, the weight window, versions
lost and not re-derived, the 256-byte units of retired pseudo-channels that hold their data again (R305, R306), and the
port dies that stopped answering. -/
structure Mm where
  dev     : Mem := []
  shared  : Mem := []
  poison  : List Nat := []
  poisonShared : List Nat := []
  hbm     : SMap Stack := []
  owners  : SMap Nat := []
  prevOwners : SMap Nat := []
  granting : List Granting := []
  revokes : List Granting := []
  window  : List WinReq := []
  lost    : List (Nat × Nat) := []
  fresh   : List Nat := []
  diesLost : List Nat := []
deriving DecidableEq, Repr

/-! ## Cisterns -/

/-- A commit record of the catalogue (09, "Commit record"). -/
structure CatRec where
  seq    : Nat
  desc   : List Byte
  first  : Nat
  blocks : Nat
deriving DecidableEq, Repr

/-- What an outstanding request to a module is for; `stale` where the command that made it no longer waits. -/
inductive CisFor where
  | ident | label | scan (upto : Nat) | read (q seq : Nat) (block : Nat)
  | catCheck (q seq : Nat) | data (q seq sent : Nat) | flush1 (q seq : Nat) | commit (q seq : Nat) | flush2 (q seq : Nat)
  | formatTrim (upto : Nat) | formatLabel | releaseTrim (seq : Nat) | trim | stale
deriving DecidableEq, Repr

structure CisReq where
  tag  : Nat
  what : CisFor
deriving DecidableEq, Repr

/-- A module (R366): state 0 ABSENT, 1 DISCOVERING, 2 BLANK, 3 FOREIGN, 4 READY, 5 OFFLINE. -/
structure Module where
  st       : Nat := 0
  ident    : List Byte := []
  label    : List Byte := []
  epoch    : Nat := 0
  worn     : Bool := false
  cat      : List CatRec := []
  reqs     : List CisReq := []
  nextTag  : Nat := 0
  clearing : Bool := false
deriving DecidableEq, Repr

structure Ci where
  modules : SMap Module := []
deriving DecidableEq, Repr

/-! ## Scheduler -/

/-- Context states (R416), in the order SCHED_CTX_STATE codes them. -/
inductive CtxSt where
  | absent | ready | running | yielding | blocked | saving | out | outReady | loading
deriving DecidableEq, Repr

/-- Where the cluster record of a cluster lies in the save pool, in 64-byte units, and its STORE_BYTES. -/
structure ClPlace where
  cluster : Nat
  at_     : Option Nat := none
  bytes   : Nat := 0
deriving DecidableEq, Repr

/-- A context (R412 to R416): slice timer (R422), times of waiting, blocking and yielding, and what it saved (R425), with
the places of its save header and cluster records in the pool. -/
structure Ctx where
  exist     : Bool := false
  client    : Option Nat := none
  st        : CtxSt := .absent
  slot      : Option Nat := none
  waitSince : Nat := 0
  blockedSince : Nat := 0
  sliceStart : Nat := 0
  sliceLen  : Nat := 0
  yieldSince : Nat := 0
  overran   : Bool := false
  swapping  : Bool := false
  saved     : List SavedCore := []
  clRecs    : List (Nat × Cluster) := []
  headAt    : Option Nat := none
  clAt      : List ClPlace := []
deriving DecidableEq, Repr

structure Sc where
  ctxs     : SMap Ctx := []
  unplaced : List Nat := []
deriving DecidableEq, Repr

/-! ## Clocks, power, reset -/

/-- A cluster's clock: its operating point, when it last changed, the points below 26 that R454 allows, parking, how
long no layer has been placed, and when a cluster woken from parking is awake (R448, R449, R454, R455). -/
structure Clk where
  point     : Nat := 0
  changed   : Option Nat := none
  throttle  : Nat := 0
  parked    : Bool := false
  idleSince : Nat := 0
  awake     : Nat := 0
deriving DecidableEq, Repr

/-- The power controller: cluster clocks; the last die temperatures read; compute dies that are stepping down, and
whether a port die or the control die makes every cluster do so (R454); whether the limit holds a cluster below its cap
(R466); when PWR_LIMIT was last written (R452); energy below 1 mJ in units of 10 µJ; sums of the cluster clocks in MHz at the recomputations of the last 100 ms,
newest first. -/
structure Pw where
  clk      : SMap Clk := []
  compute  : List Byte := []
  port     : List Byte := []
  control  : Byte := 0
  photonic : List Byte := []
  hotDies  : List Nat := []
  hotAll   : Bool := false
  limiting : Bool := false
  limitAt  : Nat := 0
  energy   : Nat := 0
  clocks   : List Nat := []
deriving DecidableEq, Repr

/-- A warm or recovery reset in progress (R462), with the clusters whose per-cluster reset it covers (R464). -/
structure RstRun where
  recovery : Bool
  at_      : Nat
  ends     : Nat
  returns  : List Nat := []
deriving DecidableEq, Repr

structure Rs where
  run      : Option RstRun := none
  clusters : List (Nat × Nat) := []
  afterBlack : Bool := false
  blackEnd : Option Nat := none
deriving DecidableEq, Repr

/-! ## Boot, security, life cycle, management -/

/-- A record of a boot-flash log (R480, R481); a torn record is absent. TYPE 1 COUNTER, 2 FAIL, 3 PREFER, 4 RESERVE,
5 TOP_USED. -/
structure LogRec where
  seq   : Nat
  type  : Nat
  value : Nat
  time  : Nat
deriving DecidableEq, Repr

/-- A life-cycle transition record of the fuses (R494 to R496). -/
structure LcRec where
  target  : Nat
  applied : Bool
deriving DecidableEq, Repr

structure Fuses where
  svn     : Nat := 0
  revoked : Nat := 0
  lc      : List LcRec := [⟨1, true⟩]
deriving DecidableEq, Repr

/-- The index state of the attestation key (R486 to R489): the next index of the block held and how many it has left, the
unused indices of blocks given up and not yet counted, whether the last index is used, the bottom trees stored, those
whose signed public key is stored, and the tree being generated with its start. -/
structure Sign where
  next    : Option Nat := none
  left    : Nat := 0
  lost    : Nat := 0
  exhausted : Bool := false
  stored  : List Nat := [0]
  signedTrees : List Nat := [0]
  generating : Option (Nat × Nat) := none
deriving DecidableEq, Repr

/-- A firmware update in progress (R493): the slot written and the bytes received so far. -/
structure Update where
  slot     : Nat
  size     : Nat
  received : Nat
deriving DecidableEq, Repr

/-- Boot, security and life cycle: the start of the running stage; the logs, oldest record first; bytes of the boot flash
that differ from delivery; whether its identity area and firmware slots are erased (R494); the fuses; the signature
state; a firmware update; the vendor key slot of the running image. -/
structure Bt where
  stageAt  : Nat := 0
  stateLog : List LogRec := []
  resLog   : List LogRec := []
  flash    : Mem := []
  erased   : Bool := false
  fuses    : Fuses := {}
  sign     : Sign := {}
  update   : Option Update := none
  fwKey    : Option Nat := none
deriving DecidableEq, Repr

/-- The mailbox (R555): the request being served. -/
structure Mg where
  reqLen : Option Nat := none
deriving DecidableEq, Repr

/-! ## Errors, trace, stop -/

/-- An error record (14, "Error record"); `part` names the control-die block or the port die that a black error of one
is about (R478), which the record itself does not show. -/
structure ErrRec where
  time     : Nat := 0
  seq      : Nat := 0
  code     : Nat := 0
  sev      : Nat := 0
  first    : Bool := false
  afterCut : Bool := false
  injected : Bool := false
  repeated : Nat := 0
  inst     : Nat := 0
  unit     : Nat := 0
  ctx      : Nat := 0xFFFF
  q        : Nat := 0xFFFF
  cmd      : Nat := 0
  detail   : Nat := 0
  part     : Nat := 0
deriving DecidableEq, Repr

/-- The error collector and ring (R504, R505), the first-error record (R507), the black error in hand and one that waits
for the end of a reset (R508 to R510), the thermal hold with when everything last became cool (R509), LINK_DARK (14,
table "Error codes") and THERM_N (R566). Handlers of lower severities end at once (log 46). -/
structure Er where
  collector : List ErrRec := []
  ring      : SMap ErrRec := []
  first     : Option ErrRec := none
  black     : Option ErrRec := none
  blackLater : Option ErrRec := none
  hold      : Bool := false
  coolSince : Option Nat := none
  darkSince : Option Nat := none
  thermN    : Bool := true
deriving DecidableEq, Repr

structure Tr where
  window    : Nat := 0
  used      : Nat := 0
  dropped   : Nat := 0
  owedDrop  : Nat := 0
  owedWins  : Nat := 0
  lastSample : Nat := 0
deriving DecidableEq, Repr

/-- An action held for the end of a stop or of a reset: a packet, or a register access of a requester; `reply` says whether
a write is a REG_WRITE that is owed its completion. -/
inductive HeldAccess where
  | pkt (p : Pkt)
  | read (r : Requester) (off size : Nat)
  | write (r : Requester) (off size : Nat) (v : W64) (reply : Bool)
deriving DecidableEq, Repr

/-- The global stop (R516 to R520): domains halted, with the time of each, and resumed; the trigger's time and the cut T; the capture store;
held accesses; the wait-for report being built and the first snapshot of a LIVE one (R523), each edge with its SINCE. -/
structure St where
  halted   : List (Nat × Nat) := []
  resumed  : List Nat := []
  trigger  : Nat := 0
  cut      : Nat := 0
  capture  : Mem := []
  held     : List HeldAccess := []
  wfgAt    : Option Nat := none
  wfgSnap  : List (Nat × Nat × Nat) := []
deriving DecidableEq, Repr

/-! ## The whole -/

/-- The block. `free` counts the free values drawn (log 2); `pending` is the queue of waiting commands. -/
structure State where
  tm  : Tm := {}
  rg  : Regs := {}
  hl  : Hl := {}
  op  : Op := {}
  cq  : Cq := {}
  wh  : Wh := {}
  kv  : Kv := {}
  tl  : Tl := {}
  mm  : Mm := {}
  ci  : Ci := {}
  sc  : Sc := {}
  pw  : Pw := {}
  rs  : Rs := {}
  bt  : Bt := {}
  mg  : Mg := {}
  er  : Er := {}
  tr  : Tr := {}
  st  : St := {}
  free : Nat := 0
  pending : List Instr := []
deriving DecidableEq, Repr

/-- The state power-on leaves when the control die comes out of reset (R457 order 6; R445: the time base is 0; R460:
every memory zero; every register at its reset value, since none is listed). -/
def State.reset : State := {}

/-- No command stops the block: the spec gives every row an effect, and faults of the hardware are error records
(R503). The one constructor is raised by nobody; it would be safe. -/
inductive Fault where
  | stopped
deriving DecidableEq, Repr

/-- Refusals. `notModelled` is answered only by an arm of `exec` whose row has no meaning yet (safe). -/
inductive Refusal where
  | notModelled (mnemonic : String)
deriving DecidableEq, Repr

end Sys2Proof.Machine
end

