-- ==== Sys2Proof/Machine/Ops.lean ====
section
/-! DEFINITION. Named operations over the state: sparse maps and bytes, register fields, counters, counter slots,
block interrupts, packets to the host and device memory. -/

namespace Sys2Proof.Machine

/-! ## Sparse maps and bytes -/

/-- The value at a key, `d` where none is listed. -/
def look {α : Type} (d : α) (m : SMap α) (k : Nat) : α :=
  match m with
  | [] => d
  | (j, w) :: r => if j = k then w else look d r k

/-- The map without a key. -/
def dropKey {α : Type} (m : SMap α) (k : Nat) : SMap α := m.filter (fun e => e.1 ≠ k)

/-- The map with key `k` holding `v`: rising keys, nothing listed that equals the resting value `d`. -/
def put {α : Type} [DecidableEq α] (d : α) (m : SMap α) (k : Nat) (v : α) : SMap α :=
  match m with
  | [] => if v = d then [] else [(k, v)]
  | (j, w) :: r =>
    if k < j then (if v = d then dropKey ((j, w) :: r) k else (k, v) :: (j, w) :: r)
    else if k = j then (if v = d then dropKey r k else (k, v) :: r)
    else (j, w) :: put d r k v

/-- The canonical form of a sparse map from key `lo` on. -/
def canonFrom {α : Type} [DecidableEq α] (d : α) (lo : Nat) (m : SMap α) : Bool :=
  match m with
  | [] => true
  | (j, w) :: r => decide (lo ≤ j) && decide (w ≠ d) && canonFrom d (j + 1) r

/-- The canonical form: strictly rising keys, no entry equal to the resting value. -/
def canon {α : Type} [DecidableEq α] (d : α) (m : SMap α) : Bool := canonFrom d 0 m

/-- A memory is in canonical form; an unlisted byte reads 0 (R460). -/
def Memory.wf (m : Mem) : Bool := canon (0 : Byte) m

/-- One byte of a device store. -/
def rdByte (m : Mem) (a : Nat) : Byte := look (0 : Byte) m a

/-- `n` bytes from an address. -/
def rdBytes (m : Mem) (a : Nat) : Nat → List Byte
  | 0 => []
  | n + 1 => rdByte m a :: rdBytes m (a + 1) n

/-- Bytes written from an address on. -/
def wrBytes (m : Mem) (a : Nat) : List Byte → Mem
  | [] => m
  | b :: r => wrBytes (put (0 : Byte) m a b) (a + 1) r

/-- Bytes written where the mask bit of their position is set (MASKED, table "Packet header"). -/
def wrMasked (m : Mem) (a mask : Nat) : List Byte → Mem
  | [] => m
  | b :: r => wrMasked (if mask % 2 = 1 then put (0 : Byte) m a b else m) (a + 1) (mask / 2) r

/-- A little-endian number. -/
def leNat : List Byte → Nat
  | [] => 0
  | b :: r => b.toNat + 256 * leNat r

/-- The `n` little-endian bytes of a number. -/
def toLE : (n : Nat) → Nat → List Byte
  | 0, _ => []
  | n + 1, v => BitVec.ofNat 8 v :: toLE n (v / 256)

/-- A field of `n` bytes at an offset of a record. -/
def field (r : List Byte) (off n : Nat) : Nat := leNat ((r.drop off).take n)

/-- Bits [hi:lo] of a number. -/
def bits (v hi lo : Nat) : Nat := v / 2 ^ lo % 2 ^ (hi + 1 - lo)

def bit (v i : Nat) : Bool := v / 2 ^ i % 2 = 1

/-- A record of zeros with values placed at offsets (offset, size, value). -/
def layout (len : Nat) (parts : List (Nat × Nat × Nat)) : List Byte :=
  parts.foldl (fun r p => r.take p.1 ++ toLE p.2.1 p.2.2 ++ r.drop (p.1 + p.2.1)) (List.replicate len 0)

def ceilDiv (a b : Nat) : Nat := (a + b - 1) / b

def b2n (b : Bool) : Nat := if b then 1 else 0

/-- Do all elements lie at zero. -/
def allZero (l : List Byte) : Bool := l.all (· == 0)

/-- The list with element `i` replaced. -/
def setAt {α : Type} (l : List α) (i : Nat) (v : α) : List α := l.set i v

/-! ## Registers -/

def fieldKey (f : Field) (inst bank : Nat) : Nat :=
  (((f.cls * 256 + inst) * 4096 + bank) * 4096 + f.off) * 64 + f.lo

def cntKey (c : Cnt) (inst bank : Nat) : Nat := ((c.cls * 256 + inst) * 4096 + bank) * 4096 + c.off

def slotKey (cls inst n : Nat) : Nat := (cls * 256 + inst) * 16 + n

/-- The value of a field in force. A selector-banked field has one value per selection. -/
def State.fld (s : State) (f : Field) (inst : Nat := 0) (bank : Nat := 0) : Nat :=
  look (resetOf f inst) s.rg.fields (fieldKey f inst bank)

/-- A field put in force at a value, cut to its width. -/
def State.setFld (s : State) (f : Field) (v : Nat) (inst : Nat := 0) (bank : Nat := 0) : State :=
  { s with rg.fields := put (resetOf f inst) s.rg.fields (fieldKey f inst bank) (v % 2 ^ f.width) }

/-- The value a read of a boundary-shadowed field returns: the held one while one is held (R540). The held map
lists value + 1. -/
def State.fldShown (s : State) (f : Field) (inst : Nat := 0) (bank : Nat := 0) : Nat :=
  match look 0 s.rg.held (fieldKey f inst bank) with
  | 0 => s.fld f inst bank
  | v + 1 => v

/-- Two registers of 32 bits read as one number. -/
def State.fld2 (s : State) (lo hi : Field) (inst : Nat := 0) (bank : Nat := 0) : Nat :=
  s.fld lo inst bank * 2 ^ lo.lo + s.fld hi inst bank * 2 ^ 32

/-- A 64-bit counter or register. -/
def State.cnt (s : State) (c : Cnt) (inst : Nat := 0) (bank : Nat := 0) : Nat :=
  look 0 s.rg.cnts (cntKey c inst bank)

def State.setCnt (s : State) (c : Cnt) (v : Nat) (inst : Nat := 0) (bank : Nat := 0) : State :=
  { s with rg.cnts := put 0 s.rg.cnts (cntKey c inst bank) (v % 2 ^ 64) }

def State.addCnt (s : State) (c : Cnt) (n : Nat) (inst : Nat := 0) (bank : Nat := 0) : State :=
  s.setCnt c (s.cnt c inst bank + n) inst bank

/-- A common counter slot (R536, R537). -/
def State.slot (s : State) (cls inst n : Nat) : Nat := look 0 s.rg.slots (slotKey cls inst n)

def State.addSlot (s : State) (cls inst n k : Nat) : State :=
  { s with rg.slots := put 0 s.rg.slots (slotKey cls inst n) ((s.slot cls inst n + k) % 2 ^ 64) }

/-- Counters whose events no row of the table carries, bridge bytes among them: their values are free (log 101). -/
def openCnt (cls inst off : Nat) : Bool :=
  (cls = 0x10 && decide (0x40 ≤ off) && decide (off < 0xC0)) ||
    (cls = 0x20 && decide (0x60 ≤ off) && decide (off < 0x80)) ||
    (cls = 0x20 && inst = 0 && decide (0x80 ≤ off) && decide (off < 0xA0)) ||
    (cls = 0x21 && off = C.HBMC_CNT_CE.off) || (cls = 0x38 && off = C.MG_CNT_DROPPED.off) ||
    (cls = 0x30 && (off = C.OP_CNT_CORR.off || off = C.OP_CNT_UNCORR.off)) ||
    (cls = 0x11 && decide (0x400 ≤ off) && (off - 0x400) % 64 = 0x38)

/-- The value such a counter shows; that of a snapshot is as of the snapshot. It is 0 at time 0, where every counter is at
its reset value. -/
def State.openWord (s : State) (cls inst off : Nat) : Nat :=
  let t := if off < 0x100 ∧ off % 16 ≠ 0 then s.cnt ⟨cls, 0x28⟩ inst else s.tm.now
  (Config.openCount cls inst off t).toNat % (64 * t + 1)

/-! ## Sub-states of the link -/

def State.port (s : State) (p : Nat) : Port := look {} s.op.ports p
def State.setPort (s : State) (p : Nat) (x : Port) : State := { s with op.ports := put {} s.op.ports p x }

/-! ## Packets to the host (R345 to R350) -/

/-- Class of a packet: 0 REQ, 1 RSP, 2 SNP; link control messages take no credit. -/
def outClass : Out → Option Nat
  | .hrd .. | .hwr .. | .intr .. | .cIdent .. | .cRead .. | .cWrite .. | .cFlush .. | .cTrim .. => some 0
  | .cmp .. | .cmpD .. => some 1
  | .recall .. => some 2
  | .ctrl .. | .ackFlit .. | .replay .. | .mgmt .. => none

/-- The logical slot of a memory request (R350). -/
def slotOfAddr (a : Nat) : Nat := Nat.xor (bits a 8 6) (Nat.xor (bits a 11 9) (bits a 14 12))

/-- The port a logical slot is mapped to. -/
def State.physPort (s : State) (slot : Nat) : Nat := bits (s.fld F.HL_PORTMAP.MAP) (3 * slot + 2) (3 * slot)

/-- The port a packet or message leaves on; none for what leaves elsewhere. -/
def State.outPort (s : State) (o : Out) : Option Nat :=
  match o with
  | .hrd _ a | .hwr _ a _ => some (s.physPort (slotOfAddr a))
  | .recall line _ => some (s.physPort (slotOfAddr (line * 64)))
  | .intr .. => some (s.physPort 0)
  | .cmp p .. | .cmpD p .. => some p
  | .cIdent m _ | .cRead m .. | .cWrite m .. | .cFlush m _ | .cTrim m .. => some (m + 8)
  | .ctrl p .. => some p
  | .ackFlit .. | .replay .. | .mgmt .. => none

/-- A packet header (table "Packet header"). -/
def headWords (op win tag status len aux addr : Nat) : List W64 :=
  [BitVec.ofNat 64 (op + win * 2 ^ 8 + tag % 4096 * 2 ^ 16 + status * 2 ^ 28 + len * 2 ^ 32 + aux * 2 ^ 48), BitVec.ofNat 64 addr]

/-- Data in whole slots. -/
def dataWords (b : List Byte) : List W64 :=
  (List.range (ceilDiv b.length 8)).map (fun i => BitVec.ofNat 64 (field b (8 * i) 8))

/-- The slots a packet or a control message takes. -/
def outWords (o : Out) : List W64 :=
  match o with
  | .hrd t a => headWords 0x11 3 t 0 64 0 a
  | .hwr t a d => headWords 0x12 3 t 0 d.length 0 a ++ dataWords d
  | .intr v src => headWords 0x13 0 0 0 0 v src
  | .recall line t => headWords 0x14 0 t 0 0 0 (line * 64)
  | .cmp _ t st => headWords 0x21 0 t st 0 0 0
  | .cmpD _ t st d => headWords 0x22 0 t st d.length 0 0 ++ dataWords d
  | .cIdent _ t => headWords 0x41 0 t 0 0 0 0
  | .cRead _ t b n => headWords 0x42 0 t 0 n 0 b
  | .cWrite _ t b d => headWords 0x43 0 t 0 4096 0 b ++ dataWords d
  | .cFlush _ t => headWords 0x44 0 t 0 0 0 0
  | .cTrim _ t b n => headWords 0x45 0 t 0 n 0 b
  | .ctrl _ code w => [BitVec.ofNat 64 (code + w * 2 ^ 8)]
  | .ackFlit .. | .replay .. | .mgmt .. => []

/-- Slots of a packet put into flits of fifteen, each with the next SEQ. -/
def flitsOf (o : Out) : (fuel : Nat) → (seq : Nat) → List W64 → List Flit
  | 0, _, _ => []
  | fuel + 1, seq, ws =>
    if ws = [] then []
    else
      { seq := seq, slots := (ws.take 15 ++ List.replicate 15 0).take 15, what := o } ::
        flitsOf o fuel ((seq + 1) % 4096) (ws.drop 15)

/-- Does a port send now: it carries flits, and no slot and no hand-over of it is under way (R341, R361). -/
def State.portSends (s : State) (p : Nat) : Bool :=
  s.fld F.OP_STATUS.UP p = 1 && (s.port p).slotUntil.isNone

/-- Credit a packet needs and the port has. -/
def Port.affords (x : Port) (o : Out) : Bool :=
  match outClass o with
  | some c => decide ((outWords o).length ≤ x.credits.getD c 0)
  | none => true

/-- The first waiting packet that has credit, each class in its own order (R347, R351). -/
def Port.pickOut (x : Port) : (seen : List (Option Nat)) → (before : List Out) → List Out → Option (Out × List Out)
  | _, _, [] => none
  | seen, before, o :: r =>
    if !seen.contains (outClass o) && x.affords o then some (o, before ++ r)
    else x.pickOut (outClass o :: seen) (before ++ [o]) r

/-- The next waiting packet goes into flits, while its credit and the retry buffer of 2,048 flits allow. -/
def Port.sendOne (x : Port) : Option Port :=
  match x.pickOut [] [] x.heldTx with
  | none => none
  | some (o, rest) =>
    let ws := outWords o
    let fs := flitsOf o (ws.length + 1) x.txNext ws
    if 2048 < x.retry.length + fs.length then none
    else some { x with
      heldTx := rest, retry := x.retry ++ fs, txNext := (x.txNext + fs.length) % 4096
      credits := match outClass o with
        | some c => x.credits.set c (x.credits.getD c 0 - ws.length)
        | none => x.credits }

def Port.sendAll : (fuel : Nat) → Port → Port
  | 0, x => x
  | fuel + 1, x => match x.sendOne with
    | some y => Port.sendAll fuel y
    | none => x

/-- A port sends what it can; every flit counts 128 bytes (R576). -/
def State.sendPort (s : State) (p : Nat) : State :=
  if s.portSends p then
    let x := Port.sendAll (s.port p).heldTx.length (s.port p)
    (s.setPort p x).addSlot 0x30 p 1 (128 * (x.retry.length - (s.port p).retry.length))
  else s

/-- A packet handed to the link layer: listed among what the device has sent, in order, and waiting at its port until
credit and the port let it go into flits (log 5). -/
def State.emit (s : State) (o : Out) : State :=
  let s : State := { s with hl.out := s.hl.out ++ [o] }
  match s.outPort o with
  | some p => (s.setPort p { s.port p with heldTx := (s.port p).heldTx ++ [o] }).sendPort p
  | none => s

/-- An INTR: completion interrupts name source 0xFFFF (R360). -/
def State.intr (s : State) (vector source : Nat) : State := s.emit (.intr (vector % 2048) source)

/-- The parts of a write that each lie within one 256-byte block (R349). -/
def split256 (addr : Nat) (data : List Byte) : Nat → List (Nat × List Byte)
  | 0 => []
  | fuel + 1 =>
    if data = [] then []
    else
      let n := 256 - addr % 256
      (addr, data.take n) :: split256 (addr + n) (data.drop n) fuel

/-- One HWR; its data count on the HOSTLINK page (R511, R576). -/
def State.hwr1 (s : State) (what : HwrFor) (p : Nat × List Byte) : State :=
  let tag := s.hl.nextTag
  (({ s with
    hl.hwr := s.hl.hwr ++ [⟨tag, p.1, p.2, what⟩]
    hl.nextTag := (tag + 1) % 4096 } : State).emit (.hwr tag p.1 p.2)).addSlot 0x31 0 1 p.2.length

/-- A write of host memory, in as many HWR as R349 asks for. -/
def State.hwr (s : State) (addr : Nat) (data : List Byte) (what : HwrFor) : State :=
  (split256 addr data (data.length / 256 + 2)).foldl (fun s p => s.hwr1 what p) s

/-- An HRD of 64 bytes. -/
def State.hrd (s : State) (addr : Nat) (what : HrdFor) : State :=
  let tag := s.hl.nextTag
  ({ s with
    hl.hrd := s.hl.hrd ++ [⟨tag, addr, what⟩]
    hl.nextTag := (tag + 1) % 4096 } : State).emit (.hrd tag addr)

/-- A byte of host memory as the device last saw or wrote it; a byte never seen is a free value (log 3). -/
def State.hostByte (s : State) (a : Nat) : Byte :=
  match s.hl.hostMem.find? (fun c => c.1 == a) with
  | some c => c.2
  | none => Config.hostByte a

def State.hostBytes (s : State) (a n : Nat) : List Byte := (List.range n).map (fun i => s.hostByte (a + i))

/-- A byte of host memory, listed whatever its value. -/
def hostPut (m : Mem) (a : Nat) (b : Byte) : Mem :=
  match m with
  | [] => [(a, b)]
  | (j, w) :: r => if a < j then (a, b) :: (j, w) :: r else if a = j then (a, b) :: r else (j, w) :: hostPut r a b

def hostPuts (m : Mem) (a : Nat) : List Byte → Mem
  | [] => m
  | b :: r => hostPuts (hostPut m a b) (a + 1) r

/-- Is some KCL port live (HL_STATUS.UP). -/
def State.linkUp (s : State) : Bool := (List.range 8).any (fun p => s.fld F.OP_STATUS.UP p = 1)

/-! ## Block interrupts -/

/-- The offsets of the INT_STATUS and INT_EN registers of a page class. -/
def intRegs (cls : Nat) : Option (Nat × Nat) :=
  match cls with
  | 0x01 => some (0x11C, 0x120)
  | 0x02 => some (0x130, 0x134)
  | 0x03 => some (0x130, 0x134)
  | 0x04 => some (0x130, 0x134)
  | 0x08 => some (0x110, 0x114)
  | 0x09 => some (0x11C, 0x120)
  | 0x0A => some (0x110, 0x114)
  | 0x0C => some (0x118, 0x11C)
  | 0x0D => some (0x110, 0x114)
  | 0x20 => some (0x114, 0x118)
  | 0x21 => some (0x114, 0x118)
  | 0x22 => some (0x124, 0x128)
  | 0x30 => some (0x118, 0x11C)
  | 0x31 => some (0x11C, 0x120)
  | 0x38 => some (0x118, 0x11C)
  | 0x40 => some (0x110, 0x114)
  | 0x41 => some (0x120, 0x124)
  | 0x43 => some (0x124, 0x128)
  | _ => none

/-- The enabled interrupt bits of a page that are set, as a number. -/
def State.intBits (s : State) (cls inst : Nat) : Nat :=
  match intRegs cls with
  | none => 0
  | some (st, en) =>
    let word (off : Nat) : Nat :=
      ((blockFields cls).filter (fun f => f.off == off)).foldl (fun n f => n + s.fld f inst * 2 ^ f.lo) 0
    Nat.land (word st) (word en)

/-- The block interrupt of a page: an INTR on HL_BLOCK_VEC carrying class and instance (R360; log 17), counted in
slot 11. -/
def State.blockIntr (s : State) (cls inst : Nat) : State :=
  (s.intr (s.fld F.HL_BLOCK_VEC.VECTOR) (cls * 256 + inst)).addSlot cls inst 11 1

/-- A bit of an INT_STATUS register becomes set (R534). -/
def State.setInt (s : State) (f : Field) (inst : Nat := 0) : State :=
  let before := s.intBits f.cls inst
  let s' := s.setFld f 1 inst
  if before = 0 ∧ s'.intBits f.cls inst ≠ 0 ∧ s.fld (F.PG_CTRL.INT_MASTER f.cls) inst = 1
  then s'.blockIntr f.cls inst else s'

/-- A write is refused: WRITE_REJECT, and slot 9 (R17, R537). -/
def State.reject (s : State) (cls inst : Nat) : State :=
  (s.setFld (F.PG_STATUS.WRITE_REJECT cls) 1 inst).addSlot cls inst 9 1

/-! ## Sub-states by number -/

def State.queue (s : State) (q : Nat) : Queue := look {} s.cq.queues q
def State.setQueue (s : State) (q : Nat) (x : Queue) : State := { s with cq.queues := put {} s.cq.queues q x }
def State.group (s : State) (g : Nat) : Group := look {} s.wh.groups g
def State.setGroup (s : State) (g : Nat) (x : Group) : State := { s with wh.groups := put {} s.wh.groups g x }

/-- Entry b of group g of the branch table (R81). -/
def branchKey (g b : Nat) : Nat := g * 4096 + b
def State.branch (s : State) (g b : Nat) : Branch := look {} s.wh.branches (branchKey g b)
def State.seq (s : State) (n : Nat) : Seq := look {} s.kv.seqs n
def State.gauge (s : State) (n : Nat) : Gauge := look {} s.tl.gauges n
def State.counter (s : State) (n : Nat) : Counter := look {} s.tl.counters n
def State.setCounter (s : State) (n : Nat) (x : Counter) : State :=
  { s with tl.counters := put {} s.tl.counters n x }
def State.cluster (s : State) (n : Nat) : Cluster := look {} s.tl.clusters n
def State.setCluster (s : State) (n : Nat) (x : Cluster) : State :=
  { s with tl.clusters := put {} s.tl.clusters n x }
def State.core (s : State) (n : Nat) : Core := look {} s.tl.cores n
def State.setCore (s : State) (n : Nat) (x : Core) : State := { s with tl.cores := put {} s.tl.cores n x }
def State.stack (s : State) (n : Nat) : Stack := look {} s.mm.hbm n
def State.setStack (s : State) (n : Nat) (x : Stack) : State := { s with mm.hbm := put {} s.mm.hbm n x }
def State.module (s : State) (n : Nat) : Module := look {} s.ci.modules n
def State.setModule (s : State) (n : Nat) (x : Module) : State := { s with ci.modules := put {} s.ci.modules n x }
def State.ctx (s : State) (n : Nat) : Ctx := look {} s.sc.ctxs n
def State.setCtx (s : State) (n : Nat) (x : Ctx) : State := { s with sc.ctxs := put {} s.sc.ctxs n x }
def State.clk (s : State) (n : Nat) : Clk := look {} s.pw.clk n
def State.setClk (s : State) (n : Nat) (x : Clk) : State := { s with pw.clk := put {} s.pw.clk n x }

/-- A free value drawn by the model's counter (log 2). -/
def State.draw (s : State) : W64 × State := (Config.freeValue s.free, { s with free := s.free + 1 })

/-! ## Commands in hand -/

def State.cmd? (s : State) (q seq : Nat) : Option Cmd := s.cq.cmds.find? (fun c => c.q == q && c.seq == seq)

/-- A command's record in hand replaced. -/
def State.setCmd (s : State) (c : Cmd) : State :=
  { s with cq.cmds := s.cq.cmds.map (fun d => if d.q == c.q && d.seq == c.seq then c else d) }

def State.dropCmd (s : State) (q seq : Nat) : State :=
  { s with cq.cmds := s.cq.cmds.filter (fun d => !(d.q == q && d.seq == seq)) }

/-! ## Device memory -/

/-- Bytes of device memory. -/
def State.devRead (s : State) (a n : Nat) : List Byte := rdBytes s.mm.dev a n

/-- Bytes at the pins of a stack counted on its page (R511, table "Slot points": 0 read, 1 write). -/
def State.pins (s : State) (a : Nat) (write : Bool) (n : Nat) : State :=
  s.addSlot 0x21 (a / 2 ^ 36 % 16) (if write then 1 else 0) n

/-- The units that a range touches. -/
def units64 (a n : Nat) : List Nat := (List.range (ceilDiv (a % 64 + n) 64)).map (fun i => a / 64 + i)

/-- The 256-byte units that a range touches. -/
def units256 (a n : Nat) : List Nat := (List.range (ceilDiv (a % 256 + n) 256)).map (fun i => a / 256 + i)

/-- The pseudo-channel of a device address (R297). -/
def pcOf (a : Nat) : Nat := Nat.xor (bits a 13 8) (bits a 19 14)

/-- Does an address lie in a retired pseudo-channel, whose units are redirected (R305). -/
def State.retiredAt (s : State) (a : Nat) : Bool := (s.stack (a / 2 ^ 36)).retired.contains (pcOf a)

/-- Bytes of device memory replaced, counted at the pins (R511); a unit written is no longer poisoned, and one of a
retired pseudo-channel holds data again. -/
def State.devPut (s : State) (a : Nat) (data : List Byte) : State :=
  let u := units64 a data.length
  ({ s with
      mm.dev := wrBytes s.mm.dev a data
      mm.poison := s.mm.poison.filter (fun x => !u.contains x)
      mm.fresh := s.mm.fresh ++
        (units256 a data.length).filter (fun x => s.retiredAt (x * 256) && !s.mm.fresh.contains x) } : State).pins
    a true data.length

/-- A zero-fill of device memory (R313), counted at the pins and in HBMC_CNT_ZEROED. -/
def State.devZero (s : State) (a n : Nat) : State :=
  let u := units64 a n
  let s : State := { s with
    mm.dev := s.mm.dev.filter (fun c => decide (c.1 < a) || decide (a + n ≤ c.1))
    mm.poison := s.mm.poison.filter (fun x => !u.contains x)
    mm.fresh := s.mm.fresh ++
      (units256 a n).filter (fun x => s.retiredAt (x * 256) && !s.mm.fresh.contains x) }
  (s.pins a true n).addCnt C.HBMC_CNT_ZEROED n (a / 2 ^ 36 % 16)

/-- Is a unit of the range poisoned (R305). -/
def State.poisoned (s : State) (a n : Nat) : Bool := (units64 a n).any (fun u => s.mm.poison.contains u)

/-- The hold of a line by the host (R352). -/
def State.held? (s : State) (line : Nat) : Option HeldLine := s.hl.filter.find? (fun h => h.line == line)

/-- A RECALL of a line for a waiting access, sent once per line (R353). -/
def State.recall (s : State) (line : Nat) (w : List RecallWait) : State :=
  if s.hl.recalls.any (fun r => r.line == line) then
    { s with hl.recalls := s.hl.recalls.map (fun r => if r.line == line then { r with waits := r.waits ++ w } else r) }
  else
    let tag := s.hl.nextTag
    let s' : State := { s with
      hl.recalls := s.hl.recalls ++ [{ line := line, tag := tag, at_ := s.tm.now, waits := w }]
      hl.nextTag := (tag + 1) % 4096 }
    (s'.emit (.recall line tag)).addCnt C.HL_CNT_RECALLS 1

/-- One part of a device write within a line: recalled first where the host holds the line (R353). -/
def State.devWriteLine (s : State) (a : Nat) (data : List Byte) : State :=
  if (s.held? (a / 64)).isSome || s.hl.recalls.any (fun r => r.line == a / 64)
  then s.recall (a / 64) [.bytes a data] else s.devPut a data

/-- A device write, line by line. -/
def State.devWrite (s : State) (a : Nat) (data : List Byte) : State :=
  (units64 a data.length).foldl
    (fun s u =>
      let lo := if u * 64 < a then a else u * 64
      let hi := if u * 64 + 64 < a + data.length then u * 64 + 64 else a + data.length
      s.devWriteLine lo ((data.drop (lo - a)).take (hi - lo))) s

/-- May the device read a range now: a line the host holds modified is recalled first (R353). -/
def State.readable (s : State) (a n : Nat) : Bool :=
  (units64 a n).all (fun u => match s.held? u with | some h => !h.modified | none => true)

/-- The recalls a device read of a range asks for. -/
def State.askLines (s : State) (a n : Nat) : State :=
  (units64 a n).foldl
    (fun s u => match s.held? u with | some h => if h.modified then s.recall u [] else s | none => s) s

end Sys2Proof.Machine
end

