-- ==== Sys2Proof/Machine/Flags.lean ====
section
/-! DEFINITION. The status and interrupt consequences shared by every engine: taking a global stop, trace records and
their trigger, and the delivery of an error to the collector. -/

namespace Sys2Proof.Machine

/-! ## Global stop -/

/-- STOP_STATUS.STATE. -/
def State.stopState (s : State) : Nat := s.fld F.STOP_STATUS.STATE

/-- Is work halted: from HALTED until the release has reached the domains (R517, R520). -/
def State.halted (s : State) : Bool := s.stopState = 2 || s.stopState = 3

/-- STOP_CFG.LEAD; values below 1,000 act as 1,000. -/
def State.stopLead (s : State) : Nat := Nat.max 1000 (s.fld F.STOP_CFG.LEAD)

/-- A trigger of the global stop (R516, R517): T, ARMED and the cause; a trigger outside RUNNING, or during a warm or
recovery reset, is ignored and sets REFUSED. -/
def State.takeStop (s : State) (cause : Nat) : State :=
  if s.stopState ≠ 0 ∨ s.rs.run.isSome then s.setFld F.STOP_STATUS.REFUSED 1
  else
    let s := ((s.setFld F.STOP_STATUS.STATE 1).setFld F.STOP_STATUS.CAUSE cause).setFld F.STOP_STATUS.REFUSED 0
    let s := (s.setFld F.STOP_STATUS.PARTIAL 0).setCnt C.STOP_TARGET (s.tm.now + s.stopLead)
    { s with st.trigger := s.tm.now, st.cut := s.tm.now + s.stopLead, st.halted := [], st.resumed := [] }

/-! ## Trace -/

/-- What a trace record is about (table "Trace record"). -/
structure TraceRec where
  type   : Nat
  flags  : Nat := 0
  source : Nat := 313
  ctx    : Nat := 0xFFFF
  q      : Nat := 0xFFFF
  seq    : Nat := 0
  arg0   : Nat := 0
  arg1   : Nat := 0
deriving DecidableEq, Repr

def TraceRec.bytes (t : TraceRec) (now : Nat) : List Byte :=
  toLE 8 now ++ toLE 1 t.type ++ toLE 1 t.flags ++ toLE 2 t.source ++ toLE 2 t.ctx ++ toLE 2 t.q ++ toLE 4 t.seq ++
    toLE 4 t.arg0 ++ toLE 8 t.arg1

/-- The buffer in bytes (granules of 2 MiB). -/
def State.traceSize (s : State) : Nat := s.fld F.TRC_COUNT.N * 2 ^ 21

/-- The device address of the buffer. -/
def State.traceBase (s : State) : Nat := s.fld F.TRC_BASE.BASE * 2 ^ 21

/-- The budget of a 10 µs window (R514): 0 acts as 1, above 30 as 30. -/
def State.traceBudget (s : State) : Nat := Nat.max 1 (Nat.min 30 (s.fld F.TRC_CFG.SHARE)) * 24576

/-- A trace record put into the buffer, past the trigger and the throttle. -/
def State.traceStore (s : State) (t : TraceRec) : State :=
  let wr := s.cnt C.TRC_WR
  if s.fld F.TRC_CFG.WRAP = 0 ∧ s.traceSize < wr + 32 then
    let s := if s.fld F.TRC_STATUS.FULL = 0 then (s.setFld F.TRC_STATUS.FULL 1).setInt F.TRC_INT_STATUS.FULL else s
    (s.addCnt C.TRC_CNT_DROPPED 1).setInt F.TRC_INT_STATUS.DROPPED
  else
    let a := s.traceBase + wr % (Nat.max 1 s.traceSize)
    let s := (s.devWrite a (t.bytes s.tm.now)).addCnt C.TRC_WR 32
    { s.addCnt C.TRC_CNT_RECORDS 1 with tr.used := s.tr.used + 32 }

/-- A record dropped by the throttle. -/
def State.traceDrop (s : State) : State :=
  let s := (s.addCnt C.TRC_CNT_DROPPED 1).setInt F.TRC_INT_STATUS.DROPPED
  { s with tr.dropped := s.tr.dropped + 1 }

/-- The trigger matches a record (R515). -/
def State.traceTriggers (s : State) (t : TraceRec) : Bool :=
  s.fld F.TRC_TRIG.TYPE ≠ 0 && s.fld F.TRC_TRIG.TYPE = t.type &&
    (t.type ≠ 0xC || s.fld F.TRC_TRIG.CODE = 0 || s.fld F.TRC_TRIG.CODE = t.arg0 % 2 ^ 16)

/-- The trigger's effect, tested before the throttle (R515). -/
def State.traceTrigger (s : State) (t : TraceRec) : State :=
  if s.traceTriggers t then
    let s := (s.setFld F.TRC_STATUS.TRIGGERED 1).setInt F.TRC_INT_STATUS.TRIGGER
    if s.fld F.TRC_TRIG.STOP = 1 then s.takeStop 4 else s
  else s

/-- The DROP record that the first record of a window follows, when a window before it dropped records (R514). -/
def State.traceOwed (s : State) : State :=
  if s.tr.used = 0 ∧ s.tr.owedDrop ≠ 0 then
    let s := s.traceStore { type := 0xD, arg0 := s.tr.owedWins, arg1 := s.tr.owedDrop }
    { s with tr.owedDrop := 0, tr.owedWins := 0 }
  else s

/-- A record within the budget of its window is stored, behind the DROP record that is owed; else it is dropped (R514). -/
def State.traceBudgeted (s : State) (t : TraceRec) : State :=
  let s := s.traceOwed
  if s.traceBudget < s.tr.used + 32 then s.traceDrop else s.traceStore t

/-- A trace event at this moment (R512 to R515). -/
def State.trace (s : State) (t : TraceRec) : State :=
  if s.fld F.TRC_CFG.ENABLE = 1 ∧ bit (s.fld F.TRC_TYPES.MASK) t.type then (s.traceTrigger t).traceBudgeted t else s

/-! ## Errors -/

/-- The overheat codes, from whose detection THERM_N is driven low (R509, R566). -/
def overheatCode (c : Nat) : Bool := c = 0x0903 || c = 0x2105 || c = 0x3004

/-- An error delivered to the collector (R504): TIME is the detection; detection while the stop is HALTED or CAPTURED
is AFTER_CUT (R508). -/
def State.raise (s : State) (code sev : Nat) (inst : Nat := 0) (unit : Nat := 0) (ctx : Nat := 0xFFFF)
    (q : Nat := 0xFFFF) (cmd : Nat := 0) (detail : Nat := 0) : State :=
  let e : ErrRec :=
    { time := s.tm.now, code := code, sev := sev, afterCut := s.halted, inst := inst, unit := unit, ctx := ctx, q := q,
      cmd := cmd, detail := detail }
  { s with er.collector := s.er.collector ++ [e], er.thermN := s.er.thermN && !overheatCode code }

/-- Is everything cool enough for a thermal hold to end: compute, port and control dies below 100 °C, stacks below 95 °C
and photonic dies below 80 °C (R509). -/
def State.cool (s : State) : Bool :=
  (s.pw.compute ++ s.pw.port ++ [s.pw.control]).all (fun b => decide (b.toNat < 100)) &&
    s.mm.hbm.all (fun e => decide (e.2.reading < 95)) && s.pw.photonic.all (fun b => decide (b.toNat < 80))

/-- In a thermal hold, when everything became cool. -/
def State.watchCool (s : State) : State :=
  if s.er.hold then
    { s with er.coolSince := if s.cool then some (s.er.coolSince.getD s.tm.now) else none }
  else s

/-- DETAIL of a memory error: device address bits [39:8]. -/
def memDetail (a : Nat) : Nat := a / 256 % 2 ^ 32

end Sys2Proof.Machine
end

