-- ==== Sys2Proof/Machine/Access.lean ====
section
/-! DEFINITION. What stands between a requester and a register: locks (R544), held accesses (R462, R519) and pages whose
blocks are not powered (R476). -/

namespace Sys2Proof.Machine

/-- A held boundary-shadowed value takes effect (R540, R541). -/
def State.applyField (s : State) (f : Field) (inst : Nat := 0) (bank : Nat := 0) : State :=
  match look 0 s.rg.held (fieldKey f inst bank) with
  | 0 => s
  | v + 1 =>
    let s := s.setFld f v inst bank
    { s with rg.held := put 0 s.rg.held (fieldKey f inst bank) 0 }

/-- PG_LOCK.HOLDER's code of a requester. -/
def requesterCode : Requester → Nat
  | .host => 1
  | .mgmt => 2
  | .firmware => 3

/-- A write by a requester that another one locks out (R544). -/
def State.lockedFor (s : State) (cls inst : Nat) (r : Requester) : Bool :=
  let h := s.fld (F.PG_LOCK.HOLDER cls) inst
  h ≠ 0 && h ≠ requesterCode r && r ≠ .firmware

/-- A locked-out write: LOCK_ABORT, and slot 10 (R537, R544). -/
def State.lockAbort (s : State) (cls inst : Nat) : State :=
  (s.setFld (F.PG_STATUS.LOCK_ABORT cls) 1 inst).addSlot cls inst 10 1

/-- The offset of a register in the register window (R528). -/
def regAddr (cls inst off : Nat) : Nat := cls * 0x100000 + inst * 0x1000 + off

/-- Is the block of a page powered: everything from ACTIVE on, the parts of minimal mode in minimal mode (R475, R476),
the control die's own pages while it starts. -/
def State.pagePowered (s : State) (cls inst : Nat) : Bool :=
  match s.tm.power with
  | .off => false
  | .minimal =>
    if cls = 0x10 ∨ cls = 0x11 ∨ cls = 0x22 then false
    else if cls = 0x20 then inst = 0
    else if cls = 0x21 then s.fld F.BOOT_STATUS.MIN_NO_HBM = 0 && inst = s.fld F.BOOT_STATUS.MIN_STACK
    else if cls = 0x30 then inst < 8
    else true
  | _ => true

/-- The pages whose accesses the debug path serves during a stop (R519). -/
def debugPage (cls : Nat) : Bool := cls = 0x40 || cls = 0x41 || cls = 0x43

/-- The requester of a held access. -/
def heldBy : HeldAccess → Requester
  | .pkt _ => .host
  | .read r _ _ => r
  | .write r _ _ _ _ => r

/-- Is a held action a register access. -/
def heldReg : HeldAccess → Bool
  | .pkt p => p.win = 1
  | _ => true

/-- Does an access of a page wait: for the end of a stop (R519; for every requester, log 26), for the end of the reset
that holds the page's clock, or behind an earlier one of the same requester (R462). -/
def State.accessWaits (s : State) (cls inst : Nat) (r : Requester) : Bool :=
  if s.stopState ≠ 0 then !debugPage cls
  else
    (match s.rs.run with
     | some x => (cls = 0x10 || cls = 0x11) && decide (x.at_ + 2000 ≤ s.tm.now)
     | none => false) ||
    (cls = 0x11 && s.rs.clusters.any (fun c => c.1 == inst && decide (c.2 + 100 ≤ s.tm.now))) ||
    s.st.held.any (fun h => heldReg h && heldBy h == r)

/-- A write of a register with an operation of its own: it waits, it is locked out, or it has its effect (R543, R544).
A write to a page without power is not served (R476). -/
def State.opWrite (s : State) (r : Requester) (cls inst off : Nat) (v : Nat) (op : State → State) : State :=
  if !s.pagePowered cls inst then s
  else if s.accessWaits cls inst r then
    { s with st.held := s.st.held ++ [.write r (regAddr cls inst off) 4 (BitVec.ofNat 64 v) false] }
  else
    let s := s.addCnt C.GL_CNT_REG_WRITES 1
    if s.lockedFor cls inst r then s.lockAbort cls inst else op s

end Sys2Proof.Machine
end

