-- ==== Sys2Proof/Machine/Num.lean ====
section
/-! DEFINITION. Numbers of the cores: the formats, exact values, and one rounding into a format (03_core.md,
"Number formats"; R85 to R91, R112, R113, R582). -/

namespace Sys2Proof.Machine

/-- An exact value: sign, magnitude man * 2^exp; an infinity; a NaN. -/
inductive Val where
  | fin (neg : Bool) (man : Nat) (exp : Int)
  | inf (neg : Bool)
  | nan
deriving DecidableEq, Repr

/-- A floating format: exponent and fraction widths, and whether it has infinities and NaNs. -/
structure Fmt where
  e    : Nat
  f    : Nat
  inf  : Bool := true
  nan  : Bool := true
deriving DecidableEq, Repr

def fp32 : Fmt := { e := 8, f := 23 }
def w40 : Fmt := { e := 8, f := 31 }
def bf16 : Fmt := { e := 8, f := 7 }
def fp16 : Fmt := { e := 5, f := 10 }
def e5m2 : Fmt := { e := 5, f := 2 }
/-- S.1111.111 is NaN, and there is no infinity (R87). -/
def e4m3 : Fmt := { e := 4, f := 3, inf := false }
def e2m1 : Fmt := { e := 2, f := 1, inf := false, nan := false }

def Fmt.bias (x : Fmt) : Nat := 2 ^ (x.e - 1) - 1
def Fmt.width (x : Fmt) : Nat := 1 + x.e + x.f

/-- The exponent of the unit of the subnormals. -/
def Fmt.minExp (x : Fmt) : Int := 1 - (x.bias : Int) - (x.f : Int)

/-- The magnitude bits of the largest finite value. -/
def Fmt.maxMag (x : Fmt) : Nat :=
  if x.inf then (2 ^ x.e - 1) * 2 ^ x.f - 1 else if x.nan then 2 ^ (x.e + x.f) - 2 else 2 ^ (x.e + x.f) - 1

/-- The exponent of the largest power of two of a format (the emax of the OCP specification). -/
def Fmt.emax (x : Fmt) : Int :=
  (if x.inf then (2 ^ x.e - 2 : Nat) else (2 ^ x.e - 1 : Nat)) - (x.bias : Int)

/-- The value of an encoding. -/
def Fmt.decode (x : Fmt) (n : Nat) : Val :=
  let neg := bit n (x.e + x.f)
  let mag := n % 2 ^ (x.e + x.f)
  let e := mag / 2 ^ x.f
  let m := mag % 2 ^ x.f
  if x.inf ∧ e = 2 ^ x.e - 1 then (if m = 0 then .inf neg else .nan)
  else if x.nan ∧ x.maxMag < mag then .nan
  else if e = 0 then .fin neg m x.minExp
  else .fin neg (m + 2 ^ x.f) ((e : Int) - 1 + x.minExp)

/-- An infinity of a format that has one. -/
def Fmt.infBits (x : Fmt) (neg : Bool) : Nat := b2n neg * 2 ^ (x.e + x.f) + (2 ^ x.e - 1) * 2 ^ x.f

def Fmt.signed (x : Fmt) (neg : Bool) (mag : Nat) : Nat := b2n neg * 2 ^ (x.e + x.f) + mag

/-- A NaN of a format, its pattern free; where the format has none, any value (log 18). -/
def Fmt.nanBits (x : Fmt) (key : Nat) : Nat :=
  let p := Config.nanPayload x.width key
  if x.inf then x.signed (bit p 0) ((2 ^ x.e - 1) * 2 ^ x.f + 1 + p / 2 % (2 ^ x.f - 1))
  else if x.nan then x.signed (bit p 0) (2 ^ (x.e + x.f) - 1)
  else p % 2 ^ x.width

/-- The canonical W40 NaN (R582). -/
def w40NaN : Nat := 0x7FC0000000

/-- How a value is rounded: to nearest even, toward zero, away from zero, or stochastically with 16 bits U (R113). -/
inductive Rnd where
  | rne | down | up | stoch (u : Nat)
deriving DecidableEq, Repr

/-- Is a magnitude q + rem / 2^d rounded away from zero. -/
def Rnd.away (r : Rnd) (q rem d : Nat) : Bool :=
  match r with
  | .rne => 2 ^ d < 2 * rem || (2 * rem = 2 ^ d && q % 2 = 1)
  | .down => false
  | .up => rem ≠ 0
  | .stoch u => 2 ^ 16 ≤ rem * 2 ^ 16 / 2 ^ d + u

/-- man * 2^exp as a whole number of units 2^unit, rounded. -/
def roundTo (r : Rnd) (man : Nat) (exp unit : Int) : Nat :=
  if unit ≤ exp then man * 2 ^ (exp - unit).toNat
  else
    let d := (unit - exp).toNat
    let q := man / 2 ^ d
    if r.away q (man % 2 ^ d) d then q + 1 else q

/-- The magnitude bits of man * 2^exp in a format of unbounded exponent, rounded once. -/
def Fmt.magOf (x : Fmt) (r : Rnd) (man : Nat) (exp : Int) : Nat :=
  if man = 0 then 0
  else
    let top := (Nat.log2 man : Int) + exp - (x.f : Int)
    let unit := if top < x.minExp then x.minExp else top
    let q := roundTo r man exp unit
    (unit - x.minExp).toNat * 2 ^ x.f + q

/-- The encoding of a value in a format, and whether a finite value overflowed it. With `sat` an overflow gives the
largest finite value; without, infinity, or NaN where the format has no infinity (R91, R112). An infinity overflows a
format that has none. -/
def Fmt.encode (x : Fmt) (r : Rnd) (sat : Bool) (key : Nat) (v : Val) : Nat × Bool :=
  match v with
  | .nan => (x.nanBits key, false)
  | .inf neg =>
    if x.inf then (x.infBits neg, false)
    else if sat then (x.signed neg x.maxMag, true) else (x.nanBits key, false)
  | .fin neg man exp =>
    let mag := x.magOf r man exp
    if x.maxMag < mag then
      (if sat then (x.signed neg x.maxMag, true)
       else if x.inf then (x.infBits neg, true) else (x.nanBits key, true))
    else (x.signed neg mag, false)

/-- A W40 result: one rounding to nearest even, the canonical NaN, R91 on overflow. The flag counts a saturation. -/
def toW40 (sat : Bool) (v : Val) : W40 × Bool :=
  match v with
  | .nan => (BitVec.ofNat 40 w40NaN, false)
  | v => let p := w40.encode .rne sat 0 v; (BitVec.ofNat 40 p.1, p.2 && sat)

def ofW40 (w : W40) : Val := w40.decode w.toNat
def ofF32 (w : Nat) : Val := fp32.decode w

/-- An FP32 result of IEEE 754 arithmetic to nearest even. -/
def toF32 (key : Nat) (v : Val) : Nat := (fp32.encode .rne false key v).1

/-! ## Exact arithmetic -/

def Val.neg : Val → Val
  | .fin n m e => .fin (!n) m e
  | .inf n => .inf (!n)
  | .nan => .nan

def Val.mul : Val → Val → Val
  | .nan, _ => .nan
  | _, .nan => .nan
  | .inf a, .inf b => .inf (a != b)
  | .inf a, .fin b m _ => if m = 0 then .nan else .inf (a != b)
  | .fin a m _, .inf b => if m = 0 then .nan else .inf (a != b)
  | .fin a m e, .fin b n f => .fin (a != b) (m * n) (e + f)

/-- A signed magnitude in units of 2^unit. -/
def intAt (neg : Bool) (man : Nat) (exp unit : Int) : Int :=
  let m : Int := (man * 2 ^ (exp - unit).toNat : Nat)
  if neg then -m else m

def Val.add : Val → Val → Val
  | .nan, _ => .nan
  | _, .nan => .nan
  | .inf a, .inf b => if a = b then .inf a else .nan
  | .inf a, .fin .. => .inf a
  | .fin .., .inf b => .inf b
  | .fin a m e, .fin b n f =>
    let u := if e < f then e else f
    let t := intAt a m e u + intAt b n f u
    .fin (if t = 0 then a && b && m = 0 && n = 0 else decide (t < 0)) t.natAbs u

/-- A value times a power of two. -/
def Val.scale (k : Int) : Val → Val
  | .fin n m e => .fin n m (e + k)
  | v => v

/-- An E8M0 scale: 0xFF is NaN (R86). -/
def e8m0 (b : Nat) : Val := if b = 0xFF then .nan else .fin false 1 ((b : Int) - 127)

/-- A two's complement number. -/
def ofInt (width n : Nat) : Val :=
  if bit n (width - 1) then .fin true (2 ^ width - n % 2 ^ width) 0 else .fin false (n % 2 ^ width) 0

def Val.isNan : Val → Bool
  | .nan => true
  | _ => false

def Val.isZero : Val → Bool
  | .fin _ m _ => m = 0
  | _ => false

/-- The order of two values that are not NaN. -/
def Val.lt : Val → Val → Bool
  | .nan, _ => false
  | _, .nan => false
  | .inf a, .inf b => a && !b
  | .inf a, .fin .. => a
  | .fin .., .inf b => !b
  | .fin a m e, .fin b n f =>
    let u := if e < f then e else f
    decide (intAt a m e u < intAt b n f u)

/-- num / den * 2^exp as a value that rounds as the exact quotient does: a quotient of 64 bits more, and a sticky bit. -/
def quot (neg : Bool) (num den : Nat) (exp : Int) : Val :=
  let k := 64 + Nat.log2 den
  let q := num * 2 ^ k / den
  .fin neg (2 * q + b2n (num * 2 ^ k % den ≠ 0)) (exp - (k : Int) - 1)

/-- The square root of man * 2^exp, with a sticky bit. -/
def rootOf (man : Nat) (exp : Int) : Val :=
  let odd : Nat := if exp % 2 = 0 then 0 else 1
  let m := man * 2 ^ (128 + odd)
  let r := Nat.sqrt m
  .fin false (2 * r + b2n (r * r ≠ m)) ((exp - (odd : Int) - 128) / 2 - 1)

/-! ## FP32 as the engines outside the cores use it -/

def f32add (a b : Nat) : Nat := toF32 (a + 2 ^ 32 * b) ((ofF32 a).add (ofF32 b))
def negF32 (x : Nat) : Nat := Nat.xor x (2 ^ 31)
def f32sub (a b : Nat) : Nat := f32add a (negF32 b)
def f32mul (a b : Nat) : Nat := toF32 (a + 2 ^ 32 * b) ((ofF32 a).mul (ofF32 b))
def f32fma (a b c : Nat) : Nat := toF32 (a + 2 ^ 32 * b + 2 ^ 64 * c) (((ofF32 a).mul (ofF32 b)).add (ofF32 c))

end Sys2Proof.Machine
end

