-- ==== Sys2Proof/Machine/Funcs.lean ====
section
/-! DEFINITION. The vector functions within the accuracy the table "Vector function accuracy" states (03_core.md R118):
the value an implementation gives is free inside the stated bound (log 9). The exact function is evaluated in fixed
point with 128 fraction bits, far below the bound. -/

namespace Sys2Proof.Machine

/-- One in the fixed point of this file. -/
def fxOne : Nat := 2 ^ 128

/-- ln 2 and 2 pi in units of 2^-128. -/
def fxLn2 : Nat := 235865763225513294137944142764154484399
def fxTwoPi : Nat := 2138057168129933495719360746323741566601

/-- Sum of the series whose term k + 1 is term k times z, divided by `d k`: n more terms after `t`. -/
def fxSeries (d : Nat → Int) (z : Int) : (n k : Nat) → (t : Int) → Int
  | 0, _, t => t
  | n + 1, k, t => t + fxSeries d z n (k + 1) (t * z / (fxOne * d k))

/-- e^r of a fixed-point r in [0, 1). -/
def fxExp (r : Nat) : Nat := (fxSeries (fun k => (k : Int) + 1) r 40 0 fxOne).toNat

/-- ln m of a fixed-point m in [1, 2): twice the inverse hyperbolic tangent of z = (m - 1) / (m + 1). -/
def fxLn (m : Nat) : Nat :=
  let z := (m - fxOne) * fxOne / (m + fxOne)
  let zz := z * z / fxOne
  2 * ((List.range 44).foldl (fun (p : Nat × Nat) k => (p.1 + p.2 / (2 * k + 1), p.2 * zz / fxOne)) (0, z)).1

/-- sin (2 pi f) of a fixed-point f in [0, 1), by the series about the nearest of 0, 1/2 and 1. -/
def fxSin (f : Nat) : Int :=
  let h := fxOne / 2
  let q := fxOne / 4
  let p : Int × Bool := if f < q then (f, false) else if f < 3 * q then ((f : Int) - h, true) else ((f : Int) - fxOne, false)
  let x := p.1 * fxTwoPi / fxOne
  let v := fxSeries (fun k => -(((2 * k + 2) * (2 * k + 3) : Nat) : Int)) (x * x / fxOne) 24 0 x
  if p.2 then -v else v

/-- A finite value as a signed fixed-point number with `k` fraction bits, rounded down. -/
def fxOf (k : Nat) (neg : Bool) (man : Nat) (exp : Int) : Int :=
  let e := exp + k
  let x : Int := if 0 ≤ e then (man * 2 ^ e.toNat : Nat) else if neg then -(ceilDiv man (2 ^ (-e).toNat) : Int)
    else (man / 2 ^ (-e).toNat : Nat)
  if neg ∧ 0 ≤ e then -x else x

/-- e^x for |x| below 200. -/
def expVal (neg : Bool) (man : Nat) (exp : Int) : Val :=
  let x := fxOf 128 neg man exp
  .fin false (fxExp (x % fxLn2).toNat) (x / fxLn2 - 128)

/-- 2^x for |x| below 200. -/
def exp2Val (neg : Bool) (man : Nat) (exp : Int) : Val :=
  let x := fxOf 128 neg man exp
  .fin false (fxExp ((x % fxOne).toNat * fxLn2 / fxOne)) (x / fxOne - 128)

/-- A signed fixed-point number as a value. -/
def fxVal (x : Int) (k : Nat) : Val := .fin (decide (x < 0)) x.natAbs (-(k : Int))

/-- ln of man * 2^exp, man not 0, as a signed fixed-point number. -/
def lnFx (man : Nat) (exp : Int) : Int :=
  let n := Nat.log2 man
  (exp + n) * fxLn2 + fxLn (man * fxOne / 2 ^ n)

def lnVal (man : Nat) (exp : Int) : Val := fxVal (lnFx man exp) 128

def log2Val (man : Nat) (exp : Int) : Val :=
  if man = 2 ^ Nat.log2 man then fxVal (exp + Nat.log2 man) 0 else fxVal (lnFx man exp * fxOne / fxLn2) 128

/-- sin or cos of 2 pi x. -/
def sinVal (cosine neg : Bool) (man : Nat) (exp : Int) : Val :=
  let x := fxOf 128 neg man exp + (if cosine then fxOne / 4 else 0)
  fxVal (fxSin (x % fxOne).toNat) 128

/-- num / den with 128 bits more than den. -/
def ratio (neg : Bool) (num den : Nat) (exp : Int) : Val :=
  let k := 128 + Nat.log2 den
  .fin neg (num * 2 ^ k / den) (exp - k)

/-- tanh: x - x^3/3 below 2^-13, 1 - 2^-40 from 16 on, else (t - 1) / (t + 1) with t = e^2x. -/
def tanhVal (neg : Bool) (man : Nat) (exp : Int) : Val :=
  let a := fxOf 20 false man exp
  if a < 2 ^ 7 then
    let e := (-exp).toNat
    ratio neg (man * (3 * 2 ^ (2 * e) - man * man)) (3 * 2 ^ (2 * e)) exp
  else if 2 ^ 24 ≤ a then .fin neg (2 ^ 40 - 1) (-40)
  else match expVal false (2 * man) exp with
    | .fin _ m e =>
      let one := 2 ^ 128
      let t := m * 2 ^ (e + 128).toNat
      ratio neg (t - one) (t + one) 0
    | v => v

/-- 1 / (1 + e^-x): e^x / (1 + e^x) for a negative x; below -110 it is under half the least value of FP32. -/
def sigmoidVal (neg : Bool) (man : Nat) (exp : Int) : Val :=
  let a := fxOf 20 false man exp
  if 110 * 2 ^ 20 ≤ a then (if neg then .fin false 0 0 else .fin false (2 ^ 40 - 1) (-40))
  else match expVal true man exp with
    | .fin _ m e =>
      let d := 2 ^ (-e).toNat
      if neg then ratio false m (d + m) 0 else ratio false d (d + m) 0
    | v => v

/-- Is an FP32 number: not an infinity, not a NaN. -/
def f32Finite (n : Nat) : Bool := decide (n % 2 ^ 31 < 0x7F800000)

/-- Is an FP32 number within k units in the last place of a value that is not 0. The value is computed with an error far
below 2^-40 of a unit, which the comparison allows for. -/
def withinUlp (k y : Nat) (v : Val) : Bool :=
  match v, (ofF32 y).add v.neg with
  | .fin _ m e, .fin _ d f =>
    let unit : Int := (Nat.log2 m : Int) + e - 23
    let w : Int := (if unit < -149 then -149 else unit) - 40
    f32Finite y && m ≠ 0 &&
      (if w ≤ f then decide (d * 2 ^ (f - w).toNat ≤ k * 2 ^ 40 + 1)
       else decide (d ≤ (k * 2 ^ 40 + 1) * 2 ^ (w - f).toNat))
  | _, _ => false

/-- The value `y` where it is within k units in the last place of `v`, else the nearest to `v`, infinity beyond the
largest. -/
def nearUlp (k y : Nat) (v : Val) : Nat := if withinUlp k y v then y else toF32 0 v

/-- The value `y` where it is within 2^-23 of `v`, else the nearest to `v`. -/
def nearAbs (y : Nat) (v : Val) : Nat :=
  match (ofF32 y).add v.neg with
  | .fin _ m e => if m * 2 ^ (e + 200).toNat ≤ 2 ^ 177 + 2 ^ 120 then y else (fp32.encode .rne true 0 v).1
  | _ => (fp32.encode .rne true 0 v).1

/-- Is a value's magnitude below the least normal FP32 number. -/
def belowNormal (v : Val) : Bool := decide ((fp32.encode .down true 0 v).1 % 2 ^ 31 < 0x00800000)

/-- A free function of a code at an input (log 9). -/
def vFree (fn a : Nat) : Nat := (Config.vecFn fn (BitVec.ofNat 32 a)).toNat

/-- EXP (1) and EXP2 (3): 2 ulp where the result is normal; outside, the function's special values: infinity from `top`
on, and +0 below the normal range (DEDUCED; log 9). -/
def vExp (fn top a : Nat) : Nat :=
  match ofF32 a with
  | .nan => fp32.nanBits a
  | .inf n => if n then 0 else a
  | .fin n m e =>
    if !n && top ≤ a then fp32.infBits false
    else if 200 * 2 ^ 20 ≤ fxOf 20 false m e then 0
    else
      let v := if fn = 1 then expVal n m e else exp2Val n m e
      if belowNormal v then 0 else nearUlp 2 (vFree fn a) v

/-- LN (2) and LOG2 (4): 2 ulp for x > 0. -/
def vLog (fn a : Nat) : Nat :=
  match ofF32 a with
  | .nan => fp32.nanBits a
  | .inf n => if n then fp32.nanBits a else a
  | .fin n m e =>
    if m = 0 then fp32.infBits true
    else if n then fp32.nanBits a
    else nearUlp 2 (vFree fn a) (if fn = 2 then lnVal m e else log2Val m e)

/-- SIN2PI (5) and COS2PI (6): an absolute error of 2^-23 for |x| at most 2^22; NaN of an infinity. A larger FP32 number
is a multiple of 1/2, where the function has its special values: a zero of x's sign (IEEE 754's sinPi), 1 or -1 (log 9). -/
def vTrig (fn a : Nat) : Nat :=
  match ofF32 a with
  | .nan => fp32.nanBits a
  | .inf _ => fp32.nanBits a
  | .fin n m e =>
    if 0x4A800000 < a % 2 ^ 31 then
      (if fn = 5 then fp32.signed n 0 else if e < 0 ∧ m % 2 = 1 then 0xBF800000 else 0x3F800000)
    else nearAbs (vFree fn a) (sinVal (fn = 6) n m e)

/-- TANH: 3 ulp for every finite input. -/
def vTanh (a : Nat) : Nat :=
  match ofF32 a with
  | .nan => fp32.nanBits a
  | .inf n => fp32.signed n 0x3F800000
  | .fin n m e => nearUlp 3 (vFree 7 a) (tanhVal n m e)

/-- SIGMOID: 3 ulp for every finite input. -/
def vSigmoid (a : Nat) : Nat :=
  match ofF32 a with
  | .nan => fp32.nanBits a
  | .inf n => if n then 0 else 0x3F800000
  | .fin n m e => nearUlp 3 (vFree 8 a) (sigmoidVal n m e)

/-- RCP (9): 1 ulp for every finite input that is not zero. -/
def vRcp (a : Nat) : Nat :=
  match ofF32 a with
  | .nan => fp32.nanBits a
  | .inf n => fp32.signed n 0
  | .fin n m e => if m = 0 then fp32.infBits n else nearUlp 1 (vFree 9 a) (quot n 1 m (-e))

/-- RSQRT (10): 1 ulp for every finite input above zero. -/
def vRsqrt (a : Nat) : Nat :=
  match ofF32 a with
  | .nan => fp32.nanBits a
  | .inf n => if n then fp32.nanBits a else 0
  | .fin n m e =>
    if m = 0 then fp32.infBits n
    else if n then fp32.nanBits a
    else match rootOf m e with
      | .fin _ r f => nearUlp 1 (vFree 10 a) (quot false 1 r (-f))
      | _ => vFree 10 a

/-! ## The KL-5 compatibility functions (R139) -/

/-- ln (1 + e^x): e^x and two further terms of its series below -16, x itself from 100 on. -/
def softplusVal (neg : Bool) (man : Nat) (exp : Int) : Val :=
  let a := fxOf 20 false man exp
  if !neg && decide (100 * 2 ^ 20 ≤ a) then .fin false man exp
  else if neg && decide (200 * 2 ^ 20 ≤ a) then .fin false 0 0
  else match expVal neg man exp with
    | .fin _ m e =>
      if neg && decide (16 * 2 ^ 20 ≤ a) then
        let t : Val := .fin false m e
        let tt := (t.mul t).scale (-1)
        (t.add tt.neg).add (((t.mul t).mul t).mul (quot false 1 3 0))
      else
        let u : Int := if e < -128 then e else -128
        fxVal (lnFx (2 ^ (-u).toNat + m * 2 ^ (e - u).toNat) u) 128
    | v => v

/-- sqrt (2 / pi) * 2 and 0.044715 of it, in units of 2^-128: the constants of the tanh form of GELU, twice over, since
(1 + tanh u) / 2 = sigmoid (2 u) (PRESUMED; log 9). -/
def fxGelu1 : Nat := 543012093759344928650364028703141847807
def fxGelu3 : Nat := 44715 * fxGelu1 / 1000000

/-- GELU's tanh form: x * sigmoid (2 u). -/
def geluVal (neg : Bool) (man : Nat) (exp : Int) : Val :=
  let x : Val := .fin neg man exp
  let u := ((x.mul (.fin false fxGelu1 (-128))).add (((x.mul x).mul x).mul (.fin false fxGelu3 (-128))))
  match u with
  | .fin n m e => (sigmoidVal n m e).mul x
  | v => v

/-- The exact function of a FUNC code at a finite value (table "Compatibility functions"). -/
def compatVal (func : Nat) (neg : Bool) (man : Nat) (exp : Int) : Val :=
  match func with
  | 0 => sigmoidVal neg man exp
  | 1 => tanhVal neg man exp
  | 2 => (sigmoidVal neg man exp).mul (.fin neg man exp)
  | 3 => geluVal neg man exp
  | 4 => softplusVal neg man exp
  | 5 => if 200 * 2 ^ 20 ≤ fxOf 20 false man exp then (if neg then .fin false 0 0 else .inf false) else expVal neg man exp
  | 6 => if neg then .fin false 0 0 else .fin false man exp
  | _ => (softplusVal (!neg) man exp).neg

/-- A compatibility function at an FP32 input: within 1 ulp wherever the exact result is a normal number; elsewhere, and
for an infinity or a NaN, the KL-5's bits, which the spec does not state, are free (R139; log 9). -/
def compatEval (func x : Nat) : Nat :=
  let y := (Config.compatFn func (BitVec.ofNat 32 x)).toNat
  match ofF32 x with
  | .fin n m e =>
    (match compatVal func n m e with
     | .fin vn vm ve =>
       if belowNormal (.fin vn vm ve) || (fp32.encode .down false 0 (.fin vn vm ve)).2 then y
       else nearUlp 1 y (.fin vn vm ve)
     | _ => y)
  | _ => y

end Sys2Proof.Machine
end

