-- ==== Sys2Proof/Machine/Operands.lean ====
section
/-! DEFINITION. The fields of configuration words, what a word reads and writes, and which word of a core's queue may
start (03_core.md; R83, R96, R98, R100, R143, R144). -/

namespace Sys2Proof.Machine

/-- Bits [hi:lo] of a 64-bit configuration word. -/
def wf (w : W64) (hi lo : Nat) : Nat := bits w.toNat hi lo

/-- KIND of a word (table "Configuration word kinds"). -/
def CoreWord.kind : CoreWord → Nat
  | .bits w => wf w 63 60
  | .vec _ => 4
  | .save40 .. => 6
  | .restore40 .. => 7

/-- Bytes of 16 elements per row, 8-bit class 16, 4-bit class two per byte over 32 elements, 16-bit class 8 elements:
16 bytes in every class (R93). -/
def rowBytes : Nat := 16

/-- Is the format in the 4-bit, 16-bit class (table "Array formats"). -/
def class4 (fmt : Nat) : Bool := fmt = 0 || fmt = 1
def class16 (fmt : Nat) : Bool := fmt = 5 || fmt = 6

/-- The ranges of `n` rows of `len` bytes. -/
def rows (a stride len n : Nat) : List (Nat × Nat) := (List.range n).map (fun i => (a + i * stride, len))

/-- The wells of a 24-bit mask, ascending. -/
def wellsOf (mask : Nat) : List Nat := (List.range 24).filter (bit mask)

/-- Bytes of an element of a CVT format code: 0 FP32, 1 BF16, 2 E4M3, 3 E5M2, 4 E2M1, 5 FP16, 6 W40, 7 INT32 (log 8).
E2M1 packs two per byte. -/
def fmtBytes (fmt n : Nat) : Nat :=
  match fmt with
  | 0 => 4 * n | 1 => 2 * n | 2 => n | 3 => n | 4 => (n + 1) / 2 | 5 => 2 * n | 6 => 5 * n | _ => 4 * n

/-- What a word reads and writes: well masks, ranges of the core store, and whether it bars every other word. -/
structure Foot where
  wr  : Nat := 0
  ww  : Nat := 0
  sr  : List (Nat × Nat) := []
  sw  : List (Nat × Nat) := []
  bar : Bool := false
deriving DecidableEq, Repr

/-- Does the drain read the pair SRC, SRC + 1. -/
def drainMask (w : W64) : Nat := if wf w 49 48 = 1 then 3 * 2 ^ wf w 59 55 else 2 ^ wf w 59 55

/-- Bytes of one output row of a DRAIN. -/
def drainRow (w : W64) : Nat := fmtBytes (wf w 54 51) (if wf w 49 48 = 1 then 32 else 16)

/-- Bytes of an element of operand `i` of FMA40 or LSCAN40: W40 where its bit of the word is set, else FP32 (R152). -/
def VecWord.mixedBytes (v : VecWord) (i : Nat) : Nat := if bit v.fmtA i then 5 else 4

/-- Footprint of a vector operation (log 8 for the operand fields). -/
def vecFoot (v : VecWord) : Foot :=
  let n := 32 * v.len
  let a := v.a * 32
  let b := v.b * 32
  let c := v.c * 32
  let d := v.d * 32
  match v.op with
  | .fma => { sr := [(a, 4 * n), (b, 4 * n), (c, 4 * n)], sw := [(d, 4 * n)] }
  | .select => { sr := [(a, 4 * n), (b, 4 * n), (c, 4 * n)], sw := [(d, 4 * n)] }
  | .add | .mul | .max | .min | .cmp => { sr := [(a, 4 * n), (b, 4 * n)], sw := [(d, 4 * n)] }
  | .add40 => { sr := [(a, 5 * n), (b, 5 * n)], sw := [(d, 5 * n)] }
  | .add40w => { wr := 2 ^ (v.d % 32), ww := 2 ^ (v.d % 32), sr := [(a, 1280)] }
  | .cvt => { sr := [(a, fmtBytes v.fmtA n)], sw := [(d, fmtBytes v.fmtD n)] }
  | .exp | .ln | .exp2 | .log2 | .sin2pi | .cos2pi | .tanh | .sigmoid | .sqrt | .rcp | .rsqrt =>
    { sr := [(a, 4 * n)], sw := [(d, 4 * n)] }
  | .sum | .rmax | .rmin => { sr := [(a, 4 * n)], sw := [(d, 4)] }
  | .topk => { sr := [(a, 4 * n)], sw := [(d, 8 * v.aux)] }
  | .splitmix => { sr := [(a, 4 * n)], sw := [(a, 4 * n), (d, 4 * n)] }
  | .gate40w =>
    { wr := 2 ^ (v.d % 32), ww := 2 ^ (v.d % 32), sr := [(a, 1024), (b, 1024), (c, 1280)] }
  | .fma40 => { sr := [(a, v.mixedBytes 0 * n), (b, v.mixedBytes 1 * n), (c, v.mixedBytes 2 * n)], sw := [(d, 5 * n)] }
  | .lscan40 =>
    let l := 2 ^ (v.aux % 16)
    { sr := [(a, 16 * v.mixedBytes 0 * l), (b, 16 * v.mixedBytes 1 * l), (c, 160 + ceilDiv l 8)]
      sw := [(d, 160 + (if bit v.aux 4 then 80 else 160) * l)] }

/-- The bytes of the stationary rows a LOAD_STAT reads: in the 16-bit class the eight half rows of its quarter (table
"LOAD_STAT word"; log 23). -/
def statRows (w : W64) : List (Nat × Nat) :=
  let a := wf w 59 48 * 32
  let st := wf w 47 40 * 16
  let q := wf w 34 33
  if class16 (wf w 39 36) then rows (a + 8 * (q / 2) * st + 16 * (q % 2)) st 16 8 else rows a st rowBytes 16

/-- Footprint of a word. -/
def CoreWord.foot : CoreWord → Foot
  | .vec v => vecFoot v
  | .save40 m a => { wr := m.toNat, sw := [(a * 32, 1280 * (wellsOf m.toNat).length)] }
  | .restore40 m a => { ww := m.toNat, sr := [(a * 32, 1280 * (wellsOf m.toNat).length)] }
  | .bits w =>
    match wf w 63 60 with
    | 1 =>
      { wr := if wf w 54 54 = 1 then 2 ^ wf w 59 55 else 0
        ww := 2 ^ wf w 59 55
        sr := rows (wf w 41 30 * 32) (wf w 29 22 * 16) rowBytes 16 ++
          (if wf w 42 42 = 1 then [(wf w 21 10 * 32, 16)] else []) }
    | 2 =>
      { sr := statRows w ++
          (if wf w 35 35 = 1 then [(wf w 32 21 * 32, 16)] else []) }
    | 3 =>
      let base := wf w 41 30 * 32
      let st := wf w 29 22 * 16
      { wr := drainMask w
        sr := (if wf w 43 42 ≠ 0 then [(wf w 21 10 * 32, 64)] else []) ++
          (if wf w 49 48 = 2 then [(wf w 21 10 * 32, 16)] else [])
        sw := rows base st (drainRow w) 16 ++ (if wf w 49 48 = 1 then [(base + 16 * st, 16)] else []) }
    | 5 =>
      let loc := wf w 55 44 * 32
      match wf w 59 58 with
      | 0 => { sw := [(loc, 64 * wf w 27 16)] }
      | 1 => { sr := [(loc, 64 * wf w 27 16)] }
      | _ => { sr := [(loc, 16)], sw := [(loc, 8)] }
    | _ => { bar := true }

/-- Do two lists of ranges share a byte. -/
def overlap (a b : List (Nat × Nat)) : Bool :=
  a.any (fun x => b.any (fun y => decide (x.1 < y.1 + y.2) && decide (y.1 < x.1 + x.2)))

/-- An ARRAY word with SWAP; a LOAD_STAT (R96). -/
def CoreWord.swaps : CoreWord → Bool
  | .bits w => wf w 63 60 = 1 && wf w 51 51 = 1
  | _ => false

/-- A MOVE WRITE that carries an advance (R233). -/
def CoreWord.advances : CoreWord → Bool
  | .bits w => wf w 63 60 = 5 && wf w 59 58 = 1 && wf w 10 10 = 1
  | _ => false

/-- Footprint of a queued word: that of its bits, the moving rows of a convolution's ARRAY word where the tap walker put
them (R210). -/
def QWord.foot (q : QWord) : Foot :=
  match q.rows with
  | [] => q.w.foot
  | l => { q.w.foot with sr := l.map (fun a => (a, rowBytes)) ++ q.w.foot.sr.drop 16 }

/-- Must word `w` wait for the earlier word `e` of its queue: they share a well or a store byte that one of them
writes; SWAP against LOAD_STAT (R96); the transfer engine (R144); WAIT, YIELD and END hold every later word and wait for
every earlier one; a word with an advance waits for every earlier one, the rows it covers being theirs (R233). -/
def QWord.waitsFor (w e : QWord) : Bool :=
  let f := w.foot
  let g := e.foot
  let x (k : Nat) : Bool := k = 5 || k = 6 || k = 7
  f.bar || g.bar || w.w.advances ||
    Nat.land g.ww (Nat.lor f.wr f.ww) ≠ 0 || Nat.land g.wr f.ww ≠ 0 ||
    overlap g.sw (f.sr ++ f.sw) || overlap g.sr f.sw ||
    (w.w.swaps && e.w.kind = 2) || (w.w.kind = 2 && e.w.swaps) ||
    (x w.w.kind && x e.w.kind) || w.w.kind = e.w.kind

/-- The oldest word of a kind that may start, with the queue without it (R83). -/
def takeWord (kind : Nat) (before : List QWord) : List QWord → Option (QWord × List QWord)
  | [] => none
  | w :: r =>
    if w.w.kind = kind then
      (if before.any w.waitsFor then none else some (w, before ++ r))
    else takeWord kind (before ++ [w]) r

/-! ## A core and its registers -/

def State.coreFld (s : State) (f : Field) (c : Nat) : Nat := s.fld (f.core (c % 40)) (c / 40)
def State.setCoreFld (s : State) (f : Field) (c v : Nat) : State := s.setFld (f.core (c % 40)) v (c / 40)
def State.addCoreCnt (s : State) (x : Cnt) (c n : Nat) : State :=
  s.addCnt { x with off := x.off + 64 * (c % 40) } n (c / 40)

/-- Is a clock domain halted by the global stop (R517, R520). -/
def State.domHalted (s : State) (d : Nat) : Bool := s.st.halted.any (fun h => h.1 == d) && !s.st.resumed.contains d

/-- Do the engines of a domain run: the device is ACTIVE and the domain is not halted. -/
def State.runs (s : State) (d : Nat) : Bool := s.tm.power = .active && !s.domHalted d

/-- May a core start words: its cluster runs, is not removed and is in no droop slot (R451), and the core has no fault
(R125), is not OFFLINE or under test, waits for nothing (R274), saves nothing (R425), and no fetch for it is under way
(R260). -/
def State.coreRuns (s : State) (c : Nat) : Bool :=
  let k := s.core c
  s.runs (c / 40) && !(s.cluster (c / 40)).removed && (s.cluster (c / 40)).droopUntil.isNone &&
    !k.out && s.coreFld F.CORE_STATUS.OFFLINE c = 0 &&
    s.coreFld F.CORE_STATUS.TESTING c = 0 && k.waiting.isNone && k.saving.isNone &&
    s.mm.hbm.all (fun e => e.2.reads.all (fun r => r.core ≠ c))

/-- The word queue filled to its 32 entries from the words issued next (R83, R258). -/
def Core.refill (k : Core) (q : List QWord) : Core :=
  let n := 32 - q.length
  { k with queue := q ++ k.issue.take n, issue := k.issue.drop n }

def total (l : List (Nat × Nat)) : Nat := l.foldl (fun n r => n + r.2) 0

/-- Has the arrival tag that a word names arrived (R146); a word that names none waits for none. -/
def Core.tagHere (k : Core) (q : QWord) : Bool := match q.tag with | some t => bit k.tags t | none => true

/-- The tags left once a word that names one has started: the word takes its arrival (DEDUCED; log 8). -/
def Core.tagsAfter (k : Core) (q : QWord) : Nat :=
  match q.tag with
  | some t => if bit k.tags t then k.tags - 2 ^ t else k.tags
  | none => k.tags

/-- Have the fills that a word reads been issued, and the outputs that earlier fills left in the buffers it writes been
stored (R260). -/
def Core.fillsHere (k : Core) (q : QWord) : Bool :=
  match k.place with
  | some p => q.fill.all (fun f => !p.due.contains f) &&
      q.outs.all (fun f => p.outs.all (fun g => !(g.1 == f.1 && decide (g.2 + f.2.2 ≤ f.2.1))))
  | none => true

/-- Are the items whose accumulations a word sums complete (R242). Those that the core itself is still to take come after it
under R241 and are not waited for (DESIGN CHOICE: the two rules are silent on them; log 121). -/
def State.matesDone (s : State) (c : Nat) (q : QWord) : Bool :=
  match q.after, (s.core c).place with
  | 0, _ => true
  | m, some p => (match (s.cluster (c / 40)).layers.find? (fun l => l.q == p.q && l.seq == p.seq && l.layer == p.layer) with
    | some sl => (match sl.job with
      | some j =>
        let mine := (sl.deal.filter (fun d => d.2 = sl.cores.findIdx? (· == c))).map (·.1)
        (List.range 64).all (fun i => !bit m i || !bit j.mask i || bit j.done i || mine.contains i)
      | none => true)
    | none => true)
  | _, none => true

/-- The oldest word of a kind starts and runs, when it is of the operation asked for, the tag it names has arrived, its
operands' fills have been issued and the items it sums are complete: its bytes are counted at point A (R511), words issued
to the queue are counted, and the effect follows. Nothing happens otherwise (log 21). -/
def State.runWord (s : State) (c kind : Nat) (sel : CoreWord → Bool) (eff : State → QWord → State) : State :=
  if s.coreRuns c then
    match takeWord kind [] (s.core c).queue with
    | some (w, rest) =>
      if sel w.w && (s.core c).tagHere w && (s.core c).fillsHere w && s.matesDone c w then
        let k := s.core c
        let k' := k.refill rest
        let s := s.setCore c { k' with written := Nat.lor k'.written w.foot.ww, tags := k.tagsAfter w }
        let s := (s.addSlot 0x11 (c / 40) 0 (total w.foot.sr)).addSlot 0x11 (c / 40) 1 (total w.foot.sw)
        eff (s.addCnt C.SEQ_CNT_WORDS (k.issue.length - k'.issue.length) (c / 40)) w
      else s
    | none => s
  else s

/-! ## Wells and stores of a core -/

def wellKey (w r col : Nat) : Nat := w * 256 + r * 16 + col

def Core.well (k : Core) (w r col : Nat) : W40 := look 0 k.wells (wellKey w r col)

def Core.setWell (k : Core) (w r col : Nat) (v : W40) : Core := { k with wells := put 0 k.wells (wellKey w r col) v }

/-- Every (row, column) of a tile, in row order. -/
def cells16 : List (Nat × Nat) := (List.range 16).flatMap (fun r => (List.range 16).map (fun c => (r, c)))

/-- A well's SAVE40 image: element (r, c) at byte (r * 16 + c) * 5 (R102). -/
def Core.image (k : Core) (w : Nat) : List Byte := cells16.flatMap (fun p => toLE 5 (k.well w p.1 p.2).toNat)

/-- A well loaded from an image. -/
def Core.loadWell (k : Core) (w a : Nat) : Core :=
  cells16.foldl
    (fun k p => k.setWell w p.1 p.2 (BitVec.ofNat 40 (leNat (rdBytes k.store (a + (p.1 * 16 + p.2) * 5) 5)))) k

/-- FP32, W40 values in a core store. -/
def Core.f32 (k : Core) (a : Nat) : Nat := leNat (rdBytes k.store a 4)
def Core.w40 (k : Core) (a : Nat) : W40 := BitVec.ofNat 40 (leNat (rdBytes k.store a 5))

/-- An element of a packed row of nibbles, low nibble first (R315's order; log 22). -/
def nibble (m : Mem) (a i : Nat) : Nat := bits (rdByte m (a + i / 2)).toNat (4 * (i % 2) + 3) (4 * (i % 2))

/-- Nibbles packed two per byte, low nibble first. -/
def packNib : List Nat → List Byte
  | [] => []
  | [a] => [BitVec.ofNat 8 a]
  | a :: b :: r => BitVec.ofNat 8 (a + 16 * b) :: packNib r

end Sys2Proof.Machine
end

