-- ==== Sys2Proof/Machine/Words.lean ====
section
/-! DEFINITION. The configuration words of the array, the element stage and the transfer engine (03_core.md,
04_recurrence.md, 08_memory.md "The cluster store" and "Atomics"). -/

namespace Sys2Proof.Machine

/-! ## Array -/

/-- The value of an array element of a format (table "Array formats", R87). -/
def arrayVal (fmt raw : Nat) : Val :=
  match fmt with
  | 0 => e2m1.decode raw
  | 1 => ofInt 4 raw
  | 2 => e4m3.decode raw
  | 3 => e5m2.decode raw
  | 4 => ofInt 8 raw
  | 5 => bf16.decode raw
  | _ => fp16.decode raw

/-- An element under an MX scale: that scale, and for INT8 the 2^-6 that the OCP specification implies in MXINT8 elements
(R86; PRESUMED, log 111). -/
def mxElem (fmt scale : Nat) : Val := (e8m0 scale).scale (if fmt = 4 then -6 else 0)

/-- The elements of a moving row: 32 in the 4-bit class, 16 in the 8-bit class, 8 in the 16-bit class (R93). -/
def movingRow (m : Mem) (a fmt : Nat) : List Val :=
  if class4 fmt then (List.range 32).map (fun i => arrayVal fmt (nibble m a i))
  else if class16 fmt then (List.range 8).map (fun i => arrayVal fmt (leNat (rdBytes m (a + 2 * i) 2)))
  else (List.range 16).map (fun i => arrayVal fmt (rdByte m (a + i)).toNat)

/-- The stationary elements that output `o` reduces with, in reduction order: with T = 0 the cells of stage `o`, with
T = 1 the cells of row `o` over the stages; each with its cell's scale, that of its stage (R92, R94). In the 4-bit class
a cell holds two elements (R93; log 23). The tile's own MX, that of its LOAD_STAT, says whether its scales apply, whatever
MX the ARRAY word has: the spec does not say what a word does whose MX differs from its tile's (DESIGN CHOICE; log 112). -/
def statRow (t : Stat) (trans : Bool) (fmt o : Nat) : List Val :=
  let n := if class16 fmt then 8 else 16
  (List.range n).flatMap (fun i =>
    let raw := (look 0 t.cells (if trans then o * 16 + i else i * 16 + o)).toNat
    let stage := if trans then i else o
    let sc : Val := if t.mx then mxElem fmt (t.scales.getD stage 127).toNat else .fin false 1 0
    if class4 fmt then [(arrayVal fmt (raw % 16)).mul sc, (arrayVal fmt (raw / 16 % 16)).mul sc]
    else [(arrayVal fmt raw).mul sc])

/-- The exact sum of products onto a first value (R88, R89). -/
def dot (acc : Val) (a b : List Val) : Val := (a.zip b).foldl (fun s p => s.add (p.1.mul p.2)) acc

/-- The core-store address of moving row `m` of an ARRAY word: M_ADDR and M_STRIDE, or in a convolution the address the tap
walker gives the row (R210). -/
def movingAt (w : W64) (q : QWord) (m : Nat) : Nat :=
  match q.rows with
  | [] => wf w 41 30 * 32 + m * (wf w 29 22 * 16)
  | l => l.getD m 0

/-- One pass (R89, R92): every output element of the 16 moving rows, rounded once to W40; `at_` gives the address of each
row. -/
def passOf (sat : Bool) (w : W64) (at_ : Nat → Nat) (k : Core) : List (Nat × Nat × (W40 × Bool)) :=
  let fm := wf w 50 47
  let fs := wf w 46 43
  let mx := wf w 42 42 = 1
  let trans := wf w 53 53 = 1
  let dst := wf w 59 55
  let cols := if class16 fs then 8 else 16
  let first := if class16 fs then 8 * wf w 52 52 else 0
  (List.range 16).flatMap (fun m =>
    let sc : Val := if mx then mxElem fm (rdByte k.store (wf w 21 10 * 32 + m)).toNat else .fin false 1 0
    let row := (movingRow k.store (at_ m) fm).map (fun v => v.mul sc)
    (List.range cols).map (fun o =>
      let old : Val := if wf w 54 54 = 1 then ofW40 (k.well dst m (first + o)) else .fin false 0 0
      (m, first + o, toW40 sat (dot old row (statRow k.active trans fs o)))))

/-- The effect of an ARRAY word: SWAP, the pass, saturations counted (R91), one pass counted, and the cycles it stalled,
whose number is a matter of timing and free (R123, R124; log 101). -/
def arrayEff (c : Nat) (s : State) (q : QWord) : State :=
  match q.w with
  | .bits w =>
    let k := s.core c
    let k := if wf w 51 51 = 1 then { k with active := k.shadow } else k
    let out := passOf (s.coreFld F.CORE_CFG.W40_SAT c = 1) w (movingAt w q) k
    let k := out.foldl (fun k p => k.setWell (wf w 59 55) p.1 p.2.1 p.2.2.1) k
    let s := s.setCore c k
    let s := s.addCoreCnt C.CORE_CNT_SAT c (out.foldl (fun n p => n + b2n p.2.2.2) 0)
    (s.addCoreCnt C.CORE_CNT_PASSES c 1).addCoreCnt C.CORE_CNT_STALL c (Config.stallCycles c s.tm.now)
  | _ => s

/-- The tile a LOAD_STAT fills the shadow registers with (R93, R95; quarter as the table "LOAD_STAT word" says, rows and
columns counted from the tile's address, log 23). -/
def loadStatTile (w : W64) (m : Mem) : Stat :=
  let fmt := wf w 39 36
  let a := wf w 59 48 * 32
  let st := wf w 47 40 * 16
  let q := wf w 34 33
  let cell (k n : Nat) : Nat :=
    if class16 fmt then leNat (rdBytes m (a + (8 * (q / 2) + k) * st + 2 * (8 * (q % 2) + n)) 2)
    else (rdByte m (a + k * st + n)).toNat
  let size := if class16 fmt then 8 else 16
  { fmt := fmt
    mx := wf w 35 35 = 1
    half := q % 2
    scales := if wf w 35 35 = 1 then rdBytes m (wf w 32 21 * 32) 16 else []
    cells := (List.range size).foldl
      (fun t k => (List.range size).foldl (fun t n => put 0 t (k * 16 + n) (BitVec.ofNat 16 (cell k n))) t) [] }

def loadStatEff (c : Nat) (s : State) (q : QWord) : State :=
  match q.w with
  | .bits w => let k := s.core c; s.setCore c { k with shadow := loadStatTile w k.store }
  | _ => s

/-! ## Element stage -/

/-- Not below: the count of breakpoints is of those with BREAK ≤ x (R131). -/
def geF32 (x b : Nat) : Bool := !(ofF32 x).isNan && !(ofF32 b).isNan && !((ofF32 x).lt (ofF32 b))

/-- An element table evaluated on an FP32 input (R131 to R133). -/
def tableEval (t : List Byte) (x : Nat) : Nat :=
  let fold := field t 0 4 % 4
  let neg := bit x 31 && x % 2 ^ 31 ≠ 0
  let x' := if fold ≠ 0 then x % 2 ^ 31 else x
  let i := ((List.range 15).filter (fun k => geF32 x' (field t (8 + 4 * k) 4))).length
  let sl := field t (0x48 + 8 * i) 4
  let c0 := field t (0x4C + 8 * i) 4
  let c := if fold = 0 || !neg then c0
    else if fold = 1 then Nat.xor c0 (2 ^ 31) else toF32 c0 ((ofF32 (field t 4 4)).add (ofF32 c0).neg)
  match ofF32 x with
  | .nan => 0x7FC00000
  | .inf n =>
    if (ofF32 sl).isZero then c else fp32.infBits (bit sl 31 != n)
  | .fin .. => toF32 x (((ofF32 sl).mul (ofF32 x)).add (ofF32 c))

/-- FUNC of a drain on an FP32 value: the loaded table, or the KL-5 function (R108, R139; 0xF is the identity). -/
def elementFn (k : Core) (compat : Bool) (func x : Nat) : Nat :=
  if func = 0xF then x
  else if compat then compatEval func x
  else match k.tables[func]? with
    | some t => if t = [] then x else tableEval t x
    | none => x

/-- OUT_FMT of a drain. -/
def outFmt (n : Nat) : Fmt := if n = 0 then fp32 else if n = 1 then bf16 else if n = 2 then e4m3 else if n = 3 then e5m2 else e2m1

/-- The value of well element (r, col) past the bias and the function (R109): the W40 value itself with FUNC 0xF and
PRE 0. PRE 1 adds the bias of the column, PRE 2 that of the row. -/
def drainVal (k : Core) (compat : Bool) (w : W64) (well r col : Nat) : Val :=
  let x := ofW40 (k.well well r col)
  let pre := wf w 43 42
  let func := wf w 47 44
  if func = 0xF ∧ pre = 0 then x
  else
    let f := toF32 0 x
    let f := if pre = 0 then f else f32add f (k.f32 (wf w 21 10 * 32 + 4 * (if pre = 1 then col else r)))
    ofF32 (elementFn k compat func f)

/-- A lane of the generator advanced 16 steps (R113): a right-shifting Galois LFSR. -/
def lfsr16 (x : W32) : W32 := (List.range 16).foldl (fun x _ => if x.getLsbD 0 then (x >>> 1) ^^^ 0x80200003#32 else x >>> 1) x

/-- The lanes loaded at the start of a drain (R114). -/
def lfsrLoad (seed : W32) (tile : Nat) : List W32 :=
  (List.range 16).map (fun c =>
    let x := seed ^^^ BitVec.ofNat 32 (tile * 0x9E3779B9) ^^^ BitVec.ofNat 32 (c * 0x85EBCA6B)
    if x = 0 then 1 else x)

/-- The rounding of the next element of a lane, and the lanes after it (R113, R115). -/
def nextRnd (stoch : Bool) (lanes : List W32) (lane : Nat) : Rnd × List W32 :=
  if stoch then
    let x := lanes.getD lane 1
    (.stoch (Config.lfsrBits x % 2 ^ 16), lanes.set lane (lfsr16 x))
  else (.rne, lanes)

/-- The E8M0 scale the OCP specification computes for a block: the exponent of its largest magnitude less the format's
emax; open where the block is all zero or holds a NaN or an infinity (R111; log 19). -/
def mxScaleOf (f : Fmt) (key : Nat) (vs : List Val) : Nat :=
  let mags := vs.map (fun v => match v with | .fin _ m e => some (m, e) | _ => none)
  if mags.any Option.isNone ∨ vs.all Val.isZero then (Config.mxScale key).toNat
  else
    let tops := vs.filterMap (fun v => match v with | .fin _ m e => if m = 0 then none else some ((Nat.log2 m : Int) + e) | _ => none)
    let top := tops.foldl (fun a b => if a < b then b else a) (tops.headD 0)
    let sh := top - f.emax + 127
    if sh < 0 then 0 else if 254 < sh then 254 else sh.toNat

/-- What a drain has written so far: lanes, saturations. -/
structure DrainAcc where
  lanes : List W32
  sats  : Nat := 0
  outs  : List Nat := []
deriving DecidableEq, Repr

/-- One element of a drain encoded. With `keep` a NaN is the element table's FP32 quiet NaN, stored as it stands (R133). -/
def drainEncode (f : Fmt) (keep : Bool) (r : Rnd) (sat : Bool) (key : Nat) (v : Val) : Nat × Bool :=
  if keep && v.isNan then (0x7FC00000, false) else f.encode r sat key v

/-- Elements converted in order, each in its lane. -/
def drainElems (f : Fmt) (keep sat stoch : Bool) (acc : DrainAcc) : List (Nat × Val) → DrainAcc
  | [] => acc
  | (lane, v) :: r =>
    let p := nextRnd stoch acc.lanes lane
    let e := drainEncode f keep p.1 sat (acc.outs.length + 64 * lane) v
    drainElems f keep sat stoch { lanes := p.2, sats := acc.sats + b2n (e.2 && sat), outs := acc.outs ++ [e.1] } r

/-- Encoded elements as bytes. -/
def packFmt (f : Fmt) (l : List Nat) : List Byte :=
  if f.width = 4 then packNib l else l.flatMap (fun v => toLE (f.width / 8) v)

/-- Is the result of a drain an element table's FP32 value, unscaled: FUNC 0 to 7 in native mode, OUT_FMT FP32, MX 0. -/
def keepsNan (w : W64) (compat : Bool) : Bool := !compat && wf w 47 44 ≠ 15 && wf w 54 51 = 0 && wf w 49 48 = 0

/-- One drain (R108 to R115). With MX 1 rows of SRC and SRC + 1 form blocks of 32 with computed scales; with MX 2 the
row's given scale divides the row (log 24). Two points the spec leaves open are settled here (DESIGN CHOICE; log 113): the
16 scale bytes of MX 1 go to base + 16 * OUT_STRIDE, also where the stride is wider than a row; and a drain with PRE not 0
and MX 2, which has one AUX_ADDR, reads its bias and its scales from that same address. -/
def drainEff (c : Nat) (s : State) (q : QWord) : State :=
  match q.w with
  | .bits w =>
    let k := s.core c
    let compat := s.coreFld F.CORE_CFG.ELT_COMPAT c = 1
    let sat := s.coreFld F.CORE_CFG.NARROW_SAT c = 1
    let f := outFmt (wf w 54 51)
    let stoch := wf w 50 50 = 1
    let src := wf w 59 55
    let base := wf w 41 30 * 32
    let st := wf w 29 22 * 16
    let row (well r : Nat) : List Val := (List.range 16).map (drainVal k compat w well r)
    let lanes0 := lfsrLoad k.cmdSeed q.tile
    let one (a : Mem × List Byte × DrainAcc) (r : Nat) : Mem × List Byte × DrainAcc :=
      let vs := if wf w 49 48 = 1 then row src r ++ row (src + 1) r else row src r
      let sc := if wf w 49 48 = 1 then mxScaleOf f (c + 16384 * r) vs
        else if wf w 49 48 = 2 then (rdByte k.store (wf w 21 10 * 32 + r)).toNat else 127
      let scaled := vs.map (fun v => if sc = 0xFF ∧ wf w 49 48 ≠ 0 then Val.nan else v.scale (127 - (sc : Int)))
      let es := (List.range vs.length).map (fun i => (i % 16, scaled.getD i .nan))
      let d := drainElems f (keepsNan w compat) sat stoch { a.2.2 with outs := [] } es
      (wrBytes a.1 (base + r * st) (packFmt f d.outs), a.2.1 ++ [BitVec.ofNat 8 sc], d)
    let res := (List.range 16).foldl one (k.store, [], { lanes := lanes0 })
    let mem := if wf w 49 48 = 1 then wrBytes res.1 (base + 16 * st) res.2.1 else res.1
    let s := s.setCore c { k with store := mem, lfsr := res.2.2.lanes }
    s.addCoreCnt C.CORE_CNT_SAT c res.2.2.sats
  | _ => s

/-! ## Transfer engine -/

def save40Eff (c : Nat) (s : State) (q : QWord) : State :=
  match q.w with
  | .save40 m a =>
    let k := s.core c
    s.setCore c { k with store := wrBytes k.store (a * 32) ((wellsOf m.toNat).flatMap k.image) }
  | _ => s

/-- Wells loaded from consecutive images, ascending (R102). -/
def loadWells (k : Core) (a : Nat) : List Nat → Core
  | [] => k
  | w :: r => loadWells (k.loadWell w a) (a + 1280) r

def restore40Eff (c : Nat) (s : State) (q : QWord) : State :=
  match q.w with
  | .restore40 m a => s.setCore c (loadWells (s.core c) (a * 32) (wellsOf m.toNat))
  | _ => s

/-- The ring neighbour a MOVE names: the next core or the previous, modulo 40 (R122). -/
def neighbour (c target : Nat) : Nat :=
  c / 40 * 40 + (if target = 0 then (c % 40 + 1) % 40 else (c % 40 + 39) % 40)

def isMove (op : Nat) : CoreWord → Bool
  | .bits w => wf w 59 58 = op
  | _ => false

/-- MOVE READ: units from a neighbour core store or the cluster store (R122, R287). A poisoned unit of the cluster store
is delivered as it stands; its report is CLUSTER_STORE_UE. -/
def moveReadEff (c : Nat) (s : State) (q : QWord) : State :=
  match q.w with
  | .bits w =>
    let n := 64 * wf w 27 16
    let k := s.core c
    if wf w 57 56 = 2 then
      let data := rdBytes (s.cluster (c / 40)).store (wf w 43 28 * 32) n
      (s.setCore c { k with store := wrBytes k.store (wf w 55 44 * 32) data }).addSlot 0x11 (c / 40) 2 n
    else
      let data := rdBytes (s.core (neighbour c (wf w 57 56))).store (wf w 39 28 * 32) n
      (s.setCore c { k with store := wrBytes k.store (wf w 55 44 * 32) data }).addSlot 0x11 (c / 40) 0 n
  | _ => s

/-- The advance of an ADVANCE word leaves for its gauge once the write is acknowledged; it reaches it in a GAUGE_ADVANCE
(R233, R272). -/
def State.sendAdvance (s : State) (c : Nat) (q : QWord) : State :=
  match (s.core c).place with
  | some p =>
    let n := (s.counter p.counter).items + 1
    let t : Traffic :=
      { q := p.q, seq := p.seq, cl := c / 40, counter := p.counter, job := p.job, item := p.item.getD 0 % n, gen := p.gen
        gauge := some (q.at_, q.gval) }
    { s with tl.traffic := s.tl.traffic ++ [t] }
  | none => s

/-- MOVE WRITE: units to a neighbour, with its arrival tag (R146), or to the cluster store. -/
def moveWriteEff (c : Nat) (s : State) (q : QWord) : State :=
  match q.w with
  | .bits w =>
    let n := 64 * wf w 27 16
    let data := rdBytes (s.core c).store (wf w 55 44 * 32) n
    let s := if wf w 10 10 = 1 then s.sendAdvance c q else s
    if wf w 57 56 = 2 then
      let cl := s.cluster (c / 40)
      (s.setCluster (c / 40) { cl with store := wrBytes cl.store (wf w 43 28 * 32) data }).addSlot 0x11 (c / 40) 3 n
    else
      let p := neighbour c (wf w 57 56)
      let k := s.core p
      let tags := if wf w 11 11 = 1 then Nat.lor k.tags (2 ^ wf w 15 12) else k.tags
      (s.setCore p { k with store := wrBytes k.store (wf w 39 28 * 32) data, tags := tags }).addSlot 0x11 (c / 40) 1 n
  | _ => s

/-! ## Atomics -/

/-- Is a traffic unit of an item fenced: a fence entry of its counter and job with a higher generation and the item's
bit (R272). -/
def State.fenced (s : State) (counter job item gen : Nat) : Bool :=
  s.tl.fences.any (fun f => f.counter == counter && f.job == job && decide (gen < f.gen) && bit f.mask item)

/-- A fenced unit is discarded at port die `p`: counted, logged grey, and SEQ_STATUS.FENCED of the cluster (R272, R275). -/
def State.discardFenced (s : State) (p : Nat) (cl : Option Nat) : State :=
  let s := (s.addCnt C.PDIE_CNT_FENCED 1 p).raise 0x2003 0 p
  match cl with
  | some k => s.setFld F.SEQ_STATUS.FENCED 1 k
  | none => s

/-- Is the item that a core runs fenced (R272). -/
def State.coreFenced (s : State) (core : Nat) : Bool :=
  match (s.core core).place with
  | some p => (match p.item with
    | some i => s.fenced p.counter p.job (i % (1 + (s.counter p.counter).items)) p.gen
    | none => false)
  | none => false

/-- The bytes of the element of an atomic (table "Atomic operations"). -/
def atomicSize (aop : Nat) : Nat := if aop = 1 ∨ aop = 6 ∨ aop = 8 then 8 else 4

def signed32 (n : Nat) : Int := if n < 2 ^ 31 then (n : Int) else (n : Int) - 2 ^ 32

/-- The element's new value from its old one and the operands at LOCAL (table "Atomic operations"). -/
def atomicVal (aop old x y : Nat) : Nat :=
  match aop with
  | 0 => (old + x) % 2 ^ 32
  | 1 => (old + x) % 2 ^ 64
  | 2 => f32add old x
  | 3 => if signed32 old < signed32 x then x else old
  | 4 => if signed32 x < signed32 old then x else old
  | 5 => x
  | 6 => x
  | _ => if old = x then y else old

/-- The slice of a SHARED address (08_memory.md, "The shared cache"). -/
def sliceOf (a : Nat) : Nat := bits a 28 27

def isAtomic (aop : Nat) : CoreWord → Bool
  | .bits w => wf w 59 58 = 2 && wf w 19 16 = aop
  | _ => false

/-- A MOVE ATOMIC (R293): the element of the atomic tensor takes its new value, its old value is written to LOCAL; a
stale item's atomic is discarded (R272), its LOCAL unchanged. -/
def atomicEff (c : Nat) (s : State) (q : QWord) : State :=
  match q.w with
  | .bits w =>
    let aop := wf w 19 16
    let n := atomicSize aop
    let k := s.core c
    let loc := wf w 55 44 * 32
    let a := q.at_ + n * wf w 43 28
    if s.coreFenced c then s.discardFenced (sliceOf a) (some (c / 40))
    else
      let old := leNat (rdBytes s.mm.shared a n)
      let x := leNat (rdBytes k.store loc n)
      let y := leNat (rdBytes k.store (loc + n) n)
      let s := { s with mm.shared := wrBytes s.mm.shared a (toLE n (atomicVal aop old x y)) }
      let s := s.setCore c { k with store := wrBytes k.store loc (toLE n old) }
      ((s.addCnt C.PDIE_CNT_ATOMICS 1 (sliceOf a)).addSlot 0x20 (sliceOf a) 0 n).addSlot 0x20 (sliceOf a) 1 n
  | _ => s

/-! ## Waits, marks and ends -/

/-- Is a wait met: a gauge's VALUE, or a counter's DONE at min(TARGET, LIMIT * JOB_ITEMS) (R236, R274). -/
def State.waitMet (s : State) (w : Waiting) : Bool :=
  if w.counter then
    let c := s.counter w.index
    decide (Nat.min w.target (c.limit * (c.items + 1)) ≤ c.done)
  else decide (w.target ≤ (s.gauge w.index).value)

/-- The context of the command a core works for, while the command is in hand. -/
def State.coreCtx (s : State) (c : Nat) : Option Nat :=
  match (s.core c).place with
  | some p => (s.cmd? p.q p.seq).map Cmd.ctx
  | none => none

/-- Is yield-pending set for the core: its context is YIELDING (R416). -/
def State.yieldPending (s : State) (c : Nat) : Bool :=
  match s.coreCtx c with
  | some x => (s.ctx x).st == .yielding
  | none => false

/-- The cluster record position of a core: its place among the cores of its layer, ascending (R241). -/
def State.position (s : State) (c : Nat) (p : Place) : Nat :=
  match (s.cluster (c / 40)).layers.find? (fun l => l.q == p.q && l.seq == p.seq && l.layer == p.layer) with
  | some l => l.cores.findIdx (· == c)
  | none => 0

/-- A core yields at a point: it saves the wells of the mask and the store range, and waits for the record to be
acknowledged (R425). POINT 0 a YIELD word, 1 a WAIT word. -/
def State.yieldCore (s : State) (c point mask csAddr csLen : Nat) : State :=
  let k := s.core c
  match k.place with
  | none => s
  | some p =>
    let wells := k.wells.filter (fun e => bit mask (e.1 / 256))
    let bytes := k.store.filter (fun e => decide (csAddr * 32 ≤ e.1) && decide (e.1 < (csAddr + csLen) * 32))
    let r : SavedCore :=
      { q := p.q, seq := p.seq, cluster := c / 40, position := s.position c p, point := point, layer := p.layer,
        place := p, mask := mask, wells := wells, csAddr := csAddr, csLen := csLen, bytes := bytes,
        queue := k.queue ++ k.issue, waiting := k.waiting, tags := k.tags }
    s.setCore c { k with saving := some r }

/-- The mask of the wells written since the last zeroing (R425; CORE_STATUS.LIVE_WELLS). -/
def Core.liveMask (k : Core) : Nat := k.written % 2 ^ 24

/-- A core that waits yields at its WAIT under yield-pending: every well written, the whole store (R425). -/
def State.yieldAtWait (s : State) (c : Nat) : State :=
  if (s.core c).waiting.isSome ∧ (s.core c).saving.isNone ∧ s.yieldPending c then
    s.yieldCore c 1 (s.core c).liveMask 0 3072
  else s

def waitEff (c : Nat) (s : State) (q : QWord) : State :=
  match q.w with
  | .bits w =>
    let x : Waiting := { counter := wf w 59 59 = 1, index := q.at_, target := wf w 46 23, since := s.tm.now }
    if s.waitMet x then s
    else
      let k := s.core c
      (s.setCore c { k with waiting := some x }).yieldAtWait c
  | _ => s

/-- A met wait ends (R236, R274); the words behind it may start. -/
def State.waitWake (s : State) (c : Nat) : State :=
  let k := s.core c
  match k.waiting with
  | some w =>
    if s.waitMet w ∧ k.saving.isNone ∧ s.runs (c / 40) then s.setCore c { k with waiting := none } else s
  | none => s

/-- A YIELD word: a mark without effect, or under yield-pending the core's save (R104, R425). -/
def yieldEff (c : Nat) (s : State) (q : QWord) : State :=
  match q.w with
  | .bits w => if s.yieldPending c then s.yieldCore c 0 (wf w 59 36) (wf w 35 24) (wf w 23 12) else s
  | _ => s

/-- END: the core's share of the layer has ended; its release follows (R261, R421). -/
def endEff (c : Nat) (s : State) (_q : QWord) : State :=
  let k := s.core c
  s.setCore c { k with ended := true }

end Sys2Proof.Machine
end

