-- ==== Sys2Proof/Machine/Plans.lean ====
section
/-! DEFINITION. Tensor descriptors (10_queues.md; R577, R578) and layer plans (07_tiling.md; R239 to R251), read from
device memory, with the checks on them that acceptance makes. -/

namespace Sys2Proof.Machine

/-! ## Tensor descriptors -/

/-- A tensor descriptor (table "Tensor descriptor"). -/
structure Desc where
  format  : Nat
  rank    : Nat
  home    : Nat
  linKind : Nat
  nondet  : Bool
  compress : Nat
  version : Nat
  addr    : Nat
  alloc   : List Nat
  valid   : List Nat
  stride  : List Nat
  clen    : Nat
  lineage : Nat
  rsv     : Bool
deriving DecidableEq, Repr

/-- The descriptor of 64 bytes. -/
def descOf (b : List Byte) : Desc :=
  let f := field b 1 1
  { format := field b 0 1
    rank := bits f 1 0 + 1
    home := bits f 3 2
    linKind := bits f 5 4
    nondet := bit f 6
    compress := bits (field b 2 2) 3 0
    version := field b 4 4
    addr := bits (field b 8 8) 51 0
    alloc := (List.range 4).map (fun i => field b (0x10 + 3 * i) 3)
    valid := (List.range 4).map (fun i => field b (0x1C + 3 * i) 3)
    stride := (List.range 4).map (fun i => if i = 0 then 0 else field b (0x28 + 4 * (i - 1)) 4)
    clen := field b 0x34 4
    lineage := field b 0x38 8
    rsv := bit f 7 || bits (field b 2 2) 15 4 ≠ 0 || bits (field b 8 8) 63 52 ≠ 0 }

/-- Width of a format in half bytes (R577). -/
def halfBytes (fmt : Nat) : Nat :=
  match fmt with
  | 0 => 1 | 1 => 1 | 2 => 2 | 3 => 2 | 4 => 2 | 5 => 4 | 6 => 4 | 8 => 8 | 9 => 10 | 10 => 8 | 11 => 16 | 12 => 2
  | 13 => 2 | _ => 0

def fmtReserved (fmt : Nat) : Bool := fmt = 7 || 13 < fmt

/-- Extents; a dimension at or above RANK reads 1. -/
def Desc.allocAt (d : Desc) (i : Nat) : Nat := if i < d.rank then d.alloc.getD i 1 else 1
def Desc.validAt (d : Desc) (i : Nat) : Nat := if i < d.rank then d.valid.getD i 1 else 1
def Desc.elems (d : Desc) : Nat := d.allocAt 0 * d.allocAt 1 * d.allocAt 2 * d.allocAt 3

/-- Uncompressed allocated length (R577). -/
def Desc.allocLen (d : Desc) : Nat :=
  if d.format = 9 then ceilDiv (d.elems * 5) 16 * 16
  else if d.rank = 1 then ceilDiv (d.allocAt 0 * halfBytes d.format) 32 * 16
  else d.stride.getD (d.rank - 1) 0 * 16 * d.allocAt (d.rank - 1)

/-- Stored length (R577). -/
def Desc.storedLen (d : Desc) : Nat := if d.compress = 0 then d.allocLen else 2 * d.clen

/-- A stride that breaks R577; a W40 tensor's are ignored. -/
def Desc.badStride (d : Desc) : Bool :=
  d.format ≠ 9 && (List.range d.rank).any (fun i =>
    i ≠ 0 && (d.stride.getD i 0 = 0 ||
      decide (d.stride.getD i 0 < (if i = 1 then ceilDiv (d.allocAt 0 * halfBytes d.format) 32
        else d.stride.getD (i - 1) 0 * d.allocAt (i - 1)))))

/-- A COMPRESS that is reserved or not allowed for the home, or a CLEN with COMPRESS 0 (R578). -/
def Desc.badCompress (d : Desc) : Bool :=
  decide (2 < d.compress) || (d.compress ≠ 0 && d.home ≠ 0 && d.home ≠ 3) || (d.compress = 0 && d.clen ≠ 0)

/-- Byte offset of an element from its indices, in half bytes (R577). -/
def Desc.elemOff (d : Desc) (i0 i1 i2 i3 : Nat) : Nat :=
  if d.format = 9 then 10 * (i0 + d.allocAt 0 * (i1 + d.allocAt 1 * (i2 + d.allocAt 2 * i3)))
  else halfBytes d.format * i0 + 32 * (d.stride.getD 1 0 * i1 + d.stride.getD 2 0 * i2 + d.stride.getD 3 0 * i3)

/-! ## Owners and ranges -/

/-- Granule keys: stack s granule g, slice p granule g. -/
def stackGranule (s g : Nat) : Nat := s * 65536 + g
def sliceGranule (p g : Nat) : Nat := (16 + p) * 65536 + g

/-- The owner of a granule; nobody, 0xFFFE, at rest (log 15). -/
def State.ownerOf (s : State) (k : Nat) : Nat := look 0xFFFE s.mm.owners k

/-- The granules of 2 MiB that a device range touches. -/
def devGranules (a n : Nat) : List Nat :=
  (List.range (ceilDiv (a % 2 ^ 36 % 2 ^ 21 + n) (2 ^ 21))).map
    (fun i => stackGranule (a / 2 ^ 36) (a % 2 ^ 36 / 2 ^ 21 + i))

/-- The granules of 64 KiB that a range of SHARED addresses touches. -/
def sharedGranules (a n : Nat) : List Nat :=
  (List.range (ceilDiv (a % 2 ^ 27 % 2 ^ 16 + n) (2 ^ 16))).map
    (fun i => sliceGranule (a / 2 ^ 27) (a % 2 ^ 27 / 2 ^ 16 + i))

/-- A device range wholly within one stack's tensor area (R296, R298). -/
def inTensorArea (a n : Nat) : Bool :=
  decide (a < 12 * 2 ^ 36) && decide (a % 2 ^ 36 + n ≤ 63 * 2 ^ 30)

/-- A range wholly within one slice's tensor area (R289). -/
def State.inSliceArea (s : State) (a n : Nat) : Bool :=
  decide (a < 2 ^ 29) && decide (s.fld F.PDIE_SYS.SIZE (a / 2 ^ 27) * 65536 ≤ a % 2 ^ 27) &&
    decide (a % 2 ^ 27 + n ≤ 0x6000000)

def State.allOwned (s : State) (ks : List Nat) (ctx : Nat) : Bool := ks.all (fun k => s.ownerOf k == ctx)

/-- A device range in the tensor area, owned by a context (R309). -/
def State.devOwned (s : State) (a n ctx : Nat) : Bool := inTensorArea a n && s.allOwned (devGranules a n) ctx

/-! ## Cistern addresses (R369) -/

def cisModule (a : Nat) : Nat := bits a 51 48
def cisBlock (a : Nat) : Nat := bits a 46 12

/-- The port die that a write to a home reaches, and at which a fence stops it (R272): that of the stack, of the slice, of the
module's port. -/
def homeDie (home a : Nat) : Nat := if home = 0 then a / 2 ^ 36 / 3 else if home = 1 then sliceOf a else cisModule a / 4

/-- May a command of a context name a range of a cistern (R369). -/
def State.cisOk (s : State) (a n ctx : Nat) (out raw : Bool) : Bool :=
  let m := cisModule a
  let b := cisBlock a
  let e := b + ceilDiv n 4096
  let owner := s.fld F.CIS_OWNER.CONTEXT m
  (s.module m).st = 4 && (owner = ctx || owner = 0xFFFF) && !bit a 47 && a % 4096 = 0 &&
    decide (e ≤ s.cnt C.CIS_CAPACITY m) &&
    (decide (2 ^ 20 ≤ b) || (!out && raw && decide (1 ≤ b) && decide (e ≤ 2 ^ 20))) &&
    !(out && (s.module m).worn)

/-- The storage of a tensor in its home may be used by a context (R296, R298, R309, R369). -/
def State.storageOk (s : State) (home a n ctx : Nat) (out raw : Bool) : Bool :=
  match home with
  | 0 => s.devOwned a n ctx
  | 1 => s.inSliceArea a n && s.allOwned (sharedGranules a n) ctx
  | 2 => true
  | _ => s.cisOk a n ctx out raw

/-! ## Refusals -/

/-- A failed check: its code and where (R391). -/
structure Fail where
  code  : Nat
  layer : Nat := 0xFF
  slot  : Nat := 0xFF
  entry : Nat := 0xFFFF
deriving DecidableEq, Repr

def Fail.detail (f : Fail) : Nat := f.layer % 256 + f.slot % 256 * 256 + f.entry % 65536 * 65536

/-- The lowest code, the first found where several share it (R391). -/
def lowest : List Fail → Option Fail
  | [] => none
  | f :: r => match lowest r with
    | none => some f
    | some g => if g.code < f.code then some g else some f

def failIf (b : Bool) (f : Fail) : List Fail := if b then [f] else []

/-- The checks on one descriptor itself (R578, R253, R309): its address, its fields and its storage. `out` gives the
storage of the new version. -/
def State.descFails (s : State) (ctx slot a : Nat) (out : Option Nat) : List Fail :=
  let d := descOf (s.devRead a 64)
  let f : Fail := { code := 0x42, slot := slot }
  if a % 64 ≠ 0 || !s.devOwned a 64 ctx then [f]
  else
    failIf (fmtReserved d.format || d.rsv || d.badCompress || d.badStride ||
        (List.range d.rank).any (fun i => decide (d.allocAt i < d.validAt i))) f ++
      (match out with
       | some st => failIf (d.home ≠ 2 && !s.storageOk d.home st d.allocLen ctx true (d.compress = 0)) f
       | none => failIf (d.home ≠ 2 && !s.storageOk d.home d.addr d.storedLen ctx false (d.compress = 0)) f)

/-! ## Plan records -/

/-- A dimension descriptor (R244). -/
structure Dim where
  role : Nat
  tdim : Nat
  t    : List Nat
  rsv  : Bool
deriving DecidableEq, Repr

/-- An address stream (R246), in bytes. -/
structure Stream where
  role : Nat
  nbuf : Nat
  pos  : Nat
  base : Nat
  size : Nat
  step : List Nat
  rsv  : Bool
deriving DecidableEq, Repr

/-- A body entry (R247). -/
structure Entry16 where
  word  : W64
  when_ : Nat
  patch : Nat
  sa    : Nat
  sb    : Nat
  rsv   : Bool
deriving DecidableEq, Repr

/-- A layer's plan record (R243): the levels are the loop orders of TOP, L3, L2 and L1. -/
structure Plan where
  kind     : Nat
  ndim     : Nat
  flags    : Nat
  fixedWells : Nat
  fixedLive : Nat
  yieldLevel : Nat
  jobItems : Nat
  counter  : Nat
  nstream  : Nat
  bodyWords : Nat
  tensors  : List Nat
  kindOff  : Nat
  tableOff : Nat
  bodyOff  : Nat
  depends  : Nat
  levels   : List Nat
  dims     : List Dim
  streams  : List Stream
  body     : List Entry16
  rsv      : Bool
deriving DecidableEq, Repr

/-- The program image a command names: its descriptor and the VERSION read there. -/
structure ImageRef where
  desc    : Nat
  version : Nat
deriving DecidableEq, Repr

def State.imageRef (s : State) (desc : Nat) : ImageRef := ⟨desc, (descOf (s.devRead desc 64)).version⟩

def dimOf (b : List Byte) : Dim :=
  { role := field b 0 1, tdim := field b 1 1, t := (List.range 4).map (fun i => field b (4 + 2 * i) 2)
    rsv := field b 2 2 ≠ 0 || field b 12 4 ≠ 0 }

def streamOf (b : List Byte) : Stream :=
  { role := field b 0 1, nbuf := field b 1 1, pos := field b 2 1, base := field b 4 2 * 32, size := field b 6 2 * 32
    step := (List.range 6).map (fun i => field b (8 + 2 * i) 2 * 16), rsv := field b 3 1 ≠ 0 || field b 0x14 12 ≠ 0 }

def entryOf (b : List Byte) : Entry16 :=
  { word := BitVec.ofNat 64 (field b 0 8), when_ := field b 8 1, patch := field b 9 1, sa := field b 10 1
    sb := field b 11 1, rsv := field b 12 4 ≠ 0 }

/-- The plan record at a device address, with offsets counted from the image's base. -/
def State.planAt (s : State) (base a : Nat) : Plan :=
  let h := s.devRead a 64
  let nd := field h 1 1
  let ns := field h 10 1
  let nb := field h 11 1
  let bo := field h 0x18 4
  { kind := field h 0 1, ndim := nd, flags := field h 2 1, fixedWells := field h 3 1, fixedLive := field h 4 3
    yieldLevel := field h 7 1, jobItems := field h 8 1, counter := field h 9 1, nstream := ns, bodyWords := nb
    tensors := (List.range 4).map (fun i => field h (12 + i) 1)
    kindOff := field h 0x10 4, tableOff := field h 0x14 4, bodyOff := bo, depends := field h 0x20 8
    levels := (List.range 4).map (fun i => field h (0x28 + 4 * i) 4)
    dims := (List.range nd).map (fun i => dimOf (s.devRead (a + 64 + 16 * i) 16))
    streams := (List.range ns).map (fun i => streamOf (s.devRead (a + 64 + 16 * nd + 32 * i) 32))
    body := (List.range nb).map (fun i => entryOf (s.devRead (base + bo + 16 * i) 16))
    rsv := field h 0x1C 4 ≠ 0 || field h 0x38 8 ≠ 0 || bits (field h 2 1) 7 4 ≠ 0 }

def Plan.rotate (p : Plan) : Bool := bit p.flags 0
def Plan.double (p : Plan) : Bool := bit p.flags 1
def Plan.partial_ (p : Plan) : Bool := bit p.flags 2
def Plan.tables (p : Plan) : Bool := bit p.flags 3

/-- The loop order of a level descriptor, outermost first (R245). -/
def orderOf (raw : Nat) : List Nat :=
  ((List.range 6).map (fun i => bits raw (23 - 4 * i) (20 - 4 * i))).takeWhile (· ≠ 15)

/-- The loop order of level 0 TOP, 1 L3, 2 L2, 3 L1. -/
def Plan.order (p : Plan) (lv : Nat) : List Nat := orderOf (p.levels.getD lv 0xFFFFFF)

/-- PREFETCH of that level, 0 to 3 (R245): how many tiles ahead the pumps stage the tiles of its order (R260). Staging a
tile ahead of its use changes no value, only when a fill ends; the fills of a core store are in State.pump (log 7). -/
def Plan.prefetch (p : Plan) (lv : Nat) : Nat := bits (p.levels.getD lv 0) 25 24

def Plan.size (p : Plan) (d lv : Nat) : Nat := ((p.dims.getD d ⟨0, 0, [], false⟩).t).getD lv 1
def Plan.role (p : Plan) (d : Nat) : Nat := (p.dims.getD d ⟨0, 0, [], false⟩).role

/-- Tiles of level `lv - 1` in a tile of level `lv` along a dimension. -/
def Plan.trip (p : Plan) (d lv : Nat) : Nat := ceilDiv (p.size d lv) (Nat.max 1 (p.size d (lv - 1)))

/-- The word of 64 bits, with the fields of VECTOR, SAVE40 and RESTORE40 words, whose places the spec does not give
(log 8). -/
def vecOps : List VecOp :=
  [.fma, .add, .mul, .max, .min, .select, .cmp, .add40, .add40w, .cvt, .exp, .ln, .exp2, .log2, .sin2pi, .cos2pi, .tanh,
   .sigmoid, .sqrt, .rcp, .rsqrt, .sum, .rmax, .rmin, .topk, .splitmix, .gate40w, .fma40, .lscan40]

def coreWordOf (w : W64) : CoreWord :=
  let v := Config.vectorField w
  match wf w 63 60 with
  | 4 => .vec
      { op := vecOps.getD (v 0 % 29) .fma, a := v 1 % 4096, b := v 2 % 4096, c := v 3 % 4096, d := v 4 % 4096,
        len := v 5 % 4096, fmtA := v 6 % 8, fmtD := v 7 % 8, rnd := v 8 % 2 = 1, aux := v 9 % 65536 }
  | 6 => .save40 (BitVec.ofNat 24 (Config.saveField w 0)) (Config.saveField w 1 % 4096)
  | 7 => .restore40 (BitVec.ofNat 24 (Config.saveField w 0)) (Config.saveField w 1 % 4096)
  | _ => .bits w

/-! ## Plan checks -/

/-- A word with an address field cleared that PATCH replaces, for the check of its other ranges: the first and the second
address field of ARRAY, LOAD_STAT, DRAIN and VECTOR (R247). Other words have no field that PATCH replaces. -/
def clearPatched (a b : Bool) : CoreWord → CoreWord
  | .bits w =>
    let clr (hi lo : Nat) (on : Bool) (w : W64) : W64 :=
      if on then w - BitVec.ofNat 64 (wf w hi lo * 2 ^ lo) else w
    match wf w 63 60 with
    | 1 => .bits (clr 41 30 a (clr 21 10 b w))
    | 2 => .bits (clr 59 48 a (clr 32 21 b w))
    | 3 => .bits (clr 41 30 a (clr 21 10 b w))
    | _ => .bits w
  | .vec v => .vec { v with a := if a then 0 else v.a, b := if b then 0 else v.b }
  | w => w

/-- A range of a word beyond the core store, its patched addresses apart: those lie in their streams' buffers, which
R251 bounds (R84). -/
def badRange (e : Entry16) : Bool :=
  let f := (clearPatched (bit e.patch 2) (bit e.patch 3) (coreWordOf e.word)).foot
  (f.sr ++ f.sw).any (fun r => decide (98304 < r.1 + r.2))

/-- An integer format of the array (table "Array formats"). -/
def intFmt (fmt : Nat) : Bool := fmt = 1 || fmt = 4

/-- A VECTOR word's fields outside their ranges: a well above 23, a length of 0, k of TOPK outside 1 to 64, p of LSCAN40
outside 1 to 8 (R84; table "Vector operations", R153). -/
def badVec (v : VecWord) : Bool :=
  ((v.op = .add40w || v.op = .gate40w) && decide (23 < v.d % 32)) || v.len = 0 ||
    (v.op = .topk && (v.aux = 0 || decide (64 < v.aux))) ||
    (v.op = .lscan40 && (v.aux % 16 = 0 || decide (8 < v.aux % 16)))

/-- A reserved kind or field value, a well above 23, or a range beyond the core store (R84); the operand rules of R85 and
R129 that one word shows; the MOVE rules of R288. -/
def badWord (e : Entry16) (gauges : Bool) : Bool :=
  let w := e.word
  let cw := coreWordOf w
  let mxOk (fmt : Nat) : Bool := fmt = 0 || fmt = 2 || fmt = 3 || fmt = 4
  badRange e || match wf w 63 60 with
  | 1 =>
    decide (23 < wf w 59 55) || wf w 9 0 ≠ 0 || wf w 29 22 = 0 || decide (6 < wf w 50 47) || decide (6 < wf w 46 43) ||
      class4 (wf w 50 47) != class4 (wf w 46 43) || class16 (wf w 50 47) != class16 (wf w 46 43) ||
      intFmt (wf w 50 47) != intFmt (wf w 46 43) ||
      (wf w 42 42 = 1 && !(mxOk (wf w 50 47) && mxOk (wf w 46 43))) || (wf w 52 52 = 1 && !class16 (wf w 50 47))
  | 2 =>
    decide (6 < wf w 39 36) || wf w 20 0 ≠ 0 || wf w 47 40 = 0 || (wf w 35 35 = 1 && !mxOk (wf w 39 36)) ||
      (wf w 34 33 ≠ 0 && !class16 (wf w 39 36))
  | 3 =>
    decide (23 < wf w 59 55) || decide (4 < wf w 54 51) || wf w 49 48 = 3 || wf w 43 42 = 3 || wf w 29 22 = 0 ||
      wf w 9 0 ≠ 0 || (decide (7 < wf w 47 44) && wf w 47 44 ≠ 15) || (wf w 49 48 = 1 && wf w 59 55 % 2 = 1)
  | 4 => match cw with
    | .vec v => badVec v
    | _ => false
  | 5 =>
    let op := wf w 59 58
    let tgt := wf w 57 56
    op = 3 || wf w 9 0 ≠ 0 || (tgt = 3) != (op = 2) || (wf w 11 11 = 1 && !(op = 1 && decide (tgt < 2))) ||
      (wf w 10 10 = 1 && !gauges) || (op = 2 && (decide (8 < wf w 19 16) || wf w 27 20 ≠ 0)) ||
      (op ≠ 2 && wf w 27 16 = 0) ||
      (op ≠ 2 && decide (tgt < 2) && decide (98304 < wf w 39 28 * 32 + 64 * wf w 27 16)) ||
      (op ≠ 2 && tgt = 2 && decide (2 ^ 21 < wf w 43 28 * 32 + 64 * wf w 27 16))
  | 6 => false
  | 7 => false
  | 8 => wf w 22 0 ≠ 0
  | 14 => wf w 11 0 ≠ 0 || decide (3072 < wf w 35 24 + wf w 23 12)
  | 15 => wf w 59 0 ≠ 0
  | _ => true

/-- The wells an entry names (R248, R251). -/
def namedWells (w : W64) : List Nat :=
  let f := (coreWordOf w).foot
  wellsOf (Nat.lor f.wr f.ww)

/-- The rate class of the plan's passes, as its reduction of one pass (R244): of the first ARRAY word. -/
def Plan.passReduction (p : Plan) : Option Nat :=
  (p.body.find? (fun e => wf e.word 63 60 = 1)).map
    (fun e => if class4 (wf e.word 50 47) then 32 else if class16 (wf e.word 50 47) then 8 else 16)

/-- ACC of R249. -/
def Plan.acc (p : Plan) : Nat :=
  let inner := (p.order 3).dropWhile (fun d => p.role d ≠ 2)
  match inner with
  | [] => 1
  | _ => (inner.filter (fun d => p.role d ≠ 2)).foldl (fun n d => n * p.trip d 1) 1

/-- Accumulator sets in rotation (R249). -/
def Plan.sets (p : Plan) : Nat := if p.double then 2 else 1

/-- Well need (R249). -/
def Plan.wellNeed (p : Plan) : Nat := if p.rotate then p.fixedWells + p.acc * p.sets else p.fixedWells

/-- Does a level order name a dimension twice or one beyond NDIM, or hold a used position after an unused one. -/
def Plan.badOrder (p : Plan) (lv : Nat) : Bool :=
  let raw := p.levels.getD lv 0
  let o := orderOf raw
  !(o.all (fun d => decide (d < p.ndim))) || !decide o.Nodup || bits raw 31 26 ≠ 0 ||
    !((List.range 6).all (fun i => decide (i < o.length) || bits raw (23 - 4 * i) (20 - 4 * i) = 15))

/-- Two streams' buffers overlap. -/
def Plan.badStreams (p : Plan) : Bool :=
  p.streams.any (fun t => decide (98304 < t.base + t.nbuf * t.size)) ||
    (List.range p.streams.length).any (fun i => (List.range i).any (fun j =>
      match p.streams[i]?, p.streams[j]? with
      | some a, some b => overlap [(a.base, a.nbuf * a.size)] [(b.base, b.nbuf * b.size)]
      | _, _ => false))

/-- A descriptor slot at or above the length of the command's list (R243, R251). -/
def Plan.badSlots (p : Plan) (ndesc : Nat) : Bool := p.tensors.any (fun t => t ≠ 0xFF && decide (ndesc ≤ t))

/-- The checks of R251 on a plan's header, dimensions, levels and streams. `ord` is the layer's ordinal in its segment. -/
def Plan.badHeader (p : Plan) (ord : Nat) : Bool :=
  let dims := List.range p.ndim
  p.rsv || decide (5 < p.kind) || p.ndim = 0 || decide (6 < p.ndim) || decide (24 < p.fixedWells) ||
    decide (2 ^ p.fixedWells ≤ p.fixedLive) || decide (3 < p.yieldLevel) || p.jobItems = 0 || decide (64 < p.jobItems) ||
    decide (63 < p.counter) || p.nstream = 0 || decide (8 < p.nstream) || p.bodyWords = 0 || decide (64 < p.bodyWords) ||
    p.tables != (p.tableOff ≠ 0) ||
    p.dims.any (fun d => d.rsv || decide (3 < d.role) || decide (3 < d.tdim) || d.t.any (· = 0)) ||
    p.streams.any (fun t => t.rsv || decide (4 < t.role) || t.nbuf = 0 || decide (4 < t.nbuf) ||
      (t.pos ≠ 0xFF && decide ((p.order 3).length ≤ t.pos))) ||
    (List.range 4).any p.badOrder ||
    dims.any (fun d => (List.range 3).any (fun i => p.size d (i + 1) % Nat.max 1 (p.size d i) ≠ 0)) ||
    dims.any (fun d => (List.range 3).any (fun i =>
      !(p.order (3 - i)).contains d && p.size d (i + 1) ≠ p.size d i)) ||
    ((p.kind = 0 || p.kind = 3 || p.kind = 4) && dims.any (fun d =>
      match p.role d with
      | 0 => p.size d 0 ≠ 16
      | 1 => p.size d 0 ≠ 16
      | 2 => match p.passReduction with
        | some r => p.size d 0 ≠ r
        | none => p.size d 0 ≠ 8 && p.size d 0 ≠ 16 && p.size d 0 ≠ 32
      | _ => false)) ||
    (!p.partial_ && dims.any (fun d => p.role d = 2 && decide (p.size d 1 < p.size d 2))) ||
    ((p.order 2).dropWhile (fun d => p.role d ≠ 0)).any (fun d => p.role d ≠ 0) ||
    p.jobItems ≠ (p.order 2).foldl (fun n d => n * p.trip d 2) 1 ||
    p.badStreams || (List.range 64).any (fun i => bit p.depends i && decide (ord ≤ i))

/-- The checks of R251, R84, R129 and R288 on a body entry. -/
def Plan.badEntry (p : Plan) (gauges : Bool) (e : Entry16) : Bool :=
  e.rsv || decide (4 < e.when_) || decide (15 < e.patch) ||
    (bit e.patch 2 && decide (p.nstream ≤ e.sa)) || (bit e.patch 3 && decide (p.nstream ≤ e.sb)) ||
    (!bit e.patch 0 && (namedWells e.word).any (fun w => decide (p.fixedWells ≤ w))) ||
    badWord e gauges

/-- FMT_S of the last LOAD_STAT of a body. -/
def lastStat (body : List Entry16) : Option Nat :=
  body.foldl (fun a e => if wf e.word 63 60 = 2 then some (wf e.word 39 36) else a) none

/-- FMT_S of an ARRAY word with SWAP differs from that of the LOAD_STAT it swaps in (R129): the one before it in the body,
or, with none before it, the body's last, which the step before issued (DEDUCED; log 114). -/
def badSwap (body : List Entry16) : Bool :=
  (body.foldl
    (fun (a : Option Nat × Bool) e =>
      if wf e.word 63 60 = 2 then (some (wf e.word 39 36), a.2)
      else if wf e.word 63 60 = 1 ∧ wf e.word 51 51 = 1 then
        (a.1, a.2 || (match a.1 with | some f => f ≠ wf e.word 46 43 | none => false))
      else a) (lastStat body, false)).2

/-! ## Kind headers and tables -/

/-- A convolution header (R212, R220) at an address: its raw bytes. -/
def convGauges (h : List Byte) : Nat := field h 0x0E 2

def badConv (h : List Byte) (g : Nat) : Bool :=
  let r (o lo hi : Nat) : Bool := decide (field h o 1 < lo) || decide (hi < field h o 1)
  let fl := field h 6 1
  let load := bits (field h 7 1) 3 0
  let store := bits (field h 7 1) 7 4
  r 0 1 31 || r 1 1 31 || r 2 1 255 || r 3 1 255 || r 4 1 32 || r 5 1 32 || bits fl 7 4 ≠ 0 ||
    (bit fl 0 && (load = 0 || decide (3 < load))) || (!bit fl 0 && load ≠ 0) ||
    (bit fl 1 && (store = 0 || decide (3 < store))) || (!bit fl 1 && store ≠ 0) ||
    (bit fl 2 && !bit fl 0) || field h 8 2 % Nat.max 1 g ≠ 0 || field h 8 2 = 0 || field h 10 2 % 16 ≠ 0 ||
    field h 10 2 = 0 || (bit fl 1 && field h 10 2 % (4 ^ store) ≠ 0) ||
    decide (4096 < convGauges h) || field h 0x14 12 ≠ 0 ||
    (if g = 8 then field h 0x12 2 ≠ 0 else field h 0x11 3 ≠ 0 || (g = 32 && decide (15 < field h 0x10 1)))

/-- A regrouped source that breaks R220 or R219. -/
def badRegroup (h : List Byte) (d : Desc) : Bool :=
  let r := 2 ^ bits (field h 7 1) 3 0
  (d.format = 12 && !bit (field h 6 1) 2) || bit (field h 6 1) 0 &&
    ((r * r * d.allocAt 0 * halfBytes d.format) % 32 ≠ 0 || d.allocAt 2 % r ≠ 0 || d.allocAt 1 % r ≠ 0 ||
      field h 8 2 ≠ r * r * d.allocAt 0 || !(d.format = 12 || d.format = 4 || d.format = 2 || d.format = 3 || d.format = 5))

/-- Output extent of a convolution along one axis (R213). -/
def convOut (e k dil st : Nat) : Nat :=
  let k' := (k - 1) * dil + 1
  if e < k' then 0 else (e - k') / Nat.max 1 st + 1

/-- The extents a convolution sees: regrouped, with its border (R213, R220, R221). -/
def convExtent (h : List Byte) (e : Nat) (vert : Bool) : Nat :=
  let r := 2 ^ bits (field h 7 1) 3 0
  let e := if bit (field h 6 1) 0 then ceilDiv e r else e
  let b := field h 0x0C 2
  if bit (field h 6 1) 3 then e + (if vert then bits b 3 0 + bits b 7 4 else bits b 11 8 + bits b 15 12) else e

/-- Rows and columns of a convolution's output from its input's valid extents (dimension 2 rows, 1 columns, 0 channels:
log 7). -/
def convOH (h : List Byte) (d : Desc) : Nat :=
  convOut (convExtent h (d.validAt 2) true) (field h 0 1) (field h 4 1) (field h 2 1)
def convOW (h : List Byte) (d : Desc) : Nat :=
  convOut (convExtent h (d.validAt 1) false) (field h 1 1) (field h 5 1) (field h 3 1)

/-- Allocated extents too small for a convolution (R215), with the width's sum as the rule writes it: OW = 0 makes its
first term negative. -/
def shortConv (h : List Byte) (inp out : Desc) : Bool :=
  let ow := ceilDiv (convOW h inp) 16 * 16
  decide (((convExtent h (inp.allocAt 1) false : Nat) : Int) <
      ((ow : Int) - 1) * (field h 3 1 : Nat) + ((field h 1 1 : Nat) - 1) * (field h 5 1 : Nat) + 1) ||
    decide (convExtent h (inp.allocAt 2) true < convExtent h (inp.validAt 2) true) ||
    decide (out.allocAt 1 < ow) || decide (out.allocAt 2 < convOH h inp)

/-- FP32 nearest to 1 / n. -/
def invF32 (n : Nat) : Nat := if n = 0 then 0 else (fp32.encode .rne false 0 (quot false 1 n 0)).1

/-- A box-sampling header that breaks R223 by itself: a field out of range, or an inverse other than the one stated. -/
def badBoxHeader (h : List Byte) : Bool :=
  decide (1 < field h 0 1) || field h 1 1 = 0 || decide (64 < field h 1 1) || field h 2 1 = 0 ||
    decide (64 < field h 2 1) || field h 3 1 ≠ 0 || field h 0x10 16 ≠ 0 ||
    field h 8 4 ≠ invF32 (field h 1 1 - 1) || field h 0x0C 4 ≠ invF32 (field h 2 1 - 1)

/-- A box-sampling layer whose tensors break R223: its formats, or more than 65,536 boxes. -/
def badBox (src out : Nat) (boxes : Nat) : Bool :=
  !(src = 8 || src = 5 || src = 2 || src = 3) || !(out = 8 || out = 5 || out = 2) || decide (65536 < boxes)

/-- An element table image that breaks R134. -/
def badTable (t : List Byte) : Bool :=
  let finite (o : Nat) : Bool := match ofF32 (field t o 4) with | .fin .. => true | _ => false
  let brk (k : Nat) : Val := ofF32 (field t (8 + 4 * k) 4)
  let fold := field t 0 4 % 4
  !((List.range 15).all (fun k => finite (8 + 4 * k))) || !((List.range 32).all (fun k => finite (0x48 + 4 * k))) ||
    !finite 4 || (List.range 14).any (fun k => (brk (k + 1)).lt (brk k)) || fold = 3 || field t 0 4 / 4 ≠ 0 ||
    field t 0x44 4 ≠ 0 || field t 0xC8 56 ≠ 0 || (fold ≠ 0 && (brk 0).lt (.fin false 0 0))

/-- The tables of a layer's set: device addresses by FUNC. -/
def tableAt (im : ImageRef) (p : Plan) (func : Nat) : Option Nat :=
  if p.tables then Config.tableAddr im.desc im.version p.tableOff func else none

/-- BAD_TABLE: a table of the set, a DRAIN that names an empty slot (R134), an attention layer in compatibility mode
(R168). -/
def State.badTables (s : State) (im : ImageRef) (p : Plan) : Bool :=
  (List.range 8).any (fun i => match tableAt im p i with
    | some a => badTable (s.devRead a 256)
    | none => false) ||
    p.body.any (fun e => wf e.word 63 60 = 3 && decide (wf e.word 47 44 < 8) && (tableAt im p (wf e.word 47 44)).isNone) ||
    (p.kind = 2 && p.tables && Config.tableCompat im.desc im.version p.tableOff)

/-- An attention header outside R176. -/
def badAttn (im : ImageRef) (p : Plan) (psize : Nat) : Bool :=
  let f := Config.attnField im.desc im.version p.kindOff
  let w := if f 0 = 2 then 2 else 1
  decide (2 < f 0) || f 1 ≠ 1 || f 2 < 16 || decide (256 < f 2) || f 2 % 16 ≠ 0 || f 3 = 0 || decide (16 < f 3) ||
    !(f 4 = 1 || f 4 = 2 || f 4 = 4 || f 4 = 8 || f 4 = 16) || f 5 = 0 || decide (64 < f 5) || decide (4096 * 2 ^ psize < 64 * f 3 * f 2 * 2 * w)

/-! ## The grid of a layer -/

/-- Mixed-radix digits of an index over trip counts, outermost first. -/
def digits : List Nat → Nat → List Nat
  | [], _ => []
  | _ :: r, i =>
    let inner := r.foldl (· * ·) 1
    (i / Nat.max 1 inner) :: digits r (i % Nat.max 1 inner)

/-- Extent of a dimension: of the output tensor, of the moving tensor for a reduction (log 7). -/
def Plan.dimDesc (p : Plan) (descs : List Desc) (d : Nat) : Option Desc :=
  let m := descs[p.tensors.getD 0 0xFF]?
  let o := descs[p.tensors.getD 2 0xFF]?
  if p.role d = 2 then (match m with | some x => some x | none => o)
  else match o with | some x => some x | none => m

def Plan.tdim (p : Plan) (d : Nat) : Nat := (p.dims.getD d ⟨0, 0, [], false⟩).tdim

/-- Is dimension `d` a reduction that a kind header walks: the taps of a convolution, the pages of attention (R244). No
tensor extent bounds it. -/
def Plan.walkedDim (p : Plan) (d : Nat) : Bool := (p.kind = 1 || p.kind = 2) && p.role d = 2

/-- The plan dimensions that index the same tensor dimension as `d` does, ascending: the later ones are inner. -/
def Plan.sharing (p : Plan) (d : Nat) : List Nat :=
  (List.range p.ndim).filter (fun e => p.tdim e = p.tdim d && (p.role e = 2) == (p.role d = 2))

/-- The part of a tensor extent that falls to dimension `d`: all of it, where no other plan dimension has its TDIM; else
the inner dimensions span their T3 and the first of them the rest (DESIGN CHOICE: R244 gives one TDIM to each dimension and
does not say how two share one; log 7). -/
def Plan.extentPart (p : Plan) (d e : Nat) : Nat :=
  match p.sharing d with
  | f :: rest => if f = d then ceilDiv e (Nat.max 1 (rest.foldl (fun n x => n * p.size x 3) 1)) else p.size d 3
  | [] => e

def Plan.validOf (p : Plan) (descs : List Desc) (d : Nat) : Nat :=
  if p.walkedDim d then p.size d 3
  else match p.dimDesc descs d with | some x => p.extentPart d (x.validAt (p.tdim d)) | none => p.size d 3
def Plan.allocOf (p : Plan) (descs : List Desc) (d : Nat) : Nat :=
  if p.walkedDim d then p.size d 3
  else match p.dimDesc descs d with | some x => p.extentPart d (x.allocAt (p.tdim d)) | none => p.size d 3

/-- The index of a tensor's dimension `t` at an element origin of the plan: the dimensions that share a TDIM nest, the
later in the earlier. -/
def Plan.coord (p : Plan) (origin : List Nat) (t : Nat) : Nat :=
  ((List.range p.ndim).filter (fun d => p.role d ≠ 2 && p.tdim d = t)).foldl
    (fun n d => n * p.size d 3 + origin.getD d 0) 0

/-- Jobs in the grid that covers given extents: none where an extent is 0 (R240, R265). -/
def Plan.jobsOver (p : Plan) (ext : Nat → Nat) : Nat :=
  if (List.range p.ndim).any (fun d => ext d = 0) then 0
  else (p.order 0).foldl (fun n d => n * ceilDiv (ext d) (Nat.max 1 (p.size d 3))) 1 *
    (p.order 1).foldl (fun n d => n * p.trip d 3) 1

/-- Level-1 element origin of item `k` of job `j`, per dimension. -/
def Plan.itemOrigin (p : Plan) (ext : Nat → Nat) (j k : Nat) : List Nat :=
  let o0 := p.order 0
  let o1 := p.order 1
  let o2 := p.order 2
  let r1 := o1.map (fun d => p.trip d 3)
  let n1 := r1.foldl (· * ·) 1
  let g0 := digits (o0.map (fun d => ceilDiv (ext d) (Nat.max 1 (p.size d 3)))) (j / Nat.max 1 n1)
  let g1 := digits r1 (j % Nat.max 1 n1)
  let g2 := digits (o2.map (fun d => p.trip d 2)) k
  let at_ (o g : List Nat) (d : Nat) : Nat := ((o.zip g).find? (fun q => q.1 == d)).elim 0 (·.2)
  (List.range p.ndim).map (fun d => at_ o0 g0 d * p.size d 3 + at_ o1 g1 d * p.size d 2 + at_ o2 g2 d * p.size d 1)

/-- A tile that lies wholly at or beyond the valid extent in some dimension (R255). -/
def beyond (origin : List Nat) (ext : Nat → Nat) : Bool :=
  (List.range origin.length).any (fun d => decide (ext d ≤ origin.getD d 0))

/-- Half bytes of an element of an operand: as its descriptor says, and for a wellhead image, whose tensors have no
descriptor, as the words of the plan say (log 7): an input's of the class of its passes, the output's of its widest
DRAIN. -/
def Plan.operandHalf (p : Plan) (d : Option Desc) (slot : Nat) : Nat :=
  match d with
  | some d => halfBytes d.format
  | none =>
    if slot = 2 then (p.body.filter (fun e => wf e.word 63 60 = 3)).foldl
      (fun n e => Nat.max n (fmtBytes (wf e.word 54 51) 2)) 0
    else match p.passReduction with | some r => 32 / r | none => 0

/-- Level-2 tile bytes of a layer's operands (R283): moving, stationary, output and auxiliary. Which dimensions an operand
has is the model's reading (log 7): an auxiliary tensor those of its RANK. -/
def Plan.operandBytes (p : Plan) (descs : List Desc) (named : Bool) : Nat :=
  let part (slot : Nat) (roles : List Nat) : Nat :=
    let d := descs[p.tensors.getD slot 0xFF]?
    if d.isNone && named then 0
    else
      let dims := (List.range p.ndim).filter (fun i => roles.contains (p.role i) &&
        (slot ≠ 3 || match d with | some x => decide (p.tdim i < x.rank) | none => false))
      ceilDiv (dims.foldl (fun n i => n * p.size i 2) 1 * p.operandHalf d slot) 2
  part 0 [0, 2, 3] + part 1 [1, 2] + part 2 [0, 1, 3] + (if named then part 3 [0, 1, 2, 3] else 0)

/-- The elements of the layer's atomic tensor that a plan updates by an operation whose result depends on order: FADD32,
MAX32 and MIN32 (R295). REMOTE is no field that PATCH replaces, so every item that issues the entry updates that one
element. -/
def Plan.orderedAtomics (p : Plan) : List Nat :=
  (p.body.filter (fun e => wf e.word 63 60 = 5 && wf e.word 59 58 = 2 && decide (2 ≤ wf e.word 19 16) &&
    decide (wf e.word 19 16 ≤ 4))).map (fun e => wf e.word 43 28)

/-- May a plan have more than one item: several in a job, several jobs in a level-3 tile, or a level-3 tile per index of
an outer loop (R240). -/
def Plan.manyItems (p : Plan) : Bool :=
  decide (1 < p.jobItems) || (p.order 1).any (fun d => decide (1 < p.trip d 3)) || p.order 0 ≠ []

/-- Do the plans issue FADD32, MAX32 or MIN32 on an element that more than one item writes (R295, R389). -/
def sharesAtomics (ps : List Plan) : Bool :=
  ps.any (fun p => p.orderedAtomics ≠ [] && p.manyItems) ||
    (List.range ps.length).any (fun i => (List.range i).any (fun j => match ps[i]?, ps[j]? with
      | some a, some b => a.tensors.getD 3 0xFF = b.tensors.getD 3 0xFF &&
          a.orderedAtomics.any (fun x => b.orderedAtomics.contains x)
      | _, _ => false))

/-- Does a layer read weights through the window: a stationary operand that is an input of the command (R320; log 7). -/
def Plan.weightSlot (p : Plan) (outs : List Bool) : Option Nat :=
  let t := p.tensors.getD 1 0xFF
  if p.kind ≠ 2 ∧ t ≠ 0xFF ∧ outs.getD t true = false then some t else none

/-! ## Valid extents along a command (R213, R214, R254) -/

/-- A descriptor's valid extents replaced in the dimensions given. -/
def Desc.withValid (d : Desc) (v : List (Nat × Nat)) : Desc :=
  { d with valid := v.foldl (fun l p => l.set p.1 p.2) d.valid }

def Desc.emptyValid (d : Desc) : Bool := (List.range d.rank).any (fun i => d.validAt i = 0)

/-- The command's descriptors as a layer fixes them when it starts: a convolution's output takes OH and OW, times the store
factor (dimension 2 rows, 1 columns, log 7; R213, R222); a layer whose input has a zero valid extent gives its output that
extent (log 31). -/
def State.afterLayer (s : State) (base : Nat) (ds : List Desc) (p : Plan) : List Desc :=
  let m := p.tensors.getD 0 0xFF
  let o := p.tensors.getD 2 0xFF
  match ds[m]?, ds[o]? with
  | some d, some e =>
    if d.emptyValid then
      ds.set o (e.withValid (((List.range d.rank).filter (fun i => d.validAt i = 0)).map (fun i => (i, 0))))
    else if p.kind = 1 then
      let h := s.devRead (base + p.kindOff) 32
      let r := if bit (field h 6 1) 1 then 2 ^ bits (field h 7 1) 7 4 else 1
      ds.set o (e.withValid [(1, r * convOW h d), (2, r * convOH h d)])
    else ds
  | _, _ => ds

/-- The descriptors as each layer of a list finds them, the layers before it having fixed theirs. -/
def State.descsAlong (s : State) (base : Nat) (ds : List Desc) : List Plan → List (List Desc)
  | [] => []
  | p :: r => ds :: s.descsAlong base (s.afterLayer base ds p) r

/-! ## The checks of a layer -/

/-- Every check of a plan that looks at the plan alone (R84, R129, R134, R168, R176, R212, R223, R249 to R251, R288).
`ord` is the layer's ordinal in the command, `inSeg` that within its segment, from which DEPENDS counts. -/
def State.planFails (s : State) (im : ImageRef) (base ord inSeg : Nat) (p : Plan) : List Fail :=
  let kh := s.devRead (base + p.kindOff) 32
  let gauges := p.kind = 1 && decide (0 < convGauges kh)
  let g := match p.passReduction with | some r => r | none => 16
  failIf (p.badHeader inSeg) { code := 0x43, layer := ord } ++
    ((List.range p.body.length).flatMap (fun i => match p.body[i]? with
      | some e => failIf (p.badEntry gauges e) { code := 0x43, layer := ord, entry := i }
      | none => [])) ++
    failIf (badSwap p.body) { code := 0x43, layer := ord } ++
    failIf (decide (24 < p.wellNeed)) { code := 0x44, layer := ord } ++
    failIf (p.kind = 1 && badConv kh g) { code := 0x46, layer := ord } ++
    failIf (p.kind = 5 && badBoxHeader kh) { code := 0x46, layer := ord } ++
    failIf (p.kind = 2 && badAttn im p (s.fld F.KVP_CFG.PSIZE)) { code := 0x43, layer := ord } ++
    failIf (s.badTables im p) { code := 0x47, layer := ord }

/-- The checks of a plan against the command's descriptors (R215, R220, R223, R253, R317, R322). -/
def State.tensorFails (s : State) (base ord : Nat) (p : Plan) (descs : List Desc) (outs : List Bool) : List Fail :=
  let kh := s.devRead (base + p.kindOff) 32
  let m := descs[p.tensors.getD 0 0xFF]?
  let o := descs[p.tensors.getD 2 0xFF]?
  let ring := 4 * s.fld F.PDIE_WIN_SIZE.SIZE * 65536
  failIf (p.badSlots descs.length) { code := 0x43, layer := ord } ++
    failIf (p.kind ≠ 1 && (List.range p.ndim).any (fun d => p.allocOf descs d % Nat.max 1 (p.size d 0) ≠ 0))
      { code := 0x45, layer := ord } ++
    (match m, o with
     | some m, some o =>
       failIf (p.kind = 1 && shortConv kh m o) { code := 0x45, layer := ord } ++
         failIf (p.kind = 1 && badRegroup kh m) { code := 0x46, layer := ord } ++
         failIf (p.kind = 5 && badBox m.format o.format
             (match descs[p.tensors.getD 3 0xFF]? with | some b => b.allocAt 1 | none => 0))
           { code := 0x46, layer := ord }
     | _, _ => []) ++
    ((List.range 4).flatMap (fun i => match descs[p.tensors.getD i 0xFF]? with
      | some d => failIf (d.compress ≠ 0 && outs.getD (p.tensors.getD i 0) true = false && i ≠ 1)
          { code := 0x42, layer := ord, slot := p.tensors.getD i 0xFF }
      | none => [])) ++
    (match p.weightSlot outs with
     | some t => match descs[t]? with
       | some d => failIf (decide (ring < d.allocLen)) { code := 0x49, layer := ord, slot := t }
       | none => []
     | none => [])

end Sys2Proof.Machine
end

