-- ==== Sys2Proof/Machine/Check.lean ====
section
/-! DEFINITION. Command records (10_queues.md "Command records", 02_rollouts.md "Command formats") and the acceptance
check of R32 on them (R79, R383 to R386, R390, R391, R578). -/

namespace Sys2Proof.Machine

/-! ## The fields of records -/

def recClass (r : List Byte) : Nat := field r 0 1
def recIntr (r : List Byte) : Bool := bit (field r 1 1) 0
def recFenceStart (r : List Byte) : Bool := bit (field r 1 1) 1
def recFenceValid (r : List Byte) : Bool := bit (field r 2 2) 15
def recFenceQ (r : List Byte) : Nat := bits (field r 2 2) 11 0
def recFenceSeq (r : List Byte) : Nat := field r 4 4
def recSeed (r : List Byte) : W32 := BitVec.ofNat 32 (field r 8 4)
def recTag (r : List Byte) : Nat := field r 0xC 4
def recOp (r : List Byte) : Nat := field r 0x10 1

/-- The kind of command a record asks for (table "Command header"; R78), none for a reserved class or operation. -/
def recKind (r : List Byte) : Option Kind :=
  match recClass r with
  | 1 => some .run
  | 2 => match recOp r with
    | 1 => some .open_ | 2 => some .step | 3 => some .fork | 4 => some .prune | 5 => some .close | _ => none
  | 3 => match recOp r with
    | 0 => some .move | 1 => some .checkpoint | _ => none
  | 4 => some .reduce
  | 5 => some .barrier
  | _ => none

/-- The device address of the image descriptor: address bits [39:8]. -/
def recImage (r : List Byte) (off : Nat) : Nat := field r off 4 * 256

/-- Zero bytes where a record reserves them. -/
def zeros (r : List Byte) (off n : Nat) : Bool := field r off n = 0

/-- Reserved fields and ranges of a record's own fields (BAD_RECORD; R79). -/
def badRecord (r : List Byte) : Bool :=
  bits (field r 1 1) 7 2 ≠ 0 || bits (field r 2 2) 14 12 ≠ 0 ||
    match recKind r with
    | none => true
    | some .run => field r 0x16 2 = 0 || decide (256 < field r 0x16 2) || !zeros r 0x20 32
    | some .move => !zeros r 0x11 7 || !zeros r 0x28 24
    | some .checkpoint => !zeros r 0x11 7 || !zeros r 0x28 24
    | some .reduce => field r 0x10 1 = 0 || decide (16 < field r 0x10 1) || !zeros r 0x11 7 || !zeros r 0x30 16
    | some .barrier => !zeros r 0x10 48
    | some .open_ =>
      field r 0x12 2 = 0 || decide (4096 < field r 0x12 2) || field r 0x14 2 = 0 || decide (field r 0x16 2 < 64) ||
        decide (2 < field r 0x18 1) || decide (3 < field r 0x19 1) || bits (field r 0x1A 2) 15 4 ≠ 0 || !zeros r 0x3C 4
    | some .step => field r 0x11 1 = 0 || !zeros r 0x12 6
    | some .fork =>
      field r 0x14 1 = 0 || decide (64 < field r 0x14 1) || bits (field r 0x15 1) 7 1 ≠ 0 || !zeros r 0x16 2 ||
        !zeros r 0x1C 4 || !zeros r 0x28 24 || decide (2 ^ 40 ≤ field r 0x20 8)
    | some .prune =>
      field r 0x12 2 = 0 || decide (4096 < field r 0x12 2) || !zeros r 0x14 4 || !zeros r 0x28 24 ||
        decide (2 ^ 40 ≤ field r 0x20 8)
    | some .close => !zeros r 0x12 46

/-! ## What a command names -/

/-- A tensor a command names: its descriptor's address, and the storage of the new version where it is an output. -/
structure Named where
  addr : Nat
  out  : Option Nat := none
  listBad : Bool := false
deriving DecidableEq, Repr

/-- A descriptor list entry (10_queues.md). -/
def listEntry (b : List Byte) : Named :=
  let a := field b 0 8
  let st := field b 8 8
  { addr := bits a 39 0
    out := if bit a 63 then some st else none
    listBad := bits a 62 40 ≠ 0 || (!bit a 63 && st ≠ 0) || decide (2 ^ 52 ≤ st) }

/-- The tensors a record names, in the slot order of R391. -/
def State.named (s : State) (r : List Byte) : List Named :=
  match recKind r with
  | some .run =>
    (List.range (Nat.min 256 (field r 0x16 2))).map (fun i => listEntry (s.devRead (field r 0x18 8 + 16 * i) 16))
  | some .move =>
    [{ addr := field r 0x18 8 },
     { addr := field r 0x20 8, out := some (descOf (s.devRead (field r 0x20 8) 64)).addr }]
  | some .checkpoint =>
    [{ addr := field r 0x18 8 },
     { addr := field r 0x20 8, out := some (descOf (s.devRead (field r 0x20 8) 64)).addr }]
  | some .reduce =>
    { addr := field r 0x18 8 } :: (List.range (Nat.min 16 (field r 0x10 1))).map
      (fun i => { addr := leNat (s.devRead (field r 0x28 8 + 8 * i) 8) })
  | some .open_ =>
    { addr := field r 0x28 8 } :: (if field r 0x30 8 = 0 then []
      else [{ addr := field r 0x30 8, out := some (descOf (s.devRead (field r 0x30 8) 64)).addr }])
  | some .step => if field r 0x18 8 = 0 then [] else [{ addr := field r 0x18 8 }]
  | some .prune => if field r 0x18 8 = 0 then [] else [{ addr := field r 0x18 8 }]
  | _ => []

/-- Is the tensor the trajectory tensor of a group that is not CLOSED (R77). -/
def State.isTraj (s : State) (a : Nat) : Bool := s.wh.groups.any (fun g => g.2.state ≠ 0 && g.2.traj = a && a ≠ 0)

/-- The list a record names: address, length, alignment. -/
def recList (r : List Byte) : Option (Nat × Nat × Nat) :=
  match recKind r with
  | some .run => some (field r 0x18 8, 16 * Nat.min 256 (field r 0x16 2), 16)
  | some .reduce => some (field r 0x28 8, 8 * Nat.min 16 (field r 0x10 1), 8)
  | _ => none

/-- The descriptor faults of one named tensor by its role in the command (R77, R384, R386). -/
def State.roleFails (s : State) (r : List Byte) (i : Nat) (n : Named) : List Fail :=
  let d := descOf (s.devRead n.addr 64)
  let f : Fail := { code := 0x42, slot := i }
  failIf (match recKind r with
    | some .run => d.home = 2 && n.out.isNone
    | some .checkpoint => d.home = 2 || (i = 1 && d.home ≠ 3)
    | _ => d.home = 2) f ++
  failIf (s.isTraj n.addr && (n.out.isSome || (recKind r = some .move && i = 0) ||
      (recKind r = some .reduce && i = 0))) f

/-- The descriptor faults of a REDUCE (R325, R326). -/
def State.reduceFails (s : State) (ctx : Nat) (r : List Byte) : List Fail :=
  let ns := s.named r
  let t := descOf (s.devRead (field r 0x18 8) 64)
  let stage := field r 0x20 8
  let hit (a n : Nat) : Bool := overlap [(stage, t.allocLen)] [(a, n)]
  failIf (t.home ≠ 0 || t.compress ≠ 0 || !(t.format = 8 || t.format = 5 || t.format = 10 || t.format = 11))
      { code := 0x42, slot := 0 } ++
    failIf (stage / 2 ^ 36 ≠ t.addr / 2 ^ 36 || !s.devOwned stage t.allocLen ctx || hit t.addr t.allocLen)
      { code := 0x42, slot := 0 } ++
    ((List.range ns.length).flatMap (fun i =>
      if i = 0 then [] else match ns[i]? with
      | none => []
      | some n =>
        let d := descOf (s.devRead n.addr 64)
        let w40 := t.format = 8 && d.format = 9
        let rows := d.allocAt 1 * d.allocAt 2 * d.allocAt 3
        failIf (d.rank ≠ t.rank || d.alloc.take d.rank != t.alloc.take t.rank ||
            d.valid.take d.rank != t.valid.take t.rank || !(d.format = t.format || w40) ||
            (d.format = 9 && (d.allocAt 0 % 16 ≠ 0 || rows % 16 ≠ 0)))
          { code := 0x42, slot := i } ++
        failIf (d.home = 0 && hit d.addr d.storedLen) { code := 0x42, slot := 0 }))

/-! ## Images -/

/-- The plans of a segment of an image, with their device addresses (log 7). -/
def State.plansOf (s : State) (im : ImageRef) (segment : Nat) : List Plan :=
  (Config.imagePlans im.desc im.version segment).map
    (fun a => s.planAt (Config.imageBase im.desc im.version) a)

/-- Faults of the image itself: its descriptor (R578, R309) and BAD_IMAGE. -/
def State.imageFails (s : State) (ctx desc segment : Nat) : List Fail :=
  let im := s.imageRef desc
  s.descFails ctx 0xFF desc none ++
    failIf ((descOf (s.devRead desc 64)).format ≠ 13 || decide (Config.imageSegments im.desc im.version ≤ segment))
      { code := 0x4A }

/-- The image a record names and the segment of it, with the key under which its checked plans are kept (R252). -/
def State.imageKey (s : State) (r : List Byte) : Option (Nat × Nat × Nat) :=
  match recKind r with
  | some .run => let im := s.imageRef (recImage r 0x10); some (im.desc, im.version, field r 0x14 2)
  | some .open_ => let im := s.imageRef (recImage r 0x1C); some (im.desc, im.version, 0x10000)
  | _ => none

/-- Are the plans of the image a record names kept as checked (R252). -/
def State.imageKept (s : State) (r : List Byte) : Bool :=
  match s.imageKey r with
  | some k => s.cq.checked.contains k
  | none => false

/-- Gauges of the layers of some plans (R212). -/
def State.planGauges (s : State) (base : Nat) (ps : List Plan) : Nat :=
  ps.foldl (fun n p => if p.kind = 1 then n + convGauges (s.devRead (base + p.kindOff) 32) else n) 0

/-- The plans of segments with their ordinals over all of them and within their segment. -/
def State.segPlans (s : State) (im : ImageRef) (segs : List Nat) : List (Nat × Nat × Plan) :=
  (segs.filter (fun g => decide (g < Config.imageSegments im.desc im.version))).foldl (fun a g => a ++ (let ps := s.plansOf im g
    (List.range ps.length).filterMap (fun i => (ps[i]?).map (fun p => (a.length + i, i, p))))) []

/-- The checks of an image's plan records, made once for each image (R252; R84, R129, R134, R168, R176, R212, R223, R249
to R251, R288). -/
def State.recordFails (s : State) (im : ImageRef) (segs : List Nat) : List Fail :=
  let base := Config.imageBase im.desc im.version
  let ps := s.segPlans im segs
  ps.flatMap (fun x => s.planFails im base x.1 x.2.1 x.2.2) ++
    failIf (decide (4096 < s.planGauges base (ps.map (·.2.2)))) { code := 0x46 }

/-- The checks of a RUN's plans against its tensor descriptors (R215, R253, R254, R283, R322), each layer's with the valid
extents that the layers before it fix. -/
def State.runPlanFails (s : State) (r : List Byte) : List Fail :=
  let im := s.imageRef (recImage r 0x10)
  let base := Config.imageBase im.desc im.version
  let ns := s.named r
  let descs := ns.map (fun n => descOf (s.devRead n.addr 64))
  let outs := ns.map (fun n => n.out.isSome)
  let plans := s.plansOf im (field r 0x14 2)
  let along := s.descsAlong base descs plans
  let cl := descs.foldl (fun n d => if d.home = 2 then n + d.allocLen else n) 0
  let big := plans.foldl (fun n p => Nat.max n (p.operandBytes descs true)) 0
  ((List.range plans.length).flatMap (fun i => match plans[i]? with
    | some p => s.tensorFails base i p (along.getD i descs) outs
    | none => [])) ++
    failIf (decide (2 ^ 21 < cl + 2 * big)) { code := 0x48 }

/-- The step segments of a wellhead image that a group runs: DYN, ATT, HEADS, and DEC with FLAGS.DECODE (R48). -/
def whSegments (decode : Bool) : List Nat := if decode then [0, 1, 2, 3] else [0, 1, 2]

/-- The checks of a wellhead image's plans against what its groups run: atomics whose result depends on order (R295), and
the cluster stores (R283). -/
def State.whPlanFails (s : State) (im : ImageRef) (segs : List Nat) : List Fail :=
  let plans := (s.segPlans im segs).map (·.2.2)
  let big := plans.foldl (fun n p => Nat.max n (p.operandBytes [] false)) 0
  failIf (sharesAtomics plans) { code := 0x43 } ++ failIf (decide (2 ^ 21 < 2 * big)) { code := 0x48 }

/-- The groups a STEP's mask names, ascending. -/
def stepMask (r : List Byte) : List Nat := (List.range 256).filter (fun g => bit (field r (0x20 + g / 8) 1) (g % 8))

/-- ACTIONS of a STEP and SCORES of a PRUNE against the modes of the groups named, as far as these are not CLOSED: required in
HOST mode, else 0 (tables "STEP" and "PRUNE"; R79). The mode of a group that is CLOSED now is not known at acceptance, and
the wellhead's status codes have none for this, so its command is not tested (DESIGN CHOICE; log 120). -/
def State.badMode (s : State) (r : List Byte) : Bool :=
  let named := field r 0x18 8 ≠ 0
  match recKind r with
  | some .step =>
    let gs := stepMask r
    let host := gs.any (fun g => (s.group g).state ≠ 0 && (s.group g).actionMode = 2)
    (host && !named) || (named && !host && gs.all (fun g => (s.group g).state ≠ 0))
  | some .prune =>
    let x := s.group (field r 0x11 1)
    x.state ≠ 0 && (x.scoreMode = 3) != named
  | _ => false

/-! ## The whole check -/

/-- Is the block that a class needs disabled (DISABLED; R79, R476). -/
def State.disabledFor (s : State) (r : List Byte) : Bool :=
  s.tm.power = .minimal || (recClass r = 2 && s.fld F.WH_CFG.ENABLE = 0)

/-- The acceptance check of R32 for a command of a context: the refusal, if any. -/
def State.refusal (s : State) (ctx : Nat) (r : List Byte) : Option Fail :=
  if badRecord r || s.badMode r then some { code := 0x40 }
  else if s.disabledFor r then some { code := 0x41 }
  else
    let ns := s.named r
    let listFail : List Fail := match recList r with
      | some (a, n, al) => failIf (a % al ≠ 0 || !s.devOwned a n ctx) { code := 0x42 }
      | none => []
    let descFails := (List.range ns.length).flatMap (fun i => match ns[i]? with
      | some n => failIf n.listBad { code := 0x42, slot := i } ++ s.descFails ctx i n.addr n.out ++ s.roleFails r i n
      | none => [])
    let more : List Fail := match recKind r with
      | some .run =>
        s.imageFails ctx (recImage r 0x10) (field r 0x14 2) ++
          (if s.imageKept r then [] else s.recordFails (s.imageRef (recImage r 0x10)) [field r 0x14 2]) ++ s.runPlanFails r
      | some .reduce => s.reduceFails ctx r
      | some .open_ =>
        let im := s.imageRef (recImage r 0x1C)
        s.imageFails ctx (recImage r 0x1C) 0 ++
          (if s.imageKept r then [] else s.recordFails im (whSegments true)) ++
          s.whPlanFails im (whSegments (bit (field r 0x1A 2) 1))
      | some .step => (stepMask r).flatMap (fun g =>
          let x := s.group g
          if x.state = 0 then [] else s.whPlanFails ⟨x.image, x.imageVersion⟩ (whSegments (bit x.flags 1)))
      | _ => []
    lowest (listFail ++ descFails ++ more)

end Sys2Proof.Machine
end

