-- ==== Sys2Proof/Machine/Pool.lean ====
section
/-! DEFINITION. The page pool, page-table images, reference counts and generations, and software edits
(05_attention.md; R179 to R207). -/

namespace Sys2Proof.Machine

/-! ## Pages -/

/-- Pages of region r. -/
def State.regionCount (s : State) (r : Nat) : Nat := s.fld F.KVP_REG_COUNT.N 0 r
def State.regionBase (s : State) (r : Nat) : Nat := s.fld F.KVP_REG_BASE.BASE 0 r * 4096

/-- The first page of region r (R180). -/
def State.regionStart (s : State) (r : Nat) : Nat := (List.range r).foldl (fun n i => n + s.regionCount i) 0

def State.pageTotal (s : State) : Nat := s.regionStart 12
def State.pageSize (s : State) : Nat := 4096 * 2 ^ s.fld F.KVP_CFG.PSIZE

/-- The region of a page. -/
def State.pageRegion (s : State) (p : Nat) : Nat :=
  ((List.range 12).find? (fun r => decide (p < s.regionStart r + s.regionCount r))).getD 0

/-- The device address of a page (R180). -/
def State.pageAddr (s : State) (p : Nat) : Nat :=
  let r := s.pageRegion p
  s.regionBase r + (p - s.regionStart r) * s.pageSize

def State.pageCount (s : State) (p : Nat) : Nat := look 0 s.kv.pgCount p
def State.setPageCount (s : State) (p n : Nat) : State := { s with kv.pgCount := put 0 s.kv.pgCount p n }

def State.holdsObj (s : State) (o : Obj) : Bool := s.kv.holding.any (fun h => h.2 == o)

/-- Is a page on its free list: no holder lists it, no running command staged it, and it waits for no generation
(R185, R193, R194). -/
def State.pageIsFree (s : State) (p : Nat) : Bool :=
  s.pageCount p = 0 && !s.kv.pgStaged.contains p && !s.holdsObj (.page p)

/-- Pages that are not free. -/
def State.pagesUsed (s : State) : List Nat :=
  ((s.kv.pgCount.map (·.1)) ++ s.kv.pgStaged ++
    s.kv.holding.filterMap (fun h => match h.2 with | .page p => some p | .block _ => none)).dedup

/-- Pages on the free lists, and those less the reservations of running commands (KVP_FREE). -/
def State.pagesFree (s : State) : Nat :=
  if s.fld F.KVP_CFG.ENABLE = 1 then s.pageTotal - s.pagesUsed.length else 0

def State.kvpFree (s : State) : Nat := s.pagesFree - s.cq.cmds.foldl (fun n c => n + c.reserved) 0

def State.kvpHeld (s : State) : Nat :=
  (s.kv.holding.filter (fun h => match h.2 with | .page _ => true | .block _ => false)).length

/-- KVP_FREE fell below the low-water mark (KVP_INT_STATUS.LOW). -/
def State.lowCheck (s : State) (before : Nat) : State :=
  let m := s.fld F.KVP_LOW_MARK.N
  if m ≤ before ∧ s.kvpFree < m then s.setInt F.KVP_INT_STATUS.LOW else s

/-- The k-th free page of a region. -/
def State.nthFreePage (s : State) (r k : Nat) : Option Nat :=
  ((List.range (s.regionCount r)).filter (fun i => s.pageIsFree (s.regionStart r + i)))[k]?.map (fun i => s.regionStart r + i)

def State.regionFree (s : State) (r : Nat) : Nat :=
  ((List.range (s.regionCount r)).filter (fun i => s.pageIsFree (s.regionStart r + i))).length

/-- A page's record (R183): STAGED, OWNER. NEXT links the free lists, whose order is free (log 6). -/
def State.writePageRecord (s : State) (p : Nat) : State :=
  s.devWrite (s.fld F.KVP_REC_BASE.BASE * 4096 + 8 * p + 3)
    (toLE 1 (b2n (s.kv.pgStaged.contains p)) ++ toLE 2 (look 0xFFFE s.kv.pgOwner p))

/-- A page taken from the next region with a free one (R182), for a context: zeroed where another context wrote it last
(R184), staged, with its first holder counted (R185, R193). Which page of the region is free (log 6). -/
def State.takePage (s : State) (ctx : Nat) : Option (Nat × State) :=
  match ((List.range 12).map (fun i => (s.kv.rotor + i) % 12)).find? (fun r => decide (0 < s.regionFree r)) with
  | none => none
  | some r =>
    match s.nthFreePage r (Config.pick s.free % s.regionFree r) with
    | none => none
    | some p =>
      let foreign := look 0xFFFE s.kv.pgOwner p ≠ ctx
      let s : State := { s with free := s.free + 1 }
      let s := if foreign then
          ((s.devWrite (s.pageAddr p) (List.replicate s.pageSize 0)).addCnt C.KVP_CNT_ZEROED 1).addCnt
            C.HBMC_CNT_ZEROED s.pageSize (s.pageAddr p / 2 ^ 36)
        else s
      let s := (s.setPageCount p 1).addCnt C.KVP_CNT_TAKEN 1
      let s : State :=
        { s with
          kv.rotor := (r + 1) % 12
          kv.pgStaged := p :: s.kv.pgStaged
          kv.pgOwner := put 0xFFFE s.kv.pgOwner p ctx }
      some (p, s.writePageRecord p)

/-! ## State blocks -/

def State.sbTotal (s : State) : Nat := s.fld F.WH_SP_COUNT.N
def State.sbSize (s : State) : Nat := s.fld F.WH_SP_CFG.BSIZE * 256
def State.sbAddr (s : State) (k : Nat) : Nat := s.fld F.WH_SP_BASE.BASE * 4096 + k * s.sbSize
def State.sbCountOf (s : State) (k : Nat) : Nat := look 0 s.wh.sbCount k

def State.sbIsFree (s : State) (k : Nat) : Bool :=
  s.sbCountOf k = 0 && !s.wh.sbStaged.contains k && !s.holdsObj (.block k)

def State.sbFreeList (s : State) : List Nat := (List.range s.sbTotal).filter s.sbIsFree

/-- A free state block taken and staged with one holder. Which one is free (log 6). -/
def State.takeBlock (s : State) : Option (Nat × State) :=
  match s.sbFreeList[Config.pick s.free % Nat.max 1 s.sbFreeList.length]? with
  | none => none
  | some k =>
    some (k, { s with free := s.free + 1, wh.sbCount := put 0 s.wh.sbCount k 1, wh.sbStaged := k :: s.wh.sbStaged })

/-! ## Counts and generations -/

/-- A count change queued for the reference engine (R47). -/
def State.queueRef (s : State) (u : RefUpd) : State := { s with kv.refq := s.kv.refq ++ [u] }

/-- References dropped through a change that carries an epoch (R191). -/
def State.dropRefs (s : State) (tag : Nat) (os : List Obj) : State :=
  os.foldl (fun s o => s.queueRef { obj := o, add := false, n := 1, tag := tag }) s

/-- KVP_EPOCH increases by one (R191). -/
def State.nextEpoch (s : State) : State :=
  let s : State := { s with kv.epoch := s.kv.epoch + 1 }
  s.setCnt C.KVP_EPOCH s.kv.epoch

/-- Objects of a command that was the only one to see them return to their free lists (R193, R195). -/
def State.unstage (s : State) (os : List Obj) : State :=
  os.foldl
    (fun s o => match o with
      | .page p =>
        let s : State := { s with kv.pgStaged := s.kv.pgStaged.filter (· != p) }
        let s := if s.pageCount p = 0 then s.addCnt C.KVP_CNT_RETURNED 1 else s
        s.writePageRecord p
      | .block k => { s with wh.sbStaged := s.wh.sbStaged.filter (· != k) }) s

/-- An object's count set, whatever it is. -/
def State.objCount (s : State) (o : Obj) : Nat :=
  match o with | .page p => s.pageCount p | .block k => s.sbCountOf k

def State.setObjCount (s : State) (o : Obj) (n : Nat) : State :=
  match o with
  | .page p => s.setPageCount p n
  | .block k => { s with wh.sbCount := put 0 s.wh.sbCount k n }

def State.objStaged (s : State) (o : Obj) : Bool :=
  match o with | .page p => s.kv.pgStaged.contains p | .block k => s.wh.sbStaged.contains k

/-- An object enters the holding list, in one of at most 64 batches by epoch: a 65th tag joins the newest (R194). -/
def State.hold (s : State) (tag : Nat) (o : Obj) : State :=
  let tags := (s.kv.holding.map (·.1)).dedup
  if tags.contains tag ∨ tags.length < 64 then { s with kv.holding := s.kv.holding ++ [(tag, o)] }
  else
    let newest := tags.foldl Nat.max 0
    { s with kv.holding := s.kv.holding.map (fun h => if h.1 = newest then (tag, h.2) else h) ++ [(tag, o)] }

/-- One count change applied (R47, R185): an object whose count reaches zero enters the holding list, unless a running
command has it staged (R193, R194). -/
def State.applyRef (s : State) (u : RefUpd) : State :=
  let n := s.objCount u.obj
  let m := if u.add then n + u.n else n - u.n
  let s := s.setObjCount u.obj m
  if m = 0 ∧ n ≠ 0 ∧ !s.objStaged u.obj then s.hold u.tag u.obj else s

/-- The reference engine applies the oldest queued change. -/
def State.countUpdate (s : State) : State :=
  if s.runs 313 then
    match s.kv.refq with
    | [] => s
    | u :: r => ({ s with kv.refq := r } : State).applyRef u
  else s

def execCountUpdate (s : State) : Host.Outcome State Fault Refusal := .next s.countUpdate

/-- The base epochs of the running commands (R192). -/
def State.baseEpochs (s : State) : List Nat := s.cq.cmds.filterMap (fun c => c.epoch)

/-- The oldest held object whose tag no running command's base epoch is below returns to its free list (R194). -/
def State.holdingReturn (s : State) : State :=
  if s.runs 313 then
    match s.kv.holding.find? (fun h => s.baseEpochs.all (fun b => decide (h.1 ≤ b))) with
    | none => s
    | some h =>
      let s : State := { s with kv.holding := s.kv.holding.erase h }
      match h.2 with
      | .page _ => s.addCnt C.KVP_CNT_RETURNED 1
      | .block _ => s
  else s

def execHoldingReturn (s : State) : Host.Outcome State Fault Refusal := .next s.holdingReturn

/-! ## Page-table images -/

/-- Entries in use per layer. -/
def Image.count (im : Image) : Nat := (im.entries.headD []).length

/-- Fills of the entries, the same in every layer (R187, R189). -/
def Image.fills (im : Image) : List Nat := (im.entries.headD []).map Entry.fill

/-- The pages an image lists: EVICTED entries list none. -/
def Image.pages (im : Image) : List Nat :=
  im.entries.flatMap (fun l => (l.filter (fun e => !e.evicted)).map Entry.page)

/-- The bytes of an entry (R187), and of an image (table "Page-table image"). -/
def Entry.bytes (e : Entry) : List Byte := toLE 4 (e.page % 2 ^ 24 + (e.fill - 1) % 64 * 2 ^ 24 + b2n e.evicted * 2 ^ 30)

def Image.bytes (im : Image) : List Byte :=
  let pad (l : List Entry) (f : Entry → List Byte) (w : Nat) : List Byte :=
    l.flatMap f ++ List.replicate (w * (im.cap - l.length)) 0
  layout 64
    [(0, 4, im.gen), (4, 2, im.layers), (6, 2, im.cap), (8, 2, im.count), (10, 1, im.kvh),
     (11, 1, b2n im.scored + 2 * b2n im.tailSealed), (12, 4, im.firstPos), (0x10, 4, im.positions),
     (0x14, 4, im.windowStart)] ++
    im.entries.flatMap (fun l => pad l Entry.bytes 4) ++
    (if im.scored then im.entries.flatMap (fun l => pad l (fun e => toLE 2 e.score.toNat) 2) else [])

/-- Bytes an image may take (R189). -/
def imageNeed (layers cap : Nat) (scored : Bool) : Nat := 64 + layers * cap * (if scored then 6 else 4)

/-- The address of an image slot (R186). -/
def State.slotAddr (s : State) (k : Nat) : Nat :=
  s.fld F.KVP_TP_BASE.BASE * 4096 + k * (s.fld F.KVP_TP_CFG.SLOT * 4096)

def State.seqSlot (s : State) (n img : Nat) : Nat := s.slotAddr (s.sbTotal + 2 * n + img)

/-- The entries left wholly before WINDOW_START dropped from every layer alike; the pages no longer listed (R46,
R187). -/
def Image.dropOld : (fuel : Nat) → Image → Image × List Nat
  | 0, im => (im, [])
  | fuel + 1, im =>
    match im.fills with
    | [] => (im, [])
    | f :: _ =>
      if im.firstPos + f ≤ im.windowStart then
        let gone := im.entries.flatMap (fun l => ((l.take 1).filter (fun e => !e.evicted)).map Entry.page)
        let r := Image.dropOld fuel { im with firstPos := im.firstPos + f, entries := im.entries.map (fun l => l.drop 1) }
        (r.1, gone ++ r.2)
      else (im, [])

/-- WINDOW_START raised. -/
def Image.raiseTo (im : Image) (ws : Nat) : Image × List Nat :=
  Image.dropOld (im.count + 1) { im with windowStart := Nat.max im.windowStart ws }

/-- The oldest entries dropped until at most CAP are left, WINDOW_START raised to the first position kept (R189). -/
def Image.fitCap : (fuel : Nat) → Image → Image × List Nat
  | 0, im => (im, [])
  | fuel + 1, im =>
    if im.cap < im.count then
      let f := im.fills.headD 0
      let gone := im.entries.flatMap (fun l => ((l.take 1).filter (fun e => !e.evicted)).map Entry.page)
      let first := im.firstPos + f
      let r := Image.fitCap fuel
        { im with firstPos := first, windowStart := Nat.max im.windowStart first, entries := im.entries.map (fun l => l.drop 1) }
      (r.1, gone ++ r.2)
    else (im, [])

/-- May an appender extend the tail: it is not sealed, not EVICTED, and its page's count is one (R190). -/
def State.tailOpen (s : State) (im : Image) : Bool :=
  !im.tailSealed && decide (0 < im.count) && im.entries.all (fun l => match l.getLast? with
    | some e => !e.evicted && s.pageCount e.page = 1
    | none => false)

/-- Positions an append of `n` puts into the open tail. -/
def State.tailRoom (s : State) (im : Image) (n : Nat) : Nat :=
  if s.tailOpen im then Nat.min n (64 - im.fills.getLastD 64) else 0

/-- Fresh pages per layer that an append of `n` positions needs (R190). -/
def State.freshPages (s : State) (im : Image) (n : Nat) : Nat := ceilDiv (n - s.tailRoom im n) 64

/-- The image with positions appended: the tail's fill raised, then fresh pages, layer by layer. -/
def Image.append (im : Image) (room n : Nat) (fresh : List (List Nat)) : Image :=
  let rest := n - room
  let k := ceilDiv rest 64
  let fillAt (i : Nat) : Nat := if i + 1 = k then rest - 64 * (k - 1) else 64
  let grow (l : List Entry) : List Entry :=
    match l.getLast? with
    | some e => if room = 0 then l else l.dropLast ++ [{ e with fill := e.fill + room }]
    | none => l
  { im with
    positions := im.positions + n
    tailSealed := if k = 0 then im.tailSealed else false
    entries := (im.entries.zip fresh).map (fun p =>
      grow p.1 ++ ((List.range k).map (fun i =>
        { page := p.2.getD i 0, fill := fillAt i, evicted := false, score := 0 }))) }

/-- The entry of a layer marked EVICTED, with the page it drops. -/
def Image.evict (im : Image) (layer i : Nat) : Image × List Nat :=
  match im.entries[layer]? with
  | none => (im, [])
  | some l => match l[i]? with
    | none => (im, [])
    | some e =>
      if e.evicted then (im, [])
      else ({ im with entries := im.entries.set layer (l.set i { e with evicted := true }) }, [e.page])

/-- A BF16 score's order: NaN below every number (R199). -/
def scoreBelow (a b : BitVec 16) : Bool :=
  let x := bf16.decode a.toNat
  let y := bf16.decode b.toNat
  if x.isNan then !y.isNan else if y.isNan then false else x.lt y

/-- The entry of a layer that eviction chooses (R199): eligible, of the lowest score, the lower index on ties. -/
def State.evictChoice (s : State) (im : Image) (keep layer : Nat) : Option Nat :=
  match im.entries[layer]? with
  | none => none
  | some l =>
    let oldest := l.findIdx (fun e => !e.evicted)
    let ok (i : Nat) : Bool := match l[i]? with
      | some e => !e.evicted && s.pageCount e.page = 1 && i ≠ oldest && decide (i + keep < l.length)
      | none => false
    ((List.range l.length).filter ok).foldl
      (fun best i => match best with
        | none => some i
        | some j => match l[i]?, l[j]? with
          | some a, some b => if scoreBelow a.score b.score then some i else some j
          | _, _ => some j) none

/-! ## Sequences -/

def State.setSeq (s : State) (n : Nat) (q : Seq) : State := { s with kv.seqs := put {} s.kv.seqs n q }

def Seq.image (q : Seq) : Image := if q.slot = 0 then q.img0 else q.img1
def Seq.other (q : Seq) : Nat := if q.slot = 0 then 1 else 0
def Seq.setOther (q : Seq) (im : Image) : Seq := if q.slot = 0 then { q with img1 := im } else { q with img0 := im }

/-- The descriptor's bytes (table "Sequence descriptor"). -/
def Seq.bytes (q : Seq) : List Byte :=
  layout 64
    [(0, 4, b2n q.valid + 2 * b2n q.evict + 4 * b2n q.scored + 8 * b2n q.appending + 16 * q.slot), (4, 2, q.owner),
     (8, 2, q.layers), (10, 1, q.kvh), (11, 1, q.kvFmt), (12, 2, q.headDim), (14, 2, q.tpf), (0x10, 2, q.cap),
     (0x12, 2, q.keepNewest), (0x14, 4, q.decay.toNat), (0x18, 4, q.image.gen)]

/-- A sequence and its descriptor in device memory. -/
def State.putSeq (s : State) (n : Nat) (q : Seq) : State :=
  (s.setSeq n q).devWrite (s.fld F.KVP_SEQ_BASE.BASE * 4096 + 64 * n) q.bytes

/-- A new image of a sequence under the present epoch: it goes into the other slot, the slot flips and GEN rises; the pages
it no longer lists are dropped (R188, R191). -/
def State.swapImage (s : State) (n : Nat) (q : Seq) (im : Image) (gone : List Nat) : State :=
  let im := { im with gen := q.image.gen + 1 }
  let s := s.devWrite (s.seqSlot n q.other) im.bytes
  let s := s.putSeq n { q.setOther im with slot := q.other, since := s.kv.epoch }
  s.dropRefs s.kv.epoch (gone.map Obj.page)

/-- A new image of a sequence becomes current, and KVP_EPOCH rises with it (R188, R191). -/
def State.newImage (s : State) (n : Nat) (q : Seq) (im : Image) (gone : List Nat) : State :=
  s.nextEpoch.swapImage n q im gone

/-- The seal an OPEN has left to a sequence takes effect once nothing appends to it (R45). -/
def State.sealTail (s : State) (n : Nat) : State :=
  let q := s.seq n
  if q.sealNext then s.newImage n { q with sealNext := false } { q.image with tailSealed := true } [] else s

/-! ## Edits -/

/-- The edit the edit registers hold. -/
def State.editRegs (s : State) : Edit :=
  { op := s.fld F.KVP_EDIT_OP.OP, branch := s.fld F.KVP_EDIT_OP.BRANCH = 1, target := s.fld F.KVP_EDIT_TARGET.ID
    arg0 := BitVec.ofNat 32 (s.fld F.KVP_EDIT_ARG0.VALUE), arg1 := BitVec.ofNat 32 (s.fld F.KVP_EDIT_ARG1.VALUE)
    ctx := s.fld F.KVP_EDIT_CTX.CONTEXT }

/-- The sequence a descriptor of 64 bytes installs: VALID, with an empty image of GEN 0. -/
def seqOf (b : List Byte) : Seq :=
  let st := field b 0 4
  let im : Image :=
    { layers := field b 8 2, cap := field b 0x10 2, kvh := field b 10 1, scored := bit st 2,
      entries := List.replicate (field b 8 2) [] }
  { valid := true, evict := bit st 1, scored := bit st 2, owner := field b 4 2, layers := field b 8 2, kvh := field b 10 1
    kvFmt := field b 11 1, headDim := field b 12 2, tpf := field b 14 2, cap := field b 0x10 2
    keepNewest := field b 0x12 2, decay := BitVec.ofNat 32 (field b 0x14 4), img0 := im, img1 := im }

/-- DECAY is a number from 0 to 1. -/
def decayOk (d : Nat) : Bool :=
  match ofF32 d with
  | .fin n m e => !(Val.lt (.fin n m e) (.fin false 0 0)) && !(Val.lt (.fin false 1 0) (.fin n m e))
  | _ => false

/-- The fields of a descriptor to be installed that R206 refuses (table "Edit checks", row 5; R176). -/
def State.badSeqDesc (s : State) (b : List Byte) : Bool :=
  let q := seqOf b
  let w := if q.kvFmt = 2 then 2 else 1
  field b 0 4 / 32 ≠ 0 || field b 6 2 ≠ 0 || field b 0x1C 36 ≠ 0 || q.layers = 0 || decide (64 < q.layers) ||
    q.kvh = 0 || decide (16 < q.kvh) || decide (2 < q.kvFmt) || decide (q.headDim < 16) || decide (256 < q.headDim) ||
    q.headDim % 16 ≠ 0 || q.tpf = 0 || q.cap = 0 || q.keepNewest = 0 || decide (q.cap < q.keepNewest) ||
    !decayOk q.decay.toNat || decide (s.pageSize < 64 * q.kvh * q.headDim * 2 * w) ||
    decide (s.fld F.KVP_TP_CFG.SLOT * 4096 < imageNeed q.layers q.cap q.scored)

/-- The image an edit of a holder finds: the sequence's current one, or the branch's. -/
def State.editImage (s : State) (e : Edit) : Image :=
  if e.branch then
    match (s.branch (e.target / 4096) (e.target % 4096)).block with
    | some k => look {} s.kv.images k
    | none => {}
  else (s.seq e.target).image

/-- Edits deferred or pending across the device (R205). -/
def State.editsWaiting (s : State) : Nat :=
  s.kv.deferred.length + s.wh.groups.foldl (fun n g => n + g.2.edits.length) 0

/-- Records that a group's history still takes before a further edit's: those of its pending edits, of LIVE branches alone,
since a DONE branch is not stepped again, and that of the wellhead command that has it BUSY (R74, R204). -/
def State.historyOwed (s : State) (g : Nat) : Nat :=
  let x := s.group g
  (x.edits.filter (fun e => (s.branch g (e.target % 4096)).state = 1)).length + b2n (x.state = 2)

/-- Would the edit be deferred or pending (R203, R204). -/
def State.editWaits (s : State) (e : Edit) : Bool :=
  if e.branch then true else e.op ≠ 1 && (s.seq e.target).appending

/-- The result of the edit checks (R206): 0 OK, 1 BAD_OP, 2 NOT_OWNED, 3 BAD_TARGET, 4 FULL, 5 BAD_DESC. -/
def State.editCheck (s : State) (e : Edit) : Nat :=
  let g := e.target / 4096
  let b := e.target % 4096
  let q := s.seq e.target
  let d := s.devRead (e.arg1.toNat * 2 ^ 32 + e.arg0.toNat) 64
  let im := s.editImage e
  if e.op = 0 || decide (6 < e.op) || (e.branch && (e.op = 1 || e.op = 5)) then 1
  else if s.fld F.KVP_CFG.ENABLE = 0 then 3
  else if (if e.branch then (s.group g).state = 0 || decide ((s.group g).capacity ≤ b) || (s.branch g b).state = 0
      else decide (s.fld F.KVP_SEQ_COUNT.N ≤ e.target) || (if e.op = 1 then q.valid else !q.valid)) then 3
  else if (if e.branch then (s.group g).owner ≠ e.ctx
      else if e.op = 1 then (seqOf d).owner ≠ e.ctx else q.owner ≠ e.ctx) then 2
  else if (e.op = 1 && s.badSeqDesc d) ||
      (e.op = 5 && (e.arg0.toNat / 65536 = 0 || decide (q.cap < e.arg0.toNat / 65536) || !decayOk e.arg1.toNat ||
        bits e.arg0.toNat 15 2 ≠ 0 ||
        (bit e.arg0.toNat 1 && decide (s.fld F.KVP_TP_CFG.SLOT * 4096 < imageNeed q.layers q.cap true)))) then 5
  else if e.op = 4 && (decide (im.layers ≤ e.arg1.toNat % 64) || decide (im.count ≤ e.arg0.toNat % 65536) ||
      (match (im.entries.getD (e.arg1.toNat % 64) [])[e.arg0.toNat % 65536]? with
       | some x => x.evicted | none => true)) then 3
  else if s.editWaits e && (decide (1024 ≤ s.editsWaiting) ||
      (e.branch && decide (1024 ≤ (s.group g).history.length + s.historyOwed g))) then 4
  else 0

/-- The position at which entry i of every layer begins (R187). -/
def Image.startOf (im : Image) (i : Nat) : Nat := (im.fills.take i).foldl (· + ·) im.firstPos

/-- The index of the entry that begins at a position, the count where none does. -/
def Image.indexAt (im : Image) (pos : Nat) : Nat :=
  ((List.range im.count).find? (fun i => im.startOf i == pos)).getD im.count

/-- An image with a holder's edit applied as far as it still applies, and the pages it drops (table "Edit operations",
R204): an EVICT_ENTRY acts on the entry it named, wherever that lies by now. -/
def editApply (e : Edit) (im : Image) : Image × List Nat :=
  match e.op with
  | 3 => im.raiseTo (im.windowStart + e.arg0.toNat)
  | 4 => im.evict (e.arg1.toNat % 64) (im.indexAt e.pos)
  | 6 => ({ im with tailSealed := true }, [])
  | _ => (im, [])

/-- The effect of SEQ_DESTROY: every page dropped, VALID clear (R191, R413). -/
def State.seqDestroyNow (s : State) (n : Nat) : State :=
  let q := s.seq n
  let s := s.putSeq n {}
  let s := s.nextEpoch
  s.dropRefs s.kv.epoch (q.image.pages.map Obj.page)

/-- A sequence edit takes effect (R203, R204): at once as a new generation, whatever it changes. -/
def State.seqEditNow (s : State) (e : Edit) : State :=
  let q := s.seq e.target
  let s := match e.op with
    | 1 =>
      let d := seqOf (s.devRead (e.arg1.toNat * 2 ^ 32 + e.arg0.toNat) 64)
      let s := s.devWrite (s.seqSlot e.target 0) d.img0.bytes
      (s.putSeq e.target d).nextEpoch
    | 2 => s.seqDestroyNow e.target
    | 5 =>
      let sc := bit e.arg0.toNat 1
      let q := { q with evict := bit e.arg0.toNat 0, scored := sc, keepNewest := e.arg0.toNat / 65536, decay := e.arg1 }
      s.newImage e.target q { q.image with scored := sc } []
    | _ =>
      let r := editApply e q.image
      let s := if e.op = 4 then s.addCnt C.KVP_CNT_EVICTED r.2.length else s
      s.newImage e.target q r.1 r.2
  s.setInt F.KVP_INT_STATUS.EDIT_DONE

/-- An edit started from the edit registers (R203 to R206). -/
def State.editGo (s : State) : State :=
  let e := s.editRegs
  let e := { e with pos := (s.editImage e).startOf (e.arg0.toNat % 65536), serial := s.kv.editNext }
  let res := s.editCheck e
  let full := decide (1024 ≤ s.editsWaiting)
  let s : State := { s with kv.editNext := s.kv.editNext + 1 }
  let s := (s.setFld F.KVP_EDIT_STATUS.RESULT res).setFld F.KVP_EDIT_STATUS.DEFERRED 0
  let s := if res = 4 ∧ full then (s.setInt F.KVP_INT_STATUS.EDIT_FULL).setInt F.KVP_INT_STATUS.EDIT_DONE
    else if res ≠ 0 then s.setInt F.KVP_INT_STATUS.EDIT_DONE else s
  if res ≠ 0 then s
  else if e.branch then
    let g := e.target / 4096
    let x := s.group g
    ((s.setGroup g { x with edits := x.edits ++ [e] }).setFld F.KVP_EDIT_STATUS.DEFERRED 1).setInt
      F.KVP_INT_STATUS.EDIT_DONE
  else if s.editWaits e then
    let s : State := { s with kv.deferred := s.kv.deferred ++ [e] }
    (s.setFld F.KVP_EDIT_STATUS.DEFERRED 1).setInt F.KVP_INT_STATUS.EDIT_DONE
  else s.seqEditNow e

/-- The write of KVP_EDIT_GO that starts an operation the edit registers hold. -/
def State.editRow (s : State) (r : Requester) (op : Nat) : State :=
  if s.runs 313 ∧ s.fld F.KVP_EDIT_OP.OP = op then s.opWrite r 0x04 0 0x150 1 State.editGo else s

def execSeqCreate (r : Requester) (s : State) : Host.Outcome State Fault Refusal := .next (s.editRow r 1)
def execSeqDestroy (r : Requester) (s : State) : Host.Outcome State Fault Refusal := .next (s.editRow r 2)
def execDropFront (r : Requester) (s : State) : Host.Outcome State Fault Refusal := .next (s.editRow r 3)
def execEvictEntry (r : Requester) (s : State) : Host.Outcome State Fault Refusal := .next (s.editRow r 4)
def execSetPolicy (r : Requester) (s : State) : Host.Outcome State Fault Refusal := .next (s.editRow r 5)
def execSealTail (r : Requester) (s : State) : Host.Outcome State Fault Refusal := .next (s.editRow r 6)

/-- The oldest deferred edit of a sequence takes effect once no command appends to it (R203); one whose sequence is no
longer valid is discarded (R205). -/
def State.deferredEdit (s : State) (n : Nat) : State :=
  match s.kv.deferred.find? (fun e => e.target == n) with
  | none => s
  | some e =>
    if s.runs 313 ∧ (s.seq n).appending = false then
      let s : State := { s with kv.deferred := s.kv.deferred.erase e }
      if (s.seq n).valid then s.seqEditNow e else s
    else s

def execDeferredEdit (sequence : Nat) (s : State) : Host.Outcome State Fault Refusal := .next (s.deferredEdit sequence)

/-! ## Enabling the pool and the wellhead -/

/-- A device range owned by the device, 0xFFFF; an empty one is (R308). -/
def State.deviceOwns (s : State) (a n : Nat) : Bool := n = 0 || s.devOwned a n 0xFFFF

/-- A region lies wholly within its stack, and the pages are at most 2^24 (R181). -/
def State.regionsOk (s : State) : Bool :=
  decide (s.pageTotal ≤ 2 ^ 24) && (List.range 12).all (fun r =>
    s.regionCount r = 0 || (s.regionBase r / 2 ^ 36 = r &&
      decide (s.regionBase r % 2 ^ 36 + s.regionCount r * s.pageSize ≤ 2 ^ 36)))

/-- The pool's areas lie in device-owned granules (R308). -/
def State.kvpAreasOk (s : State) : Bool :=
  (List.range 12).all (fun r => s.deviceOwns (s.regionBase r) (s.regionCount r * s.pageSize)) &&
    s.deviceOwns (s.fld F.KVP_REC_BASE.BASE * 4096) (8 * s.pageTotal) &&
    s.deviceOwns (s.fld F.KVP_SEQ_BASE.BASE * 4096) (64 * s.fld F.KVP_SEQ_COUNT.N) &&
    s.deviceOwns (s.fld F.KVP_TP_BASE.BASE * 4096)
      ((s.sbTotal + 2 * s.fld F.KVP_SEQ_COUNT.N) * (s.fld F.KVP_TP_CFG.SLOT * 4096))

/-- The wellhead's areas lie in device-owned granules (R308). -/
def State.whAreasOk (s : State) : Bool :=
  s.deviceOwns (s.fld F.WH_SP_BASE.BASE * 4096) (s.sbTotal * s.sbSize) &&
    s.deviceOwns (s.fld F.WH_BT_BASE.BASE * 2 ^ 26) (2 ^ 26) &&
    s.deviceOwns (s.fld F.KVP_TP_BASE.BASE * 4096) (s.sbTotal * (s.fld F.KVP_TP_CFG.SLOT * 4096))

/-- The system area of slice p in 64 KiB units, with the pool and the wellhead as given (R289). -/
def State.sysSize (s : State) (kvp wh : Bool) (p : Nat) : Nat :=
  let inSlice (a : Nat) : Bool := a / 2 ^ 36 / 3 = p
  let pages := if kvp then (List.range 12).foldl (fun n r => if r / 3 = p then n + s.regionCount r else n) 0 else 0
  let blocks := if wh then ((List.range s.sbTotal).filter (fun k => inSlice (s.sbAddr k))).length else 0
  ceilDiv (131072 + 4 * (pages + blocks)) 65536

/-- The enlarged system areas reach no granule granted to a context (R290). -/
def State.sysOk (s : State) (kvp wh : Bool) : Bool :=
  (List.range 4).all (fun p => (List.range (s.sysSize kvp wh p)).all (fun g =>
    let o := s.ownerOf (sliceGranule p g)
    o = 0xFFFE || o = 0xFFFF))

def State.resizeSys (s : State) (kvp wh : Bool) : State :=
  (List.range 4).foldl (fun s p => s.setFld F.PDIE_SYS.SIZE (s.sysSize kvp wh p) p) s

/-- May KVP_CFG.ENABLE clear (R575). -/
def State.kvpClears (s : State) : Bool :=
  s.kv.seqs.all (fun q => !q.2.valid) && s.wh.groups.all (fun g => g.2.state = 0) &&
    s.cq.cmds.all (fun c => c.epoch.isNone) && s.editsWaiting = 0 && s.kv.holding.isEmpty

/-- A write of KVP_CFG (R181, R290, R308, R575). -/
def State.kvpCfgWrite (s : State) (v : Nat) : State :=
  let en := s.fld F.KVP_CFG.ENABLE
  let ps := bits v 3 1
  let s := if ps = s.fld F.KVP_CFG.PSIZE then s
    else if 5 < ps ∨ en = 1 then s.reject 0x04 0 else s.setFld F.KVP_CFG.PSIZE ps
  if v % 2 = en then s
  else if v % 2 = 1 then
    let wh := s.fld F.WH_CFG.ENABLE = 1
    if s.regionsOk && s.kvpAreasOk && s.sysOk true wh then
      let s := (s.setFld F.KVP_CFG.ENABLE 1).resizeSys true wh
      { s with kv.pgCount := [], kv.pgStaged := [], kv.rotor := 0 }
    else s.reject 0x04 0
  else if s.kvpClears then s.setFld F.KVP_CFG.ENABLE 0
  else s.reject 0x04 0

def execKvpCfgEnable (r : Requester) (v : W32) (s : State) : Host.Outcome State Fault Refusal :=
  .next (s.opWrite r 0x04 0 0x100 v.toNat (fun s => s.kvpCfgWrite v.toNat))

/-- Is the wellhead busy (R538): a group not CLOSED, or a wellhead command accepted and unpublished. -/
def State.whBusy (s : State) : Bool :=
  s.wh.groups.any (fun g => g.2.state ≠ 0) || s.cq.cmds.any (fun c => recClass c.rec_ = 2)

/-- A write of WH_CFG (R290, R308). -/
def State.whCfgWrite (s : State) (v : Nat) : State :=
  let en := s.fld F.WH_CFG.ENABLE
  if v % 2 = en then s
  else if s.whBusy then s.reject 0x02 0
  else if v % 2 = 1 then
    let kvp := s.fld F.KVP_CFG.ENABLE = 1
    if s.whAreasOk && s.sysOk kvp true then (s.setFld F.WH_CFG.ENABLE 1).resizeSys kvp true
    else s.reject 0x02 0
  else s.setFld F.WH_CFG.ENABLE 0

def execWhCfgEnable (r : Requester) (v : W32) (s : State) : Host.Outcome State Fault Refusal :=
  .next (s.opWrite r 0x02 0 0x100 v.toNat (fun s => s.whCfgWrite v.toNat))

end Sys2Proof.Machine
end

