-- ==== Sys2Proof/Machine/Commands.lean ====
section
/-! DEFINITION. The life of an accepted command that every engine shares: its context's state (R416), holds, completion
records in queue order (R390 to R394), and the discarding of staging (R193, R195, R271, R405). -/

namespace Sys2Proof.Machine

/-- Does the command engine run: ACTIVE, or minimal mode, and its domain not halted. -/
def State.engineRuns (s : State) : Bool :=
  (s.tm.power = .active || s.tm.power = .minimal) && !s.domHalted 313

/-! ## Queue descriptors (table "Queue descriptor") -/

def Queue.sq (q : Queue) : Nat := field q.desc 0 8
def Queue.cqBase (q : Queue) : Nat := field q.desc 8 8
def Queue.jnl (q : Queue) : Nat := field q.desc 0x10 8
def Queue.log2 (q : Queue) : Nat := field q.desc 0x18 1
def Queue.size (q : Queue) : Nat := 2 ^ q.log2
def Queue.intr (q : Queue) : Bool := bit (field q.desc 0x19 1) 0
def Queue.client (q : Queue) : Nat := field q.desc 0x1A 2
def Queue.ctx (q : Queue) : Nat := field q.desc 0x1C 2
def Queue.vector (q : Queue) : Nat := field q.desc 0x1E 2
def Queue.slotOf (q : Queue) (seq : Nat) : Nat := seq % q.size

def Queue.oldest (q : Queue) : Nat := match q.position with | some p => p.1 | none => 0
def Queue.next (q : Queue) : Nat := match q.position with | some p => p.2 | none => 0

/-- SEQ arithmetic modulo 2^32 (R380). -/
def seqAfter (a n : Nat) : Nat := (a + n) % 2 ^ 32
def seqAhead (a b : Nat) : Nat := (a + 2 ^ 32 - b % 2 ^ 32) % 2 ^ 32

/-! ## Contexts (R412 to R416) -/

def State.cmdsOf (s : State) (ctx : Nat) : List Cmd := s.cq.cmds.filter (fun c => c.ctx == ctx)

/-- Cores placed on a command. -/
def State.coresOf (s : State) (q seq : Nat) : List Nat :=
  (s.tl.cores.filter (fun k => match k.2.place with | some p => p.q == q && p.seq == seq | none => false)).map (·.1)

/-- Cores a context holds. -/
def State.ctxCores (s : State) (ctx : Nat) : List Nat := (s.cmdsOf ctx).flatMap (fun c => s.coresOf c.q c.seq)

def State.resident (s : State) (ctx : Nat) : Bool := (s.ctx ctx).slot.isSome

/-- The lowest resident slot nobody holds (R414). -/
def State.freeSlot (s : State) : Option Nat :=
  (List.range 32).find? (fun n => s.sc.ctxs.all (fun c => c.2.slot != some n))

/-- A command is held (11, "Context states"): by a hold of its own other than the order of its group or sequence, or at
step 2 of its publication. -/
def Cmd.held (c : Cmd) : Bool := (c.hold.isSome && c.hold ≠ some .group) || c.stage = .staged

/-- A context enters a state; waiting and blocked times begin where the table "Context states" says so. -/
def State.ctxTo (s : State) (ctx : Nat) (st : CtxSt) : State :=
  let x := s.ctx ctx
  let w := if st = .ready ∨ st = .outReady then s.tm.now else x.waitSince
  let b := if st = .blocked then s.tm.now else x.blockedSince
  s.setCtx ctx { x with st := st, waitSince := w, blockedSince := b }

/-- A context leaves residency: its slot and what it saved are freed. -/
def State.ctxAbsent (s : State) (ctx : Nat) : State :=
  s.setCtx ctx { (s.ctx ctx) with st := .absent, slot := none, saved := [], clRecs := [], swapping := false }

/-- A command of the context was accepted (R416): an ABSENT context takes a slot, or begins to wait for one. -/
def State.ctxAccept (s : State) (ctx : Nat) : State :=
  if (s.ctx ctx).st = .absent then
    match s.freeSlot with
    | some n => (s.setCtx ctx { (s.ctx ctx) with slot := some n }).ctxTo ctx .ready
    | none => s.ctxTo ctx .outReady
  else s

/-! ### Save records (11, "Save format") -/

/-- Bytes of a core record, and of a cluster record: its layers, and the CLUSTER-homed bytes a swap-out adds. -/
def SavedCore.size (r : SavedCore) : Nat :=
  64 + 1280 * ((List.range 24).filter (bit r.mask)).length + 32 * r.csLen
def clRecSize (x : Cluster) (bytes : Nat) : Nat := 64 + 128 * x.layers.length + bytes
def Ctx.storeBytes (x : Ctx) (cl : Nat) : Nat := ((x.clAt.find? (fun a => a.cluster == cl)).map (·.bytes)).getD 0

/-- Bytes a context has saved: the header and all records. -/
def Ctx.savedBytes (x : Ctx) : Nat :=
  if x.saved = [] ∧ x.clRecs = [] then 0
  else 64 + x.saved.foldl (fun n r => n + r.size) 0 + x.clRecs.foldl (fun n r => n + clRecSize r.2 (x.storeBytes r.1)) 0

/-- A context whose last core under yield-pending has been released leaves YIELDING: it is READY, or SAVING under R431. -/
def State.yieldEnds (s : State) (ctx : Nat) : State :=
  let x := s.ctx ctx
  if x.st == CtxSt.yielding && (s.ctxCores ctx).isEmpty then
    let s := s.trace { type := 7, flags := 2, ctx := ctx, arg0 := x.saved.length, arg1 := x.savedBytes }
    if x.swapping then s.ctxTo ctx .saving else s.ctxTo ctx .ready
  else s

/-- The transitions of R416 and R415 that follow from the state of the context's commands and cores. -/
def State.settle (s : State) (ctx : Nat) : State :=
  let s := s.yieldEnds ctx
  let x := s.ctx ctx
  let cs := s.cmdsOf ctx
  let allHeld := cs.all Cmd.held
  let noCore := (s.ctxCores ctx).isEmpty
  if cs.isEmpty then
    (if x.st = .absent ∨ x.st = .saving ∨ x.st = .loading ∨ x.st = .yielding then s else s.ctxAbsent ctx)
  else match x.st with
  | .ready => if allHeld && noCore then s.ctxTo ctx .blocked else s
  | .running =>
    if noCore then (if allHeld then s.ctxTo ctx .blocked else s.ctxTo ctx .ready) else s
  | .blocked => if allHeld then s else s.ctxTo ctx .ready
  | .out => if allHeld then s else s.ctxTo ctx .outReady
  | _ => s

/-- May a command start: its queue is ENABLED or DRAINING; after a warm reset it waits for the driver (R401). -/
def State.queueRuns (s : State) (n : Nat) : Bool := (s.queue n).enabled || (s.queue n).draining

/-! ## Holds -/

def holdIndex : Hold → Nat
  | .page => 0 | .state => 1 | .table => 2 | .gauge => 3 | .counter => 4 | .cistern => 5 | .rederive => 6 | .fence => 7
  | .group => 8

/-- A command begins to be held: the trace record, and the interrupts and records of R69, R198. -/
def State.holdCmd (s : State) (c : Cmd) (h : Hold) : State :=
  let wh := recClass c.rec_ = 2
  let s := s.setCmd { c with hold := some h, since := if c.hold = some h then c.since else s.tm.now }
  let s := if c.hold = some h ∨ h = .group then s
    else
      let s := s.trace { type := 9, flags := 1, ctx := c.ctx, q := c.q, seq := c.seq, arg0 := Config.holdCode (holdIndex h) }
      if h = .page ∨ h = .table ∨ h = .state then
        (if wh then s.setInt F.WH_INT_STATUS.HOLD
         else (s.setInt F.KVP_INT_STATUS.HOLD).raise 0x0401 0 0 0 c.ctx c.q c.seq)
      else s
  s.settle c.ctx

/-- A hold ends. -/
def State.unhold (s : State) (c : Cmd) : State :=
  match c.hold with
  | none => s
  | some h =>
    let s := s.setCmd { c with hold := none }
    (if h = .group then s else s.trace
      { type := 9, flags := 2, ctx := c.ctx, q := c.q, seq := c.seq, arg0 := Config.holdCode (holdIndex h) }).settle c.ctx

/-- A fence is met when the completion record of its SEQ has been written in its queue (R395): the queue's oldest slot
without one is past it, in serial-number order. -/
def State.fenceMet (s : State) (r : List Byte) : Bool :=
  !recFenceValid r || match (s.queue (recFenceQ r)).position with
  | some p => decide (0 < seqAhead p.1 (recFenceSeq r)) && decide (seqAhead p.1 (recFenceSeq r) ≤ 2 ^ 31)
  | none => false

/-! ## Completion records -/

/-- Words 0 to 2 of a completion record. -/
def Done.words (d : Done) (time : Nat) : List Byte :=
  toLE 4 d.tag ++ toLE 4 d.result ++ toLE 8 time ++ toLE 4 d.flags ++ toLE 4 d.detail

/-- PHASE of the completion record of a SEQ (R392). -/
def phaseOf (log2 seq : Nat) : Nat := 1 - seq / 2 ^ log2 % 2

/-- Word 3: SEQ, STATUS, COMMIT and PHASE (R392). -/
def Done.word3 (d : Done) (log2 : Nat) : List Byte :=
  toLE 4 d.seq ++ toLE 1 d.status ++ toLE 1 0 ++ toLE 2 (d.seq % 2 ^ 15 + phaseOf log2 d.seq * 2 ^ 15)

/-- The next completion record of a queue is written, when the oldest slot's is due and none is being written (R394):
words 0 to 2 first (publication step 4). -/
def State.pumpQueue (s : State) (n : Nat) : State :=
  let q := s.queue n
  if q.writing || s.rs.run.isSome then s
  else match q.done.find? (fun d => d.seq == q.oldest) with
  | none => s
  | some d =>
    let s := s.setQueue n { q with writing := true }
    s.hwr (q.cqBase + 32 * q.slotOf d.seq) (d.words (if d.returned then s.tm.now else d.time)) (.completion n d.seq)

/-- Words 0 to 2 acknowledged: word 3 by one 8-byte HWR (step 5). -/
def State.completionWord3 (s : State) (n seq : Nat) : State :=
  let q := s.queue n
  match q.done.find? (fun d => d.seq == seq) with
  | none => s
  | some d =>
    s.hwr (q.cqBase + 32 * q.slotOf seq + 24) (d.word3 q.log2)
      (if d.returned then .returnedLast n seq else .completionLast n seq)

/-- DRAINING ends with the last command published (R551). -/
def State.drainCheck (s : State) (n : Nat) : State :=
  let q := s.queue n
  if q.draining ∧ s.cq.cmds.all (fun c => c.q ≠ n) ∧ q.done = [] then s.setQueue n { q with draining := false } else s

/-- Word 3 written: the slot has its completion record; the interrupt is raised if asked for (step 6); RETURNING ends
with the last RETURNED record (R408). -/
def State.completionEnd (s : State) (n seq : Nat) : State :=
  let q := s.queue n
  match q.done.find? (fun d => d.seq == seq) with
  | none => s
  | some d =>
    let rest := q.done.filter (fun e => e.seq != seq)
    let oldest := if d.returned then (match rest.find? (fun e => e.returned) with
      | some e => e.seq
      | none => q.next) else seqAfter seq 1
    let last := d.returned && !rest.any (fun e => e.returned)
    let s := s.setQueue n
      { q with done := rest, writing := false, position := some (oldest, q.next), returning := q.returning && !last }
    let s := if d.intr then s.intr q.vector 0xFFFF else s
    let s := if d.returned then s.addCnt C.Q_CNT_RETURNED 1 else s
    let s := if last then s.setInt F.Q_INT_STATUS.RETURNED else s
    (s.pumpQueue n).drainCheck n

/-- A completion record falls due in a queue. -/
def State.due (s : State) (n : Nat) (d : Done) : State :=
  let q := s.queue n
  (s.setQueue n { q with done := q.done ++ [d] }).pumpQueue n

/-! ## Counting of branches -/

/-- Branches LIVE or DONE on the device (WH_LIVE.N), and in a group. -/
def State.liveAll (s : State) : Nat := (s.wh.branches.filter (fun b => b.2.state ≠ 0)).length
def State.liveIn (s : State) (g : Nat) : Nat :=
  (s.wh.branches.filter (fun b => b.1 / 4096 = g ∧ b.2.state ≠ 0)).length

/-! ## Cores and clusters given up -/

/-- A core without a layer. -/
def Core.freed (k : Core) : Core :=
  { k with place := none, queue := [], issue := [], waiting := none, ended := false, saving := none }

/-- A core for a layer of a context: no arrival is outstanding (log 8), and where another context's values stand in its
wells, they are zeroed (R104). -/
def Core.wellsFor (k : Core) (ctx : Nat) : Core :=
  let k := { k with tags := 0 }
  if k.lastCtx = some ctx then k else { k with wells := [], written := 0, lastCtx := some ctx }

def State.freeCore (s : State) (c : Nat) : State := s.setCore c (s.core c).freed

/-- A cluster that has lost its last layer begins to be idle (R455). -/
def State.idleNow (s : State) (cl : Nat) : State :=
  if (s.cluster cl).layers = [] then s.setClk cl { s.clk cl with idleSince := s.tm.now } else s

/-- The layers of a command leave the cluster sequencers, with the ownership of cluster stores (R281). -/
def State.clearClusters (s : State) (q seq : Nat) : State :=
  let had := (s.tl.clusters.filter (fun e => e.2.layers.any (fun l => l.q == q && l.seq == seq))).map (·.1)
  had.foldl State.idleNow
  { s with tl.clusters := s.tl.clusters.map (fun e =>
      (e.1, { e.2 with
        layers := e.2.layers.filter (fun l => !(l.q == q && l.seq == seq))
        owner := if e.2.owner = some (q, seq) then none else e.2.owner })) }

/-- Is a request to a module a command's own. -/
def CisFor.of (w : CisFor) (q seq : Nat) : Bool :=
  match w with
  | .read a b _ | .catCheck a b | .data a b _ | .flush1 a b | .commit a b | .flush2 a b => a == q && b == seq
  | _ => false

/-- What a command holds of cores, clusters, window and fences is given up. -/
def State.releaseWork (s : State) (q seq : Nat) : State :=
  let cs := s.coresOf q seq
  let s := cs.foldl State.freeCore s
  let s := s.clearClusters q seq
  { s with
    ci.modules := s.ci.modules.map (fun e => (e.1, { e.2 with
      reqs := e.2.reqs.map (fun r => if r.what.of q seq then { r with what := .stale } else r) }))
    mm.window := s.mm.window.filter (fun w => !(w.q == q && w.seq == seq))
    tl.fences := s.tl.fences.filter (fun f => !(f.q == q && f.seq == seq))
    tl.traffic := s.tl.traffic.filter (fun t => !(t.q == q && t.seq == seq))
    mm.hbm := s.mm.hbm.map (fun e => (e.1, { e.2 with reads := e.2.reads.filter (fun r => !cs.contains r.core) }))
    sc.ctxs := s.sc.ctxs.map (fun e =>
      (e.1, { e.2 with
        saved := e.2.saved.filter (fun r => !(r.q == q && r.seq == seq))
        clRecs := (e.2.clRecs.map (fun r => (r.1, { r.2 with
          layers := r.2.layers.filter (fun l => !(l.q == q && l.seq == seq)) }))).filter (fun r => r.2.layers ≠ []) })) }

/-- Is a work counter or a gauge in the run of a command that has one. -/
def State.counterTaken (s : State) (n : Nat) : Bool :=
  s.cq.cmds.any (fun c => match c.counterRun with | some (b, k) => decide (b ≤ n) && decide (n < b + k) | none => false)
def State.gaugeTaken (s : State) (n : Nat) : Bool :=
  s.cq.cmds.any (fun c => match c.gaugeRun with | some (b, k) => decide (b ≤ n) && decide (n < b + k) | none => false)

/-! ## Discarding a command's staging -/

/-- An appender gives up its sequences: APPENDING clears, and the seal an OPEN left takes effect (R45, R196, R203). -/
def State.endAppend (s : State) (c : Cmd) : State :=
  c.appendTo.foldl
    (fun s n => if (s.seq n).appending then (s.putSeq n { (s.seq n) with appending := false }).sealTail n else s) s

/-- The releases that a step had queued are taken back (R46, R195): the pages are in use as they were published. -/
def State.unrelease (s : State) (os : List Obj) : State :=
  os.foldl
    (fun s o =>
      let s := s.applyRef { obj := o, add := true, n := 1, tag := 0 }
      { s with kv.holding := s.kv.holding.filter (fun h => h.2 ≠ o) }) s

/-- The command's staging is discarded: its objects return to their free lists and its count increments are reversed
(R193, R195), its runs, fences and placement are freed (R232, R264, R273); it waits to start again, marked REEXECUTED
where it had begun (R405). Its groups stay locked to it (R41). -/
def State.discard (s : State) (c : Cmd) : State :=
  let s := s.releaseWork c.q c.seq
  let s := c.work.taken.foldl (fun s o => s.setObjCount o 0) s
  let s := s.unstage (c.work.taken)
  let s := c.work.added.foldl
    (fun s a => s.applyRef { obj := a.1, add := false, n := a.2, tag := s.kv.epoch }) s
  let s := (s.unrelease c.work.released).endAppend c
  let client := c.client
  let s := s.addCnt C.SCHED_CNT_RECOVERY_NS c.execNs
  let s := s.setCnt C.CL_CNT_EXEC_NS (s.cnt C.CL_CNT_EXEC_NS 0 client - c.execNs) 0 client
  s.setCmd
    { c with
      stage := .waiting, hold := none, epoch := none, begun := false, execNs := 0
      cflags := if c.begun then Nat.lor c.cflags 8 else c.cflags
      status := 0, result := 0, descs := [], gaugeRun := none, counterRun := none, reserved := 0, appendTo := [], snaps := []
      tileBase := 0
      layers := [], work := { groups := c.work.groups }, data := [] }

/-- The locks a command holds on groups are released: BUSY groups become OPEN (R41). -/
def State.unlockGroups (s : State) (q seq : Nat) : State :=
  { s with wh.groups := s.wh.groups.map (fun e =>
      if e.2.lock = some (q, seq) then
        (e.1, { e.2 with lock := none, state := if e.2.state = 2 then 1 else e.2.state })
      else e) }

/-- A command leaves the device with a completion record (R393, R394): STATUS and RESULT; DETAIL, which R391 gives for a
failed check alone, is a free value (log 2). What it still holds is freed; its context settles. -/
def State.complete (s : State) (c : Cmd) (status result : Nat) : State :=
  let s := (s.releaseWork c.q c.seq).unlockGroups c.q c.seq
  let detail := s.draw.1.toNat % 2 ^ 32
  let s := s.draw.2
  let s := s.dropCmd c.q c.seq
  let s := if status = 0 then (s.addCnt C.Q_CNT_PUBLISHED 1).addCnt C.CL_CNT_PUBLISHED 1 0 c.client
    else s.addCnt C.Q_CNT_NO_EFFECT 1
  let s := if bit c.cflags 3 then s.addCnt C.Q_CNT_REEXECUTED 1 else s
  let s := s.trace { type := 3, ctx := c.ctx, q := c.q, seq := c.seq, arg0 := status, arg1 := c.cflags }
  let s := s.due c.q
    { seq := c.seq, rec_ := c.rec_, acceptedAt := some c.acceptedAt, tag := recTag c.rec_, result := result, time := s.tm.now, flags := c.cflags, detail := detail,
      status := status, intr := recIntr c.rec_ && (s.queue c.q).intr }
  s.settle c.ctx

/-- The step at which eviction engaged is forgotten with the command that it engaged in (R200, R201). -/
def State.disengage (s : State) (c : Cmd) : State :=
  { s with wh.groups := s.wh.groups.map (fun e =>
      if e.2.lock = some (c.q, c.seq) then (e.1, { e.2 with evictStep := none }) else e) }

/-- An accepted command completes without effect (R393): its staging is discarded first. -/
def State.noEffect (s : State) (c : Cmd) (status : Nat) : State :=
  let flags := c.cflags
  let s := (s.disengage c).discard c
  match s.cmd? c.q c.seq with
  | some d => s.complete { d with cflags := flags } status 0
  | none => s

end Sys2Proof.Machine
end

