-- ==== Sys2Proof/Machine/Tensors.lean ====
section
/-! DEFINITION. Reading and writing tensors in their homes (08_memory.md), the compression kinds (R315 to R318), and the
sums of a reduction (R325 to R327). -/

namespace Sys2Proof.Machine

/-! ## Homes -/

/-- Bytes of a tensor's storage in HBM or the shared cache. -/
def State.homeRead (s : State) (home a n : Nat) : List Byte :=
  match home with
  | 0 => s.devRead a n
  | 1 => rdBytes s.mm.shared a n
  | _ => []

/-- Bytes written to storage in HBM (R353) or the shared cache, counted where they land (R511). -/
def State.homeWrite (s : State) (home a : Nat) (data : List Byte) : State :=
  match home with
  | 0 => s.devWrite a data
  | 1 =>
    ({ s with
        mm.shared := wrBytes s.mm.shared a data
        mm.poisonShared := s.mm.poisonShared.filter (fun u => !(units64 a data.length).contains u) } : State).addSlot
      0x20 (sliceOf a) 1 data.length
  | _ => s

/-- The bytes a read counts at its home (R511). -/
def State.countRead (s : State) (home a n : Nat) : State :=
  match home with
  | 0 => s.pins a false n
  | 1 => s.addSlot 0x20 (sliceOf a) 0 n
  | _ => s

/-- A range holds a poisoned unit. -/
def State.homePoisoned (s : State) (home a n : Nat) : Bool :=
  match home with
  | 0 => s.poisoned a n
  | 1 => (units64 a n).any (fun u => s.mm.poisonShared.contains u)
  | _ => false

/-- May the range be read now: no line of it held modified by the host (R353). -/
def State.homeReadable (s : State) (home a n : Nat) : Bool := if home = 0 then s.readable a n else true

/-! ## Compression (R315, R316) -/

/-- Bit i of a bitmap over elements: set where the element is not zero. -/
def bitmap (l : List Nat) : List Byte :=
  (List.range (ceilDiv l.length 8)).map (fun i =>
    BitVec.ofNat 8 ((List.range 8).foldl (fun n j => if l.getD (8 * i + j) 0 = 0 then n else n + 2 ^ j) 0))

/-- The nibbles of bytes, low first. -/
def nibblesOf (b : List Byte) : List Nat := b.flatMap (fun x => [x.toNat % 16, x.toNat / 16])

/-- The encoding of a 256-byte unit in the first form that applies (R316). -/
def zbUnit (kind : Nat) (u : List Byte) : List Byte :=
  if allZero u then []
  else
    let enc := if kind = 1 then bitmap (u.map BitVec.toNat) ++ u.filter (· ≠ 0)
      else bitmap (nibblesOf u) ++ packNib ((nibblesOf u).filter (· ≠ 0))
    if enc.length < 256 then enc else u

/-- The 256-byte units of a tensor, the last padded with zeros. -/
def unitsOf (data : List Byte) : List (List Byte) :=
  (List.range (ceilDiv data.length 256)).map (fun i =>
    let u := (data.drop (256 * i)).take 256
    u ++ List.replicate (256 - u.length) 0)

/-- A compressed image: the directory, the units, a pad to an even length (R315). -/
def zbEncode (kind : Nat) (data : List Byte) : List Byte :=
  let us := (unitsOf data).map (zbUnit kind)
  let body := us.flatMap (fun u => toLE 2 u.length) ++ us.flatten
  if body.length % 2 = 1 then body ++ [0] else body

/-- The elements a bitmap places, taking the stored values in order. -/
def spread : List Bool → List Nat → List Nat
  | [], _ => []
  | false :: r, vs => 0 :: spread r vs
  | true :: r, [] => 0 :: spread r []
  | true :: r, v :: vs => v :: spread r vs

def bitsOf (b : List Byte) : List Bool := b.flatMap (fun x => (List.range 8).map (fun i => bit x.toNat i))

/-- A unit decoded from its encoding; none where it is malformed (R318). -/
def zbDecodeUnit (kind len : Nat) (e : List Byte) : Option (List Byte) :=
  if len = 0 then some (List.replicate 256 0)
  else if len = 256 then some e
  else if 256 < len then none
  else if kind = 1 then
    let bm := bitsOf (e.take 32)
    let k := (bm.filter id).length
    let vs := (e.drop 32).map BitVec.toNat
    if len = 32 + k ∧ vs.all (· ≠ 0) then some ((spread bm vs).map (BitVec.ofNat 8)) else none
  else
    let bm := bitsOf (e.take 64)
    let k := (bm.filter id).length
    let ns := nibblesOf (e.drop 64)
    if len = 64 + ceilDiv k 2 ∧ (ns.take k).all (· ≠ 0) ∧ (ns.drop k).all (· = 0) then some (packNib (spread bm (ns.take k)))
    else none

/-- The units of an image decoded in order. -/
def zbDecodeUnits (kind : Nat) : List Nat → List Byte → Option (List Byte)
  | [], _ => some []
  | l :: r, e =>
    match zbDecodeUnit kind l (e.take l), zbDecodeUnits kind r (e.drop l) with
    | some u, some rest => some (u ++ rest)
    | _, _ => none

/-- A stored image decompressed to `n` bytes; none where it is malformed (R318). -/
def zbDecode (kind n clen : Nat) (img : List Byte) : Option (List Byte) :=
  let units := ceilDiv n 256
  let ds := (List.range units).map (fun i => field img (2 * i) 2)
  let lens := ds.map (· % 1024)
  let total := 2 * units + lens.foldl (· + ·) 0
  if ds.any (fun d => d / 1024 ≠ 0) ∨ (total + total % 2) ≠ 2 * clen ∨ (total % 2 = 1 ∧ img.getD total 0 ≠ 0) then none
  else (zbDecodeUnits kind lens (img.drop (2 * units))).map (·.take n)

/-- A tensor's uncompressed bytes from its stored bytes; none for a malformed image. -/
def Desc.expand (d : Desc) (stored : List Byte) : Option (List Byte) :=
  if d.compress = 0 then some stored else zbDecode d.compress d.allocLen d.clen stored

/-- Bytes stored under a compression kind, with CLEN. -/
def storeAs (kind : Nat) (data : List Byte) : List Byte × Nat :=
  if kind = 0 then (data, 0) else let e := zbEncode kind data; (e, e.length / 2)

/-! ## Sums of a reduction (R325) -/

/-- The bytes of an element of a target format. -/
def elemBytes (fmt : Nat) : Nat := halfBytes fmt / 2

/-- One add, exact, rounded once to the target format to nearest even; integers wrap (R325). -/
def redAdd (fmt : Nat) (t : Nat) (src : Val) (raw : Nat) : Nat :=
  match fmt with
  | 8 => toF32 t ((ofF32 t).add src)
  | 5 => (bf16.encode .rne false t ((bf16.decode t).add src)).1
  | 10 => (t + raw) % 2 ^ 32
  | _ => (t + raw) % 2 ^ 64

/-- The value of a source element (R325, R326). -/
def redVal (fmt raw : Nat) : Val :=
  match fmt with
  | 8 => ofF32 raw
  | 5 => bf16.decode raw
  | 9 => w40.decode raw
  | _ => .nan

/-- Byte offset of element (row, column) of a W40 source: 16 x 16 tiles in row-major order, each a SAVE40 image
(R326). -/
def w40TileOff (cols row col : Nat) : Nat :=
  ((row / 16 * (cols / 16) + col / 16) * 256 + (row % 16 * 16 + col % 16)) * 5

/-- The indices of a target's elements, dimension 0 innermost. -/
def Desc.indices (d : Desc) : List (Nat × Nat × Nat × Nat) :=
  (List.range (d.allocAt 3)).flatMap (fun l => (List.range (d.allocAt 2)).flatMap (fun k =>
    (List.range (d.allocAt 1)).flatMap (fun j => (List.range (d.allocAt 0)).map (fun i => (i, j, k, l)))))

/-- A source added into a target, element by element in ascending order (R327). -/
def addSource (t src : Desc) (tb sb : List Byte) : List Byte :=
  let w := elemBytes t.format
  t.indices.foldl
    (fun b p =>
      let o := t.elemOff p.1 p.2.1 p.2.2.1 p.2.2.2 / 2
      let row := p.2.1 + t.allocAt 1 * (p.2.2.1 + t.allocAt 2 * p.2.2.2)
      let raw := if src.format = 9 then field sb (w40TileOff (t.allocAt 0) row p.1) 5
        else field sb (src.elemOff p.1 p.2.1 p.2.2.1 p.2.2.2 / 2) w
      b.take o ++ toLE w (redAdd t.format (field b o w) (redVal src.format raw) raw) ++ b.drop (o + w)) tb

end Sys2Proof.Machine
end

