-- ==== Sys2Proof/Machine/Cistern.lean ====
section
/-! DEFINITION. Requests to the cistern modules, the inline cipher, and the commit sequence (09_optics.md "Cisterns";
R365 to R375). -/

namespace Sys2Proof.Machine

/-- An accepted and unpublished command completes without effect because an input cannot be read: LOST_INPUT, reported
red (R407). -/
def State.lostInput (s : State) (c : Cmd) : State :=
  (s.raise 0x0303 2 0 0 c.ctx c.q c.seq).noEffect c 0x13

/-! ## Requests -/

/-- A request to module m, with the next tag. -/
def State.cisReq (s : State) (m : Nat) (what : CisFor) (o : Nat → Out) : State :=
  let x := s.module m
  (s.setModule m { x with reqs := x.reqs ++ [⟨x.nextTag, what⟩], nextTag := (x.nextTag + 1) % 4096 }).emit (o x.nextTag)

def State.cisRead (s : State) (m block : Nat) (what : CisFor) : State :=
  s.cisReq m what (fun t => .cRead m t block 1)

def State.cisFlush (s : State) (m : Nat) (what : CisFor) : State := s.cisReq m what (fun t => .cFlush m t)

def State.cisTrim (s : State) (m block n : Nat) (what : CisFor) : State :=
  s.cisReq m what (fun t => .cTrim m t block n)

/-- A block of 4 KiB as the module stores it, and as the device reads it: every block but block 0 goes through the
cipher (R370). -/
def cipherOut (epoch block : Nat) (data : List Byte) : List Byte :=
  if block = 0 then data else (List.range 4096).map (Config.cisEncrypt epoch block data)
def cipherIn (epoch block : Nat) (data : List Byte) : List Byte :=
  if block = 0 then data else (List.range 4096).map (Config.cisDecrypt epoch block data)

/-- A block written (C_WRITE), counted at the port (R511). -/
def State.cisWrite (s : State) (m block : Nat) (data : List Byte) (what : CisFor) : State :=
  let e := (s.module m).epoch
  let s := s.cisReq m what (fun t => .cWrite m t block (cipherOut e block data))
  (s.addCnt C.CIS_CNT_WRITTEN 1 m).addSlot 0x22 m 1 4096

/-- The blocks of 4 KiB of a run of bytes, the last padded with zeros. -/
def blocksOf (data : List Byte) : List (List Byte) :=
  (List.range (ceilDiv data.length 4096)).map (fun i =>
    let b := (data.drop (4096 * i)).take 4096
    b ++ List.replicate (4096 - b.length) 0)

/-! ## Data of a command in a cistern -/

/-- The block a command has read or staged at a cistern address: the module and the block name it. -/
def Cmd.block? (c : Cmd) (m block : Nat) : Option (List Byte) :=
  (c.data.find? (fun d => d.1 == m && d.2.1 == block)).map (·.2.2)

/-- The blocks that a cistern range covers. -/
def cisBlocks (a n : Nat) : List Nat := (List.range (ceilDiv n 4096)).map (fun i => cisBlock a + i)

/-- Has every block of a range been read. -/
def Cmd.blocksHere (c : Cmd) (a n : Nat) : Bool := (cisBlocks a n).all (fun b => (c.block? (cisModule a) b).isSome)

/-- The bytes of a range of blocks in hand. -/
def Cmd.blockBytes (c : Cmd) (a n : Nat) : List Byte :=
  ((cisBlocks a n).flatMap (fun b => (c.block? (cisModule a) b).getD [])).take n

/-- The next block of a range that the command has not read is asked for, one at a time. -/
def State.cisReadRange (s : State) (c : Cmd) (a n : Nat) : State :=
  match (cisBlocks a n).find? (fun b => (c.block? (cisModule a) b).isNone) with
  | none => s
  | some b =>
    if (s.module (cisModule a)).reqs.any (fun r => r.what.of c.q c.seq) then s
    else s.cisRead (cisModule a) b (.read c.q c.seq b)

/-! ## The commit sequence (table "Cistern commit") -/

/-- The catalogue block of a commit sequence number. -/
def catBlock (n : Nat) : Nat := 1 + (n - 1) % 1048575

/-- The commit record's block (R373; DIGEST of the data before encryption). -/
def commitBlock (n : Nat) (desc : List Byte) (first blocks : Nat) (data : List Byte) : List Byte :=
  layout 4096 [(0, 4, 1), (8, 8, n), (0x50, 8, first), (0x58, 8, blocks), (0xFF8, 8, n + 2 ^ 63)]
    |> fun b => b.take 0x10 ++ desc ++ (b.drop 0x50).take 16 ++ (List.range 32).map (Config.sha256 data) ++ b.drop 0x80

/-- A commit record found in a block (R373): TYPE, COMMIT, and a SEQ that belongs to the block. -/
def commitOf (block : Nat) (b : List Byte) : Option CatRec :=
  let n := field b 8 8
  if field b 0 4 = 1 ∧ field b 0xFF8 8 = n + 2 ^ 63 ∧ n ≠ 0 ∧ catBlock n = block then
    some { seq := n, desc := (b.drop 0x10).take 64, first := field b 0x50 8, blocks := field b 0x58 8 }
  else none

/-- Is a commit sequence under way on a module; sequences of several commands follow each other (log 38). -/
def Module.committing (x : Module) : Bool :=
  x.reqs.any (fun r => match r.what with
    | .catCheck _ _ | .data _ _ _ | .flush1 _ _ | .commit _ _ | .flush2 _ _ => true
    | _ => false)

/-- Step 1 for the next of the command's outputs that are homed in a cistern: the catalogue block is read. With none
left the command's outputs are complete in their staging (publication step 1). -/
def State.commitNext (s : State) (c : Cmd) : State :=
  match c.work.list with
  | [] => (s.setCmd { c with stage := .staged, hold := none, since := s.tm.now }).settle c.ctx
  | i :: _ =>
    match c.descs[i]? with
    | none => s
    | some d =>
      let m := cisModule d.store
      if (s.module m).committing then s
      else s.cisRead m (catBlock (s.cnt C.CIS_CAT_HEAD m)) (.catCheck c.q c.seq)

end Sys2Proof.Machine
end

