-- ==== Sys2Proof/Machine/Start.lean ====
section
/-! DEFINITION. The start of accepted commands other than the wellhead's, the weight window, moves and reductions
(R414; R196 to R198, R232, R264, R320 to R328, R368, R374, R383 to R385, R395). -/

namespace Sys2Proof.Machine

/-! ## What a command finds when it starts -/

/-- The descriptors a command names, as read at its start (R396). -/
def State.usesOf (s : State) (r : List Byte) : List DescUse :=
  (s.named r).map (fun n =>
    { addr := n.addr, out := n.out.isSome, store := n.out.getD 0, img := s.devRead n.addr 64 })

/-- Is a use read by the command: every one that is not an output, and the target of a REDUCE. -/
def inputsOf (us : List DescUse) : List DescUse := us.filter (fun u => !u.out)

/-- A named version that was lost and not re-derived (R407). -/
def State.isLost (s : State) (u : DescUse) : Bool := s.mm.lost.contains (u.addr, (descOf u.img).version)

/-- Where an output's data go, or an input's lie: the home, the address and the stored length. -/
def DescUse.range (u : DescUse) : Nat × Nat × Nat :=
  let d := descOf u.img
  if u.out then (d.home, u.store, d.allocLen) else (d.home, d.addr, d.storedLen)

/-- May the stored bytes of the inputs be read: no line of them is held modified by the host (R353). -/
def State.inputsReadable (s : State) (us : List DescUse) : Bool :=
  us.all (fun u => s.readable u.addr 64) &&
    (inputsOf us).all (fun u => s.homeReadable u.range.1 u.range.2.1 u.range.2.2)

/-- The recalls that reading them asks for. -/
def State.askInputs (s : State) (us : List DescUse) : State :=
  us.foldl (fun s u =>
    let s := s.askLines u.addr 64
    if !u.out && u.range.1 = 0 then s.askLines u.range.2.1 u.range.2.2 else s) s

/-! ## Runs of gauges and counters (R232, R264) -/

/-- The runs taken in the range of port die p, `per` numbers wide. -/
def takenIn (per p : Nat) (runs : List (Nat × Nat)) : List (Nat × Nat) := runs.filter (fun r => r.1 / per = p)

/-- The bases at which a run of n fits in the range of port die p. -/
def fitsIn (per p n : Nat) (runs : List (Nat × Nat)) : List Nat :=
  ((List.range (per + 1 - n)).map (· + p * per)).filter (fun b =>
    (takenIn per p runs).all (fun r => decide (b + n ≤ r.1) || decide (r.1 + r.2 ≤ b)))

/-- The port die that supplies a run: of those whose range can, the one with the most free, the lower on ties. -/
def supplier (per n : Nat) (runs : List (Nat × Nat)) : Option Nat :=
  let used (p : Nat) : Nat := (takenIn per p runs).foldl (fun k r => k + r.2) 0
  ((List.range 4).filter (fun p => decide (n ≤ per) && !(fitsIn per p n runs).isEmpty)).foldl
    (fun best p => match best with
      | none => some p
      | some b => if used p < used b then some p else some b) none

/-- A run taken: which of the places that fit is free (log 6). -/
def takeRun (per n seed : Nat) (runs : List (Nat × Nat)) : Option (Nat × Nat) :=
  match supplier per n runs with
  | none => none
  | some p =>
    let f := fitsIn per p n runs
    f[Config.pick seed % Nat.max 1 f.length]?.map (fun b => (b, n))

def State.gaugeRuns (s : State) : List (Nat × Nat) := s.cq.cmds.filterMap (fun c => c.gaugeRun)
def State.counterRuns (s : State) : List (Nat × Nat) := s.cq.cmds.filterMap (fun c => c.counterRun)

/-- Gauges and counters the plans of an image's segments need. -/
def State.gaugesOf (s : State) (im : ImageRef) (ps : List Plan) : Nat :=
  ps.foldl (fun n p =>
    if p.kind = 1 then n + convGauges (s.devRead (Config.imageBase im.desc im.version + p.kindOff) 32) else n) 0

def countersOf (ps : List Plan) : Nat := if ps.isEmpty then 0 else ps.foldl (fun n p => Nat.max n p.counter) 0 + 1

/-! ## What holds a start -/

/-- The image and the plans of a RUN. -/
def State.runImage (s : State) (c : Cmd) : ImageRef := s.imageRef (recImage c.rec_ 0x10)
def runSegment (c : Cmd) : Nat := field c.rec_ 0x14 2
def State.runPlans (s : State) (c : Cmd) : List Plan := s.plansOf (s.runImage c) (runSegment c)

/-- The sequences a RUN appends to and the positions of each append, of those that are there and its context's. -/
def State.appendsOf (s : State) (c : Cmd) : List (Nat × Nat) :=
  if c.kind = .run then
    (Config.imageAppend (s.runImage c).desc (s.runImage c).version (runSegment c)).filter (fun a =>
      (s.seq a.1).valid && (s.seq a.1).owner = c.ctx)
  else []

/-- Pages an append of n positions to a sequence needs, over its layers (R190, R198). -/
def State.appendPages (s : State) (n k : Nat) : Nat :=
  (s.seq n).layers * s.freshPages (s.seq n).image k

/-- Is an earlier accepted appender of the same sequence still in hand (R196), or an edit deferred to the end of one, which
takes effect before the next appender starts (R203). -/
def State.appendBehind (s : State) (c : Cmd) (n : Nat) : Bool :=
  (s.cq.cmds.takeWhile (fun d => !(d.q == c.q && d.seq == c.seq))).any (fun d =>
    d.appendTo.contains n || ((s.appendsOf d).any (fun a => a.1 == n))) ||
  s.kv.deferred.any (fun e => e.target = n)

/-- The images of sequences that are current for a command of a context when it starts (R192). -/
def State.snapsOf (s : State) (ctx : Nat) : List (Nat × Image) :=
  (s.kv.seqs.filter (fun e => e.2.valid && e.2.owner = ctx)).map (fun e => (e.1, e.2.image))

/-- Does a command hold the image in a sequence's other slot: it runs, and that image was the current one when it started
(R192, R197). -/
def State.holdsOther (s : State) (c : Cmd) (n : Nat) : Bool :=
  let q := s.seq n
  let old := if q.slot = 0 then q.img1 else q.img0
  c.epoch.isSome && old.gen ≠ q.image.gen && c.snaps.any (fun e => e.1 = n && e.2.gen = old.gen)
def State.slotHeld (s : State) (n : Nat) : Bool := s.cq.cmds.any (fun c => s.holdsOther c n)

/-- The first hold that keeps a command from starting: its fence, a module OFFLINE, the order of appenders, the other
image slot, gauges, counters, pages (R414). -/
def State.startHold (s : State) (c : Cmd) : Option Hold :=
  let us := s.usesOf c.rec_
  let ps := if c.kind = .run then s.runPlans c else []
  let ng := if c.kind = .run then s.gaugesOf (s.runImage c) ps else 0
  let nc := countersOf ps
  if recFenceStart c.rec_ && !s.fenceMet c.rec_ then some .fence
  else if us.any (fun u => u.range.1 = 3 && (s.module (cisModule u.range.2.1)).st = 5) then some .cistern
  else if (s.appendsOf c).any (fun a => s.appendBehind c a.1) then some .group
  else if (s.appendsOf c).any (fun a => s.slotHeld a.1) then some .table
  else if ng ≠ 0 && (supplier 16384 ng s.gaugeRuns).isNone then some .gauge
  else if nc ≠ 0 && (supplier 256 nc s.counterRuns).isNone then some .counter
  else if s.kvpFree < (s.appendsOf c).foldl (fun n a => n + s.appendPages a.1 a.2) 0 then some .page
  else none

/-! ## Pages taken for an append -/

/-- n pages taken one by one for a context. -/
def State.takePages : Nat → State → Nat → List Nat × State
  | 0, s, _ => ([], s)
  | n + 1, s, ctx =>
    match s.takePage ctx with
    | none => ([], s)
    | some (p, s') =>
      let r := State.takePages n s' ctx
      (p :: r.1, r.2)

/-- The pages of an append, in layers. -/
def layersOfPages (per : Nat) (layers : Nat) (ps : List Nat) : List (List Nat) :=
  (List.range layers).map (fun i => (ps.drop (i * per)).take per)

/-- One append of a RUN prepared: APPENDING set, the pages taken, the new image staged (R190, R196, R198). The pages that
the rule has reserved here and taken as they are first written are taken at once, which leaves KVP_FREE the same (DESIGN
CHOICE; log 115). -/
def State.appendOne (s : State) (c : Cmd) (n k : Nat) : State × Cmd :=
  let q := s.seq n
  let per := s.freshPages q.image k
  let before := s.kvpFree
  let r := State.takePages (q.layers * per) s c.ctx
  let s := r.2.lowCheck before
  let s := s.putSeq n { q with appending := true }
  let im := q.image.append (s.tailRoom q.image k) k (layersOfPages per q.layers r.1)
  let fit := Image.fitCap (im.count + 1) im
  (s, { c with
    appendTo := c.appendTo ++ [n]
    work := { c.work with taken := c.work.taken ++ r.1.map Obj.page, images := put {} c.work.images n fit.1 } })

/-- Every append of a RUN prepared. -/
def State.startAppend (s : State) (c : Cmd) : State × Cmd :=
  (s.appendsOf c).foldl (fun (a : State × Cmd) x => a.1.appendOne a.2 x.1 x.2) (s, c)

/-! ## Moves -/

/-- The outputs that are homed in a cistern, which the commit sequence serves before publication step 2. -/
def cisOutputs (us : List DescUse) : List Nat :=
  (List.range us.length).filter (fun i => match us[i]? with
    | some u => u.out && (descOf u.img).home = 3
    | none => false)

/-- All outputs are complete in their staging, but for the commits of those in a cistern (publication step 1; R374). -/
def State.outputsDone (s : State) (c : Cmd) : State :=
  let c := { c with work := { c.work with list := cisOutputs c.descs } }
  (s.setCmd c).commitNext c

/-- Bytes staged in their home; those for a cistern are kept as blocks until they are committed. -/
def State.stageBytes (s : State) (c : Cmd) (u : DescUse) (data : List Byte) : State × Cmd :=
  if (descOf u.img).home = 3 then
    let bs := blocksOf data
    (s, { c with data := c.data ++ (List.range bs.length).map (fun i =>
      (cisModule u.store, cisBlock u.store + i, bs.getD i [])) })
  else (s.homeWrite (descOf u.img).home u.store data, c)

/-- The stored bytes of an input, from its home or from the blocks read. -/
def State.inputBytes (s : State) (c : Cmd) (u : DescUse) : List Byte :=
  let r := u.range
  if r.1 = 3 then c.blockBytes r.2.1 r.2.2 else s.homeRead r.1 r.2.1 r.2.2

/-- Are the blocks of every input in a cistern in hand. -/
def Cmd.inputsHere (c : Cmd) : Bool :=
  (inputsOf c.descs).all (fun u => u.range.1 ≠ 3 || c.blocksHere u.range.2.1 u.range.2.2)

/-- A move's work, once its source is in hand (R280, R318, R383, R384). -/
def State.moveWork (s : State) (c : Cmd) : State :=
  match c.descs with
  | [src, dst] =>
    if !c.inputsHere then s
    else
      let d := descOf src.img
      let e := descOf dst.img
      let s := s.countRead d.home d.addr d.storedLen
      if s.homePoisoned d.home d.addr d.storedLen then s.lostInput c
      else match d.expand (s.inputBytes c src) with
        | none => s.noEffect c 0x11
        | some raw =>
          let out := if e.home = 1 then (raw, 0) else storeAs e.compress raw
          if e.allocLen < out.1.length then s.noEffect c 0x10
          else
            let r := s.stageBytes c dst out.1
            r.1.outputsDone { r.2 with result := out.2 }
  | _ => s

/-- Every read of the inputs that lie in cisterns. -/
def State.readCisterns (s : State) (c : Cmd) : State :=
  (inputsOf c.descs).foldl (fun s u => if u.range.1 = 3 then s.cisReadRange c u.range.2.1 u.range.2.2 else s) s

/-! ## The weight window -/

/-- A layer's request for its image (R320). -/
def State.requestWindow (s : State) (c : Cmd) (l : Layer) : State :=
  if l.windowBytes = 0 ∨ s.mm.window.any (fun w => w.q == c.q && w.seq == c.seq && w.layer == l.ord) then s
  else { s with mm.window := s.mm.window ++ [{ q := c.q, seq := c.seq, layer := l.ord, bytes := l.windowBytes, since := s.tm.now }] }

/-- PDIE_WIN_CFG.DEPTH; 0 acts as 1. -/
def State.windowDepth (s : State) : Nat := Nat.max 1 (s.fld F.PDIE_WIN_CFG.DEPTH)

/-- The requests of the first layers that read weights, made at the command's start: a held DEPTH takes effect first
(R541). -/
def State.requestFirst (s : State) (c : Cmd) : State :=
  let s := s.applyField F.PDIE_WIN_CFG.DEPTH
  ((c.layers.filter (fun l => l.windowBytes ≠ 0)).take s.windowDepth).foldl (fun s l => s.requestWindow c l) s

/-- Bytes of the window ring, and those granted. -/
def State.windowRing (s : State) : Nat := 4 * s.fld F.PDIE_WIN_SIZE.SIZE * 65536
def State.windowUsed (s : State) : Nat := (s.mm.window.filter (fun w => w.granted)).foldl (fun n w => n + w.bytes) 0

/-- Bytes of an image of n bytes in the quarter of slice p: units of 4 KiB dealt over the four (08, "The weight
window"). -/
def quarterBytes (n p : Nat) : Nat :=
  ((List.range (ceilDiv n 4096)).filter (fun u => u % 4 = p)).foldl (fun k u => k + Nat.min 4096 (n - 4096 * u)) 0

/-- The weight tensor of a layer of a command. -/
def State.layerWeights (s : State) (c : Cmd) (l : Layer) (base : Nat) : Option DescUse :=
  match (s.planAt base l.plan).weightSlot (c.descs.map (·.out)) with
  | some t => c.descs[t]?
  | none => none

/-- The image a STEP runs: that of its lowest group (R49). -/
def State.stepImage (s : State) (c : Cmd) : ImageRef :=
  let x := s.group ((stepMask c.rec_).headD 0)
  ⟨x.image, x.imageVersion⟩

/-- Where a layer of a STEP has its weights, in the image itself (R50; log 7). -/
def State.stepWeights (s : State) (c : Cmd) (l : Layer) : Nat × Nat :=
  Config.stepWeights (s.stepImage c).desc (s.stepImage c).version l.ord

/-- The image base of a command's layers. -/
def State.imageBaseOf (s : State) (c : Cmd) : Nat :=
  let im := s.runImage c
  Config.imageBase im.desc im.version

/-- The 4 KiB units of the ring that an image of n bytes from unit `a` takes. -/
def State.ringUnits (s : State) (a n : Nat) : List Nat :=
  (List.range (ceilDiv n 4096)).map (fun i => (a + i) % Nat.max 1 (s.windowRing / 4096))

/-- Where in the ring an image of n bytes is put: the first place that no granted image takes, from the start of the ring and
the ends of these on (DESIGN CHOICE: R321 fixes only that the space is taken at once; log 119). -/
def State.windowPlace (s : State) (n : Nat) : Nat :=
  let gs := s.mm.window.filter (fun w => w.granted)
  let taken := gs.flatMap (fun w => s.ringUnits w.at_ w.bytes)
  let ends := gs.map (fun w => (w.at_ + ceilDiv w.bytes 4096) % Nat.max 1 (s.windowRing / 4096))
  ((0 :: ends).find? (fun a => (s.ringUnits a n).all (fun u => !taken.contains u))).getD 0

/-- A request granted, its image of n bytes in the window: counted, and its layer may go on (R320, R323). -/
def State.windowHere (s : State) (c : Cmd) (w : WinReq) (n : Nat) : State :=
  let a := s.windowPlace w.bytes
  let s : State := { s with mm.window := s.mm.window.map (fun x => if x = w then { w with granted := true, at_ := a } else x) }
  let s := (List.range 4).foldl
    (fun s p => (s.addCnt C.PDIE_CNT_WIN_BYTES (quarterBytes n p) p).addSlot 0x20 p 1 (quarterBytes n p)) s
  s.setCmd { c with layers := c.layers.map (fun l => if l.ord = w.layer then { l with windowReady := true } else l) }

/-- The oldest waiting request is granted space for its whole image, whose bytes the weight pumps then write (R321,
R323); a malformed or lost weight tensor ends its command. -/
def State.windowGrant (s : State) : State :=
  if s.runs 313 then
    match s.mm.window.find? (fun w => !w.granted) with
    | none => s
    | some w =>
      match s.cmd? w.q w.seq with
      | none => s
      | some c =>
        if s.windowRing < s.windowUsed + w.bytes then s
        else if c.kind = .step then
          (match c.layers.find? (fun l => l.ord == w.layer) with
           | none => s
           | some l =>
             let x := s.stepWeights c l
             if !s.readable x.1 x.2 then s.askLines x.1 x.2
             else if s.homePoisoned 0 x.1 x.2 then s.lostInput c
             else (s.countRead 0 x.1 x.2).windowHere c w x.2)
        else match (c.layers.find? (fun l => l.ord == w.layer)).bind (fun l => s.layerWeights c l (s.imageBaseOf c)) with
          | none => s
          | some u =>
            let r := u.range
            if !s.homeReadable r.1 r.2.1 r.2.2 then s.askInputs [u]
            else if s.homePoisoned r.1 r.2.1 r.2.2 then s.lostInput c
            else if r.1 = 3 ∧ !c.blocksHere r.2.1 r.2.2 then s
            else match (descOf u.img).expand (s.inputBytes c u) with
              | none => s.noEffect c 0x11
              | some raw => (s.countRead r.1 r.2.1 r.2.2).windowHere c w raw.length
  else s

def execWindowGrant (s : State) : Host.Outcome State Fault Refusal := .next s.windowGrant

/-! ## COMMAND_START -/

/-- The layers of a RUN as the scheduler sees them. -/
def State.layersOf (s : State) (c : Cmd) : List Layer :=
  let im := s.runImage c
  let base := Config.imageBase im.desc im.version
  let as := Config.imagePlans im.desc im.version (runSegment c)
  (List.range as.length).map (fun i =>
    let p := s.planAt base (as.getD i 0)
    let bytes := match p.weightSlot (c.descs.map (·.out)) with
      | some t => (match c.descs[t]? with | some u => (descOf u.img).allocLen | none => 0)
      | none => 0
    { ord := i, plan := as.getD i 0, counter := p.counter, windowBytes := bytes })

/-- The records of a run of counters that a command is given show no work of an earlier command (R264, R265). -/
def State.clearCounters (s : State) (run : Option (Nat × Nat)) : State :=
  match run with
  | some (b, n) => { s with tl.counters := s.tl.counters.filter (fun g => !(decide (b ≤ g.1) && decide (g.1 < b + n))) }
  | none => s

/-- A RUN starts: its runs of gauges and counters, its pages, its base epoch and its window requests. -/
def State.startRun (s : State) (c : Cmd) : State :=
  let ps := s.runPlans c
  let ng := s.gaugesOf (s.runImage c) ps
  let gr := if ng = 0 then none else takeRun 16384 ng s.free s.gaugeRuns
  let cr := if ps.isEmpty then none else takeRun 256 (countersOf ps) (s.free + 1) s.counterRuns
  let s : State := { s with free := s.free + 2 }
  let s : State := match gr with
    | some (b, n) => { s with tl.gauges := s.tl.gauges.filter (fun g => !(decide (b ≤ g.1) && decide (g.1 < b + n))) }
    | none => s
  let reads := ps.any (fun p => p.kind = 2) || s.appendsOf c ≠ []
  let epoch := if reads then some s.kv.epoch else none
  let s := s.clearCounters cr
  let r := s.startAppend { c with
    gaugeRun := gr, counterRun := cr, epoch := epoch, layers := s.layersOf c, snaps := if reads then s.snapsOf c.ctx else [] }
  let s := r.1.setCmd r.2
  if r.2.layers.isEmpty then s.outputsDone r.2 else s.requestFirst r.2

/-- A command begins to run (R414). -/
def State.begin (s : State) (c : Cmd) : State :=
  let us := s.usesOf c.rec_
  let c := { c with stage := .running, hold := none, begun := true, descs := us }
  let s := s.setCmd c
  if (inputsOf us).any s.isLost then s.lostInput c
  else match c.kind with
    | .run => s.readCisterns c |>.startRun c
    | .move => (s.readCisterns c).moveWork c
    | .checkpoint => (s.readCisterns c).moveWork c
    | .reduce => s.readCisterns c
    | _ => s.outputsDone c

/-- A command of the wellhead: it starts by WH_COMMAND_START. -/
def Cmd.wellhead (c : Cmd) : Bool := recClass c.rec_ = 2

/-- COMMAND_START: a waiting command of a resident context starts, or is held (R414). -/
def State.commandStart (s : State) (q seq : Nat) : State :=
  match s.cmd? q seq with
  | none => s
  | some c =>
    if s.runs 313 ∧ s.queueRuns c.q ∧ c.stage = .waiting ∧ !c.wellhead ∧ s.resident c.ctx ∧ c.hold ≠ some .rederive then
      if !s.inputsReadable (s.usesOf c.rec_) then s.askInputs (s.usesOf c.rec_)
      else match s.startHold c with
        | some h => s.holdCmd c h
        | none =>
          let s := s.unhold c
          (s.begin { c with hold := none }).settle c.ctx
    else s

def execCommandStart (q : Fin 4096) (seq : W32) (s : State) : Host.Outcome State Fault Refusal :=
  .next (s.commandStart q seq.toNat)

/-! ## Reductions -/

/-- The ranges of a REDUCE's target and STAGE. -/
def State.reduceRanges (s : State) (c : Cmd) : List (Nat × Nat) :=
  let t := descOf (s.devRead (field c.rec_ 0x18 8) 64)
  [(t.addr, t.allocLen), (field c.rec_ 0x20 8, t.allocLen)]

/-- Does an earlier reduction that has not finished overlap this one's target (R327). -/
def State.reduceBehind (s : State) (c : Cmd) : Bool :=
  (s.cq.cmds.takeWhile (fun d => !(d.q == c.q && d.seq == c.seq))).any (fun d =>
    d.kind = .reduce && (d.stage = .waiting || d.stage = .running) && overlap (s.reduceRanges d) (s.reduceRanges c))

/-- The sources added to the target in order (R325, R327); none where a stored source is malformed. -/
def State.sumOf (s : State) (c : Cmd) (t : DescUse) (srcs : List DescUse) : Option (List Byte) :=
  let td := descOf t.img
  srcs.foldl
    (fun acc u => match acc, (descOf u.img).expand (s.inputBytes c u) with
      | some b, some raw => some (addSource td (descOf u.img) b raw)
      | _, _ => none) (some (s.devRead td.addr td.allocLen))

/-- Is the free engine of a port die. -/
def stackDie (a : Nat) : Nat := a / 2 ^ 36 % 16 / 3

/-- The reduction pump finishes: STAGE holds the sum, or the command ends without effect (R318, R327, R328, R385). -/
def State.reductionDone (s : State) (q seq : Nat) : State :=
  match s.cmd? q seq with
  | none => s
  | some c =>
    match c.descs with
    | [] => s
    | t :: srcs =>
      let stage := field c.rec_ 0x20 8
      let len := (descOf t.img).allocLen
      let die := stackDie stage
      if s.runs 313 ∧ c.kind = .reduce ∧ c.stage = .running ∧ c.inputsHere ∧ !s.reduceBehind c then
        if !s.inputsReadable c.descs then s.askInputs c.descs
        else
          let s := c.descs.foldl (fun s u => s.countRead u.range.1 u.range.2.1 u.range.2.2) s
          if c.descs.any (fun u => s.homePoisoned u.range.1 u.range.2.1 u.range.2.2) then s.lostInput c
          else match s.sumOf c t srcs with
            | none => s.noEffect c 0x11
            | some sum =>
              let s := s.homeWrite 0 stage sum
              let s := s.addCnt C.PDIE_CNT_REDUCED (len * srcs.length) die
              let s := s.addCnt C.HBMC_CNT_ADDED (len * (srcs.length - 1)) (stage / 2 ^ 36 % 16)
              (s.setInt F.PDIE_INT_STATUS.RED_DONE die).outputsDone c
      else s

def execReductionDone (q : Fin 4096) (seq : W32) (s : State) : Host.Outcome State Fault Refusal :=
  .next (s.reductionDone q seq.toNat)

end Sys2Proof.Machine
end

