-- ==== Sys2Proof/Machine/Vector.lean ====
section
/-! DEFINITION. The operations of the vector engine (03_core.md "The vector engine"; R99, R113, R116 to R119, R142, R152
to R158, R581). Operand fields are those of `VecWord` (log 8). -/

namespace Sys2Proof.Machine

/-- FP32 results of the vector engine: IEEE 754 to nearest even; a NaN's pattern is free (log 18). -/
def vAdd (a b : Nat) : Nat := f32add a b
def vMul (a b : Nat) : Nat := f32mul a b

/-- The greater or lesser of two values; with a NaN, or zeros of two signs, IEEE 754 leaves a choice (log 9). -/
def vMaxMin (greater : Bool) (a b : Nat) : Nat :=
  let x := ofF32 a
  let y := ofF32 b
  if x.isNan || y.isNan || (x.isZero && y.isZero && a ≠ b) then
    (Config.maxMin greater (BitVec.ofNat 32 a) (BitVec.ofNat 32 b)).toNat
  else if x.lt y then (if greater then b else a) else (if greater then a else b)

/-- SQRT: correctly rounded, with IEEE 754's special values (R118). -/
def vSqrt (a : Nat) : Nat :=
  match ofF32 a with
  | .nan => fp32.nanBits a
  | .inf n => if n then fp32.nanBits a else a
  | .fin n m e => if m = 0 then a else if n then fp32.nanBits a else toF32 a (rootOf m e)

/-- SplitMix64: the step and the output function (R581): the next state and the output. -/
def splitmix64 (x : Nat) : Nat × Nat :=
  let st := (x + 0x9E3779B97F4A7C15) % 2 ^ 64
  let z1 := Nat.xor st (st / 2 ^ 30) * 0xBF58476D1CE4E5B9 % 2 ^ 64
  let z2 := Nat.xor z1 (z1 / 2 ^ 27) * 0x94D049BB133111EB % 2 ^ 64
  (st, Nat.xor z2 (z2 / 2 ^ 31))

/-! ## Applying an operation -/

def isVec (op : VecOp) : CoreWord → Bool
  | .vec v => v.op = op
  | _ => false

/-- The FP32 elements of an operand. -/
def vecF32 (m : Mem) (a n : Nat) : List Nat := (List.range n).map (fun i => leNat (rdBytes m (a + 4 * i) 4))

/-- An elementwise operation of one, two or three FP32 operands. -/
def vecMap (f : Nat → Nat → Nat → Nat) (c : Nat) (s : State) (q : QWord) : State :=
  match q.w with
  | .vec v =>
    let k := s.core c
    let n := 32 * v.len
    let a := vecF32 k.store (v.a * 32) n
    let b := vecF32 k.store (v.b * 32) n
    let e := vecF32 k.store (v.c * 32) n
    let out := (List.range n).flatMap (fun i => toLE 4 (f (a.getD i 0) (b.getD i 0) (e.getD i 0)))
    s.setCore c { k with store := wrBytes k.store (v.d * 32) out }
  | _ => s

/-- SELECT takes the element of A where its mark, the word of C, is set, and that of B where it is zero: "a SELECT then
overwrites ... where the next step is marked" (R157; the place and the coding of the mark, log 8). -/
def selectMarked (a b mark : Nat) : Nat := if mark = 0 then b else a

/-! ## Reductions -/

/-- One level of the pairwise tree: lane 2i with lane 2i + 1 (R116). -/
def pairUp (f : Nat → Nat → Nat) : List Nat → List Nat
  | a :: b :: r => f a b :: pairUp f r
  | l => l

/-- The pairwise tree over 32 lanes: five levels. -/
def tree32 (f : Nat → Nat → Nat) (l : List Nat) : Nat :=
  (pairUp f (pairUp f (pairUp f (pairUp f (pairUp f l))))).headD 0

/-- A range reduced: each vector by the tree, then the vectors in ascending address order (R116). -/
def reduceRange (f : Nat → Nat → Nat) (m : Mem) (a len : Nat) : Nat :=
  let v (i : Nat) : Nat := tree32 f (vecF32 m (a + 128 * i) 32)
  (List.range (len - 1)).foldl (fun acc i => f acc (v (i + 1))) (v 0)

def vecReduce (f : Nat → Nat → Nat) (c : Nat) (s : State) (q : QWord) : State :=
  match q.w with
  | .vec v =>
    let k := s.core c
    s.setCore c { k with store := wrBytes k.store (v.d * 32) (toLE 4 (reduceRange f k.store (v.a * 32) v.len)) }
  | _ => s

/-- Does candidate (x, i) stand before (y, j): the higher score, equal scores by lower index, NaN below every number
(R117). -/
def topBefore (x i y j : Nat) : Bool :=
  let a := ofF32 x
  let b := ofF32 y
  if a.isNan then b.isNan && decide (i < j)
  else if b.isNan then true
  else if b.lt a then true else if a.lt b then false else decide (i < j)

def topInsert (p : Nat × Nat) : List (Nat × Nat) → List (Nat × Nat)
  | [] => [p]
  | r :: t => if topBefore p.1 p.2 r.1 r.2 then p :: r :: t else r :: topInsert p t

/-- The k highest (score, index) pairs, written as score and index words (R117; log 8). -/
def topkEff (c : Nat) (s : State) (q : QWord) : State :=
  match q.w with
  | .vec v =>
    let k := s.core c
    let xs := vecF32 k.store (v.a * 32) (32 * v.len)
    let top := (List.range xs.length).foldl (fun t i => (topInsert (xs.getD i 0, i) t).take v.aux) []
    s.setCore c { k with store := wrBytes k.store (v.d * 32) (top.flatMap (fun p => toLE 4 p.1 ++ toLE 4 p.2)) }
  | _ => s

/-- SPLITMIX: each 64-bit lane of A steps, and its output goes to D (R581). -/
def splitmixEff (c : Nat) (s : State) (q : QWord) : State :=
  match q.w with
  | .vec v =>
    let k := s.core c
    let r := (List.range (16 * v.len)).map (fun i => splitmix64 (leNat (rdBytes k.store (v.a * 32 + 8 * i) 8)))
    let m := wrBytes k.store (v.a * 32) (r.flatMap (fun p => toLE 8 p.1))
    s.setCore c { k with store := wrBytes m (v.d * 32) (r.flatMap (fun p => toLE 8 p.2)) }
  | _ => s

/-! ## Conversion -/

/-- The format of a CVT code; INT32 apart. -/
def cvtFmt (n : Nat) : Fmt :=
  if n = 0 then fp32 else if n = 1 then bf16 else if n = 2 then e4m3 else if n = 3 then e5m2 else if n = 4 then e2m1
  else if n = 5 then fp16 else w40

/-- Element i of an operand of a CVT code. -/
def cvtRead (m : Mem) (a fmt i : Nat) : Val :=
  if fmt = 4 then e2m1.decode (nibble m a i)
  else if fmt = 7 then ofInt 32 (leNat (rdBytes m (a + 4 * i) 4))
  else (cvtFmt fmt).decode (leNat (rdBytes m (a + fmtBytes fmt i) (fmtBytes fmt 1)))

/-- A value rounded to INT32. An overflow gives the nearest end when NARROW_SAT is one (R112); a NaN, and an overflow
otherwise, give a free value (log 18). -/
def toInt32 (r : Rnd) (sat : Bool) (key : Nat) (v : Val) : Nat × Bool :=
  let free := Config.nanPayload 64 key % 2 ^ 32
  match v with
  | .nan => (free, false)
  | .inf n => if sat then (if n then 2 ^ 31 else 2 ^ 31 - 1, true) else (free, true)
  | .fin n m e =>
    let x := roundTo r m e 0
    if n then
      (if x ≤ 2 ^ 31 then ((2 ^ 32 - x) % 2 ^ 32, false) else if sat then (2 ^ 31, true) else (free, true))
    else if x < 2 ^ 31 then (x, false) else if sat then (2 ^ 31 - 1, true) else (free, true)

/-- A value converted to a CVT code; to W40 under R91 and R582. -/
def cvtTo (k40 sat : Bool) (r : Rnd) (fmt key : Nat) (v : Val) : Nat × Bool :=
  if fmt = 7 then toInt32 r sat key v
  else if fmt = 6 then let p := toW40 k40 v; (p.1.toNat, p.2)
  else (cvtFmt fmt).encode r sat key v

/-- Elements converted in order, element i on lane i mod 16 (log 20). -/
def cvtElems (k40 sat stoch : Bool) (fmt : Nat) (acc : DrainAcc) : List Val → DrainAcc
  | [] => acc
  | v :: r =>
    let i := acc.outs.length
    let p := nextRnd stoch acc.lanes (i % 16)
    let e := cvtTo k40 sat p.1 fmt i v
    cvtElems k40 sat stoch fmt
      { lanes := p.2, sats := acc.sats + b2n (e.2 && (if fmt = 6 then k40 else sat)), outs := acc.outs ++ [e.1] } r

/-- Encoded elements of a CVT code as bytes. -/
def cvtPack (fmt : Nat) (l : List Nat) : List Byte :=
  if fmt = 4 then packNib l else l.flatMap (fun v => toLE (fmtBytes fmt 1) v)

/-- CVT. Without RND the lanes stay. With RND = 1 its generator starts, at each CVT word, from lanes loaded as R114 loads a drain's, so that equal
inputs give equal bits on every core and in every run (R116, R164). R114 gives a TILE to drains alone: which TILE a CVT
word takes is open and only tied to its place in the plan (DESIGN CHOICE; log 20). -/
def cvtEff (c : Nat) (s : State) (q : QWord) : State :=
  match q.w with
  | .vec v =>
    let k := s.core c
    let vs := (List.range (32 * v.len)).map (cvtRead k.store (v.a * 32) v.fmtA)
    let d := cvtElems (s.coreFld F.CORE_CFG.W40_SAT c = 1) (s.coreFld F.CORE_CFG.NARROW_SAT c = 1) v.rnd v.fmtD
      { lanes := lfsrLoad k.cmdSeed (Config.cvtTile q.tile) } vs
    let s := s.setCore c { k with
      store := wrBytes k.store (v.d * 32) (cvtPack v.fmtD d.outs), lfsr := if v.rnd then d.lanes else k.lfsr }
    s.addCoreCnt C.CORE_CNT_SAT c d.sats
  | _ => s

/-! ## W40 operations -/

/-- W40 results with their saturations counted (R91, R163). -/
def sats (l : List (W40 × Bool)) : Nat := l.foldl (fun n p => n + b2n p.2) 0

def w40Bytes (l : List (W40 × Bool)) : List Byte := l.flatMap (fun p => toLE 5 p.1.toNat)

def add40Eff (c : Nat) (s : State) (q : QWord) : State :=
  match q.w with
  | .vec v =>
    let k := s.core c
    let sat := s.coreFld F.CORE_CFG.W40_SAT c = 1
    let out := (List.range (32 * v.len)).map (fun i =>
      toW40 sat ((ofW40 (k.w40 (v.a * 32 + 5 * i))).add (ofW40 (k.w40 (v.b * 32 + 5 * i)))))
    (s.setCore c { k with store := wrBytes k.store (v.d * 32) (w40Bytes out) }).addCoreCnt C.CORE_CNT_SAT c (sats out)
  | _ => s

/-- Every element of a well replaced by a function of it (row order). -/
def wellMap (f : Nat → Nat → W40 → W40 × Bool) (k : Core) (w : Nat) : Core × Nat :=
  cells16.foldl
    (fun a p =>
      let r := f p.1 p.2 (k.well w p.1 p.2)
      (a.1.setWell w p.1 p.2 r.1, a.2 + b2n r.2)) (k, 0)

/-- A well operation applied, its saturations counted. -/
def wellEff (f : Bool → Core → VecWord → Nat → Nat → W40 → W40 × Bool) (c : Nat) (s : State) (q : QWord) : State :=
  match q.w with
  | .vec v =>
    let r := wellMap (f (s.coreFld F.CORE_CFG.W40_SAT c = 1) (s.core c) v) (s.core c) (v.d % 32)
    (s.setCore c r.1).addCoreCnt C.CORE_CNT_SAT c r.2
  | _ => s

/-- ADD40W adds the W40 tile at A into the well (R99, R119). -/
def add40wFn (sat : Bool) (k : Core) (v : VecWord) (r col : Nat) (old : W40) : W40 × Bool :=
  toW40 sat ((ofW40 old).add (ofW40 (k.w40 (v.a * 32 + 5 * (r * 16 + col)))))

/-- GATE40W: F times P plus B, exact and rounded once; a marked row takes P from the initial-state tile (R142, R157). -/
def gate40wFn (sat : Bool) (k : Core) (v : VecWord) (r col : Nat) (old : W40) : W40 × Bool :=
  let i := r * 16 + col
  let p := if bit v.aux r then k.w40 (v.c * 32 + 5 * i) else old
  toW40 sat (((ofF32 (k.f32 (v.a * 32 + 4 * i))).mul (ofW40 p)).add (ofF32 (k.f32 (v.b * 32 + 4 * i))))

/-- An operand of FMA40 and LSCAN40: W40 where its bit of the word is set, FP32 otherwise. -/
def mixed (k : Core) (isW40 : Bool) (a i : Nat) : Val :=
  if isW40 then ofW40 (k.w40 (a + 5 * i)) else ofF32 (k.f32 (a + 4 * i))

def fma40Eff (c : Nat) (s : State) (q : QWord) : State :=
  match q.w with
  | .vec v =>
    let k := s.core c
    let sat := s.coreFld F.CORE_CFG.W40_SAT c = 1
    let out := (List.range (32 * v.len)).map (fun i =>
      toW40 sat (((mixed k (bit v.fmtA 0) (v.a * 32) i).mul (mixed k (bit v.fmtA 1) (v.b * 32) i)).add
        (mixed k (bit v.fmtA 2) (v.c * 32) i)))
    (s.setCore c { k with store := wrBytes k.store (v.d * 32) (w40Bytes out) }).addCoreCnt C.CORE_CNT_SAT c (sats out)
  | _ => s

/-! ## The parallel scan -/

/-- The values of one channel over a chunk: A and B per step, with the saturations so far. -/
structure Scan where
  a : List W40
  b : List W40
  n : Nat := 0
deriving DecidableEq, Repr

/-- One level of the scan of a channel at distance 2^j: every step reads the previous level (R153). -/
def scanLevel (sat : Bool) (x : Scan) (d : Nat) : Scan :=
  let r := (List.range x.a.length).map (fun t =>
    let a := x.a.getD t 0
    let b := x.b.getD t 0
    if t < d then ((a, false), (b, false))
    else
      (toW40 sat ((ofW40 a).mul (ofW40 (x.a.getD (t - d) 0))),
        toW40 sat (((ofW40 a).mul (ofW40 (x.b.getD (t - d) 0))).add (ofW40 b))))
  { a := r.map (fun p => p.1.1), b := r.map (fun p => p.2.1)
    n := x.n + sats (r.map Prod.fst) + sats (r.map Prod.snd) }

/-- LSCAN40 of one channel (R153): the marked steps, the p levels, and with APPLY the states. -/
def scanChannel (sat apply : Bool) (p : Nat) (sinit carry : W40) (marks : List Bool) (a b : List Val) : Scan × List W40 :=
  let start := (List.range (2 ^ p)).map (fun t =>
    let x := a.getD t .nan
    let y := b.getD t .nan
    if marks.getD t false then (((0 : W40), false), toW40 sat ((x.mul (ofW40 sinit)).add y))
    else (((toW40 sat x).1, false), ((toW40 sat y).1, false)))
  let x0 : Scan := { a := start.map (fun q => q.1.1), b := start.map (fun q => q.2.1), n := sats (start.map Prod.snd) }
  let x := (List.range p).foldl (fun x j => scanLevel sat x (2 ^ j)) x0
  if apply then
    let st := (List.range (2 ^ p)).map (fun t =>
      toW40 sat (((ofW40 (x.a.getD t 0)).mul (ofW40 carry)).add (ofW40 (x.b.getD t 0))))
    ({ x with n := x.n + sats st }, st.map Prod.fst)
  else (x, [])

/-- LSCAN40 over 16 channels. Its operands: A and B the two sequences, row t of 16 channels; at C the initial states, the
carries in (80 bytes each) and one mark bit per step (R156); AUX holds p and, in bit 4, APPLY (log 8). Written: A and B
of the last step, then the states, or A and B of every step. -/
def lscan40Eff (c : Nat) (s : State) (q : QWord) : State :=
  match q.w with
  | .vec v =>
    let k := s.core c
    let sat := s.coreFld F.CORE_CFG.W40_SAT c = 1
    let p := v.aux % 16
    let l := 2 ^ p
    let apply := bit v.aux 4
    let c0 := v.c * 32
    let marks := (List.range l).map (fun t => (rdByte k.store (c0 + 160 + t / 8)).getLsbD (t % 8))
    let chan (h : Nat) : Scan × List W40 :=
      scanChannel sat apply p (k.w40 (c0 + 5 * h)) (k.w40 (c0 + 80 + 5 * h)) marks
        ((List.range l).map (fun t => mixed k (bit v.fmtA 0) (v.a * 32) (t * 16 + h)))
        ((List.range l).map (fun t => mixed k (bit v.fmtA 1) (v.b * 32) (t * 16 + h)))
    let r := (List.range 16).map chan
    let row (f : Scan × List W40 → W40) : List Byte := r.flatMap (fun x => toLE 5 (f x).toNat)
    let last := row (fun x => x.1.a.getD (l - 1) 0) ++ row (fun x => x.1.b.getD (l - 1) 0)
    let body := if apply then (List.range l).flatMap (fun t => row (fun x => x.2.getD t 0))
      else (List.range l).flatMap (fun t => row (fun x => x.1.a.getD t 0)) ++
        (List.range l).flatMap (fun t => row (fun x => x.1.b.getD t 0))
    let s := s.setCore c { k with store := wrBytes k.store (v.d * 32) (last ++ body) }
    s.addCoreCnt C.CORE_CNT_SAT c (r.foldl (fun n x => n + x.1.n) 0)
  | _ => s

end Sys2Proof.Machine
end

