-- ==== Sys2Proof/Machine/Wellhead.lean ====
section
/-! DEFINITION. The wellhead (02_rollouts.md): the start of its commands, the steps of a STEP, and what each command
does to groups, branches and the pools when it publishes. -/

namespace Sys2Proof.Machine

/-! ## Groups a command names, branches as it sees them -/

/-- The groups a wellhead command names, ascending. -/
def Cmd.groups (c : Cmd) : List Nat := if c.kind = .step then stepMask c.rec_ else [field c.rec_ 0x11 1]

def wbKey (g b : Nat) : Nat := branchKey g b

/-- A branch and an image as the command's staging shows them. -/
def State.wbranch (s : State) (c : Cmd) (k : Nat) : Branch :=
  match c.work.branches.find? (fun e => e.1 == k) with
  | some e => e.2
  | none => look {} s.wh.branches k

def State.wimage (s : State) (c : Cmd) (blk : Nat) : Image :=
  match c.work.images.find? (fun e => e.1 == blk) with
  | some e => e.2
  | none => look {} s.kv.images blk

/-- A branch's image, its sealed tail included (R57). -/
def State.branchImage (s : State) (c : Cmd) (br : Branch) : Image :=
  match br.block with
  | some k => let im := s.wimage c k; { im with tailSealed := im.tailSealed || br.tailSealed }
  | none => {}

/-- Local indices of a group in a state, as the command sees them. -/
def State.indicesIn (s : State) (c : Cmd) (g : Nat) (p : Nat → Bool) : List Nat :=
  (List.range (s.group g).capacity).filter (fun b => p (s.wbranch c (wbKey g b)).state)

/-- The objects a branch refers to: the pages its image lists and its state block. -/
def State.branchObjs (s : State) (c : Cmd) (br : Branch) : List Obj :=
  match br.block with
  | some k => (s.wimage c k).pages.map Obj.page ++ [.block k]
  | none => []

/-! ## Entries and history -/

/-- The bytes of a branch-table entry (R81). -/
def State.entryBytes (s : State) (b : Branch) : List Byte :=
  layout 64
    [(0, 4, b.state + 4 * b2n b.tailSealed), (4, 4, b.seed.toNat), (8, 2, b.parent), (0xA, 2, b.birthStep),
     (0xC, 2, b.steps), (0x10, 4, b.score.toNat), (0x14, 4, b.value.toNat), (0x18, 4, b.positions),
     (0x1C, 4, b.windowStart), (0x20, 8, match b.block with | some k => s.slotAddr k | none => 0),
     (0x28, 8, match b.block with | some k => s.sbAddr k | none => 0), (0x30, 4, b.ptGen)]

/-- An entry of the branch table, and its copy at WH_BT_BASE. -/
def State.putBranch (s : State) (k : Nat) (b : Branch) : State :=
  let s : State := { s with wh.branches := put {} s.wh.branches k b }
  s.devWrite (s.fld F.WH_BT_BASE.BASE * 2 ^ 26 + k * 64) (s.entryBytes b)

/-- The image of a branch whose state block is k, in its slot (R186). -/
def State.putImage (s : State) (k : Nat) (im : Image) : State :=
  ({ s with kv.images := put {} s.kv.images k im } : State).devWrite (s.slotAddr k) im.bytes

/-- A record written to a group's history (R73). -/
def State.histWrite (s : State) (g : Nat) (r : List Byte) : State :=
  let x := s.group g
  let base := s.fld F.WH_HIST_BASE_HI.BASE * 2 ^ 32 + s.fld F.WH_HIST_BASE_LO.BASE * 2 ^ 24
  if x.history.length < 1024 then
    (s.setGroup g { x with history := x.history ++ [r] }).hwr (base + g * 65536 + 64 * x.history.length) r .history
  else s

/-- The history record of a branch edit (05, "Software edits"). -/
def Edit.record (e : Edit) : List Byte :=
  layout 64
    [(0, 1, 2), (0x10, 1, 0x80), (0x14, 4, e.op + 16 * b2n e.branch), (0x18, 4, e.target), (0x1C, 4, e.arg0.toNat),
     (0x20, 4, e.arg1.toNat), (0x24, 4, e.ctx)]

/-- Pending edits of a freed branch are discarded (R204). -/
def State.dropEdits (s : State) (k : Nat) : State :=
  let g := k / 4096
  let x := s.group g
  s.setGroup g { x with edits := x.edits.filter (fun e => e.target ≠ k) }

/-! ## Values -/

/-- γ to the power of a branch's STEPS (log 30). -/
def gammaPow (gamma : W32) (n : Nat) : Nat :=
  if n = 0 then 0x3F800000 else if n = 1 then gamma.toNat else (Config.gammaPower gamma n).toNat

/-- The branch generator's u for draw d (R52, R581). -/
def branchU (seed branchSeed : W32) (steps d : Nat) : Nat :=
  let k := seed.toNat * 2 ^ 32 + branchSeed.toNat
  let h := (splitmix64 ((k + (steps * 256 + d) * 0x9E3779B97F4A7C15) % 2 ^ 64)).2
  (fp32.encode .down false 0 (.fin false (2 * (h / 2 ^ 40) + 1) (-25))).1

/-- One dimension of a SAMPLE action (R581). -/
def sampleDim (u1 u2 mean logScale : Nat) : Nat :=
  let r := vSqrt (f32mul 0xC0000000 (vLog 2 u1))
  let z := f32mul r (vTrig 6 u2)
  f32fma (vExp 1 0x42B17218 logScale) z mean

/-- The action width A, at most 128 (R51). -/
def Group.actions (x : Group) : Nat := Nat.min 128 (Config.imageActions x.image x.imageVersion)

/-- The row of an ACTIONS tensor for step `st` of the command, group ordinal `gi` and local index `b` (R51). -/
def actionRow (d : Desc) (bytes : List Byte) (a st gi b : Nat) : List W32 :=
  (List.range a).map (fun i => BitVec.ofNat 32 (field bytes (d.elemOff i b gi st / 2) 4))

/-- The action the next step of a branch consumes (R51). A value the spec gives no source for, before the policy head's first
outputs or in HOST mode without an ACTIONS tensor, is a free value of what R52 lets it depend on (log 88). The bytes of an
ACTIONS tensor are read as they are stored: the spec does not say what a compressed one gives here (DESIGN CHOICE; log 117). -/
def State.actionOf (s : State) (c : Cmd) (g gi b : Nat) (br : Branch) : List W32 :=
  let x := s.group g
  let a := x.actions
  let free := (List.range a).map (Config.firstAction x.seed br.seed br.steps)
  match x.actionMode with
  | 0 =>
    if br.mean.length < a ∨ br.logScale.length < a then free
    else
      (List.range a).map (fun i =>
        BitVec.ofNat 32 (sampleDim (branchU x.seed br.seed br.steps (2 * i)) (branchU x.seed br.seed br.steps (2 * i + 1))
          (br.mean.getD i 0).toNat (br.logScale.getD i 0).toNat))
  | 1 => if br.mean.length < a then free else br.mean.take a
  | _ =>
    match c.descs with
    | u :: _ => actionRow (descOf u.img) (s.inputBytes c u) a c.work.step gi b
    | [] => free

/-! ## Start tests and holds -/

/-- The first of a list of conditions that holds. -/
def firstOf : List (Bool × Nat) → Option Nat
  | [] => none
  | (b, n) :: r => if b then some n else firstOf r

/-- Is a group OPEN for the command: OPEN, or BUSY with the command's own lock from before a re-execution. -/
def State.openFor (s : State) (c : Cmd) (g : Nat) : Bool :=
  (s.group g).state = 1 || ((s.group g).state = 2 && (s.group g).lock = some (c.q, c.seq))

/-- Would the command's records overfill a group's history (R74). -/
def State.histFull (s : State) (g n : Nat) : Bool := decide (1024 < (s.group g).history.length + n)

/-- The records a STEP writes for a group: its own, and those of the pending edits it applies, of LIVE branches (R204). -/
def State.stepRecords (s : State) (g : Nat) : Nat :=
  ((s.group g).edits.filter (fun e => (s.branch g (e.target % 4096)).state = 1)).length + 1

/-- Branches that commands in hand, this one aside, will add when they publish: an OPEN one, a FORK its children less a
retired parent (R36). -/
def State.bornPending (s : State) (c : Cmd) : Nat :=
  (s.cq.cmds.filter (fun d => d.begun && !(d.q == c.q && d.seq == c.seq))).foldl
    (fun n d => match d.kind with
      | .open_ => n + 1
      | .fork => n + field d.rec_ 0x14 1 - b2n (bit (field d.rec_ 0x15 1) 0)
      | _ => n) 0

/-- The root sequence an OPEN names, when it exists and the context owns it. One that is not VALID, or not below
KVP_SEQ_COUNT, is nobody's: the OPEN ends NOT_OWNED (DESIGN CHOICE: the status table names only a sequence owned by another
context; log 117). -/
def State.rootSeq? (s : State) (c : Cmd) : Option Seq :=
  let q := s.seq (field c.rec_ 0x38 4)
  if q.valid ∧ q.owner = c.ctx ∧ field c.rec_ 0x38 4 < s.fld F.KVP_SEQ_COUNT.N then some q else none

/-- The root state tensor's format and shape (R44, BAD_ROOT). -/
def State.badRoot (s : State) (c : Cmd) : Bool :=
  match c.descs with
  | u :: _ =>
    let d := descOf u.img
    let im := s.imageRef (recImage c.rec_ 0x1C)
    !(d.format = 9 || d.format = 8) || (List.range d.rank).map d.allocAt ≠ Config.imageShape im.desc im.version
  | [] => true

/-- The status with which a command that starts has no effect (R36, R38, R49, R54, R59, R60, R74, R80). Groups use one image
where their handles are equal, at whatever VERSION each was opened; the STEP runs the lowest group's (DESIGN CHOICE: R49 says
only "one image"; log 117). -/
def State.whTest (s : State) (c : Cmd) : Option Nat :=
  let gs := c.groups
  let g := gs.headD 0
  let closed := gs.any (fun g => !s.openFor c g)
  let foreign := gs.any (fun g => (s.group g).owner ≠ c.ctx)
  match c.kind with
  | .open_ =>
    firstOf [((s.group g).state ≠ 0 && (s.group g).owner ≠ c.ctx, 2), ((s.group g).state ≠ 0, 3),
      ((s.rootSeq? c).isNone, 2), (decide (65536 ≤ s.liveAll + s.bornPending c), 6), (s.badRoot c, 8)]
  | .step =>
    firstOf [(closed, 3), (foreign, 2),
      (gs.any (fun h => (s.group h).image ≠ (s.group g).image), 4),
      (gs.all (fun h => (s.indicesIn c h (· = 1)).isEmpty), 1),
      (gs.any (fun h => s.histFull h (s.stepRecords h)), 7)]
  | .fork =>
    let p := field c.rec_ 0x12 2
    let n := field c.rec_ 0x14 1
    let ret := b2n (bit (field c.rec_ 0x15 1) 0)
    firstOf [(closed, 3), (foreign, 2),
      (decide ((s.group g).capacity ≤ p) || (s.branch g p).state ≠ 1, 5),
      (decide ((s.indicesIn c g (· = 0)).length + ret < n) || decide (65536 < s.liveAll + s.bornPending c + n - ret), 6),
      (s.histFull g 1, 7)]
  | .prune => firstOf [(closed, 3), (foreign, 2), (s.histFull g 1, 7)]
  | _ => firstOf [(closed, 3), (foreign, 2)]

/-- A wellhead command that fails a test has no effect (R79, R74). -/
def State.whFail (s : State) (c : Cmd) (status : Nat) : State :=
  let s := if status = 7 then (s.setInt F.WH_INT_STATUS.HISTORY_FULL).raise 0x0201 0 0 0 c.ctx c.q c.seq else s
  s.noEffect c status

/-- The plans of the step segments a STEP runs: DYN, ATT, HEADS, and DEC where a named group decodes (R48). -/
def State.stepSegments (s : State) (c : Cmd) : List Nat :=
  if c.groups.any (fun g => bit (s.group g).flags 1) then [0, 1, 2, 3] else [0, 1, 2]

def State.stepPlans (s : State) (c : Cmd) : List Plan := (s.stepSegments c).flatMap (fun i => s.plansOf (s.stepImage c) i)

/-- Wellhead commands that run, and how many may (R68). -/
def State.whRunning (s : State) : Nat := (s.cq.cmds.filter (fun c => c.wellhead && c.stage = .running)).length
def State.whMax (s : State) : Nat :=
  let n := s.fld F.WH_MAX_INFLIGHT.N
  if n = 0 ∨ 16 < n then 16 else n

/-- Is an earlier wellhead command that names a common group still in hand (R67). -/
def State.whBehind (s : State) (c : Cmd) : Bool :=
  (s.cq.cmds.takeWhile (fun d => !(d.q == c.q && d.seq == c.seq))).any (fun d =>
    d.wellhead && d.groups.any (fun g => c.groups.contains g))

/-- What holds the start of a wellhead command: its fence, the order of its groups, a replay, a module, and for a STEP its
runs of gauges and counters, for an OPEN a state block. -/
def State.whStartHold (s : State) (c : Cmd) : Option Hold :=
  let ps := if c.kind = .step then s.stepPlans c else []
  let ng := if c.kind = .step then s.gaugesOf (s.stepImage c) ps else 0
  let nc := countersOf ps
  if recFenceStart c.rec_ && !s.fenceMet c.rec_ then some .fence
  else if s.whBehind c then some .group
  else if c.groups.any (fun g => (s.group g).state = 3) then some .rederive
  else if (s.usesOf c.rec_).any (fun u => u.range.1 = 3 && (s.module (cisModule u.range.2.1)).st = 5) then some .cistern
  else if ng ≠ 0 && (supplier 16384 ng s.gaugeRuns).isNone then some .gauge
  else if nc ≠ 0 && (supplier 256 nc s.counterRuns).isNone then some .counter
  else if c.kind = .open_ && s.sbFreeList.isEmpty then some .state
  else none

/-! ## The work of OPEN, FORK and PRUNE -/

/-- The command's outputs are complete in their staging (publication step 1). -/
def State.stagedNow (s : State) (c : Cmd) : State :=
  (s.setCmd { c with stage := .staged, hold := none, since := s.tm.now }).settle c.ctx

/-- The W40 bytes of a root state (R44): FP32 converts exactly. -/
def rootBytes (d : Desc) (b : List Byte) : List Byte :=
  d.indices.flatMap (fun p =>
    let o := d.elemOff p.1 p.2.1 p.2.2.1 p.2.2.2 / 2
    if d.format = 9 then (b.drop o).take 5 else toLE 5 (toW40 false (ofF32 (field b o 4))).1.toNat)

/-- Counts of objects raised for new holders (R56, R185). -/
def State.addRefs (s : State) (os : List Obj) (n : Nat) : State :=
  os.foldl (fun s o => s.applyRef { obj := o, add := true, n := n, tag := 0 }) s

/-- OPEN's work: the root state in a state block, which the root branch and the group hold, and a copy of the root
sequence's image with its tail sealed (R44, R45, R186). -/
def State.openWork (s : State) (c : Cmd) : State :=
  match c.descs, s.rootSeq? c, s.takeBlock with
  | u :: _, some q, some (k, t) =>
    if !c.inputsHere then s
    else if t.homePoisoned u.range.1 u.range.2.1 u.range.2.2 then s.lostInput c
    else
      match (descOf u.img).expand (s.inputBytes c u) with
      | none => s.noEffect c 0x11
      | some raw =>
        let im := { q.image with tailSealed := true }
        let os := im.pages.map Obj.page
        let t := (t.countRead u.range.1 u.range.2.1 u.range.2.2).setObjCount (.block k) 2
        let t := (t.devWrite (t.sbAddr k) (rootBytes (descOf u.img) raw)).addRefs os 1
        t.stagedNow { c with
          work := { c.work with list := [k], images := [(k, im)], taken := [.block k], added := os.map (fun o => (o, 1)) } }
  | _, _, _ => s

/-- A child of a fork (R56, R57). -/
def childOf (p : Branch) (parent : Nat) (birth : Nat) (seed : Nat) : Branch :=
  { p with seed := BitVec.ofNat 32 seed, parent := parent, birthStep := birth, tailSealed := true, action := [] }

/-- FORK's work (R56 to R58): children take the lowest free indices, and each refers to the parent's pages and block. -/
def State.forkWork (s : State) (c : Cmd) : State :=
  let g := c.groups.headD 0
  let p := field c.rec_ 0x12 2
  let n := field c.rec_ 0x14 1
  let ret := bit (field c.rec_ 0x15 1) 0
  let br := s.branch g p
  let idx := ((List.range (s.group g).capacity).filter (fun b =>
    (s.branch g b).state = 0 || (ret && b = p))).take n
  let os := s.branchObjs c br
  let kids := (List.range idx.length).map (fun j =>
    (wbKey g (idx.getD j 0), childOf br p (s.group g).steps ((field c.rec_ 0x18 4 + j) % 2 ^ 32)))
  let s := s.addRefs os n
  s.stagedNow { c with
    work := { c.work with
      branches := kids ++ (if ret then [] else [(wbKey g p, { br with tailSealed := true })])
      list := idx, stepped := if ret then [wbKey g p] else []
      added := os.map (fun o => (o, n)) } }

/-- Does score a of index i rank before score b of index j: the higher value, NaN below every number, the lower index
first on ties (R62). -/
def ranksBefore (a i b j : Nat) : Bool :=
  let x := ofF32 a
  let y := ofF32 b
  if x.isNan then y.isNan && decide (i < j)
  else y.isNan || y.lt x || (!(x.lt y) && decide (i < j))

def rankInsert (p : Nat × Nat) : List (Nat × Nat) → List (Nat × Nat)
  | [] => [p]
  | q :: r => if ranksBefore p.1 p.2 q.1 q.2 then p :: q :: r else q :: rankInsert p r

/-- The ranking score of a branch (R63): the product is rounded to FP32 and then the sum (DESIGN CHOICE: the rule says only
"in FP32"; log 30). A HOST score is read as stored, also from a compressed SCORES tensor (DESIGN CHOICE; log 117), and is
free without one (log 88). -/
def State.rankScore (s : State) (c : Cmd) (g b : Nat) : Nat :=
  let x := s.group g
  let br := s.branch g b
  match x.scoreMode with
  | 0 => br.score.toNat
  | 1 => f32add br.score.toNat (f32mul (gammaPow x.gamma br.steps) br.value.toNat)
  | 2 => br.value.toNat
  | _ =>
    match c.descs with
    | u :: _ => field (s.inputBytes c u) ((descOf u.img).elemOff b 0 0 0 / 2) 4
    | [] => (Config.missingScore x.seed br.seed br.steps).toNat

/-- PRUNE's work (R62 to R65): the kept indices in rank order; every other branch of the group is freed. -/
def State.pruneWork (s : State) (c : Cmd) : State :=
  if !c.inputsHere then s
  else if (inputsOf c.descs).any (fun u => s.homePoisoned u.range.1 u.range.2.1 u.range.2.2) then s.lostInput c
  else
    let g := c.groups.headD 0
    let idx := s.indicesIn c g (· ≠ 0)
    let ranked := (idx.foldl (fun l b => rankInsert (s.rankScore c g b, b) l) []).map (·.2)
    let kept := ranked.take (field c.rec_ 0x12 2)
    let gone := idx.filter (fun b => !kept.contains b)
    s.stagedNow { c with
      work := { c.work with
        list := kept, stepped := gone.map (wbKey g) } }

/-- The work of a wellhead command whose input data are in hand. -/
def State.whWork (s : State) (c : Cmd) : State :=
  match c.kind with
  | .open_ => s.openWork c
  | .fork => s.forkWork c
  | .prune => s.pruneWork c
  | .close => s.stagedNow c
  | _ => s

/-- The groups of a starting command become BUSY (R41); an OPEN's group stays CLOSED until it publishes. -/
def State.lockGroups (s : State) (c : Cmd) : State :=
  if c.kind = .open_ then s
  else c.groups.foldl (fun s g => s.setGroup g { (s.group g) with state := 2, lock := some (c.q, c.seq) }) s

/-- Is a core free for a PRUNE's selection, in a cluster that may take a further layer (R66, R417, R421). -/
def State.someCoreFree (s : State) : Bool :=
  (List.range 10240).any (fun k =>
    s.coreFld F.CORE_CFG.PLACE k = 1 && s.coreFld F.CORE_STATUS.OFFLINE k = 0 && s.coreFld F.CORE_STATUS.TESTING k = 0 &&
      (s.core k).place.isNone && !(s.core k).out && !(s.cluster (k / 40)).removed &&
      decide ((s.cluster (k / 40)).layers.length < 4))

/-- WH_COMMAND_START: a waiting wellhead command of a resident context starts, is held, or ends without effect (R36 to
R41, R49, R54, R59, R60, R67, R68, R74, R79). -/
def State.whCommandStart (s : State) (q seq : Nat) : State :=
  match s.cmd? q seq with
  | none => s
  | some c =>
    if s.runs 313 ∧ s.queueRuns c.q ∧ c.stage = .waiting ∧ c.wellhead ∧ s.resident c.ctx ∧ s.whRunning < s.whMax ∧
        (c.kind ≠ .prune ∨ s.someCoreFree) then
      let us := s.usesOf c.rec_
      if !s.inputsReadable us then s.askInputs us
      else match s.whStartHold c with
        | some h => s.holdCmd c h
        | none =>
          let s := s.unhold c
          let c := { c with hold := none, stage := .running, begun := true, descs := us }
          let s := s.setCmd c
          if (inputsOf us).any s.isLost then s.lostInput c
          else match s.whTest c with
            | some st => s.whFail c st
            | none =>
              let s := s.lockGroups c
              let s := c.groups.foldl
                (fun s g => s.trace { type := 8, ctx := c.ctx, q := c.q, seq := c.seq, arg0 := recOp c.rec_, arg1 := g }) s
              let ps := if c.kind = .step then s.stepPlans c else []
              let ng := if c.kind = .step then s.gaugesOf (s.stepImage c) ps else 0
              let gr := if ng = 0 then none else takeRun 16384 ng s.free s.gaugeRuns
              let cr := if ps.isEmpty then none else takeRun 256 (countersOf ps) (s.free + 1) s.counterRuns
              let s : State := { s with free := s.free + 2 }
              let s : State := match gr with
                | some (b, n) => { s with tl.gauges := s.tl.gauges.filter (fun e => !(decide (b ≤ e.1) && decide (e.1 < b + n))) }
                | none => s
              let s := s.clearCounters cr
              let c := { c with
                gaugeRun := gr, counterRun := cr, epoch := some s.kv.epoch, work := { c.work with groups := c.groups } }
              let s := (s.setCmd c).readCisterns c
              (s.whWork c).settle c.ctx
    else s

def execWhCommandStart (q : Fin 4096) (seq : W32) (s : State) : Host.Outcome State Fault Refusal :=
  .next (s.whCommandStart q seq.toNat)

/-! ## STEP_START -/

/-- A branch prepared for a step: its key, its image with the window advanced and edits applied, the pages that the window
has left, the other pages dropped, the edits, the entries evicted, and the pages of these that the command had staged. -/
structure Prep where
  key     : Nat
  img     : Image
  left    : List Nat
  gone    : List Nat
  edits   : List Edit
  evicted : Nat
  freed   : List Nat := []
deriving DecidableEq, Repr

/-- A branch's window advanced so that it spans the last WINDOW positions, those of the step included, and its pending
edits applied (R46, R204). -/
def State.prepare (s : State) (c : Cmd) (g b tokens : Nat) : Prep :=
  let k := wbKey g b
  let br := s.wbranch c k
  let w := (s.branchImage c br).raiseTo (br.positions + tokens - (s.group g).window)
  let es := (s.group g).edits.filter (fun e => e.target = k && !c.work.edits.contains (k, e))
  let r := es.foldl
    (fun (r : Image × List Nat × Nat) e =>
      let x := editApply e r.1
      (x.1, r.2.1 ++ x.2, if e.op = 4 then r.2.2 + x.2.length else r.2.2)) (w.1, [], 0)
  { key := k, img := r.1, left := w.2, gone := r.2.1, edits := es, evicted := r.2.2 }

/-- New pages a prepared branch takes (R48, R190). -/
def State.prepNeed (s : State) (tokens : Nat) (p : Prep) : Nat := p.img.layers * s.freshPages p.img tokens

/-- n eligible entries of a layer evicted, as many as there are (R199, R200). -/
def State.evictN (s : State) (keep layer : Nat) : Nat → Image → List Nat → Image × List Nat
  | 0, im, gone => (im, gone)
  | n + 1, im, gone =>
    match s.evictChoice im keep layer with
    | none => (im, gone)
    | some i => let r := im.evict layer i; s.evictN keep layer n r.1 (gone ++ r.2)

/-- A branch of an engaged group evicts in each layer as many entries as it takes pages there. An evicted page that the
command had itself staged serves the step that evicts it, which takes the rest from the pool (R200, R201; DEDUCED, log 118). -/
def State.prepEvict (s : State) (c : Cmd) (tokens : Nat) (p : Prep) : Prep :=
  let keep := (s.group (p.key / 4096)).keepNewest
  let n := s.freshPages p.img tokens
  let r := (List.range p.img.layers).foldl (fun r l => s.evictN keep l n r.1 r.2) (p.img, [])
  { p with
    img := r.1, gone := p.gone ++ r.2.filter (fun x => !c.work.taken.contains (.page x)), evicted := p.evicted + r.2.length
    freed := r.2.filter (fun x => c.work.taken.contains (.page x)) }

/-- Does eviction engage for a group at a step: at the step recorded for it, else where its reservation is short and
FLAGS.EVICT is set (R200, R201). -/
def State.engages (s : State) (g step avail need : Nat) : Bool :=
  match (s.group g).evictStep with
  | some k => decide (k ≤ step)
  | none => bit (s.group g).flags 0 && decide (avail < need)

/-- The groups of a step with their prepared branches and whether eviction engages, the pages of earlier groups
reserved first. -/
def State.planStep (s : State) (c : Cmd) (tokens : Nat) : (avail : Nat) → List Nat → List (Nat × Bool × List Prep)
  | _, [] => []
  | avail, g :: r =>
    let ps := (s.indicesIn c g (· = 1)).map (fun b => s.prepare c g b tokens)
    let need := ps.foldl (fun n p => n + s.prepNeed tokens p) 0
    let e := !ps.isEmpty && s.engages g c.work.step avail need
    (g, e, if e then ps.map (s.prepEvict c tokens) else ps) :: s.planStep c tokens (avail - need) r

/-- Objects that the step before dropped and this command had staged return to their free lists (R193). -/
def State.returnStepDrops (s : State) (c : Cmd) : State × Cmd :=
  let s := c.work.stepDrops.foldl (fun s o => s.setObjCount o 0) s
  (s.unstage c.work.stepDrops,
    { c with work := { c.work with
      stepDrops := [], taken := c.work.taken.filter (fun o => !c.work.stepDrops.contains o) } })

/-- Objects a step drops: those this command staged wait for its next step, published ones for its publication. -/
def Work.drop (w : Work) (os : List Obj) : Work :=
  { w with
    drops := w.drops ++ os.filter (fun o => !w.taken.contains o)
    stepDrops := w.stepDrops ++ os.filter (fun o => w.taken.contains o) }

/-- Pages that a step's window leaves: the release of a published one is queued at once, under the tag of the publication to
come (R46, R191); one the command has staged waits for its next step (R193). -/
def State.releaseLeft (s : State) (c : Cmd) (os : List Obj) : State × Cmd :=
  let out := os.filter (fun o => !c.work.taken.contains o)
  (s.dropRefs (s.kv.epoch + 1) out,
    { c with work := { c.work with
      released := c.work.released ++ out, stepDrops := c.work.stepDrops ++ os.filter (fun o => c.work.taken.contains o) } })

/-- Evicted pages that a command had staged return to their free lists as its step begins. -/
def State.returnFreed (s : State) (c : Cmd) (ps : List Nat) : State × Cmd :=
  let os := ps.map Obj.page
  ((os.foldl (fun s o => s.setObjCount o 0) s).unstage os,
    { c with work := { c.work with taken := c.work.taken.filter (fun o => !os.contains o) } })

/-- One prepared branch takes its state block and pages, and gets its new image and its action (R42, R48, R51, R189,
R190). -/
def State.stageBranch (s : State) (c : Cmd) (tokens gi : Nat) (p : Prep) : State × Cmd :=
  let br := s.wbranch c p.key
  let g := p.key / 4096
  match s.takeBlock with
  | none => (s, c)
  | some (k, s) =>
    let u := s.releaseLeft c (p.left.map Obj.page)
    let s := u.1
    let c := u.2
    let room := s.tailRoom p.img tokens
    let per := s.freshPages p.img tokens
    let t := State.takePages (p.img.layers * per) s c.ctx
    let s := t.2
    let im := p.img.append room tokens (layersOfPages per p.img.layers t.1)
    let fit := Image.fitCap (im.count + 1) im
    let im := { fit.1 with gen := p.img.gen + 1 }
    let a := s.actionOf c g gi (p.key % 4096) br
    let old : List Obj := match br.block with | some b => [.block b] | none => []
    let w := c.work.drop (((p.gone ++ fit.2).map Obj.page) ++ old)
    let w := { w with
      taken := w.taken ++ t.1.map Obj.page ++ [.block k]
      images := put {} w.images k im
      branches := put {} w.branches p.key { br with block := some k, action := a }
      edits := w.edits ++ p.edits.map (fun e => (p.key, e))
      stepped := w.stepped ++ [p.key] }
    (s, { c with work := w })

/-- The layers of a step's segments, in order. -/
def State.stepLayers (s : State) (c : Cmd) : List Layer :=
  let im := s.stepImage c
  let base := Config.imageBase im.desc im.version
  ((s.stepSegments c).foldl
    (fun (a : List Layer) g =>
      let ps := Config.imagePlans im.desc im.version g
      a ++ (List.range ps.length).map (fun i =>
        { ord := a.length + i, plan := ps.getD i 0, counter := (s.planAt base (ps.getD i 0)).counter, seg := g
          first := a.length, windowBytes := (Config.stepWeights im.desc im.version (a.length + i)).2 })) [])

/-- STEP_START: the next step of a running STEP begins, or is held whole (R46, R48, R55, R69, R193, R199 to R201). -/
def State.stepStart (s : State) (q seq : Nat) : State :=
  match s.cmd? q seq with
  | none => s
  | some c =>
    if s.runs 313 ∧ s.resident c.ctx ∧ (s.ctx c.ctx).st ≠ .yielding ∧ c.kind = .step ∧ c.stage = .running ∧ !c.work.inStep ∧
        c.work.step < field c.rec_ 0x11 1 ∧ c.inputsHere then
      if !s.inputsReadable c.descs then s.askInputs c.descs
      else
      let r := s.returnStepDrops c
      let s := r.1
      let c := r.2
      let s := s.setCmd c
      let im := s.stepImage c
      let tokens := Config.imageTokens im.desc im.version
      let plan := s.planStep c tokens s.kvpFree c.groups
      let engagedNow := (plan.filter (fun p => p.2.1)).map (·.1)
      let s := engagedNow.foldl (fun s g =>
        if (s.group g).evictStep.isNone then s.setGroup g { (s.group g) with evictStep := some c.work.step } else s) s
      let preps := plan.flatMap (fun p => p.2.2)
      let pages := preps.foldl (fun n p => n + s.prepNeed tokens p) 0
      let freed := preps.flatMap (fun p => p.freed)
      if s.sbFreeList.length < preps.length then s.holdCmd c .state
      else if s.kvpFree + freed.length < pages then s.holdCmd c .page
      else
        let s := s.unhold c
        let before := s.kvpFree
        let r := s.returnFreed { c with hold := none, work := { c.work with stepped := [], mass := [] } } freed
        let s := r.1
        let c := r.2
        let t := preps.foldl
          (fun (t : State × Cmd) p => t.1.stageBranch t.2 tokens (c.groups.findIdx (· == p.key / 4096)) p) (s, c)
        let evs := preps.foldl (fun n p => n + p.evicted) 0
        let s := (t.1.lowCheck before).addCnt C.KVP_CNT_EVICTED evs
        let c := { t.2 with work := { t.2.work with inStep := true }, layers := s.stepLayers t.2 }
        let s := s.setCmd c
        (if c.layers.any (fun l => l.windowBytes ≠ 0) then s.requestFirst c else s).settle c.ctx
    else s

def execStepStart (q : Fin 4096) (seq : W32) (s : State) : Host.Outcome State Fault Refusal :=
  .next (s.stepStart q seq.toNat)

/-! ## The end of a step -/

/-- Steps of a group that the command has run so far. -/
def Work.ranOf (w : Work) (g : Nat) : Nat := match w.ran.find? (fun e => e.1 == g) with | some e => e.2 | none => 0

/-- An FP32 number divided by a count, rounded once. -/
def f32div (a n : Nat) : Nat :=
  toF32 a (match ofF32 a with | .fin neg m e => quot neg m n e | v => v)

/-- Pairs in ascending (query head, row block) order. -/
def pairInsert (p : PairMass) : List PairMass → List PairMass
  | [] => [p]
  | q :: r => if p.pair < q.pair then p :: q :: r else q :: pairInsert p r

/-- The mass of an entry of a layer over its pairs, in ascending order, divided by the count of query heads and rows; none
where no pair read it (R202). -/
def massOf (ps : List PairMass) (i : Nat) : Option Nat :=
  match (ps.foldl (fun l p => pairInsert p l) []).filterMap (fun p => (p.mass.getD i none).map BitVec.toNat) with
  | [] => none
  | a :: r => some (f32div (r.foldl f32add a) (16 * ps.length))

/-- The scores of a SCORED branch's image after a step read it (R202): DECAY * score + mass, rounded once to BF16; entries not
read keep theirs. -/
def Image.scoreBy (im : Image) (decay : W32) (ps : List PairMass) : Image :=
  { im with entries := (List.range im.entries.length).map (fun l =>
      let es := im.entries.getD l []
      let of := ps.filter (fun p => p.layer = l)
      (List.range es.length).filterMap (fun i => match es[i]?, massOf of i with
        | some e, some m => some { e with
            score := BitVec.ofNat 16 (bf16.encode .rne false (e.score.toNat + 65536 * m)
              (((ofF32 decay.toNat).mul (bf16.decode e.score.toNat)).add (ofF32 m))).1 }
        | some e, none => some e
        | none, _ => none)) }

/-- The bytes of a state in a trajectory row: absent, BF16 or FP32 (R76). The plan narrows it, to nearest even or, with
RND = 1, with the lanes given (R160, R164; log 116). -/
def trajState (flags : Nat) (lanes : Option (List W32)) (st : List Byte) : List Byte :=
  if bit flags 2 then
    let vs := (List.range (st.length / 5)).map (fun i => (i % 16, w40.decode (field st (5 * i) 5)))
    let f := if bit flags 3 then fp32 else bf16
    packFmt f (drainElems f false false lanes.isSome { lanes := lanes.getD [] } vs).outs
  else []

/-- The row of a stepped branch (table "Trajectory row"). An action of more than 24 dimensions is padded to the next multiple
of 96 bytes, and the fields after it move with it (DESIGN CHOICE: the table's offsets hold up to 24; log 117). -/
def trajRow (flags : Nat) (lanes : Option (List W32)) (h : HeadOut) (br : Branch) (logp : Nat) : List Byte :=
  let act := br.action.flatMap (fun a => toLE 4 a.toNat)
  let act := act ++ List.replicate (Nat.max 96 (ceilDiv act.length 96 * 96) - act.length) 0
  trajState flags lanes h.state ++ act ++
    layout 32 [(0, 4, logp), (4, 4, h.reward.toNat), (8, 4, h.value.toNat), (0xC, 2, br.parent), (0xE, 2, br.birthStep),
      (0x10, 4, br.seed.toNat), (0x14, 4, 1 + 2 * b2n (br.state = 2))]

/-- Bytes of a trajectory row without its padding, for a row of zeros. -/
def rowLen (x : Group) : Nat :=
  (if bit x.flags 2 then Config.imageState x.image x.imageVersion * (if bit x.flags 3 then 4 else 2) else 0) +
    Nat.max 96 (ceilDiv (4 * x.actions) 96 * 96) + 32

/-- The heads' outputs for a branch. -/
def headFor (heads : List HeadOut) (k : Nat) : Option HeadOut :=
  heads.find? (fun h => h.group * 4096 + h.index == k && decide (h.index < 4096))

/-- A branch after its step (R53, R54): the product is rounded to FP32 and then the sum (DESIGN CHOICE: R53 says only "in
FP32"; log 30). -/
def Branch.after (br : Branch) (x : Group) (im : Image) (tokens : Nat) (h : HeadOut) : Branch :=
  let n := br.steps + 1
  { br with
    state := if n = x.horizon then 2 else br.state
    score := BitVec.ofNat 32 (f32add br.score.toNat (f32mul (gammaPow x.gamma br.steps) h.reward.toNat))
    value := h.value, steps := n, positions := br.positions + tokens, windowStart := im.windowStart, ptGen := im.gen
    tailSealed := im.tailSealed, mean := h.mean, logScale := h.logScale }

/-- One stepped branch closed: its state written to its block, its image scored, its staged entry advanced. -/
def State.closeBranch (s : State) (c : Cmd) (tokens : Nat) (k : Nat) (h : HeadOut) : State × Cmd :=
  let br := s.wbranch c k
  let x := s.group (k / 4096)
  match br.block with
  | none => (s, c)
  | some b =>
    let im := s.wimage c b
    let im := if x.scored then im.scoreBy x.decay (c.work.mass.filter (fun p => p.key = k)) else im
    let s := s.devWrite (s.sbAddr b) (h.state.take s.sbSize)
    (s, { c with work := { c.work with
      branches := put {} c.work.branches k (br.after x im tokens h), images := put {} c.work.images b im } })

/-- LOGP of a branch's row: zero in MEAN mode, else the log-density of the action it consumed under the policy head's outputs
that it was drawn from (R76; log 88). -/
def rowLogp (x : Group) (before : Branch) : Nat :=
  if x.actionMode = 1 then 0 else (Config.logDensity before.action before.mean before.logScale).toNat

/-- The rows of a group's trajectory tensor for the step (R76); `before` is the command as its branches entered the step. -/
def State.writeRows (s : State) (before c : Cmd) (heads : List HeadOut) (g : Nat) : State :=
  let x := s.group g
  if x.traj = 0 then s
  else
    let d := descOf (s.devRead x.traj 64)
    let t := x.steps + c.work.ranOf g
    (List.range x.capacity).foldl
      (fun s b =>
        let k := wbKey g b
        let br := s.wbranch c k
        let lanes := if Config.trajStochastic x.image x.imageVersion
          then some (lfsrLoad (recSeed c.rec_) (Config.trajTile k br.steps)) else none
        let row := match (if c.work.stepped.contains k then headFor heads k else none) with
          | some h => trajRow x.flags lanes h br (rowLogp x (s.wbranch before k))
          | none => List.replicate (rowLen x) 0
        s.homeWrite d.home (d.addr + d.elemOff 0 b t 0 / 2) row) s

/-! ## HOLD_RESUME -/

/-- Does the running step of a STEP still lack state blocks or pages. -/
def State.stepShort (s : State) (c : Cmd) : Bool :=
  let im := s.stepImage c
  let tokens := Config.imageTokens im.desc im.version
  let preps := (s.planStep c tokens s.kvpFree c.groups).flatMap (fun p => p.2.2)
  decide (s.sbFreeList.length < preps.length) ||
    decide (s.kvpFree + (preps.flatMap (fun p => p.freed)).length < preps.foldl (fun n p => n + s.prepNeed tokens p) 0)

/-- Is a command's hold over. -/
def State.holdOver (s : State) (c : Cmd) : Bool :=
  if c.stage = .running then !s.stepShort c
  else if c.wellhead then (s.whStartHold c).isNone
  else (s.startHold c).isNone

/-- A held command can proceed (R69, R198, R368): its hold ends, and its context leaves BLOCKED or OUT (R416). -/
def State.holdResume (s : State) (q seq : Nat) : State :=
  match s.cmd? q seq with
  | none => s
  | some c => if s.runs 313 ∧ c.hold.isSome ∧ s.holdOver c then s.unhold c else s

def execHoldResume (q : Fin 4096) (seq : W32) (s : State) : Host.Outcome State Fault Refusal :=
  .next (s.holdResume q seq.toNat)

end Sys2Proof.Machine
end

