-- ==== Sys2Proof/Machine/Publish.lean ====
section
/-! DEFINITION. Publication (R34, R583): the lineage record and its log (R397 to R400, R552, R584), the swap of
descriptors (R387), and the published effects of every class of command. -/

namespace Sys2Proof.Machine

/-! ## Valid extents along a RUN (R213, R214) -/

/-- The descriptors of a RUN before its layer `n`. -/
def State.descsBefore (s : State) (c : Cmd) (n : Nat) : List Desc :=
  let base := s.imageBaseOf c
  ((c.layers.take n).map (fun l => s.planAt base l.plan)).foldl (s.afterLayer base) (c.descs.map (fun u => descOf u.img))

/-- The program segment of each layer of a command, for a RUN all of them. -/
def State.outputDescs (s : State) (c : Cmd) : List Desc :=
  if c.kind = .run then s.descsBefore c c.layers.length else c.descs.map (fun u => descOf u.img)

/-! ## Descriptor images -/

/-- A descriptor's 64 bytes as a publication writes them: HOME, ADDR, COMPRESS, CLEN, VERSION, LIN_KIND, LINEAGE and
NONDET (R387), and VALID where R213 and R214 give the output's extents (log 31). -/
def publishedImage (img : List Byte) (home addr compress clen linKind lineage : Nat) (nondet : Bool) (valid : List Nat) :
    List Byte :=
  img.take 1 ++ toLE 1 (field img 1 1 % 4 + home * 4 + linKind * 16 + b2n nondet * 64) ++ toLE 2 compress ++
    toLE 4 ((field img 4 4 + 1) % 2 ^ 32) ++ toLE 8 addr ++ (img.drop 0x10).take 12 ++
    valid.flatMap (toLE 3) ++ (img.drop 0x28).take 12 ++ toLE 4 clen ++ toLE 8 lineage

/-- The address by which LINEAGE and COVER name a commit record (10, "Tensor descriptors"). -/
def commitAddr (m n : Nat) : Nat := m * 2 ^ 48 + catBlock n * 4096 + n % 4096 * 2 ^ 52

/-- Does a command's output carry NONDET (R389). -/
def State.nondetOf (s : State) (c : Cmd) : Bool :=
  (c.kind = .run && sharesAtomics (s.runPlans c)) ||
    (inputsOf c.descs).any (fun u => (descOf u.img).nondet)

/-- The commit record address of output i of a command, where it has one. -/
def Cmd.commitOfOut (c : Cmd) (i : Nat) : Option Nat := (c.work.ran.find? (fun e => e.1 == i)).map (·.2)

/-- An output's published image: the descriptor `addr` as it stands, with its new storage. -/
def State.outImage (s : State) (c : Cmd) (index addr home store compress clen i : Nat) (valid : List Nat) : List Byte :=
  let img := s.devRead addr 64
  match c.commitOfOut i with
  | some a => publishedImage img home store compress clen 2 a (s.nondetOf c) valid
  | none => publishedImage img home store compress clen 1 index (s.nondetOf c) valid

/-- An output's slot. -/
def State.outSlot (s : State) (c : Cmd) (index addr home store compress clen i : Nat) (valid : List Nat) : LinSlot :=
  { img := s.outImage c index addr home store compress clen i valid, desc := addr, out := true
    old := (descOf (s.devRead addr 64)).addr }

def inSlot (u : DescUse) : LinSlot := { img := u.img, desc := u.addr, out := false }

/-- VALID as a descriptor in memory gives it. -/
def State.validNow (s : State) (addr : Nat) : List Nat := (descOf (s.devRead addr 64)).valid

/-- The slots of a command's lineage record (R584; 10, "Lineage record"). A tensor in a cluster store has none (R386). -/
def State.slotsOf (s : State) (c : Cmd) (index : Nat) : List LinSlot :=
  match c.kind, c.descs with
  | .move, [src, dst] =>
    let e := descOf dst.img
    [inSlot src, s.outSlot c index src.addr e.home dst.store (if e.home = 1 then 0 else e.compress) c.result 1
      (s.validNow src.addr)]
  | .checkpoint, [src, dst] =>
    let e := descOf dst.img
    [inSlot src, s.outSlot c index dst.addr e.home dst.store e.compress c.result 1 (s.validNow dst.addr)]
  | .reduce, t :: srcs =>
    (t :: srcs).map inSlot ++ [s.outSlot c index t.addr 0 (field c.rec_ 0x20 8) 0 0 0 (s.validNow t.addr)]
  | .run, us =>
    let ds := s.outputDescs c
    (List.range us.length).filterMap (fun i => match us[i]?, ds[i]? with
      | some u, some d =>
        if u.out then
          (if d.home = 2 then none else some (s.outSlot c index u.addr d.home u.store 0 0 i d.valid))
        else some (inSlot u)
      | _, _ => none)
  | .step, us =>
    us.map inSlot ++ (c.groups.filter (fun g => (s.group g).traj ≠ 0 && c.work.ranOf g ≠ 0)).map (fun g =>
      let a := (s.group g).traj
      let d := descOf (s.devRead a 64)
      s.outSlot c index a d.home d.addr d.compress d.clen 0x10000 (s.validNow a))
  | _, us => us.map inSlot

/-! ## The log -/

/-- Bytes a record takes. -/
def recordBytes (slots : Nat) : Nat := ceilDiv (128 + 96 * slots) 64 * 64

def LinSlot.bytes (x : LinSlot) : List Byte :=
  x.img ++ toLE 8 (x.desc + b2n x.out * 2 ^ 63) ++ toLE 8 (if x.out then x.old + b2n x.released * 2 ^ 62 else 0) ++
    toLE 8 (if x.out then x.cover else 0) ++ toLE 8 0

def LinRec.flags (r : LinRec) : Nat := b2n r.nondet + 2 * b2n r.retired

/-- The bytes of a record (table "Lineage record"). -/
def LinRec.bytesOf (r : LinRec) : List Byte :=
  let b := layout 64 [(0, 8, r.index), (8, 2, r.q), (0xA, 2, r.ctx), (0xC, 4, r.seq), (0x10, 8, r.time),
    (0x18, 2, r.slots.length), (0x1A, 1, r.flags)] ++ r.rec_ ++ r.slots.flatMap LinSlot.bytes
  b ++ List.replicate (r.bytes - b.length) 0

def State.linBase (s : State) : Nat := s.fld F.LIN_BASE_HI.BASE * 2 ^ 32 + s.fld F.LIN_BASE_LO.BASE * 4096
def State.linSize (s : State) : Nat := s.fld F.LIN_SIZE.PAGES * 4096

/-- Records whose space is not freed. -/
def State.linLive (s : State) : List LinRec := s.cq.lineage.filter (fun r => !r.freed)

/-- Where a record of n bytes goes, when the log has room (R552): after the newest, or at the base where it does not fit
before the end. -/
def State.linPlace (s : State) (n : Nat) : Option Nat :=
  match s.linLive with
  | [] => if n ≤ s.linSize then some (if s.cq.linOff + n ≤ s.linSize then s.cq.linOff else 0) else none
  | r :: _ =>
    if s.cq.linOff ≤ r.off then (if s.cq.linOff + n ≤ r.off then some s.cq.linOff else none)
    else if s.cq.linOff + n ≤ s.linSize then some s.cq.linOff
    else if n ≤ r.off then some 0 else none

/-- The space of the oldest records is freed while they are RETIRED (R552). -/
def freeOldest : List LinRec → List LinRec
  | [] => []
  | r :: l => if r.freed then r :: freeOldest l else if r.retired then { r with freed := true } :: freeOldest l else r :: l

/-- Records that are freed and name nothing that still changes are forgotten. -/
def State.freeLog (s : State) : State := { s with cq.lineage := freeOldest s.cq.lineage }

/-! ## Retirement (R397 to R399) -/

def LinSlot.version (x : LinSlot) : Nat := field x.img 4 4

/-- Is a published version covered (R397). -/
def LinSlot.covered (x : LinSlot) : Bool :=
  let d := descOf x.img
  x.cover ≠ 0 || d.home = 3 || d.linKind = 3

/-- The records whose commands have published: the swap of the others' descriptors is still to come (R34). -/
def State.swapped (s : State) : List LinRec :=
  s.cq.lineage.filter (fun r => !s.cq.cmds.any (fun c => c.stage = .lineage && c.lineIndex = r.index))

/-- Has a newer version of the tensor been published. -/
def supersededIn (l : List LinRec) (r : LinRec) (x : LinSlot) : Bool :=
  l.any (fun n => decide (r.index < n.index) && n.slots.any (fun y => y.out && y.desc = x.desc))

/-- Does an unretired record name a version as an input. -/
def namedInput (l : List LinRec) (desc version : Nat) : Bool :=
  l.any (fun n => !n.retired && n.slots.any (fun y => !y.out && y.desc = desc && y.version = version))

/-- May a published record retire; `l` is the log, `pub` its published records. -/
def retires (l pub : List LinRec) (r : LinRec) : Bool :=
  !r.retired && r.slots.all (fun x => !x.out || ((x.covered || supersededIn pub r x) && !namedInput l x.desc x.version))

/-- The fields of a record rewritten in host memory where they changed (R399). -/
def State.rewrite (s : State) (old new : LinRec) : State :=
  if new.freed && old.freed then s
  else
    let a := s.linBase + new.off
    let s := if old.retired = new.retired then s
      else s.hwr (a + 0x18) (toLE 2 new.slots.length ++ toLE 1 new.flags ++ toLE 1 0) .rewrite
    (List.range new.slots.length).foldl
      (fun s i => match old.slots[i]?, new.slots[i]? with
        | some x, some y =>
          let s := if x.released = y.released then s
            else s.hwr (a + 128 + 96 * i + 0x48) (toLE 8 (y.old + b2n y.released * 2 ^ 62)) .rewrite
          if x.cover = y.cover then s else s.hwr (a + 128 + 96 * i + 0x50) (toLE 8 y.cover) .rewrite
        | _, _ => s) s

/-- One record replaced, with its rewrites. -/
def State.setRec (s : State) (old new : LinRec) : State :=
  if old = new then s
  else ({ s with cq.lineage := s.cq.lineage.map (fun r => if r.index = new.index then new else r) } : State).rewrite old new

/-- The first record that can retire retires; done for as many records as there are (R399). -/
def State.retireAll : Nat → State → State
  | 0, s => s
  | n + 1, s =>
    match s.swapped.find? (retires s.cq.lineage s.swapped) with
    | none => s
    | some r => State.retireAll n (s.setRec r { r with retired := true })

/-- A superseded version's storage, where the new one has other storage (R77), is released when no unretired record names that version and every command that had
started before the publication has ended (R279, R398). -/
def State.releaseOld (s : State) : State :=
  s.swapped.foldl
    (fun s r =>
      let slots := r.slots.map (fun x =>
        if x.out && !x.released && x.old ≠ (descOf x.img).addr then
          let w := x.waitFor.filter (fun k => match s.cmd? k.1 k.2 with | some c => c.begun | none => false)
          let pinned := namedInput s.cq.lineage x.desc ((x.version + 2 ^ 32 - 1) % 2 ^ 32)
          { x with waitFor := w, released := w.isEmpty && !pinned }
        else x)
      s.setRec r { r with slots := slots }) s

/-- Everything of the log that follows from a publication. -/
def State.settleLog (s : State) : State := (State.retireAll s.cq.lineage.length s).releaseOld.freeLog

/-! ## PUBLISH -/

/-- Are the commands of the queue accepted earlier all published (R34, step 2). -/
def State.earlierDone (s : State) (c : Cmd) : Bool :=
  (s.cq.cmds.takeWhile (fun d => !(d.q == c.q && d.seq == c.seq))).all (fun d => d.q ≠ c.q)

/-- Does a command whose swap is under way publish a version of one of this command's outputs. -/
def State.swapPending (s : State) (c : Cmd) : Bool :=
  s.cq.cmds.any (fun d => d.stage = .lineage && (s.slotsOf d 0).any (fun x => x.out &&
    (s.slotsOf c 0).any (fun y => y.out && y.desc = x.desc)))

/-- Step 3 begins: the lineage record is written, or publication holds for want of log space (R400, R583). -/
def State.writeLineage (s : State) (c : Cmd) : State :=
  let index := s.cq.linNext
  let slots := s.slotsOf c index
  let n := recordBytes slots.length
  match s.linPlace n with
  | none =>
    if c.waitsLog then s
    else ((s.setCmd { c with waitsLog := true }).raise 0x0302 1 0 0 c.ctx c.q c.seq).setInt F.Q_INT_STATUS.LINEAGE_FULL
  | some off =>
    let r : LinRec :=
      { index := index, q := c.q, ctx := c.ctx, seq := c.seq, time := s.tm.now, nondet := s.nondetOf c, retired := false
        rec_ := c.rec_, slots := slots, off := off, bytes := n }
    let s := s.setCmd { c with stage := .lineage, lineIndex := index, waitsLog := false }
    let s : State := { s with
      cq.lineage := s.cq.lineage ++ [r], cq.linNext := index + 1, cq.linOff := off + n }
    ((s.hwr (s.linBase + off) r.bytesOf (.lineage index)).addCnt C.LIN_CNT_RECORDS 1).settle c.ctx

/-- PUBLISH: publication goes on to step 3 once steps 1 and 2 are complete, with the host link lit (R33, R34, R336, R394, R395). -/
def State.publish (s : State) (q seq : Nat) : State :=
  match s.cmd? q seq with
  | none => s
  | some c =>
    if s.runs 313 ∧ s.linkUp ∧ c.stage = .staged ∧ c.journalled ∧ s.earlierDone c ∧ s.fenceMet c.rec_ ∧
        !s.swapPending c
    then s.writeLineage c else s

def execPublish (q : Fin 4096) (seq : W32) (s : State) : Host.Outcome State Fault Refusal :=
  .next (s.publish q seq.toNat)

/-- Log space is freed as the oldest records retire, and a publication held under R400 resumes (R552). -/
def State.lineageSpaceFreed (s : State) : State :=
  if s.runs 313 then
    let s := s.freeLog
    match s.cq.cmds.find? (fun c => c.waitsLog) with
    | some c => s.publish c.q c.seq
    | none => s
  else s

def execLineageSpaceFreed (s : State) : Host.Outcome State Fault Refusal := .next s.lineageSpaceFreed

/-! ## The wellhead's published effects -/

/-- A branch freed: its entry, and the edits that wait for it. -/
def State.freeBranch (s : State) (k : Nat) : State := (s.putBranch k {}).dropEdits k

/-- A holder destroyed: KVP_EPOCH rises, what it refers to is dropped under the new epoch, and its entry is freed (R191). -/
def State.destroyBranch (s : State) (k : Nat) : State :=
  let c : Cmd := { q := 0, seq := 0, ctx := 0, kind := .close, rec_ := [] }
  let os := s.branchObjs c (look {} s.wh.branches k)
  let s := s.nextEpoch
  (s.dropRefs s.kv.epoch os).freeBranch k

/-- Every branch of a group freed, its root state block and its history given up: the group is CLOSED (R39, R41, R44). -/
def State.closeGroup (s : State) (g : Nat) : State :=
  let x := s.group g
  let live := (List.range x.capacity).filter (fun b => (s.branch g b).state ≠ 0)
  let s := live.foldl (fun s b => s.destroyBranch (branchKey g b)) s
  let s := match x.rootBlock with | some k => s.dropRefs s.kv.epoch [.block k] | none => s
  s.setGroup g {}

/-- The group an OPEN makes (R35, R38, R186). -/
def State.openedGroup (s : State) (c : Cmd) (q : Seq) (k : Nat) : Group :=
  let r := c.rec_
  let im := s.imageRef (recImage r 0x1C)
  { state := 1, owner := c.ctx, capacity := field r 0x12 2, horizon := field r 0x14 2, window := field r 0x16 2
    actionMode := field r 0x18 1, scoreMode := field r 0x19 1, flags := field r 0x1A 2, image := im.desc
    imageVersion := im.version, gamma := BitVec.ofNat 32 (field r 0x20 4), seed := BitVec.ofNat 32 (field r 0x24 4)
    rootBlock := some k, traj := field r 0x30 8, rootSeq := field r 0x38 4, layers := q.layers, kvh := q.kvh, cap := q.cap
    kvFmt := q.kvFmt, headDim := q.headDim, tpf := q.tpf
    keepNewest := q.keepNewest, decay := q.decay, scored := q.scored }

/-- OPEN publishes (R40, R41, R44, R45): the group is OPEN with its root branch LIVE, and the root sequence's tail is
sealed; while a command appends to the sequence the seal waits for its end, as an edit would (R203). The root branch has no
parent: PARENT and BIRTH_STEP are 0 (DESIGN CHOICE: the table "Branch-table entry" does not say; log 117). -/
def State.publishOpen (s : State) (c : Cmd) : State :=
  let g := c.groups.headD 0
  let n := field c.rec_ 0x38 4
  let q := s.seq n
  let k := c.work.list.headD 0
  let im := s.wimage c k
  let s := s.setGroup g (s.openedGroup c q k)
  let s := (s.putImage k im).putBranch (branchKey g 0)
    { state := 1, tailSealed := true, seed := BitVec.ofNat 32 (field c.rec_ 0x24 4), positions := im.positions
      windowStart := im.windowStart, block := some k, ptGen := im.gen }
  let s := if q.appending then s.nextEpoch.putSeq n { q with sealNext := true }
    else s.newImage n q { q.image with tailSealed := true } []
  s.histWrite g c.rec_

/-- A group's part of a published STEP: its edits' and the STEP's records (R73, R201, R204), the edits in effect
(KVP_INT_STATUS.EDIT_DONE, R207), its step count. Its trajectory tensor's new version is an output of the command's lineage
record (R77). -/
def State.publishGroupStep (s : State) (c : Cmd) (g : Nat) : State :=
  let x := s.group g
  let es := c.work.edits.filter (fun e => e.1 / 4096 = g)
  let s := es.foldl (fun s e => s.histWrite g e.2.record) s
  let r := match x.evictStep with
    | some k => c.rec_.take 0x12 ++ toLE 1 1 ++ toLE 1 k ++ c.rec_.drop 0x14
    | none => c.rec_
  let s := s.histWrite g r
  let y := s.group g
  let s := s.setGroup g { y with
    steps := x.steps + c.work.ranOf g, evictStep := none
    edits := y.edits.filter (fun e => !es.any (fun p => p.2 = e)) }
  if es.isEmpty then s else s.setInt F.KVP_INT_STATUS.EDIT_DONE

/-- STEP publishes (R42, R53, R54, R193): its images become current, and each edit that it applied counts as one more change
(R191). -/
def State.publishStep (s : State) (c : Cmd) : State :=
  let r := s.returnStepDrops c
  let c := r.2
  let s := c.work.branches.foldl
    (fun s e => match e.2.block with
      | some k => (s.putImage k (s.wimage c k)).putBranch e.1 { e.2 with action := [] }
      | none => s) r.1
  let s := (c.work.edits.foldl (fun s _ => s.nextEpoch) s).nextEpoch
  let s := s.dropRefs s.kv.epoch c.work.drops
  let s := c.groups.foldl (fun s g => s.publishGroupStep c g) s
  s.addCnt C.WH_CNT_STEPS (c.work.list.headD 0)

/-- The local indices a FORK or a PRUNE lists, as 2-byte values. -/
def indexList (l : List Nat) : List Byte := l.flatMap (toLE 2)

def State.publishFork (s : State) (c : Cmd) : State :=
  let g := c.groups.headD 0
  let s := c.work.stepped.foldl State.destroyBranch s
  let s := c.work.branches.foldl (fun s e => s.putBranch e.1 e.2) s
  let a := field c.rec_ 0x20 8
  let s := if a = 0 then s else s.devWrite a (indexList c.work.list)
  (s.addCnt C.WH_CNT_CHILDREN c.work.list.length).histWrite g c.rec_

def State.publishPrune (s : State) (c : Cmd) : State :=
  let g := c.groups.headD 0
  let s := c.work.stepped.foldl State.destroyBranch s
  let a := field c.rec_ 0x20 8
  let s := if a = 0 then s else s.devWrite a (indexList c.work.list)
  (s.addCnt C.WH_CNT_PRUNED c.work.stepped.length).histWrite g c.rec_

def State.publishClose (s : State) (c : Cmd) : State :=
  let g := c.groups.headD 0
  (s.histWrite g c.rec_).closeGroup g

/-! ## DESCRIPTOR_SWAP -/

/-- An appender's images become current in one publication (R188, R191, R196), and the seal that an OPEN has left to one takes
effect (R45). -/
def State.publishAppend (s : State) (c : Cmd) : State :=
  if c.appendTo.isEmpty then s
  else
    let s := c.appendTo.foldl
      (fun s n =>
        let q := { (s.seq n) with appending := false }
        let im := look {} c.work.images n
        s.swapImage n q im (q.image.pages.filter (fun p => !im.pages.contains p))) s.nextEpoch
    c.appendTo.foldl State.sealTail s

/-- The COVER of the record that produced a checkpoint's source (R384). -/
def State.coverSource (s : State) (c : Cmd) : State :=
  match c.kind, c.descs, c.commitOfOut 1 with
  | .checkpoint, src :: _, some a =>
    let v := (descOf src.img).version
    match s.cq.lineage.find? (fun r => r.slots.any (fun x => x.out && x.desc = src.addr && x.version = v)) with
    | some r =>
      s.setRec r { r with slots := r.slots.map (fun x =>
        if x.out && x.desc = src.addr && x.version = v then { x with cover := a } else x) }
    | none => s
  | _, _, _ => s

/-- The commands that have started when a version is published keep its old storage (R279). -/
def State.keepOld (s : State) (c : Cmd) : State :=
  let ks := (s.cq.cmds.filter (fun d => d.begun && !(d.q == c.q && d.seq == c.seq))).map (fun d => (d.q, d.seq))
  { s with cq.lineage := s.cq.lineage.map (fun r =>
      if r.index = c.lineIndex then { r with slots := r.slots.map (fun x => if x.out then { x with waitFor := ks } else x) }
      else r) }

/-- Every effect of a command's publication, in one swap (R34, R583). -/
def State.publishEffects (s : State) (c : Cmd) : State :=
  let s := s.keepOld c
  let slots := match s.cq.lineage.find? (fun r => r.index == c.lineIndex) with | some r => r.slots | none => []
  let s := slots.foldl (fun s x => if x.out then s.devWrite x.desc x.img else s) s
  let s := match c.kind with
    | .open_ => s.publishOpen c
    | .step => s.publishStep c
    | .fork => s.publishFork c
    | .prune => s.publishPrune c
    | .close => s.publishClose c
    | .run => s.publishAppend c
    | _ => s
  let s := s.unstage (c.work.taken.filter (fun o => !c.work.stepDrops.contains o))
  s.coverSource c

/-- RESULT of a published command (10, "Completion records"). -/
def State.resultOf (s : State) (c : Cmd) : Nat :=
  if c.kind = .move ∨ c.kind = .checkpoint then c.result else if c.wellhead then s.liveAll else 0

/-- DESCRIPTOR_SWAP: the record is acknowledged; the outputs and every other effect are published, and the completion
record falls due (R34, R387, R396, R583). -/
def State.descriptorSwap (s : State) (q seq : Nat) : State :=
  match s.cmd? q seq with
  | none => s
  | some c =>
    if s.runs 313 ∧ c.stage = .lineage ∧ s.hl.hwr.all (fun h => h.what ≠ .lineage c.lineIndex) then
      let s := s.publishEffects c
      let s := s.complete { c with stage := .finished } 0 (s.resultOf c)
      s.settleLog
    else s

def execDescriptorSwap (q : Fin 4096) (seq : W32) (s : State) : Host.Outcome State Fault Refusal :=
  .next (s.descriptorSwap q seq.toNat)

end Sys2Proof.Machine
end

