-- ==== Sys2Proof/Machine/Hbm.lean ====
section
/-! DEFINITION. HBM reads and their faults, retirement and re-derivation, retraining and refresh (08_memory.md "HBM4";
R297 to R307, R405 to R407), and uncorrectable reads of the shared cache and the cluster stores (R285, R579). -/

namespace Sys2Proof.Machine

/-! ## The address map and the spare area (R297, R298, R306) -/

/-- The unit index of a stack address within its pseudo-channel. -/
def unitIndex (a : Nat) : Nat := a % 2 ^ 36 / 2 ^ 14

/-- Is a stack address in the spare area. -/
def inSpare (a : Nat) : Bool := bits a 35 30 = 0x3F

/-- The stack address of a tensor-area unit of the retired pseudo-channel k (R306). -/
def spareAddr (k a : Nat) : Nat :=
  let n := unitIndex a
  let j := n / 63
  let r := n % 63
  let q := if r < k then r else r + 1
  0xFC0000000 + j * 0x4000 + Nat.xor q (j % 64) * 256 + a % 256

/-- The physical device address of a device address, through the redirection of its stack. -/
def State.redirect (s : State) (a : Nat) : Nat :=
  if s.retiredAt a && !inSpare a then a / 2 ^ 36 * 2 ^ 36 + spareAddr (pcOf a) a else a

/-- Has a unit of a retired pseudo-channel not been written since: no data were carried over (R305). -/
def State.gone (s : State) (u : Nat) : Bool := s.retiredAt (u * 256) && !s.mm.fresh.contains u

/-- Bytes of device memory as a host read finds them: a unit that is gone reads the spare area, which the power-on wipe
left zero (R314); the NEXT link of a page record is free (log 6), and a page that no context has written has the OWNER 0xFFFE
(R183, R184; log 14). -/
def State.hostView (s : State) (a n : Nat) : List Byte :=
  let base := s.fld F.KVP_REC_BASE.BASE * 4096
  (List.range n).map (fun i =>
    let x := a + i
    let p := (x - base) / 8
    let j := (x - base) % 8
    if s.gone (x / 256) then 0
    else if s.fld F.KVP_CFG.ENABLE = 1 ∧ base ≤ x ∧ x < base + 8 * s.pageTotal ∧ j < 3 then Config.nextLink p j s.tm.now
    else if s.fld F.KVP_CFG.ENABLE = 1 ∧ base ≤ x ∧ x < base + 8 * s.pageTotal ∧ (look 0xFFFE s.kv.pgOwner p = 0xFFFE) then
      (layout 8 [(4, 2, 0xFFFE)]).getD j 0
    else rdByte s.mm.dev x)

/-! ## Versions that a loss reaches -/

/-- A version of a tensor with its storage. -/
structure Ver where
  desc    : Nat
  version : Nat
  img     : List Byte
deriving DecidableEq, Repr

/-- The home, address and length of a version's storage. -/
def Ver.range (v : Ver) : Nat × Nat × Nat :=
  let d := descOf v.img
  (d.home, d.addr, d.storedLen)

/-- Does a loss reach a range: `hit` tells the home and the 256-byte units lost. -/
def rangeHit (hit : Nat → Nat → Bool) (r : Nat × Nat × Nat) : Bool := (units256 r.2.1 r.2.2).any (hit r.1)

/-- Is a published version still stored: no later slot of its tensor has released the storage it replaced (R398). -/
def storedStill (l : List LinRec) (x : LinSlot) : Bool :=
  !l.any (fun r => r.slots.any (fun y => y.out && y.desc = x.desc && y.released && y.version = (x.version + 1) % 2 ^ 32))

/-- The published versions that the log knows and whose storage is kept. -/
def State.loggedVers (s : State) : List Ver :=
  s.cq.lineage.flatMap (fun r => (r.slots.filter (fun x => x.out && storedStill s.cq.lineage x)).map
    (fun x => { desc := x.desc, version := x.version, img := x.img }))

/-- The versions that commands in hand read, and that the log does not know. -/
def State.readVers (s : State) : List Ver :=
  let l := s.loggedVers
  ((s.cq.cmds.flatMap (fun c => (inputsOf c.descs).map (fun u =>
    ({ desc := u.addr, version := (descOf u.img).version, img := u.img } : Ver)))).filter (fun v =>
      !l.any (fun w => w.desc = v.desc && w.version = v.version))).eraseDups

/-- Can a lost version be re-derived (R397, R406, R407): it is covered, or its record's inputs are whole or can be. `n`
bounds the depth in lineage order. -/
def State.rederivable (s : State) (hit : Nat → Nat → Bool) : (n : Nat) → Ver → Bool
  | 0, _ => false
  | n + 1, v =>
    match s.cq.lineage.find? (fun r => r.slots.any (fun x => x.out && x.desc = v.desc && x.version = v.version)) with
    | none => (descOf v.img).linKind = 3 || (descOf v.img).linKind = 2
    | some r =>
      r.slots.any (fun x => x.out && x.desc = v.desc && x.version = v.version && x.covered) ||
        (!(descOf v.img).nondet && (r.slots.filter (fun x => !x.out)).all (fun y =>
          let w : Ver := { desc := y.desc, version := y.version, img := y.img }
          (!rangeHit hit w.range && !s.mm.lost.contains (w.desc, w.version)) || s.rederivable hit n w))

/-- Is a version re-made by running its record's command again (LIN_CNT_RERUN). -/
def State.reruns (s : State) (v : Ver) : Bool :=
  s.cq.lineage.any (fun r => r.slots.any (fun x => x.out && x.desc = v.desc && x.version = v.version && !x.covered))

/-- A version is whole again in its original storage, with the bits it held (R406): no unit of it is poisoned or gone. -/
def State.remadeAt (s : State) (r : Nat × Nat × Nat) : State :=
  let us := units64 r.2.1 r.2.2
  if r.1 = 0 then
    let w := (units256 r.2.1 r.2.2).filter (fun u => s.retiredAt (u * 256) && !s.mm.fresh.contains u)
    { s with mm.poison := s.mm.poison.filter (fun u => !us.contains u), mm.fresh := s.mm.fresh ++ w }
  else { s with mm.poisonShared := s.mm.poisonShared.filter (fun u => !us.contains u) }
def State.remade (s : State) (v : Ver) : State := s.remadeAt v.range

/-- A version reached by a loss: re-derived, or lost for good and reported (R406, R407). -/
def State.loseVer (s : State) (hit : Nat → Nat → Bool) (v : Ver) : State :=
  if s.rederivable hit (s.cq.lineage.length + 1) v then
    (if s.reruns v then s.remade v |>.addCnt C.LIN_CNT_RERUN 1 else s.remade v)
  else ({ s with mm.lost := s.mm.lost ++ [(v.desc, v.version)] } : State).raise 0x0303 2

/-- A running command whose input was lost: its staging is discarded and it waits in WAIT_REDERIVE, marked
REDERIVED_INPUT (R406). -/
def State.waitRederive (s : State) (c : Cmd) : State :=
  let s := s.discard c
  match s.cmd? c.q c.seq with
  | some d => s.holdCmd { d with cflags := Nat.lor d.cflags 16 } .rederive
  | none => s

/-- Does the loss reach what a running command reads, or what it has staged and not published. -/
def Cmd.readsHit (c : Cmd) (hit : Nat → Nat → Bool) : Bool :=
  c.stage == Stage.running && (inputsOf c.descs).any (fun u => rangeHit hit u.range)
def Cmd.stagingHit (c : Cmd) (hit : Nat → Nat → Bool) : Bool :=
  (c.stage == Stage.running || c.stage == Stage.staged) && c.descs.any (fun u => u.out && rangeHit hit u.range)

/-- The commands a loss reaches: readers wait for re-derivation, those that lost staging start again (R405, R579). -/
def State.loseCmds (s : State) (hit : Nat → Nat → Bool) : State :=
  s.cq.cmds.foldl
    (fun s c =>
      if c.readsHit hit then s.waitRederive c
      else if c.stagingHit hit then s.discard c else s) s

/-- A loss of stored units: the versions in ascending lineage index, then the commands (R405 to R407). The trajectory tensor
of a group that is not CLOSED is re-derived with its group (R77). -/
def State.lose (s : State) (hit : Nat → Nat → Bool) : State :=
  let vs := (s.loggedVers ++ s.readVers).filter (fun v => rangeHit hit v.range && !s.isTraj v.desc)
  let s := vs.foldl (fun s v => s.loseVer hit v) s
  s.loseCmds hit

/-! ## Groups that lose data (R41, R75) -/

/-- What a group keeps in memory: the entry, the state block, the image and the pages of every branch, its root state block,
and its trajectory tensor (R75, R77). -/
def State.groupRanges (s : State) (g : Nat) : List (Nat × Nat × Nat) :=
  let c : Cmd := { q := 0, seq := 0, ctx := 0, kind := .close, rec_ := [] }
  let x := s.group g
  let base := s.fld F.WH_BT_BASE.BASE * 2 ^ 26
  let slot (k : Nat) : Nat × Nat × Nat := (0, s.slotAddr k, s.fld F.KVP_TP_CFG.SLOT * 4096)
  (s.wh.branches.filter (fun b => b.1 / 4096 = g ∧ b.2.state ≠ 0)).flatMap (fun b =>
    (0, base + b.1 * 64, 64) :: (match b.2.block with | some k => [slot k] | none => []) ++
      (s.branchObjs c b.2).map (fun o => match o with
        | .page p => (0, s.pageAddr p, s.pageSize)
        | .block k => (0, s.sbAddr k, s.sbSize))) ++
    (match x.rootBlock with | some k => [(0, s.sbAddr k, s.sbSize)] | none => []) ++
    (if x.traj = 0 then [] else
      let d := descOf (s.devRead x.traj 64)
      [(d.home, d.addr, d.storedLen)])

/-- Does the loss reach them. -/
def State.groupHit (s : State) (hit : Nat → Nat → Bool) (g : Nat) : Bool := (s.groupRanges g).any (rangeHit hit)

/-- A group's replay begins: REDERIVING, its running command's staging discarded (R41, R75). -/
def State.groupLost (s : State) (g : Nat) : State :=
  let x := s.group g
  let s : State := match x.lock with
    | some (q, n) => (match s.cmd? q n with
      | some c => if c.stage = .running ∨ c.stage = .staged then s.waitRederive c else s
      | none => s)
    | none => s
  let s := s.setGroup g { s.group g with state := 3 }
  (s.setInt F.WH_INT_STATUS.REDERIVE_START).raise 0x0202 1 0 0 x.owner

def State.groupsLost (s : State) (hit : Nat → Nat → Bool) : State :=
  ((List.range 256).filter (fun g => (s.group g).state = 1 ∨ (s.group g).state = 2)).foldl
    (fun s g => if s.groupHit hit g then s.groupLost g else s) s

/-- A group's replay reaches its last record: the group is OPEN again, everything it keeps re-created with the bits it held, in
its own storage (R41, R75, R77). The replay's commands run in the recovery context, which one core's commands do not show:
their result is the state they give back (log 55). -/
def State.rederiveDone (s : State) (g : Nat) : State :=
  let x := s.group g
  if s.runs 313 ∧ x.state = 3 then
    let s := (s.groupRanges g).foldl State.remadeAt s
    (s.setGroup g { x with state := 1, lock := none }).setInt F.WH_INT_STATUS.REDERIVE_DONE
  else s

def execRederiveDone (g : Fin 256) (s : State) : Host.Outcome State Fault Refusal := .next (s.rederiveDone g)

/-! ## Retirement (R305, R307) -/

/-- A queued read completes uncorrected: counted, its unit poisoned. -/
def State.failRead (s : State) (stack : Nat) (r : UnitRead) : State :=
  let u := r.addr / 64
  ({ s with mm.poison := s.mm.poison ++ ((List.range 4).map (u / 4 * 4 + ·)).filter (fun x => !s.mm.poison.contains x) }
    : State).addCnt C.HBMC_CNT_UE 1 stack

/-- The units of a pseudo-channel of a stack. -/
def pcHit (stack pc : Nat) (home u : Nat) : Bool := home = 0 && u * 256 / 2 ^ 36 = stack && pcOf (u * 256) = pc

/-- A pseudo-channel is retired; a second one takes the stack out of service. -/
def State.retire (s : State) (stack pc : Nat) : State :=
  let x := s.stack stack
  if x.retired.contains pc then s
  else if x.retired ≠ [] then
    (((s.setStack stack { x with offline := true }).setFld F.HBMC_STATUS.OFFLINE 1 stack).raise 0x2104 3 stack pc)
  else
    let s := (x.reads.filter (fun r => r.pc = pc)).foldl (fun s r => s.failRead stack r) s
    let s := s.setStack stack { x with retired := [pc], reads := x.reads.filter (fun r => r.pc ≠ pc) }
    let s := ((s.setFld F.HBMC_STATUS.RETIRED 1 stack).setFld F.HBMC_STATUS.RETIRED_PC pc stack)
    let s := (s.setInt F.HBMC_INT_STATUS.PC_RETIRED stack).raise 0x2103 2 stack pc
    let s := s.groupsLost (pcHit stack pc)
    s.lose (pcHit stack pc)

/-! ## HBM_UE -/

/-- The uncorrected reads of a pseudo-channel within the last time-base second, as (pseudo-channel, unit, time). -/
def Stack.recentUes (x : Stack) (pc now : Nat) : List Nat :=
  ((x.ues.filter (fun e => e.1 = pc && decide (now < e.2.2 + 1000000000))).map (·.2.1)).eraseDups

/-- An uncorrected read (R305, R406): counted, reported red, its unit poisoned; a second unit of the pseudo-channel
within a second retires it. -/
def State.hbmUe (s : State) (stack a : Nat) : State :=
  let dev := stack * 2 ^ 36 + a
  let pc := pcOf dev
  let x := s.stack stack
  if s.tm.power = .off ∨ x.offline then s
  else
    let s := s.addCnt C.HBMC_CNT_UE 1 stack
    let s := (s.setFld F.HBMC_FAULT.PC pc stack).setFld F.HBMC_FAULT.KIND 1 stack
    let s := s.raise 0x2102 2 stack pc 0xFFFF 0xFFFF 0 (memDetail dev)
    let us := ((List.range 4).map (dev / 256 * 4 + ·)).filter (fun u => !s.mm.poison.contains u)
    let s : State := { s with mm.poison := s.mm.poison ++ us }
    let y := { s.stack stack with ues := x.ues ++ [(pc, unitIndex a, s.tm.now)] }
    let s := s.setStack stack y
    if 2 ≤ (y.recentUes pc s.tm.now).length then s.retire stack pc
    else s.lose (fun home u => home = 0 && u = dev / 256)

def execHbmUe (stack : Fin 12) (addr : BitVec 36) (s : State) : Host.Outcome State Fault Refusal :=
  .next (s.hbmUe stack addr.toNat)

/-! ## UNIT_RELEASE -/

/-- The bytes a fetched unit puts into a core store; U8 data are offset by 128 (R219). -/
def UnitRead.deliver (r : UnitRead) (data : List Byte) : List Byte :=
  if r.u8 then data.map (fun b => b - 128) else data

/-- Is the channel of a pseudo-channel retraining (R301). -/
def State.retraining (s : State) (stack pc : Nat) : Bool :=
  s.fld F.HBMC_STATUS.RETRAINING stack = 1 && s.fld F.HBMC_STATUS.RETRAIN_CH stack = pc / 2

/-- The command that a core works for reads poisoned data that is not re-derived: LOST_INPUT (R407). -/
def State.poisonedRead (s : State) (core : Nat) : State :=
  match (s.core core).place with
  | some p => (match s.cmd? p.q p.seq with | some c => s.lostInput c | none => s)
  | none => s

/-- The oldest read of a pseudo-channel is released to its requester (R299, R300); a line the host holds modified is
recalled first (R353). -/
def State.unitRelease (s : State) (stack pc : Nat) : State :=
  let x := s.stack stack
  if s.retraining stack pc ∨ s.tm.power ≠ .active ∨ x.offline then s
  else match x.reads.find? (fun r => r.pc = pc) with
    | none => s
    | some r =>
      if !s.readable r.addr r.len then
        (units64 r.addr r.len).foldl
          (fun s u => match s.held? u with
            | some h => if h.modified then s.recall u [.unit stack pc] else s
            | none => s) s
      else
        let s := s.setStack stack { x with reads := x.reads.erase r }
        if s.poisoned r.addr r.len then s.poisonedRead r.core
        else
        let k := s.core r.core
        let s := s.setCore r.core { k with store := wrBytes k.store r.dest (r.deliver (s.devRead r.addr r.len)) }
        (s.pins r.addr false r.len).addSlot 0x11 (r.core / 40) 1 r.len

def execUnitRelease (stack : Fin 12) (pc : Fin 64) (s : State) : Host.Outcome State Fault Refusal :=
  .next (s.unitRelease stack pc)

/-! ## Retraining (R301) -/

/-- The instant of a channel's retrain. -/
def retrainDue (now stack ch : Nat) : Bool := now % 32000000 = ch * 1000000 + stack * 80000

def State.retrain (s : State) (stack ch : Nat) : State :=
  if s.tm.power = .active ∧ retrainDue s.tm.now stack ch ∧ s.fld F.HBMC_STATUS.RETRAINING stack = 0 then
    let s := (s.setFld F.HBMC_STATUS.RETRAINING 1 stack).setFld F.HBMC_STATUS.RETRAIN_CH ch stack
    s.setStack stack { s.stack stack with retrainFrom := some s.tm.now }
  else s

def execRetrain (stack : Fin 12) (ch : Fin 32) (s : State) : Host.Outcome State Fault Refusal :=
  .next (s.retrain stack ch)

/-- A pseudo-channel whose retrain failed is retired. -/
def State.retrainFailed (s : State) (stack pc : Nat) : State :=
  ((s.setFld F.HBMC_FAULT.PC pc stack).setFld F.HBMC_FAULT.KIND 2 stack).retire stack pc

/-- A retrain ends 1 µs after it began: it is counted when both pseudo-channels passed. -/
def State.retrainEnd (s : State) (stack : Nat) (pass0 pass1 : Bool) : State :=
  match (s.stack stack).retrainFrom with
  | none => s
  | some t =>
    if s.tm.now < t + 1000 then s
    else
      let ch := s.fld F.HBMC_STATUS.RETRAIN_CH stack
      let s := s.setFld F.HBMC_STATUS.RETRAINING 0 stack
      let s := s.setStack stack { s.stack stack with retrainFrom := none }
      let s := if pass0 && pass1 then s.addCnt C.HBMC_CNT_RETRAIN 1 stack else s
      let s := if pass0 then s else s.retrainFailed stack (2 * ch)
      if pass1 then s else s.retrainFailed stack (2 * ch + 1)

/-- A retrain that has taken 2 µs is over; one that no RETRAIN_END has reported as failed has passed (R27; log 13). -/
def State.retrainsOver (s : State) : State :=
  (s.mm.hbm.filter (fun e => match e.2.retrainFrom with | some t => decide (t + 2000 ≤ s.tm.now) | none => false)).foldl
    (fun s e => s.retrainEnd e.1 true true) s

def execRetrainEnd (stack : Fin 12) (pass0 pass1 : Bool) (s : State) : Host.Outcome State Fault Refusal :=
  .next (s.retrainEnd stack pass0 pass1)

/-! ## Temperature and refresh (R302, R304) -/

/-- The step a reading asks for from a step: it rises at 75, 85 and 95 °C and falls 3 °C below. -/
def tempStepOf (old t : Nat) : Nat :=
  let up := if 95 ≤ t then 3 else if 85 ≤ t then 2 else if 75 ≤ t then 1 else 0
  let keep := if 92 < t then 3 else if 82 < t then 2 else if 72 < t then 1 else 0
  Nat.max up (Nat.min old keep)

/-- Each millisecond's reading. -/
def State.temperatureRead (s : State) (stack t : Nat) : State :=
  if s.tm.power = .off then s
  else
    let x := s.stack stack
    let s := (s.setStack stack { x with reading := t, tempStep := tempStepOf x.tempStep t }).setFld F.HBMC_TEMP.TEMP t stack
    let s := s.watchCool
    if 105 ≤ t then s.raise 0x2105 3 stack 0 0xFFFF 0xFFFF 0 t else s

def execTemperatureRead (stack : Fin 12) (celsius : Byte) (s : State) : Host.Outcome State Fault Refusal :=
  .next (s.temperatureRead stack celsius.toNat)

/-- A refresh interval boundary, every 3.9 µs of the time base: the step comes into force. -/
def State.refreshInterval (s : State) (stack : Nat) : State :=
  if s.tm.power = .off ∨ s.tm.now % 3900 ≠ 0 then s
  else
    let x := s.stack stack
    let st := Nat.max x.tempStep (s.fld F.HBMC_REF_CFG.MIN_STEP stack)
    if st = x.stepInForce then s
    else
      let s := s.setStack stack
        { x with stepInForce := st, hotSince := if x.stepInForce = 0 then s.tm.now else x.hotSince }
      let s := s.setFld F.HBMC_TEMP.STEP st stack
      (s.setInt F.HBMC_INT_STATUS.STEP_CHANGE stack).raise 0x2107 0 stack

def execRefreshInterval (stack : Fin 12) (s : State) : Host.Outcome State Fault Refusal :=
  .next (s.refreshInterval stack)

/-! ## CACHE_UE (R579) -/

/-- The byte offset of slice p's window quarter, and its length. -/
def State.windowQuarter (s : State) (p : Nat) : Nat × Nat :=
  (s.fld F.PDIE_WIN_BASE.BASE p * 65536, s.fld F.PDIE_WIN_SIZE.SIZE * 65536)

/-- The granted image whose space a byte of a slice lies in: the ring's unit of it is that of the slice's quarter. -/
def State.windowAt (s : State) (slice off : Nat) : Option WinReq :=
  let u := (off - (s.windowQuarter slice).1) / 4096 * 4 + slice
  s.mm.window.find? (fun w => w.granted && (s.ringUnits w.at_ w.bytes).contains u)

/-- A window image is discarded and fetched again: its request waits for a grant, its layer for its image, and the items that
read it are dealt again (R579). -/
def State.refetchWindow (s : State) (w : WinReq) (redeal : State → WinReq → State) : State :=
  let s : State := { s with mm.window := s.mm.window.map (fun x => if x = w then { w with granted := false } else x) }
  let s := match s.cmd? w.q w.seq with
    | some c => s.setCmd { c with layers := c.layers.map (fun l => if l.ord = w.layer then { l with windowReady := false } else l) }
    | none => s
  redeal s w

/-- An uncorrectable unit of a slice (R579): in the system area firmware requests a recovery reset, which is a trigger of one
(R460); an image of the window is fetched again; a stored version is re-derived or lost. -/
def State.cacheUe (s : State) (slice off : Nat) (recovery : State → State) (redeal : State → WinReq → State) : State :=
  if s.tm.power ≠ .active then s
  else
    let a := slice * 2 ^ 27 + off
    let s := s.raise 0x2002 2 slice 0 0xFFFF 0xFFFF 0 (memDetail a)
    let q := s.windowQuarter slice
    let s : State := { s with mm.poisonShared := s.mm.poisonShared ++ [a / 64].filter (fun u => !s.mm.poisonShared.contains u) }
    if off < s.fld F.PDIE_SYS.SIZE slice * 65536 then recovery s
    else if q.1 ≤ off ∧ off < q.1 + q.2 then
      let s : State := { s with mm.poisonShared := s.mm.poisonShared.filter (· ≠ a / 64) }
      match s.windowAt slice off with
      | some w => s.refetchWindow w redeal
      | none => s
    else s.lose (fun home u => home = 1 && u = a / 256)

end Sys2Proof.Machine
end

