-- ==== Sys2Proof/Machine/Expand.lean ====
section
/-! DEFINITION. The layers of a command as the cluster sequencers see them: plans and extents, the walk of an item's
level-0 tiles, with the taps of a convolution and the pages of attention, the wells and addresses of a step, and the
patching of words (07_tiling.md, 06_convolution.md "Taps into one well"; R208 to R211, R239 to R248, R254, R255). -/

namespace Sys2Proof.Machine

/-! ## The plans of a command's layers -/

/-- The image whose layers a command runs, and its storage base. -/
def State.cmdImage (s : State) (c : Cmd) : ImageRef := if c.kind = .step then s.stepImage c else s.runImage c
def State.cmdBase (s : State) (c : Cmd) : Nat := Config.imageBase (s.cmdImage c).desc (s.cmdImage c).version
def State.layerPlan (s : State) (c : Cmd) (l : Layer) : Plan := s.planAt (s.cmdBase c) l.plan
def State.kindHeader (s : State) (c : Cmd) (p : Plan) : List Byte := s.devRead (s.cmdBase c + p.kindOff) 32

/-- The descriptors a layer's plan names, with the valid extents it fixes when it starts, its output's among them (R254):
of a RUN its list, of a STEP none (log 7). -/
def State.layerDescs (s : State) (c : Cmd) (l : Layer) : List Desc :=
  if c.kind = .step then [] else s.descsBefore c (l.ord + 1)

/-- The descriptor of a plan's tensor as its layer sees it. -/
def State.layerDesc? (s : State) (c : Cmd) (l : Layer) (p : Plan) (slot : Nat) : Option Desc :=
  (s.layerDescs c l)[p.tensors.getD slot 0xFF]?

/-- The branches a layer of a STEP runs over: those stepped, and of the decoder's segment those whose group has
FLAGS.DECODE (R48). -/
def State.layerBranches (s : State) (c : Cmd) (l : Layer) : List Nat :=
  if l.seg = 3 then c.work.stepped.filter (fun k => bit (s.group (k / 4096)).flags 1) else c.work.stepped

/-- The valid and allocated extents of a layer's dimensions. A STEP's outermost BATCH dimension holds the branches it
steps, and its other dimensions are those of the plan (log 7). -/
def State.layerExt (s : State) (c : Cmd) (l : Layer) (p : Plan) (d : Nat) : Nat :=
  if c.kind = .step then
    (if p.role d = 3 ∧ (p.order 0).head? = some d then (s.layerBranches c l).length else p.size d 3)
  else p.validOf (s.layerDescs c l) d
def State.layerAlloc (s : State) (c : Cmd) (l : Layer) (p : Plan) (d : Nat) : Nat :=
  if c.kind = .step then s.layerExt c l p d else p.allocOf (s.layerDescs c l) d

/-! ## Convolution taps (R209 to R211) -/

/-- A tap's pass: the output half of the 16-bit class, the filter row and column, and the input group. -/
structure Tap where
  half : Nat
  kh   : Nat
  kw   : Nat
  j    : Nat
deriving DecidableEq, Repr

/-- Channels of a channel group (06, "The blocked layout"): those one pass reduces over. -/
def Plan.group (p : Plan) : Nat := match p.passReduction with | some r => r | none => 16

/-- Output halves of a pass: two in the 16-bit class (R93). -/
def Plan.halves (p : Plan) : Nat := if p.group = 8 then 2 else 1

/-- The passes of an output tile: for each half, kh ascending, then kw, then the input group (R209). Their number is that
of R211. -/
def convTaps (h : List Byte) (p : Plan) : List Tap :=
  (List.range p.halves).flatMap (fun half => (List.range (field h 0 1)).flatMap (fun kh =>
    (List.range (field h 1 1)).flatMap (fun kw => (List.range (field h 8 2 / Nat.max 1 p.group)).map (fun j =>
      { half := half, kh := kh, kw := kw, j := j }))))

/-! ## The walk of an item's level-0 tiles -/

/-- A level-0 step: its loop digits, the digits that its streams' addresses count, its element origin, the digits that
name its accumulation, and of a convolution its tap. -/
structure Walk where
  digits : List Nat
  index  : List Nat
  origin : List Nat
  acc    : List Nat
  tap    : Option Tap := none
deriving DecidableEq, Repr

/-- What the kind header walks in place of the plan's reduction (R244): the taps of a convolution; the number of pages of
attention. -/
structure Header where
  taps  : List Tap := []
  pages : Nat := 0
deriving DecidableEq, Repr

/-- Is a loop of L1 a reduction: a REDUCE dimension, or the loop over taps or pages where L1 names none. -/
def Plan.reduces (p : Plan) (d : Nat) : Bool := p.role d = 2 || d = 6

/-- The loops of L1, outermost first, as dimension and trip count. The header's walk takes the place of the first REDUCE
loop, and is innermost where L1 has none; box sampling has one step an item, its box (R244). -/
def Plan.loops (p : Plan) (h : Header) : List (Nat × Nat) :=
  let o := p.order 3
  let n := if p.kind = 1 then h.taps.length else h.pages
  if p.kind = 5 then []
  else if p.kind = 1 ∨ p.kind = 2 then
    let r := o.find? (fun d => p.role d = 2)
    let l := o.map (fun d => (d, if p.role d = 2 then (if some d = r then n else 1) else p.trip d 1))
    if r.isNone then l ++ [(6, n)] else l
  else o.map (fun d => (d, p.trip d 1))

/-- The linear index of digits over trip counts. -/
def linear : List Nat → List Nat → Nat
  | _ :: ts, g :: gs => g * ts.foldl (· * ·) 1 + linear ts gs
  | _, _ => 0

/-- The level-0 steps of an item, in L1 order. -/
def Plan.walk (p : Plan) (h : Header) (origin : List Nat) : List Walk :=
  let ls := p.loops h
  let trips := ls.map (·.2)
  let per := h.taps.length / p.halves
  (List.range (trips.foldl (· * ·) 1)).map (fun i =>
    let g := digits trips i
    let lg := ls.zip g
    let at_ (d : Nat) : Nat := (lg.find? (fun q => q.1.1 == d)).elim 0 (·.2)
    let red := (lg.find? (fun q => p.reduces q.1.1)).elim 0 (·.2)
    { digits := g
      index := lg.map (fun q => if p.kind = 1 ∧ p.reduces q.1.1 then q.2 % Nat.max 1 per else q.2)
      origin := (List.range p.ndim).map (fun d =>
        origin.getD d 0 + if p.walkedDim d then 0 else at_ d * p.size d 0)
      acc := lg.filterMap (fun q => if p.reduces q.1.1 then none else some q.2)
      tap := if p.kind = 1 then h.taps[red]? else none })

/-- The index of a step along the header's walk: the page it reads. -/
def Plan.walked (p : Plan) (h : Header) (w : Walk) : Nat :=
  (((p.loops h).zip w.digits).find? (fun q => p.reduces q.1.1)).elim 0 (·.2)

/-- The rotating well of a step (R248): accumulator a of set s, the loops outside the outermost REDUCE loop counting the
sets. -/
def Plan.rotWell (p : Plan) (h : Header) (w : Walk) : Nat :=
  let ls := p.loops h
  let k := (ls.takeWhile (fun q => !p.reduces q.1)).length
  let inner := ((ls.zip w.digits).drop k).filter (fun q => !p.reduces q.1.1)
  let set := linear ((ls.take k).map (·.2)) (w.digits.take k)
  let a := linear (inner.map (·.1.2)) (inner.map (·.2))
  p.fixedWells + set % p.sets * p.acc + a

/-! ## Address streams (R246) -/

/-- The fill of its stream that a step reads: fills count with the loops up to POS; one an item with POS 0xFF. -/
def Plan.fillOf (p : Plan) (h : Header) (st : Stream) (w : Walk) : Nat :=
  if st.pos = 0xFF then 0
  else linear (((p.loops h).take (st.pos + 1)).map (·.2)) (w.digits.take (st.pos + 1))

/-- The page stream of attention: the page walker's buffers lie in the first STATIONARY stream (R178; log 7). -/
def Plan.pageStream (p : Plan) : Option Nat :=
  if p.kind = 2 then p.streams.findIdx? (fun st => st.role = 1) else none

/-- Buffers of a stream: NBUF, and five for the pages of attention (R178). -/
def Plan.buffers (p : Plan) (i : Nat) (st : Stream) : Nat := if p.pageStream = some i then 5 else Nat.max 1 st.nbuf

/-- Where the buffer of a fill begins. `itemOrd` counts the items of the core, by which a stream with one fill an item moves
to its next buffer. -/
def Plan.bufferAt (p : Plan) (i : Nat) (st : Stream) (fill itemOrd : Nat) : Nat :=
  st.base + (if st.pos = 0xFF ∧ p.pageStream ≠ some i then itemOrd else fill) % p.buffers i st * st.size

/-- The fill of stream `i` that a step reads: for the page stream the page. -/
def Plan.streamFill (p : Plan) (h : Header) (i : Nat) (st : Stream) (w : Walk) : Nat :=
  if p.pageStream = some i then p.walked h w else p.fillOf h st w

/-- The address of a stream at a step: the loops inside POS, or all of them with one fill an item, count from the start of
the buffer's fill. -/
def Plan.streamAddr (p : Plan) (h : Header) (i : Nat) (st : Stream) (w : Walk) (itemOrd : Nat) : Nat :=
  let k := if st.pos = 0xFF then 0 else st.pos + 1
  let inner := (((p.loops h).zip w.index).drop k).filter (fun q => !(p.pageStream = some i && p.reduces q.1.1))
  p.bufferAt i st (p.streamFill h i st w) itemOrd + inner.foldl (fun n q => n + st.step.getD q.1.1 0 * q.2) 0

/-! ## The packed image of a convolution (R210, R217) -/

/-- Numbers in rising order without repeats. -/
def insertUp (x : Nat) : List Nat → List Nat
  | [] => [x]
  | y :: r => if x < y then x :: y :: r else if x = y then y :: r else y :: insertUp x r
def rising (l : List Nat) : List Nat := l.foldl (fun a x => insertUp x a) []

/-- The frame, the row and the first column of a step's output tile, and the row and the columns of the input that its tap
reads (R210; dimensions 1 columns, 2 rows, 3 frames, log 7). -/
def tapFrame (p : Plan) (w : Walk) : Nat := p.coord w.origin 3
def tapRow (h : List Byte) (p : Plan) (w : Walk) : Nat :=
  p.coord w.origin 2 * field h 2 1 + (w.tap.elim 0 (·.kh)) * field h 4 1
def tapCol (h : List Byte) (p : Plan) (w : Walk) (m : Nat) : Nat :=
  (p.coord w.origin 1 + m) * field h 3 1 + (w.tap.elim 0 (·.kw)) * field h 5 1

/-- The frames, rows and columns that the steps of a fill read: the others are neither fetched nor kept (R217). -/
structure Packed where
  frames : List Nat
  rows   : List Nat
  cols   : List Nat
deriving DecidableEq, Repr

def packedOf (h : List Byte) (p : Plan) (ws : List Walk) : Packed :=
  { frames := rising (ws.map (tapFrame p))
    rows := rising (ws.map (tapRow h p))
    cols := rising (ws.flatMap (fun w => (List.range 16).map (tapCol h p w))) }

/-- The place of a block in the packed image: the blocked layout over the rows and columns kept (R208; DESIGN CHOICE, the
spec does not say how the core store packs them; log 7). -/
def Packed.blockAt (k : Packed) (groups n y j x : Nat) : Nat :=
  (((k.frames.findIdx (· == n) * k.rows.length + k.rows.findIdx (· == y)) * groups + j) * k.cols.length +
    k.cols.findIdx (· == x)) * 16

/-- The moving stream whose buffers hold a convolution's image. -/
def Plan.imageStream (p : Plan) : Option Nat := p.streams.findIdx? (fun st => st.role = 0)

/-- The steps of an item that read the same fill of stream `i` as a step does. -/
def Plan.sameFill (p : Plan) (h : Header) (i : Nat) (st : Stream) (ws : List Walk) (fill : Nat) : List Walk :=
  ws.filter (fun w => p.streamFill h i st w = fill)

/-- The core-store addresses of the 16 moving rows of a convolution's pass (R210). -/
def Plan.tapRows (p : Plan) (kh : List Byte) (h : Header) (ws : List Walk) (w : Walk) (itemOrd : Nat) : List Nat :=
  match p.imageStream with
  | none => []
  | some i => match p.streams[i]? with
    | none => []
    | some st =>
      let f := p.streamFill h i st w
      let k := packedOf kh p (p.sameFill h i st ws f)
      let groups := field kh 8 2 / Nat.max 1 p.group
      (List.range 16).map (fun m => p.bufferAt i st f itemOrd +
        k.blockAt groups (tapFrame p w) (tapRow kh p w) (w.tap.elim 0 (·.j)) (tapCol kh p w m))

/-! ## Patching (R247) -/

/-- A word with bits [hi:lo] replaced. -/
def putBits (w : W64) (hi lo v : Nat) : W64 :=
  BitVec.ofNat 64 (w.toNat - wf w hi lo * 2 ^ lo + v % 2 ^ (hi + 1 - lo) * 2 ^ lo)

/-- A body entry's word for a step. In the 16-bit class of a convolution the walker selects the output half of ARRAY and the
columns of LOAD_STAT's quarter by the tap (R93). -/
def Plan.patchWord (p : Plan) (h : Header) (e : Entry16) (w : Walk) (itemOrd : Nat) (accFirst : Bool) : CoreWord :=
  let rot := p.rotWell h w
  let addr (i : Nat) : Nat := match p.streams[i]? with | some st => p.streamAddr h i st w itemOrd / 32 | none => 0
  let on (b : Nat) (hi lo v : Nat) (x : W64) : W64 := if bit e.patch b then putBits x hi lo v else x
  let half (hi lo : Nat) (x : W64) : W64 := match w.tap with
    | some t => if p.halves = 2 then putBits x hi lo t.half else x
    | none => x
  match wf e.word 63 60 with
  | 1 =>
    .bits (half 52 52 (on 0 59 55 rot (on 1 54 54 (b2n !accFirst) (on 2 41 30 (addr e.sa) (on 3 21 10 (addr e.sb) e.word)))))
  | 2 => .bits (half 33 33 (on 2 59 48 (addr e.sa) (on 3 32 21 (addr e.sb) e.word)))
  | 3 => .bits (on 0 59 55 rot (on 2 41 30 (addr e.sa) (on 3 21 10 (addr e.sb) e.word)))
  | _ => match coreWordOf e.word with
    | .vec v => .vec { v with
        d := if bit e.patch 0 then rot else v.d
        a := if bit e.patch 2 then addr e.sa else v.a
        b := if bit e.patch 3 then addr e.sb else v.b }
    | .save40 m a => .save40 (if bit e.patch 0 then BitVec.ofNat 24 (2 ^ rot) else m) a
    | .restore40 m a => .restore40 (if bit e.patch 0 then BitVec.ofNat 24 (2 ^ rot) else m) a
    | x => x

/-! ## REDUCE groups (R242) -/

/-- The local index of the lowest item among those of a job that differ from item `k` in REDUCE dimensions alone. -/
def Plan.lowestOf (p : Plan) (k : Nat) : Nat :=
  let o := p.order 2
  let t := o.map (fun d => p.trip d 2)
  linear t ((o.zip (digits t k)).map (fun q => if p.role q.1 = 2 then 0 else q.2))

/-- Does an item issue its ITEM_LAST words: with PARTIAL only the lowest of its REDUCE group. -/
def Plan.sums (p : Plan) (k : Nat) : Bool := !p.partial_ || p.lowestOf k = k

/-- The other items of the REDUCE group of an item, as a mask. -/
def Plan.mates (p : Plan) (k : Nat) : Nat :=
  if p.partial_ then
    ((List.range p.jobItems).filter (fun i => i ≠ k && p.lowestOf i = p.lowestOf k)).foldl (fun n i => n + 2 ^ i) 0
  else 0

end Sys2Proof.Machine
end

