-- ==== Sys2Proof/Machine/Attend.lean ====
section
/-! DEFINITION. The attention pipeline (05_attention.md; R165 to R178, R190, R202): the holder of a job, the pages an item
walks, what of them is visible, the procedure of a pair and its attention mass. -/

namespace Sys2Proof.Machine

/-! ## The holder of a job (R177) -/

def State.attnParam (s : State) (c : Cmd) (p : Plan) (f : Nat) : Nat :=
  Config.attnField (s.cmdImage c).desc (s.cmdImage c).version p.kindOff f

/-- The array format of a KV_FMT, and its element's bytes (table "Attention parameters"). -/
def kvFormat (f : Nat) : Nat := if f = 0 then 2 else if f = 1 then 3 else 5
def kvWidth (f : Nat) : Nat := if f = 2 then 2 else 1

/-- The holder ordinal and the key-value head of a job: a job is one layer of one holder, taken for one head, the heads of a
holder making its level-3 tile (R177, R240). -/
def Plan.heads (p : Plan) : Nat := Nat.max 1 ((p.order 1).foldl (fun n d => n * p.trip d 3) 1)
def Plan.holderOf (p : Plan) (job : Nat) : Nat := job / p.heads
def Plan.headOf (p : Plan) (job : Nat) : Nat := job % p.heads

/-- The layer of its holder's image that an attention layer reads: its ordinal among the command's attention layers (DESIGN
CHOICE: the plan record has no field for it; log 7). -/
def State.kvLayer (s : State) (c : Cmd) (l : Layer) : Nat :=
  (c.layers.filter (fun x => decide (x.ord < l.ord) && (s.layerPlan c x).kind = 2)).length

/-- A sequence's image as a command sees it: the one it has staged, or the one current at its base epoch (R192). -/
def Cmd.seqImage (c : Cmd) (n : Nat) : Image :=
  if c.appendTo.contains n then look {} c.work.images n else look {} c.snaps n

/-- A holder's image and TOKENS_PER_FRAME: a stepped branch of a STEP, a sequence of a RUN. -/
def State.holderImage (s : State) (c : Cmd) (l : Layer) (p : Plan) (holder : Nat) : Image × Nat :=
  if c.kind = .step then
    let k := (s.layerBranches c l).getD holder 0
    (s.branchImage c (s.wbranch c k), (s.group (k / 4096)).tpf)
  else
    let n := Config.attnSeq (s.cmdImage c).desc (s.cmdImage c).version p.kindOff holder
    (c.seqImage n, (s.seq n).tpf)

/-! ## Visibility (R166, R169) -/

/-- A page that an item walks: its number, the index of its entry, and which of its 64 slots are visible. -/
structure KeyPage where
  page  : Nat
  index : Nat
  vis   : List Bool
deriving DecidableEq, Repr

/-- Is the key at slot `i` of an entry visible to a row block of a frame (R169). -/
def visibleKey (im : Image) (tpf frame start fill i : Nat) : Bool :=
  decide (i < fill) && decide (im.windowStart ≤ start + i) && decide ((start + i) / Nat.max 1 tpf ≤ frame)

/-- The pages of a layer in ascending entry order, EVICTED entries skipped (R166). -/
def pagesFor (im : Image) (tpf layer frame : Nat) : List KeyPage :=
  let es := im.entries.getD layer []
  (List.range es.length).filterMap (fun i => match es[i]? with
    | some e =>
      if e.evicted then none
      else some { page := e.page, index := i
                  vis := (List.range 64).map (visibleKey im tpf frame (im.startOf i) e.fill) }
    | none => none)

/-- Has a page a masked key (R171). -/
def KeyPage.masked (k : KeyPage) : Bool := k.vis.any (fun v => !v)

/-- The row block of an item: its level-0 tile along the OUT_ROW dimension. -/
def Plan.rowBlock (p : Plan) (origin : List Nat) : Nat :=
  match (List.range p.ndim).find? (fun d => p.role d = 0) with
  | some d => origin.getD d 0 / Nat.max 1 (p.size d 0)
  | none => 0

/-- The element origin of an item in its layer. -/
def State.originOf (s : State) (c : Cmd) (l : Layer) (p : Plan) (item : Nat) : List Nat :=
  p.itemOrigin (s.layerExt c l p) (item / Nat.max 1 p.jobItems) (item % Nat.max 1 p.jobItems)

/-- The pages an item walks. -/
def State.itemPages (s : State) (c : Cmd) (l : Layer) (p : Plan) (item : Nat) : List KeyPage :=
  let im := s.holderImage c l p (p.holderOf (item / Nat.max 1 p.jobItems))
  let f := Config.attnFrame (s.cmdImage c).desc (s.cmdImage c).version p.kindOff
    (p.rowBlock (s.originOf c l p item)) im.1.positions
  pagesFor im.1 im.2 (s.kvLayer c l) f

/-- A head's part of a page: where its key rows or its value rows begin (05, "Formats, heads and cores"). -/
def State.headAddr (s : State) (page head d w : Nat) (value : Bool) : Nat :=
  s.pageAddr page + head * 128 * d * w + (if value then 64 * d * w else 0)

/-- The 64 rows of a head's keys or values as the page walker delivers them: masked rows zero (R170). -/
def State.pageRows (s : State) (k : KeyPage) (head d w : Nat) (value : Bool) : List (List Byte) :=
  (List.range 64).map (fun i =>
    if k.vis.getD i false then s.devRead (s.headAddr k.page head d w value + i * d * w) (d * w)
    else List.replicate (d * w) 0)

/-! ## The procedure of a pair (R165) -/

/-- The elements of a row of bytes in an array format. -/
def rowVals (fmt w : Nat) (b : List Byte) : List Val :=
  (List.range (b.length / w)).map (fun i => arrayVal fmt (field b (w * i) w))

/-- A list cut into runs of n. -/
def chunks {α : Type} (n : Nat) : (fuel : Nat) → List α → List (List α)
  | 0, _ => []
  | fuel + 1, l => if l.isEmpty then [] else l.take n :: chunks n fuel (l.drop n)

/-- A W40 accumulation by passes of `n` products, each rounded once (R89). -/
def passes (sat : Bool) (n : Nat) (acc : W40) (a b : List Val) : W40 :=
  ((chunks n (a.length + 1) a).zip (chunks n (b.length + 1) b)).foldl
    (fun acc p => (toW40 sat (dot (ofW40 acc) p.1 p.2)).1) acc

/-- Column `j` of rows. -/
def column (rows : List (List Val)) (j : Nat) : List Val := rows.map (fun r => r.getD j (.fin false 0 0))

/-- A reduction of the values of a row's 64 keys, two vectors of 32 (R116). -/
def reduce64 (f : Nat → Nat → Nat) (l : List Nat) : Nat := f (tree32 f (l.take 32)) (tree32 f (l.drop 32))

/-- What the procedure is given: the scale c, EXPNEG, the class's reduction of a pass, W40_SAT and NARROW_SAT. -/
structure AttnCfg where
  scale  : Nat
  table  : List Byte
  red    : Nat
  sat    : Bool
  narrow : Bool
deriving DecidableEq, Repr

/-- A row of a pair: m, l, its output in W40, and for each page its rowsum and its m (R202). -/
structure PairRow where
  m    : Nat := 0xFF7FFFFF
  l    : W40 := 0
  o    : List W40 := []
  sums : List (Nat × Nat) := []
deriving DecidableEq, Repr

/-- alpha = exp(c * (a - b)). -/
def AttnCfg.alpha (x : AttnCfg) (a b : Nat) : Nat := vExp 1 0x42B17218 (f32mul x.scale (f32sub a b))

/-- The scores of a row against a page's keys, the masked ones minus infinity (R165, R171). -/
def AttnCfg.scores (x : AttnCfg) (k : KeyPage) (q : List Val) (keys : List (List Val)) : List W40 :=
  (List.range 64).map (fun j =>
    let v := passes x.sat x.red 0 q (keys.getD j [])
    if k.masked then (toW40 x.sat ((ofW40 v).add (ofF32 (if k.vis.getD j false then 0 else 0xFF800000)))).1 else v)

/-- One page of the procedure for one row (R165). -/
def AttnCfg.page (x : AttnCfg) (k : KeyPage) (q : List Val) (keys vals : List (List Val)) (r : PairRow) : PairRow :=
  let first := r.sums.isEmpty
  let sc := (x.scores k q keys).map (fun v => toF32 v.toNat (ofW40 v))
  let mn := vMaxMin true r.m (reduce64 (vMaxMin true) sc)
  let alpha := ofF32 (x.alpha r.m mn)
  let p := sc.map (fun v => (e4m3.encode .rne x.narrow v (ofF32 (tableEval x.table (f32add v (f32sub 0 mn))))).1)
  let pv := p.map e4m3.decode
  let sum := reduce64 vAdd (p.map (fun v => toF32 v (e4m3.decode v)))
  let d := (vals.headD []).length
  { m := mn
    l := if first then (toW40 x.sat (ofF32 sum)).1 else (toW40 x.sat ((alpha.mul (ofW40 r.l)).add (ofF32 sum))).1
    o := (List.range d).map (fun j =>
      let acc : W40 := if first then 0 else (toW40 x.sat (alpha.mul (ofW40 (r.o.getD j 0)))).1
      passes x.sat x.red acc pv (column vals j))
    sums := r.sums ++ [(sum, mn)] }

/-- f of R165: 0 where the sum is 0, else RCP of it. -/
def PairRow.norm (r : PairRow) : Nat := if (ofW40 r.l).isZero then 0 else vRcp (toF32 r.l.toNat (ofW40 r.l))

/-- A row's result in W40 (R165, R172). -/
def PairRow.out (x : AttnCfg) (r : PairRow) (d : Nat) : List W40 :=
  (List.range d).map (fun j => (toW40 x.sat ((ofF32 r.norm).mul (ofW40 (r.o.getD j 0)))).1)

/-- A row run over its pages (R165, R166). -/
def AttnCfg.row (x : AttnCfg) (q : List Val) : List (KeyPage × List (List Val) × List (List Val)) → PairRow → PairRow
  | [], r => r
  | (k, keys, vals) :: rest, r => x.row q rest (x.page k q keys vals r)

/-- The mass a row gave to its i-th page: rowsum * exp(c * (m_b - m_final)) / l, each operation in FP32 (R202; log 56). -/
def AttnCfg.mass (x : AttnCfg) (r : PairRow) (i : Nat) : Nat :=
  let b := r.sums.getD i (0, r.m)
  f32mul (f32mul b.1 (x.alpha b.2 r.m)) r.norm

/-! ## A pair in its core -/

/-- Is a body entry the pass of queries with keys: an ARRAY word with T = 1. -/
def isScorePass (e : Entry16) : Bool := wf e.word 63 60 = 1 && wf e.word 53 53 = 1

/-- The table EXPNEG of a plan: that of the first DRAIN of an S well through a table. -/
def Plan.expTable (p : Plan) (d : Nat) : Option Nat :=
  (p.body.find? (fun e => wf e.word 63 60 = 3 && decide (d / 16 ≤ wf e.word 59 55) && decide (wf e.word 47 44 < 8))).map
    (fun e => wf e.word 47 44)

/-- The query row `m` of a pair in the core store. The rows of a reduction block follow M_STRIDE; the blocks of a row lie side
by side where the stride spans a whole row, else one after another (DESIGN CHOICE: the spec does not place them; log 7). -/
def queryRow (mem : Mem) (w : W64) (fmt width d m : Nat) : List Val :=
  let st := wf w 29 22 * 16
  let next := if d * width ≤ st then 16 else 16 * st
  rowVals fmt width ((List.range (ceilDiv (d * width) 16)).flatMap (fun r =>
    rdBytes mem (wf w 41 30 * 32 + r * next + m * st) 16))

/-- The rows of a pair, once its pages are walked: queries from its core's store, keys and values from the pool (R165). -/
def State.pairRows (s : State) (c : Cmd) (core : Nat) (p : Plan) (q : W64) (head : Nat) (pages : List KeyPage) :
    AttnCfg × List PairRow :=
  let f := s.attnParam c p 0
  let d := s.attnParam c p 2
  let w := kvWidth f
  let k := s.core core
  let x : AttnCfg :=
    { scale := (Config.attnScale (s.cmdImage c).desc (s.cmdImage c).version p.kindOff).toNat
      table := match p.expTable d with | some i => k.tables.getD i [] | none => []
      red := 16 / w
      sat := s.coreFld F.CORE_CFG.W40_SAT core = 1
      narrow := s.coreFld F.CORE_CFG.NARROW_SAT core = 1 }
  let rows (g : KeyPage) (v : Bool) : List (List Val) := (s.pageRows g head d w v).map (rowVals (kvFormat f) w)
  let data := pages.map (fun g => (g, rows g false, rows g true))
  (x, (List.range 16).map (fun m => x.row (queryRow k.store q (wf q 50 47) w d m) data {}))

/-- The attention mass of a pair for each entry of its layer, summed over its rows in ascending order (R202). -/
def pairMass (x : AttnCfg) (rows : List PairRow) (pages : List KeyPage) (entries : Nat) : List (Option W32) :=
  (List.range entries).map (fun e =>
    let i := pages.findIdx (fun g => g.index == e)
    if i < pages.length then
      some (BitVec.ofNat 32 (match rows.map (fun r => x.mass r i) with
        | [] => 0
        | a :: r => r.foldl f32add a))
    else none)

/-- The result of a pair put into its core store, where the plan's DRAIN of each O well without a table puts that well
(R165); `at_` gives the word of an entry as issued. -/
def putResult (x : AttnCfg) (d : Nat) (rows : List PairRow) (at_ : Entry16 → CoreWord) (body : List Entry16) (m : Mem) : Mem :=
  (body.filter (fun e => wf e.word 63 60 = 3 && decide (wf e.word 59 55 < d / 16) && wf e.word 47 44 = 15)).foldl
    (fun m e => match at_ e with
      | .bits w =>
        let f := outFmt (wf w 54 51)
        (List.range 16).foldl
          (fun m r =>
            let vs := ((((rows.getD r {}).out x d).drop (16 * wf w 59 55)).take 16).map ofW40
            wrBytes m (wf w 41 30 * 32 + r * (wf w 29 22 * 16))
              (packFmt f ((List.range vs.length).map (fun i => (f.encode .rne x.narrow (i + 16 * r) (vs.getD i .nan)).1)))) m
      | _ => m) m

/-- An item of an attention layer: its pair's result in the core store, and of a SCORED holder of a STEP the mass the pair
gave to each entry (R165, R202). `at_` gives the word of an entry as the item's last step issued it. -/
def State.attend (s : State) (c : Cmd) (l : Layer) (p : Plan) (core item : Nat) (at_ : Entry16 → CoreWord) : State :=
  match p.body.find? isScorePass with
  | none => s
  | some e => match at_ e with
    | .bits q =>
      let job := item / Nat.max 1 p.jobItems
      let pages := s.itemPages c l p item
      let r := s.pairRows c core p q (p.headOf job) pages
      let k := s.core core
      let s := s.setCore core { k with store := putResult r.1 (s.attnParam c p 2) r.2 at_ p.body k.store }
      if c.kind = .step then
        let key := (s.layerBranches c l).getD (p.holderOf job) 0
        let n := ((s.holderImage c l p (p.holderOf job)).1.entries.getD (s.kvLayer c l) []).length
        let pm : PairMass :=
          { key := key, layer := s.kvLayer c l, pair := p.headOf job * p.jobItems + item % Nat.max 1 p.jobItems
            mass := pairMass r.1 r.2 pages n }
        match s.cmd? c.q c.seq with
        | some x =>
          let kept := x.work.mass.filter (fun o => !(o.key == pm.key && o.layer == pm.layer && o.pair == pm.pair))
          if (s.group (key / 4096)).scored then s.setCmd { x with work := { x.work with mass := kept ++ [pm] } } else s
        | none => s
      else s
    | _ => s

/-! ## Keys and values appended (R190) -/

/-- The entry and slot of the j-th position appended last, of `n` of them. -/
def Image.slotOf (im : Image) (n j : Nat) : Option (Nat × Nat) :=
  let pos := im.fills.foldl (· + ·) 0 - n + j
  let i := (List.range im.count).find? (fun i => decide (pos < (im.fills.take (i + 1)).foldl (· + ·) 0))
  i.map (fun i => (i, pos - (im.fills.take i).foldl (· + ·) 0))

/-- A key or value row that an item makes is written into the page of its position, which the command has staged (R190). -/
def State.putKv (s : State) (c : Cmd) (l : Layer) (p : Plan) (core : Nat) (r : Config.KvRow) : State :=
  let im := (s.holderImage c l p r.holder).1
  let g := s.group ((s.layerBranches c l).getD r.holder 0 / 4096)
  let n := Config.attnSeq (s.cmdImage c).desc (s.cmdImage c).version p.kindOff r.holder
  let own := c.kind = .step ∨ c.appendTo.contains n
  let d := if c.kind = .step then g.headDim else (s.seq n).headDim
  let w := kvWidth (if c.kind = .step then g.kvFmt else (s.seq n).kvFmt)
  let tokens := if c.kind = .step then Config.imageTokens (s.cmdImage c).desc (s.cmdImage c).version
    else ((Config.imageAppend (s.cmdImage c).desc (s.cmdImage c).version (runSegment c)).find? (fun a => a.1 == n)).elim 0 (·.2)
  match im.slotOf tokens r.token with
  | none => s
  | some (i, slot) => match (im.entries.getD r.layer [])[i]? with
    | none => s
    | some e =>
      if !own ∨ tokens ≤ r.token then s
      else if s.coreFenced core then s.discardFenced (homeDie 0 (s.pageAddr e.page)) (some (core / 40))
      else
        s.homeWrite 0 (s.headAddr e.page r.head d w r.value + slot * d * w)
          (rdBytes (s.core core).store (r.at_ % 98304) (d * w))

def State.putKvs (s : State) (c : Cmd) (l : Layer) (p : Plan) (core item : Nat) : State :=
  (Config.kvRows (s.cmdImage c).desc (s.cmdImage c).version l.ord item).foldl (fun s r => s.putKv c l p core r) s

end Sys2Proof.Machine
end

