-- ==== Sys2Proof/Machine/Box.lean ====
section
/-! DEFINITION. The storage of a layer's tensors as its cores and pumps reach it, the blocked layout and the regrouping of
images (06_convolution.md; R208, R217 to R222), and box sampling (R224 to R229). -/

namespace Sys2Proof.Machine

/-! ## Tensors of a running layer -/

/-- The stored bytes of a descriptor of a running command, from its home; cluster-homed ones from the cluster's store. -/
def State.tensorRead (s : State) (c : Cmd) (cl : Nat) (u : DescUse) (off n : Nat) : List Byte :=
  let r := u.range
  match r.1 with
  | 0 => s.devRead (r.2.1 + off) n
  | 1 => rdBytes s.mm.shared (r.2.1 + off) n
  | 2 => rdBytes (s.cluster cl).store (r.2.1 + off) n
  | _ => ((c.blockBytes r.2.1 (ceilDiv r.2.2 4096 * 4096)).drop off).take n

/-- Bytes put over an offset of a block of 4 KiB. -/
def overlay (blk : List Byte) (off : Nat) (data : List Byte) : List Byte :=
  (List.range 4096).map (fun i => if off ≤ i ∧ i < off + data.length then data.getD (i - off) 0 else blk.getD i 0)

/-- Bytes of an output staged for a cistern. -/
def Cmd.stageCistern (c : Cmd) (a : Nat) (data : List Byte) : Cmd :=
  let m := cisModule a
  (List.range (ceilDiv (a % 4096 + data.length) 4096)).foldl
    (fun c i =>
      let b := cisBlock a + i
      let lo := if i = 0 then 0 else i * 4096 - a % 4096
      let part := (data.drop lo).take (if i = 0 then 4096 - a % 4096 else 4096)
      let blk := overlay ((c.block? m b).getD []) (if i = 0 then a % 4096 else 0) part
      { c with data := c.data.filter (fun d => !(d.1 == m && d.2.1 == b)) ++ [(m, b, blk)] }) c

/-- Bytes written to a descriptor's storage by a layer's cores. -/
def State.tensorWrite (s : State) (c : Cmd) (cl : Nat) (u : DescUse) (off : Nat) (data : List Byte) : State :=
  let r := u.range
  match r.1 with
  | 2 =>
    let x := s.cluster cl
    (s.setCluster cl { x with store := wrBytes x.store (r.2.1 + off) data }).addSlot 0x11 cl 3 data.length
  | 3 => (match s.cmd? c.q c.seq with | some d => s.setCmd (d.stageCistern (r.2.1 + off) data) | none => s)
  | h => s.homeWrite h (r.2.1 + off) data

/-- Bytes that the item of a core writes to a tensor: one to a home outside its cluster carries the item's counter, job, item
and generation, and is discarded where a fence entry is higher (R272). -/
def State.itemWrite (s : State) (c : Cmd) (core : Nat) (u : DescUse) (off : Nat) (data : List Byte) : State :=
  if u.range.1 ≠ 2 && s.coreFenced core then s.discardFenced (homeDie u.range.1 (u.range.2.1 + off)) (some (core / 40))
  else s.tensorWrite c (core / 40) u off data

/-- An element of a tensor by its offset and width in half bytes, the low nibble of a byte first (R208). -/
def State.elemRead (s : State) (c : Cmd) (cl : Nat) (u : DescUse) (off w : Nat) : Nat :=
  leNat (s.tensorRead c cl u (off / 2) (ceilDiv (off % 2 + w) 2)) / 16 ^ (off % 2) % 16 ^ w

def State.elemWrite (s : State) (c : Cmd) (core : Nat) (u : DescUse) (off w v : Nat) : State :=
  if w % 2 = 0 then s.itemWrite c core u (off / 2) (toLE (w / 2) v)
  else
    let old := s.elemRead ((s.cmd? c.q c.seq).getD c) (core / 40) u (off / 2 * 2) 2
    let b := if off % 2 = 0 then old / 16 * 16 + v % 16 else old % 16 + v % 16 * 16
    s.itemWrite c core u (off / 2) [BitVec.ofNat 8 b]

/-! ## The blocked layout (R208; dimensions 0 channels, 1 columns, 2 rows, 3 frames, log 7) -/

/-- Elements of a channel group of 16 bytes. -/
def Desc.perGroup (d : Desc) : Nat := 32 / Nat.max 1 (halfBytes d.format)

/-- Offset of channel `c` of pixel (x, y) of frame `n`, in half bytes. -/
def Desc.blockOff (d : Desc) (c x y n : Nat) : Nat :=
  let g := Nat.max 1 d.perGroup
  (((n * d.allocAt 2 + y) * ceilDiv (d.allocAt 0) g + c / g) * d.allocAt 1 + x) * 32 + c % g * halfBytes d.format

/-! ## A convolution's input image (R217 to R219, R221) -/

/-- Bytes of a block in order: some of the source's storage, or constants. -/
structure Span where
  off   : Nat := 0
  len   : Nat := 0
  const : List Byte := []
deriving DecidableEq, Repr

/-- Adjoining spans of storage joined. -/
def joinSpans (l : List Span) : List Span :=
  l.foldr (fun a r => match r with
    | b :: t =>
      if a.const = [] ∧ b.const = [] ∧ a.off + a.len = b.off then { off := a.off, len := a.len + b.len } :: t else a :: r
    | [] => [a]) []

/-- 16 bytes of BORDER_VALUE. -/
def borderBlock (h : List Byte) (d : Desc) : List Byte :=
  let w := halfBytes d.format / 2
  if w = 0 then List.replicate 16 (BitVec.ofNat 8 (field h 0x10 1 % 16 * 17))
  else (List.range (16 / w)).flatMap (fun _ => (h.drop 0x10).take w)

/-- Where a block of the image comes from: the border, the regrouped source, or the source as it is. The image's extents are
those of the source that the layer fixed at its start; beyond a bordered image the border goes on (log 7). -/
def convBlock (h : List Byte) (d : Desc) (n y j x : Nat) : List Span :=
  let grp := bit (field h 6 1) 0
  let brd := bit (field h 6 1) 3
  let r := 2 ^ bits (field h 7 1) 3 0
  let top := if brd then bits (field h 0x0C 2) 3 0 else 0
  let left := if brd then bits (field h 0x0C 2) 11 8 else 0
  let ext (i : Nat) : Nat := if grp then ceilDiv (d.validAt i) r else d.validAt i
  if brd ∧ ¬ (top ≤ y ∧ y < top + ext 2 ∧ left ≤ x ∧ x < left + ext 1) then [{ const := borderBlock h d }]
  else if grp then
    let c0 := Nat.max 1 (d.allocAt 0)
    joinSpans ((List.range d.perGroup).map (fun i =>
      let ch := j * d.perGroup + i
      { off := d.elemOff (ch % c0) ((x - left) * r + ch / c0 % r) ((y - top) * r + ch / c0 / r) n / 2
        len := halfBytes d.format / 2 }))
  else [{ off := d.blockOff (j * d.perGroup) (x - left) (y - top) n / 2, len := 16 }]

/-! ## A convolution's output (R208, R216, R222) -/

/-- Where an element of the output is stored, in half bytes, if its storage has a place for it. -/
def convDest (h : List Byte) (d : Desc) (c x y n : Nat) : Option Nat :=
  let r := 2 ^ bits (field h 7 1) 7 4
  if bit (field h 6 1) 1 then
    let c0 := Nat.max 1 (field h 10 2 / (r * r))
    let x' := x * r + c / c0 % r
    let y' := y * r + c / c0 / r
    if x' < d.allocAt 1 ∧ y' < d.allocAt 2 ∧ c % c0 < d.allocAt 0 then some (d.elemOff (c % c0) x' y' n) else none
  else if x < d.allocAt 1 ∧ y < d.allocAt 2 ∧ c < d.allocAt 0 then some (d.blockOff c x y n) else none

/-- An output tile of a convolution stored: 16 pixels of a row from column `x`, 16 channels from `ch`; its rows lie at `base`
in the core store, `stride` apart. -/
def State.storeTile (s : State) (c : Cmd) (core : Nat) (h : List Byte) (u : DescUse) (d : Desc)
    (base stride ch x y n : Nat) : State :=
  let w := halfBytes d.format
  cells16.foldl (fun s p => match convDest h d (ch + p.2) (x + p.1) y n with
    | none => s
    | some o =>
      let m := (s.core core).store
      let a := base + p.1 * stride
      s.elemWrite c core u o w (if w = 1 then nibble m a p.2 else leNat (rdBytes m (a + p.2 * (w / 2)) (w / 2)))) s

/-! ## Box sampling -/

/-- The greatest integer not above a finite value. -/
def floorOf (v : Val) : Int :=
  match v with
  | .fin neg m e =>
    if 0 ≤ e then (let n : Int := (m * 2 ^ e.toNat : Nat); if neg then -n else n)
    else
      let d := 2 ^ (-e).toNat
      if neg then -((m + d - 1) / d : Nat) else ((m / d : Nat) : Int)
  | _ => 0

def ofIntVal (n : Int) : Val := .fin (decide (n < 0)) n.natAbs 0

/-- A box-sampling header's grid along one axis (R225): the coordinate of point i, from the ends and the inverse. -/
def boxCoord (count inv a b i : Nat) : Nat :=
  let half := 0x3F000000
  let start := if count = 1 then f32mul (f32add a b) half else a
  f32fma (toF32 0 (ofIntVal i)) (f32mul (f32sub b a) inv) start

/-- Does a coordinate lie outside an image of `e` rows or columns (R226). -/
def outside (e y : Nat) : Bool :=
  let v := ofF32 y
  v.isNan || v.lt (.fin false 0 0) || (ofIntVal ((e : Int) - 1)).lt v

/-- A source element exactly as FP32. -/
def boxValue (fmt raw : Nat) : Nat :=
  match fmt with
  | 8 => raw
  | 5 => toF32 raw (bf16.decode raw)
  | 2 => toF32 raw (e4m3.decode raw)
  | _ => toF32 raw (e5m2.decode raw)

/-- An FP32 value in the output's format, to nearest even. -/
def boxOut (sat : Bool) (fmt x : Nat) : Nat :=
  match fmt with
  | 8 => x
  | 5 => (bf16.encode .rne sat x (ofF32 x)).1
  | _ => (e4m3.encode .rne sat x (ofF32 x)).1

/-- The source rows and columns that a point inside the image reads: top left, top right, bottom left and bottom right, the
same one four times in NEAREST mode (R228, R229). -/
def boxTaps (nearest : Bool) (eh ew y x : Nat) : List (Nat × Nat) :=
  if outside eh y || outside ew x then []
  else if nearest then
    let half := 0x3F000000
    let p := ((floorOf (ofF32 (f32add y half))).toNat, (floorOf (ofF32 (f32add x half))).toNat)
    [p, p, p, p]
  else
    let ylo := (floorOf (ofF32 y)).toNat
    let xlo := (floorOf (ofF32 x)).toNat
    let yhi := Nat.min (ylo + 1) (eh - 1)
    let xhi := Nat.min (xlo + 1) (ew - 1)
    [(ylo, xlo), (ylo, xhi), (yhi, xlo), (yhi, xhi)]

/-- A point of a patch (R226, R228, R229): `v y x` is a source value. -/
def boxPoint (nearest : Bool) (extrap eh ew y x : Nat) (v : Nat → Nat → Nat) : Nat :=
  match boxTaps nearest eh ew y x with
  | [tl, tr, bl, br] =>
    if nearest then v tl.1 tl.2
    else
      let wy := toF32 0 ((ofF32 y).add (ofIntVal (-(tl.1 : Int))))
      let wx := toF32 0 ((ofF32 x).add (ofIntVal (-(tl.2 : Int))))
      let t := f32fma wx (f32sub (v tr.1 tr.2) (v tl.1 tl.2)) (v tl.1 tl.2)
      let b := f32fma wx (f32sub (v br.1 br.2) (v bl.1 bl.2)) (v bl.1 bl.2)
      f32fma wy (f32sub b t) t
  | _ => extrap

/-- The frame of a box, when N is a whole number of a frame (R227). -/
def boxFrame (frames n : Nat) : Option Nat :=
  match ofF32 n with
  | .fin neg m e =>
    let f := floorOf (.fin neg m e)
    if 0 ≤ f ∧ f < frames ∧ ((ofF32 n).add (ofIntVal (-f))).isZero then some f.toNat else none
  | _ => none

/-- What a box of a layer needs: the descriptors as the layer sees them (R254), the header, the box's frame, and the
coordinates of its points. -/
structure BoxJob where
  src    : DescUse
  out    : DescUse
  d      : Desc
  o      : Desc
  h      : List Byte
  frame  : Option Nat
  ys     : List Nat
  xs     : List Nat
deriving DecidableEq, Repr

/-- The box of an item: its index is that of the output's dimension 3 (R224, R230; log 7). -/
def State.boxJob (s : State) (c : Cmd) (l : Layer) (p : Plan) (cl item : Nat) : Option BoxJob :=
  let use (k : Nat) : Option DescUse := c.descs[p.tensors.getD k 0xFF]?
  match use 0, use 2, use 3, s.layerDesc? c l p 0, s.layerDesc? c l p 2, s.layerDesc? c l p 3 with
  | some us, some uo, some ub, some d, some o, some b =>
    let h := s.kindHeader c p
    let i := p.coord (s.originOf c l p item) 3
    let el (k : Nat) : Nat := s.elemRead c cl ub (b.elemOff k i 0 0) 8
    some
      { src := us, out := uo, d := d, o := o, h := h, frame := boxFrame (d.validAt 3) (el 0)
        ys := (List.range (field h 1 1)).map (boxCoord (field h 1 1) (field h 8 4) (el 1) (el 3))
        xs := (List.range (field h 2 1)).map (boxCoord (field h 2 1) (field h 0x0C 4) (el 2) (el 4)) }
  | _, _, _, _, _, _ => none

/-- The 16-byte blocks of the source that the points of a box read, each once, by offset (06, "Box sampling"). -/
def BoxJob.blocks (b : BoxJob) : List Nat :=
  match b.frame with
  | none => []
  | some f =>
    let px := (b.ys.flatMap (fun y => b.xs.flatMap (fun x =>
      boxTaps (field b.h 0 1 = 1) (b.d.validAt 2) (b.d.validAt 1) y x))).eraseDups
    let g := Nat.max 1 b.d.perGroup
    px.flatMap (fun p => (List.range (ceilDiv (b.d.allocAt 0) g)).map (fun j => b.d.blockOff (j * g) p.2 p.1 f / 2))

/-- The patch of a box is written to the layer's output (R224 to R229), source and output in the blocked layout. A box without
a frame takes EXTRAP, and the command BOX_INVALID. -/
def State.boxItem (s : State) (c : Cmd) (core : Nat) (b : BoxJob) (i : Nat) : State :=
  let cl := core / 40
  let sat := s.coreFld F.CORE_CFG.NARROW_SAT core = 1
  let s := b.blocks.foldl (fun s o => s.countRead b.src.range.1 (b.src.range.2.1 + o) 16) s
  let s := match b.frame, s.cmd? c.q c.seq with
    | none, some x => s.setCmd { x with cflags := Nat.lor x.cflags 4 }
    | _, _ => s
  (List.range b.ys.length).foldl
    (fun s yi => (List.range b.xs.length).foldl
      (fun s xi => (List.range (b.o.allocAt 0)).foldl
        (fun s ch =>
          let val := match b.frame with
            | none => field b.h 4 4
            | some f => boxPoint (field b.h 0 1 = 1) (field b.h 4 4) (b.d.validAt 2) (b.d.validAt 1)
                (b.ys.getD yi 0) (b.xs.getD xi 0) (fun yy xx =>
                  boxValue b.d.format (s.elemRead c cl b.src (b.d.blockOff ch xx yy f) (halfBytes b.d.format)))
          s.elemWrite c core b.out (b.o.blockOff ch xi yi i) (halfBytes b.o.format) (boxOut sat b.o.format val)) s) s) s

end Sys2Proof.Machine
end

