-- ==== Sys2Proof/Machine/Own.lean ====
section
/-! DEFINITION. Ownership of granules: GRANT, REVOKE and QUERY of the HBMC and PDIE pages, zeroing, and the effect of a
deferred REVOKE (08_memory.md, "Ownership and zeroing"; R310 to R313, R574). -/

namespace Sys2Proof.Machine

/-! ## The page of an ownership engine -/

/-- Class and instance of the page, and the code that numbers its granules. -/
def ownCls : OwnPage → Nat
  | .stack _ => 0x21
  | .slice _ => 0x20
def ownInst : OwnPage → Nat
  | .stack s => s.val
  | .slice p => p.val
def ownCode : OwnPage → Nat
  | .stack s => s.val
  | .slice p => 16 + p.val

/-- Granules of the page. -/
def ownCount : OwnPage → Nat
  | .stack _ => 32256
  | .slice _ => 1536

def ownKey (p : OwnPage) (g : Nat) : Nat := ownCode p * 65536 + g

/-- An ownership operation is done with a result; OWN_DONE is set when it completes and when it takes effect. -/
def State.ownInt (s : State) (p : OwnPage) : State :=
  match p with
  | .stack i => s.setInt F.HBMC_INT_STATUS.OWN_DONE i
  | .slice i => s.setInt F.PDIE_INT_STATUS.OWN_DONE i

def State.ownDone (s : State) (p : OwnPage) (result : Nat) : State :=
  let c := ownCls p
  let i := ownInst p
  ((s.setFld (F.OWN_STATUS.BUSY c) 0 i).setFld (F.OWN_STATUS.RESULT c) result i).ownInt p

/-- The registers OWN_FIRST, OWN_COUNT and OWN_CTX. -/
def State.ownFirst (s : State) (p : OwnPage) : Nat := s.fld (F.OWN_FIRST.GRANULE (ownCls p)) (ownInst p)
def State.ownN (s : State) (p : OwnPage) : Nat := s.fld (F.OWN_COUNT.N (ownCls p)) (ownInst p)
def State.ownCtx (s : State) (p : OwnPage) : Nat := s.fld (F.OWN_CTX.CONTEXT (ownCls p)) (ownInst p)

/-- Granules below the first one that software may own: the system area of a slice. -/
def State.ownLow (s : State) (p : OwnPage) : Nat :=
  match p with
  | .stack _ => 0
  | .slice i => s.fld F.PDIE_SYS.SIZE i

/-- A run of granules that leaves the page's store, is empty, or reaches a system area (BAD_RANGE). -/
def State.ownBad (s : State) (p : OwnPage) (n : Nat) : Bool :=
  n = 0 || decide (s.ownFirst p < s.ownLow p) || decide (ownCount p < s.ownFirst p + n)

/-- The keys of a run of granules. -/
def ownKeys (p : OwnPage) (first n : Nat) : List Nat := (List.range n).map (fun i => ownKey p (first + i))

/-- Granules given an owner, which is from then on their previous owner. -/
def State.own (s : State) (ks : List Nat) (ctx : Nat) : State :=
  ks.foldl (fun s k =>
    { s with
      mm.owners := put 0xFFFE s.mm.owners k ctx
      mm.prevOwners := if ctx = 0xFFFE then s.mm.prevOwners else put 0xFFFE s.mm.prevOwners k ctx }) s

/-- Granules that pass to nobody (R312, R425). -/
def State.disown (s : State) (ks : List Nat) : State :=
  ks.foldl (fun s k => { s with mm.owners := put 0xFFFE s.mm.owners k 0xFFFE }) s

/-! ## GRANT -/

/-- The granules of a grant that must be zeroed: owned before by another (R311); one that nobody has owned since
power-on is as the wipe left it (log 36). -/
def State.mustZero (s : State) (p : OwnPage) (first n ctx : Nat) : List Nat :=
  (List.range n).filterMap (fun i =>
    let o := look 0xFFFE s.mm.prevOwners (ownKey p (first + i))
    if o = 0xFFFE ∨ o = ctx then none else some (first + i))

/-- The device address of a granule of a stack. -/
def granuleAddr (stack g : Nat) : Nat := stack * 2 ^ 36 + g * 2 ^ 21

/-- GRANT. -/
def State.grant (s : State) (p : OwnPage) : State :=
  let n := s.ownN p
  let first := s.ownFirst p
  let ctx := s.ownCtx p
  if s.ownBad p n then s.ownDone p 1
  else if (ownKeys p first n).any (fun k => s.ownerOf k ≠ 0xFFFE) then s.ownDone p 2
  else if (s.mustZero p first n ctx).isEmpty then (s.own (ownKeys p first n) ctx).ownDone p 0
  else
    let s := match p with
      | .stack i => s.applyField F.HBMC_CFG.ZERO_SHARE i
      | .slice _ => s
    let s : State := { s with
      mm.granting := s.mm.granting ++ [{ page := ownCode p, first := first, count := n, ctx := ctx }] }
    (s.setFld (F.OWN_STATUS.BUSY (ownCls p)) 1 (ownInst p)).setFld (F.OWN_STATUS.ZEROING (ownCls p)) 1 (ownInst p)

/-- A write of OWN_GO.GO with an operation in OWN_OP.OP: ignored while BUSY; refused with a reserved operation (R574). -/
def State.ownGo (s : State) (p : OwnPage) (op : State → State) : State :=
  let c := ownCls p
  let i := ownInst p
  if s.fld (F.OWN_STATUS.BUSY c) i = 1 then s
  else if s.fld (F.OWN_OP.OP c) i = 0 then s.reject c i
  else op s

/-- A row of an operation acts when OWN_OP.OP holds its code. -/
def State.ownRow (s : State) (r : Requester) (p : OwnPage) (code : Nat) (op : State → State) : State :=
  if s.fld (F.OWN_OP.OP (ownCls p)) (ownInst p) = code then
    s.opWrite r (ownCls p) (ownInst p) 0x150 1 (fun s => s.ownGo p op)
  else s

def execGrant (r : Requester) (page : OwnPage) (s : State) : Host.Outcome State Fault Refusal :=
  .next (s.ownRow r page 1 (fun s => s.grant page))

/-! ## ZERO_DONE -/

/-- A granule zeroed: the lines of it that the host holds have been recalled. -/
def State.zeroGranule (s : State) (p : OwnPage) (g : Nat) : State :=
  match p with
  | .stack i => s.devZero (granuleAddr i g) (2 ^ 21)
  | .slice i =>
    let a := i.val * 2 ^ 27 + g * 65536
    ({ s with
        mm.shared := s.mm.shared.filter (fun c => decide (c.1 < a) || decide (a + 65536 ≤ c.1))
        mm.poisonShared := s.mm.poisonShared.filter (fun u => u / 1024 ≠ a / 65536) } : State).addSlot 0x20 i 1 65536

/-- The lines the host holds in the granules of a page. -/
def State.heldIn (s : State) (p : OwnPage) (gs : List Nat) : List Nat :=
  match p with
  | .stack i => (s.hl.filter.map (·.line)).filter (fun l => decide (l * 64 / 2 ^ 36 = i.val) && gs.contains (l * 64 % 2 ^ 36 / 2 ^ 21))
  | .slice _ => []

/-- The granules of a grant are all zero: the owner is written, and the operation completes (R311). A line of them that
the host holds is recalled first (R353). -/
def State.zeroDone (s : State) (p : OwnPage) : State :=
  match s.mm.granting.find? (fun g => g.page == ownCode p) with
  | none => s
  | some g =>
    let gs := s.mustZero p g.first g.count g.ctx
    if s.tm.power = .off then s
    else if !(s.heldIn p gs).isEmpty then (s.heldIn p gs).foldl (fun s l => s.recall l []) s
    else
      let s := gs.foldl (fun s x => s.zeroGranule p x) s
      let s : State := { s with mm.granting := s.mm.granting.erase g }
      let s := (s.own (ownKeys p g.first g.count) g.ctx).setFld (F.OWN_STATUS.ZEROING (ownCls p)) 0 (ownInst p)
      let s := match p with
        | .stack i => s.setInt F.HBMC_INT_STATUS.ZERO_DONE i
        | .slice _ => s
      s.ownDone p 0

def execZeroDone (page : OwnPage) (s : State) : Host.Outcome State Fault Refusal := .next (s.zeroDone page)

/-! ## REVOKE (R312) -/

/-- The granules that a command's tensors lie in: descriptors, stored versions, storage of new versions, its STAGE. -/
def State.namesGranules (s : State) (c : Cmd) : List Nat :=
  let us := if c.begun then c.descs else s.usesOf c.rec_
  let inHome (home a n : Nat) : List Nat := if home = 0 then devGranules a n else if home = 1 then sharedGranules a n else []
  us.flatMap (fun u =>
    let d := descOf u.img
    devGranules u.addr 64 ++ inHome u.range.1 u.range.2.1 u.range.2.2 ++
      (if u.out then inHome d.home d.addr d.storedLen else [])) ++
    (match c.kind with
     | .run => devGranules (recImage c.rec_ 0x10) 64
     | .open_ => devGranules (recImage c.rec_ 0x1C) 64
     | .reduce => (s.reduceRanges c).flatMap (fun r => devGranules r.1 r.2)
     | _ => [])

/-- Does an accepted and unpublished command name a tensor in a run of granules. -/
def State.inUse (s : State) (ks : List Nat) : Bool :=
  s.cq.cmds.any (fun c => (s.namesGranules c).any (fun k => ks.contains k))

/-- A REVOKE takes effect: the granules pass to nobody. -/
def State.revoke (s : State) (p : OwnPage) : State :=
  let n := s.ownN p
  let first := s.ownFirst p
  let ks := ownKeys p first n
  if s.ownBad p n then s.ownDone p 1
  else if ks.any (fun k => s.ownerOf k ≠ s.ownCtx p) then s.ownDone p 3
  else if s.inUse ks then
    let s : State := { s with
      mm.revokes := s.mm.revokes ++ [{ page := ownCode p, first := first, count := n, ctx := s.ownCtx p }] }
    (s.setFld (F.OWN_STATUS.DEFERRED (ownCls p)) 1 (ownInst p)).ownDone p 0
  else (s.disown ks).ownDone p 0

def execRevoke (r : Requester) (page : OwnPage) (s : State) : Host.Outcome State Fault Refusal :=
  .next (s.ownRow r page 2 (fun s => s.revoke page))

/-- The deferred REVOKE of a page whose granules no command names any more takes effect, those over the same granules
with it. -/
def State.revokeEffect (s : State) (p : OwnPage) : State :=
  let free (g : Granting) : Bool := g.page == ownCode p && !s.inUse (ownKeys p g.first g.count)
  match s.mm.revokes.filter free with
  | [] => s
  | gs =>
    let s := gs.foldl (fun s g => s.disown (ownKeys p g.first g.count)) s
    let rest := s.mm.revokes.filter (fun g => !gs.contains g)
    let s : State := { s with mm.revokes := rest }
    (s.setFld (F.OWN_STATUS.DEFERRED (ownCls p)) (b2n (rest.any (fun g => g.page == ownCode p))) (ownInst p)).ownInt p

def execRevokeEffect (page : OwnPage) (s : State) : Host.Outcome State Fault Refusal := .next (s.revokeEffect page)

/-! ## QUERY -/

/-- QUERY: the owner of granule OWN_FIRST is written to OWN_CTX. -/
def State.ownQuery (s : State) (p : OwnPage) : State :=
  if s.ownBad p 1 then s.ownDone p 1
  else (s.setFld (F.OWN_CTX.CONTEXT (ownCls p)) (s.ownerOf (ownKey p (s.ownFirst p))) (ownInst p)).ownDone p 0

def execQuery (r : Requester) (page : OwnPage) (s : State) : Host.Outcome State Fault Refusal :=
  .next (s.ownRow r page 3 (fun s => s.ownQuery page))

end Sys2Proof.Machine
end

