-- ==== Sys2Proof/Machine/Items.lean ====
section
/-! DEFINITION. An item of a layer: its level-0 steps, the configuration words they issue (R247, R255, R262, R263), and what
the pumps fetch and store for it as its words run (R211, R217, R233, R246, R256, R260, R272). -/

namespace Sys2Proof.Machine

/-! ## Steps -/

/-- What the kind header of an item walks (R244). -/
def State.itemHeader (s : State) (c : Cmd) (l : Layer) (p : Plan) (item : Nat) : Header :=
  { taps := if p.kind = 1 then convTaps (s.kindHeader c p) p else []
    pages := if p.kind = 2 then (s.itemPages c l p item).length else 0 }

/-- The header of an item that walks all the plan's reduction, for the count of its drains (R263): of attention as many pages
as the level-1 tile holds. -/
def State.wholeHeader (s : State) (c : Cmd) (p : Plan) : Header :=
  { taps := if p.kind = 1 then convTaps (s.kindHeader c p) p else []
    pages := if p.kind = 2 then
        (match (List.range p.ndim).find? (fun d => p.role d = 2) with | some d => p.trip d 1 | none => 1)
      else 0 }

/-- Does an item lie wholly beyond the valid extents: of attention and box sampling the item as one, else all its level-0
tiles (R255). -/
def State.itemSkipped (s : State) (c : Cmd) (l : Layer) (p : Plan) (item : Nat) : Bool :=
  let ext := s.layerExt c l p
  let o := s.originOf c l p item
  if p.kind = 2 ∨ p.kind = 5 then beyond o ext
  else ((p.walk (s.itemHeader c l p item) o).filter (fun w => !beyond w.origin ext)).isEmpty

/-- The steps of an item that are run, and how many are skipped for lying beyond the valid extents (R255). -/
def State.itemSteps (s : State) (c : Cmd) (l : Layer) (p : Plan) (item : Nat) : List Walk × Nat :=
  let ext := s.layerExt c l p
  let o := s.originOf c l p item
  let all := p.walk (s.itemHeader c l p item) o
  let run := if p.kind = 2 ∨ p.kind = 5 then (if beyond o ext then [] else all)
    else all.filter (fun w => !beyond w.origin ext)
  (run, all.length - run.length)

/-! ## Words -/

/-- Does an entry issue at step `i` of the steps run. -/
def entryIssues (ws : List Walk) (i : Nat) (w : Walk) (e : Entry16) : Bool :=
  match e.when_ with
  | 0 => true
  | 1 => !((ws.take i).any (fun x => x.acc = w.acc))
  | 2 => !((ws.drop (i + 1)).any (fun x => x.acc = w.acc))
  | 3 => i = 0
  | _ => i + 1 = ws.length

/-- The entries issued over an item: the step's index, the step, and the entry with its index in the body. -/
def Plan.issued (p : Plan) (ws : List Walk) : List (Nat × Walk × Nat × Entry16) :=
  (List.range ws.length).flatMap (fun i => match ws[i]? with
    | none => []
    | some w => (List.range p.body.length).filterMap (fun b => match p.body[b]? with
      | some e => if entryIssues ws i w e then some (i, w, b, e) else none
      | none => none))

/-- What names a drain among those of a whole item: its entry with its step, its accumulation, or neither. -/
def drainKey (x : Nat × Walk × Nat × Entry16) : Nat × List Nat :=
  let k := x.2.2.2.when_
  (x.2.2.1, if k = 0 then x.2.1.digits else if k = 1 ∨ k = 2 then x.2.1.acc else [])

def isDrain (e : Entry16) : Bool := wf e.word 63 60 = 3

/-- The drains of an item all of whose tiles lie within the extents, in order. -/
def Plan.drainOrder (p : Plan) (ws : List Walk) : List (Nat × List Nat) :=
  ((p.issued ws).filter (fun x => isDrain x.2.2.2)).map drainKey

/-- N_L of R263. -/
def State.drainsPerItem (s : State) (c : Cmd) (p : Plan) : Nat := (p.drainOrder (p.walk (s.wholeHeader c p) [])).length

/-- The drain ordinals of a layer: N_L for each item of the grid over its allocated extents (R263). -/
def State.layerTiles (s : State) (c : Cmd) (l : Layer) : Nat :=
  let p := s.layerPlan c l
  s.drainsPerItem c p * (p.jobsOver (s.layerAlloc c l p) * p.jobItems)

/-- B_L of R263. The layers of a STEP's earlier steps come before those of the step (R48). -/
def State.tileBase (s : State) (c : Cmd) (l : Layer) : Nat :=
  (c.layers.filter (fun x => decide (x.ord < l.ord))).foldl (fun n x => n + s.layerTiles c x) c.tileBase

/-- The drain ordinals of a step of a STEP command. -/
def State.stepTiles (s : State) (c : Cmd) : Nat := c.layers.foldl (fun n x => n + s.layerTiles c x) 0

/-- Gauges of a layer, and the first of them in the command's run. -/
def State.layerGauges (s : State) (c : Cmd) (p : Plan) : Nat := if p.kind = 1 then convGauges (s.kindHeader c p) else 0
def State.gaugeBase (s : State) (c : Cmd) (l : Layer) : Nat :=
  (c.gaugeRun.elim 0 (·.1)) +
    (c.layers.filter (fun x => decide (x.ord < l.ord))).foldl (fun n x => n + s.layerGauges c (s.layerPlan c x)) 0

/-- The gauge that an item's advances raise: one for each of the layer's stripes in item order (log 33). -/
def State.itemGauge (s : State) (c : Cmd) (l : Layer) (p : Plan) (item : Nat) : Nat :=
  s.gaugeBase c l + item % Nat.max 1 (s.layerGauges c p)

/-- The address that a word's own index stands for: of a WAIT, the gauge or counter in the command's run; of an ATOMIC,
the layer's atomic tensor (R232, R293). -/
def wordAt (c : Cmd) (p : Plan) (gauge : Nat) (w : CoreWord) : Nat :=
  match w with
  | .bits b =>
    if wf b 63 60 = 8 then
      (if wf b 59 59 = 1 then c.counterRun.elim 0 (·.1) + wf b 58 47 else c.gaugeRun.elim 0 (·.1) + wf b 58 47)
    else if wf b 63 60 = 5 ∧ wf b 59 58 = 2 then
      (match c.descs[p.tensors.getD 3 0xFF]? with
       | some u => u.range.2.1
       | none => 0)
    else gauge
  | _ => gauge

/-- An item as its core runs it: the command, layer, plan, header, steps, and how many items of the layer the core began
before it. -/
structure ItemRun where
  c    : Cmd
  l    : Layer
  p    : Plan
  item : Nat
  h    : Header
  ws   : List Walk
  ord  : Nat
deriving DecidableEq, Repr

def State.itemRunOf (s : State) (c : Cmd) (l : Layer) (p : Plan) (item ord : Nat) : ItemRun :=
  { c := c, l := l, p := p, item := item, h := s.itemHeader c l p item, ws := (s.itemSteps c l p item).1, ord := ord }

/-- The item that a core runs. -/
def State.itemRun (s : State) (core : Nat) : Option ItemRun :=
  match (s.core core).place with
  | none => none
  | some pl => match pl.item, s.cmd? pl.q pl.seq with
    | some item, some c =>
      (c.layers.find? (fun x => x.ord == pl.layer)).map (fun l => s.itemRunOf c l (s.layerPlan c l) item (pl.ord - 1))
    | _, _ => none

/-- Is a body entry the column mask of an S well: a GATE40W of one of the eight wells above those of O (R171, R175). -/
def Plan.isMask (p : Plan) (d : Nat) (e : Entry16) : Bool :=
  p.kind = 2 && match coreWordOf e.word with
    | .vec v => v.op = .gate40w && decide (d / 16 ≤ v.d % 32) && decide (v.d % 32 < d / 16 + 8)
    | _ => false

/-- The streams of a plan by number. -/
def Plan.streamsIdx (p : Plan) : List (Nat × Stream) := (List.range p.streams.length).zip p.streams

/-- The streams whose buffers a word's ranges touch. -/
def Plan.touched (p : Plan) (rs : List (Nat × Nat)) : List (Nat × Stream) :=
  p.streamsIdx.filter (fun t => overlap rs [(t.2.base, p.buffers t.1 t.2 * t.2.size)])

/-- The fills of input streams that a word reads, and those of output streams that it touches (R260). A WAIT, a YIELD and an
END touch none. -/
def ItemRun.fillsOf (r : ItemRun) (q : QWord) (w : Walk) : List (Nat × Nat) × List (Nat × Nat × Nat) :=
  if q.w.foot.bar then ([], [])
  else
    let f := q.foot
    let fill (t : Nat × Stream) : Nat := r.p.streamFill r.h t.1 t.2 w
    (((r.p.touched f.sr).filter (fun t => t.2.role = 0 || t.2.role = 1 || t.2.role = 3)).map (fun t => (t.1, fill t)),
      ((r.p.touched (f.sr ++ f.sw)).filter (fun t => t.2.role = 2)).map (fun t => (t.1, fill t, r.p.buffers t.1 t.2)))

/-- The page of an attention step. -/
def ItemRun.page (r : ItemRun) (pages : List KeyPage) (w : Walk) : Option KeyPage := pages[r.p.walked r.h w]?

/-- The words of an item, in issue order. A column mask is issued for a page with a masked key alone (R171); ITEM_LAST words
for the item that sums its REDUCE group (R242). A drain's TILE is its ordinal in the plan; another word is given the ordinal
after the last drain issued (log 20). -/
def State.itemWords (s : State) (r : ItemRun) : List QWord :=
  let p := r.p
  let whole := p.drainOrder (p.walk (s.wholeHeader r.c p) [])
  let base := s.tileBase r.c r.l + r.item * whole.length
  let gauge := s.itemGauge r.c r.l p r.item
  let kh := s.kindHeader r.c p
  let d := if p.kind = 2 then s.attnParam r.c p 2 else 0
  let pages := if p.kind = 2 then s.itemPages r.c r.l p r.item else []
  let k := r.item % Nat.max 1 p.jobItems
  let go (x : Nat × Walk × Nat × Entry16) : Bool :=
    !(x.2.2.2.when_ = 4 && !p.sums k) &&
      !(p.isMask d x.2.2.2 && match r.page pages x.2.1 with | some g => !g.masked | none => true)
  (((p.issued r.ws).filter go).foldl
    (fun (a : List QWord × Nat × Nat × Nat) x =>
      let e := x.2.2.2
      let first := !((r.ws.take x.1).any (fun y => y.acc = x.2.1.acc))
      let w := p.patchWord r.h e x.2.1 r.ord first
      let v := if w.advances then a.2.1 + 1 else a.2.1
      let j := if p.kind = 2 then a.2.2.2 else whole.findIdx (· == drainKey x)
      let q : QWord :=
        { w := w, tile := (base + if isDrain e then j else a.2.2.1) % 2 ^ 32
          at_ := wordAt r.c p gauge w, gval := v, item := some r.item, step := x.1
          rows := if p.kind = 1 ∧ wf e.word 63 60 = 1 then p.tapRows kh r.h r.ws x.2.1 r.ord else []
          tag := if wf e.word 63 60 = 4 ∨ wf e.word 63 60 = 6 ∨ wf e.word 63 60 = 7 then Config.wordTag e.word else none
          after := if e.when_ = 4 then p.mates k else 0 }
      let f := r.fillsOf q x.2.1
      let mask := if p.isMask d e then [(8 + x.2.2.1, p.walked r.h x.2.1)] else []
      (a.1 ++ [{ q with fill := f.1 ++ mask, outs := if p.kind = 2 ∨ p.kind = 5 then [] else f.2 }], v,
        (if isDrain e then j + 1 else a.2.2.1), if isDrain e then a.2.2.2 + 1 else a.2.2.2)) ([], 0, 0, 0)).1

/-- A word of the sequencer's own: the YIELD word at a mark (FIXED_LIVE, no store range; R262), and END. -/
def Plan.yieldWord (p : Plan) : QWord := { w := .bits (BitVec.ofNat 64 (14 * 2 ^ 60 + p.fixedLive * 2 ^ 36)) }
def endQWord : QWord := { w := .bits (BitVec.ofNat 64 (15 * 2 ^ 60)) }

/-- Jobs in a level-3 tile. -/
def Plan.jobsPerTile (p : Plan) : Nat := Nat.max 1 (((p.order 1).map (fun d => p.trip d 3)).foldl (· * ·) 1)

/-- Is the end of an item a yield mark (R262): of level 1 always, of level 2 at the end of its core's share of the job, of level
3 where that job is the last of its level-3 tile. -/
def Plan.markAfter (p : Plan) (job : Nat) (lastOfJob : Bool) : Bool :=
  match p.yieldLevel with
  | 1 => true
  | 2 => lastOfJob
  | 3 => lastOfJob && (job + 1) % p.jobsPerTile = 0
  | _ => false

/-- Is the start of an item a yield mark: of level 3, where its job begins another level-3 tile than the core's last, whose last
job ran elsewhere. -/
def Plan.markBefore (p : Plan) (last job : Nat) : Bool :=
  p.yieldLevel = 3 && last / p.jobsPerTile ≠ job / p.jobsPerTile && (last + 1) % p.jobsPerTile ≠ 0

/-- Words issued to a core, as far as its queue takes them: those in the queue are counted (R258, R275). -/
def State.issueWords (s : State) (core : Nat) (ws : List QWord) : State :=
  let k := s.core core
  let x : Core := { k with issue := k.issue ++ ws }
  let y := x.refill x.queue
  (s.setCore core y).addCnt C.SEQ_CNT_WORDS (x.issue.length - y.issue.length) (core / 40)

/-! ## Fetches -/

/-- The uncompressed bytes of a weight tensor, as the window holds them. -/
def State.windowBytesOf (s : State) (c : Cmd) (u : DescUse) : List Byte :=
  ((descOf u.img).expand (s.inputBytes c u)).getD []

/-- A read of HBM, in 256-byte units, queued for a core (R299). -/
def State.askUnits (s : State) (core a dest : Nat) (u8 : Bool) : (fuel : Nat) → (len : Nat) → State
  | 0, _ => s
  | fuel + 1, len =>
    if len = 0 then s
    else
      let n := Nat.min len (256 - a % 256)
      let st := a / 2 ^ 36 % 16
      let x := s.stack st
      let s := s.setStack st
        { x with reads := x.reads ++ [{ pc := pcOf a, addr := a, core := core, dest := dest, len := n, u8 := u8 }] }
      s.askUnits core (a + n) (dest + n) u8 fuel (len - n)

/-- Bytes put into a core store by a pump, those beyond its end left out. -/
def State.fillCore (s : State) (core dest : Nat) (data : List Byte) : State :=
  let k := s.core core
  let data := data.take (98304 - dest)
  (s.setCore core { k with store := wrBytes k.store dest data }).addSlot 0x11 (core / 40) 1 data.length

/-- Bytes of device memory fetched into a core store. -/
def State.fetchDev (s : State) (core a len dest : Nat) (u8 : Bool) : State :=
  let len := Nat.min len (98304 - dest)
  s.askUnits core a dest u8 (len + 1) len

/-- A contiguous piece of a tensor fetched into a core store. -/
def State.fetch (s : State) (c : Cmd) (core : Nat) (u : DescUse) (off len dest : Nat) (u8 : Bool) : State :=
  let r := u.range
  if r.1 = 0 then s.fetchDev core (r.2.1 + off) len dest u8
  else
    let data := s.tensorRead c (core / 40) u off len
    let data := if u8 then data.map (fun b => b - 128) else data
    let s := if r.1 = 1 then s.countRead 1 (r.2.1 + off) len
      else if r.1 = 2 then s.addSlot 0x11 (core / 40) 2 len else s
    s.fillCore core dest data

/-- The layer's weights come from the weight window: of a RUN its stationary slot, of a STEP the device range of the layer's
weights (R50, R320). -/
def Layer.weights (l : Layer) (p : Plan) (c : Cmd) (slot : Nat) : Bool :=
  l.windowBytes ≠ 0 && p.weightSlot (c.descs.map (·.out)) = some slot
def State.stepWeightAt (s : State) (c : Cmd) (l : Layer) (a : Nat) : Bool :=
  c.kind = .step && l.windowBytes ≠ 0 && decide ((s.stepWeights c l).1 ≤ a) &&
    decide (a < (s.stepWeights c l).1 + (s.stepWeights c l).2)

/-- The state block that a tile of a STEP reads: that of the branch at its outermost BATCH index (log 7). -/
def ItemRun.blockAddr (r : ItemRun) (s : State) (origin : List Nat) : Option Nat :=
  match (r.p.order 0).head? with
  | none => none
  | some d => match (s.layerBranches r.c r.l)[origin.getD d 0]? with
    | none => none
    | some k => ((s.wbranch r.c k).block).map s.sbAddr

/-- The device address of a piece that no descriptor names: its own, or in the state block of the tile's branch (log 7). -/
def ItemRun.devAddr (r : ItemRun) (s : State) (x : Config.Piece) (origin : List Nat) : Option Nat :=
  if x.slot = 0x100 then some x.off
  else if x.slot = 0x101 then (r.blockAddr s origin).map (· + x.off)
  else none

/-- A piece of a tile fetched (R260; log 7). -/
def State.fetchPiece (s : State) (r : ItemRun) (core base : Nat) (origin : List Nat) (x : Config.Piece) : State :=
  let at_ := (base + x.at_) % 98304
  match x.const, r.c.descs[x.slot]?, r.devAddr s x origin with
  | some b, _, _ => s.fillCore core at_ (List.replicate x.len b)
  | none, some u, _ =>
    if r.l.weights r.p r.c x.slot then
      (s.addSlot 0x20 (x.off / 4096 % 4) 0 x.len).fillCore core at_ (((s.windowBytesOf r.c u).drop x.off).take x.len)
    else s.fetch r.c core u x.off x.len at_ false
  | none, none, some a =>
    if s.stepWeightAt r.c r.l a then
      (s.addSlot 0x20 (a / 4096 % 4) 0 x.len).fillCore core at_ (s.devRead a x.len)
    else s.fetchDev core a x.len at_ false
  | none, none, none => s

/-- What names a tile among those of its layer: its element origin, and of a convolution its tap. -/
def Walk.tile (w : Walk) : List Nat :=
  w.origin ++ match w.tap with | some t => [t.half, t.kh, t.kw, t.j] | none => []

/-- The steps of a fill of stream `i` up to a step, one for each address the stream takes in it. -/
def ItemRun.tilesOf (r : ItemRun) (i : Nat) (st : Stream) (fill upto : Nat) : List Walk :=
  (r.p.sameFill r.h i st (r.ws.take (upto + 1)) fill).foldl
    (fun a w => if a.any (fun x => r.p.streamAddr r.h i st x r.ord = r.p.streamAddr r.h i st w r.ord) then a else a ++ [w]) []

/-- The packed image of a convolution (R210, R217): its blocks in order, with the core-store address of each. -/
def ItemRun.imageBlocks (r : ItemRun) (kh : List Byte) (d : Desc) (i : Nat) (st : Stream) (fill : Nat) :
    List (Nat × List Span) :=
  let k := packedOf kh r.p (r.p.sameFill r.h i st r.ws fill)
  let groups := field kh 8 2 / Nat.max 1 r.p.group
  let base := r.p.bufferAt i st fill r.ord
  k.frames.flatMap (fun n => k.rows.flatMap (fun y => (List.range groups).flatMap (fun j => k.cols.map (fun x =>
    (base + k.blockAt groups n y j x, convBlock kh d n y j x)))))

/-- The bytes of a block put into the core store span by span; U8 data are offset where the header says so (R219). -/
def State.fetchSpans (s : State) (c : Cmd) (core : Nat) (u : DescUse) (u8 : Bool) (dest : Nat) : List Span → State
  | [] => s
  | x :: r =>
    let s := if x.const = [] then s.fetch c core u x.off x.len dest u8 else s.fillCore core dest x.const
    s.fetchSpans c core u u8 (dest + if x.const = [] then x.len else x.const.length) r

/-- The mask tiles of an S well for a page: B holds 0 or minus infinity per column, F holds 1 (R171). -/
def State.fillMask (s : State) (r : ItemRun) (core b : Nat) (g : KeyPage) : State :=
  match r.p.body[b]?.map (fun e => coreWordOf e.word) with
  | some (.vec v) =>
    let well := (v.d % 32 - s.attnParam r.c r.p 2 / 16) % 4
    let row := (List.range 16).flatMap (fun j => toLE 4 (if g.vis.getD (16 * well + j) false then 0 else 0xFF800000))
    let tile (x : List Byte) : List Byte := (List.replicate 16 x).flatten
    (s.fillCore core (v.b * 32) (tile row)).fillCore core (v.a * 32) (tile ((List.range 16).flatMap (fun _ => toLE 4 0x3F800000)))
  | _ => s

/-- A page delivered to a core: the head's 64 key rows, then its 64 value rows, masked rows zero (R170). The job's first item
counts the fetch, which is made once for the job (R178). -/
def State.fillPage (s : State) (r : ItemRun) (core dest : Nat) (g : KeyPage) : State :=
  let job := r.item / Nat.max 1 r.p.jobItems
  let d := s.attnParam r.c r.p 2
  let w := kvWidth (s.attnParam r.c r.p 0)
  let h := r.p.headOf job
  let s := if r.item % Nat.max 1 r.p.jobItems = 0 then s.countRead 0 (s.headAddr g.page h d w false) (128 * d * w) else s
  s.fillCore core dest ((s.pageRows g h d w false ++ s.pageRows g h d w true).flatten)

/-- The ranges of device memory and of the slices that a fill reads at once or asks for, as home, address and length: a fill
of poisoned data is LOST_INPUT (R407). -/
def State.fillReads (s : State) (r : ItemRun) (i fill : Nat) : List (Nat × Nat × Nat) :=
  match r.p.streams[i]? with
  | none => []
  | some st =>
    if r.p.pageStream = some i then
      (match (s.itemPages r.c r.l r.p r.item)[fill]? with
       | some g =>
         let d := s.attnParam r.c r.p 2
         let w := kvWidth (s.attnParam r.c r.p 0)
         [(0, s.headAddr g.page (r.p.headOf (r.item / Nat.max 1 r.p.jobItems)) d w false, 128 * d * w)]
       | none => [])
    else (r.tilesOf i st fill r.ws.length).flatMap (fun w =>
      (Config.tilePieces (s.cmdImage r.c).desc (s.cmdImage r.c).version r.l.ord i w.tile).filterMap (fun x =>
        (r.c.descs[x.slot]?).map (fun u => (u.range.1, u.range.2.1 + x.off, x.len))))

/-- A fill of an input stream (R246, R260): a page of attention, the image of a convolution, or the pieces of its tiles; the
walker's mask tiles are numbered past the streams. -/
def State.issueFill (s : State) (r : ItemRun) (core i fill : Nat) : State :=
  if (s.fillReads r i fill).any (fun x => x.1 = 1 && s.homePoisoned 1 x.2.1 x.2.2) then s.lostInput r.c
  else if 8 ≤ i then
    (match (s.itemPages r.c r.l r.p r.item)[fill]? with | some g => s.fillMask r core (i - 8) g | none => s)
  else match r.p.streams[i]? with
    | none => s
    | some st =>
      let base (w : Walk) : Nat := r.p.streamAddr r.h i st w r.ord
      if r.p.pageStream = some i then
        (match (s.itemPages r.c r.l r.p r.item)[fill]? with
         | some g => if (s.fillReads r i fill).any (fun x => s.homePoisoned x.1 x.2.1 x.2.2) then s.lostInput r.c
           else s.fillPage r core (r.p.bufferAt i st fill r.ord) g
         | none => s)
      else match (if r.p.kind = 1 ∧ r.p.imageStream = some i then s.layerDesc? r.c r.l r.p 0 else none),
          r.c.descs[r.p.tensors.getD 0 0xFF]? with
        | some d, some u =>
          let kh := s.kindHeader r.c r.p
          let u8 := d.format = 12 && bit (field kh 6 1) 2
          (r.imageBlocks kh d i st fill).foldl (fun s x => s.fetchSpans r.c core u u8 x.1 x.2) s
        | _, _ =>
          (r.tilesOf i st fill r.ws.length).foldl
            (fun s w => (Config.tilePieces (s.cmdImage r.c).desc (s.cmdImage r.c).version r.l.ord i w.tile).foldl
              (fun s x => s.fetchPiece r core (base w) w.origin x) s) s

/-! ## Stores -/

/-- A piece of a tile stored from a core store (R222, R269, R272; log 7). -/
def State.storePiece (s : State) (r : ItemRun) (core base : Nat) (x : Config.Piece) : State :=
  let at_ := (base + x.at_) % 98304
  let data := rdBytes (s.core core).store at_ (Nat.min x.len (98304 - at_))
  let s := s.addSlot 0x11 (core / 40) 0 data.length
  match r.c.descs[x.slot]? with
  | some u => if u.out then s.itemWrite r.c core u x.off data else s
  | none =>
    if x.slot = 0x100 then
      (if s.coreFenced core then s.discardFenced (homeDie 0 x.off) (some (core / 40)) else s.homeWrite 0 x.off data)
    else s

/-- The distance of an output tile's rows in the core store: that of the DRAIN that fills the stream, else a row's bytes. -/
def Plan.outStride (p : Plan) (i : Nat) (d : Desc) : Nat :=
  match p.body.find? (fun e => wf e.word 63 60 = 3 && bit e.patch 2 && e.sa = i) with
  | some e => wf e.word 29 22 * 16
  | none => 8 * halfBytes d.format

/-- A fill of an output stream stored, its steps up to one: the tiles of a convolution whose accumulation ends there, or the
pieces of its tiles. -/
def State.storeFill (s : State) (r : ItemRun) (core i fill upto : Nat) : State :=
  match r.p.streams[i]? with
  | none => s
  | some st =>
    let base (w : Walk) : Nat := r.p.streamAddr r.h i st w r.ord
    match (if r.p.kind = 1 then s.layerDesc? r.c r.l r.p 2 else none), r.c.descs[r.p.tensors.getD 2 0xFF]? with
    | some d, some u =>
      let kh := s.kindHeader r.c r.p
      let ends := (List.range (Nat.min (upto + 1) r.ws.length)).filterMap (fun n => match r.ws[n]? with
        | some w => if (r.ws.drop (n + 1)).any (fun x => x.acc = w.acc) ∨ r.p.streamFill r.h i st w ≠ fill then none
          else some w
        | none => none)
      ends.foldl (fun s w => s.storeTile r.c core kh u d (base w) (r.p.outStride i d) (r.p.coord w.origin 0)
        (r.p.coord w.origin 1) (r.p.coord w.origin 2) (r.p.coord w.origin 3)) s
    | _, _ =>
      (r.tilesOf i st fill upto).foldl
        (fun s w => (Config.tileDrains (s.cmdImage r.c).desc (s.cmdImage r.c).version r.l.ord i w.tile).foldl
          (fun s x => s.storePiece r core (base w) x) s) s

/-- The last step of an item, or, where it has none, its first place in every loop. -/
def ItemRun.lastStep (r : ItemRun) (origin : List Nat) : Walk :=
  match r.ws.getLast? with
  | some w => w
  | none => let z := (r.p.loops r.h).map (fun _ => 0); { digits := z, index := z, origin := origin, acc := [] }

/-- What an item of attention or box sampling leaves when its words have run: the pair's result in the core store, from where
it is stored (R165, R172), or the box's patch (R224). -/
def State.finishItem (s : State) (r : ItemRun) (core : Nat) : State :=
  let w := r.lastStep (s.originOf r.c r.l r.p r.item)
  if r.p.kind = 2 then
    let s := s.attend r.c r.l r.p core r.item (fun e => r.p.patchWord r.h e w r.ord false)
    (r.p.streamsIdx.filter (fun t => t.2.role = 2)).foldl
      (fun s t => (Config.tileDrains (s.cmdImage r.c).desc (s.cmdImage r.c).version r.l.ord t.1 w.origin).foldl
        (fun s x => s.storePiece r core (r.p.streamAddr r.h t.1 t.2 w r.ord) x) s) s
  else if r.p.kind = 5 then
    (match s.boxJob r.c r.l r.p (core / 40) r.item with
     | some b => s.boxItem r.c core b (r.p.coord (s.originOf r.c r.l r.p r.item) 3)
     | none => s)
  else s

/-- The device ranges that a box's gather reads. -/
def State.boxReads (s : State) (r : ItemRun) (core : Nat) : List (Nat × Nat) :=
  if r.p.kind ≠ 5 then []
  else match s.boxJob r.c r.l r.p (core / 40) r.item with
    | some b => if b.src.range.1 ≤ 1 then b.blocks.map (fun o => (b.src.range.1, b.src.range.2.1 + o)) else []
    | none => []

/-! ## The pumps at work -/

/-- The words of its item that a core has still to run. -/
def Core.itemQueue (k : Core) (item : Nat) : List QWord := (k.queue ++ k.issue).filter (fun w => w.item = some item)

/-- May a fill be issued (R238, R260): the words that read the buffer's earlier fills have run, and no WAIT stands before the
first word that reads it. -/
def Core.mayFill (k : Core) (item buffers : Nat) (d : Nat × Nat) : Bool :=
  let l := k.itemQueue item
  k.waiting.isNone && !l.any (fun w => w.fill.any (fun g => g.1 == d.1 && decide (g.2 + buffers ≤ d.2))) &&
    !(l.takeWhile (fun w => !w.fill.contains d)).any (fun w => w.w.kind = 8)

/-- The buffers of a stream, or of a mask tile. -/
def ItemRun.buffersOf (r : ItemRun) (i : Nat) : Nat := match r.p.streams[i]? with | some st => r.p.buffers i st | none => 1

/-- A fill due is issued once it may be. -/
def State.pumpIn (s : State) (core : Nat) (d : Nat × Nat) : State :=
  match s.itemRun core, (s.core core).place with
  | some r, some pl =>
    if pl.due.contains d ∧ (s.core core).mayFill r.item (r.buffersOf d.1) d then
      (s.setCore core { s.core core with place := some { pl with due := pl.due.erase d } }).issueFill r core d.1 d.2
    else s
  | _, _ => s

/-- An output fill is stored once the words that touch it have run. -/
def State.pumpOut (s : State) (core : Nat) (d : Nat × Nat) : State :=
  match s.itemRun core, (s.core core).place with
  | some r, some pl =>
    if pl.outs.contains d ∧ !((s.core core).itemQueue r.item).any (fun w => w.outs.any (fun g => g.1 == d.1 && g.2.1 == d.2)) then
      (s.setCore core { s.core core with place := some { pl with outs := pl.outs.erase d } }).storeFill r core d.1 d.2
        r.ws.length
    else s
  | _, _ => s

/-- The pumps issue what may be issued for a core and store what is due; for one that saves they stand still. -/
def State.pump (s : State) (core : Nat) : State :=
  match (s.core core).place, (s.core core).saving with
  | none, _ => s
  | _, some _ => s
  | some pl, none =>
    let s := pl.outs.foldl (fun s d => s.pumpOut core d) s
    pl.due.foldl (fun s d => s.pumpIn core d) s

/-- Before an advance leaves, the rows it covers are stored: the due output tiles of the steps up to its own (R233). -/
def State.storeBefore (s : State) (core step : Nat) : State :=
  match s.itemRun core, (s.core core).place with
  | some r, some pl => pl.outs.foldl (fun s d => s.storeFill r core d.1 d.2 step) s
  | _, _ => s

/-- An item begins on a core: its words issue as the queue takes them, and the pumps begin its fills (R258, R260). -/
def State.beginItem (s : State) (r : ItemRun) (core job gen : Nat) : State :=
  match (s.core core).place with
  | none => s
  | some pl =>
    let ws := s.itemWords r
    let before := if pl.ord ≠ 0 ∧ r.p.markBefore pl.job job then [r.p.yieldWord] else []
    let outs := (ws.flatMap (fun w => w.outs.map (fun g => (g.1, g.2.1)))).eraseDups
    let k := { s.core core with place := some { pl with
      job := job, item := some r.item, gen := gen, ord := r.ord + 1
      due := (ws.flatMap (·.fill)).eraseDups, outs := outs } }
    let s := (s.setCore core k).issueWords core (before ++ ws)
    let s := s.addCnt C.SEQ_CNT_SKIPPED (s.itemSteps r.c r.l r.p r.item).2 (core / 40)
    s.pump core

end Sys2Proof.Machine
end

