-- ==== Sys2Proof/Machine/Tiling.lean ====
section
/-! DEFINITION. Work counters, claims, the dealing of items to cores, their completion, and faults of cores, clusters and
compute dies (07_tiling.md R258 to R274; R125 to R127, R135, R136, R234, R235, R260, R285). -/

namespace Sys2Proof.Machine

/-! ## Layers on cluster sequencers -/

def SeqLayer.is (l : SeqLayer) (q seq layer : Nat) : Bool := l.q == q && l.seq == seq && l.layer == layer

def State.seqLayer? (s : State) (cl q seq layer : Nat) : Option SeqLayer :=
  (s.cluster cl).layers.find? (fun l => l.is q seq layer)

def State.putSeqLayer (s : State) (cl : Nat) (l : SeqLayer) : State :=
  let x := s.cluster cl
  s.setCluster cl { x with layers := x.layers.map (fun m => if m.is l.q l.seq l.layer then l else m) }

/-- Is a core placed on a layer. -/
def Place.on (p : Place) (q seq layer : Nat) : Bool := p.q == q && p.seq == seq && p.layer == layer
def State.coreOn (s : State) (core q seq layer : Nat) : Bool :=
  match (s.core core).place with
  | some p => p.on q seq layer
  | none => false

/-- Has a core an END word it has not executed. -/
def Core.ending (k : Core) : Bool := (k.queue ++ k.issue).any (fun w => w.w.kind = 15)

/-- The positions of a layer whose cores are placed on it still. -/
def State.livePos (s : State) (l : SeqLayer) : List Nat :=
  (List.range l.cores.length).filter (fun i => match l.cores[i]? with
    | some c => s.coreOn c l.q l.seq l.layer
    | none => false)

/-- Those that may yet take an item: a core with its END, executed or not, takes none (R270). -/
def State.dealPos (s : State) (l : SeqLayer) : List Nat :=
  (s.livePos l).filter (fun i => match l.cores[i]? with
    | some c => !(s.core c).ended && !(s.core c).ending
    | none => false)

/-! ## Generations and fences (R266, R270 to R273) -/

/-- The highest generation a fence entry holds for an item. -/
def State.fenceGen (s : State) (counter job item : Nat) : Nat :=
  (s.tl.fences.filter (fun f => f.counter == counter && f.job == job && bit f.mask item)).foldl
    (fun n f => Nat.max n f.gen) 0

/-- The generation an item of a job runs under. -/
def State.itemGen (s : State) (l : SeqLayer) (j : Job) (k : Nat) : Nat := Nat.max j.gen (s.fenceGen l.counter j.job k)

/-- The items of a mask. -/
def itemsOf (mask : Nat) : List Nat := (List.range 64).filter (bit mask)
def maskOf (ks : List Nat) : Nat := ks.foldl (fun n k => if bit n k then n else n + 2 ^ k) 0

/-- A fence entry put into the table of the counter's port die; none where the table is full or the generation passes
255 (R273). -/
def State.addFence (s : State) (q seq counter job mask gen : Nat) (reclaim : Bool) : Option State :=
  let p := counter / 256
  if 512 ≤ (s.tl.fences.filter (fun f => f.pdie == p)).length ∨ 255 < gen then none
  else
    let f : Fence := { pdie := p, q := q, seq := seq, counter := counter, job := job, mask := mask, gen := gen, reclaim := reclaim }
    let x := s.counter counter
    let s : State := { s with tl.fences := s.tl.fences ++ [f] }
    some (if reclaim then s.setCounter counter { x with rq := x.rq + 1 } else s)

/-- The gauges of the items of a job take the new generation (R235). -/
def State.raiseGauges (s : State) (l : SeqLayer) (job gen : Nat) (ks : List Nat) : State :=
  match s.cmd? l.q l.seq with
  | none => s
  | some c => match c.layers.find? (fun x => x.ord == l.layer) with
    | none => s
    | some x =>
      let p := s.layerPlan c x
      if s.layerGauges c p = 0 then s
      else ks.foldl (fun s k =>
        let g := s.itemGauge c x p (job * p.jobItems + k)
        { s with tl.gauges := put {} s.tl.gauges g { s.gauge g with gen := gen } }) s

/-- The command is executed again whole (R271, R273). -/
def State.rerun (s : State) (q seq : Nat) : State :=
  match s.cmd? q seq with
  | some c => (s.discard c).settle c.ctx
  | none => s

/-- A job's incomplete items become a reclaim entry under the next generation (R271). -/
def State.reclaim (s : State) (l : SeqLayer) (j : Job) : State :=
  let ks := (itemsOf j.mask).filter (fun k => !bit j.done k)
  let gen := 1 + ks.foldl (fun n k => Nat.max n (s.itemGen l j k)) j.gen
  if ks.isEmpty then s
  else match s.addFence l.q l.seq l.counter j.job (maskOf ks) gen true with
    | none => s.rerun l.q l.seq
    | some s => s.raiseGauges l j.job gen ks

/-! ## Items on cores -/

/-- An item begins on a core (R241, R258, R260). -/
def State.startItem (s : State) (c : Cmd) (l : Layer) (p : Plan) (sl : SeqLayer) (j : Job) (core k : Nat) : State :=
  match (s.core core).place with
  | none => s
  | some pl => s.beginItem (s.itemRunOf c l p (j.job * p.jobItems + k) pl.ord) core j.job (s.itemGen sl j k)

/-! ## Dealing (R241, R255, R270) -/

/-- May a core take an item: placed on the layer, without one, whole, not under test, and not at its end nor before an END
word it has been given (R261, R270). -/
def State.coreIdle (s : State) (core : Nat) : Bool :=
  let k := s.core core
  (match k.place with | some p => p.item.isNone | none => false) && !k.out && !k.ended && k.saving.isNone &&
    k.waiting.isNone && !k.ending && s.coreFld F.CORE_STATUS.TESTING core = 0

/-- The next item of a position: a re-dealt one first. -/
def dealFor (deal : List (Nat × Option Nat)) (pos : Nat) : Option (Nat × Option Nat) :=
  match deal.find? (fun d => d.2.isNone) with
  | some d => some d
  | none => deal.find? (fun d => d.2 = some pos)

/-- The words that end a core's share of a layer: END, and before it a YIELD in the last layer of a step of a STEP, whose
boundary is a mark (R71, R262). -/
def endWords (c : Cmd) (l : Layer) (p : Plan) : List QWord :=
  (if c.kind = .step ∧ c.layers.all (fun x => decide (x.ord ≤ l.ord)) then [p.yieldWord] else []) ++ [endQWord]

/-- Items dealt to the idle cores of a layer in ascending position; a core with no share left gets its END once the layer
is exhausted here (R261). -/
def State.dealItems (s : State) (c : Cmd) (l : Layer) (p : Plan) (cl : Nat) : State :=
  match s.seqLayer? cl c.q c.seq l.ord with
  | none => s
  | some sl0 =>
    (s.livePos sl0).foldl
      (fun s pos => match s.seqLayer? cl c.q c.seq l.ord, (s.cmd? c.q c.seq) with
        | some sl, some c =>
          (match sl.cores[pos]? with
           | none => s
           | some core =>
             if !s.coreIdle core then s
             else match sl.job, dealFor sl.deal pos with
               | some j, some d =>
                 (s.putSeqLayer cl { sl with deal := sl.deal.erase d }).startItem c l p sl j core d.1
               | _, _ =>
                 if sl.exhausted ∧ sl.ahead = [] ∧ !(sl.deal.any (fun d => d.2.isNone)) ∧
                     !(s.core core).ending then s.issueWords core (endWords c l p)
                 else s)
        | _, _ => s) s

/-- The items of a job: those skipped in full are complete at once (R255), the others are dealt over the positions. -/
def State.beginJob (s : State) (c : Cmd) (l : Layer) (p : Plan) (cl : Nat) (sl : SeqLayer) (j : Job) (rest : List Job) :
    State :=
  let live := s.dealPos sl
  let ks := itemsOf j.mask
  let skipped := ks.filter (fun k => s.itemSkipped c l p (j.job * p.jobItems + k))
  let run := ks.filter (fun k => !skipped.contains k)
  let deal := run.map (fun k => (k, live[k % Nat.max 1 live.length]?))
  let ts := skipped.map (fun k =>
    ({ q := sl.q, seq := sl.seq, cl := cl, counter := sl.counter, job := j.job, item := k, gen := s.itemGen sl j k } : Traffic))
  let n := skipped.foldl (fun n k => n + (s.itemSteps c l p (j.job * p.jobItems + k)).2) 0
  let s := s.putSeqLayer cl
    { sl with job := some { j with done := maskOf skipped }, ahead := rest, deal := deal }
  ({ s with tl.traffic := s.tl.traffic ++ ts } : State).addCnt C.SEQ_CNT_SKIPPED n cl

/-- A layer on a cluster goes on: its jobs in claim order, each when the one before is complete (R241). -/
def State.goOn (s : State) (cl q seq layer : Nat) : (fuel : Nat) → State
  | 0 => s
  | fuel + 1 =>
    match s.seqLayer? cl q seq layer, s.cmd? q seq with
    | some sl, some c =>
      (match c.layers.find? (fun x => x.ord == layer) with
       | none => s
       | some l =>
         let p := s.layerPlan c l
         if !sl.dispatched ∨ (l.windowBytes ≠ 0 ∧ !l.windowReady) then s
         else match sl.job, sl.ahead with
           | none, [] => s.dealItems c l p cl
           | none, j :: rest => (s.beginJob c l p cl sl j rest).goOn cl q seq layer fuel
           | some j, _ =>
             if (itemsOf j.mask).all (bit j.done) then
               (s.putSeqLayer cl { sl with job := none, deal := [] }).goOn cl q seq layer fuel
             else s.dealItems c l p cl)
    | _, _ => s

def State.goOnHere (s : State) (cl q seq layer : Nat) : State := s.goOn cl q seq layer 64

/-! ## CLAIM (R266 to R268) -/

/-- May the sequencer claim for a layer: its running job, and CLAIM_AHEAD more. -/
def State.mayClaim (s : State) (cl : Nat) (l : SeqLayer) : Bool :=
  !l.exhausted && ((l.job.isNone && l.ahead.isEmpty) || decide (l.ahead.length < s.fld F.SEQ_CFG.CLAIM_AHEAD cl))

/-- A job claimed: counted and traced. -/
def State.gotJob (s : State) (cl : Nat) (l : SeqLayer) (j : Job) (reclaimed : Bool) : State :=
  let s := s.putSeqLayer cl { l with ahead := l.ahead ++ [j] }
  let s := s.addCnt C.SEQ_CNT_JOBS 1 cl
  let s := if reclaimed then s.addCnt C.SEQ_CNT_RECLAIMED 1 cl else s
  let ctx := match s.cmd? l.q l.seq with | some c => c.ctx | none => 0xFFFF
  let s := s.trace
    { type := 5, source := cl, ctx := ctx, q := l.q, seq := l.seq, arg0 := j.job
      arg1 := j.gen + l.counter * 256 + cl * 2 ^ 18 }
  s.goOnHere cl l.q l.seq l.layer

/-- The unclaimed reclaim entry of a counter that is the oldest becomes a fence alone. -/
def claimFence (f : Fence) (l : List Fence) : List Fence := l.map (fun x => if x = f then { f with reclaim := false } else x)

def State.claim (s : State) (cl counter : Nat) : State :=
  if s.runs cl then
    match (s.cluster cl).layers.find? (fun l => l.counter == counter && s.mayClaim cl l) with
    | none => s
    | some l =>
      let x := s.counter counter
      match s.tl.fences.find? (fun f => f.counter == counter && f.reclaim) with
      | some f =>
        let s : State := { s with tl.fences := claimFence f s.tl.fences }
        (s.setCounter counter { x with rq := x.rq - 1 }).gotJob cl l { job := f.job, mask := f.mask, gen := f.gen } true
      | none =>
        if x.next < x.limit then
          (s.setCounter counter { x with next := x.next + 1 }).gotJob cl l
            { job := x.next, mask := 2 ^ (x.items + 1) - 1, gen := 0 } false
        else (s.putSeqLayer cl { l with exhausted := true }).goOnHere cl l.q l.seq l.layer
  else s

def execClaim (cl : Fin 256) (counter : Fin 1024) (s : State) : Host.Outcome State Fault Refusal :=
  .next (s.claim cl counter)

/-! ## DISPATCH_MESSAGE (R135, R136, R259, R541) -/

/-- The tables of a set loaded into a core. -/
def State.tablesOf (s : State) (im : ImageRef) (p : Plan) : List (List Byte) :=
  (List.range 8).map (fun i => match tableAt im p i with
    | some a => s.devRead a 256
    | none => [])

/-- The set of a layer's tables as R135 tells it from another: its image and its offset there. -/
def tableSetOf (im : ImageRef) (p : Plan) : Nat × Nat × Nat := (im.desc, im.version, p.tableOff)

/-- A core begins a layer: with a command new to it its held fields take effect (R538, R541); CMD_SEED is latched, and a layer
with tables has its set loaded, unless the core holds that set (R135), and ELT_COMPAT written (R136). -/
def State.coreBoundary (s : State) (c : Cmd) (p : Plan) (core : Nat) : State :=
  let s := if (s.core core).lastCmd = some (c.q, c.seq) then s
    else (s.applyField (F.CORE_CFG.W40_SAT.core (core % 40)) (core / 40)).applyField
      (F.CORE_CFG.NARROW_SAT.core (core % 40)) (core / 40)
  let im := s.cmdImage c
  let k : Core := { s.core core with cmdSeed := recSeed c.rec_, lastCmd := some (c.q, c.seq) }
  if p.tables then
    let k := if k.tableSet = some (tableSetOf im p) then k
      else { k with tables := s.tablesOf im p, tableSet := some (tableSetOf im p) }
    (s.setCore core k).setCoreFld F.CORE_CFG.ELT_COMPAT core
      (b2n (Config.tableCompat im.desc im.version p.tableOff))
  else s.setCore core k

/-- Does the sequencer of a cluster serve a command already: another layer of it is dispatched there (R538). -/
def State.serves (s : State) (cl q seq layer : Nat) : Bool :=
  (s.cluster cl).layers.any (fun m => m.q == q && m.seq == seq && m.layer != layer && m.dispatched)

/-- A dispatch message reaches a cluster's sequencer: with a command new to it CLAIM_AHEAD takes effect (R275, R538). -/
def State.dispatchMessage (s : State) (cl q seq layer : Nat) : State :=
  match s.seqLayer? cl q seq layer, s.cmd? q seq with
  | some sl, some c =>
    if sl.dispatched ∨ !s.runs cl ∨ s.tm.now < (s.clk cl).awake then s
    else match c.layers.find? (fun x => x.ord == layer) with
      | none => s
      | some l =>
        let p := s.layerPlan c l
        let s := if s.serves cl q seq layer then s else s.applyField F.SEQ_CFG.CLAIM_AHEAD cl
        let s := sl.cores.foldl (fun s core => s.coreBoundary c p core) s
        (s.putSeqLayer cl { sl with dispatched := true }).goOnHere cl q seq layer
  | _, _ => s

def execDispatchMessage (cl : Fin 256) (q : Fin 4096) (seq : W32) (layer : Nat) (s : State) :
    Host.Outcome State Fault Refusal := .next (s.dispatchMessage cl q seq.toNat layer)

/-! ## ITEM_COMPLETE, DONE_INCREMENT, GAUGE_ADVANCE -/

/-- Have the words, fills and fetches of a core's item all ended. -/
def State.itemDone (s : State) (core item : Nat) : Bool :=
  let k := s.core core
  s.coreRuns core && (k.itemQueue item).isEmpty && (match k.place with | some p => p.due.isEmpty | none => true)

/-- What an item leaves is in its homes: its increment leaves, its completion is traced, and its core is free for its next
(R262, R269). -/
def State.itemLeaves (s : State) (r : ItemRun) (pl : Place) (sl : SeqLayer) (core : Nat) : State :=
  let cl := core / 40
  let k := r.item % Nat.max 1 r.p.jobItems
  let t : Traffic :=
    { q := pl.q, seq := pl.seq, cl := cl, counter := pl.counter, job := pl.job, item := k, gen := pl.gen }
  let s : State := { s with tl.traffic := s.tl.traffic ++ [t] }
  let s := s.trace { type := 6, source := cl, ctx := r.c.ctx, q := r.c.q, seq := r.c.seq, arg0 := r.item, arg1 := core }
  let s := match sl.job with
    | some j => s.putSeqLayer cl { sl with job := some { j with done := Nat.lor j.done (2 ^ k) } }
    | none => s
  let last := !(sl.deal.any (fun d => d.2 = sl.cores.findIdx? (· == core) || d.2.isNone))
  let s := s.setCore core { s.core core with place := some { pl with item := none, due := [], outs := [] } }
  let s := if r.p.markAfter pl.job last then s.issueWords core [r.p.yieldWord] else s
  s.goOnHere cl pl.q pl.seq pl.layer

/-- An item completes: what it makes is written to its home, with the keys and values it appends. Of what a box gathers, lines
that the host holds modified are recalled first (R353), and poisoned data end the command (R407). -/
def State.itemComplete (s : State) (core : Nat) : State :=
  let cl := core / 40
  match s.itemRun core, (s.core core).place with
  | some r, some pl => match s.seqLayer? cl pl.q pl.seq pl.layer with
    | some sl =>
      if !s.itemDone core r.item then s
      else
        let rs := s.boxReads r core
        if rs.any (fun x => s.homePoisoned x.1 x.2 16) then s.lostInput r.c
        else if rs.any (fun x => !s.homeReadable x.1 x.2 16) then
          rs.foldl (fun s x => if x.1 = 0 then s.askLines x.2 16 else s) s
        else ((s.finishItem r core).putKvs r.c r.l r.p core r.item).itemLeaves r pl sl core
    | none => s
  | _, _ => s

def execItemComplete (core : Fin 10240) (s : State) : Host.Outcome State Fault Refusal := .next (s.itemComplete core)

/-- Is a traffic unit fenced (R272). -/
def State.stale (s : State) (t : Traffic) : Bool := s.fenced t.counter t.job t.item t.gen

/-- Has a layer ended: every item done, and no core, saved core or sequencer at work on it. -/
def State.layerOver (s : State) (c : Cmd) (l : Layer) : Bool :=
  let n := c.counterRun.elim 0 (·.1) + l.counter
  let x := s.counter n
  l.started && decide (x.limit * (x.items + 1) ≤ x.done) && !s.tl.cores.any (fun k => match k.2.place with
      | some p => p.on c.q c.seq l.ord
      | none => false) &&
    s.tl.clusters.all (fun e => e.2.layers.all (fun m => !m.is c.q c.seq l.ord)) &&
    s.sc.ctxs.all (fun e => e.2.saved.all (fun r => !(r.q == c.q && r.seq == c.seq && r.layer == l.ord)) &&
      e.2.clRecs.all (fun r => r.2.layers.all (fun m => !m.is c.q c.seq l.ord)))

/-- The next weight-reading layer of a command asks for its image when one ends (R320). -/
def State.requestNext (s : State) (c : Cmd) : State :=
  match c.layers.find? (fun l => l.windowBytes ≠ 0 && !l.ended && !l.windowReady &&
      !s.mm.window.any (fun w => w.q == c.q && w.seq == c.seq && w.layer == l.ord)) with
  | some l => s.requestWindow c l
  | none => s

/-- A command whose layers have all ended: a RUN's outputs are complete; a STEP waits for its STEP_CLOSE. -/
def State.layersEnd (s : State) (q seq : Nat) : State :=
  match s.cmd? q seq with
  | none => s
  | some c =>
    if c.stage ≠ .running then s
    else
      let gone := (c.layers.filter (fun l => !l.ended && s.layerOver c l)).map (·.ord)
      let c' := { c with layers := c.layers.map (fun l => if gone.contains l.ord then { l with ended := true } else l) }
      let s := s.setCmd c'
      let s := (c.layers.filter (fun l => gone.contains l.ord && l.windowBytes ≠ 0)).foldl (fun s _ => s.requestNext c') s
      if c'.kind = .run ∧ c'.layers.all (·.ended) then s.outputsDone c' else s.settle c'.ctx

/-- A DONE increment reaches its counter, or is fenced; with the last item the layer's window image is released (R272,
R321). -/
def State.doneIncrement (s : State) (cl counter job item gen : Nat) : State :=
  match s.tl.traffic.find? (fun t => t.gauge.isNone && t.cl == cl && t.counter == counter && t.job == job &&
      t.item == item && t.gen == gen) with
  | none => s
  | some t =>
    if !s.runs (272 + counter / 256) then s
    else
      let s : State := { s with tl.traffic := s.tl.traffic.erase t }
      if s.stale t then s.discardFenced (counter / 256) (some cl)
      else
        let x := s.counter counter
        let x := { x with done := x.done + 1 }
        let s := s.setCounter counter x
        let s : State := if x.done = x.limit * (x.items + 1) then
            (match s.cmd? t.q t.seq with
             | some c =>
               let ls := (c.layers.filter (fun l => l.started && !l.ended &&
                 c.counterRun.elim 0 (·.1) + l.counter = counter)).map (·.ord)
               { s with mm.window := s.mm.window.filter (fun w => !(w.q == t.q && w.seq == t.seq && ls.contains w.layer)) }
             | none => s)
          else s
        s.layersEnd t.q t.seq

def execDoneIncrement (cl : Fin 256) (counter : Fin 1024) (job item gen : Nat) (s : State) :
    Host.Outcome State Fault Refusal := .next (s.doneIncrement cl counter job item gen)

/-- A gauge advance reaches its gauge (R234, R272). -/
def State.gaugeAdvance (s : State) (gauge value gen counter job item : Nat) : State :=
  match s.tl.traffic.find? (fun t => t.gauge = some (gauge, value) && t.counter == counter && t.job == job &&
      t.item == item && t.gen == gen) with
  | none => s
  | some t =>
    if !s.runs (272 + gauge / 16384) then s
    else
      let s : State := { s with tl.traffic := s.tl.traffic.erase t }
      let g := s.gauge gauge
      if s.stale t then s.discardFenced (gauge / 16384) (some t.cl)
      else if gen < g.gen then s
      else { s with tl.gauges := put {} s.tl.gauges gauge { value := Nat.max g.value value, gen := gen } }

def execGaugeAdvance (gauge : Fin 65536) (value : BitVec 24) (gen : Byte) (counter : Fin 1024) (job item : Nat)
    (s : State) : Host.Outcome State Fault Refusal :=
  .next (s.gaugeAdvance gauge value.toNat gen.toNat counter job item)

/-! ## CORE_FAULT and self-test (R125 to R127, R270) -/

/-- A core executes words: it has an item, or words in its queue. -/
def State.coreBusy (s : State) (core : Nat) : Bool :=
  let k := s.core core
  k.queue ≠ [] || (match k.place with | some p => p.item.isSome | none => false)

/-- The incomplete items of a core: the one it runs, and those dealt to its position. -/
def heldItems (sl : SeqLayer) (core : Nat) (pl : Place) (n : Nat) : List Nat :=
  (match pl.item with | some i => [i % Nat.max 1 n] | none => []) ++
    (sl.deal.filter (fun d => d.2 = sl.cores.findIdx? (· == core))).map (·.1)

/-- The jobs a cluster holds of a layer go back to their counter; the layer leaves the sequencer where no core of it is left
here (R271). -/
def State.giveBack (s : State) (cl : Nat) (sl : SeqLayer) : State :=
  let s' := (sl.job.toList ++ sl.ahead).foldl (fun s x => s.reclaim sl x) s
  if (s.livePos sl).isEmpty then
    let x := s'.cluster cl
    s'.setCluster cl { x with layers := x.layers.filter (fun m => !m.is sl.q sl.seq sl.layer) }
  else s'.putSeqLayer cl { sl with job := none, ahead := [], deal := [] }

/-- The items of a core that leaves its layer are dealt again under the next generation; with no core of the layer left
here they are put on the counter (R270, R271). With `keep` the core is whole and stays placed (R285). -/
def State.redeal (s : State) (core : Nat) (keep : Bool) : State :=
  let cl := core / 40
  match (s.core core).place with
  | none => s
  | some pl =>
    let s1 := if keep then s.setCore core { (s.core core).freed with
        place := some { pl with item := none, due := [], outs := [] } }
      else s.freeCore core
    match s.seqLayer? cl pl.q pl.seq pl.layer with
    | none => s1
    | some sl =>
      match sl.job with
      | none => if (s1.dealPos sl).isEmpty then s1.giveBack cl sl else s1
      | some j =>
        let n := (s.counter pl.counter).items + 1
        let ks := heldItems sl core pl n
        let gen := 1 + ks.foldl (fun g k => Nat.max g (s.itemGen sl j k)) j.gen
        if ks.isEmpty then (if (s1.dealPos sl).isEmpty then s1.giveBack cl sl else s1)
        else if (s1.dealPos sl).isEmpty then s1.giveBack cl sl
        else match s1.addFence pl.q pl.seq pl.counter j.job (maskOf ks) gen false with
          | none => s1.rerun pl.q pl.seq
          | some s2 =>
            let deal := sl.deal.filter (fun d => !ks.contains d.1) ++ ks.map (fun k => (k, none))
            ((s2.putSeqLayer cl { sl with deal := deal }).raiseGauges sl j.job gen ks).goOnHere cl pl.q pl.seq pl.layer

/-- The reads outstanding for a core are dropped. -/
def State.dropReads (s : State) (core : Nat) : State :=
  { s with mm.hbm := s.mm.hbm.map (fun e => (e.1, { e.2 with reads := e.2.reads.filter (fun r => r.core ≠ core) })) }

/-- The items that read an image of the weight window are dealt again: those running of its layer (R579). -/
def State.redealReaders (s : State) (w : WinReq) : State :=
  (s.coresOf w.q w.seq).foldl
    (fun s k => match (s.core k).place with
      | some p => if p.layer = w.layer ∧ p.item.isSome then (s.dropReads k).redeal k true else s
      | none => s) s

/-- A core reports a fault cause: its word stops, the cause is recorded, and its items are dealt again; firmware's self-test
of it begins (R125, R126). -/
def State.coreFault (s : State) (core cause well : Nat) : State :=
  let cl := core / 40
  if cause = 0 ∨ !s.runs cl ∨ (s.core core).out ∨ (s.cluster cl).removed then s
  else
    let pl := (s.core core).place
    let ctx := match s.coreCtx core with | some x => x | none => 0xFFFF
    let s := (s.setCoreFld F.CORE_FAULT.CAUSE core cause).setCoreFld F.CORE_FAULT.WELL core (if cause = 2 then well else 0)
    let s := s.raise (0x1100 + cause) 2 cl (core % 40) ctx (pl.elim 0xFFFF (·.q)) (pl.elim 0 (·.seq))
    let s := ((s.setCore core { s.core core with out := true }).dropReads core).redeal core false
    let s := (s.setCoreFld F.CORE_STATUS.TESTING core 1).setCoreFld F.CORE_TEST.DONE core 0
    match pl with
    | some p => s.layersEnd p.q p.seq
    | none => s

def execCoreFault (core : Fin 10240) (cause : Fin 7) (well : Fin 24) (s : State) : Host.Outcome State Fault Refusal :=
  .next (s.coreFault core cause well)

/-- A write of CORE_TEST.START: the test starts on an idle core, one that is not BUSY, with PLACE 0. A core whose self-test
runs already is not idle to the model, which refuses the START (DESIGN CHOICE: R127 names only idle and PLACE; log 108). -/
def State.coreTest (s : State) (core : Nat) : State :=
  if s.coreBusy core ∨ s.coreFld F.CORE_CFG.PLACE core = 1 ∨ s.coreFld F.CORE_STATUS.TESTING core = 1 then
    s.reject 0x11 (core / 40)
  else (s.setCoreFld F.CORE_STATUS.TESTING core 1).setCoreFld F.CORE_TEST.DONE core 0

def execCoreTestStart (r : Requester) (core : Fin 10240) (s : State) : Host.Outcome State Fault Refusal :=
  .next (s.opWrite r 0x11 (core.val / 40) (0x408 + 64 * (core.val % 40)) 1 (fun s => s.coreTest core))

/-- Does a reset run the self-test of a cluster's cores: from 2.47 µs of a warm or recovery reset, from 0.57 µs of a
per-cluster reset (R462, R463); and stage 0x9 of a start (R468). -/
def State.resetTests (s : State) (cl : Nat) : Bool :=
  (s.tm.power = .starting && s.fld F.BOOT_STATUS.STAGE = 9) ||
  (match s.rs.run with | some x => decide (x.at_ + 2470 ≤ s.tm.now) | none => false) ||
    s.rs.clusters.any (fun c => c.1 == cl && decide (c.2 + 570 ≤ s.tm.now))

/-- A self-test ends: one that CORE_TEST started, firmware's after a fault, or a reset's. A pass returns the core to
placement; a failure is fault cause 0x05, and the core is OFFLINE (R125, R126). -/
def State.selfTestDone (s : State) (core : Nat) (pass : Bool) (unit : Nat) : State :=
  if s.coreFld F.CORE_STATUS.TESTING core = 0 ∧ !((s.core core).out && s.coreFld F.CORE_STATUS.OFFLINE core = 0) ∧
      !s.resetTests (core / 40) then s
  else
    let s := ((s.setCoreFld F.CORE_STATUS.TESTING core 0).setCoreFld F.CORE_TEST.DONE core 1).setCoreFld
      F.CORE_TEST.PASS core (b2n pass)
    let s := s.setCoreFld F.CORE_TEST.FAIL_UNIT core (if pass then 0 else unit)
    if pass then s.setCore core { s.core core with out := false }
    else
      let s := s.setCore core { s.core core with out := true }
      let s := (s.setCoreFld F.CORE_FAULT.CAUSE core 5).setCoreFld F.CORE_FAULT.WELL core 0
      ((s.setCoreFld F.CORE_STATUS.OFFLINE core 1).raise 0x1105 2 (core / 40) (core % 40)).raise 0x1111 1 (core / 40)
        (core % 40)

def execSelfTestDone (core : Fin 10240) (pass : Bool) (failUnit : Fin 7) (s : State) : Host.Outcome State Fault Refusal :=
  .next (s.selfTestDone core pass failUnit)

/-! ## Clusters and compute dies removed (R271, R434) -/

def coresIn (cl : Nat) : List Nat := (List.range 40).map (cl * 40 + ·)

/-- The records saved from a cluster are discarded, their jobs put on their counters (R434). -/
def State.dropSaved (s : State) (cl : Nat) : State :=
  let recs := s.sc.ctxs.flatMap (fun e => (e.2.clRecs.filter (fun r => r.1 = cl)).flatMap (fun r => r.2.layers))
  let s : State := { s with sc.ctxs := s.sc.ctxs.map (fun e => (e.1, { e.2 with
    saved := e.2.saved.filter (fun r => r.cluster ≠ cl), clRecs := e.2.clRecs.filter (fun r => r.1 ≠ cl) })) }
  recs.foldl (fun s l => ((match l.job with | some j => [j] | none => []) ++ l.ahead).foldl (fun s j => s.reclaim l j) s) s

/-- The commands with a tensor homed in a cluster's store, and the layers there. -/
def State.storeOwner (s : State) (cl : Nat) : Option (Nat × Nat) := (s.cluster cl).owner

/-- What a cluster's loss means for the work on it: a command homed in its store is executed again whole; every other
job held here goes to its counter. -/
def State.emptyCluster (s : State) (cl : Nat) : State :=
  let own := (s.cluster cl).owner
  let s := match own with | some (q, n) => s.rerun q n | none => s
  let ls := (s.cluster cl).layers
  let s := (coresIn cl).foldl
    (fun s k => if (s.core k).place.isSome then (s.freeCore k).dropReads k else s) s
  let x := s.cluster cl
  let s := s.setCluster cl { x with layers := [], owner := none }
  let s := ls.foldl
    (fun s l => ((match l.job with | some j => [j] | none => []) ++ l.ahead).foldl (fun s j => s.reclaim l j) s) s
  let s := s.dropSaved cl
  let s : State := { s with cq.cmds := s.cq.cmds.map (fun c =>
    { c with layers := c.layers.map (fun l => { l with placed := l.placed.filter (· ≠ cl) }) }) }
  let s := if ls = [] then s else s.idleNow cl
  ls.foldl (fun s l => s.layersEnd l.q l.seq) s

/-- A cluster in placement leaves it, its jobs going back to their counters (R271, R463). -/
def State.takeOut (s : State) (cl : Nat) : State :=
  if (s.cluster cl).removed then s
  else
    let s := s.emptyCluster cl
    let s := s.setCluster cl { s.cluster cl with removed := true }
    let s := s.setFld F.CLS_STATUS.IN_PLACEMENT 0 cl
    s.setFld F.CD_STATUS.PLACED
      (s.fld F.CD_STATUS.PLACED (cl / 16) - (if bit (s.fld F.CD_STATUS.PLACED (cl / 16)) (cl % 16) then 2 ^ (cl % 16) else 0))
      (cl / 16)

/-- A cluster returns to placement (R463). -/
def State.putBack (s : State) (cl : Nat) : State :=
  if (s.cluster cl).removed then
    let s := s.setCluster cl { s.cluster cl with removed := false }
    let s := s.setFld F.CLS_STATUS.IN_PLACEMENT 1 cl
    s.setFld F.CD_STATUS.PLACED (Nat.lor (s.fld F.CD_STATUS.PLACED (cl / 16)) (2 ^ (cl % 16))) (cl / 16)
  else s

/-- A cluster is removed from placement by a fault (R271). -/
def State.removeCluster (s : State) (cl : Nat) : State :=
  if (s.cluster cl).removed then s else (s.takeOut cl).raise 0x1121 2 cl

def State.clusterFault (s : State) (cl : Nat) : State := if s.tm.power = .active then s.removeCluster cl else s

def execClusterFault (cl : Fin 256) (s : State) : Host.Outcome State Fault Refusal := .next (s.clusterFault cl)

/-- A compute die is removed: each of its clusters as by a cluster fault. -/
def State.dieLost (s : State) (die : Nat) : State :=
  if s.tm.power ≠ .active ∨ s.fld F.CD_STATUS.REMOVED die = 1 then s
  else
    let s := (s.setFld F.CD_STATUS.REMOVED 1 die).raise 0x1001 2 die
    (List.range 16).foldl (fun s i => s.removeCluster (die * 16 + i)) s

def execDieLost (die : Fin 16) (s : State) : Host.Outcome State Fault Refusal := .next (s.dieLost die)

/-- An uncorrectable read of a cluster store (R285): the items that read it are dealt again; in a tensor homed there the
owner is executed again; a second within a second removes the cluster. -/
def State.clusterStoreUe (s : State) (cl a reader : Nat) : State :=
  if s.tm.power ≠ .active ∨ (s.cluster cl).removed then s
  else
    let s := s.raise 0x1122 2 cl (reader % 40) 0xFFFF 0xFFFF 0 (memDetail a)
    let x := s.cluster cl
    let again := match x.lastUe with | some t => decide (s.tm.now < t + 1000000000) | none => false
    let homed := match x.owner with
      | some (q, n) => (match s.cmd? q n with
        | some c => c.descs.any (fun u => u.range.1 = 2 && decide (u.range.2.1 ≤ a) && decide (a < u.range.2.1 + u.range.2.2))
        | none => false)
      | none => false
    let s := s.setCluster cl { x with lastUe := some s.tm.now }
    let s := match homed, x.owner with
      | true, some (q, n) => s.rerun q n
      | _, _ =>
        let k := cl * 40 + reader
        (match (s.core k).place with
         | some pl => if pl.item.isSome then (s.dropReads k).redeal k true else s
         | none => s)
    if again then s.removeCluster cl else s

def execClusterStoreUe (cl : Fin 256) (addr : Fin 2097152) (reader : Fin 40) (s : State) :
    Host.Outcome State Fault Refusal := .next (s.clusterStoreUe cl addr reader)

end Sys2Proof.Machine
end

