-- ==== Sys2Proof/Machine/Sched.lean ====
section
/-! DEFINITION. The scheduler: contexts created and destroyed, placement, slices and yields, swapping
(11_scheduling.md; R412 to R435). -/

namespace Sys2Proof.Machine

/-! ## CREATE and DESTROY (R412, R413) -/

/-- SCHED_CTX_OP completes with a result. -/
def State.ctxResult (s : State) (v : Nat) : State := s.setFld F.SCHED_CTX_OP.RESULT v
def State.ctxSel (s : State) : Nat := s.fld F.SCHED_CTX_SEL.CONTEXT

def State.createOp (s : State) : State :=
  let n := s.ctxSel
  if (s.ctx n).exist then s.ctxResult 2 else (s.setCtx n { s.ctx n with exist := true }).ctxResult 0

def execCreate (r : Requester) (s : State) : Host.Outcome State Fault Refusal :=
  .next (s.opWrite r 0x01 0 0x128 1 State.createOp)

/-- Everything a context owns is given up. -/
def State.destroyContext (s : State) (n : Nat) : State :=
  let gs := (s.wh.groups.filter (fun g => g.2.state ≠ 0 ∧ g.2.owner = n)).map (·.1)
  let s := gs.foldl State.closeGroup s
  let qs := (s.kv.seqs.filter (fun q => q.2.valid && q.2.owner = n)).map (·.1)
  let s : State := { s with kv.deferred := s.kv.deferred.filter (fun e => e.branch || !qs.contains e.target) }
  let s := qs.foldl State.seqDestroyNow s
  let s := s.disown ((s.mm.owners.filter (fun o => o.2 = n)).map (·.1))
  let s := (List.range 16).foldl
    (fun s m => if s.fld F.CIS_OWNER.CONTEXT m = n then s.setFld F.CIS_OWNER.CONTEXT 0xFFFE m else s) s
  s.setCtx n {}

def State.destroyOp (s : State) : State :=
  let n := s.ctxSel
  if !(s.ctx n).exist then s.ctxResult 3
  else if s.cq.queues.any (fun q => q.2.enabled && q.2.ctx = n) ∨ !(s.cmdsOf n).isEmpty then s.ctxResult 1
  else (s.destroyContext n).ctxResult 0

def execDestroy (r : Requester) (s : State) : Host.Outcome State Fault Refusal :=
  .next (s.opWrite r 0x01 0 0x128 2 State.destroyOp)

/-! ## The save pool (R432, "Save format") -/

/-- The pool in bytes, the bytes in use (in 64-byte units), and the free ones. -/
def State.poolBytes (s : State) : Nat := s.fld F.SCHED_POOL_COUNT.N * 2 ^ 21
def Ctx.poolUse (x : Ctx) : Nat :=
  if x.saved = [] ∧ x.clRecs = [] then 0
  else 64 + x.saved.foldl (fun n r => n + ceilDiv r.size 64 * 64) 0 +
    x.clRecs.foldl (fun n r => n + ceilDiv (clRecSize r.2 (x.storeBytes r.1)) 64 * 64) 0
def State.poolUsed (s : State) : Nat := s.sc.ctxs.foldl (fun n c => n + c.2.poolUse) 0
def State.poolFree (s : State) : Nat := s.poolBytes - s.poolUsed

/-- Clusters in which a context has a layer. -/
def State.ctxClusters (s : State) (ctx : Nat) : List Nat :=
  (s.tl.clusters.filter (fun e => e.2.layers.any (fun l => match s.cmd? l.q l.seq with
    | some c => c.ctx == ctx
    | none => false))).map (·.1)

/-- The worst-case save of a context. -/
def State.worstSave (s : State) (ctx : Nat) : Nat :=
  64 + 2097728 * (s.ctxClusters ctx).length + 129088 * (s.ctxCores ctx).length

/-! ## Placement (R417 to R421) -/

/-- Is a core free. -/
def State.coreFree (s : State) (k : Nat) : Bool :=
  s.coreFld F.CORE_CFG.PLACE k = 1 && s.coreFld F.CORE_STATUS.OFFLINE k = 0 && s.coreFld F.CORE_STATUS.TESTING k = 0 &&
    (s.core k).place.isNone && !(s.core k).out

/-- The free cores of a cluster, ascending. -/
def State.freeCores (s : State) (cl : Nat) : List Nat := (coresIn cl).filter s.coreFree

/-- May a cluster take a further layer of n cores. -/
def State.clusterTakes (s : State) (cl n : Nat) : Bool :=
  !(s.cluster cl).removed && s.rs.clusters.all (fun r => r.1 ≠ cl) && decide ((s.cluster cl).layers.length < 4) &&
    decide (n ≤ (s.freeCores cl).length)

/-- Does a layer touch a CLUSTER-homed tensor. -/
def touchesCluster (c : Cmd) (p : Plan) : Bool :=
  p.tensors.any (fun i => match c.descs[i]? with
    | some u => u.range.1 = 2
    | none => false)

/-- Does a cluster qualify for a layer (R417). -/
def State.qualifies (s : State) (c : Cmd) (p : Plan) (n cl : Nat) : Bool :=
  s.clusterTakes cl n &&
    (if touchesCluster c p then
      (if s.tl.clusters.any (fun e => e.2.owner = some (c.q, c.seq)) then (s.cluster cl).owner = some (c.q, c.seq)
       else (s.cluster cl).owner.isNone)
     else true)

/-- The counter of a layer, by device number. -/
def Cmd.counterOf (c : Cmd) (l : Layer) : Nat := c.counterRun.elim 0 (·.1) + l.counter

/-- Cluster numbers that run a layer, or hold a cluster record of it. -/
def State.layerClusters (s : State) (c : Cmd) (l : Layer) : List Nat :=
  (s.tl.clusters.filter (fun e => e.2.layers.any (fun m => m.is c.q c.seq l.ord))).map (·.1) ++
    ((s.ctx c.ctx).clRecs.filter (fun r => r.2.layers.any (fun m => m.is c.q c.seq l.ord))).map (·.1)

/-- Is a layer ready for placement: its command runs, every layer it depends on has been placed, the segments before its
own have ended, its counter is no other unended layer's. -/
def State.layerReady (_s : State) (c : Cmd) (l : Layer) (p : Plan) : Bool :=
  c.stage == Stage.running && c.hold.isNone && c.inputsHere && !l.ended &&
    c.layers.all (fun m =>
      (!(decide (l.first ≤ m.ord) && bit p.depends (m.ord - l.first)) || m.started) &&
      (m.seg = l.seg || decide (l.ord ≤ m.ord) || m.ended) &&
      (m.ord = l.ord || m.counter ≠ l.counter || !m.started || m.ended))

/-- May a layer take a further cluster (R419): fewer than k run it, and its counter has a job or a reclaim entry. -/
def State.layerGrows (s : State) (c : Cmd) (l : Layer) : Bool :=
  let x := s.counter (c.counterOf l)
  !l.started || (decide ((s.layerClusters c l).length < l.k) && (decide (x.next < x.limit) || decide (0 < x.rq)))

/-- The jobs of a layer: none where its input or its output has a zero valid extent (R214, R255, R265). -/
def State.layerJobs (s : State) (c : Cmd) (l : Layer) (p : Plan) : Nat :=
  if [0, 2].any (fun i => match s.layerDesc? c l p i with | some d => d.emptyValid | none => false) then 0
  else p.jobsOver (s.layerExt c l p)

/-- The first dispatch of a layer writes its counter record (R265). -/
def State.openLayer (s : State) (c : Cmd) (l : Layer) (p : Plan) : State :=
  let jobs := s.layerJobs c l p
  let l' := { l with started := true, n := Nat.min p.jobItems 40, k := Nat.min jobs 256 }
  let s := s.setCounter (c.counterOf l) { next := 0, limit := jobs, done := 0, rq := 0, items := p.jobItems - 1 }
  s.setCmd { c with layers := c.layers.map (fun m => if m.ord = l.ord then l' else m) }

/-- A parked cluster wakes, which takes 4 µs (R455). -/
def State.wake (s : State) (cl : Nat) : State :=
  if (s.clk cl).parked then
    s.setClk cl { s.clk cl with parked := false, awake := s.tm.now + 4000, idleSince := s.tm.now }
  else s

/-- A layer is put on n cores of a cluster. -/
def State.placeOn (s : State) (c : Cmd) (l : Layer) (p : Plan) (cl : Nat) : State :=
  let cores := (s.freeCores cl).take l.n
  let n := c.counterOf l
  let x := s.cluster cl
  let sl : SeqLayer := { q := c.q, seq := c.seq, layer := l.ord, counter := n, n := l.n, cores := cores }
  let s := s.setCluster cl
    { x with layers := x.layers ++ [sl], owner := if touchesCluster c p then some (c.q, c.seq) else x.owner }
  let s := cores.foldl (fun s k =>
    s.setCore k { ((s.core k).freed.wellsFor c.ctx) with
      place := some { q := c.q, seq := c.seq, layer := l.ord, counter := n, since := s.tm.now } }) s
  let s := s.wake cl
  match s.cmd? c.q c.seq with
  | some d => s.setCmd { d with layers := d.layers.map (fun m =>
      if m.ord = l.ord then { m with placed := m.placed.filter (· ≠ cl) ++ [cl] } else m) }
  | none => s

/-- The clusters offered to a layer in ascending order, until it has as many as it wants. -/
def State.offer (s : State) (q seq ord : Nat) (p : Plan) : List Nat → State
  | [] => s
  | cl :: rest =>
    match s.cmd? q seq with
    | none => s
    | some c => match c.layers.find? (fun m => m.ord == ord) with
      | none => s
      | some l =>
        if !s.layerGrows c l ∨ l.k ≤ (s.layerClusters c l).length then s
        else if s.qualifies c p l.n cl && !(s.cluster cl).layers.any (fun m => m.is q seq ord) then
          (s.placeOn c l p cl).offer q seq ord p rest
        else s.offer q seq ord p rest

/-- A context begins to run: its slice starts (R416, R422). -/
def State.startSlice (s : State) (ctx : Nat) : State :=
  let s := s.applyField F.SCHED_SLICE.US
  s.setCtx ctx { s.ctx ctx with
    sliceStart := s.tm.now, sliceLen := Nat.max 1 (s.fld F.SCHED_SLICE.US) * 1000 }

def State.ctxRuns (s : State) (ctx : Nat) : State :=
  if (s.ctx ctx).st = .ready ∧ !(s.ctxCores ctx).isEmpty then (s.ctxTo ctx .running).startSlice ctx else s

/-- A layer with no job ends as it is placed, its counter record written with LIMIT 0: RUN outputs are empty (R214, R255,
R265). -/
def State.emptyLayer (s : State) (c : Cmd) (l : Layer) (p : Plan) : State :=
  let s := s.openLayer c l p
  match s.cmd? c.q c.seq with
  | none => s
  | some c => (s.setCmd { c with
      cflags := if c.kind = .run then Nat.lor c.cflags 2 else c.cflags
      layers := c.layers.map (fun m => if m.ord = l.ord then { m with ended := true } else m) }).layersEnd c.q c.seq

/-- The trace records of a layer placed: START with the command's first layer, and LAYER (table "Trace types"). -/
def State.placedTrace (s : State) (c : Cmd) (ord : Nat) : State :=
  match s.cmd? c.q c.seq with
  | none => s
  | some d => match d.layers.find? (fun m => m.ord == ord) with
    | none => s
    | some l =>
      let n := (s.layerClusters d l).length
      if n = 0 then s
      else
        let first := match (s.coresOf d.q d.seq) with | k :: _ => k | [] => 0
        let s := if ord = 0 then
            s.trace { type := 2, ctx := d.ctx, q := d.q, seq := d.seq, arg0 := n, arg1 := first }
          else s
        s.trace { type := 4, ctx := d.ctx, q := d.q, seq := d.seq, arg0 := ord, arg1 := n }

/-- One ready layer is offered to the scan. -/
def State.placeLayer (s : State) (q seq ord : Nat) : State :=
  match s.cmd? q seq with
  | none => s
  | some c => match c.layers.find? (fun m => m.ord == ord) with
    | none => s
    | some l =>
      let p := s.layerPlan c l
      if !s.layerReady c l p then s
      else if !l.started ∧ s.layerJobs c l p = 0 then s.emptyLayer c l p
      else
        let n := Nat.min p.jobItems 40
        if l.started then s.offer q seq ord p (List.range 256)
        else if !(List.range 256).any (fun cl => s.qualifies c p n cl) then s
        else
          let s := (s.openLayer c l p).offer q seq ord p (List.range 256)
          (s.placedTrace c ord).ctxRuns c.ctx

/-! ## Resumption (R428) -/

/-- A yielded layer's core takes what its position saved, or nothing. -/
def State.resumeCore (s : State) (ctx : Nat) (sl : SeqLayer) (cl pos core : Nat) : State :=
  let x := s.ctx ctx
  let pl : Place := { q := sl.q, seq := sl.seq, layer := sl.layer, counter := sl.counter, since := s.tm.now }
  match x.saved.find? (fun r => r.q == sl.q && r.seq == sl.seq && r.layer == sl.layer && r.cluster == cl &&
      r.position == pos) with
  | none => s.setCore core { ((s.core core).freed.wellsFor ctx) with place := some pl }
  | some r =>
    let s := s.setCtx ctx { x with saved := x.saved.erase r }
    let k := (s.core core).freed.wellsFor ctx
    let k := { k with
      wells := r.wells.foldl (fun w (e : Nat × W40) => put 0 w e.1 e.2) (k.wells.filter (fun e => !bit r.mask (e.1 / 256)))
      written := Nat.lor k.written r.mask
      store := r.bytes.foldl (fun m (e : Nat × Byte) => put (0 : Byte) m e.1 e.2)
        (k.store.filter (fun e => !(decide (r.csAddr * 32 ≤ e.1) && decide (e.1 < (r.csAddr + r.csLen) * 32))))
      place := some { r.place with since := s.tm.now }, waiting := r.waiting, tags := r.tags }
    ((s.setCore core k).issueWords core r.queue).pump core

/-- The resumed cores stand at a command boundary: their tables are loaded again (R428). -/
def State.resumeTables (s : State) (sl : SeqLayer) (cores : List Nat) : State :=
  match s.cmd? sl.q sl.seq with
  | none => s
  | some c => match c.layers.find? (fun m => m.ord == sl.layer) with
    | none => s
    | some l => cores.foldl (fun s k => s.coreBoundary c (s.layerPlan c l) k) s

/-- A cluster record's layer goes back to the cluster it yielded in, on the n lowest free cores, once the cluster is
awake. -/
def State.resumeLayer (s : State) (ctx cl : Nat) (sl : SeqLayer) : State :=
  if !s.clusterTakes cl sl.n then s
  else if (s.clk cl).parked then s.wake cl
  else if s.tm.now < (s.clk cl).awake then s
  else
    let cores := (s.freeCores cl).take sl.n
    let y := s.cluster cl
    let s := s.setCluster cl { y with layers := y.layers ++ [{ sl with cores := cores }] }
    let x := s.ctx ctx
    let s := s.setCtx ctx { x with clRecs := (x.clRecs.map (fun r =>
      if r.1 = cl then (r.1, { r.2 with layers := r.2.layers.erase sl }) else r)).filter (fun r => r.2.layers ≠ []) }
    let s := (List.range cores.length).foldl
      (fun s i => match cores[i]? with
        | some k => s.resumeCore ctx sl cl i k
        | none => s) s
    let s := s.resumeTables sl cores
    (s.ctxRuns ctx).goOnHere cl sl.q sl.seq sl.layer

def State.resumeAll (s : State) (ctx : Nat) : State :=
  ((s.ctx ctx).clRecs.flatMap (fun r => r.2.layers.map (fun l => (r.1, l)))).foldl
    (fun s p => s.resumeLayer ctx p.1 p.2) s

/-! ## PLACEMENT_SCAN -/

/-- The contexts whose layers are offered, in the order of their waiting time (R416, R420). -/
def State.scanOrder (s : State) : List Nat :=
  let cs := s.sc.ctxs.filter (fun c => c.2.slot.isSome && (c.2.st == .ready || c.2.st == .running))
  (cs.foldr (fun c acc => (acc.takeWhile (fun d => decide (d.2.waitSince < c.2.waitSince))) ++ [c] ++
    (acc.dropWhile (fun d => decide (d.2.waitSince < c.2.waitSince)))) []).map (·.1)

/-- The ready layers of a context in command acceptance order and layer order. -/
def State.ctxLayers (s : State) (ctx : Nat) : List (Nat × Nat × Nat) :=
  (s.cmdsOf ctx).flatMap (fun c => c.layers.map (fun l => (c.q, c.seq, l.ord)))

/-- Has a context a layer that the scan could not place. -/
def State.leftOver (s : State) (ctx : Nat) : Bool :=
  !(s.ctx ctx).clRecs.isEmpty || (s.cmdsOf ctx).any (fun c => c.layers.any (fun l =>
    !l.started && s.layerReady c l (s.layerPlan c l)))

/-- One scan. -/
def State.placementScan (s : State) : State :=
  if s.runs 313 ∧ s.fld F.SCHED_CFG.ENABLE = 1 then
    let order := s.scanOrder
    let s := order.foldl
      (fun s ctx =>
        let s := s.resumeAll ctx
        (s.ctxLayers ctx).foldl (fun s l => s.placeLayer l.1 l.2.1 l.2.2) s) s
    { s with sc.unplaced := order.filter s.leftOver }
  else s

def execPlacementScan (s : State) : Host.Outcome State Fault Refusal := .next s.placementScan

/-! ## Slices (R422 to R427) -/

/-- R423's first case: another resident context is READY and had a layer that the last scan could not place. -/
def State.othersWait (s : State) (ctx : Nat) : Bool :=
  s.sc.ctxs.any (fun c => c.1 ≠ ctx && c.2.slot.isSome && c.2.st == .ready && s.sc.unplaced.contains c.1)

/-- R423's second case. -/
def State.outWaits (s : State) : Bool :=
  s.sc.ctxs.any (fun c => c.2.st == .outReady) && s.freeSlot.isNone &&
    s.sc.ctxs.all (fun c => !(c.2.slot.isSome && c.2.st == .blocked))

/-- SLICE_END: a RUNNING context whose timer has reached its slice yields, or its slice starts anew. -/
def State.sliceEnd (s : State) (ctx : Nat) : State :=
  let x := s.ctx ctx
  if !s.runs 313 ∨ x.st ≠ .running ∨ s.tm.now < x.sliceStart + x.sliceLen then s
  else if !s.othersWait ctx ∧ !s.outWaits then s.startSlice ctx
  else if s.poolFree < s.worstSave ctx then
    ((s.setInt F.SCHED_INT_STATUS.POOL_SHORT).raise 0x0102 0 0 0 ctx).startSlice ctx
  else
    let s := s.trace { type := 7, flags := 1, ctx := ctx }
    let s := match x.client with
      | some n => s.addCnt C.CL_CNT_PREEMPTED 1 0 n
      | none => s
    let s := s.setCtx ctx { x with st := .yielding, yieldSince := s.tm.now, overran := false, swapping := s.outWaits }
    (s.ctxCores ctx).foldl (fun s k => s.yieldAtWait k) s

def execSliceEnd (ctx : Fin 4096) (s : State) : Host.Outcome State Fault Refusal := .next (s.sliceEnd ctx)

/-- SLICE_OVERRUN: a context still YIELDING after the grace. -/
def State.sliceOverrun (s : State) (ctx : Nat) : State :=
  let x := s.ctx ctx
  if !s.runs 313 ∨ x.st ≠ .yielding ∨ x.overran ∨
      s.tm.now < x.yieldSince + Nat.max 1 (s.fld F.SCHED_GRACE.US) * 1000 then s
  else
    let s := (s.setCtx ctx { x with overran := true }).raise 0x0101 0 0 0 ctx
    let s := s.setInt F.SCHED_INT_STATUS.OVERRUN
    let s := match x.client with
      | some n => s.addCnt C.CL_CNT_OVERRUNS 1 0 n
      | none => s
    { s with cq.cmds := s.cq.cmds.map (fun c =>
        if c.ctx = ctx ∧ !(s.coresOf c.q c.seq).isEmpty then { c with cflags := Nat.lor c.cflags 32 } else c) }

def execSliceOverrun (ctx : Fin 4096) (s : State) : Host.Outcome State Fault Refusal := .next (s.sliceOverrun ctx)

/-! ## CORE_RELEASE (R421, R425) -/

/-- The plan of the layer a core is on. -/
def State.corePlan (s : State) (core : Nat) : Option Plan :=
  match (s.core core).place with
  | none => none
  | some p => (s.cmd? p.q p.seq).bind (fun c =>
    (c.layers.find? (fun l => l.ord == p.layer)).map (fun l => s.layerPlan c l))

/-- Has a core of a layer on a cluster yielded. -/
def State.someYielded (s : State) (ctx : Nat) (p : Place) (cl : Nat) : Bool :=
  (s.ctx ctx).saved.any (fun r => r.q == p.q && r.seq == p.seq && r.layer == p.layer && r.cluster == cl)

/-- A core without an item, or one left to take, under yield-pending: it stands at its mark (log 43). -/
def State.idleYields (s : State) (core ctx : Nat) (p : Place) : Bool :=
  let k := s.core core
  let cl := core / 40
  s.yieldPending core && s.coreIdle core && k.queue.isEmpty && k.issue.isEmpty &&
    (match s.seqLayer? cl p.q p.seq p.layer with
     | some sl => (sl.job.isNone && sl.ahead.isEmpty) ||
        (dealFor sl.deal (sl.cores.findIdx (· == core))).isNone
     | none => true) &&
    ((match s.corePlan core with | some pl => decide (0 < pl.yieldLevel) | none => false) || s.someYielded ctx p cl)

/-- Bytes of a record written to the pool. -/
def State.savedBytes (s : State) (n : Nat) : State := s.addCnt C.SCHED_CNT_SAVED_BYTES n

/-! ## The save pool (11, "Save format") -/

/-- Device address of the pool. -/
def State.poolBase (s : State) : Nat :=
  granuleAddr (s.fld F.SCHED_POOL_BASE.BASE / 2 ^ 15) (s.fld F.SCHED_POOL_BASE.BASE % 2 ^ 15)

/-- The runs of 64-byte units of the pool that a context's records take: first unit and number. -/
def Ctx.poolRuns (x : Ctx) : List (Nat × Nat) :=
  let run (u : Option Nat) (bytes : Nat) : List (Nat × Nat) := (u.map (fun u => (u, ceilDiv bytes 64))).toList
  if x.saved = [] ∧ x.clRecs = [] then []
  else run x.headAt 64 ++ x.saved.flatMap (fun r => run r.at_ r.size) ++
    x.clRecs.flatMap (fun r => ((x.clAt.find? (fun a => a.cluster == r.1)).map
      (fun a => run a.at_ (clRecSize r.2 a.bytes))).getD [])

def State.poolFits (s : State) (n u : Nat) : Bool :=
  decide (u + n ≤ s.poolBytes / 64) &&
    s.sc.ctxs.all (fun c => c.2.poolRuns.all (fun r => decide (u + n ≤ r.1) || decide (r.1 + r.2 ≤ u)))

/-- A place for n units: any free run is taken (log 69). -/
def State.poolPlace (s : State) (n : Nat) : Option Nat :=
  if s.poolBytes / 64 < n then none
  else if s.poolFits n (Config.pick s.free % (s.poolBytes / 64)) then some (Config.pick s.free % (s.poolBytes / 64))
  else (0 :: s.sc.ctxs.flatMap (fun c => c.2.poolRuns.map (fun r => r.1 + r.2))).find? (s.poolFits n)

def State.poolWrite (s : State) (u : Option Nat) (data : List Byte) : State :=
  match u with
  | some u => s.devWrite (s.poolBase + u * 64) data
  | none => s

/-- The context save header: CONTEXT, NCLUSTER, NCORE, BYTES, TIME. -/
def State.writeHeader (s : State) (ctx : Nat) : State :=
  let x := s.ctx ctx
  s.poolWrite x.headAt (toLE 2 ctx ++ toLE 2 x.clRecs.length ++ toLE 2 x.saved.length ++ toLE 2 0 ++
    toLE 8 x.savedBytes ++ toLE 8 s.tm.now ++ List.replicate 40 0)

/-- The header of a context that begins to save takes its place. -/
def State.openSave (s : State) (ctx : Nat) : State :=
  let x := s.ctx ctx
  if x.saved = [] ∧ x.clRecs = [] then
    (({ s with free := s.free + 1 } : State).setCtx ctx { x with headAt := s.poolPlace 1, clAt := [] }).savedBytes 64
  else s

/-- The 64 bytes that begin a core record, then the SAVE40 images of its wells, then its core-store range; `steps` are the
level-0 steps of the item that are complete. -/
def SavedCore.record (r : SavedCore) (steps : Nat) : List Byte :=
  toLE 2 r.cluster ++ toLE 1 r.position ++ toLE 1 r.point ++ toLE 2 r.layer ++ toLE 2 0 ++
    toLE 4 (r.place.item.getD 0) ++ toLE 4 steps ++ toLE 4 (r.mask % 2 ^ 24) ++ toLE 2 r.csAddr ++ toLE 2 r.csLen ++
    List.replicate 40 0 ++
    (wellsOf r.mask).flatMap (fun w => cells16.flatMap (fun p => toLE 5 (look 0 r.wells (wellKey w p.1 p.2)).toNat)) ++
    rdBytes r.bytes (r.csAddr * 32) (r.csLen * 32)

/-- The level-0 steps of the item a record was taken in that are complete: those before the first word left. -/
def State.stepsDone (s : State) (r : SavedCore) : Nat :=
  match s.cmd? r.q r.seq, r.place.item with
  | some c, some item => match c.layers.find? (fun l => l.ord == r.layer) with
    | none => 0
    | some l =>
      let p := s.layerPlan c l
      let is := s.itemWords (s.itemRunOf c l p item (r.place.ord - 1))
      let left := (r.queue.filter (fun w => w.item == some item)).length
      ((is[is.length - left]?).map (·.step)).getD (s.itemSteps c l p item).1.length
  | _, _ => 0

/-- A core record acknowledged. -/
def State.keepRecord (s : State) (ctx : Nat) (r : SavedCore) : State :=
  let s := s.openSave ctx
  let x := s.ctx ctx
  let u := s.poolPlace (ceilDiv r.size 64)
  let s := ((({ s with free := s.free + 1 } : State).setCtx ctx { x with saved := x.saved ++ [{ r with at_ := u }] }).addCnt
    C.SCHED_CNT_YIELDS 1).savedBytes r.size
  (s.poolWrite u (r.record (s.stepsDone r))).writeHeader ctx

/-- A layer state of a cluster record. -/
def SeqLayer.bytes (l : SeqLayer) : List Byte :=
  let j := l.job.getD { job := 0, mask := 0, gen := 0 }
  toLE 2 l.q ++ toLE 2 l.layer ++ toLE 4 l.seq ++ toLE 2 l.counter ++ toLE 1 l.n ++ toLE 1 l.ahead.length ++
    toLE 4 j.job ++ toLE 1 j.gen ++ List.replicate 7 0 ++ toLE 8 j.done ++
    (List.range 3).flatMap (fun i => match l.ahead[i]? with
      | some a => toLE 4 a.job ++ toLE 1 a.gen ++ List.replicate 3 0
      | none => List.replicate 8 0) ++ List.replicate 72 0

/-- A cluster record takes its place in the pool, with the bytes of the cluster's tensors where it carries them. -/
def State.putClRec (s : State) (ctx cl : Nat) (tensors : List Byte) : State :=
  let x := s.ctx ctx
  match x.clRecs.find? (fun r => r.1 == cl) with
  | none => s
  | some r =>
    let x := { x with clAt := x.clAt.filter (fun a => a.cluster ≠ cl) }
    let s := s.setCtx ctx x
    let u := s.poolPlace (ceilDiv (clRecSize r.2 tensors.length) 64)
    let s := ({ s with free := s.free + 1 } : State).setCtx ctx
      { x with clAt := x.clAt ++ [{ cluster := cl, at_ := u, bytes := tensors.length }] }
    (s.poolWrite u (toLE 2 cl ++ toLE 1 r.2.layers.length ++ List.replicate 5 0 ++ toLE 8 tensors.length ++
      List.replicate 48 0 ++ r.2.layers.flatMap SeqLayer.bytes ++ tensors)).writeHeader ctx

/-- The last core of a layer has left a cluster: the layer goes into the cluster record where a core of it yielded, and
leaves the sequencer. -/
def State.layerLeaves (s : State) (ctx : Nat) (p : Place) (cl : Nat) : State :=
  match s.seqLayer? cl p.q p.seq p.layer with
  | none => s
  | some sl =>
    if !(s.livePos sl).isEmpty then s
    else
      let kept := s.someYielded ctx p cl
      let y := s.cluster cl
      let s := s.setCluster cl { y with layers := y.layers.filter (fun m => !m.is p.q p.seq p.layer) }
      if !kept then s
      else
        let x := s.ctx ctx
        let had := x.clRecs.any (fun r => r.1 = cl)
        let recs := if had then x.clRecs.map (fun r => if r.1 = cl then (r.1, { r.2 with layers := r.2.layers ++ [sl] }) else r)
          else x.clRecs ++ [(cl, { layers := [sl] })]
        ((s.setCtx ctx { x with clRecs := recs }).savedBytes (if had then 128 else 192)).putClRec ctx cl []

/-- CORE_RELEASE: a core whose share of the layer has ended, or whose record has been acknowledged, is released. -/
def State.coreRelease (s : State) (core : Nat) : State :=
  let k := s.core core
  let cl := core / 40
  match k.place, s.coreCtx core with
  | some p, some ctx =>
    let idle := s.idleYields core ctx p
    if !s.runs cl ∨ (!k.ended ∧ k.saving.isNone ∧ !idle) then s
    else
      let s := match k.saving with
        | some r => s.keepRecord ctx r
        | none =>
          if k.ended then s
          else s.keepRecord ctx
            { q := p.q, seq := p.seq, cluster := cl, position := s.position core p, point := 0, layer := p.layer
              place := p, mask := (match s.corePlan core with | some pl => pl.fixedLive | none => 0)
              wells := k.wells.filter (fun e => bit (match s.corePlan core with | some pl => pl.fixedLive | none => 0) (e.1 / 256))
              csAddr := 0, csLen := 0, bytes := [], queue := [] }
      let s := (s.freeCore core).layerLeaves ctx p cl
      let s := s.idleNow cl
      (s.layersEnd p.q p.seq).settle ctx
  | _, _ => s

def execCoreRelease (core : Fin 10240) (s : State) : Host.Outcome State Fault Refusal := .next (s.coreRelease core)

/-! ## Swapping (R429 to R433) -/

/-- The contexts of a state, the longest in it first, ties to the lower number. -/
def longest (l : List (Nat × Nat)) : Option Nat :=
  (l.foldl (fun (b : Option (Nat × Nat)) c => match b with
    | none => some c
    | some d => if c.2 < d.2 then some c else b) none).map (·.1)

/-- SWAP_OUT: the resident context BLOCKED longest is evicted when another waits for a slot and none is free. -/
def State.swapOut (s : State) : State :=
  if s.runs 313 ∧ s.sc.ctxs.any (fun c => c.2.st == .outReady) ∧ s.freeSlot.isNone then
    match longest ((s.sc.ctxs.filter (fun c => c.2.slot.isSome && c.2.st == .blocked)).map (fun c => (c.1, c.2.blockedSince))) with
    | some n => s.ctxTo n .saving
    | none => s
  else s

def execSwapOut (s : State) : Host.Outcome State Fault Refusal := .next s.swapOut

/-- The clusters whose stores hold tensors of a context's commands. -/
def State.ctxStores (s : State) (ctx : Nat) : List Nat :=
  (s.tl.clusters.filter (fun e => match e.2.owner with
    | some (q, n) => (match s.cmd? q n with | some c => c.ctx == ctx | none => false)
    | none => false)).map (·.1)

/-- The tensors homed in a cluster's store, those of the command that owns it (R282), in ascending address: address and
length. -/
def State.storeTensors (s : State) (cl : Nat) : List (Nat × Nat) :=
  match (s.cluster cl).owner with
  | none => []
  | some (q, n) => match s.cmd? q n with
    | none => []
    | some c =>
      (((c.descs.map (·.range)).filter (fun r => r.1 = 2)).map (·.2)).foldl (fun m r => put 0 m r.1 r.2) []

/-- A cluster's store moved into the context's records. -/
def State.saveStore (s : State) (ctx cl : Nat) : State :=
  let s := s.openSave ctx
  let y := s.cluster cl
  let x := s.ctx ctx
  let data := (s.storeTensors cl).flatMap (fun r => rdBytes y.store r.1 r.2)
  let had := x.clRecs.any (fun r => r.1 = cl)
  let recs := if had then x.clRecs.map (fun r => if r.1 = cl then (r.1, { r.2 with store := y.store, owner := y.owner }) else r)
    else x.clRecs ++ [(cl, { store := y.store, owner := y.owner })]
  let s := s.setCluster cl { y with store := [], owner := none }
  (((s.setCtx ctx { x with clRecs := recs }).addSlot 0x11 cl 2 data.length).savedBytes
    ((if had then 0 else 64) + data.length)).putClRec ctx cl data

/-- SAVE_COMPLETE: every record is acknowledged; the context is OUT and its slot free. -/
def State.saveComplete (s : State) (ctx : Nat) : State :=
  let x := s.ctx ctx
  if !s.runs 313 ∨ x.st ≠ .saving then s
  else
    let s := (s.ctxStores ctx).foldl (fun s cl => s.saveStore ctx cl) s
    let s := s.setCtx ctx { s.ctx ctx with st := .out, slot := none, swapping := false }
    let s := s.addCnt C.SCHED_CNT_SWAPS 1
    let s := match x.client with
      | some n => s.addCnt C.CL_CNT_SWAPPED 1 0 n
      | none => s
    (s.setInt F.SCHED_INT_STATUS.SWAP).settle ctx

def execSaveComplete (ctx : Fin 4096) (s : State) : Host.Outcome State Fault Refusal := .next (s.saveComplete ctx)

/-- SWAP_IN: the OUT_READY context that has waited longest takes a free slot. -/
def State.swapIn (s : State) : State :=
  if s.runs 313 then
    match s.freeSlot, longest ((s.sc.ctxs.filter (fun c => c.2.st == .outReady)).map (fun c => (c.1, c.2.waitSince))) with
    | some slot, some n => s.setCtx n { s.ctx n with st := .loading, slot := some slot }
    | _, _ => s
  else s

def execSwapIn (s : State) : Host.Outcome State Fault Refusal := .next s.swapIn

/-- A saved store put back in its cluster. -/
def State.restoreStore (s : State) (bytes cl : Nat) (r : Cluster) : State :=
  if r.owner.isSome then
    (s.setCluster cl { s.cluster cl with store := r.store, owner := r.owner }).addSlot 0x11 cl 3 bytes
  else s

/-- RESTORE_COMPLETE: a LOADING context is READY once the clusters of its stores are free of other commands' tensors
(R433). -/
def State.restoreComplete (s : State) (ctx : Nat) : State :=
  let x := s.ctx ctx
  if !s.runs 313 ∨ x.st ≠ .loading ∨
      x.clRecs.any (fun r => r.2.owner.isSome && (s.cluster r.1).owner.isSome) then s
  else
    let s := x.clRecs.foldl (fun s r => s.restoreStore (x.storeBytes r.1) r.1 r.2) s
    let s := s.setCtx ctx { x with
      clAt := x.clAt.map (fun a => { a with bytes := 0 })
      clRecs := (x.clRecs.map (fun r => (r.1, { r.2 with store := [], owner := none }))).filter (fun r => r.2.layers ≠ []) }
    ((s.ctxTo ctx .ready).setInt F.SCHED_INT_STATUS.SWAP).settle ctx

def execRestoreComplete (ctx : Fin 4096) (s : State) : Host.Outcome State Fault Refusal := .next (s.restoreComplete ctx)

end Sys2Proof.Machine
end

