-- ==== Sys2Proof/Machine/Coherence.lean ====
section
/-! DEFINITION. The device memory window of the host: its accesses, the host-coherence filters and recalls
(09_optics.md R349, R352 to R357; R296, R298, R476). -/

namespace Sys2Proof.Machine

/-! ## Responses -/

/-- A CMP, and a CMP_D with its data, which count on the HOSTLINK page (R348, R511). -/
def State.answer (s : State) (p : Pkt) (status : Nat) : State := s.emit (.cmp p.port p.tag status)
def State.answerData (s : State) (p : Pkt) (status : Nat) (data : List Byte) : State :=
  (s.emit (.cmpD p.port p.tag status data)).addSlot 0x31 0 1 data.length

/-- Packet data that took effect, counted once per packet (R576). -/
def State.countIn (s : State) (p : Pkt) : State := s.addSlot 0x31 0 0 p.len

/-! ## Addresses of the window -/

/-- Does the device memory window reach an address: a stack that exists and not its spare area (R296, R298); in minimal
mode only the stack in use (R476). -/
def State.windowReaches (s : State) (a : Nat) : Bool :=
  decide (a / 2 ^ 36 < 12) && decide (a % 2 ^ 36 / 2 ^ 30 < 63) &&
    (s.tm.power ≠ .minimal || s.pagePowered 0x21 (a / 2 ^ 36))

/-- Sizes and alignment of R349. -/
def pktSized (p : Pkt) : Bool :=
  match p.op with
  | 0x01 | 0x04 => (p.len = 64 || p.len = 128 || p.len = 256) && p.addr % p.len = 0
  | 0x02 | 0x03 | 0x05 => p.len = 64 && p.addr % 64 = 0
  | 0x06 => p.addr % 64 = 0
  | _ => false

/-- The data of a packet, LEN bytes. -/
def pktPayload (p : Pkt) : List Byte := (p.data ++ List.replicate p.len 0).take p.len

/-! ## The filter (R352) -/

/-- The port die whose filter tracks a line. -/
def dieOfLine (line : Nat) : Nat := line / 2 ^ 30 / 3

def State.dropLine (s : State) (line : Nat) : State :=
  { s with hl.filter := s.hl.filter.filter (fun h => h.line != line) }

/-- A line granted to the host; one it holds already keeps its place. -/
def State.grantLine (s : State) (line : Nat) (modified : Bool) : State :=
  if (s.held? line).isSome then
    { s with hl.filter := s.hl.filter.map (fun h => if h.line = line then { h with modified := modified } else h) }
  else { s with hl.filter := s.hl.filter ++ [{ line := line, modified := modified }] }

/-- The line to recall before another one of a port die is granted: the oldest of a full filter. -/
def State.filterFull (s : State) (line : Nat) : Option Nat :=
  let l := s.hl.filter.filter (fun h => dieOfLine h.line = dieOfLine line)
  if 2 ^ 22 ≤ l.length ∧ (s.held? line).isNone then (l.head?).map (·.line) else none

/-- Does a host access of a line wait: the host holds it modified, or a recall of it is out. -/
def State.lineBusy (s : State) (line : Nat) : Bool :=
  (match s.held? line with | some h => h.modified | none => false) || s.hl.recalls.any (fun r => r.line == line)

/-! ## Accesses -/

/-- A unit of the range is poisoned, or no longer so. -/
def State.setPoison (s : State) (a n : Nat) : State :=
  { s with mm.poison := s.mm.poison ++ (units64 a n).filter (fun u => !s.mm.poison.contains u) }

/-- The answer of a read: the data, with POISON where a unit of them is poisoned (R348). -/
def State.readAnswer (s : State) (p : Pkt) : State :=
  let st := if s.poisoned p.addr p.len then 3 else 0
  (s.pins p.addr false p.len).answerData p st (s.hostView p.addr p.len)

/-- A read of device memory: it waits for recalls of lines the host holds modified (R353), and for room in the filter
when it asks to hold a line (R352). -/
def State.memRead (s : State) (p : Pkt) : State :=
  match (units64 p.addr p.len).filter s.lineBusy with
  | l :: r => r.foldl (fun s u => s.recall u []) (s.recall l [.access p])
  | [] =>
    let line := p.addr / 64
    if p.op = 1 then s.readAnswer p
    else match s.filterFull line with
      | some old => s.recall old [.access p]
      | none => (s.readAnswer p).grantLine line (p.op = 3)

/-- The bytes a write leaves: MASKED writes of 64 bytes keep those whose mask bit is clear. -/
def State.writeImage (s : State) (p : Pkt) : List Byte :=
  if p.masked && p.len = 64 then
    (List.range 64).map (fun i => if bit p.mask i then (pktPayload p).getD i 0 else rdByte s.mm.dev (p.addr + i))
  else pktPayload p

/-- A write of the host ends its hold of the lines (R355). -/
def State.memWrite (s : State) (p : Pkt) : State :=
  let s := (units64 p.addr p.len).foldl State.dropLine s
  let s := s.devPut p.addr (s.writeImage p)
  let s := if p.poison then s.setPoison p.addr p.len else s
  (s.countIn p).answer p 0

/-- A write-back gives up a modified line; one of a line whose entry a reset has cleared is discarded with ABORT (R357). -/
def State.memBack (s : State) (p : Pkt) : State :=
  if (s.held? (p.addr / 64)).isSome then
    let s := (s.dropLine (p.addr / 64)).devPut p.addr (pktPayload p)
    let s := if p.poison then s.setPoison p.addr 64 else s
    (s.countIn p).answer p 0
  else s.answer p 2

/-- An access of the device memory window takes effect or waits for a recall. -/
def State.memAccess (s : State) (p : Pkt) : State :=
  if !pktSized p || !s.windowReaches p.addr then
    (if p.op = 6 then s else if p.op = 4 ∨ p.op = 5 then s.answer p 1 else s.answerData p 1 [])
  else if p.op = 4 then s.memWrite p
  else if p.op = 5 then s.memBack p
  else if p.op = 6 then s.dropLine (p.addr / 64)
  else s.memRead p

/-! ## Answers to recalls -/

/-- What waited for a recall goes on (R353). -/
def State.serveWait (s : State) (w : RecallWait) : State :=
  match w with
  | .unit .. => s
  | .access p => s.memAccess p
  | .bytes a d => s.devWrite a d

/-- A recall is answered: the host holds the line invalid. -/
def State.recallDone (s : State) (r : Recall) : State :=
  let s : State := { s with hl.recalls := s.hl.recalls.erase r }
  r.waits.foldl State.serveWait (s.dropLine r.line)

/-- RCL_ACK: no modified data, or data that a WB has brought (R354). -/
def State.recallAck (s : State) (tag : Nat) : State :=
  match s.hl.recalls.find? (fun r => r.tag == tag) with
  | none => s
  | some r => s.recallDone r

/-- RCL_DATA: the line is written first; for a recall a reset has cleared it is discarded with ABORT (R353, R357). -/
def State.recallData (s : State) (p : Pkt) : State :=
  match s.hl.recalls.find? (fun r => r.tag == p.tag) with
  | none => s.answer p 2
  | some r =>
    let s := s.devPut (r.line * 64) ((p.data ++ List.replicate 64 0).take 64)
    let s := if p.poison then s.setPoison (r.line * 64) 64 else s
    (s.countIn p).recallDone r

/-- No answer within 1 ms, a stop's interval apart: a red error; the line is poisoned for what waits, and its entry is
cleared (R356, R521). -/
def State.recallTimeout (s : State) (line : Nat) : State :=
  match s.hl.recalls.find? (fun r => r.line == line) with
  | none => s
  | some r =>
    if s.stopState ≠ 0 ∨ s.tm.now < r.at_ + 1000000 then s
    else
      let s := (s.setInt F.HL_INT_STATUS.RECALL_TIMEOUT).raise 0x3103 2 0 0 0xFFFF 0xFFFF 0 (memDetail (line * 64))
      (s.setPoison (line * 64) 64).recallDone r

def execRecallTimeout (line : BitVec 40) (s : State) : Host.Outcome State Fault Refusal :=
  .next (s.recallTimeout line.toNat)

end Sys2Proof.Machine
end

