-- ==== Sys2Proof/Machine/Module.lean ====
section
/-! DEFINITION. The cistern modules: attachment, the label and the catalogue, the answers to requests, and the operations
of the CISTERN pages (09_optics.md, "Cisterns"; R365 to R378). -/

namespace Sys2Proof.Machine

/-! ## Attachment (R366) -/

/-- Lanes of a port that are lit in a direction. -/
def State.litLanes (s : State) (port : Nat) (rx : Bool) : Nat :=
  ((if rx then (s.port port).rx else (s.port port).tx).filter (fun l => l.2.st == LaneSt.lit)).length

/-- Is a lane of the port lit in each direction. -/
def State.portLit (s : State) (port : Nat) : Bool := 0 < s.litLanes port false && 0 < s.litLanes port true

/-- ABSENT and OFFLINE modules are discovered when their port is lit and ENABLE is 1: C_IDENT is sent, block 0 read. -/
def State.cisAttach (s : State) (m : Nat) : State :=
  let x := s.module m
  if s.fld F.CIS_CFG.ENABLE m = 1 ∧ (x.st = 0 ∨ x.st = 5) ∧ !x.clearing ∧ s.portLit (m + 8) then
    let s := s.setModule m { x with st := 1, ident := [], label := [] }
    let s := s.cisReq m .ident (fun t => .cIdent m t)
    s.cisRead m 0 .label
  else s

/-- A module whose ENABLE was cleared is ABSENT once its outstanding requests have completed. -/
def State.cisDrained (s : State) (m : Nat) : State :=
  let x := s.module m
  if x.clearing ∧ x.reqs = [] then
    (s.setModule m { nextTag := x.nextTag }).cisAttach m
  else s

/-- A write of CIS_CFG. -/
def State.cisNamed (s : State) (m : Nat) : Bool :=
  s.cq.cmds.any (fun c => (s.usesOf c.rec_ ++ c.descs).any (fun u => u.range.1 = 3 && cisModule u.range.2.1 = m))

def State.cisBusy (s : State) (m : Nat) : Bool := s.fld F.CIS_OP_STATUS.BUSY m = 1 || s.cisNamed m

def State.cisCfgWrite (s : State) (m v : Nat) : State :=
  if v % 2 = s.fld F.CIS_CFG.ENABLE m then s
  else if s.cisBusy m then s.reject 0x22 m
  else
    let s := s.setFld F.CIS_CFG.ENABLE v m
    if v % 2 = 1 then s.cisAttach m
    else (s.setModule m { s.module m with clearing := true }).cisDrained m

def execCisCfgEnable (r : Requester) (m : Fin 16) (v : W32) (s : State) : Host.Outcome State Fault Refusal :=
  .next (s.opWrite r 0x22 m 0x100 v.toNat (fun s => s.cisCfgWrite m v.toNat))

/-! ## The label (R371) -/

/-- Does a block hold a valid label. -/
def labelValid (b : List Byte) : Bool := field b 0 4 = 0x4B434C31 && field b 4 4 = 1

/-- Life-cycle changes so far: each one destroyed the cistern root key. -/
def State.keyGeneration (s : State) : Nat := (s.bt.fuses.lc.filter (fun r => r.applied)).length

/-- SERIAL of the module's identity. -/
def Module.serial (x : Module) : Nat := field x.ident 0x10 16

/-- CHECK of a label under this device's keys. -/
def State.checkOf (s : State) (x : Module) (epoch : Nat) : List Byte :=
  (List.range 16).map (Config.labelCheck epoch s.keyGeneration x.serial)

def State.labelOurs (s : State) (x : Module) : Bool :=
  (x.label.drop 8).take 16 = (List.range 16).map Config.deviceTag &&
    (x.label.drop 0x20).take 16 = s.checkOf x (field x.label 0x18 4)

/-- A label for a key epoch. -/
def State.newLabel (s : State) (x : Module) (epoch : Nat) : List Byte :=
  let b := layout 4096 [(0, 4, 0x4B434C31), (4, 4, 1), (0x18, 4, epoch)]
  b.take 8 ++ (List.range 16).map Config.deviceTag ++ (b.drop 0x18).take 8 ++ s.checkOf x epoch ++ b.drop 0x30

/-- The module leaves DISCOVERING. -/
def State.cisAttached (s : State) (m : Nat) (x : Module) (st : Nat) : State :=
  (s.setModule m { x with st := st }).setInt F.CIS_INT_STATUS.ATTACHED m

/-- The scan of the catalogue goes on with a block, or has ended: CIS_CAT_HEAD is one more than the highest valid SEQ
(R373). -/
def State.cisScan (s : State) (m block : Nat) : State :=
  let x := s.module m
  if block < 1048576 ∧ block < s.cnt C.CIS_CAPACITY m then s.cisRead m block (.scan block)
  else
    (s.setCnt C.CIS_CAT_HEAD (x.cat.foldl (fun n r => Nat.max n r.seq) 0 + 1) m).cisAttached m x 4

/-- Identity and label are in hand: the module is BLANK, FOREIGN, or its catalogue is scanned. -/
def State.cisKnown (s : State) (m : Nat) : State :=
  let x := s.module m
  if x.st ≠ 1 ∨ x.ident = [] ∨ x.label = [] then s
  else if !labelValid x.label then s.cisAttached m x 2
  else if !s.labelOurs x then s.cisAttached m x 3
  else (s.setModule m { x with epoch := field x.label 0x18 4, cat := [] }).cisScan m 1

/-! ## Operations (R372, R378) -/

/-- An operation completes. -/
def State.cisOpDone (s : State) (m result : Nat) : State :=
  ((s.setFld F.CIS_OP_STATUS.BUSY 0 m).setFld F.CIS_OP_STATUS.RESULT result m).setInt F.CIS_INT_STATUS.OP_DONE m

/-- The part of the whole-module trim from a block on, and then the new label. -/
def State.formatFrom (s : State) (m block : Nat) : State :=
  let cap := s.cnt C.CIS_CAPACITY m
  if block < cap then
    let n := Nat.min 65535 (cap - block)
    s.cisTrim m block n (.formatTrim (block + n))
  else
    let x := s.module m
    let e := if labelValid x.label then (field x.label 0x18 4 + 1) % 2 ^ 32 else 1
    let b := s.newLabel x e
    (s.setModule m { x with label := b }).cisWrite m 0 b .formatLabel

/-- FORMAT completes: READY with an empty catalogue. -/
def State.formatEnd (s : State) (m : Nat) : State :=
  let x := s.module m
  let s := s.setModule m { x with st := 4, epoch := field x.label 0x18 4, cat := [] }
  (s.setCnt C.CIS_CAT_HEAD 1 m).cisOpDone m 0

/-- Does the COVER of an unretired lineage record name a commit record on the module; of a SEQ. -/
def State.coverOn (s : State) (m : Nat) : Bool :=
  s.cq.lineage.any (fun r => !r.retired && r.slots.any (fun x => x.cover ≠ 0 && cisModule x.cover = m))
def State.coverOf (s : State) (m seq : Nat) : Bool :=
  s.cq.lineage.any (fun r => !r.retired && r.slots.any (fun x => x.cover = commitAddr m seq))

/-- Does an accepted and unpublished command name a block of a range. -/
def State.blocksNamed (s : State) (m block n : Nat) : Bool :=
  s.cq.cmds.any (fun c => (s.usesOf c.rec_ ++ c.descs).any (fun u =>
    u.range.1 = 3 && cisModule u.range.2.1 = m &&
      decide (cisBlock u.range.2.1 < block + n) &&
      decide (block < cisBlock u.range.2.1 + ceilDiv u.range.2.2 4096)))

/-- A write of CIS_GO: ignored while BUSY; tests in the order of the result codes (log 39). -/
def State.cisGo (s : State) (m : Nat) (op : State → State) : State :=
  if s.fld F.CIS_OP_STATUS.BUSY m = 1 then s else op s

def State.cisFormat (s : State) (m : Nat) : State :=
  let st := (s.module m).st
  if !(st = 2 || st = 3 || st = 4) then s.cisOpDone m 2
  else if s.cisNamed m || s.coverOn m then s.cisOpDone m 4
  else (s.setFld F.CIS_OP_STATUS.BUSY 1 m).formatFrom m 0

def State.relSeq (s : State) (m : Nat) : Nat := s.fld F.CIS_ARG0.VALUE m + s.fld F.CIS_ARG1.VALUE m * 2 ^ 32

def State.cisRelease (s : State) (m : Nat) : State :=
  let n := s.relSeq m
  if (s.module m).st ≠ 4 then s.cisOpDone m 2
  else if !(s.module m).cat.any (fun r => r.seq = n) then s.cisOpDone m 3
  else if s.blocksNamed m (catBlock n) 1 || s.coverOf m n then s.cisOpDone m 4
  else (s.setFld F.CIS_OP_STATUS.BUSY 1 m).cisTrim m (catBlock n) 1 (.releaseTrim n)

def State.cisTrimOp (s : State) (m : Nat) : State :=
  let b := s.fld F.CIS_ARG0.VALUE m + s.fld F.CIS_ARG1.VALUE m % 8 * 2 ^ 32
  let n := s.fld F.CIS_ARG2.BLOCKS m
  if (s.module m).st ≠ 4 then s.cisOpDone m 2
  else if n = 0 ∨ b < 2 ^ 20 ∨ s.cnt C.CIS_CAPACITY m < b + n then s.cisOpDone m 3
  else if s.blocksNamed m b n then s.cisOpDone m 4
  else (s.setFld F.CIS_OP_STATUS.BUSY 1 m).cisTrim m b n .trim

/-- A row of an operation acts when CIS_OP.OP holds its code. -/
def State.cisRow (s : State) (r : Requester) (m code : Nat) (op : State → State) : State :=
  if s.fld F.CIS_OP.OP m = code then s.opWrite r 0x22 m 0x11C 1 (fun s => s.cisGo m op) else s

def execFormat (r : Requester) (m : Fin 16) (s : State) : Host.Outcome State Fault Refusal :=
  .next (s.cisRow r m 1 (fun s => s.cisFormat m))
def execRelease (r : Requester) (m : Fin 16) (s : State) : Host.Outcome State Fault Refusal :=
  .next (s.cisRow r m 2 (fun s => s.cisRelease m))
def execTrim (r : Requester) (m : Fin 16) (s : State) : Host.Outcome State Fault Refusal :=
  .next (s.cisRow r m 3 (fun s => s.cisTrimOp m))

/-! ## Commits (R374) -/

/-- The next command that waits for the module's catalogue begins its commit sequence. -/
def State.cisNextCommit (s : State) (m : Nat) : State :=
  match s.cq.cmds.find? (fun c => c.stage == Stage.running && (c.kind == .run || c.kind == .move || c.kind == .checkpoint) &&
      (match c.work.list with
       | i :: _ => (match c.descs[i]? with | some d => decide (cisModule d.store = m) | none => false)
       | [] => false)) with
  | some c => s.commitNext c
  | none => s

/-- The output whose commit is under way, its first block, and its stored length. -/
def Cmd.committing (c : Cmd) : Option (Nat × DescUse × Nat) :=
  match c.work.list with
  | i :: _ => (match c.descs[i]? with
    | some d =>
      let e := descOf d.img
      some (i, d, if e.compress = 0 ∨ c.kind = .run then e.allocLen else 2 * c.result)
    | none => none)
  | [] => none

/-- The data blocks written one after the other, then the first flush. -/
def State.commitData (s : State) (c : Cmd) (m sent : Nat) : State :=
  match c.committing with
  | none => s
  | some (_, d, len) =>
    if sent < ceilDiv len 4096 then
      let b := cisBlock d.store + sent
      s.cisWrite m b ((c.block? m b).getD (List.replicate 4096 0)) (.data c.q c.seq (sent + 1))
    else s.cisFlush m (.flush1 c.q c.seq)

/-- The descriptor of an output as it will be published, its commit record named by LINEAGE. -/
def State.commitDesc (s : State) (c : Cmd) (i a : Nat) : List Byte :=
  let c' := { c with work := { c.work with ran := c.work.ran ++ [(i, a)] } }
  let addr := match c.descs[i]? with | some d => d.addr | none => 0
  match (s.slotsOf c' 0).find? (fun x => x.out && (c.kind = .move || x.desc = addr)) with
  | some x => x.img
  | none => []

/-- Step 4: the commit record. -/
def State.commitRecord (s : State) (c : Cmd) (m : Nat) : State :=
  match c.committing with
  | none => s
  | some (i, d, len) =>
    let n := s.cnt C.CIS_CAT_HEAD m
    let rec_ := commitBlock n (s.commitDesc c i (commitAddr m n)) (cisBlock d.store) (ceilDiv len 4096) (c.blockBytes d.store len)
    s.cisWrite m (catBlock n) rec_ (.commit c.q c.seq)

/-- Step 5: CIS_CAT_HEAD advances, and the command's next output follows. -/
def State.commitEnd (s : State) (c : Cmd) (m : Nat) : State :=
  match c.committing with
  | none => s
  | some (i, d, len) =>
    let n := s.cnt C.CIS_CAT_HEAD m
    let x := s.module m
    let r : CatRec :=
      { seq := n, desc := s.commitDesc c i (commitAddr m n), first := cisBlock d.store, blocks := ceilDiv len 4096 }
    let s := s.setModule m { x with cat := x.cat.filter (fun e => catBlock e.seq ≠ catBlock n) ++ [r] }
    let s := (s.setCnt C.CIS_CAT_HEAD (n + 1) m).addCnt C.CIS_CNT_COMMITS 1 m
    let c := { c with work := { c.work with list := c.work.list.drop 1, ran := c.work.ran ++ [(i, commitAddr m n)] } }
    let s := (s.setCmd c).commitNext c
    if (s.module m).committing then s else s.cisNextCommit m

/-- Step 1's answer: a valid record in the block ends the command with CAT_FULL. -/
def State.catChecked (s : State) (c : Cmd) (m block : Nat) (b : List Byte) : State :=
  if (commitOf block b).isSome then
    let s := (s.setInt F.CIS_INT_STATUS.CAT_FULL m).raise 0x2204 0 m 0 c.ctx c.q c.seq
    (s.noEffect c 0x12).cisNextCommit m
  else s.commitData c m 0

/-! ## Answers -/

/-- The request with a tag, taken off the outstanding ones. -/
def State.takeReq (s : State) (m tag : Nat) : Option (CisFor × State) :=
  let x := s.module m
  match x.reqs.find? (fun r => r.tag = tag) with
  | none => none
  | some r => some (r.what, s.setModule m { x with reqs := x.reqs.erase r })

/-- A C_READ answered MEDIA: counted, reported red (R375). -/
def State.cisMedia (s : State) (m : Nat) (c : Option Cmd) : State :=
  (s.addCnt C.CIS_CNT_MEDIA 1 m).raise 0x2201 2 m 0 (c.elim 0xFFFF (·.ctx)) (c.elim 0xFFFF (·.q)) (c.elim 0 (·.seq))

/-- A command's work goes on once its inputs are in hand. -/
def State.inputArrived (s : State) (c : Cmd) : State :=
  let s := s.readCisterns c
  match c.kind with
  | .move | .checkpoint => s.moveWork c
  | .open_ | .fork | .prune => if c.inputsHere then s.whWork c else s
  | _ => s

/-- The command that a request is for. -/
def State.reqCmd (s : State) (w : CisFor) : Option Cmd :=
  match w with
  | .read q n _ | .catCheck q n | .data q n _ | .flush1 q n | .commit q n | .flush2 q n =>
    (s.cmd? q n).bind (fun c => if c.stage == Stage.running then some c else none)
  | _ => none

/-- A C_DATA answer; one for an unknown tag is dropped. -/
def State.cData (s : State) (m tag status : Nat) (data : List Byte) : State :=
  match s.takeReq m tag with
  | none => s
  | some (w, s) =>
    let c := s.reqCmd w
    let s := if w = .ident then s else (s.addCnt C.CIS_CNT_READ 1 m).addSlot 0x22 m 0 data.length
    let s := if status = 5 then s.cisMedia m c else s
    let x := s.module m
    let plain (b : Nat) : List Byte := cipherIn x.epoch b data
    let s := match w with
      | .ident =>
        let s := s.setModule m { x with ident := data, worn := bit (field data 0x25 1) 1 }
        if x.clearing then s else (s.setCnt C.CIS_CAPACITY (field data 8 8) m).cisKnown m
      | .label =>
        let s := s.setModule m { x with label := if status = 0 then data else List.replicate 4096 0 }
        if x.clearing then s else s.cisKnown m
      | .scan b =>
        let found := match (if status = 0 then commitOf b (plain b) else none) with | some r => [r] | none => []
        let s := s.setModule m { x with cat := x.cat ++ found }
        if x.clearing then s else s.cisScan m (b + 1)
      | .read _ _ b => (match c with
        | none => s
        | some c =>
          if status ≠ 0 then s.lostInput c
          else
            let c := { c with data := c.data ++ [(m, b, plain b)] }
            (s.setCmd c).inputArrived c)
      | .catCheck _ _ => (match c with
        | none => s
        | some c =>
          if status ≠ 0 then (s.lostInput c).cisNextCommit m
          else let b := catBlock (s.cnt C.CIS_CAT_HEAD m); s.catChecked c m b (plain b))
      | _ => s
    s.cisDrained m

/-- An answer WORN: the module accepts reads only from now on (R375). -/
def State.cisWorn (s : State) (m : Nat) : State :=
  (s.setModule m { s.module m with worn := true }).raise 0x2202 1 m

/-- A C_CMP answer: what it completes goes on. A write answered WORN leaves its commit sequence at that step
(log 40). -/
def State.cCmp (s : State) (m tag status : Nat) : State :=
  match s.takeReq m tag with
  | none => s
  | some (w, s) =>
    let c := s.reqCmd w
    let s := if status = 6 then s.cisWorn m else s
    let s :=
      if status ≠ 0 then
        (match w with
         | .formatTrim _ | .formatLabel | .releaseTrim _ | .trim => s.cisOpDone m 2
         | _ => s)
      else match w, c with
      | .data _ _ k, some c => s.commitData c m k
      | .flush1 _ _, some c => s.commitRecord c m
      | .commit _ _, some c => s.cisFlush m (.flush2 c.q c.seq)
      | .flush2 _ _, some c => s.commitEnd c m
      | .formatTrim k, _ => s.formatFrom m k
      | .formatLabel, _ => s.formatEnd m
      | .releaseTrim n, _ =>
        let x := s.module m
        (s.setModule m { x with cat := x.cat.filter (fun r => r.seq ≠ n) }).cisOpDone m 0
      | .trim, _ => s.cisOpDone m 0
      | _, _ => s
    s.cisDrained m

/-! ## The port fails (R366, R368) -/

/-- A READY module whose port fails goes OFFLINE: its outstanding requests are lost, an operation in progress completes with
STATE, and the commands that wait for an answer, or write to it, begin again in WAIT_CISTERN (log 41). -/
def State.cisOffline (s : State) (m : Nat) : State :=
  let x := s.module m
  if x.st ≠ 4 then s
  else
    let hit (c : Cmd) : Bool := c.stage == Stage.running &&
      (x.reqs.any (fun r => r.what.of c.q c.seq) || c.descs.any (fun u => u.out && u.range.1 = 3 && cisModule u.store = m))
    let s := (s.setModule m { x with st := 5, reqs := [] }).setInt F.CIS_INT_STATUS.OFFLINE m
    let s := s.raise 0x2203 1 m
    let s := if s.fld F.CIS_OP_STATUS.BUSY m = 1 then s.cisOpDone m 2 else s
    s.cq.cmds.foldl
      (fun s c => if hit c then
          (match (s.discard c).cmd? c.q c.seq with
           | some d => (s.discard c).holdCmd d .cistern
           | none => s)
        else s) s

end Sys2Proof.Machine
end

