-- ==== Sys2Proof/Machine/Power.lean ====
section
/-! DEFINITION. References and PLLs, the power controller, die temperatures, droop calibration and parking
(12_clocks_power_reset.md R444, R448 to R455; R503 for VIN_LOW). -/

namespace Sys2Proof.Machine

/-- Is the device powered and not stopped for good (R471). -/
def State.powered (s : State) : Bool := s.tm.power ≠ .off && s.tm.power ≠ .halted

/-! ## Clock sources (R444) -/

/-- A reference is lost for more than 1 µs: a black error; after REFCLK1 the time base runs on unsynchronised. -/
def State.refLost (s : State) (ref : Nat) : State :=
  if !s.powered then s
  else
    let s := if ref = 0 then s.setFld F.CLK_STATUS.REF0_OK 0
      else (s.setFld F.CLK_STATUS.REF1_OK 0).setFld F.CLK_STATUS.TB_UNSYNC 1
    (s.setInt F.CLK_INT_STATUS.REF_LOST).raise 0x0801 3

def execRefLost (ref : Fin 2) (s : State) : Host.Outcome State Fault Refusal := .next (s.refLost ref)

/-- A PLL loses lock: a black error. -/
def State.pllUnlock (s : State) : State :=
  if !s.powered then s
  else ((s.setFld F.CLK_STATUS.PLL_LOCKED 0).setInt F.CLK_INT_STATUS.REF_LOST).raise 0x0802 3

def execPllUnlock (s : State) : Host.Outcome State Fault Refusal := .next s.pllUnlock

/-! ## The operating points (R448, R449, R453) -/

/-- The highest point of a cluster that CLK_CL_MAX and the temperature of its die allow. -/
def State.pointCap (s : State) (cl : Nat) : Nat :=
  Nat.min (Nat.min 26 (s.fld F.CLK_CL_MAX.POINT 0 cl)) (26 - (s.clk cl).throttle)

/-- The clock of a point in MHz. -/
def pointMHz (k : Nat) : Nat := 2000 + 50 * k

/-- A cluster moves towards a point by at most 4 points, at most once in 10 µs (R449). -/
def State.movePoint (s : State) (cl target : Nat) : State :=
  let x := s.clk cl
  let free := match x.changed with | none => true | some t => decide (t + 10000 ≤ s.tm.now)
  if x.point = target ∨ !free then s
  else
    let p := if x.point < target then Nat.min target (x.point + 4) else Nat.max target (x.point - 4)
    let s := (s.setClk cl { x with point := p, changed := some s.tm.now }).addCnt C.CLK_CNT_POINT_CHANGES 1 0 cl
    s.trace { type := 0xA, arg0 := cl, arg1 := p }

/-- The clusters of the device, and those with a layer placed. -/
def allClusters : List Nat := List.range 256
def State.busyClusters (s : State) : List Nat := allClusters.filter (fun c => (s.cluster c).layers ≠ [])

/-- The clock a cluster runs at: none while it is parked. -/
def State.clusterMHz (s : State) (cl : Nat) : Nat := if (s.clk cl).parked then 0 else pointMHz (s.clk cl).point

/-- PWR_STATUS.STATE: MINIMAL in minimal mode; LIMITED while R453 applies; THERMAL while a die holds clusters down. -/
def State.powerState (s : State) (gated : Bool) : State :=
  s.setFld F.PWR_STATUS.STATE
    (if s.tm.power = .minimal then 3 else if gated then 1 else if s.pw.hotAll || s.pw.hotDies ≠ [] then 2 else 0)

/-- The measurements of a recomputation: the input power, its energy over 10 µs, the input voltage, and the mean of the
cluster clocks over the last 100 ms. -/
def State.powerMeasure (s : State) (watts mv : Nat) : State :=
  let e := s.pw.energy + watts
  let sum := allClusters.foldl (fun n c => n + s.clusterMHz c) 0
  let clocks := (sum :: s.pw.clocks).take 10000
  let s : State := { s with pw.energy := e % 100, pw.clocks := clocks }
  let s := ((s.setFld F.PWR_INPUT.WATTS watts).setFld F.PWR_VIN.MV mv).addCnt C.PWR_CNT_ENERGY (e / 100)
  s.setFld F.PWR_MEAN_CLK.MHZ (clocks.foldl (· + ·) 0 / (256 * clocks.length))

/-- The limit that a value of PWR_LIMIT sets (R452). -/
def powerLimit (v : Nat) : Nat := Nat.max 1400 (Nat.min 2400 v)

/-- The mean input power of the last 1 ms that a measurement finds: the device holds it to 2,400 W (R24), and to PWR_LIMIT from
1 ms after the write of it (R452). -/
def State.inputMean (s : State) (watts : Nat) : Nat :=
  Nat.min watts (if s.pw.limitAt + 1000000 ≤ s.tm.now then powerLimit (s.fld F.PWR_LIMIT.WATTS) else 2400)

/-- The highest point at which the mean stays within the limit, 27 where none does: where the mean is above the limit, the
present common point is none of them (R448, R452, R453; log 122). -/
def State.fitWithin (s : State) (watts fit : Nat) : Nat :=
  let now := s.fld F.PWR_STATUS.POINT
  if powerLimit (s.fld F.PWR_LIMIT.WATTS) < watts then (if now = 0 ∨ fit = 27 then 27 else Nat.min fit (now - 1)) else fit

/-- A recomputation, every 10 µs of the time base. `mean` is the mean input power of the last 1 ms and `best` the highest
point at which the controller finds that it stays within PWR_LIMIT, 27 where point 0 does not (R448, R452, R453). The power
controller's held fields come into force (R541). -/
def State.powerRecompute (s : State) (mean mv best : Nat) : State :=
  if !s.powered ∨ s.tm.now % 10000 ≠ 0 then s
  else
    let watts := s.inputMean mean
    let fit := s.fitWithin watts best
    let s := (s.applyField F.PWR_CFG.PARK).applyField F.PWR_CFG.PARK_DELAY
    let gated := fit = 27
    let was := s.fld F.PWR_STATUS.STATE = 1
    let common := if gated then 0 else fit
    let busy := s.busyClusters
    let s : State := { s with pw.limiting := busy.any (fun c => decide (common < s.pointCap c)) }
    let s := if s.tm.power = .active then
        allClusters.foldl (fun s c =>
          if s.domHalted c then s
          else s.movePoint c (if busy.contains c then Nat.min common (s.pointCap c) else 0)) s
      else s
    let s := s.setFld F.PWR_STATUS.POINT common
    let s := (s.powerMeasure watts mv).powerState gated
    if gated ∧ ¬ was then (s.setInt F.PWR_INT_STATUS.LIMITED).raise 0x0901 0 else s

def execPowerRecompute (watts mv : BitVec 16) (fit : Fin 28) (s : State) : Host.Outcome State Fault Refusal :=
  .next (s.powerRecompute watts.toNat mv.toNat fit)

/-- A write of PWR_LIMIT (R452). -/
def State.limitWrite (s : State) (v : Nat) : State :=
  let t := s.setFld F.PWR_LIMIT.WATTS (v % 4096)
  { t with pw.limitAt := s.tm.now }

def execPwrLimitWrite (r : Requester) (v : W32) (s : State) : Host.Outcome State Fault Refusal :=
  .next (s.opWrite r 0x09 0 0x100 v.toNat (fun s => s.limitWrite v.toNat))

/-- 12 V below 11.4 V for 10 µs: an amber error. -/
def State.vinLow (s : State) (mv : Nat) : State :=
  if !s.powered then s
  else ((s.setFld F.PWR_VIN.MV mv).setInt F.PWR_INT_STATUS.VIN_LOW).raise 0x0904 1

def execVinLow (mv : BitVec 16) (s : State) : Host.Outcome State Fault Refusal := .next (s.vinLow mv.toNat)

/-! ## Droop (R450, R451) -/

/-- A droop detector trips: the cluster stretches its clock, by a number of cycles the spec leaves to the supply. -/
def State.droop (s : State) (cl : Nat) : State :=
  if s.tm.power ≠ .active ∨ s.domHalted cl ∨ (s.clk cl).parked then s
  else
    let n := s.draw.1.toNat
    (s.draw.2.addCnt C.CLK_CNT_STRETCH n 0 cl).setInt F.CLK_INT_STATUS.STRETCH

def execDroop (cl : Fin 256) (s : State) : Host.Outcome State Fault Refusal := .next (s.droop cl)

/-- Droop calibration of cluster c begins when the time base modulo 64 ms is c × 250 µs; one that falls during a stop is
skipped (R518). -/
def State.droopCalibration (s : State) (cl : Nat) : State :=
  if s.tm.power ≠ .active ∨ s.stopState ≠ 0 ∨ s.tm.now % 64000000 ≠ cl * 250000 then s
  else s.setCluster cl { s.cluster cl with droopUntil := some (s.tm.now + 2000) }

def execDroopCalibration (cl : Fin 256) (s : State) : Host.Outcome State Fault Refusal := .next (s.droopCalibration cl)

/-- The slot ends, at most 2 µs after it began. -/
def State.droopSlotEnd (s : State) (cl : Nat) : State :=
  let x := s.cluster cl
  match x.droopUntil with
  | none => s
  | some _ => (s.setCluster cl { x with droopUntil := none }).addCnt C.CLK_CNT_DROOP_CAL 1 0 cl

/-- The droop slots that have lasted 2 µs end (R27, R451). -/
def State.droopSlotsOver (s : State) : State :=
  (s.tl.clusters.filter (fun e => match e.2.droopUntil with | some t => decide (t ≤ s.tm.now) | none => false)).foldl
    (fun s e => s.droopSlotEnd e.1) s

def execDroopSlotEnd (cl : Fin 256) (s : State) : Host.Outcome State Fault Refusal := .next (s.droopSlotEnd cl)

/-! ## Die temperatures (R454) -/

def hottest (l : List Byte) : Nat := l.foldl (fun n b => Nat.max n b.toNat) 0
def dieTemp (l : List Byte) (i : Nat) : Nat := (l.getD i 0).toNat

/-- The compute dies that step down: from 100 °C until a reading of 98 °C or below. -/
def State.hotDiesAt (s : State) (compute : List Byte) : List Nat :=
  (List.range 16).filter (fun d =>
    decide (100 ≤ dieTemp compute d) || (s.pw.hotDies.contains d && decide (98 < dieTemp compute d)))

/-- The cap of a cluster after a reading: one point below its present one while its die, or a port die or the control
die, is hot; none otherwise. -/
def State.throttleCluster (s : State) (cl : Nat) : State :=
  let x := s.clk cl
  let hot := s.pw.hotAll || s.pw.hotDies.contains (cl / 16)
  s.setClk cl { x with throttle := if hot then Nat.max x.throttle (26 - (x.point - 1)) else 0 }

/-- The black errors of a reading. -/
def State.overheats (s : State) (compute port : List Byte) (control : Nat) (photonic : List Byte) : State :=
  let s := (compute ++ port ++ [BitVec.ofNat 8 control]).foldl
    (fun s b => if 110 ≤ b.toNat then s.raise 0x0903 3 0 0 0xFFFF 0xFFFF 0 b.toNat else s) s
  (List.range 4).foldl
    (fun s q => if 90 ≤ dieTemp photonic q then s.raise 0x3004 3 (6 * q) q 0xFFFF 0xFFFF 0 (dieTemp photonic q) else s) s

/-- A reading of the die temperatures. -/
def State.dieTemperatureRead (s : State) (compute port : List Byte) (control : Nat) (photonic : List Byte) : State :=
  if !s.powered then s
  else
    let hot := s.hotDiesAt compute
    let all := decide (100 ≤ hottest port) || decide (100 ≤ control)
    let fresh := hot.any (fun d => !s.pw.hotDies.contains d) || (all && !s.pw.hotAll)
    let gated := s.fld F.PWR_STATUS.STATE = 1
    let s : State := { s with
      pw.compute := compute, pw.port := port, pw.control := BitVec.ofNat 8 control, pw.photonic := photonic
      pw.hotDies := hot, pw.hotAll := all }
    let s := ((s.setFld F.PWR_TEMP.COMPUTE (hottest compute)).setFld F.PWR_TEMP.PORT (hottest port)).setFld
      F.PWR_TEMP.CONTROL control
    let s := s.setFld F.PWR_TEMP.PHOTONIC (hottest photonic)
    let s := (List.range 16).foldl (fun s d => s.setFld F.CD_STATUS.TEMP (dieTemp compute d) d) s
    let s := (allClusters.foldl State.throttleCluster s).powerState gated
    let s := if fresh then (s.setInt F.PWR_INT_STATUS.THERMAL).raise 0x0902 1 else s
    (s.overheats compute port control photonic).watchCool

def execDieTemperatureRead (compute port : List Byte) (control : Byte) (photonic : List Byte) (s : State) :
    Host.Outcome State Fault Refusal :=
  .next (s.dieTemperatureRead compute port control.toNat photonic)

/-! ## Parking (R455) -/

/-- PWR_CFG.PARK_DELAY in ns; 0 acts as 1. -/
def State.parkDelay (s : State) : Nat := Nat.max 1 (s.fld F.PWR_CFG.PARK_DELAY) * 10000

/-- An idle cluster parks: its stores keep their contents. -/
def State.park (s : State) (cl : Nat) : State :=
  let x := s.clk cl
  if s.tm.power ≠ .active ∨ s.domHalted cl ∨ s.fld F.PWR_CFG.PARK = 0 ∨ x.parked ∨ (s.cluster cl).layers ≠ [] ∨
      s.tm.now < x.idleSince + s.parkDelay then s
  else (s.setClk cl { x with parked := true }).addCnt C.PWR_CNT_PARKS 1

def execPark (cl : Fin 256) (s : State) : Host.Outcome State Fault Refusal := .next (s.park cl)

end Sys2Proof.Machine
end

