-- ==== Sys2Proof/Machine/Ports.lean ====
section
/-! DEFINITION. The optical ports: lanes, calibration slots, link control messages, port failure and hand-over
(09_optics.md R332 to R347, R361, R367; R336, R575). -/

namespace Sys2Proof.Machine

/-! ## Lanes -/

/-- A lane of a port and direction. -/
def Port.lane (x : Port) (rx : Bool) (w : Nat) : Lane := look {} (if rx then x.rx else x.tx) w

def State.lane (s : State) (p : Nat) (rx : Bool) (w : Nat) : Lane := (s.port p).lane rx w

def Port.setLane (x : Port) (rx : Bool) (w : Nat) (l : Lane) : Port :=
  if rx then { x with rx := put {} x.rx w l } else { x with tx := put {} x.tx w l }

def State.setLane (s : State) (p : Nat) (rx : Bool) (w : Nat) (l : Lane) : State := s.setPort p ((s.port p).setLane rx w l)

/-- UNIT of a lane's errors: the lane, and its direction in bit 3. -/
def laneUnit (rx : Bool) (w : Nat) : Nat := w + 8 * b2n rx

/-- A lane goes DARK and out of the rotation; what it was moved before is kept, and failed lanes stay failed (log 51). -/
def Lane.darken (l : Lane) : Lane := if l.st = .failed then { l with rot := false } else { l with st := .dark, rot := false }

/-- A failed lane returns to DARK with its move count cleared; others stay. -/
def Lane.unfail (l : Lane) : Lane := if l.st = .failed then { l with st := .dark, moves := [] } else l

/-- Every lane of a port, eight in each direction. -/
def Port.mapLanes (x : Port) (f : Lane → Lane) : Port :=
  (List.range 8).foldl (fun x w => (x.setLane false w (f (x.lane false w))).setLane true w (f (x.lane true w))) x

/-! ## Which port carries what -/

def State.livePorts (s : State) : List Nat := (List.range 8).filter (fun p => s.fld F.OP_STATUS.UP p = 1)

/-- The next live KCL port after a port in ascending order, wrapping. -/
def State.nextLive (s : State) (p : Nat) : Option Nat :=
  ((List.range 8).map (fun i => (p + 1 + i) % 8)).find? (fun q => s.fld F.OP_STATUS.UP q = 1)

/-- The logical slots mapped to a port. -/
def State.slotsOn (s : State) (p : Nat) : List Nat := (List.range 8).filter (fun i => s.physPort i = p)

/-- HL_PORTMAP with some logical slots mapped to a port. -/
def State.mapSlots (s : State) (l : List Nat) (q : Nat) : State :=
  s.setFld F.HL_PORTMAP.MAP
    ((List.range 8).foldl (fun n i => n + (if l.contains i then q else s.physPort i) * 2 ^ (3 * i)) 0)

/-- A link control message of CODE, with the bits above it. -/
def State.sendCtrl (s : State) (p code w : Nat) : State := s.emit (.ctrl p code w)

/-- Waiting packets of a port follow what waits at another one. -/
def State.moveTx (s : State) (p q : Nat) (first : List Out) : State :=
  let l := (s.port p).heldTx
  let s := s.setPort p { s.port p with heldTx := [] }
  (s.setPort q { s.port q with heldTx := (s.port q).heldTx ++ first ++ l }).sendPort q

/-! ## Failure and hand-over (R361) -/

/-- Steps 1 and 2: a partly released packet is discarded, and HANDOVER names the port and the last SEQ released in order
from it, on the lowest live port. -/
def State.handoverStart (s : State) (p live : Nat) : State :=
  let x := s.port p
  let s := s.setPort p { x with partialIn := [], partialSince := none, stalled := false, handing := true }
  (s.setFld F.HL_STATUS.HANDOVER 1).sendCtrl live 0x05 (p + (x.rxNext + 4095) % 4096 * 2 ^ 8)

/-- Every KCL port has failed (R336, table "Error codes"). -/
def State.linkDark (s : State) : State :=
  if s.er.darkSince.isSome then s
  else ({ s with er.darkSince := some s.tm.now } : State).raise 0x3104 2

/-- A KCL port that no longer carries flits: its slots move to the next live port, or the link is dark. -/
def State.moveSlots (s : State) (p : Nat) : State :=
  match s.livePorts with
  | [] => s.linkDark
  | q :: _ => s.handoverStart p q

/-- The KCL port of minimal mode: the lowest whose lanes 0 and 1 are LIT in both directions (R342). -/
def State.minimalPort (s : State) : Option Nat :=
  (List.range 8).find? (fun p => s.fld F.OP_STATUS.FAILED p = 0 &&
    (List.range 2).all (fun w => (s.lane p false w).st = .lit && (s.lane p true w).st = .lit))

/-- The link in its minimal form: one port, to which every logical slot and every waiting packet maps. -/
def State.minimalLink (s : State) : State :=
  let m := s.minimalPort
  let s := (List.range 24).foldl (fun s p => s.setFld F.OP_STATUS.UP (b2n (m = some p)) p) s
  match m with
  | none => s
  | some q =>
    let s := s.mapSlots (List.range 8) q
    let s := ((List.range 8).filter (· ≠ q)).foldl (fun s p => s.moveTx p q []) s
    s.sendPort q

/-- A port fails (R361, R367). -/
def State.portFail (s : State) (p : Nat) : State :=
  if s.fld F.OP_STATUS.UP p = 0 then s
  else
    let s := ((s.setFld F.OP_STATUS.UP 0 p).setFld F.OP_STATUS.FAILED 1 p).setInt F.OP_INT_STATUS.PORT_DOWN p
    let s := s.raise 0x3003 1 p
    if 8 ≤ p then s.cisOffline (p - 8)
    else
      let s := s.setInt F.HL_INT_STATUS.PORT_LOST
      if s.tm.power = .minimal then s.minimalLink else s.moveSlots p

def execPortFailed (port : Fin 8) (s : State) : Host.Outcome State Fault Refusal := .next (s.portFail port)

def execCisternPortFailed (port : Fin 24) (s : State) : Host.Outcome State Fault Refusal :=
  .next (if 8 ≤ port.val then s.portFail port else s)

/-- What a replay of packets from a flit on holds: each packet once, whole. -/
def replayOuts : List Flit → List Out
  | [] => []
  | f :: r => match replayOuts r with
    | [] => [f.what]
    | o :: l => if o = f.what then o :: l else f.what :: o :: l

/-- Flits after a SEQ. -/
def flitsAfter (ack : Nat) (l : List Flit) : List Flit := l.filter (fun f => decide ((f.seq + 4095 - ack) % 4096 < 2048))

/-- Step 3: HANDOVER from the partner: every packet of which a flit lies after the SEQ it names is replayed on the new
port, then what waited; step 4: HANDOVER_DONE is sent. -/
def State.handover (s : State) (p lastSeq : Nat) : State :=
  if !(s.port p).handing then s
  else match s.nextLive p with
  | none => s
  | some q =>
    let x := s.port p
    let s := if s.fld F.OP_STATUS.UP p = 1 then s
      else
        let again := flitsAfter lastSeq x.retry
        let s := (s.setPort p { x with retry := [] }).addCnt C.OP_CNT_REPLAY again.length p
        s.moveTx p q (replayOuts again)
    s.sendCtrl q 0x06 p

def execHandover (failed : Fin 8) (lastSeq : BitVec 12) (s : State) : Host.Outcome State Fault Refusal :=
  .next (s.handover failed lastSeq.toNat)

/-- Step 4, HANDOVER_DONE from the partner: the slots are mapped to the new port, or back to a port that rejoins; step 5:
what came in the meantime follows. -/
def State.handoverDone (s : State) (p : Nat) : State :=
  if !(s.port p).handing then s
  else
    let back := s.fld F.OP_STATUS.UP p = 1
    match (if back then some p else s.nextLive p) with
    | none => s
    | some q =>
      let s := s.setPort p { s.port p with handing := false }
      let s := s.mapSlots (if back then [p] else s.slotsOn p) q
      let s := if back then s else s.moveTx p q []
      let s := s.setFld F.HL_STATUS.HANDOVER (b2n ((List.range 8).any (fun i => (s.port i).handing)))
      (s.addCnt C.HL_CNT_HANDOVERS 1).setInt F.HL_INT_STATUS.HANDOVER_DONE

def execHandoverDone (port : Fin 8) (s : State) : Host.Outcome State Fault Refusal := .next (s.handoverDone port)

/-! ## A port comes up -/

/-- May a port carry flits: a KCL port by four lanes in each direction (R361; log 51), a cistern port by one (R367), in
minimal mode the port of R342 alone. -/
def State.portQualifies (s : State) (p : Nat) : Bool :=
  s.fld F.OP_CFG.ENABLE p = 1 &&
    (if s.tm.power = .minimal then s.minimalPort = some p
     else if p < 8 then decide (4 ≤ s.litLanes p false) && decide (4 ≤ s.litLanes p true)
     else s.portLit p)

/-- The route's round trip measured at link-up (R363). -/
def State.measureRtt (s : State) (rtt : Nat) : State :=
  let s := if s.fld F.HL_RTT.NS < rtt then s.setFld F.HL_RTT.NS rtt else s
  if 397 < rtt ∧ s.fld F.HL_STATUS.LONG_ROUTE = 0 then (s.setFld F.HL_STATUS.LONG_ROUTE 1).raise 0x3106 0 else s

/-- Credit granted to the partner: slots of a class (R347). -/
def State.grantCredit (s : State) (p cls n : Nat) : State := s.sendCtrl p 0x01 (cls + n * 2 ^ 24)

/-- A port carries flits: credit is granted (the least that R347 allows; log 51), and on the host link the hand-over of
slots whose port failed while no port was live begins (R361). -/
def State.portUp (s : State) (p rtt : Nat) : State :=
  let s := ((s.setFld F.OP_STATUS.UP 1 p).setFld F.OP_STATUS.FAILED 0 p).setInt F.OP_INT_STATUS.PORT_UP p
  let s := s.setPort p { s.port p with everUp := true }
  let s := if 8 ≤ p then (s.grantCredit p 1 8192).cisAttach (p - 8)
    else
      let s : State := ({ s with er.darkSince := none } : State).measureRtt rtt
      let s := ((s.grantCredit p 0 4096).grantCredit p 1 8192).grantCredit p 2 1024
      if s.tm.power = .minimal then s.minimalLink
      else ((List.range 8).filter (fun q => q ≠ p && s.fld F.OP_STATUS.UP q = 0 && (s.port q).everUp &&
          !(s.slotsOn q).isEmpty && !(s.port q).handing)).foldl (fun s q => s.handoverStart q p) s
  s.sendPort p

/-- A port comes up when it first qualifies. -/
def State.portCheck (s : State) (p rtt : Nat) : State :=
  if s.fld F.OP_STATUS.UP p = 0 ∧ s.portQualifies p then s.portUp p rtt else s

/-! ## Lane states (R337) -/

/-- Is a lane of a port in use: every lane, and in minimal mode lanes 0 and 1 of the KCL ports. -/
def State.laneUsed (s : State) (p w : Nat) : Bool := s.powered && (s.tm.power != .minimal || (decide (p < 8) && decide (w < 2)))

/-- DARK to DIM: the port is enabled, light is at the lane's input and, on the receive side, the partner's light. -/
def State.laneTrain (s : State) (p : Nat) (rx : Bool) (w : Nat) (partner : Bool) : State :=
  let l := s.lane p rx w
  if s.laneUsed p w ∧ s.fld F.OP_CFG.ENABLE p = 1 ∧ l.st = .dark ∧ (!rx || partner) then
    s.setLane p rx w { st := .dim, since := s.tm.now, light := true }
  else s

def execLaneTrain (port : Fin 24) (rx : Bool) (lane : Fin 8) (partnerLight : Bool) (s : State) :
    Host.Outcome State Fault Refusal := .next (s.laneTrain port rx lane partnerLight)

/-- DIM to LIT after 1 ms: LANE_ADD is sent, naming the codeword at which the lane enters (log 13). -/
def State.laneLock (s : State) (p : Nat) (rx : Bool) (w rtt : Nat) : State :=
  let l := s.lane p rx w
  if l.st = .dim ∧ l.since + 1000000 ≤ s.tm.now ∧ s.laneUsed p w then
    let s := (s.setLane p rx w { l with st := .lit, since := s.tm.now, rot := true }).setInt F.OP_INT_STATUS.LANE_UP p
    let cw := s.draw.1.toNat % 256
    (s.draw.2.sendCtrl p 0x03 (laneUnit rx w + cw * 2 ^ 8)).portCheck p rtt
  else s

def execLaneLock (port : Fin 24) (rx : Bool) (lane : Fin 8) (rtt : BitVec 16) (s : State) :
    Host.Outcome State Fault Refusal := .next (s.laneLock port rx lane rtt.toNat)

/-- DIM with no lock within 50 ms: DARK and failed. -/
def State.lockTimeout (s : State) (p : Nat) (rx : Bool) (w : Nat) : State :=
  let l := s.lane p rx w
  if l.st = .dim ∧ l.since + 50000000 ≤ s.tm.now then
    (s.setLane p rx w { l with st := .failed }).raise 0x3001 1 p (laneUnit rx w)
  else s

def execLockTimeout (port : Fin 24) (rx : Bool) (lane : Fin 8) (s : State) : Host.Outcome State Fault Refusal :=
  .next (s.lockTimeout port rx lane)

/-- A lane leaves LIT: to DIM, or DARK and failed on its third move within 1 s. -/
def State.laneDown (s : State) (p : Nat) (rx : Bool) (w : Nat) : State :=
  let l := s.lane p rx w
  if l.st = .lit then
    let moves := l.moves.filter (fun t => decide (s.tm.now < t + 1000000000)) ++ [s.tm.now]
    let third := decide (3 ≤ moves.length)
    let s := s.setLane p rx w
      { l with st := if third then .failed else .dim, since := s.tm.now, moves := moves, rot := false }
    let s := (s.setInt F.OP_INT_STATUS.LANE_DOWN p).sendCtrl p 0x04 (laneUnit rx w)
    s.raise (if third then 0x3001 else 0x3002) 1 p (laneUnit rx w)
  else s

def execLaneDown (port : Fin 24) (rx : Bool) (lane : Fin 8) (s : State) : Host.Outcome State Fault Refusal :=
  .next (s.laneDown port rx lane)

/-- A lane goes DARK, which sets LANE_DOWN where it was LIT. -/
def State.laneDark (s : State) (p : Nat) (rx : Bool) (w : Nat) (light : Bool) : State :=
  let l := s.lane p rx w
  let s := s.setLane p rx w { l.darken with light := light }
  if l.st = .lit then s.setInt F.OP_INT_STATUS.LANE_DOWN p else s

def execLightLost (port : Fin 24) (rx : Bool) (lane : Fin 8) (s : State) : Host.Outcome State Fault Refusal :=
  .next (s.laneDark port rx lane false)

/-- Loss of a laser module: the transmit lanes of its eight ports lose their light, and every port of the group that
carried flits fails (R20, R336). -/
def State.laserLoss (s : State) (m : Nat) : State :=
  let ps := (List.range 8).map (m * 8 + ·)
  let s := ps.foldl (fun s p => (List.range 8).foldl (fun s w => s.laneDark p false w false) s) s
  ps.foldl State.portFail s

def execLaserModuleLoss (m : Fin 3) (s : State) : Host.Outcome State Fault Refusal := .next (s.laserLoss m)

/-- LINK_DARK unbroken for 10 s becomes LINK_LOST. -/
def State.linkLost (s : State) : State :=
  match s.er.darkSince with
  | some t =>
    if t + 10000000000 ≤ s.tm.now then ({ s with er.darkSince := none } : State).raise 0x3105 3 else s
  | none => s

def execLinkLost (s : State) : Host.Outcome State Fault Refusal := .next s.linkLost

/-! ## The port's registers -/

/-- A port is enabled: the phase of its codeword clock is set (R339; log 13), and failed lanes return to DARK. -/
def State.portEnable (s : State) (p : Nat) : State :=
  let d := s.draw
  let s := d.2.setFld F.OP_CFG.ENABLE 1 p
  s.setPort p { (s.port p).mapLanes Lane.unfail with everUp := false, phase := d.1.toNat % 256 }

/-- A port is disabled: its lanes go DARK; slots move as in a hand-over, a module goes OFFLINE (R575). -/
def State.portDisable (s : State) (p : Nat) : State :=
  let up := s.fld F.OP_STATUS.UP p = 1
  let s := (s.setFld F.OP_CFG.ENABLE 0 p).setFld F.OP_STATUS.UP 0 p
  let s := (List.range 8).foldl (fun s w => (s.laneDark p false w (s.lane p false w).light).laneDark p true w false) s
  let s := s.setPort p { s.port p with everUp := false }
  if !up then s
  else if 8 ≤ p then s.cisOffline (p - 8)
  else if s.tm.power = .minimal then s.minimalLink
  else s.moveSlots p

/-- A write of OP_CFG (R575). -/
def State.opCfgWrite (s : State) (p v : Nat) : State :=
  let en := s.fld F.OP_CFG.ENABLE p
  if v % 2 = en then s
  else if v % 2 = 1 then s.portEnable p
  else if s.livePorts = [p] then s.reject 0x30 p
  else s.portDisable p

/-- OP_CTRL.RESET_LANES. -/
def State.resetLanes (s : State) (p : Nat) : State := s.setPort p ((s.port p).mapLanes Lane.unfail)

/-- OP_CTRL.REJOIN: the slot of a KCL port that is lit again returns to it by a hand-over. -/
def State.rejoin (s : State) (p : Nat) : State :=
  match s.livePorts with
  | [] => s
  | q :: _ =>
    if p < 8 ∧ s.fld F.OP_STATUS.UP p = 1 ∧ !(s.port p).handing ∧ s.tm.power ≠ .minimal ∧ s.physPort p ≠ p
    then s.handoverStart p q else s

/-- A write of OP_CTRL. -/
def State.opCtrlWrite (s : State) (p v : Nat) : State :=
  let s := if bit v 0 then s.resetLanes p else s
  if bit v 1 then s.rejoin p else s

def execResetLanes (r : Requester) (port : Fin 24) (s : State) : Host.Outcome State Fault Refusal :=
  .next (s.opWrite r 0x30 port 0x114 1 (fun s => s.opCtrlWrite port 1))

def execRejoin (r : Requester) (port : Fin 24) (s : State) : Host.Outcome State Fault Refusal :=
  .next (s.opWrite r 0x30 port 0x114 2 (fun s => s.opCtrlWrite port 2))

/-! ## Calibration slots (R339 to R341) -/

/-- The next time at or after `t` at which the time base modulo 1 ms reaches p * 40 µs. -/
def slotTime (p t : Nat) : Nat := t + (p * 40000 + 1000000 - t % 1000000) % 1000000

/-- A slot begins at the first codeword boundary after its time: within 51.2 ns of it. -/
def State.slotBegin (s : State) (p : Nat) : State :=
  if s.powered ∧ s.fld F.OP_CFG.ENABLE p = 1 ∧ (s.port p).slotUntil.isNone ∧ slotTime p (s.tm.now - 52) ≤ s.tm.now ∧ 52 ≤ s.tm.now
  then (s.setPort p { s.port p with slotUntil := some (s.tm.now + 1996), announced := none }).setFld F.OP_STATUS.IN_SLOT 1 p
  else s

def execCalibrationSlot (port : Fin 24) (s : State) : Host.Outcome State Fault Refusal := .next (s.slotBegin port)

/-- After 39 codewords, 1,996.8 ns, the traffic held resumes in order. -/
def State.slotEnd (s : State) (p : Nat) : State :=
  match (s.port p).slotUntil with
  | some t =>
    if t < s.tm.now then
      let s := s.setPort p { s.port p with slotUntil := none }
      ((s.setFld F.OP_STATUS.IN_SLOT 0 p).addCnt C.OP_CNT_SLOTS 1 p).sendPort p
    else s
  | none => s

/-- The calibration slots whose 39 codewords are over end (R27, R339). -/
def State.portSlotsOver (s : State) : State := (s.op.ports.map (·.1)).foldl State.slotEnd s

def execSlotEnd (port : Fin 24) (s : State) : Host.Outcome State Fault Refusal := .next (s.slotEnd port)

/-- SLOT_ANNOUNCE, once for a slot and at least 16 codewords, 819.2 ns, ahead of it; the CWSEQ of lane 0 at which it
begins is free (log 13). -/
def State.slotAnnounce (s : State) (p : Nat) : State :=
  let t := slotTime p s.tm.now
  if s.fld F.OP_STATUS.UP p = 1 ∧ (s.port p).announced.isNone ∧ (s.port p).slotUntil.isNone ∧ s.tm.now + 820 ≤ t then
    let d := s.draw
    let s := d.2
    (s.setPort p { s.port p with announced := some t }).sendCtrl p 0x02 (d.1.toNat % 256)
  else s

def execSlotAnnounce (port : Fin 24) (s : State) : Host.Outcome State Fault Refusal := .next (s.slotAnnounce port)

/-! ## Link control messages (R343 to R347) -/

/-- ACK: every flit up to the SEQ named is no longer kept for replay. -/
def State.ackIn (s : State) (p ack : Nat) : State :=
  (s.setPort p { s.port p with retry := flitsAfter ack (s.port p).retry }).sendPort p

def execAck (port : Fin 24) (ack : BitVec 12) (s : State) : Host.Outcome State Fault Refusal :=
  .next (s.ackIn port ack.toNat)

/-- NAK: every flit after the SEQ named is replayed in order (R344). -/
def State.nakIn (s : State) (p ack : Nat) : State :=
  let s := s.ackIn p ack
  let l := (s.port p).retry
  let s := l.foldl (fun s f => s.emit (.replay p f.seq)) s
  (s.addCnt C.OP_CNT_REPLAY l.length p).addSlot 0x30 p 1 (128 * l.length)

def execNak (port : Fin 24) (ack : BitVec 12) (s : State) : Host.Outcome State Fault Refusal :=
  .next (s.nakIn port ack.toNat)

/-- CREDIT: slots of a class returned; what waited for credit goes. -/
def State.creditIn (s : State) (p cls n : Nat) : State :=
  let x := s.port p
  (s.setPort p { x with credits := x.credits.set cls (x.credits.getD cls 0 + n) }).sendPort p

def execCredit (port : Fin 24) (cls : Fin 3) (slots : Nat) (s : State) : Host.Outcome State Fault Refusal :=
  .next (s.creditIn port cls slots)

/-- LANE_ADD and LANE_DROP: a lane enters or leaves the flit rotation. -/
def State.laneRotate (s : State) (p : Nat) (rx : Bool) (w : Nat) (on : Bool) : State :=
  let l := s.lane p rx w
  s.setLane p rx w { l with rot := on && l.st == LaneSt.lit }

def execLaneAdd (port : Fin 24) (rx : Bool) (lane : Fin 8) (_cwseq : Byte) (s : State) :
    Host.Outcome State Fault Refusal := .next (s.laneRotate port rx lane true)

def execLaneDrop (port : Fin 24) (rx : Bool) (lane : Fin 8) (s : State) : Host.Outcome State Fault Refusal :=
  .next (s.laneRotate port rx lane false)

end Sys2Proof.Machine
end

