-- ==== Sys2Proof/Machine/Halt.lean ====
section
/-! DEFINITION. The global stop: its triggers, the halting and resuming of the domains and its release (14, "The global
stop"; R516 to R521, R464). -/

namespace Sys2Proof.Machine

/-- The domains (R441). -/
def allDomains : List Nat := List.range 315

/-- The interval that a stop takes out of slice timers, grace periods, stall watches and RECALL timeouts: their starting
times move on by it (R521). -/
def State.stopShift (s : State) (d : Nat) : State :=
  { s with
    sc.ctxs := s.sc.ctxs.map (fun e => (e.1, { e.2 with
      sliceStart := if e.2.st = .running then e.2.sliceStart + d else e.2.sliceStart
      yieldSince := if e.2.st = .yielding then e.2.yieldSince + d else e.2.yieldSince }))
    hl.recalls := s.hl.recalls.map (fun r => { r with at_ := r.at_ + d })
    op.ports := s.op.ports.map (fun e => (e.1, { e.2 with partialSince := e.2.partialSince.map (· + d) })) }

/-- A stop is over at `t`: RUNNING, with the interval from T counted and taken out of the timers (R520, R521). -/
def State.stopOver (s : State) (t : Nat) : State :=
  let d := t - s.st.cut
  let was := s.stopState ≠ 1
  let s := s.setFld F.STOP_STATUS.STATE 0
  let s : State := { s with st.halted := [], st.resumed := [] }
  let s := (s.addCnt C.STOP_CNT_NS d).stopShift d
  if was then s.trace
    { type := 0xE, flags := 2, arg0 := s.fld F.STOP_STATUS.CAUSE, arg1 := s.cnt C.STOP_TARGET } else s

/-- A reset releases the stop; its capture is kept, PARTIAL when it had not finished (R464, R521). -/
def State.stopByReset (s : State) : State :=
  if s.stopState = 0 then s
  else
    let cutShort := s.stopState = 1 || s.stopState = 2
    let s := if cutShort then s.setFld F.STOP_STATUS.PARTIAL 1 else s
    s.stopOver s.tm.now

/-! ## Triggers -/

/-- STOP_CTRL.GO, which the host and management have (R516). -/
def State.goOp (s : State) (r : Requester) : State := if r = .firmware then s else s.takeStop 1

def execGo (r : Requester) (s : State) : Host.Outcome State Fault Refusal :=
  .next (s.opWrite r 0x43 0 0x104 1 (fun s => s.goOp r))

/-! ## Halting -/

/-- Has a domain halted for this stop. -/
def State.domHaltedOnce (s : State) (d : Nat) : Bool := s.st.halted.any (fun h => h.1 == d)

/-- A domain halts at its first edge at or after T. -/
def State.domainHalt (s : State) (d : Nat) : State :=
  if s.stopState = 1 ∧ s.st.cut ≤ s.tm.now ∧ !s.domHaltedOnce d then
    { s with st.halted := s.st.halted ++ [(d, s.tm.now)] }
  else s

def execDomainHalt (d : Fin 315) (s : State) : Host.Outcome State Fault Refusal := .next (s.domainHalt d)

/-- Every halt is acknowledged over the tree, 810 ns after T (table "Global stop"). -/
def State.haltedOp (s : State) : State :=
  if s.stopState = 1 ∧ s.st.cut + 810 ≤ s.tm.now ∧ allDomains.all s.domHaltedOnce then
    let s := ((s.setFld F.STOP_STATUS.STATE 2).addCnt C.STOP_CNT_STOPS 1).setInt F.STOP_INT_STATUS.HALTED
    let s := s.trace { type := 0xE, flags := 1, arg0 := s.fld F.STOP_STATUS.CAUSE, arg1 := s.cnt C.STOP_TARGET }
    s.raise 0x4301 0
  else s

def execHalted (s : State) : Host.Outcome State Fault Refusal := .next s.haltedOp

/-! ## Release -/

/-- STOP_CTRL.RELEASE, while CAPTURED; in any other state it is ignored (R520). -/
def State.stopReleaseOp (s : State) : State :=
  if s.stopState = 3 then (s.setFld F.STOP_STATUS.STATE 4).setCnt C.STOP_TARGET (s.tm.now + s.stopLead) else s

def execStopRelease (r : Requester) (s : State) : Host.Outcome State Fault Refusal :=
  .next (s.opWrite r 0x43 0 0x104 2 State.stopReleaseOp)

/-- A domain resumes at its first edge at or after T₂. -/
def State.domainResume (s : State) (d : Nat) : State :=
  if s.stopState = 4 ∧ s.cnt C.STOP_TARGET ≤ s.tm.now ∧ s.domHaltedOnce d ∧ !s.st.resumed.contains d then
    { s with st.resumed := s.st.resumed ++ [d] } else s

def execDomainResume (d : Fin 315) (s : State) : Host.Outcome State Fault Refusal := .next (s.domainResume d)

/-- RUNNING again, 810 ns after T₂. -/
def State.releasedOp (s : State) : State :=
  if s.stopState = 4 ∧ s.cnt C.STOP_TARGET + 810 ≤ s.tm.now ∧ allDomains.all (fun d => s.st.resumed.contains d) then
    (s.stopOver (s.cnt C.STOP_TARGET)).setInt F.STOP_INT_STATUS.RELEASED
  else s

end Sys2Proof.Machine
end

