-- ==== Sys2Proof/Machine/Queue.lean ====
section
/-! DEFINITION. Doorbells, pushed records, the taking and acceptance of command records, and the QUEUE page's operations
(10_queues.md; R358, R359, R379 to R391, R408, R549 to R551, R580). -/

namespace Sys2Proof.Machine

/-! ## Doorbells and pushes -/

/-- A doorbell discarded (R358). -/
def State.dbDrop (s : State) : State := (s.addCnt C.HL_CNT_DB_DROPPED 1).raise 0x3101 0

/-- The record of a slot is asked for: from the ring cache when it is there, else by an HRD (R31, R359, R382). -/
def State.askRecord (s : State) (n seq : Nat) : State :=
  let q := s.queue n
  match s.hl.ringCache.find? (fun e => e.q == n && e.slot == q.slotOf seq) with
  | some e =>
    let s : State := { s with hl.ringCache := s.hl.ringCache.erase e }
    (s.setQueue n { q with inHand := q.inHand ++ [(seq, e.rec_)], asked := seqAfter seq 1 }).addCnt C.HL_CNT_PUSH_USED 1
  | none =>
    let s := (s.setQueue n { q with asked := seqAfter seq 1 }).addCnt C.HL_CNT_PUSH_MISSED 1
    s.hrd (q.sq + 64 * q.slotOf seq) (.record n seq)

/-- The records of the slots up to the tail are asked for. -/
def State.askUpTo : (fuel : Nat) → State → Nat → State
  | 0, s, _ => s
  | fuel + 1, s, n =>
    let q := s.queue n
    if q.asked = q.tail then s else State.askUpTo fuel (s.askRecord n q.asked) n

/-- A tail taken from a doorbell (R382, R580): one that moves on lets its slots be taken. -/
def State.newTail (s : State) (n tail : Nat) : State :=
  let q := s.queue n
  if seqAhead tail q.oldest ≤ q.size ∧ seqAhead q.tail q.oldest < seqAhead tail q.oldest then
    let s := s.setQueue n { q with tail := tail }
    let s : State := { s with cq.arrivals := s.cq.arrivals ++ [(n, tail)] }
    State.askUpTo q.size s n
  else s

/-- A doorbell packet takes effect (R358): a tail too far ahead of the oldest open slot is discarded (TAIL_OVERRUN). -/
def State.doorbell (s : State) (p : Pkt) : State :=
  let n := p.addr / 16
  let covers := p.addr % 16 = 0 && decide (4 ≤ p.len) && (!p.masked || p.mask % 16 = 15)
  if !covers || !(s.queue n).enabled || decide (4096 ≤ n) then s.dbDrop
  else
    let s := s.applyField F.HL_CFG.PUSH_EN
    let tail := field p.data 0 4
    if (s.queue n).size < seqAhead tail (s.queue n).oldest then
      (s.raise 0x0301 0 0 0 0xFFFF n).setInt F.Q_INT_STATUS.TAIL_OVERRUN
    else (s.addSlot 0x31 0 0 p.len).newTail n tail

/-- A pushed record enters the ring cache, the newest of a slot replacing an older one; the oldest entry goes when 8,192
are held (R359). -/
def State.push (s : State) (p : Pkt) : State :=
  if s.fld F.HL_CFG.PUSH_EN = 1 then
    let kept := s.hl.ringCache.filter (fun e => !(e.q == p.aux && e.slot == p.addr))
    let kept := if kept.length < 8192 then kept else kept.drop 1
    ({ s with hl.ringCache := kept ++ [{ q := p.aux, slot := p.addr, rec_ := p.data }] } : State).addSlot 0x31 0 0 p.len
  else s

/-- A record read from host memory is in hand (R31), when the queue still waits for it. -/
def State.recordArrived (s : State) (n seq : Nat) (data : List Byte) : State :=
  let q := s.queue n
  if q.enabled ∧ seqAhead seq q.next < seqAhead q.asked q.next then
    s.setQueue n { q with inHand := q.inHand ++ [(seq, data)] }
  else s

/-! ## Acceptance (table "Acceptance sequence") -/

/-- The queue's next record, when it is in hand and the queue takes slots (R382, R408, R551). -/
def State.nextRecord (s : State) (n : Nat) : Option (List Byte) :=
  let q := s.queue n
  if q.enabled ∧ ¬ q.returning then (q.inHand.find? (fun e => e.1 == q.next)).map (·.2) else none

/-- Does the engine take this queue's record now: of the queues whose next record is in hand, the one whose doorbell
came first (R382). -/
def State.takesFrom (s : State) (n : Nat) : Bool :=
  match s.cq.arrivals.find? (fun a => (s.nextRecord a.1).isSome) with
  | some a => a.1 == n
  | none => false

/-- The slot is taken: the next slot moves on, and a doorbell whose slots are all taken leaves the order. -/
def State.takeSlot (s : State) (n : Nat) : State :=
  let q := s.queue n
  let nx := seqAfter q.next 1
  let s := s.setQueue n
    { q with position := some (q.oldest, nx), inHand := q.inHand.filter (fun e => e.1 != q.next) }
  { s with cq.arrivals := s.cq.arrivals.filter (fun a => !(a.1 == n && a.2 == nx)) }

/-- A record is refused: its completion record, with ACCEPTED clear, falls due in the queue's order (R390, R391). -/
def State.refuse (s : State) (n seq : Nat) (r : List Byte) (f : Fail) : State :=
  (s.addCnt C.Q_CNT_REFUSED 1).due n
    { seq := seq, tag := recTag r, time := s.tm.now, detail := f.detail, status := f.code
      intr := recIntr r && (s.queue n).intr }

/-- A journal entry (R380). -/
def journalEntry (seq time : Nat) : List Byte := toLE 4 seq ++ toLE 1 1 ++ toLE 3 0 ++ toLE 8 time

/-- A record is accepted (step 4): the journal entry is written by one HWR, and the command is in hand. -/
def State.accept (s : State) (n seq : Nat) (r : List Byte) (k : Kind) : State :=
  let q := s.queue n
  let s := s.hwr (q.jnl + 16 * q.slotOf seq) (journalEntry seq s.tm.now) (.journal n seq)
  let c : Cmd :=
    { q := n, seq := seq, ctx := q.ctx, client := q.client, kind := k, rec_ := r, acceptedAt := s.tm.now
      cflags := if q.again.contains seq then 9 else 1 }
  let s : State := { s with
    cq.cmds := s.cq.cmds ++ [c]
    cq.checked := match s.imageKey r with
      | some i => if s.cq.checked.contains i then s.cq.checked else s.cq.checked ++ [i]
      | none => s.cq.checked }
  let s := s.setQueue n { s.queue n with again := q.again.filter (· ≠ seq) }
  let s := s.addCnt C.Q_CNT_ACCEPTED 1
  let s := s.trace { type := 1, ctx := q.ctx, q := n, seq := seq, arg0 := q.client, arg1 := s.tm.now }
  s.ctxAccept q.ctx

/-- The queue's next record is taken, checked whole, and refused or accepted (R32), when it asks for this kind of
command. A record of a reserved class or operation is taken, and refused, whichever acceptance is asked for. -/
def State.takeRecord (s : State) (n : Nat) (k : Kind) : State :=
  if s.engineRuns ∧ s.takesFrom n then
    match s.nextRecord n with
    | none => s
    | some r =>
      let seq := (s.queue n).next
      match recKind r with
      | none => (s.takeSlot n).refuse n seq r { code := 0x40 }
      | some k' =>
        if k' = k then
          match s.refusal (s.queue n).ctx r with
          | some f => (s.takeSlot n).refuse n seq r f
          | none => (s.takeSlot n).accept n seq r k
        else s
  else s

def execRun (q : Fin 4096) (s : State) : Host.Outcome State Fault Refusal := .next (s.takeRecord q .run)
def execMove (q : Fin 4096) (s : State) : Host.Outcome State Fault Refusal := .next (s.takeRecord q .move)
def execCheckpoint (q : Fin 4096) (s : State) : Host.Outcome State Fault Refusal := .next (s.takeRecord q .checkpoint)
def execReduce (q : Fin 4096) (s : State) : Host.Outcome State Fault Refusal := .next (s.takeRecord q .reduce)
def execBarrier (q : Fin 4096) (s : State) : Host.Outcome State Fault Refusal := .next (s.takeRecord q .barrier)
def execOpenGroup (q : Fin 4096) (s : State) : Host.Outcome State Fault Refusal := .next (s.takeRecord q .open_)
def execStepGroups (q : Fin 4096) (s : State) : Host.Outcome State Fault Refusal := .next (s.takeRecord q .step)
def execFork (q : Fin 4096) (s : State) : Host.Outcome State Fault Refusal := .next (s.takeRecord q .fork)
def execPrune (q : Fin 4096) (s : State) : Host.Outcome State Fault Refusal := .next (s.takeRecord q .prune)
def execClose (q : Fin 4096) (s : State) : Host.Outcome State Fault Refusal := .next (s.takeRecord q .close)

/-! ## The QUEUE page's operations -/

/-- A queue descriptor that ENABLE refuses (R379). -/
def badQueueDesc (b : List Byte) : Bool :=
  field b 0 8 % 4096 ≠ 0 || field b 8 8 % 4096 ≠ 0 || field b 0x10 8 % 4096 ≠ 0 || decide (field b 0x18 1 < 4) ||
    decide (16 < field b 0x18 1) || decide (1 < field b 0x19 1) || decide (1023 < field b 0x1A 2) ||
    decide (4095 < field b 0x1C 2) || decide (2047 < field b 0x1E 2) || field b 0x20 32 ≠ 0

/-- Host memory as the host gives it with an enable: the queue table entry, journal and rings the device reads. -/
def State.hostGives (s : State) (cells : List (Nat × Byte)) : State :=
  { s with hl.hostMem := cells.foldl (fun m c => hostPut m c.1 c.2) s.hl.hostMem }

def State.journalOf (s : State) (q : Queue) (i : Nat) : List Byte := s.hostBytes (q.jnl + 16 * i) 16

/-- The latest SEQ among the journal's entries, in serial-number order (R580); none when every entry is zero. -/
def State.latestSeq (s : State) (q : Queue) : Option Nat :=
  ((List.range q.size).filterMap (fun i =>
    let e := s.journalOf q i
    if allZero e then none else some (field e 0 4))).foldl
      (fun m x => match m with
        | none => some x
        | some y => if seqAhead x y < 2 ^ 31 then some x else some y) none

/-- Is the completion record of a SEQ present in host memory (R580): word 3 carries the SEQ, and COMMIT its low bits. -/
def State.completionPresent (s : State) (q : Queue) (seq : Nat) : Bool :=
  let w := s.hostBytes (q.cqBase + 32 * q.slotOf seq + 24) 8
  field w 0 4 = seq && field w 6 2 % 2 ^ 15 = seq % 2 ^ 15

/-- Is a slot owed a RETURNED record (R408): its journal entry is ACCEPTED for its SEQ, its completion record absent. -/
def State.owed (s : State) (q : Queue) (seq : Nat) : Bool :=
  let e := s.journalOf q (q.slotOf seq)
  field e 0 4 = seq && field e 4 1 = 1 && !s.completionPresent q seq

/-- The slots, from the first, that are owed a RETURNED record, in SEQ order. -/
def State.owedSlots (s : State) (q : Queue) (first n : Nat) : List Nat :=
  ((List.range n).map (fun i => seqAfter first i)).filter (fun x => s.owed q x)

/-- The RETURNED record of a slot (R408): CMD_TAG of the record the ring slot still holds, ACCEPTED. -/
def State.returnedDone (s : State) (q : Queue) (seq : Nat) : Done :=
  { seq := seq, tag := field (s.hostBytes (q.sq + 64 * q.slotOf seq) 64) 0xC 4, flags := 1, status := 0x14
    returned := true }

/-- A queue enabled with its descriptor: its position kept, or taken from host memory (R580), and the RETURNED records
it is owed written first (R408). -/
def State.enableQueue (s : State) (n : Nat) (desc : List Byte) : State :=
  let fresh := (s.queue n).position.isNone || s.tm.power = .minimal
  let q : Queue := { (s.queue n) with
    enabled := true, draining := false, desc := desc, inHand := [], writing := !fresh && (s.queue n).writing }
  let start : (Nat × Nat) × List Nat :=
    match q.position with
    | some p => (p, if s.tm.power = .minimal then s.owedSlots q p.1 (seqAhead p.2 p.1) else [])
    | none => match s.latestSeq q with
      | none => ((0, 0), [])
      | some h =>
        let owed := s.owedSlots q (seqAfter h (2 ^ 32 + 1 - q.size)) q.size
        ((owed.headD (seqAfter h 1), seqAfter h 1), owed)
  let nx := start.1.2
  let old := if fresh then start.2.headD nx else start.1.1
  let s := s.setQueue n
    { q with
      position := some (old, nx), tail := nx, asked := nx
      done := (if fresh then [] else q.done) ++ start.2.map (s.returnedDone q)
      returning := !start.2.isEmpty }
  s.pumpQueue n

/-- The client of a context, fixed by its first enabled queue (R412). -/
def State.clientClash (s : State) (desc : List Byte) : Bool :=
  s.cq.queues.any (fun q => q.2.enabled && q.2.ctx = field desc 0x1C 2 && q.2.client ≠ field desc 0x1A 2)

/-- ENABLE of the selected queue (R550). -/
def State.enableOp (s : State) : State :=
  let n := s.fld F.Q_SEL.QUEUE
  let q := s.queue n
  let desc := s.hostBytes (s.fld F.Q_TABLE_HI.BASE * 2 ^ 32 + s.fld F.Q_TABLE_LO.BASE * 4096 + 64 * n) 64
  let ctx := field desc 0x1C 2
  if q.enabled ∨ q.draining then s.setFld F.Q_OP.RESULT 4
  else if badQueueDesc desc then s.setFld F.Q_OP.RESULT 1
  else if !(s.ctx ctx).exist then s.setFld F.Q_OP.RESULT 2
  else if s.clientClash desc then s.setFld F.Q_OP.RESULT 3
  else
    let x := s.ctx ctx
    let s := s.setCtx ctx { x with client := some (x.client.getD (field desc 0x1A 2)) }
    (s.enableQueue n desc).setFld F.Q_OP.RESULT 0

/-- DISABLE of the selected queue (R551). -/
def State.disableOp (s : State) : State :=
  let n := s.fld F.Q_SEL.QUEUE
  let q := s.queue n
  let s := s.setFld F.Q_OP.RESULT 0
  if q.enabled then
    let s := s.setQueue n
      { q with enabled := false, draining := true, inHand := [], tail := q.next, asked := q.next }
    let s : State := { s with cq.arrivals := s.cq.arrivals.filter (fun a => a.1 != n) }
    s.drainCheck n
  else s

/-- RESET_SEQ of the selected queue (R551): BUSY unless it is neither ENABLED nor DRAINING; else its position goes. -/
def State.resetSeqOp (s : State) : State :=
  let n := s.fld F.Q_SEL.QUEUE
  let q := s.queue n
  if q.enabled ∨ q.draining then s.setFld F.Q_OP.RESULT 4
  else (s.setQueue n { q with position := none, done := [] }).setFld F.Q_OP.RESULT 0

/-- The operation a write of Q_OP starts; 0 is no operation (R574). -/
def State.qOpWrite (s : State) (v : Nat) : State :=
  match v % 4 with
  | 1 => s.enableOp
  | 2 => s.disableOp
  | 3 => s.resetSeqOp
  | _ => s

def execEnable (r : Requester) (host : List (Nat × Byte)) (s : State) : Host.Outcome State Fault Refusal :=
  .next ((s.hostGives host).opWrite r 0x03 0 0x10C 1 State.enableOp)

def execDisable (r : Requester) (s : State) : Host.Outcome State Fault Refusal :=
  .next (s.opWrite r 0x03 0 0x10C 2 State.disableOp)

def execResetSeq (r : Requester) (s : State) : Host.Outcome State Fault Refusal :=
  .next (s.opWrite r 0x03 0 0x10C 3 State.resetSeqOp)

end Sys2Proof.Machine
end

