-- ==== Sys2Proof/Machine/Reset.lean ====
section
/-! DEFINITION. The warm, recovery and per-cluster resets: what they wipe, keep, rebuild and decide (12, "Resets"; R401 to
R404, R434, R460 to R464, R541). What a reset wipes and discards goes at the request (log 45). -/

namespace Sys2Proof.Machine

/-! ## Registers at a reset -/

/-- The parts of a field key. -/
structure KeyParts where
  cls  : Nat
  inst : Nat
  bank : Nat
  off  : Nat
  lo   : Nat

def keyParts (k : Nat) : KeyParts :=
  { cls := k / 64 / 4096 / 4096 / 256, inst := k / 64 / 4096 / 4096 % 256, bank := k / 64 / 4096 % 4096
    off := k / 64 % 4096, lo := k % 64 }

/-- Held boundary-shadowed values of a selection of fields take effect (R541). -/
def State.applyHeld (s : State) (sel : KeyParts → Bool) : State :=
  (s.rg.held.map (·.1)).foldl
    (fun s k =>
      let p := keyParts k
      match (fieldsAt p.cls p.off).find? (fun f => f.lo == p.lo) with
      | some f => if sel p then s.applyField f p.inst p.bank else s
      | none => s) s

/-- Is a key that of a bit of an INT_STATUS register, RST_INT_STATUS apart (R461). -/
def intStatusKey (k : Nat) : Bool :=
  let p := keyParts k
  p.cls ≠ 0x0A && (match intRegs p.cls with | some (st, _) => p.off = st | none => false)

/-- Is a key CORE_STATUS.OFFLINE, CORE_STATUS.TESTING or CORE_TEST.DONE of a core of the clusters selected (R126). -/
def coreTestKey (sel : Nat → Bool) (k : Nat) : Bool :=
  let p := keyParts k
  p.cls = 0x11 && sel p.inst && decide (0x400 ≤ p.off) && decide (p.off < 0xE00) &&
    ((p.off % 64 = 4 && (p.lo = F.CORE_STATUS.OFFLINE.lo || p.lo = F.CORE_STATUS.TESTING.lo)) ||
      (p.off % 64 = 8 && p.lo = F.CORE_TEST.DONE.lo))

/-! ## What is wiped -/

/-- Is a byte of HBM in a tensor-area granule that nobody owns. -/
def State.unowned (s : State) (a : Nat) : Bool :=
  let g := a % 2 ^ 36 / 2 ^ 21
  decide (g < 32256) && look 0xFFFE s.mm.owners (a / 2 ^ 36 * 65536 + g) = 0xFFFE

/-- The wipe of the HBM granules owned by nobody (R460). -/
def State.wipeUnowned (s : State) : State :=
  { s with
    mm.dev := s.mm.dev.filter (fun c => !s.unowned c.1)
    mm.poison := s.mm.poison.filter (fun u => !s.unowned (u * 64)) }

/-- Unowned granules of a stack. -/
def State.unownedIn (s : State) (stack : Nat) : Nat :=
  32256 - (s.mm.owners.filter (fun e => e.1 / 65536 = stack && decide (e.1 % 65536 < 32256))).length

/-- The wipe of the fullest stack at 2.45 TB/s, in ns (R314). -/
def State.wipeNs (s : State) : Nat :=
  ceilDiv ((List.range 12).foldl (fun n i => Nat.max n (s.unownedIn i)) 0 * 2097152) 2450

/-- The wipe of the shared-cache slices: versions homed there are re-derived from lineage, or lost (R401, R406, R407). -/
def State.wipeShared (s : State) : State :=
  let hit := fun (home _ : Nat) => decide (home = 1)
  let vs := (s.loggedVers ++ s.readVers).filter (fun v => v.range.1 = 1)
  let s := vs.foldl (fun s v => s.loseVer hit v) s
  let kept := vs.filter (fun v => !s.mm.lost.contains (v.desc, v.version))
  { s with
    mm.shared := s.mm.shared.filter (fun c => kept.any (fun v =>
      decide (v.range.2.1 ≤ c.1) && decide (c.1 < v.range.2.1 + v.range.2.2)))
    mm.poisonShared := [] }

/-- The cores of a selection of clusters wiped. One that a fault or a failed self-test keeps out of placement stays out until
the self-test that follows passes (R125, R126). -/
def State.wipeCores (s : State) (sel : Nat → Bool) : State :=
  { s with tl.cores := (s.tl.cores.filter (fun e => !sel (e.1 / 40) || (s.core e.1).out)).map (fun e =>
      if sel (e.1 / 40) then (e.1, ({ out := true } : Core)) else e) }

/-- Self-test begins on the cores of a selection of clusters: none is OFFLINE until it fails. -/
def State.testCores (s : State) (sel : Nat → Bool) : State :=
  { s with rg.fields := s.rg.fields.filter (fun e => !coreTestKey sel e.1) }

/-- Wells, core stores and cluster stores, with the work on them. -/
def State.wipeClusters (s : State) : State :=
  let s := (s.wipeCores (fun _ => true)).testCores (fun _ => true)
  { s with tl.clusters := (s.tl.clusters.map (fun e =>
      (e.1, ({ removed := e.2.removed, lastUe := e.2.lastUe } : Cluster)))).filter (fun e => e.2 ≠ {}) }

/-! ## The rebuild (R402) -/

/-- The objects that the current images of every holder list: pages of the sequences and of the branches, and state
blocks. -/
def State.listedObjs (s : State) : List Obj :=
  (s.kv.seqs.flatMap (fun q => if q.2.valid then q.2.image.pages.map Obj.page else [])) ++
  (s.wh.branches.flatMap (fun b => match b.2.block with
    | some k => .block k :: (look {} s.kv.images k).pages.map Obj.page
    | none => [])) ++
  (s.wh.groups.filterMap (fun g => g.2.rootBlock.map Obj.block))

/-- The rebuild's time at one count per cycle at 3.3 GHz, in ns. -/
def State.rebuildNs (s : State) : Nat := ceilDiv (s.listedObjs.length * 10) 33

/-- Counts of a list of objects. -/
def countObjs (l : List Obj) : SMap Nat × SMap Nat :=
  l.foldl (fun m o => match o with
    | .page p => (put 0 m.1 p (look 0 m.1 p + 1), m.2)
    | .block k => (m.1, put 0 m.2 k (look 0 m.2 k + 1))) ([], [])

/-- The counts are recomputed from the current images; a command whose lineage record is written keeps what its
publication needs. The holding list empties; gauges, counters and fences are freed. -/
def State.rebuild (s : State) : State :=
  let s := s.kv.refq.foldl State.applyRef ({ s with kv.refq := [] } : State)
  let kept := s.cq.cmds.filter (fun c => c.stage == Stage.lineage)
  let taken := (kept.flatMap (fun c => c.work.taken)).filter s.objStaged
  let m := countObjs s.listedObjs
  let used := s.pagesUsed.length
  let t : State := { s with
    kv.pgCount := m.1, wh.sbCount := m.2, kv.holding := []
    tl.gauges := [], tl.counters := [], tl.fences := [], tl.traffic := [] }
  let t := kept.foldl (fun t c => c.work.added.foldl (fun t a => t.setObjCount a.1 (t.objCount a.1 + a.2)) t) t
  let t := taken.foldl (fun t o => t.setObjCount o (s.objCount o)) t
  t.addCnt C.KVP_CNT_RETURNED (used - t.pagesUsed.length)

/-! ## Accepted work (R401, R403) -/

/-- A command in hand when a reset is requested: past step 3 it keeps what its publication needs, and its completion
record carries RECOVERED; before that its staging is discarded, and it carries REDERIVED_INPUT where an input it had read
lay in the shared cache. -/
def State.resetCmd (s : State) (c : Cmd) : State :=
  if c.stage == Stage.lineage then
    (s.releaseWork c.q c.seq).setCmd
      { c with gaugeRun := none, counterRun := none, cflags := Nat.lor c.cflags 64 }
  else
    let shared := (inputsOf c.descs).any (fun u => u.range.1 = 1)
    s.discard { c with cflags := if shared then Nat.lor c.cflags 16 else c.cflags, waitsLog := false }

/-- The queues at the request: record words 0 to 2 in flight have no further consequence, records in hand and the ring
cache go. -/
def State.resetQueues (s : State) : State :=
  let last (q seq : Nat) : Bool := s.hl.hwr.any (fun h => h.what = .completionLast q seq || h.what = .returnedLast q seq)
  { s with
    hl.ringCache := []
    hl.hrd := s.hl.hrd.filter (fun h => match h.what with | .record .. => false | .mailbox => true)
    hl.hwr := s.hl.hwr.map (fun h => match h.what with | .completion .. => { h with what := .rewrite } | _ => h)
    cq.queues := s.cq.queues.map (fun e => (e.1, { e.2 with
      inHand := [], asked := e.2.next, writing := e.2.done.any (fun d => last e.1 d.seq) })) }

/-- Queue enables cleared by a warm reset and on entry to minimal mode (R408, R461). -/
def State.clearEnables (s : State) : State :=
  { s with
    cq.arrivals := []
    cq.queues := s.cq.queues.map (fun e => (e.1, { e.2 with
      enabled := false, draining := false, inHand := [], asked := e.2.next, tail := e.2.next })) }

/-- Every context leaves its slot, and the save pool is discarded (R434, R461). -/
def State.resetCtxs (s : State) : State :=
  { s with
    sc.unplaced := []
    sc.ctxs := s.sc.ctxs.map (fun e => (e.1,
      if e.2.exist then
        { e.2 with
          st := if (s.cmdsOf e.1).isEmpty then .absent else .outReady
          slot := none, saved := [], clRecs := [], swapping := false, overran := false, waitSince := s.tm.now }
      else e.2)) }

/-- Grants being zeroed are abandoned: their granules pass to nobody (R464). -/
def State.abandonGrants (s : State) : State :=
  s.mm.granting.foldl
    (fun s g =>
      let cls := if g.page < 16 then 0x21 else 0x20
      let inst := g.page % 16
      (s.setFld (F.OWN_STATUS.BUSY cls) 0 inst).setFld (F.OWN_STATUS.ZEROING cls) 0 inst)
    ({ s with mm.granting := [] } : State)

/-- The block of signature indices held is given up: its unused indices count as abandoned with the next reservation
(R487). -/
def Sign.dropBlock (x : Sign) : Sign := { x with next := none, left := 0, lost := x.lost + x.left }

/-! ## Warm and recovery resets (R462) -/

/-- A warm or recovery reset begins. -/
def State.resetStart (s : State) (recovery : Bool) (cause : Nat) : State :=
  let s := s.stopByReset.applyHeld (fun _ => true)
  let s : State := { s with rg.fields := s.rg.fields.filter (fun e => !intStatusKey e.1) }
  let returns := s.rs.clusters.map (·.1)
  let t := Nat.max (2000 + s.wipeNs) (27200 + s.rebuildNs)
  let s : State := { s with
    tm.power := .resetting
    rs.run := some { recovery := recovery, at_ := s.tm.now, ends := s.tm.now + t + 1000, returns := returns }
    rs.clusters := []
    er.black := none, er.hold := false, er.coolSince := none, er.thermN := true
    bt.sign := s.bt.sign.dropBlock }
  let s := ((s.setFld F.RST_STATUS.IN_PROGRESS 1).setFld F.RST_STATUS.CLUSTER_BUSY 0).setFld F.RST_CAUSE.CAUSE cause
  let s := if recovery then s.setFld F.ERR_STATUS.FORCED (b2n (cause = 4)) else s
  let s := s.resetQueues
  let s := if recovery then s else s.clearEnables
  let s := s.cq.cmds.foldl State.resetCmd s
  let s := s.abandonGrants.wipeClusters.wipeUnowned.wipeShared.rebuild
  let s : State := { s with
    hl.filter := [], hl.recalls := [], mm.window := []
    mm.hbm := s.mm.hbm.map (fun e => (e.1, { e.2 with reads := [] })) }
  allClusters.foldl (fun s c => s.setClk c { s.clk c with point := 26, parked := false }) s.resetCtxs

/-- A request for a warm or recovery reset (R459, R464): taken when ACTIVE; one that meets a running reset is absorbed,
but a warm one makes a recovery reset end as warm. -/
def State.resetRequest (s : State) (recovery : Bool) (cause : Nat) : State :=
  match s.rs.run with
  | some x =>
    if x.recovery && !recovery then ({ s with rs.run := some { x with recovery := false } } : State).clearEnables else s
  | none => if s.tm.power = .active then s.resetStart recovery cause else s

/-- RST_CAUSE of a write by a requester: firmware resets after a black error, or after a cluster fault. -/
def resetCause (r : Requester) (cluster : Bool) : Nat :=
  match r with
  | .host => 1
  | .mgmt => 2
  | .firmware => if cluster then 5 else 3

/-! ## The end of a reset -/

/-- A slot that a queue's table decides for: its journal entry has landed in host memory. -/
def State.landed (s : State) (n seq : Nat) : Bool :=
  s.hl.hwr.all (fun h => h.what ≠ .journal n seq) &&
    ((s.cmd? n seq).isSome || (s.queue n).done.any (fun d => d.seq = seq && (d.acceptedAt.isSome || d.returned)))

/-- Slots from the oldest without a completion record up to the next. -/
def Queue.open_ (q : Queue) : List Nat := (List.range (seqAhead q.next q.oldest)).map (fun i => seqAfter q.oldest i)

/-- The command of an accepted record in the engine's acceptance order. -/
def insertCmd (c : Cmd) : List Cmd → List Cmd
  | [] => [c]
  | d :: l => if c.acceptedAt < d.acceptedAt then c :: d :: l else d :: insertCmd c l

/-- A slot that completed without effect and has no completion record yet is executed again (R403). -/
def State.reexecute (s : State) (n : Nat) (d : Done) : State :=
  match recKind d.rec_, d.acceptedAt with
  | some k, some t =>
    let q := s.queue n
    let c : Cmd := { q := n, seq := d.seq, ctx := q.ctx, client := q.client, kind := k, rec_ := d.rec_, acceptedAt := t, journalled := true, cflags := 9 }
    let s : State := { s with cq.cmds := insertCmd c s.cq.cmds }
    s.setQueue n { q with done := q.done.filter (· ≠ d) }
  | _, _ => s

/-- The slots from the first whose journal entry has not landed are taken afresh. -/
def State.takeAfresh (s : State) (n : Nat) (gone : List Nat) : State :=
  let q := s.queue n
  let begun := gone.filter (fun x => (match s.cmd? n x with | some c => bit c.cflags 3 | none => false) ||
    q.done.any (fun d => d.seq = x && d.acceptedAt.isSome))
  let s := gone.foldl (fun s x => (s.unlockGroups n x).dropCmd n x) s
  let s : State := { s with hl.hwr := s.hl.hwr.map (fun h =>
    if gone.any (fun x => h.what = .journal n x) then { h with what := .rewrite } else h) }
  let nx := gone.headD q.next
  s.setQueue n
    { q with
      position := some (q.oldest, nx), asked := nx, again := q.again ++ begun
      done := q.done.filter (fun d => !gone.contains d.seq) }

/-- The slots of a queue decided (R403), by the table "Reset during a command". -/
def State.decideQueue (s : State) (n : Nat) : State :=
  let q := s.queue n
  if q.position.isNone then s
  else
    let last (x : Nat) : Bool := s.hl.hwr.any (fun h => h.what = .completionLast n x || h.what = .returnedLast n x)
    let gone := q.open_.dropWhile (fun x => last x || s.landed n x)
    let s := if gone = [] then s else s.takeAfresh n gone
    let s : State := { s with cq.cmds := s.cq.cmds.map (fun c =>
      if c.q = n && c.stage == Stage.waiting then { c with cflags := Nat.lor c.cflags 8 } else c) }
    let q := s.queue n
    let s := s.setQueue n { q with done := q.done.map (fun d =>
      if d.status = 0 && !last d.seq then { d with flags := Nat.lor d.flags 64 } else d) }
    (q.done.filter (fun d => d.status ≠ 0 && !d.returned && d.acceptedAt.isSome && !last d.seq)).foldl
      (fun s d => s.reexecute n d) s

/-- Records up to the tail are asked for again in an enabled queue; the completion records due go on. -/
def State.resumeQueue (s : State) (n : Nat) : State :=
  let q := s.queue n
  (if q.enabled then State.askUpTo q.size s n else s).pumpQueue n

/-- A warm or recovery reset is complete (R462): the device is ACTIVE. -/
def State.resetDoneOp (s : State) : State :=
  match s.rs.run with
  | none => s
  | some x =>
    if s.tm.now < x.ends then s
    else
      let ns := (s.cq.queues.map (·.1))
      let black := x.recovery && s.rs.afterBlack
      let s : State := { s with
        rs.run := none, tm.power := .active, rs.afterBlack := false
        rs.blackEnd := if black then some s.tm.now else s.rs.blackEnd }
      let s := allClusters.foldl
        (fun s c => s.setClk c { point := 0, changed := some s.tm.now, idleSince := s.tm.now }) s
      let s := x.returns.foldl State.putBack s
      let s := (s.setFld F.RST_STATUS.IN_PROGRESS 0).setFld F.RST_STATUS.LAST (if x.recovery then 3 else 2)
      let s := (s.addCnt (if x.recovery then C.RST_CNT_RECOVERY else C.RST_CNT_WARM) 1).setCnt C.RST_LAST_NS (s.tm.now - x.at_)
      let s := s.setInt F.RST_INT_STATUS.DONE
      let s := ns.foldl State.decideQueue s
      let s := (s.sc.ctxs.map (·.1)).foldl
        (fun s c => if (s.ctx c).exist && (s.cmdsOf c).isEmpty then s.ctxAbsent c else s) s
      ns.foldl State.resumeQueue s

/-! ## Per-cluster resets (R463) -/

/-- A per-cluster reset is requested: the cluster leaves placement, and its page's held values take effect (R541). -/
def State.clusterResetRequest (s : State) (cl cause : Nat) : State :=
  if s.tm.power ≠ .active ∨ s.rs.clusters.any (fun c => c.1 == cl) then s
  else
    let s := s.stopByReset.takeOut cl
    let s := (s.applyHeld (fun p => p.cls = 0x11 && p.inst = cl)).testCores (· == cl)
    let s := (s.setFld F.RST_STATUS.CLUSTER_BUSY 1).setFld F.RST_CAUSE.CAUSE cause
    { s with rs.clusters := s.rs.clusters ++ [(cl, s.tm.now)] }

/-- A per-cluster reset is complete after 4.3 µs: the stores are wiped, and the cluster is in placement at point 0 unless
its die is removed. -/
def State.clusterResetDoneOp (s : State) (cl : Nat) : State :=
  match s.rs.clusters.find? (fun c => c.1 == cl) with
  | none => s
  | some c =>
    if s.tm.now < c.2 + 4300 then s
    else
      let s := s.wipeCores (· == cl)
      let s := s.setCluster cl { removed := (s.cluster cl).removed }
      let s : State := { s with rs.clusters := s.rs.clusters.filter (fun c => c.1 != cl) }
      let s := s.setClk cl { point := 0, changed := some s.tm.now, idleSince := s.tm.now }
      let s := if s.fld F.CD_STATUS.REMOVED (cl / 16) = 1 then s else s.putBack cl
      let s := if s.rs.clusters = [] then s.setFld F.RST_STATUS.CLUSTER_BUSY 0 else s
      let s := (s.setFld F.RST_STATUS.LAST 4).setFld F.RST_STATUS.LAST_CLUSTER cl
      let s := (s.addCnt C.RST_CNT_CLUSTER 1).setCnt C.RST_LAST_NS (s.tm.now - c.2)
      s.setInt F.RST_INT_STATUS.DONE

/-- A write of RST_CTRL (R467): each bit written 1 requests its reset, the widest first. -/
def State.rstCtrl (s : State) (r : Requester) (v : Nat) : State :=
  let s := if bit v 0 then s.resetRequest false (resetCause r false) else s
  let s := if bit v 1 then s.resetRequest true (resetCause r false) else s
  if bit v 2 then s.clusterResetRequest (s.fld F.RST_CLUSTER.CLUSTER) (resetCause r true) else s

end Sys2Proof.Machine
end

