-- ==== Sys2Proof/Machine/Errors.lean ====
section
/-! DEFINITION. The error collector, ring and first-error records, black errors and the entry to minimal mode (14, R501 to
R510, R525; 13, R475 to R478; R408, R533). -/

namespace Sys2Proof.Machine

/-! ## Minimal mode (R408, R475, R478) -/

/-- The stack in use: the lowest of stacks 0 to 2 that works, while port die 0 does. -/
def State.minStack (s : State) : Option Nat :=
  if s.mm.diesLost.contains 0 then none else (List.range 3).find? (fun i => !(s.stack i).offline)

/-- The lanes that stay in use: 0 and 1 of the KCL ports (R342). -/
def minimalLanes (l : SMap Lane) : SMap Lane := l.filter (fun e => decide (e.1 < 2))

/-- The device enters minimal mode, for a cause: every other part is powered down in place, accepted work is left to be
returned, and queue enables are cleared with the positions kept. -/
def State.enterMinimal (s : State) (kind part inst : Nat) : State :=
  let s := s.stopByReset
  let stack := s.minStack
  let s := s.resetQueues.clearEnables
  let s : State := { s with
    tm.power := .minimal
    rs.run := none, rs.clusters := []
    er.black := none, er.blackLater := none, er.hold := false, er.coolSince := none, er.thermN := true
    cq.cmds := []
    cq.queues := s.cq.queues.map (fun e => (e.1, { e.2 with done := [], writing := false, again := [] }))
    hl.hwr := s.hl.hwr.map (fun h => match h.what with | .mailbox | .report => h | _ => { h with what := .rewrite })
    hl.filter := [], hl.recalls := []
    kv.refq := []
    tl.cores := [], tl.clusters := [], tl.gauges := [], tl.counters := [], tl.fences := [], tl.traffic := []
    mm.window := [], mm.granting := []
    mm.dev := s.mm.dev.filter (fun c => decide (some (c.1 / 2 ^ 36) = stack))
    mm.shared := s.mm.shared.filter (fun c => decide (c.1 < 2 ^ 27))
    op.ports := (s.op.ports.filter (fun e => decide (e.1 < 8))).map (fun e =>
      (e.1, { e.2 with tx := minimalLanes e.2.tx, rx := minimalLanes e.2.rx }))
    sc.ctxs := s.sc.ctxs.map (fun e => (e.1, { e.2 with st := .absent, slot := none, saved := [], clRecs := [] })) }
  let s := ((s.setFld F.RST_STATUS.IN_PROGRESS 0).setFld F.RST_STATUS.CLUSTER_BUSY 0).setFld F.PWR_STATUS.STATE 3
  let s := (s.setFld F.BOOT_STATUS.MODE 2).setFld F.BOOT_STATUS.MIN_NO_HBM (b2n stack.isNone)
  let s := s.setFld F.BOOT_STATUS.MIN_STACK (stack.getD 0)
  let s := ((s.setFld F.BOOT_CAUSE.KIND kind).setFld F.BOOT_CAUSE.PART part).setFld F.BOOT_CAUSE.INSTANCE inst
  let s := if kind = 3 then s.setInt F.BOOT_INT_STATUS.MINIMAL else s
  s.minimalLink

/-! ## The ring (R504 to R507, R533) -/

/-- Order in the ring: TIME, then CODE, then INSTANCE (R504). -/
def ErrRec.before (a b : ErrRec) : Bool :=
  decide (a.time < b.time) || (a.time = b.time && (decide (a.code < b.code) || (a.code = b.code && decide (a.inst < b.inst))))

/-- The collector's next record. -/
def firstRec : List ErrRec → Option ErrRec
  | [] => none
  | e :: l => match firstRec l with
    | none => some e
    | some f => if f.before e then some f else some e

/-- The page of an error, where the map lists it. -/
def ErrRec.page (e : ErrRec) : Option (Nat × Nat) :=
  match instancesOf (e.code / 256) with
  | some n => if e.inst < n then some (e.code / 256, e.inst) else none
  | none => none

/-- Does PG_ERR_MASK of its page mask an error (R502). -/
def State.errMasked (s : State) (e : ErrRec) : Bool :=
  match e.page with
  | none => false
  | some (c, i) =>
    (e.sev = 0 && s.fld (F.PG_ERR_MASK.GREY c) i = 1) || (e.sev = 1 && s.fld (F.PG_ERR_MASK.AMBER c) i = 1)

/-- The newest ring record. -/
def State.newestErr (s : State) : Option ErrRec :=
  let n := s.fld F.ERR_HEAD.SEQ
  if n = 0 then none else some (look {} s.er.ring ((n - 1) % 64))

/-- Does an error coalesce into the newest record (R506). -/
def State.coalesces (s : State) (e : ErrRec) : Bool :=
  s.fld F.ERR_CFG.COALESCE = 1 && decide (e.sev ≤ 1) &&
    match s.newestErr with
    | none => false
    | some r => r.code = e.code && r.inst = e.inst && r.unit = e.unit && decide (e.time ≤ r.time + 1000000)

/-- An error enters the ring, or the newest record's REPEAT; the record it is in. -/
def State.ringEnter (s : State) (e : ErrRec) : State × ErrRec :=
  let n := s.fld F.ERR_HEAD.SEQ
  if s.coalesces e then
    let r := look {} s.er.ring ((n - 1) % 64)
    let r := { r with repeated := Nat.min 255 (r.repeated + 1) }
    (({ s with er.ring := put {} s.er.ring ((n - 1) % 64) r } : State).addCnt C.ERR_CNT_COALESCED 1, r)
  else
    let r := { e with seq := n }
    let lost := decide (64 ≤ n) && decide (s.fld F.ERR_TAIL.SEQ ≤ n - 64)
    let s : State := { s with er.ring := put {} s.er.ring (n % 64) r }
    let s := s.setFld F.ERR_HEAD.SEQ (n + 1)
    (if lost then (s.addCnt C.ERR_CNT_LOST 1).setInt F.ERR_INT_STATUS.LOST else s, r)

def sevCnt (sev : Nat) : Cnt :=
  match sev with | 0 => C.ERR_CNT_GREY | 1 => C.ERR_CNT_AMBER | 2 => C.ERR_CNT_RED | _ => C.ERR_CNT_BLACK
def sevInt (sev : Nat) : Field :=
  match sev with
  | 0 => F.ERR_INT_STATUS.GREY | 1 => F.ERR_INT_STATUS.AMBER | 2 => F.ERR_INT_STATUS.RED | _ => F.ERR_INT_STATUS.BLACK

/-- The count of an error on its page, saturating (R533). -/
def State.countErr (s : State) (e : ErrRec) : State :=
  let s := s.addCnt (sevCnt e.sev) 1
  match e.page with
  | none => s
  | some (c, i) => s.setFld (F.PG_ERR_COUNT.N c) (Nat.min 0xFFFFFFFF (s.fld (F.PG_ERR_COUNT.N c) i + 1)) i

/-- The first-error captures (R507, R533). -/
def State.captureFirst (s : State) (e r : ErrRec) : State :=
  if decide (e.sev < s.fld F.ERR_CFG.FIRST_MIN) || s.errMasked e then s
  else
    let s := if s.fld F.ERR_STATUS.FIRST_VALID = 1 then s
      else ({ s with er.first := some { r with first := true } } : State).setFld F.ERR_STATUS.FIRST_VALID 1
    match e.page with
    | none => s
    | some (c, i) =>
      if s.fld (F.PG_ERR_FIRST.VALID c) i = 1 then s
      else
        (((s.setFld (F.PG_ERR_FIRST.CODE c) r.code i).setFld (F.PG_ERR_FIRST.SEV c) r.sev i).setFld
          (F.PG_ERR_FIRST.SLOT c) (r.seq % 64) i).setFld (F.PG_ERR_FIRST.VALID c) 1 i

/-! ## Handlers (R508) -/

/-- A detection within 100 ms after the end of a recovery reset that followed a black error (R510). -/
def State.inBlackWindow (s : State) (e : ErrRec) : Bool :=
  match s.rs.blackEnd with
  | none => false
  | some t => decide (t ≤ e.time) && decide (e.time ≤ t + 100000000)

/-- A recovery reset that follows a black error. -/
def State.blackReset (s : State) (cause : Nat) : State :=
  let s : State := { s with er.black := none, rs.afterBlack := true }
  s.resetRequest true cause

/-- A black error meets what runs. -/
def State.blackArrives (s : State) (e : ErrRec) : State :=
  if s.rs.run.isSome then { s with er.blackLater := some (s.er.blackLater.getD e) }
  else match s.er.black with
    | none => { s with er.black := some e }
    | some b =>
      if s.inBlackWindow b then s
      else if s.inBlackWindow e then { s with er.black := some e }
      else if s.er.hold && overheatCode e.code then s
      else s.blackReset 4

/-- What an error that is not injected does beyond its record: the global stop (R501, R516), and a black one's handler. -/
def State.errActs (s : State) (e : ErrRec) : State :=
  if e.injected then s
  else if e.sev = 3 then (s.takeStop 2).blackArrives e
  else if e.sev = 2 ∧ s.fld F.STOP_CFG.ON_RED = 1 then s.takeStop 3
  else s

/-- SEV and flags of a record, byte 0x0E. -/
def ErrRec.sevByte (r : ErrRec) : Nat := r.sev + 4 * b2n r.first + 8 * b2n r.afterCut + 16 * b2n r.injected

/-- An error is entered in the ring, 2 µs after its detection (R504): counted, coalesced, captured, and acted on. -/
def State.errorRecord (s : State) : State :=
  match firstRec s.er.collector with
  | none => s
  | some e =>
    if s.tm.power = .off ∨ s.tm.now < e.time + 2000 then s
    else
      let s : State := { s with er.collector := s.er.collector.erase e }
      let x := (s.countErr e).ringEnter e
      let r := x.2
      let s := x.1
      let s := if s.errMasked e then s else s.setInt (sevInt e.sev)
      let s := s.captureFirst e r
      let s := s.trace
        { type := 0xC, ctx := e.ctx, q := e.q, seq := e.cmd, arg0 := e.code + 65536 * e.sevByte, arg1 := r.seq }
      s.errActs e

/-! ## Firmware's action on a black error (R509, R510) -/

/-- BOOT_CAUSE.PART and INSTANCE of a loss. -/
def ErrRec.lossPart (e : ErrRec) : Nat × Nat :=
  match e.code with
  | 0x0001 => (1, e.part)
  | 0x0002 => (2, e.part)
  | 0x2104 => (3, e.inst)
  | 0x3105 => (4, 0)
  | _ => (0, 0)

/-- The codes whose action is minimal mode. -/
def minimalCode (c : Nat) : Bool := c = 0x0001 || c = 0x0002 || c = 0x2104 || c = 0x3105

/-- The action, once the stop is CAPTURED or after 200 µs. -/
def State.blackActionOp (s : State) : State :=
  match s.er.black with
  | none => s
  | some e =>
    if s.er.hold ∨ (s.stopState ≠ 3 ∧ s.tm.now < e.time + 200000) then s
    else if s.tm.power ≠ .active ∧ s.tm.power ≠ .resetting then { s with er.black := none }
    else if s.inBlackWindow e ∨ minimalCode e.code then s.enterMinimal 3 e.lossPart.1 e.lossPart.2
    else if overheatCode e.code then ({ s with er.hold := true } : State).watchCool
    else s.blackReset 3

/-- A thermal hold ends after 100 ms of cool readings: recovery reset. -/
def State.thermalHoldEndOp (s : State) : State :=
  match s.er.coolSince with
  | none => s
  | some t => if s.er.hold ∧ t + 100000000 ≤ s.tm.now then s.blackReset 3 else s

/-- A black error recorded during a reset counts as raised at the reset's end (R508, R510). -/
def State.blackAfterReset (s : State) : State :=
  match s.er.blackLater with
  | none => s
  | some e =>
    if s.rs.run.isSome then s
    else ({ s with er.blackLater := none, er.black := some { e with time := s.tm.now } } : State).takeStop 2

/-! ## Injection and clearing (R507, R525, R533) -/

/-- The life-cycle state: the target of the newest applied record (13, "Life cycle"). -/
def State.lcState (s : State) : Nat := ((s.bt.fuses.lc.filter (fun r => r.applied)).getLast?.map (·.target)).getD 0

/-- ERR_INJECT: ignored in END_OF_LIFE and for severity black. -/
def State.errInjectOp (s : State) (v : Nat) : State :=
  let sev := v / 65536 % 4
  if s.lcState = 4 ∨ sev = 3 then s
  else
    { s with er.collector := s.er.collector ++
      [{ time := s.tm.now, code := v % 65536, sev := sev, afterCut := s.halted, injected := true }] }

def execErrInject (r : Requester) (v : W32) (s : State) : Host.Outcome State Fault Refusal :=
  .next (s.opWrite r 0x40 0 0x11C v.toNat (fun s => s.errInjectOp v.toNat))

/-- ERR_FIRST_CTRL.CLEAR. -/
def State.errFirstClearOp (s : State) : State :=
  ({ s with er.first := none } : State).setFld F.ERR_STATUS.FIRST_VALID 0

def execErrFirstClear (r : Requester) (s : State) : Host.Outcome State Fault Refusal :=
  .next (s.opWrite r 0x40 0 0x118 1 State.errFirstClearOp)

/-- PG_ERR_FIRST.CLEAR of a page. -/
def State.pgErrFirstClearOp (s : State) (cls inst : Nat) : State :=
  (((s.setFld (F.PG_ERR_FIRST.CODE cls) 0 inst).setFld (F.PG_ERR_FIRST.SEV cls) 0 inst).setFld
    (F.PG_ERR_FIRST.SLOT cls) 0 inst).setFld (F.PG_ERR_FIRST.VALID cls) 0 inst

/-- Does the page map list an instance of a class (R529). -/
def pageExists (cls inst : Nat) : Bool := match instancesOf cls with | some n => decide (inst < n) | none => false

def execPgErrFirstClear (r : Requester) (cls inst : Nat) (s : State) : Host.Outcome State Fault Refusal :=
  .next (if pageExists cls inst then s.opWrite r cls inst 0x010 (2 ^ 31) (fun s => s.pgErrFirstClearOp cls inst) else s)

/-! ## Faults of control-die blocks and port dies -/

/-- A black error about a part. -/
def State.partLost (s : State) (code part : Nat) : State :=
  { s with er.collector := s.er.collector ++
    [{ time := s.tm.now, code := code, sev := 3, afterCut := s.halted, part := part }] }

def execCtrlBlock (block : Byte) (s : State) : Host.Outcome State Fault Refusal :=
  .next (if s.powered then s.partLost 0x0001 block.toNat else s)

/-- A port die stops answering its bridges. -/
def State.portDieLost (s : State) (p : Nat) : State :=
  if !s.powered ∨ s.mm.diesLost.contains p then s
  else ({ s with mm.diesLost := s.mm.diesLost ++ [p] } : State).partLost 0x0002 p

def execPortDieLost (p : Fin 4) (s : State) : Host.Outcome State Fault Refusal := .next (s.portDieLost p)

end Sys2Proof.Machine
end

