-- ==== Sys2Proof/Machine/TraceOps.lean ====
section
/-! DEFINITION. The trace engine's rows: samples, throttle windows, marks, its enable, and the debug instruction that
takes a global stop (14, "Trace"; R512 to R516, R526, R575). -/

namespace Sys2Proof.Machine

/-! ## Samples (R513) -/

/-- The SAMPLE records of one instance: one for each of the twelve common counter slots. -/
def State.sampleInst (s : State) (cls inst : Nat) : State :=
  (List.range 12).foldl
    (fun s n => s.trace
      { type := 0xB, source := domainOf cls inst, arg0 := n + cls * 256 + inst * 65536, arg1 := (if openCnt cls inst (0x40 + 16 * n) then s.openWord cls inst (0x40 + 16 * n) else s.slot cls inst n) }) s

/-- A sample period has passed since the last samples. -/
def State.sampleDue (s : State) : Bool :=
  s.fld F.TRC_CFG.ENABLE = 1 && s.fld F.TRC_SAMPLE.US ≠ 0 && !s.domHalted 313 &&
    decide (s.tr.lastSample + s.fld F.TRC_SAMPLE.US * 1000 ≤ s.tm.now)

/-- The samples of every instance of TRC_SAMPLE.CLASS. -/
def State.sample (s : State) : State :=
  if s.sampleDue then
    let cls := s.fld F.TRC_SAMPLE.CLASS
    let s : State := { s with tr.lastSample := s.tm.now }
    (List.range ((instancesOf cls).getD 0)).foldl (fun s i => s.sampleInst cls i) s
  else s

def execSample (s : State) : Host.Outcome State Fault Refusal := .next s.sample

/-! ## Throttle windows (R514) -/

/-- The counts of a window that is over: what it dropped is owed to the next DROP record, and reported (TRACE_DROP, R503). -/
def State.windowOver (s : State) : State :=
  let bad := b2n (s.tr.dropped != 0)
  let s := (s.setFld F.TRC_STATUS.THROTTLED bad).addCnt C.TRC_CNT_THROTTLED bad
  let s := if bad = 1 then s.raise 0x4101 0 else s
  { s with tr.owedDrop := s.tr.owedDrop + s.tr.dropped, tr.owedWins := s.tr.owedWins + bad, tr.used := 0
           tr.dropped := 0, tr.window := s.tm.now / 10000 }

/-- A window begins, one of 10 µs aligned to the time base; held values of the page take effect first (R514, R541). -/
def State.throttleWindow (s : State) : State :=
  if s.tr.window < s.tm.now / 10000 then
    (((s.applyField F.TRC_TYPES.MASK).applyField F.TRC_SAMPLE.US).applyField F.TRC_SAMPLE.CLASS).windowOver
  else s

def execThrottleWindow (s : State) : Host.Outcome State Fault Refusal := .next s.throttleWindow

/-! ## Marks and the enable -/

/-- A write of TRC_MARK. -/
def State.markOp (s : State) (v : Nat) : State := s.trace { type := 0xF, arg0 := v }

def execMark (r : Requester) (v : W32) (s : State) : Host.Outcome State Fault Refusal :=
  .next (s.opWrite r 0x41 0 0x118 v.toNat (fun s => s.markOp v.toNat))

/-- The buffer lies wholly within one stack's tensor area, in granules owned by 0xFFFF (R526). -/
def State.traceBufferOk (s : State) : Bool :=
  let b := s.fld F.TRC_BASE.BASE
  let n := s.fld F.TRC_COUNT.N
  decide (1 ≤ n) && decide (b / 2 ^ 15 < 12) && decide (b % 2 ^ 15 + n ≤ 32256) &&
    (List.range n).all (fun i => s.ownerOf (b / 2 ^ 15 * 65536 + b % 2 ^ 15 + i) = 0xFFFF)

/-- The trace engine is enabled: TRC_WR counts from here, and the trigger has not fired since. -/
def State.traceOn (s : State) : State :=
  let s := (s.setFld F.TRC_CFG.ENABLE 1).setCnt C.TRC_WR 0
  let s := ((s.setFld F.TRC_STATUS.FULL 0).setFld F.TRC_STATUS.TRIGGERED 0).setFld F.TRC_STATUS.THROTTLED 0
  { s with tr := { window := s.tm.now / 10000, lastSample := s.tm.now } }

/-- A write of TRC_CFG: SHARE is live, WRAP static while the engine is enabled; ENABLE by its own rule (R526, R575). -/
def State.trcCfgWrite (s : State) (v : Nat) : State :=
  let en := s.fld F.TRC_CFG.ENABLE
  let s := s.setFld F.TRC_CFG.SHARE (bits v 8 4)
  let s := if bits v 1 1 = s.fld F.TRC_CFG.WRAP then s
    else if en = 1 then s.reject 0x41 0 else s.setFld F.TRC_CFG.WRAP (bits v 1 1)
  if v % 2 = en then s
  else if v % 2 = 0 then s.setFld F.TRC_CFG.ENABLE 0
  else if s.traceBufferOk then s.traceOn
  else s.reject 0x41 0

def execTrcCfgEnable (r : Requester) (v : W32) (s : State) : Host.Outcome State Fault Refusal :=
  .next (s.opWrite r 0x41 0 0x100 v.toNat (fun s => s.trcCfgWrite v.toNat))

/-! ## The debug instruction -/

/-- The Kiodom debug instruction, offered in MANUFACTURE and RETURNED (R497, R516). -/
def State.debugInstruction (s : State) : State := if s.lcState = 0 ∨ s.lcState = 3 then s.takeStop 5 else s

def execDebugInstruction (s : State) : Host.Outcome State Fault Refusal := .next s.debugInstruction

end Sys2Proof.Machine
end

