-- ==== Sys2Proof/Machine/Waits.lean ====
section
/-! DEFINITION. The wait-for graph and its report (14, "The wait-for graph"; R522 to R524). -/

namespace Sys2Proof.Machine

/-- A node by its KIND and ID, and the key that orders nodes in the report. -/
structure WfgNode where
  kind : Nat
  id   : Nat
deriving DecidableEq, Repr

def WfgNode.key (n : WfgNode) : Nat := n.kind * 2 ^ 48 + n.id

/-- An edge from a waiter to what it waits on. -/
structure WfgEdge where
  src    : WfgNode
  dst    : WfgNode
  reason : Nat
  target : Nat := 0
deriving DecidableEq, Repr

def coreNode (c : Nat) : WfgNode := ⟨1, c⟩
def cmdNodeOf (q seq : Nat) : WfgNode := ⟨2, q * 2 ^ 32 + seq⟩
def cmdNode (c : Cmd) : WfgNode := cmdNodeOf c.q c.seq
def poolNode (n : Nat) : WfgNode := ⟨5, n⟩
def ctxNode (n : Nat) : WfgNode := ⟨6, n⟩
def windowNode : WfgNode := ⟨7, 0⟩
def cisNode (m : Nat) : WfgNode := ⟨8, m⟩
def runNode (n : Nat) : WfgNode := ⟨10, n⟩

/-! ## Edges (table "Edge reasons") -/

/-- Commands accepted before this one. -/
def State.before (s : State) (c : Cmd) : List Cmd := s.cq.cmds.takeWhile (fun d => !(d.q == c.q && d.seq == c.seq))

/-- The node of what a WAIT word waits on: a gauge or a counter. -/
def waitNode (w : Waiting) : WfgNode := ⟨if w.counter then 4 else 3, w.index⟩

/-- Cores that wait on a gauge or a counter (1, 2). -/
def State.coreEdges (s : State) : List WfgEdge :=
  s.tl.cores.filterMap (fun k => k.2.waiting.map (fun w =>
    { src := coreNode k.1, dst := waitNode w, reason := if w.counter then 2 else 1, target := w.target }))

/-- The cores whose items advance a gauge, or increment a counter. -/
def State.producerCores (s : State) (w : Waiting) : List Nat :=
  (s.tl.cores.filter (fun k =>
    if w.counter then (match k.2.place with | some p => p.counter == w.index && p.item.isSome | none => false)
    else (k.2.queue ++ k.2.issue).any (fun x => x.w.advances && x.at_ == w.index))).map (·.1)

/-- Is a number in a run. -/
def inRun (run : Option (Nat × Nat)) (n : Nat) : Bool :=
  match run with
  | some (b, k) => decide (b ≤ n) && decide (n < b + k)
  | none => false

/-- Producers of what cores wait on: cores, or the command where no placed item advances it (3). -/
def State.producerEdges (s : State) : List WfgEdge :=
  (s.tl.cores.filterMap (fun k => k.2.waiting)).flatMap (fun w =>
    match s.producerCores w with
    | [] => (s.cq.cmds.filter (fun c => inRun (if w.counter then c.counterRun else c.gaugeRun) w.index)).map
        (fun c => { src := waitNode w, dst := cmdNode c, reason := 3 })
    | cs => cs.map (fun c => { src := waitNode w, dst := coreNode c, reason := 3 }))

/-- A fence that holds a start or a publication (4). -/
def State.fenceEdges (s : State) (c : Cmd) : List WfgEdge :=
  if (c.hold = some .fence ∨ c.stage = .staged) ∧ !s.fenceMet c.rec_ then
    [{ src := cmdNode c, dst := cmdNodeOf (recFenceQ c.rec_) (recFenceSeq c.rec_), reason := 4
       target := recFenceSeq c.rec_ }]
  else []

/-- Queue order at publication step 2 (5). -/
def State.orderEdges (s : State) (c : Cmd) : List WfgEdge :=
  if c.stage = .staged then
    ((s.before c).filter (fun d => d.q = c.q)).map (fun d => { src := cmdNode c, dst := cmdNode d, reason := 5 })
  else []

/-- Earlier commands that name a common group, or append to the same sequence (6). -/
def State.groupEdges (s : State) (c : Cmd) : List WfgEdge :=
  if c.hold = some .group then
    ((s.before c).filter (fun d =>
      if c.wellhead then d.wellhead && d.groups.any (fun g => c.groups.contains g)
      else (s.appendsOf c).any (fun a => d.appendTo.contains a.1 || (s.appendsOf d).any (fun b => b.1 == a.1)))).map (fun d => { src := cmdNode c, dst := cmdNode d, reason := 6 })
  else []

/-- Pages a command in WAIT_PAGE is short of. -/
def State.pagesShort (s : State) (c : Cmd) : Nat :=
  if c.wellhead then
    let tokens := Config.imageTokens (s.stepImage c).desc (s.stepImage c).version
    ((s.planStep c tokens s.kvpFree c.groups).flatMap (fun p => p.2.2)).foldl (fun n p => n + s.prepNeed tokens p) 0 - s.kvpFree
  else (s.appendsOf c).foldl (fun n a => n + s.appendPages a.1 a.2) 0 - s.kvpFree

/-- WAIT_PAGE and WAIT_STATE (7). -/
def State.poolEdges (s : State) (c : Cmd) : List WfgEdge :=
  if c.hold = some .page then [{ src := cmdNode c, dst := poolNode 0, reason := 7, target := s.pagesShort c }]
  else if c.hold = some .state then [{ src := cmdNode c, dst := poolNode 1, reason := 7 }]
  else []

/-- WAIT_TABLE: the commands that hold the other image (8). -/
def State.tableEdges (s : State) (c : Cmd) : List WfgEdge :=
  if c.hold = some .table then
    (s.cq.cmds.filter (fun d => (s.appendsOf c).any (fun a => s.holdsOther d a.1))).map
      (fun d => { src := cmdNode c, dst := cmdNode d, reason := 8 })
  else []

/-- WAIT_GAUGE, WAIT_COUNTER (9) and WAIT_CISTERN (10). -/
def State.runEdges (s : State) (c : Cmd) : List WfgEdge :=
  match c.hold with
  | some .gauge => [{ src := cmdNode c, dst := runNode 0, reason := 9 }]
  | some .counter => [{ src := cmdNode c, dst := runNode 1, reason := 9 }]
  | some .cistern =>
    (((s.usesOf c.rec_).filter (fun u => u.range.1 = 3 && (s.module (cisModule u.range.2.1)).st = 5)).map
      (fun u => cisModule u.range.2.1)).eraseDups.map (fun m => { src := cmdNode c, dst := cisNode m, reason := 10 })
  | _ => []

/-- WAIT_REDERIVE: the wellhead commands of the log that the replay of its groups runs again (11). -/
def State.rederiveEdges (s : State) (c : Cmd) : List WfgEdge :=
  if c.hold = some .rederive then
    (s.cq.lineage.filter (fun r => !r.retired && recClass r.rec_ = 2 && r.ctx = c.ctx)).map
      (fun r => { src := cmdNode c, dst := cmdNodeOf r.q r.seq, reason := 11 })
  else []

/-- The weight window (12). -/
def State.windowEdges (s : State) (c : Cmd) : List WfgEdge :=
  if s.mm.window.any (fun w => w.q == c.q && w.seq == c.seq && !w.granted)
  then [{ src := cmdNode c, dst := windowNode, reason := 12 }] else []

/-- Commands in hand that hold pages, state blocks, runs or window space that others wait for (13). -/
def State.holderEdges (s : State) : List WfgEdge :=
  let isPage (o : Obj) : Bool := match o with | .page _ => true | .block _ => false
  s.cq.cmds.flatMap (fun c =>
    ((if c.work.taken.any isPage ∨ c.reserved ≠ 0 then [poolNode 0] else []) ++
      (if c.work.taken.any (fun o => !isPage o) then [poolNode 1] else []) ++
      (if c.gaugeRun.isSome then [runNode 0] else []) ++ (if c.counterRun.isSome then [runNode 1] else []) ++
      (if s.mm.window.any (fun w => w.q == c.q && w.seq == c.seq && w.granted) then [windowNode] else [])).map
        (fun n => { src := n, dst := cmdNode c, reason := 13 }))

/-- A context that is not resident (14), and one that loads behind another command's cluster stores (15). -/
def State.ctxEdges (s : State) (c : Cmd) : List WfgEdge :=
  if s.resident c.ctx ∧ (s.ctx c.ctx).st ≠ .loading then []
  else
    { src := cmdNode c, dst := ctxNode c.ctx, reason := 14 } ::
      (if (s.ctx c.ctx).st = .loading then
        (((s.ctx c.ctx).clRecs.filterMap (fun r => (s.cluster r.1).owner)).eraseDups.filter
          (fun o => !(s.cmdsOf c.ctx).any (fun d => d.q == o.1 && d.seq == o.2))).map
            (fun o => { src := ctxNode c.ctx, dst := cmdNodeOf o.1 o.2, reason := 15 })
       else [])

/-- Cores that run the command's items (16). -/
def State.itemEdges (s : State) (c : Cmd) : List WfgEdge :=
  (s.tl.cores.filter (fun k => match k.2.place with
    | some p => p.q == c.q && p.seq == c.seq && p.item.isSome
    | none => false)).map (fun k => { src := cmdNode c, dst := coreNode k.1, reason := 16 })

/-- A pool, a run or the window that somebody waits for. -/
def waitedFor (es : List WfgEdge) (e : WfgEdge) : Bool := es.any (fun x => x.dst == e.src)

/-- Every edge, once. -/
def State.wfgEdges (s : State) : List WfgEdge :=
  let es := s.coreEdges ++ s.producerEdges ++ s.cq.cmds.flatMap (fun c =>
    s.fenceEdges c ++ s.orderEdges c ++ s.groupEdges c ++ s.poolEdges c ++ s.tableEdges c ++ s.runEdges c ++
      s.rederiveEdges c ++ s.windowEdges c ++ s.ctxEdges c ++ s.itemEdges c)
  (es ++ s.holderEdges.filter (waitedFor es)).eraseDups

/-! ## Nodes -/

/-- A node put in its place by key. -/
def insertNode (n : WfgNode) : List WfgNode → List WfgNode
  | [] => [n]
  | m :: r => if n.key < m.key then n :: m :: r else if n = m then m :: r else m :: insertNode n r

/-- Every accepted and unpublished command, and the ends of every edge, by KIND and ID. -/
def State.wfgNodes (s : State) (es : List WfgEdge) : List WfgNode :=
  (s.cq.cmds.map cmdNode ++ es.map (·.src) ++ es.map (·.dst)).foldl (fun l n => insertNode n l) []

/-- When the oldest wait of a node began, or 0. -/
def State.nodeSince (s : State) (n : WfgNode) : Nat :=
  match n.kind with
  | 1 => ((s.core n.id).waiting.map (·.since)).getD 0
  | 2 => match s.cmd? (n.id / 2 ^ 32) (n.id % 2 ^ 32) with
    | none => 0
    | some c =>
      let w := (s.mm.window.filter (fun w => w.q == c.q && w.seq == c.seq && !w.granted)).map (·.since)
      let h := if c.hold.isSome ∨ c.stage = .staged then [c.since] else []
      let x := if s.resident c.ctx then [] else [c.acceptedAt]
      match w ++ h ++ x with
      | [] => 0
      | a :: r => r.foldl Nat.min a
  | 6 => (s.ctx n.id).waitSince
  | _ => 0

/-- CONTEXT of a node. -/
def State.nodeCtx (s : State) (n : WfgNode) : Nat :=
  match n.kind with
  | 1 => (s.coreCtx n.id).getD 0xFFFF
  | 2 => ((s.cmd? (n.id / 2 ^ 32) (n.id % 2 ^ 32)).map (·.ctx)).getD 0xFFFF
  | 6 => n.id
  | _ => 0xFFFF

/-- VALUE of a node: a gauge's VALUE, a counter's DONE, free pages or blocks. -/
def State.nodeValue (s : State) (n : WfgNode) : Nat :=
  match n.kind with
  | 3 => (s.gauge n.id).value
  | 4 => (s.counter n.id).done
  | 5 => if n.id = 0 then s.kvpFree else s.sbFreeList.length
  | _ => 0

/-- A node's 32 bytes. -/
def State.nodeBytes (s : State) (n : WfgNode) : List Byte :=
  toLE 1 n.kind ++ toLE 1 0 ++ toLE 2 (s.nodeCtx n) ++ toLE 4 0 ++ toLE 8 n.id ++ toLE 4 (s.nodeValue n) ++ toLE 4 0 ++
    toLE 8 (s.nodeSince n)

/-! ## Cycles -/

/-- The elementary cycles through `start` whose other nodes come after it, as node indices in order. -/
def cyclesFrom (adj : Nat → List Nat) (start : Nat) : (fuel : Nat) → (path : List Nat) → Nat → List (List Nat)
  | 0, _, _ => []
  | fuel + 1, path, n =>
    (adj n).flatMap (fun m =>
      if m = start then [path.reverse]
      else if m < start ∨ path.contains m then []
      else cyclesFrom adj start fuel (m :: path) m)

/-- The elementary cycles of a graph, each once, from its lowest node. -/
def cyclesOf (n : Nat) (es : List (Nat × Nat)) : List (List Nat) :=
  let adj (i : Nat) : List Nat := ((es.filter (fun e => e.1 == i)).map (·.2)).eraseDups
  (List.range n).flatMap (fun i => cyclesFrom adj i (n + 1) [i] i)

/-- The edges of a cycle. -/
def cycleEdges (c : List Nat) : List (Nat × Nat) := c.zip (c.drop 1 ++ c.take 1)

/-! ## The report -/

/-- A snapshot of the edges: ends and SINCE (R523). -/
def State.wfgSnapshot (s : State) : List (Nat × Nat × Nat) :=
  s.wfgEdges.map (fun e => (e.src.key, e.dst.key, s.nodeSince e.src))

/-- Does a cycle count: in a LIVE report, each edge is in the first snapshot with the same SINCE. -/
def State.cycleHolds (s : State) (live : Bool) (ns : List WfgNode) (c : List Nat) : Bool :=
  !live || (cycleEdges c).all (fun e => match ns[e.1]?, ns[e.2]? with
    | some a, some b => s.st.wfgSnap.contains (a.key, b.key, s.nodeSince a)
    | _, _ => false)

/-- The cycle section, padded with zeros to a multiple of 64 bytes. -/
def cycleBytes (cs : List (List Nat)) : List Byte :=
  let b := cs.flatMap (fun c => toLE 4 c.length ++ c.flatMap (fun i => toLE 4 i))
  b ++ List.replicate (64 * ceilDiv b.length 64 - b.length) 0

/-- The report (R522 to R524): its bytes, the number of its cycles and whether it is TRUNCATED. What passes the report
area is not written. -/
def State.wfgReport (s : State) (live : Bool) : List Byte × Nat × Bool :=
  let all := s.wfgEdges
  let es := all.take 4194304
  let allNodes := s.wfgNodes es
  let ns := allNodes.take 1048576
  let es := es.filter (fun e => ns.contains e.src && ns.contains e.dst)
  let idx (n : WfgNode) : Nat := ns.findIdx (· == n)
  let cyc := (cyclesOf ns.length (es.map (fun e => (idx e.src, idx e.dst)))).filter (s.cycleHolds live ns)
  let cs := cyc.take 4096
  let cb := cycleBytes cs
  let nodeOff := 64 + cb.length
  let edgeOff := nodeOff + 32 * ns.length
  let size := edgeOff + 16 * es.length
  let area := s.fld F.WFG_SIZE.PAGES * 4096
  let cut := decide (4194304 < all.length) || decide (1048576 < allNodes.length) || decide (4096 < cyc.length) || decide (area < size)
  let time := if live then s.tm.now else s.st.cut
  let head := toLE 4 1 ++ toLE 4 (b2n (!live) + 2 * b2n live + 4 * b2n cut) ++ toLE 8 time ++ toLE 4 ns.length ++
    toLE 4 es.length ++ toLE 4 cs.length ++ toLE 4 cb.length ++ toLE 8 nodeOff ++ toLE 8 edgeOff ++ List.replicate 16 0
  let body := es.flatMap (fun e =>
    toLE 4 (idx e.src) ++ toLE 4 (idx e.dst) ++ toLE 1 e.reason ++ toLE 3 0 ++ toLE 4 e.target)
  ((head ++ cb ++ ns.flatMap s.nodeBytes ++ body).take area, cs.length, cut)

/-- The report is written to host memory at WFG_BASE. -/
def State.wfgWrite (s : State) (live : Bool) : State :=
  let r := s.wfgReport live
  let s := (s.setFld F.WFG_STATUS.TRUNCATED (b2n r.2.2)).setFld F.WFG_STATUS.CYCLES r.2.1
  let s : State := { s with st.wfgAt := none, st.wfgSnap := [] }
  s.hwr (s.fld F.WFG_BASE_LO.BASE * 4096 + s.fld F.WFG_BASE_HI.BASE * 2 ^ 32) r.1 .report

/-- WFG_CTRL.GO: a CUT report is built from the frozen state; a LIVE one takes its first snapshot (R522, R523). -/
def State.wfgGoOp (s : State) : State :=
  if s.fld F.WFG_STATUS.BUSY = 1 then s
  else
    let cut := s.stopState = 3
    let s := ((s.setFld F.WFG_STATUS.BUSY 1).setFld F.WFG_STATUS.DONE 0).setFld F.WFG_STATUS.CUT (b2n cut)
    if cut then s.wfgWrite false else { s with st.wfgAt := some s.tm.now, st.wfgSnap := s.wfgSnapshot }

def execWfgGo (r : Requester) (s : State) : Host.Outcome State Fault Refusal :=
  .next (s.opWrite r 0x43 0 0x110 1 State.wfgGoOp)

/-- WFG_DONE: the second snapshot of a LIVE report 1 ms after the first, and its report; then, once every part of the
report is in host memory, its end (R522 to R524). -/
def State.wfgDoneOp (s : State) : State :=
  if s.fld F.WFG_STATUS.BUSY = 0 then s
  else match s.st.wfgAt with
  | some t => if t + 1000000 ≤ s.tm.now ∧ !s.domHalted 312 then s.wfgWrite true else s
  | none =>
    if s.hl.hwr.any (fun h => h.what == HwrFor.report) then s
    else (((s.setFld F.WFG_STATUS.BUSY 0).setFld F.WFG_STATUS.DONE 1).addCnt C.WFG_CNT_REPORTS 1).setInt
      F.STOP_INT_STATUS.WFG_DONE

def execWfgDone (s : State) : Host.Outcome State Fault Refusal := .next s.wfgDoneOp

end Sys2Proof.Machine
end

