-- ==== Sys2Proof/Machine/Status.lean ====
section
/-! DEFINITION. What registers show of the state: when each block is busy (R538), and the values of the read-only fields
that follow from the state (the register tables of every chapter; R532, R547 to R549, R558). -/

namespace Sys2Proof.Machine

/-! ## Busy (R538) -/

/-- Is the block of a page busy (table "Blocks and boundaries"); `off` tells the core of a per-core register. -/
def State.blockBusy (s : State) (cls inst : Nat) (b : Blk) (off : Nat) : Bool :=
  match b with
  | .edit => false
  | .own => s.fld (F.OWN_STATUS.BUSY cls) inst = 1
  | .window => s.mm.window.any (fun w => w.granted)
  | .core => s.coreBusy (inst * 40 + (off - 0x400) / 64)
  | .sequencer => !(s.cluster inst).layers.isEmpty
  | .wfg => s.fld F.WFG_STATUS.BUSY = 1
  | .pool => s.fld F.KVP_CFG.ENABLE = 1
  | .page =>
    match cls with
    | 0x01 => s.fld F.SCHED_CFG.ENABLE = 1
    | 0x02 => s.whBusy
    | 0x03 => s.cq.queues.any (fun q => q.2.enabled || q.2.draining)
    | 0x08 | 0x0A => s.rs.run.isSome || !s.rs.clusters.isEmpty
    | 0x09 => true
    | 0x0E => s.bt.fuses.lc.any (fun r => !r.applied)
    | 0x21 => !(s.stack inst).reads.isEmpty
    | 0x22 => s.cisBusy inst
    | 0x30 => s.fld F.OP_CFG.ENABLE inst = 1
    | 0x31 => s.linkUp
    | 0x38 => s.fld F.MG_STATUS.MBOX_BUSY = 1
    | 0x41 => s.fld F.TRC_CFG.ENABLE = 1
    | 0x43 => s.stopState ≠ 0
    | _ => false

/-- A page is busy when any of its blocks is. -/
def State.pageBusy (s : State) (cls inst : Nat) : Bool :=
  (match cls with
   | 0x04 => s.blockBusy cls inst .pool 0
   | 0x11 => s.blockBusy cls inst .sequencer 0 || (List.range 40).any (fun k => s.blockBusy cls inst .core (0x400 + 64 * k))
   | 0x20 => s.blockBusy cls inst .window 0 || s.blockBusy cls inst .own 0
   | 0x21 => s.blockBusy cls inst .page 0 || s.blockBusy cls inst .own 0
   | 0x43 => s.blockBusy cls inst .page 0 || s.blockBusy cls inst .wfg 0
   | _ => s.blockBusy cls inst .page 0)

/-! ## Clocks held -/

/-- Is a cluster's clock held: by a stop, a droop slot, a reset, or a thermal hold. -/
def State.clockHeld (s : State) (cl : Nat) : Bool :=
  s.domHalted cl || (s.cluster cl).droopUntil.isSome || s.er.hold ||
    (match s.rs.run with | some x => decide (x.at_ + 2000 ≤ s.tm.now) | none => false) ||
    s.rs.clusters.any (fun c => c.1 == cl && decide (c.2 + 100 ≤ s.tm.now))

/-! ## Selections -/

def State.selGroup (s : State) : Group := s.group (s.fld F.WH_GRP_SEL.GROUP)
def State.selQueue (s : State) : Queue := s.queue (s.fld F.Q_SEL.QUEUE)
def State.selCtx (s : State) : Nat := s.fld F.SCHED_CTX_SEL.CONTEXT
def State.selCluster (s : State) : Nat := s.fld F.CLK_SEL.CLUSTER

/-- The bank that a register of a page shows: the selection of its selector. -/
def State.bankAt (s : State) (cls off : Nat) : Nat :=
  if cls = 0x04 ∧ (off = F.KVP_REG_BASE.BASE.off ∨ off = F.KVP_REG_COUNT.N.off) then s.fld F.KVP_REG_SEL.REGION
  else if cls = 0x08 ∧ (off = F.CLK_CL_MAX.POINT.off ∨ (C.CLK_CNT_CYCLES.off ≤ off ∧ off ≤ C.CLK_CNT_POINT_CHANGES.off + 4))
  then s.selCluster
  else if cls = 0x01 ∧ C.CL_CNT_EXEC_NS.off ≤ off ∧ off ≤ C.CL_CNT_PUBLISHED.off + 4 then s.fld F.SCHED_CLIENT_SEL.CLIENT
  else 0

/-! ## Values that follow from the state -/

/-- A value among pairs of field and value. -/
def among (f : Field) : List (Field × Nat) → Option Nat
  | [] => none
  | p :: r => if f.off = p.1.off ∧ f.lo = p.1.lo then some p.2 else among f r

/-- WELLHEAD (R82). -/
def State.shownWh (s : State) (f : Field) : Option Nat :=
  let held := s.cq.cmds.filter (fun c => c.wellhead && (c.hold == some Hold.page || c.hold == some Hold.state))
  among f
    [(F.WH_LIVE.N, s.liveAll), (F.WH_OPEN_GROUPS.N, (s.wh.groups.filter (fun g => g.2.state ≠ 0)).length),
     (F.WH_SP_FREE.N, s.sbFreeList.length), (F.WH_HOLD.WAIT_PAGE, b2n (held.any (fun c => c.hold == some Hold.page))),
     (F.WH_HOLD.WAIT_STATE, b2n (held.any (fun c => c.hold == some Hold.state))),
     (F.WH_HOLD.GROUP, match held with | c :: _ => c.groups.foldl Nat.min (c.groups.headD 0) | [] => 0),
     (F.WH_GRP_INFO.STATE, s.selGroup.state), (F.WH_GRP_INFO.BRANCHES, s.liveIn (s.fld F.WH_GRP_SEL.GROUP)),
     (F.WH_GRP_STEP.STEP, s.selGroup.steps), (F.WH_GRP_STEP.HISTORY, s.selGroup.history.length),
     (F.WH_GRP_CTX.CONTEXT, s.selGroup.owner)]

/-- KVPOOL (R207). -/
def State.shownKvp (s : State) (f : Field) : Option Nat :=
  let held := s.cq.cmds.filter (fun c => !c.wellhead && (c.hold == some Hold.page || c.hold == some Hold.table))
  among f
    [(F.KVP_FREE.N, s.kvpFree), (F.KVP_HELD.N, s.kvpHeld),
     (F.KVP_HOLD.WAIT_PAGE, b2n (held.any (fun c => c.hold == some Hold.page))),
     (F.KVP_HOLD.WAIT_TABLE, b2n (held.any (fun c => c.hold == some Hold.table))),
     (F.KVP_HOLD.QUEUE, match held with | c :: _ => c.q | [] => 0)]

/-- A core's block (R128). -/
def State.shownCore (s : State) (f : Field) (core : Nat) : Option Nat :=
  let k := s.core core
  among { f with off := 0x400 + (f.off - 0x400) % 64 }
    [(F.CORE_STATUS.BUSY, b2n (s.coreBusy core)),
     (F.CORE_STATUS.LIVE_WELLS, ((List.range 24).filter (bit k.liveMask)).length),
     (F.CORE_STATUS.TESTING, Nat.max (s.coreFld F.CORE_STATUS.TESTING core)
       (b2n (s.resetTests (core / 40) && s.coreFld F.CORE_TEST.DONE core = 0))),
     (F.CORE_STATUS.STALL_FEED, if s.coreBusy core then (Config.openCount 0x11 core 9 s.tm.now).toNat % 2 else 0),
     (F.CORE_STATUS.STALL_OUT, if s.coreBusy core then (Config.openCount 0x11 core 10 s.tm.now).toNat % 2 else 0),
     (F.CORE_STATUS.WORDQ, k.queue.length)]

/-- Is a placed core of a layer idle for want of a claimed job. -/
def SeqLayer.wantsJob (l : SeqLayer) : Bool := l.dispatched && l.job.isNone && l.ahead.isEmpty && !l.exhausted && !l.cores.isEmpty

/-- CLUSTER (R289, R558). -/
def State.shownCluster (s : State) (f : Field) (cl : Nat) : Option Nat :=
  let x := s.cluster cl
  let old := x.layers.head?
  let job := old.bind (·.job)
  if 0x400 ≤ f.off then s.shownCore f (cl * 40 + (f.off - 0x400) / 64)
  else among f
    [(F.SEQ_STATUS.BUSY, b2n (!x.layers.isEmpty)), (F.SEQ_STATUS.LAYERS, x.layers.length),
     (F.SEQ_STATUS.WAIT_CLAIM, b2n (x.layers.any SeqLayer.wantsJob)), (F.SEQ_JOB.JOB, (job.map (·.job)).getD 0),
     (F.SEQ_JOBINFO.GEN, (job.map (·.gen)).getD 0), (F.SEQ_JOBINFO.COUNTER, (old.map (·.counter)).getD 0),
     (F.CLS_STATUS.STORE_OWNED, b2n x.owner.isSome), (F.CLS_STATUS.FREE_CORES, (s.freeCores cl).length)]

/-- Are a stack's channels trained: the start has passed stage 0x8. -/
def State.trained (s : State) : Bool := s.tm.power = .minimal || decide (9 ≤ s.fld F.BOOT_STATUS.STAGE)

/-- Reductions that run on the pumps of a port die: those whose target lies in a stack of the die. -/
def State.pumpsBusy (s : State) (die : Nat) : Nat :=
  (s.cq.cmds.filter (fun c => c.kind == Kind.reduce && c.stage == Stage.running && !s.reduceBehind c &&
    (s.reduceRanges c).any (fun r => r.1 / 2 ^ 36 / 3 = die))).length

/-- PDIE and HBMC (R330, R331). -/
def State.shownMem (s : State) (f : Field) (inst : Nat) : Option Nat :=
  if f.cls = 0x20 then among f
    [(F.PDIE_WIN_CFG.DEPTH, if inst = 0 then s.fldShown F.PDIE_WIN_CFG.DEPTH else 0),
     (F.PDIE_WIN_SIZE.SIZE, if inst = 0 then s.fld F.PDIE_WIN_SIZE.SIZE else 0), (F.PDIE_STATUS.BUSY, 0), (F.PDIE_STATUS.WIN_WAIT, b2n (s.mm.window.any (fun w => !w.granted))),
     (F.PDIE_STATUS.RPUMP_BUSY, 2 ^ Nat.min 2 (s.pumpsBusy inst) - 1)]
  else among f
    [(F.HBMC_STATUS.BUSY, b2n (!(s.stack inst).reads.isEmpty)), (F.HBMC_STATUS.TRAINED, b2n s.trained)]

/-- Codes of a lane's state. -/
def LaneSt.code : LaneSt → Nat
  | .dark => 0 | .dim => 1 | .lit => 2 | .failed => 3

/-- A number with a part for each of eight lanes. -/
def lanesWord (w : Nat) (g : Nat → Nat) : Nat := (List.range 8).foldl (fun n i => n + g i * 2 ^ (w * i)) 0

/-- OPORT (R376) and HOSTLINK (R377). -/
def State.shownLink (s : State) (f : Field) (inst : Nat) : Option Nat :=
  if f.cls = 0x30 then among f
    [(F.OP_STATUS.LIT_TX, s.litLanes inst false), (F.OP_STATUS.LIT_RX, s.litLanes inst true),
     (F.OP_LANE_TX.STATE, lanesWord 2 (fun w => (s.lane inst false w).st.code)),
     (F.OP_LANE_RX.STATE, lanesWord 2 (fun w => (s.lane inst true w).st.code)),
     (F.OP_LASER.PRESENT, lanesWord 1 (fun w => b2n (s.lane inst false w).light))]
  else among f
    [(F.HL_STATUS.UP, b2n s.linkUp), (F.HL_STATUS.MINIMAL, b2n (s.tm.power == Power.minimal)),
     (F.HL_STATUS.LIVE, s.livePorts.foldl (fun n p => n + 2 ^ p) 0), (F.HL_FILTER.LINES, s.hl.filter.length)]

/-- SCHED_CTX_STATE.STATE of a context. -/
def Ctx.code (x : Ctx) : Nat :=
  if !x.exist then 0
  else match x.st with
    | .absent => 1 | .ready => 2 | .running => 3 | .yielding => 4 | .blocked => 5 | .saving => 6 | .out => 7
    | .outReady => 8 | .loading => 9

/-- SCHED (R440) and CISTERN (R378). -/
def State.shownSched (s : State) (f : Field) (inst : Nat) : Option Nat :=
  let n := s.selCtx
  let x := s.ctx n
  if f.cls = 0x22 then among f
    [(F.CIS_STATUS.STATE, (s.module inst).st), (F.CIS_STATUS.BUSY, b2n (!(s.module inst).reqs.isEmpty)),
     (F.CIS_STATUS.WORN, b2n (s.module inst).worn)]
  else among f
    [(F.SCHED_POOL_FREE.UNITS, s.poolFree / 64),
     (F.SCHED_STATUS.RESIDENT, (s.sc.ctxs.filter (fun c => c.2.slot.isSome)).length),
     (F.SCHED_STATUS.YIELDING, b2n (s.sc.ctxs.any (fun c => c.2.st == CtxSt.yielding))),
     (F.SCHED_STATUS.OUT_READY, (s.sc.ctxs.filter (fun c => c.2.st == CtxSt.outReady)).length),
     (F.SCHED_CTX_CLIENT.CLIENT, x.client.getD 0), (F.SCHED_CTX_STATE.STATE, x.code),
     (F.SCHED_CTX_STATE.SLOT, x.slot.getD 0), (F.SCHED_CTX_STATE.RESIDENT, b2n x.slot.isSome),
     (F.SCHED_CTX_STATE.CORES, (s.ctxCores n).length)]

/-- CLOCK (R456), SECURITY and LIFECYCLE (R499, R500), ERROR (R525). -/
def State.shownControl (s : State) (f : Field) : Option Nat :=
  let next := s.bt.fuses.lc.find? (fun r => !r.applied)
  match f.cls with
  | 0x08 => among f
    [(F.CLK_CL_POINT.POINT, (s.clk s.selCluster).point), (F.CLK_CL_POINT.PARKED, b2n (s.clk s.selCluster).parked),
     (F.CLK_CL_POINT.HELD, b2n (s.clockHeld s.selCluster))]
  | 0x09 => among f
    [(F.PWR_STATUS.STATE, if s.tm.power = .minimal then 3 else s.fld F.PWR_STATUS.STATE)]
  | 0x0D => among f
    [(F.SEC_STATUS.ENGINE_BUSY, 0), (F.SEC_STATUS.NO_SIGN, b2n (s.lcState == 4 || s.bt.sign.exhausted)),
     (F.SEC_REVOKED.MASK, s.bt.fuses.revoked), (F.SEC_SVN.FUSE, s.bt.fuses.svn)]
  | 0x0E => among f
    [(F.LC_STATE.STATE, s.lcState), (F.LC_STATE.TRANSITIONS, (s.bt.fuses.lc.filter (fun r => r.applied)).length),
     (F.LC_STATE.PENDING, b2n next.isSome), (F.LC_STATE.PENDING_TO, (next.map (·.target)).getD 0),
     (F.LC_JTAG.LEVEL, if s.lcState = 0 ∨ s.lcState = 3 then 2 else if s.lcState = 4 then 0 else 1)]
  | 0x40 => among f
    [(F.ERR_STATUS.HANDLING, b2n s.er.black.isSome), (F.ERR_STATUS.HANDLING_SEV, if s.er.black.isSome then 3 else 0),
     (F.ERR_STATUS.THERMAL_HOLD, b2n s.er.hold)]
  | _ => none

/-- Parts in service (R547, R548); in minimal mode those that R548 lists. -/
def State.parts (s : State) (normal minimal : Nat) : Nat := if s.tm.power = .minimal then minimal else normal

/-- Cores that are OFFLINE, clusters out of placement, compute dies removed, stacks out of service, failed ports. -/
def State.coresOffline (s : State) : Nat :=
  (s.rg.fields.filter (fun e => let p := keyParts e.1
    p.cls = 0x11 && decide (0x400 ≤ p.off) && decide (p.off < 0xE00) && p.off % 64 = 4 && p.lo = F.CORE_STATUS.OFFLINE.lo)).length
def State.clustersIn (s : State) : Nat := (allClusters.filter (fun c => s.fld F.CLS_STATUS.IN_PLACEMENT c = 1)).length

/-- Bytes 4n to 4n + 3 of the SERIAL. -/
def serialWord (n : Nat) : Nat := leNat ((List.range 4).map (fun j => Config.serial (4 * n + j)))

/-- GLOBAL (R547, R548). -/
def State.shownGlobal (s : State) (f : Field) : Option Nat :=
  let out (n : Nat) (off : Nat → Bool) : Nat := ((List.range n).filter (fun i => !off i)).length
  among f
    [(F.GL_CORES.N, s.parts (10240 - s.coresOffline) 0), (F.GL_COUNTS.CLUSTERS, s.parts s.clustersIn 0),
     (F.GL_COUNTS.CDIES, s.parts (out 16 (fun d => s.fld F.CD_STATUS.REMOVED d = 1)) 0),
     (F.GL_COUNTS.STACKS, s.parts (out 12 (fun i => (s.stack i).offline)) (1 - s.fld F.BOOT_STATUS.MIN_NO_HBM)),
     (F.GL_COUNTS.PORTS, s.parts (out 24 (fun p => s.fld F.OP_STATUS.FAILED p = 1)) 1),
     (F.GL_COUNTS.PDIES, s.parts (4 - s.mm.diesLost.length) 1), (F.GL_SERIAL0.VALUE, serialWord 0),
     (F.GL_SERIAL1.VALUE, serialWord 1), (F.GL_SERIAL2.VALUE, serialWord 2), (F.GL_SERIAL3.VALUE, serialWord 3)]

/-- Free bytes of the lineage log (R552). -/
def State.linFree (s : State) : Nat :=
  match s.linLive with
  | [] => s.linSize
  | r :: _ => if s.cq.linOff ≤ r.off then r.off - s.cq.linOff else s.linSize - s.cq.linOff + r.off

/-- QUEUE (R549). -/
def State.shownQueue (s : State) (f : Field) : Option Nat :=
  let q := s.selQueue
  among f
    [(F.Q_STATE.ENABLED, b2n q.enabled), (F.Q_STATE.DRAINING, b2n q.draining),
     (F.Q_STATE.INPUT_WAIT, b2n (q.enabled && q.next != q.tail && !q.inHand.any (fun e => e.1 == q.next))),
     (F.Q_STATE.RETURNING, b2n q.returning), (F.Q_HEAD.SEQ, q.oldest), (F.Q_TAIL.SEQ, q.tail),
     (F.Q_ENABLED.N, (s.cq.queues.filter (fun e => e.2.enabled)).length), (F.LIN_FREE.UNITS, s.linFree / 64)]

/-- PG_CAPS.UNITS: units of the instance in service. -/
def State.unitsOf (s : State) (cls inst : Nat) : Nat :=
  match cls with
  | 0x00 => s.parts ((List.range 16).filter (fun d => s.fld F.CD_STATUS.REMOVED d = 0)).length 0
  | 0x10 => ((List.range 16).filter (fun k => s.fld F.CLS_STATUS.IN_PLACEMENT (inst * 16 + k) = 1)).length
  | 0x11 => ((List.range 40).filter (fun k => s.coreFld F.CORE_STATUS.OFFLINE (inst * 40 + k) = 0)).length
  | 0x20 => ((List.range 3).filter (fun k => !(s.stack (inst * 3 + k)).offline)).length
  | 0x21 => 64 - (s.stack inst).retired.length
  | 0x30 => ((List.range 8).filter (fun w => (s.lane inst false w).st = .lit && (s.lane inst true w).st = .lit)).length
  | _ => 1

/-- The common header (R532). -/
def State.shownHdr (s : State) (f : Field) (inst : Nat) : Option Nat :=
  let c := f.cls
  among f
    [(F.PG_CAPS.UNITS c, s.unitsOf c inst), (F.PG_STATUS.BUSY c, b2n (s.pageBusy c inst)),
     (F.PG_STATUS.APPLY_PENDING c, b2n (s.rg.held.any (fun e => let p := keyParts e.1; p.cls == c && p.inst == inst))),
     (F.PG_STATUS.INT_PENDING c, b2n (s.intBits c inst ≠ 0))]

/-- The value of a read-only field that follows from the state; none for a field that holds its value. -/
def State.derived (s : State) (f : Field) (inst : Nat) : Option Nat :=
  if f.off < 0x100 then s.shownHdr f inst
  else match f.cls with
    | 0x00 => s.shownGlobal f
    | 0x01 | 0x22 => s.shownSched f inst
    | 0x02 => s.shownWh f
    | 0x03 => s.shownQueue f
    | 0x04 => s.shownKvp f
    | 0x08 | 0x09 | 0x0D | 0x0E | 0x40 => s.shownControl f
    | 0x11 => s.shownCluster f inst
    | 0x20 | 0x21 => s.shownMem f inst
    | 0x30 | 0x31 => s.shownLink f inst
    | _ => none

/-- What a read of a field returns: write-only fields read zero (R17), a boundary-shadowed field shows the value last
written (R540). -/
def State.shown (s : State) (f : Field) (inst : Nat) : Nat :=
  if f.acc = .wo then 0
  else match s.derived f inst with
    | some v => v % 2 ^ f.width
    | none => s.fldShown f inst (s.bankAt f.cls f.off)

/-- The 32 bytes of an error record (table "Error record"). -/
def ErrRec.bytes (r : ErrRec) : List Byte :=
  toLE 8 r.time ++ toLE 4 r.seq ++ toLE 2 r.code ++ toLE 1 r.sevByte ++ toLE 1 r.repeated ++ toLE 2 r.inst ++ toLE 2 r.unit ++
    toLE 2 r.ctx ++ toLE 2 r.q ++ toLE 4 r.cmd ++ toLE 4 r.detail

/-- The records that registers show byte by byte: ERR_FIRST and ERR_RING (R525), and CIS_IDENT (R378). A slot that holds no
record reads zero. -/
def State.recordAt (s : State) (cls inst off : Nat) : Option (List Byte × Nat) :=
  if cls = 0x40 ∧ 0x140 ≤ off ∧ off < 0x160 then some ((s.er.first.map ErrRec.bytes).getD [], off - 0x140)
  else if cls = 0x40 ∧ 0x800 ≤ off then
    some (((s.er.ring.find? (fun e => e.1 == (off - 0x800) / 32)).map (fun e => e.2.bytes)).getD [], (off - 0x800) % 32)
  else if cls = 0x22 ∧ 0x1C0 ≤ off ∧ off < 0x200 then some ((s.module inst).ident, off - 0x1C0)
  else none

/-- A register of 32 bits as a read returns it. -/
def State.regWord (s : State) (cls inst off : Nat) : Nat :=
  match s.recordAt cls inst off with
  | some (b, i) => field b i 4
  | none => (fieldsAt cls off).foldl (fun n f => n + s.shown f inst * 2 ^ f.lo) 0

/-! ## Registers of 64 bits -/

/-- The 64-bit registers of a class. -/
def classCnts (cls : Nat) : List Cnt :=
  match cls with
  | 0x00 => cntsOfGlobal | 0x01 => cntsOfSched | 0x02 => cntsOfWellhead | 0x03 => cntsOfQueue | 0x04 => cntsOfKvpool
  | 0x08 => cntsOfClock | 0x09 => cntsOfPower | 0x0A => cntsOfReset | 0x0C => cntsOfBoot | 0x0D => cntsOfSecurity
  | 0x11 => cntsOfCluster | 0x20 => cntsOfPdie | 0x21 => cntsOfHbmc | 0x22 => cntsOfCistern | 0x30 => cntsOfOport
  | 0x31 => cntsOfHostlink | 0x38 => cntsOfMgmt | 0x40 => cntsOfError | 0x41 => cntsOfTrace | 0x43 => cntsOfStop
  | _ => []

/-- Is there a 64-bit register at an offset of a page: a counter slot's COUNT or SNAP, PG_SNAP_TIME, or one of the block or
of a core. -/
def cntHere (cls off : Nat) : Bool :=
  (decide (0x28 ≤ off) && off = 0x28) || (decide (0x40 ≤ off) && decide (off < 0x100) && off % 8 = 0) ||
    (classCnts cls).any (fun c => c.off == off) ||
    (cls = 0x11 && decide (0x400 ≤ off) && decide (off < 0xE00) &&
      cntsOfCore.any (fun c => c.off == 0x400 + (off - 0x400) % 64))

/-- The value of the 64-bit register at an offset. -/
def State.cntWord (s : State) (cls inst off : Nat) : Nat :=
  if openCnt cls inst off then s.openWord cls inst off
  else if 0x40 ≤ off ∧ off < 0x100 then
    let n := (off - 0x40) / 16
    if off % 16 = 0 then s.slot cls inst n else look 0 s.rg.snaps (slotKey cls inst n)
  else if cls = 0x08 ∧ off = C.CLK_TB.off then s.tm.now
  else if cls = 0x03 ∧ off = C.LIN_NEXT.off then s.cq.linNext
  else if cls = 0x03 ∧ off = C.LIN_OLDEST.off then
    ((s.cq.lineage.find? (fun r => !r.retired)).map (·.index)).getD s.cq.linNext
  else if cls = 0x43 ∧ off = C.STOP_CAP_DATA.off then leNat (rdBytes s.st.capture (s.fld F.STOP_CAP_ADDR.OFFSET / 8 * 8) 8)
  else s.cnt ⟨cls, off⟩ inst (s.bankAt cls off)

end Sys2Proof.Machine
end

