-- ==== Sys2Proof/Machine/Clock.lean ====
section
/-! DEFINITION. What one nanosecond of the time base does: the counters that count time, and the time base itself (log 1;
R436 to R439, R445, R447, R521, R537). -/

namespace Sys2Proof.Machine

/-- Time from T to T₂ of a stop, which no client's accounting counts (R521). -/
def State.inStop (s : State) : Bool :=
  s.stopState ≠ 0 && decide (s.st.cut ≤ s.tm.now) && (s.stopState ≠ 4 || decide (s.tm.now < s.cnt C.STOP_TARGET))

/-! ## Accounting (R436 to R439) -/

/-- Is a command executing: it runs, is held by nothing, and where cores do its work it has some. -/
def State.executing (s : State) (c : Cmd) : Bool :=
  c.stage == Stage.running && c.hold.isNone &&
    (match c.kind with
     | .run => !(s.coresOf c.q c.seq).isEmpty
     | .step => !c.work.inStep || !(s.coresOf c.q c.seq).isEmpty
     | _ => true)

/-- A nanosecond of a command that does not execute: queue waiting time, and hold time where it is held. -/
def State.tickWait (s : State) (c : Cmd) : State :=
  if s.executing c ∨ c.hold = some .rederive then s
  else
    let s := s.addCnt C.CL_CNT_WAIT_NS 1 0 c.client
    if c.held then s.addCnt C.CL_CNT_HOLD_NS 1 0 c.client else s

/-- A nanosecond of a core that a layer holds: execution time of its client, or recovery time where the item's generation
is above 0. -/
def State.tickCore (s : State) (p : Place) : State :=
  match s.cmd? p.q p.seq with
  | none => s
  | some c =>
    if 0 < p.gen then s.addCnt C.SCHED_CNT_RECOVERY_NS 1
    else (s.setCmd { c with execNs := c.execNs + 1 }).addCnt C.CL_CNT_EXEC_NS 1 0 c.client

/-- A nanosecond of overrun: a context that is YIELDING. -/
def State.tickYield (s : State) (x : Ctx) : State :=
  match x.client with
  | some c => if x.st = .yielding then s.addCnt C.CL_CNT_OVERRUN_NS 1 0 c else s
  | none => s

def State.tickAccounts (s : State) : State :=
  if s.inStop then s
  else
    let t := s.cq.cmds.foldl State.tickWait s
    let t := (s.tl.cores.filterMap (fun k => k.2.place)).foldl State.tickCore t
    (s.sc.ctxs.map (·.2)).foldl State.tickYield t

/-! ## The counters of blocks -/

/-- One where a condition holds. -/
def State.tickIf (s : State) (b : Bool) (c : Cnt) (inst : Nat := 0) : State := if b then s.addCnt c 1 inst else s

/-- Holds (R82, R207), hot stacks (R331), limits and throttling (R456). -/
def State.tickBlocks (s : State) : State :=
  let hold (h : Hold) (c : Cmd) : Bool := c.hold == some h
  let s := s.tickIf (s.cq.cmds.any (fun c => hold .page c || hold .table c)) C.KVP_CNT_HOLD_NS
  let s := s.tickIf (s.cq.cmds.any (fun c => c.wellhead && (hold .page c || hold .state c))) C.WH_CNT_HOLD_NS
  let s := (List.range 12).foldl (fun s i => s.tickIf (decide (1 ≤ (s.stack i).stepInForce)) C.HBMC_CNT_HOT_NS i) s
  let s := s.tickIf s.pw.limiting C.PWR_CNT_LIMITED_NS
  s.tickIf (s.pw.hotAll || !s.pw.hotDies.isEmpty) C.PWR_CNT_THERMAL_NS

/-- BUSY_NS of every page (R537). -/
def State.tickBusy (s : State) : State :=
  pageClasses.foldl
    (fun s p => (List.range p.2.1).foldl
      (fun s i => if s.pagePowered p.1 i && s.pageBusy p.1 i then s.addSlot p.1 i 8 1 else s) s) s

/-- Edges of a clock of f MHz in the nanosecond from t. -/
def edgesIn (f t : Nat) : Nat := f * (t + 1) / 1000 - f * t / 1000

/-- Clock cycles of each cluster whose clock runs (R447, R455). -/
def State.tickClocks (s : State) : State :=
  if s.tm.power = .active then
    allClusters.foldl
      (fun s cl => if s.clockHeld cl then s else s.addCnt C.CLK_CNT_CYCLES (edgesIn (s.clusterMHz cl) s.tm.now) 0 cl) s
  else s

/-- Codewords of 51.2 ns received on each lit lane (R333; the phase is free, log 13). -/
def State.tickCodewords (s : State) : State :=
  (List.range 24).foldl
    (fun s p =>
      let t := s.tm.now + (s.port p).phase
      s.addCnt C.OP_CNT_CW ((5 * (t + 1) / 256 - 5 * t / 256) * s.litLanes p true) p) s

/-- One nanosecond passes; without power nothing does (R445). A calibration slot that has lasted its time ends (R27). -/
def State.tick (s : State) : State :=
  if s.tm.power = .off then s
  else
    let s := s.tickAccounts.tickBlocks.tickBusy.tickClocks.tickCodewords
    let s : State := { s with tm.now := s.tm.now + 1 }
    s.droopSlotsOver.portSlotsOver.retrainsOver

end Sys2Proof.Machine
end

