-- ==== Sys2Proof/Machine/Boot.lean ====
section
/-! DEFINITION. Power-on and power loss, the boot stages, the boot flash and its logs, firmware update, life cycle and
attestation (13_boot_security.md; R457 to R459, R468 to R500, R565). -/

namespace Sys2Proof.Machine

/-! ## The logs (R480, R481) -/

/-- A record committed to a log; the log keeps the current value of every TYPE (log 16). -/
def appendLog (l : List LogRec) (type value time : Nat) : List LogRec :=
  l ++ [{ seq := (l.getLast?.map (·.seq)).getD 0 + 1, type := type, value := value, time := time }]

/-- The current value of a TYPE: that of its record with the highest SEQ. -/
def logValue (l : List LogRec) (type : Nat) : Option Nat := ((l.filter (fun r => r.type = type)).getLast?).map (·.value)

def State.commitState (s : State) (type value : Nat) : State :=
  ({ s with bt.stateLog := appendLog s.bt.stateLog type value s.tm.now } : State).addCnt C.BOOT_CNT_RECORDS 1

def State.commitRes (s : State) (type value : Nat) : State :=
  ({ s with bt.resLog := appendLog s.bt.resLog type value s.tm.now } : State).addCnt C.BOOT_CNT_RECORDS 1

/-- The failure counter (R473). -/
def State.failCount (s : State) : Nat := (logValue s.bt.stateLog 1).getD 0

/-- The codes of the failed starts that the log tells, newest first: a counter raised begins a start, which a FAIL record
gives its code, 0 when none does, and a counter of 0 ends as not failed (R472; log 48). -/
def failedStarts (l : List LogRec) : List Nat :=
  (l.foldl (fun (x : List Nat × Bool) r =>
    if r.type = 1 then (if r.value = 0 then (if x.2 then (x.1.drop 1, false) else x) else (0 :: x.1, true))
    else if r.type = 2 then (if x.2 then ((r.value % 256) :: x.1.drop 1, false) else ((r.value % 256) :: x.1, false))
    else x) ([], false)).1

/-! ## The boot flash (R479, R480) -/

/-- Offsets of the identity area and of the firmware slots. -/
def slotBase (k : Nat) : Nat := 0x1000000 * (k + 1)

/-- A byte of an image header as delivered (table "Firmware image header"): its MAGIC, FORMAT 1, an SVN of at most 64, a
vendor key 0 to 3, STEPPINGS with B1, a LENGTH within the slot, zeros where the table has them; the rest is free. -/
def headerByte (base magic i : Nat) : Byte :=
  let v (j : Nat) : Nat := (Config.flashByte (base + j)).toNat
  if i < 4 then (toLE 4 magic).getD i 0
  else if i < 8 then (toLE 4 1).getD (i - 4) 0
  else if i < 0xC then Config.flashByte (base + i)
  else if i < 0x10 then (toLE 4 (v 0xC % 65)).getD (i - 0xC) 0
  else if i < 0x14 then (toLE 4 (v 0x10 % 4)).getD (i - 0x10) 0
  else if i < 0x18 then (toLE 4 (4 + v 0x14 % 4)).getD (i - 0x14) 0
  else if i < 0x20 then (toLE 8 ((v 0x18 + 256 * v 0x19 + 65536 * v 0x1A) % 0xFFF001)).getD (i - 0x18) 0
  else if i < 0x40 then Config.flashByte (base + i)
  else if i < 0x80 then 0
  else if i < 0x62C then Config.flashByte (base + i)
  else 0

/-- A byte of the boot flash as delivered (R7, R480, "Firmware images"): the layout header, the erased areas, the calibration
store bound to the SERIAL and the firmware of slot 0 (log 16). -/
def deliveredByte (a : Nat) : Byte :=
  if a < 8 then (toLE 4 0x4B424C31 ++ toLE 4 1).getD a 0
  else if (0x50000 ≤ a ∧ a < 0x100000) ∨ (0xA00000 ≤ a ∧ a < 0x1000000) ∨ (0x3000000 ≤ a ∧ a < 0x4000000) then 0xFF
  else if 0x100000 ≤ a ∧ a < 0x101000 then headerByte 0x100000 0x4B43414C (a - 0x100000)
  else if 0x101000 ≤ a ∧ a < 0x101010 then Config.serial (a - 0x101000)
  else if 0x1000000 ≤ a ∧ a < 0x1001000 then headerByte 0x1000000 0x4B464D31 (a - 0x1000000)
  else Config.flashByte a

def State.flashByte (s : State) (a : Nat) : Byte :=
  match s.bt.flash.find? (fun c => c.1 == a) with
  | some c => c.2
  | none =>
    if s.bt.erased ∧ ((0x200000 ≤ a ∧ a < 0xA00000) ∨ (0x1000000 ≤ a ∧ a < 0x3000000)) then 0xFF else deliveredByte a

def State.flashBytes (s : State) (a n : Nat) : List Byte := (List.range n).map (fun i => s.flashByte (a + i))

/-! ## Firmware images (R484) -/

def fwHeader (s : State) (slot : Nat) : List Byte := s.flashBytes (slotBase slot) 0x1000

/-- SHA-256 of some bytes. -/
def digestOf (b : List Byte) : List Byte := (List.range 32).map (Config.sha256 b)

/-- Does a slot hold what the device was delivered with: slot 0, neither written nor erased (R7; log 16). -/
def State.asDelivered (s : State) (slot : Nat) : Bool :=
  slot = 0 && !s.bt.erased && s.bt.flash.all (fun c => decide (c.1 < slotBase 0) || decide (slotBase 1 ≤ c.1))

/-- A well-formed header of an image that STEPPINGS lets run on this device. -/
def wellHeaded (h : List Byte) : Bool :=
  field h 0 4 = 0x4B464D31 && field h 4 4 = 1 && decide (field h 0xC 4 ≤ 64) && decide (field h 0x10 4 ≤ 3) &&
    decide (field h 0x18 8 ≤ 0xFFF000) && allZero ((h.drop 0x40).take 64) && allZero (h.drop 0x62C) && bit (field h 0x14 4) 2

/-- Is the key of a header not revoked, its signature valid, and the payload of its slot the one it was made for. The image
delivered is Kiodom's own (R7). -/
def State.signedBy (s : State) (slot : Nat) (h : List Byte) : Bool :=
  !bit s.bt.fuses.revoked (field h 0x10 4) &&
    (s.asDelivered slot || (Config.lmsVerify (field h 0x10 4) (h.take 128) ((h.drop 128).take 1452) &&
      digestOf (s.flashBytes (slotBase slot + 0x1000) (field h 0x18 8)) = (h.drop 0x20).take 32))

/-- What keeps stage 0x4 from accepting a slot, as the low digit of the failure code: 1 no image, 2 its signature, 3 its SVN; 0
nothing (R484; which of the checks gives which code is DEDUCED from the codes' names, log 48). -/
def State.slotCode (s : State) (slot : Nat) : Nat :=
  let h := fwHeader s slot
  if !(s.asDelivered slot || wellHeaded h) then 1
  else if !s.signedBy slot h then 2
  else if field h 0xC 4 < s.bt.fuses.svn then 3
  else 0

/-- Does a slot hold an image that stage 0x4 accepts. -/
def State.slotOk (s : State) (slot : Nat) : Bool := s.slotCode slot = 0

/-- The slot preferred: that of the newest PREFER record, slot 0 when there is none. -/
def State.preferred (s : State) : Nat := (logValue s.bt.stateLog 3).getD 0 % 2

/-- Stage 0x4 is done: the preferred slot runs, or the other, with FALLBACK. -/
def State.loadFirmware (s : State) : State :=
  let p := s.preferred
  let slot := if s.slotOk p then p else 1 - p
  let h := fwHeader s slot
  let s := (s.setFld F.BOOT_STATUS.SLOT slot).setFld F.BOOT_STATUS.FALLBACK (b2n (slot ≠ p))
  let s := (s.setFld F.BOOT_FW.VERSION (field h 8 4)).setFld F.BOOT_SVN.SVN (field h 0xC 4)
  { s with bt.fwKey := some (field h 0x10 4 % 4) }

/-! ## Power-on and power loss (R457 to R459, R565) -/

/-- What outlives a loss of power: the boot flash, the fuses and the signature state that the flash holds; the host's
memory, which is not the device's; and what only the model counts. -/
def State.afterPower (s : State) (p : Power) : State :=
  let t : State := State.reset
  { t with
    tm.power := p
    hl.hostMem := s.hl.hostMem
    bt := { stateLog := s.bt.stateLog, resLog := s.bt.resLog, flash := s.bt.flash, erased := s.bt.erased
            fuses := s.bt.fuses
            sign := { s.bt.sign.dropBlock with generating := none } }
    free := s.free, pending := s.pending }

/-- PWR_OK is asserted: the straps are sampled, and the control die leaves power-on reset 2 ms later, with the time base
at 0 (log 12). -/
def State.pwrOk (s : State) (straps : Nat) : State :=
  if s.tm.power ≠ .off then s
  else
    let s := s.afterPower .starting
    let s : State := { s with tm.straps := straps }
    s.setFld F.MG_CFG.STATIC_ADDR (0x40 + straps)

def execPwrOk (straps : Fin 16) (s : State) : Host.Outcome State Fault Refusal := .next (s.pwrOk straps)

/-- The device stops at once, in any state. -/
def execPowerLoss (s : State) : Host.Outcome State Fault Refusal := .next (s.afterPower .off)

/-! ## Life cycle (R494 to R497) -/

def State.lcPending (s : State) : Option LcRec := s.bt.fuses.lc.find? (fun r => !r.applied)
def State.lcCount (s : State) : Nat := (s.bt.fuses.lc.filter (fun r => r.applied)).length

/-- A pending transition is applied at stage 0x1; the wipes are those of the power-on under way (R495, R496). -/
def State.lcApply (s : State) : State :=
  match s.lcPending with
  | none => s
  | some r =>
    let erase := r.target = 4
    { s with
      bt.fuses.lc := s.bt.fuses.lc.map (fun x => { x with applied := true })
      bt.erased := s.bt.erased || erase
      bt.flash := if erase then s.bt.flash.filter (fun c =>
        !(decide (0x200000 ≤ c.1) && decide (c.1 < 0xA00000)) && !(decide (0x1000000 ≤ c.1) && decide (c.1 < 0x3000000)))
        else s.bt.flash }

/-- Is a transition in the table, and does it need a token (R494). -/
def lcAllowed (start dst : Nat) : Bool :=
  (start = 0 && dst = 1) || (start = 1 && dst = 2) || ((start = 1 || start = 2) && dst = 3) || (start = 3 && dst = 1) ||
    ((start = 1 || start = 2 || start = 3) && dst = 4)
def lcNeedsToken (start dst : Nat) : Bool := (start = 0 || start = 3) && dst = 1

/-- The device SERIAL. -/
def serialBytes : List Byte := (List.range 16).map Config.serial

/-- Does a life-cycle token allow a transition (13, "Life-cycle token"). -/
def State.tokenOk (s : State) (dst : Nat) (t : List Byte) : Bool :=
  t.length = 1484 && field t 0 4 = 1 && field t 4 1 = s.lcState && field t 5 1 = dst && field t 6 2 = 0 &&
    (t.drop 8).take 16 = serialBytes && field t 0x18 4 = s.lcCount && decide (field t 0x1C 4 ≤ 3) &&
    !bit s.bt.fuses.revoked (field t 0x1C 4) && Config.lmsVerify (field t 0x1C 4) (t.take 32) (t.drop 32)

/-- A request for a transition, with the token that came with it; LC_STATUS.RESULT says how it ended (R494, R495). -/
def State.lcRequestOp (s : State) (dst : Nat) (token : Option (List Byte)) : State :=
  let tok := token.getD []
  let r : Nat :=
    if s.lcPending.isSome then 5
    else if !lcAllowed s.lcState dst then 1
    else if lcNeedsToken s.lcState dst ∧ tok = [] then 2
    else if lcNeedsToken s.lcState dst ∧ !s.tokenOk dst tok then 3
    else if 16 ≤ s.bt.fuses.lc.length then 4
    else 0
  let s := s.setFld F.LC_STATUS.RESULT r
  if r = 0 then { s with bt.fuses.lc := s.bt.fuses.lc ++ [{ target := dst, applied := false }] } else s

/-- LC_GO.GO. -/
def execLcGo (r : Requester) (s : State) : Host.Outcome State Fault Refusal :=
  .next (s.opWrite r 0x0E 0 0x108 1 (fun s => s.lcRequestOp (s.fld F.LC_TARGET.STATE) none))

/-! ## Index reservation (R486 to R489) -/

/-- The first index of the next block: 256 above the newest RESERVE; a tree whose TOP_USED is committed without a stored
signature is abandoned (R488). -/
def State.nextBlock (s : State) : Nat :=
  let a := match logValue s.bt.resLog 4 with | some v => v + 256 | none => 0
  match logValue s.bt.resLog 5 with
  | some j => if s.bt.sign.signedTrees.contains j then a else Nat.max a ((j + 1) * 2 ^ 15)
  | none => a

/-- SEC_NEXT_INDEX follows the state (R499). -/
def State.showIndex (s : State) : State :=
  let n := s.bt.sign.next.getD s.nextBlock
  (s.setCnt C.SEC_NEXT_INDEX n).setFld F.SEC_STATUS.TREE (n / 2 ^ 15)

/-- Generation of the tree after j begins once a block in its upper half is reserved (R489). -/
def State.startTree (s : State) (first : Nat) : State :=
  let j := first / 2 ^ 15
  if 2 ^ 14 ≤ first % 2 ^ 15 ∧ j + 1 < 2 ^ 15 ∧ !s.bt.sign.stored.contains (j + 1) ∧ s.bt.sign.generating = none then
    ({ s with bt.sign.generating := some (j + 1, s.tm.now) } : State).setFld F.SEC_STATUS.TREE_GEN 1 |>.setFld
      F.SEC_STATUS.TREE_READY 0
  else s

/-- A block of 256 indices is reserved by a committed RESERVE record; indices given up are counted (R486 to R488). -/
def State.reserve (s : State) : State :=
  let first := s.nextBlock
  let skip := first - (match logValue s.bt.resLog 4 with | some v => v + 256 | none => 0)
  let s := (s.commitRes 4 first).addCnt C.SEC_CNT_RESERVED 1
  let s := s.addCnt C.SEC_CNT_ABANDONED (s.bt.sign.lost + skip)
  let s : State := { s with bt.sign.next := some first, bt.sign.left := 256, bt.sign.lost := 0 }
  s.startTree first

/-- A bottom tree is generated after 1.45 s: TOP_USED is committed and its signed public key stored (R488, R489). -/
def State.treeDone (s : State) : State :=
  match s.bt.sign.generating with
  | none => s
  | some (j, t) =>
    if !s.powered ∨ s.tm.now < t + 1450000000 then s
    else
      let s := s.commitRes 5 j
      let s : State := { s with bt.sign := { s.bt.sign with
        generating := none, stored := s.bt.sign.stored ++ [j], signedTrees := s.bt.sign.signedTrees ++ [j] } }
      ((s.setFld F.SEC_STATUS.TREE_GEN 0).setFld F.SEC_STATUS.TREE_READY 1).setInt F.SEC_INT_STATUS.TREE_DONE

def execTreeDone (s : State) : Host.Outcome State Fault Refusal := .next s.treeDone

/-! ## Boot stages (R468 to R474) -/

/-- The time limit of a stage in ms; none for the last two. -/
def stageLimit (n : Nat) : Option Nat :=
  [none, some 20, some 100, some 50, some 1000, some 200, some 100, some 100, some 500, some 20].getD n none

/-- How many failure codes the table gives a stage. -/
def stageCodes (n : Nat) : Nat := [0, 2, 3, 1, 3, 2, 2, 3, 1].getD n 0

/-- BOOT_FAIL from the log. -/
def State.showFails (s : State) (l : List Nat) : State :=
  ((s.setFld F.BOOT_FAIL.CODE0 (l.getD 0 0)).setFld F.BOOT_FAIL.CODE1 (l.getD 1 0)).setFld F.BOOT_FAIL.CODE2 (l.getD 2 0)

/-- KCL ports enabled, for stage 0xA and minimal mode (log 49). -/
def State.enableKcl (s : State) : State := (List.range 8).foldl State.portEnable s

/-- Minimal mode entered by a start (R473, R474). -/
def State.bootMinimal (s : State) (kind : Nat) : State := s.enableKcl.enterMinimal kind 0 0

/-- A stage fails: stage 0x2 without a log and stage 0x3 unable to write it enter minimal mode (R474); any other writes
a FAIL record and halts (R471). Without a flash no log can be written (log 48). -/
def State.stageFail (s : State) (code : Nat) : State :=
  if code = 0x23 ∨ code = 0x31 then (s.showFails (code :: failedStarts s.bt.stateLog)).bootMinimal 2
  else
    let s := if code = 0x21 then s else s.commitState 2 (code + 256 * (code / 16))
    let l := failedStarts s.bt.stateLog
    let s := s.showFails (if code = 0x21 then code :: l else l)
    let s : State := { s with tm.power := .halted }
    s.setFld F.BOOT_STATUS.MODE 3

/-- Is a part out of service at the end of a start (R470). -/
def State.degraded (s : State) : Bool :=
  s.rg.fields.any (fun e => let p := keyParts e.1
    p.cls = 0x11 && decide (0x400 ≤ p.off) && decide (p.off < 0xE00) && p.off % 64 = 4 && p.lo = F.CORE_STATUS.OFFLINE.lo) ||
    s.tl.clusters.any (fun e => e.2.removed) || s.mm.hbm.any (fun e => e.2.retired ≠ []) ||
    (List.range 24).any (fun p => s.fld F.OP_STATUS.FAILED p = 1)

/-- The work of a stage, and what comes about as it completes. -/
def State.stageWork (s : State) (n : Nat) (untrained : List (Fin 12 × Fin 64)) : State :=
  match n with
  | 1 => ((s.lcApply.setFld F.CLK_STATUS.REF0_OK 1).setFld F.CLK_STATUS.REF1_OK 1).setFld F.BOOT_STATUS.STAGE 2
  | 2 => (s.showFails (failedStarts s.bt.stateLog)).setFld F.BOOT_STATUS.STAGE 3
  | 3 =>
    let k := s.failCount
    let s := s.setFld F.BOOT_STATUS.COUNT (Nat.min 7 k)
    if 3 ≤ k then s.bootMinimal 1 else (s.commitState 1 (k + 1)).setFld F.BOOT_STATUS.STAGE 4
  | 4 =>
    if s.slotOk s.preferred || s.slotOk (1 - s.preferred) then s.loadFirmware.setFld F.BOOT_STATUS.STAGE 5
    else s.stageFail (0x40 + s.slotCode s.preferred)
  | 5 => s.setFld F.BOOT_STATUS.STAGE 6
  | 6 => s.showIndex.setFld F.BOOT_STATUS.STAGE 7
  | 7 => (s.setFld F.CLK_STATUS.PLL_LOCKED 1).setFld F.BOOT_STATUS.STAGE 8
  | 8 =>
    let twice := (List.range 12).any (fun i => decide (1 < ((untrained.filter (fun u => u.1.val = i)).map (·.2)).eraseDups.length))
    if twice then s.stageFail 0x81
    else (untrained.foldl (fun s u => s.retire u.1 u.2) s).setFld F.BOOT_STATUS.STAGE 9
  | 9 => (s.commitState 1 0).enableKcl.setFld F.BOOT_STATUS.STAGE 10
  | 10 => if s.linkUp then s.setFld F.BOOT_STATUS.STAGE 11 else s
  | 11 =>
    let s : State := { s with tm.power := .active }
    let s := (s.setFld F.BOOT_STATUS.MODE 1).setCnt C.BOOT_DONE_NS s.tm.now
    if s.degraded then (s.setFld F.BOOT_STATUS.DEGRADED 1).raise 0x0C01 1 else s
  | _ => s

/-- A boot stage ends; the next begins when it has completed. -/
def State.bootStage (s : State) (e : StageEnd) : State :=
  if s.tm.power ≠ .starting then s
  else
    let n := s.fld F.BOOT_STATUS.STAGE
    match e with
    | .done u =>
      let s := s.stageWork n u
      { s with bt.stageAt := s.tm.now }
    | .failed d => if 1 ≤ d.val ∧ d.val ≤ stageCodes n then s.stageFail (16 * n + d.val) else s

def execBootStage (e : StageEnd) (s : State) : Host.Outcome State Fault Refusal := .next (s.bootStage e)

/-- A stage that has not completed by its limit fails (R469). -/
def State.stageTimeout (s : State) : State :=
  if s.tm.power ≠ .starting then s
  else
    let n := s.fld F.BOOT_STATUS.STAGE
    match stageLimit n with
    | none => s
    | some ms => if s.bt.stageAt + ms * 1000000 ≤ s.tm.now then s.stageFail (16 * n + 15) else s

def execStageTimeout (s : State) : Host.Outcome State Fault Refusal := .next s.stageTimeout

/-! ## BOOT_CTRL and SEC_CTRL (R477, R485, R499) -/

def State.clearCountOp (s : State) : State := s.commitState 1 0
def State.preferOp (s : State) (slot : Nat) : State := s.commitState 3 slot

/-- COMMIT_SVN raises the fuse count to the running image's SVN, never lowering it; it is ignored in minimal mode and
under FALLBACK. -/
def State.commitSvnOp (s : State) : State :=
  if s.tm.power = .minimal ∨ s.fld F.BOOT_STATUS.FALLBACK = 1 then s
  else { s with bt.fuses.svn := Nat.max s.bt.fuses.svn (Nat.min 64 (s.fld F.BOOT_SVN.SVN)) }

/-- REVOKE of a vendor key slot; that of the slot that signed the running image is ignored. -/
def State.revokeKeyOp (s : State) (slot : Nat) : State :=
  if s.bt.fwKey = some slot then s else { s with bt.fuses.revoked := Nat.lor s.bt.fuses.revoked (2 ^ slot) }

/-- A write of BOOT_CTRL. -/
def State.bootCtrl (s : State) (v : Nat) : State :=
  let s := if bit v 0 then s.clearCountOp else s
  if bit v 1 then s.preferOp (bits v 2 2) else s

/-- A write of SEC_CTRL. -/
def State.secCtrl (s : State) (v : Nat) : State :=
  let s := if bit v 0 then s.commitSvnOp else s
  if bit v 1 then s.revokeKeyOp (bits v 5 4) else s

def execBootCtrlClearCount (r : Requester) (s : State) : Host.Outcome State Fault Refusal :=
  .next (s.opWrite r 0x0C 0 0x114 1 State.clearCountOp)
def execSetPrefer (r : Requester) (slot : Fin 2) (s : State) : Host.Outcome State Fault Refusal :=
  .next (s.opWrite r 0x0C 0 0x114 (2 + 4 * slot.val) (fun s => s.preferOp slot))
def execCommitSvn (r : Requester) (s : State) : Host.Outcome State Fault Refusal :=
  .next (s.opWrite r 0x0D 0 0x10C 1 State.commitSvnOp)
def execSecCtrlRevoke (r : Requester) (slot : Fin 4) (s : State) : Host.Outcome State Fault Refusal :=
  .next (s.opWrite r 0x0D 0 0x10C (2 + 16 * slot.val) (fun s => s.revokeKeyOp slot))

/-! ## Attestation (R490 to R492) -/

/-- An answer to a management message: completion status and data. -/
structure Reply where
  status : Nat := 0
  data   : List Byte := []
deriving DecidableEq, Repr

def identityReply : Reply := { data := serialBytes ++ (List.range 60).map Config.identityKey }

/-- GET_CERT: up to 1,024 bytes of the 1,600 of the certificate. -/
def certReply (off len : Nat) : Reply :=
  if 1024 < len ∨ 1600 < off + len then { status := 5 }
  else { data := (List.range len).map (fun i => Config.certificate (off + i)) }

/-- A page register as its fields read. -/
def State.word (s : State) (cls inst off : Nat) : Nat :=
  (fieldsAt cls off).foldl (fun n f => n + s.fld f inst * 2 ^ f.lo) 0

def State.bootCauseReply (s : State) : Reply :=
  { data := toLE 4 (s.word 0x0C 0 0x100) ++ toLE 4 (s.word 0x0C 0 0x104) ++ toLE 4 (s.word 0x0C 0 0x108) }

/-- Indices not yet used or given up. -/
def State.indicesLeft (s : State) : Nat :=
  if s.bt.sign.exhausted then 0 else 2 ^ 30 - s.bt.sign.next.getD s.nextBlock

def State.signStateReply (s : State) : Reply :=
  { data := toLE 8 (s.bt.sign.next.getD s.nextBlock) ++ toLE 8 s.indicesLeft }

/-- The report (table "Attestation report"). -/
def State.report (s : State) (nonce : List Byte) (index : Nat) : List Byte :=
  let mini := s.tm.power = .minimal
  let fw := if mini then (List.range 32).map Config.romDigest else ((fwHeader s (s.fld F.BOOT_STATUS.SLOT)).drop 0x20).take 32
  toLE 4 1 ++ toLE 1 s.lcState ++ toLE 1 0x11 ++ toLE 1 (b2n mini) ++ toLE 1 (s.fld F.BOOT_STATUS.COUNT) ++
    toLE 8 s.tm.now ++ nonce ++ fw ++ toLE 4 (if mini then Config.romSvn else s.fld F.BOOT_SVN.SVN) ++
    toLE 4 s.bt.fuses.svn ++ s.flashBytes 0x100020 32 ++ toLE 4 s.lcCount ++ toLE 4 s.bt.fuses.revoked ++ serialBytes ++
    toLE 8 index ++ List.replicate 40 0

/-- The index to sign with is ready: a block is held, or the next one's tree is stored. -/
def State.treeReady (s : State) : Bool :=
  s.bt.sign.next.isSome || s.bt.sign.stored.contains (s.nextBlock / 2 ^ 15)

/-- The report signed with an index of the block held. -/
def State.sign (s : State) (nonce : List Byte) : State × Reply :=
  let i := s.bt.sign.next.getD 0
  let left := s.bt.sign.left - 1
  let was := s.indicesLeft
  let r := s.report nonce i
  let sg : Sign := { s.bt.sign with
    next := if left = 0 then none else some (i + 1), left := left, exhausted := i + 1 = 2 ^ 30 }
  let s := ({ s with bt.sign := sg } : State).addCnt C.SEC_CNT_SIGNED 1
  let s := if sg.exhausted then s.setFld F.SEC_STATUS.NO_SIGN 1 else s
  let s := if 2 ^ 20 ≤ was ∧ s.indicesLeft < 2 ^ 20 then (s.setInt F.SEC_INT_STATUS.LOW_INDICES).raise 0x0D01 0 else s
  (s.showIndex, { data := r ++ (List.range 5396).map (Config.hssSign i r) })

/-- ATTEST: EXHAUSTED where R492 applies, BUSY while a tree it needs is not generated (R489). -/
def State.attestOp (s : State) (nonce : List Byte) : State × Reply :=
  if nonce.length ≠ 32 then (s, { status := 5 })
  else if s.lcState = 4 ∨ s.bt.sign.exhausted then (s.setFld F.SEC_STATUS.NO_SIGN 1, { status := 2 })
  else if !s.treeReady then (s, { status := 1 })
  else (if s.bt.sign.next.isSome then s else s.reserve).sign nonce

/-- LC_REQUEST: the completion status follows LC_STATUS.RESULT (R490; log 50). -/
def State.lcReply (s : State) (dst : Nat) (token : List Byte) : State × Reply :=
  let s := s.lcRequestOp dst (some token)
  let r := s.fld F.LC_STATUS.RESULT
  (s, { status := if r = 3 then 4 else if r = 1 then 3 else 0, data := toLE 1 r })

/-- Management messages that a start or a halt does not serve (R471; log 50). -/
def State.mgmtServes (s : State) : Bool :=
  match s.tm.power with
  | .off | .halted => false
  | .starting => decide (7 ≤ s.fld F.BOOT_STATUS.STAGE)
  | _ => true

/-- A message on I3C is answered: BUSY before the keys are there, nothing after a halt. -/
def State.onI3c (s : State) (code : Nat) (op : State → State × Reply) : State :=
  if s.tm.power = .off ∨ s.tm.power = .halted then s
  else
    let s := s.addCnt C.MG_CNT_I3C_MSGS 1
    if s.mgmtServes then (op s).1.emit (.mgmt code (op s).2.status (op s).2.data) else s.emit (.mgmt code 1 [])

def execGetIdentity (s : State) : Host.Outcome State Fault Refusal := .next (s.onI3c 1 (fun s => (s, identityReply)))
def execGetCert (offset len : Nat) (s : State) : Host.Outcome State Fault Refusal :=
  .next (s.onI3c 2 (fun s => (s, certReply offset len)))
def execAttest (nonce : List Byte) (s : State) : Host.Outcome State Fault Refusal :=
  .next (s.onI3c 3 (fun s => s.attestOp nonce))

/-- GET_BOOT_CAUSE is answered after a halt too (R471). -/
def State.getBootCause (s : State) : State :=
  if s.tm.power = .off then s
  else (s.addCnt C.MG_CNT_I3C_MSGS 1).emit (.mgmt 4 0 s.bootCauseReply.data)
def execGetBootCause (s : State) : Host.Outcome State Fault Refusal := .next s.getBootCause

def execLcRequest (target : Fin 8) (token : List Byte) (s : State) : Host.Outcome State Fault Refusal :=
  .next (s.onI3c 5 (fun s => s.lcReply target token))
def execGetSignState (s : State) : Host.Outcome State Fault Refusal := .next (s.onI3c 6 (fun s => (s, s.signStateReply)))
def execClearCount (s : State) : Host.Outcome State Fault Refusal := .next (s.onI3c 7 (fun s => (s.clearCountOp, {})))

/-! ## Firmware update (R493) -/

/-- The PLDM commands the device sends or answers, as `mgmt` codes above 0x100 (log 47). -/
def pldm (cmd : Nat) : Nat := 0x100 + cmd

/-- RequestUpdate: refused in END_OF_LIFE, busy while an update runs; else the image goes to the slot not in use, and the
device asks for its data. -/
def State.requestUpdateOp (s : State) (size : Nat) : State :=
  if !s.mgmtServes then s
  else if s.lcState = 4 then s.emit (.mgmt (pldm 0x10) 3 [])
  else if s.bt.update.isSome then s.emit (.mgmt (pldm 0x10) 1 [])
  else
    let slot := 1 - s.fld F.BOOT_STATUS.SLOT
    let s : State := { s with bt.update := some { slot := slot, size := Nat.min size 0x1000000, received := 0 } }
    (s.emit (.mgmt (pldm 0x10) 0 [])).emit (.mgmt (pldm 0x15) 0 (toLE 4 0 ++ toLE 4 (Nat.min 4096 size)))

def execRequestUpdate (image : Nat) (s : State) : Host.Outcome State Fault Refusal := .next (s.requestUpdateOp image)

/-- The whole image is written: VerifyComplete after R484's checks, then PREFER is committed and ApplyComplete sent. -/
def State.updateEnd (s : State) (u : Update) : State :=
  let s : State := { s with bt.update := none }
  if s.slotOk u.slot then
    let s := (s.emit (.mgmt (pldm 0x17) 0 [])).preferOp u.slot
    (s.emit (.mgmt (pldm 0x18) 0 [])).setInt F.BOOT_INT_STATUS.FW_STAGED
  else s.emit (.mgmt (pldm 0x17) 1 [])

/-- The data of a RequestFirmwareData, at most 4,096 bytes at the offset asked for. -/
def State.firmwareData (s : State) (off : Nat) (data : List Byte) : State :=
  match s.bt.update with
  | none => s
  | some u =>
    if !s.mgmtServes ∨ off ≠ u.received ∨ data.length ≠ Nat.min 4096 (u.size - u.received) then s
    else
      let s : State := { s with
        bt.flash := hostPuts s.bt.flash (slotBase u.slot + off) data
        bt.update := some { u with received := off + data.length } }
      let u := { u with received := off + data.length }
      if u.size ≤ u.received then s.updateEnd u
      else s.emit (.mgmt (pldm 0x15) 0 (toLE 4 u.received ++ toLE 4 (Nat.min 4096 (u.size - u.received))))

def execRequestFirmwareData (offset : Nat) (data : List Byte) (s : State) : Host.Outcome State Fault Refusal :=
  .next (s.firmwareData offset data)

end Sys2Proof.Machine
end

