-- ==== Sys2Proof/Machine/CoreOps.lean ====
section
/-! DEFINITION. The commands that run a core's words (03_core.md, 04_recurrence.md, 08_memory.md): a word starts and runs, and
the pumps then issue and store what its end allows (R83, R260). -/

namespace Sys2Proof.Machine

/-- The oldest word of a kind runs on a core where it may (State.runWord), and the pumps go on. -/
def State.coreWord (s : State) (c kind : Nat) (sel : CoreWord → Bool) (eff : State → QWord → State) :
    Host.Outcome State Fault Refusal :=
  .next ((s.runWord c kind sel eff).pump c)

/-- A vector operation of a core (R83: the oldest VECTOR word, where it is of this operation). -/
def State.vector (s : State) (c : Nat) (op : VecOp) (eff : State → QWord → State) : Host.Outcome State Fault Refusal :=
  s.coreWord c 4 (isVec op) eff

/-- A MOVE WRITE with an advance first has the rows that the advance covers stored (R233). -/
def moveOutEff (c : Nat) (s : State) (q : QWord) : State :=
  moveWriteEff c (if q.w.advances then s.storeBefore c q.step else s) q

/-! ## Array -/

def execArray (core : Fin 10240) (s : State) : Host.Outcome State Fault Refusal :=
  s.coreWord core 1 (fun _ => true) (arrayEff core)

def execLoadStat (core : Fin 10240) (s : State) : Host.Outcome State Fault Refusal :=
  s.coreWord core 2 (fun _ => true) (loadStatEff core)

/-! ## Element stage -/

def execDrain (core : Fin 10240) (s : State) : Host.Outcome State Fault Refusal :=
  s.coreWord core 3 (fun _ => true) (drainEff core)

/-! ## Transfer engine -/

def execSave40 (core : Fin 10240) (s : State) : Host.Outcome State Fault Refusal :=
  s.coreWord core 6 (fun _ => true) (save40Eff core)

def execRestore40 (core : Fin 10240) (s : State) : Host.Outcome State Fault Refusal :=
  s.coreWord core 7 (fun _ => true) (restore40Eff core)

def execMoveRead (core : Fin 10240) (s : State) : Host.Outcome State Fault Refusal :=
  s.coreWord core 5 (isMove 0) (moveReadEff core)

/-- An advance leaves only once the rows it covers are stored (R233). -/
def execMoveWrite (core : Fin 10240) (s : State) : Host.Outcome State Fault Refusal :=
  s.coreWord core 5 (isMove 1) (moveOutEff core)

/-! ## Atomics -/

def execAdd32 (core : Fin 10240) (s : State) : Host.Outcome State Fault Refusal :=
  s.coreWord core 5 (isAtomic 0) (atomicEff core)

def execAdd64 (core : Fin 10240) (s : State) : Host.Outcome State Fault Refusal :=
  s.coreWord core 5 (isAtomic 1) (atomicEff core)

def execFadd32 (core : Fin 10240) (s : State) : Host.Outcome State Fault Refusal :=
  s.coreWord core 5 (isAtomic 2) (atomicEff core)

def execMax32 (core : Fin 10240) (s : State) : Host.Outcome State Fault Refusal :=
  s.coreWord core 5 (isAtomic 3) (atomicEff core)

def execMin32 (core : Fin 10240) (s : State) : Host.Outcome State Fault Refusal :=
  s.coreWord core 5 (isAtomic 4) (atomicEff core)

def execSwap32 (core : Fin 10240) (s : State) : Host.Outcome State Fault Refusal :=
  s.coreWord core 5 (isAtomic 5) (atomicEff core)

def execSwap64 (core : Fin 10240) (s : State) : Host.Outcome State Fault Refusal :=
  s.coreWord core 5 (isAtomic 6) (atomicEff core)

def execCas32 (core : Fin 10240) (s : State) : Host.Outcome State Fault Refusal :=
  s.coreWord core 5 (isAtomic 7) (atomicEff core)

def execCas64 (core : Fin 10240) (s : State) : Host.Outcome State Fault Refusal :=
  s.coreWord core 5 (isAtomic 8) (atomicEff core)

/-! ## Waits, marks and ends -/

def execWait (core : Fin 10240) (s : State) : Host.Outcome State Fault Refusal :=
  s.coreWord core 8 (fun _ => true) (waitEff core)

/-- A met wait ends, and the fills behind it may be issued (R236, R238, R274). -/
def execWaitWake (core : Fin 10240) (s : State) : Host.Outcome State Fault Refusal :=
  .next ((s.waitWake core).pump core)

def execYieldMark (core : Fin 10240) (s : State) : Host.Outcome State Fault Refusal :=
  s.coreWord core 14 (fun _ => true) (yieldEff core)

def execEndWord (core : Fin 10240) (s : State) : Host.Outcome State Fault Refusal :=
  s.coreWord core 15 (fun _ => true) (endEff core)

/-! ## Vector operations -/

def execFma (core : Fin 10240) (s : State) : Host.Outcome State Fault Refusal :=
  s.vector core .fma (vecMap f32fma core)

def execAdd (core : Fin 10240) (s : State) : Host.Outcome State Fault Refusal :=
  s.vector core .add (vecMap (fun a b _ => vAdd a b) core)

def execMul (core : Fin 10240) (s : State) : Host.Outcome State Fault Refusal :=
  s.vector core .mul (vecMap (fun a b _ => vMul a b) core)

def execMax (core : Fin 10240) (s : State) : Host.Outcome State Fault Refusal :=
  s.vector core .max (vecMap (fun a b _ => vMaxMin true a b) core)

def execMin (core : Fin 10240) (s : State) : Host.Outcome State Fault Refusal :=
  s.vector core .min (vecMap (fun a b _ => vMaxMin false a b) core)

def execSelect (core : Fin 10240) (s : State) : Host.Outcome State Fault Refusal :=
  s.vector core .select (vecMap selectMarked core)

/-- The encoding of a compare result is open (log 8). -/
def execVectorCmp (core : Fin 10240) (s : State) : Host.Outcome State Fault Refusal :=
  s.vector core .cmp (vecMap (fun a b _ => (Config.cmpResult (BitVec.ofNat 32 a) (BitVec.ofNat 32 b)).toNat) core)

def execExp (core : Fin 10240) (s : State) : Host.Outcome State Fault Refusal :=
  s.vector core .exp (vecMap (fun a _ _ => vExp 1 0x42B17218 a) core)

def execLn (core : Fin 10240) (s : State) : Host.Outcome State Fault Refusal :=
  s.vector core .ln (vecMap (fun a _ _ => vLog 2 a) core)

def execExp2 (core : Fin 10240) (s : State) : Host.Outcome State Fault Refusal :=
  s.vector core .exp2 (vecMap (fun a _ _ => vExp 3 0x43000000 a) core)

def execLog2 (core : Fin 10240) (s : State) : Host.Outcome State Fault Refusal :=
  s.vector core .log2 (vecMap (fun a _ _ => vLog 4 a) core)

def execSin2pi (core : Fin 10240) (s : State) : Host.Outcome State Fault Refusal :=
  s.vector core .sin2pi (vecMap (fun a _ _ => vTrig 5 a) core)

def execCos2pi (core : Fin 10240) (s : State) : Host.Outcome State Fault Refusal :=
  s.vector core .cos2pi (vecMap (fun a _ _ => vTrig 6 a) core)

def execTanh (core : Fin 10240) (s : State) : Host.Outcome State Fault Refusal :=
  s.vector core .tanh (vecMap (fun a _ _ => vTanh a) core)

def execSigmoid (core : Fin 10240) (s : State) : Host.Outcome State Fault Refusal :=
  s.vector core .sigmoid (vecMap (fun a _ _ => vSigmoid a) core)

def execSqrt (core : Fin 10240) (s : State) : Host.Outcome State Fault Refusal :=
  s.vector core .sqrt (vecMap (fun a _ _ => vSqrt a) core)

def execRcp (core : Fin 10240) (s : State) : Host.Outcome State Fault Refusal :=
  s.vector core .rcp (vecMap (fun a _ _ => vRcp a) core)

def execRsqrt (core : Fin 10240) (s : State) : Host.Outcome State Fault Refusal :=
  s.vector core .rsqrt (vecMap (fun a _ _ => vRsqrt a) core)

def execSum (core : Fin 10240) (s : State) : Host.Outcome State Fault Refusal :=
  s.vector core .sum (vecReduce vAdd core)

def execRmax (core : Fin 10240) (s : State) : Host.Outcome State Fault Refusal :=
  s.vector core .rmax (vecReduce (vMaxMin true) core)

def execRmin (core : Fin 10240) (s : State) : Host.Outcome State Fault Refusal :=
  s.vector core .rmin (vecReduce (vMaxMin false) core)

def execTopk (core : Fin 10240) (s : State) : Host.Outcome State Fault Refusal :=
  s.vector core .topk (topkEff core)

def execSplitmix (core : Fin 10240) (s : State) : Host.Outcome State Fault Refusal :=
  s.vector core .splitmix (splitmixEff core)

def execCvt (core : Fin 10240) (s : State) : Host.Outcome State Fault Refusal :=
  s.vector core .cvt (cvtEff core)

def execAdd40 (core : Fin 10240) (s : State) : Host.Outcome State Fault Refusal :=
  s.vector core .add40 (add40Eff core)

def execAdd40w (core : Fin 10240) (s : State) : Host.Outcome State Fault Refusal :=
  s.vector core .add40w (wellEff add40wFn core)

def execGate40w (core : Fin 10240) (s : State) : Host.Outcome State Fault Refusal :=
  s.vector core .gate40w (wellEff gate40wFn core)

def execFma40 (core : Fin 10240) (s : State) : Host.Outcome State Fault Refusal :=
  s.vector core .fma40 (fma40Eff core)

def execLscan40 (core : Fin 10240) (s : State) : Host.Outcome State Fault Refusal :=
  s.vector core .lscan40 (lscan40Eff core)

end Sys2Proof.Machine
end

