-- ==== Sys2Proof/Machine/Mgmt.lean ====
section
/-! DEFINITION. The MGMT page: the host mailbox and the I3C dynamic address (15_registers.md R553 to R555; R490). -/

namespace Sys2Proof.Machine

/-! ## The mailbox area -/

/-- The mailbox area's host address. -/
def State.mboxArea (s : State) : Nat := s.fld F.MG_MBOX_HI.BASE * 2 ^ 32 + s.fld F.MG_MBOX_LO.BASE * 4096

/-- A write of MG_MBOX_REQ with SEND set: served with the mailbox in use and idle; any other is refused (R555). The
request is read by HRD. -/
def State.sendOp (s : State) (len : Nat) : State :=
  if s.fld F.MG_CFG.MBOX_EN = 0 ∨ s.fld F.MG_STATUS.MBOX_BUSY = 1 ∨ s.fld F.MG_STATUS.RSP_READY = 1 ∨ len = 0 ∨ 8192 < len
  then s.reject 0x38 0
  else
    let s : State := { s.setFld F.MG_STATUS.MBOX_BUSY 1 with mg.reqLen := some len }
    (List.range (ceilDiv len 64)).foldl (fun s i => s.hrd (s.mboxArea + 64 * i) .mailbox) s

def execSend (r : Requester) (len : BitVec 14) (s : State) : Host.Outcome State Fault Refusal :=
  .next (s.opWrite r 0x38 0 0x110 (2 ^ 31 + len.toNat) (fun s => s.sendOp len.toNat))

/-- MG_MBOX_RSP.ACK: the response is consumed. -/
def State.mboxAckOp (s : State) : State := s.setFld F.MG_STATUS.RSP_READY 0

def execMboxAck (r : Requester) (s : State) : Host.Outcome State Fault Refusal :=
  .next (s.opWrite r 0x38 0 0x114 (2 ^ 30) State.mboxAckOp)

/-! ## Serving a request (R490, R555) -/

/-- The start of a vendor-defined message: type 0x7F and IANA enterprise number 0x0000B7D5 (R490; log 50). -/
def vendorHeader : List Byte := [0x7F, 0x00, 0x00, 0xB7, 0xD5]

/-- The reply to a vendor-defined message of a code; register access is not for the mailbox (R556). -/
def State.vendorReply (s : State) (code : Nat) (b : List Byte) : State × Reply :=
  match code with
  | 1 => (s, identityReply)
  | 2 => (s, certReply (field b 0 4) (field b 4 4))
  | 3 => s.attestOp b
  | 4 => (s, s.bootCauseReply)
  | 5 => s.lcReply (field b 0 1) (b.drop 1)
  | 6 => (s, s.signStateReply)
  | 7 => (s.clearCountOp, {})
  | _ => (s, { status := 5 })

/-- The response to a mailbox message, from its message-type byte on. -/
def State.mailboxReply (s : State) (m : List Byte) : State × List Byte :=
  if m.take 5 = vendorHeader then
    let code := field m 5 1
    let x := if s.mgmtServes then s.vendorReply code (m.drop 7) else (s, { status := 1 })
    (x.1, vendorHeader ++ toLE 1 code ++ toLE 1 x.2.status ++ x.2.data)
  else (s, Config.pldmResponse m)

/-- The request is in hand: it is served, and the response is written at the area + 8 KiB by HWR. -/
def State.mailboxServe (s : State) : State :=
  match s.mg.reqLen with
  | none => s
  | some n =>
    let x := s.mailboxReply (s.hostBytes s.mboxArea n)
    let r := x.2.take 8192
    let s : State := { x.1.addCnt C.MG_CNT_MBOX_MSGS 1 with mg.reqLen := none }
    (s.setFld F.MG_MBOX_RSP.LEN r.length).hwr (s.mboxArea + 8192) r .mailbox

/-- The response is written: RSP_READY. -/
def State.mailboxDone (s : State) : State :=
  ((s.setFld F.MG_STATUS.MBOX_BUSY 0).setFld F.MG_STATUS.RSP_READY 1).setInt F.MG_INT_STATUS.RSP_READY

/-! ## SETDASA (R554) -/

/-- The controller assigns a dynamic address. -/
def State.setdasaOp (s : State) (addr : Nat) : State :=
  if s.tm.power = .off then s
  else ((s.setFld F.MG_STATUS.DYN_VALID 1).setFld F.MG_STATUS.DYN_ADDR addr).setInt F.MG_INT_STATUS.ATTACHED

def execSetdasa (addr : BitVec 7) (s : State) : Host.Outcome State Fault Refusal := .next (s.setdasaOp addr.toNat)

end Sys2Proof.Machine
end

