-- ==== Sys2Proof/Machine/Pages.lean ====
section
/-! DEFINITION. The register window: what a read returns, what a write does to each field, the operations that registers
start, the lock, snapshots, and the capture of a stop (15_registers.md R528 to R546, R574, R575; R518, R519, R556). -/

namespace Sys2Proof.Machine

/-! ## Static, boundary-shadowed and live fields (R539, R540, R574) -/

/-- A value written to a boundary-shadowed field of a busy block is held. -/
def State.holdField (s : State) (f : Field) (inst bank v : Nat) : State :=
  { s with rg.held := put 0 s.rg.held (fieldKey f inst bank) (v + 1) }

/-- A value put in force in an idle block, in place of one that is still held (R17). -/
def State.takeField (s : State) (f : Field) (inst bank v : Nat) : State :=
  let t := s.setFld f v inst bank
  { t with rg.held := put 0 t.rg.held (fieldKey f inst bank) 0 }

/-- A field's part of a value written: bit 0 of TRC_TYPES.MASK is reserved (R16, R526), and bits [2:0] of STOP_CAP_ADDR.OFFSET
read zero (R527). -/
def Field.part (f : Field) (v : Nat) : Nat :=
  let x := v / 2 ^ f.lo % 2 ^ f.width
  if f = F.TRC_TYPES.MASK then x / 2 * 2 else if f = F.STOP_CAP_ADDR.OFFSET then x / 8 * 8 else x

/-- A field's part of a write of a register, and whether it is refused. -/
def State.writeField (s : State) (inst bank : Nat) (v : Nat) (f : Field) : State × Bool :=
  let x := f.part v
  match f.acc with
  | .ro | .wo => (s, false)
  | .w1c => (if x = 0 then s else s.setFld f (Nat.xor (s.fld f inst bank) (Nat.land (s.fld f inst bank) x)) inst bank, false)
  | .rwl => if f.rsv.contains x then (s, true) else (s.setFld f x inst bank, false)
  | .rws =>
    if f.rsv.contains x then (s, true)
    else if x = s.fld f inst bank then (s, false)
    else if s.blockBusy f.cls inst f.blk f.off then (s, true)
    else (s.setFld f x inst bank, false)
  | .rwb =>
    if f.rsv.contains x then (s, true)
    else if s.blockBusy f.cls inst f.blk f.off then (s.holdField f inst bank x, false)
    else (s.takeField f inst bank x, false)

/-- A write of a register, each field by its own kind; a refusal sets WRITE_REJECT once. -/
def State.writeFields (s : State) (cls inst off v : Nat) : State :=
  let bank := s.bankAt cls off
  let r := (fieldsAt cls off).foldl
    (fun (a : State × Bool) f => let b := a.1.writeField inst bank v f; (b.1, a.2 || b.2)) (s, false)
  if r.2 then r.1.reject cls inst else r.1

/-- Setting INT_MASTER, or an enable, while an enabled bit is set raises one INTR (R534). -/
def State.enableIntr (before after : State) (cls inst : Nat) : State :=
  let en (s : State) : Nat := match intRegs cls with
    | some (_, e) => ((fieldsAt cls e).foldl (fun n f => n + s.fld f inst * 2 ^ f.lo) 0)
    | none => 0
  let m (s : State) : Nat := s.fld (F.PG_CTRL.INT_MASTER cls) inst
  let gained := (m before = 0 && m after = 1) || Nat.lor (en before) (en after) ≠ en before
  if gained ∧ m after = 1 ∧ after.intBits cls inst ≠ 0 then after.blockIntr cls inst else after

/-! ## The header's operations -/

/-- PG_CTRL.SNAP (R536). -/
def State.snap (s : State) (cls inst : Nat) : State :=
  let s := (List.range 12).foldl
    (fun (s : State) n => { s with rg.snaps := put 0 s.rg.snaps (slotKey cls inst n) (s.slot cls inst n) }) s
  s.setCnt ⟨cls, 0x28⟩ s.tm.now inst

/-- PG_APPLY.APPLY (R541). -/
def State.pgApply (s : State) (cls inst : Nat) : State := s.applyHeld (fun p => p.cls = cls && p.inst = inst)

/-- PG_LOCK.TAKE (R545). -/
def State.takeLock (s : State) (cls inst : Nat) (r : Requester) : State :=
  if s.fld (F.PG_LOCK.HOLDER cls) inst = 0 then s.setFld (F.PG_LOCK.HOLDER cls) (requesterCode r) inst else s

/-- PG_LOCK.GIVE: by the holder or firmware; from management also for the host's lock while the link is down (R545). -/
def State.giveLock (s : State) (cls inst : Nat) (r : Requester) : State :=
  let h := s.fld (F.PG_LOCK.HOLDER cls) inst
  if h = requesterCode r ∨ r = .firmware ∨ (r = .mgmt ∧ h = 1 ∧ !s.linkUp) then s.setFld (F.PG_LOCK.HOLDER cls) 0 inst
  else s

/-- A write of PG_LOCK, which no lock holds back. -/
def State.lockWrite (s : State) (cls inst : Nat) (r : Requester) (v : Nat) : State :=
  let s := if bit v 4 then s.takeLock cls inst r else s
  if bit v 5 then s.giveLock cls inst r else s

/-- A write of a header register. -/
def State.hdrWrite (s : State) (cls inst off : Nat) (v : Nat) : State :=
  match off with
  | 0x008 =>
    let t := s.enableIntr (s.writeFields cls inst off v) cls inst
    if bit v 1 then t.snap cls inst else t
  | 0x010 => if bit v 31 then s.pgErrFirstClearOp cls inst else s
  | 0x01C => if bit v 0 then s.pgApply cls inst else s
  | _ => s.writeFields cls inst off v

/-! ## Operations that a register of a block starts -/

/-- The save pool's place: wholly within one stack's tensor area in granules owned by 0xFFFF (R440); a pool of no granule
lies anywhere. -/
def State.poolPlaced (s : State) : Bool :=
  let b := s.fld F.SCHED_POOL_BASE.BASE
  let n := s.fld F.SCHED_POOL_COUNT.N
  n = 0 || decide (b / 2 ^ 15 < 12) && decide (b % 2 ^ 15 + n ≤ 32256) &&
    (List.range n).all (fun i => s.ownerOf (stackGranule (b / 2 ^ 15) (b % 2 ^ 15 + i)) = 0xFFFF)

/-- A write of SCHED_CFG (R440, R575). -/
def State.schedCfgWrite (s : State) (v : Nat) : State :=
  let en := s.fld F.SCHED_CFG.ENABLE
  if v % 2 = en then s
  else if v % 2 = 1 then (if s.poolPlaced then s.setFld F.SCHED_CFG.ENABLE 1 else s.reject 0x01 0)
  else if s.sc.ctxs.all (fun c => c.2.slot.isNone) ∧ s.tl.clusters.all (fun c => c.2.layers.isEmpty) then
    s.setFld F.SCHED_CFG.ENABLE 0
  else s.reject 0x01 0

/-- A write of SCHED_CTX_OP (R574). -/
def State.ctxOpWrite (s : State) (v : Nat) : State :=
  match v % 4 with
  | 1 => s.createOp
  | 2 => s.destroyOp
  | 3 => s.reject 0x01 0
  | _ => s

/-- A write of OWN_GO. -/
def State.ownGoWrite (s : State) (p : OwnPage) : State :=
  s.ownGo p (fun s => match s.fld (F.OWN_OP.OP (ownCls p)) (ownInst p) with
    | 1 => s.grant p
    | 2 => s.revoke p
    | _ => s.ownQuery p)

/-- A write of CIS_GO: a reserved operation completes with BAD_OP (R574). -/
def State.cisGoWrite (s : State) (m : Nat) : State :=
  s.cisGo m (fun s => match s.fld F.CIS_OP.OP m with
    | 1 => s.cisFormat m
    | 2 => s.cisRelease m
    | 3 => s.cisTrimOp m
    | _ => s.cisOpDone m 1)

/-- The ownership page of a page, when it is one. -/
def ownPageOf (cls inst : Nat) : Option OwnPage :=
  if h : cls = 0x21 ∧ inst < 12 then some (.stack ⟨inst, h.2⟩)
  else if h : cls = 0x20 ∧ inst < 4 then some (.slice ⟨inst, h.2⟩)
  else none

/-- A write of a per-core register: CORE_TEST.START, CORE_FAULT.CLEAR, or a plain one. -/
def State.coreWrite (s : State) (inst off v : Nat) : State :=
  let core := inst * 40 + (off - 0x400) / 64
  match (off - 0x400) % 64 with
  | 0x08 => if bit v 0 then s.coreTest core else s
  | 0x0C => if bit v 31 then (s.setCoreFld F.CORE_FAULT.CAUSE core 0).setCoreFld F.CORE_FAULT.WELL core 0 else s
  | _ => s.writeFields 0x11 inst off v

/-- A write of STOP_CTRL. -/
def State.stopCtrlWrite (s : State) (r : Requester) (v : Nat) : State :=
  let s := if bit v 0 then s.goOp r else s
  if bit v 1 then s.stopReleaseOp else s

/-- May the window quarter of slice p have `n` units of 64 KiB (R330). -/
def State.winOk (s : State) (p n : Nat) : Bool :=
  let a := p * 2 ^ 27 + s.fld F.PDIE_WIN_BASE.BASE p * 65536
  n = 0 || (s.inSliceArea a (n * 65536) && s.allOwned (sharedGranules a (n * 65536)) 0xFFFF)

/-- A write of PDIE_WIN_SIZE or PDIE_WIN_CFG: on instance 0 the size of the quarter of every slice must fit it (R330); on the
other instances it is ignored (R329; log 123). -/
def State.winSizeWrite (s : State) (inst off v : Nat) : State :=
  if inst ≠ 0 then s
  else if [0, 1, 2, 3].all (fun p => s.winOk p (v % 2048)) then s.writeFields 0x20 inst off v
  else s.reject 0x20 inst
def State.winCfgWrite (s : State) (inst off v : Nat) : State := if inst ≠ 0 then s else s.writeFields 0x20 inst off v

/-- Registers of a class that start an operation, and what a write of them does; none for a plain register. -/
def State.startsOp (s : State) (r : Requester) (cls inst off v : Nat) : Option State :=
  match cls, off with
  | 0x01, 0x100 => some (s.schedCfgWrite v)
  | 0x01, 0x128 => some (s.ctxOpWrite v)
  | 0x02, 0x100 => some (s.whCfgWrite v)
  | 0x03, 0x10C => some (s.qOpWrite v)
  | 0x04, 0x100 => some (s.kvpCfgWrite v)
  | 0x04, 0x150 => some (if bit v 0 then s.editGo else s)
  | 0x09, 0x100 => some (s.limitWrite v)
  | 0x0A, 0x100 => some (s.rstCtrl r v)
  | 0x0C, 0x114 => some (s.bootCtrl v)
  | 0x0D, 0x10C => some (s.secCtrl v)
  | 0x0E, 0x108 => some (if bit v 0 then s.lcRequestOp (s.fld F.LC_TARGET.STATE) none else s)
  | 0x20, 0x150 | 0x21, 0x150 => (ownPageOf cls inst).map (fun p => if bit v 0 then s.ownGoWrite p else s)
  | 0x20, 0x104 => some (s.winCfgWrite inst off v)
  | 0x20, 0x10C => some (s.winSizeWrite inst off v)
  | 0x21, 0x110 =>
    some (if bit v 31 then (s.setFld F.HBMC_FAULT.PC 0 inst).setFld F.HBMC_FAULT.KIND 0 inst else s)
  | 0x22, 0x100 => some (s.cisCfgWrite inst v)
  | 0x22, 0x11C => some (if bit v 0 then s.cisGoWrite inst else s)
  | 0x30, 0x100 => some (s.opCfgWrite inst v)
  | 0x30, 0x114 => some (s.opCtrlWrite inst v)
  | 0x38, 0x110 => some (if bit v 31 then s.sendOp (v % 2 ^ 14) else s)
  | 0x38, 0x114 => some (if bit v 30 then s.mboxAckOp else s)
  | 0x40, 0x118 => some (if bit v 0 then s.errFirstClearOp else s)
  | 0x40, 0x11C => some (s.errInjectOp v)
  | 0x41, 0x100 => some (s.trcCfgWrite v)
  | 0x41, 0x118 => some (s.markOp v)
  | 0x43, 0x104 => some (s.stopCtrlWrite r v)
  | 0x43, 0x110 => some (if bit v 0 then s.wfgGoOp else s)
  | _, _ => none

/-- A write of a register of a page, past the lock. -/
def State.regPut (s : State) (r : Requester) (cls inst off v : Nat) : State :=
  if off < 0x100 then s.hdrWrite cls inst off v
  else if cls = 0x11 ∧ 0x400 ≤ off ∧ off < 0xE00 then s.coreWrite inst off v
  else match s.startsOp r cls inst off v with
    | some t => t
    | none => s.enableIntr (s.writeFields cls inst off v) cls inst

/-! ## Accesses (R528 to R530, R349, R476, R519, R543, R544) -/

/-- What an access gives: the state, the STATUS of R348 and the value read. -/
structure RegAns where
  st     : State
  status : Nat := 0
  value  : Nat := 0

/-- Class, instance and offset in the page of a window offset. -/
def offCls (off : Nat) : Nat := off / 0x100000
def offInst (off : Nat) : Nat := off % 0x100000 / 0x1000
def offReg (off : Nat) : Nat := off % 0x1000

/-- Is an access one that the window serves: a page of the map, powered, 4 bytes, or 8 bytes of a 64-bit register,
naturally aligned. -/
def State.regServed (s : State) (off size : Nat) : Bool :=
  pageExists (offCls off) (offInst off) && s.pagePowered (offCls off) (offInst off) &&
    ((size = 4 && off % 4 = 0) || (size = 8 && off % 8 = 0 && cntHere (offCls off) (offReg off)))

/-- The value at a window offset. -/
def State.regValue (s : State) (off size : Nat) : Nat :=
  let c := offCls off
  let o := offReg off
  if cntHere c (o / 8 * 8) then
    let v := s.cntWord c (offInst off) (o / 8 * 8)
    if size = 8 then v else v / 2 ^ (8 * (o % 8)) % 2 ^ 32
  else s.regWord c (offInst off) o

/-- What a read changes: STOP_CAP_DATA advances STOP_CAP_ADDR, and SEQ_STATUS.FENCED clears. -/
def State.readEffect (s : State) (off : Nat) : State :=
  let o := offReg off
  if offCls off = 0x43 ∧ o / 8 * 8 = C.STOP_CAP_DATA.off then
    s.setFld F.STOP_CAP_ADDR.OFFSET ((s.fld F.STOP_CAP_ADDR.OFFSET / 8 * 8 + 8) % 2 ^ 23)
  else if offCls off = 0x11 ∧ o = F.SEQ_STATUS.FENCED.off then s.setFld F.SEQ_STATUS.FENCED 0 (offInst off)
  else s

/-! ### The capture (R518, R519) -/

/-- Bytes of the domain records before the page images. -/
def captureHead : Nat := allDomains.foldl (fun n d => n + 32 + 16 * Config.captureUnits d) 0

/-- The record of a domain and of its queues (log 11). -/
def State.domainRecord (s : State) (d : Nat) : List Byte :=
  let t := ((s.st.halted.find? (fun h => h.1 == d)).map (·.2)).getD s.st.cut
  let flags := if d < 256 then b2n (s.clk d).parked + 2 * b2n (s.clockHeld d) else 2
  let cycles := if d < 256 then s.cnt C.CLK_CNT_CYCLES 0 d else Config.captureCycles d t
  toLE 2 d ++ toLE 1 flags ++ toLE 1 0 ++ toLE 2 (Config.captureNq d) ++ toLE 2 0 ++ toLE 8 cycles ++ toLE 8 t ++
    toLE 8 0 ++ (List.range (16 * Config.captureUnits d)).map (Config.captureByte d)

/-- The 4 KiB image of a page. -/
def State.pageImage (s : State) (cls inst : Nat) : List Byte :=
  (List.range 1024).flatMap (fun i => toLE 4 (s.regValue (regAddr cls inst (4 * i)) 4))

/-- Every page in class and instance order. -/
def allPages : List (Nat × Nat) := pageClasses.flatMap (fun p => (List.range p.2.1).map (fun i => (p.1, i)))

/-- The capture of a stop. -/
def State.captureBytes (s : State) : List Byte :=
  allDomains.flatMap s.domainRecord ++ allPages.flatMap (fun p => s.pageImage p.1 p.2)

/-- The value at a window offset as the capture holds it. -/
def State.capturedValue (s : State) (off size : Nat) : Nat :=
  let i := allPages.findIdx (· == (offCls off, offInst off))
  leNat (rdBytes s.st.capture (captureHead + 4096 * i + offReg off) size)

/-! ### Reads and writes -/

/-- A read: none where it waits. -/
def State.readReg (s : State) (r : Requester) (off size : Nat) : Option RegAns :=
  let c := offCls off
  let away := s.stopState ≠ 0 && !debugPage c
  if away && (s.stopState = 1 || s.stopState = 2) then none
  else if !s.regServed off size then some { st := s, status := 1 }
  else if away then some { st := s.addCnt C.GL_CNT_REG_READS 1, value := s.capturedValue off size }
  else if s.accessWaits c (offInst off) r then none
  else some { st := (s.addCnt C.GL_CNT_REG_READS 1).readEffect off, value := s.regValue off size }

/-- A write: none where it waits. Registers of 64 bits are read-only. -/
def State.writeReg (s : State) (r : Requester) (off size v : Nat) : Option RegAns :=
  let c := offCls off
  let i := offInst off
  let o := offReg off
  if s.accessWaits c i r then none
  else if !s.regServed off size then some { st := s, status := 1 }
  else
    let s := s.addCnt C.GL_CNT_REG_WRITES 1
    if o = 0x024 then some { st := s.lockWrite c i r v }
    else if s.lockedFor c i r then some { st := s.lockAbort c i, status := 2 }
    else if cntHere c (o / 8 * 8) then some { st := s }
    else some { st := s.regPut r c i o v }

/-- An access is held. -/
def State.holdAccess (s : State) (h : HeldAccess) : State := { s with st.held := s.st.held ++ [h] }

/-- REGISTER_WRITE: a write by a requester to the register at a window offset. -/
def State.registerWrite (s : State) (r : Requester) (off v : Nat) : State :=
  match s.writeReg r off 4 v with
  | some a => a.st
  | none => s.holdAccess (.write r off 4 (BitVec.ofNat 64 v) false)

def execRegisterWrite (r : Requester) (offset : Nat) (v : W32) (s : State) : Host.Outcome State Fault Refusal :=
  .next (s.registerWrite r offset v.toNat)

/-! ### Management (R556) -/

/-- The completion status of a management message for a STATUS of R348. -/
def mgmtStatus (st : Nat) : Nat := match st with | 0 => 0 | 1 => 5 | _ => 3

/-- REG_READ and REG_WRITE, where they are served. -/
def State.mgmtRead (s : State) (off size : Nat) : State :=
  match s.readReg .mgmt off size with
  | some a => a.st.emit (.mgmt 0x10 (mgmtStatus a.status) (if a.status = 0 then toLE size a.value else []))
  | none => s.holdAccess (.read .mgmt off size)

def State.mgmtWrite (s : State) (off size v : Nat) : State :=
  match s.writeReg .mgmt off size v with
  | some a => a.st.emit (.mgmt 0x11 (mgmtStatus a.status) [])
  | none => s.holdAccess (.write .mgmt off size (BitVec.ofNat 64 v) true)

/-- A register message on I3C: not served without power or after a halt. -/
def State.regMessage (s : State) (op : State → State) : State :=
  if s.tm.power = .off ∨ s.tm.power = .halted then s
  else op ((s.addCnt C.MG_CNT_I3C_MSGS 1).addCnt C.MG_CNT_REG 1)

def execRegRead (offset size : Nat) (s : State) : Host.Outcome State Fault Refusal :=
  .next (s.regMessage (fun s => s.mgmtRead offset size))

def execRegWrite (offset size : Nat) (value : W64) (s : State) : Host.Outcome State Fault Refusal :=
  .next (s.regMessage (fun s => s.mgmtWrite offset size value.toNat))

/-! ## Rows of the header's operations -/

/-- A row that writes a header register of a page that exists. -/
def State.hdrRow (s : State) (r : Requester) (cls inst off v : Nat) : State :=
  if pageExists cls inst then s.registerWrite r (regAddr cls inst off) v else s

/-- SNAP keeps INT_MASTER as it stands. -/
def execSnap (r : Requester) (cls inst : Nat) (s : State) : Host.Outcome State Fault Refusal :=
  .next (s.hdrRow r cls inst 0x008 (2 + s.fld (F.PG_CTRL.INT_MASTER cls) inst % 2))

def execPgApply (r : Requester) (cls inst : Nat) (s : State) : Host.Outcome State Fault Refusal :=
  .next (s.hdrRow r cls inst 0x01C 1)

def execTake (r : Requester) (cls inst : Nat) (s : State) : Host.Outcome State Fault Refusal :=
  .next (s.hdrRow r cls inst 0x024 16)

def execGive (r : Requester) (cls inst : Nat) (s : State) : Host.Outcome State Fault Refusal :=
  .next (s.hdrRow r cls inst 0x024 32)

/-- A read by a requester whose answer the row does not carry: what it changes is all that shows. -/
def State.registerRead (s : State) (r : Requester) (off size : Nat) : State :=
  match s.readReg r off size with
  | some a => a.st
  | none => s.holdAccess (.read r off size)

/-- A read of STOP_CAP_DATA. -/
def execStopCapData (r : Requester) (s : State) : Host.Outcome State Fault Refusal :=
  .next (s.registerRead r (regAddr 0x43 0 C.STOP_CAP_DATA.off) 8)

/-- A read of a cluster's SEQ_STATUS. -/
def execSeqStatus (r : Requester) (cl : Fin 256) (s : State) : Host.Outcome State Fault Refusal :=
  .next (s.registerRead r (regAddr 0x11 cl F.SEQ_STATUS.FENCED.off) 4)

end Sys2Proof.Machine
end

