-- ==== Sys2Proof/Machine/Packets.lean ====
section
/-! DEFINITION. What arrives on the optical ports: flits and packets (09_optics.md R343 to R351, R358 to R362; R519), and
the ends of stops and resets, after which held packets take effect (R462 to R464, R509, R520). -/

namespace Sys2Proof.Machine

/-! ## Completions (R31, R34, R351, R394, R555) -/

/-- A write of host memory is globally visible; what waited for all of it goes on. -/
def State.hwrDone (s : State) (h : Hwr) : State :=
  let s : State := { s with hl.hwr := s.hl.hwr.erase h, hl.hostMem := hostPuts s.hl.hostMem h.addr h.data }
  if s.hl.hwr.any (fun g => g.what == h.what) then s
  else match h.what with
  | .journal q n => (match s.cmd? q n with
    | some c => s.setCmd { c with journalled := true }
    | none => s)
  | .completion q n => s.completionWord3 q n
  | .completionLast q n | .returnedLast q n => s.completionEnd q n
  | .mailbox => s.mailboxDone
  | .lineage _ | .history | .report | .rewrite => s

def State.cmpIn (s : State) (p : Pkt) : State :=
  match s.hl.hwr.find? (fun h => h.tag == p.tag) with
  | some h => s.hwrDone h
  | none => s

/-- Data read from host memory: a command record, or 64 bytes of a mailbox request. -/
def State.hrdDone (s : State) (h : Hrd) (data : List Byte) : State :=
  let s : State := { s with hl.hrd := s.hl.hrd.erase h, hl.hostMem := hostPuts s.hl.hostMem h.addr data }
  match h.what with
  | .record q n => s.recordArrived q n data
  | .mailbox => if s.hl.hrd.any (fun g => g.what == HrdFor.mailbox) then s else s.mailboxServe

def State.cmpDIn (s : State) (p : Pkt) : State :=
  match s.hl.hrd.find? (fun h => h.tag == p.tag) with
  | some h => (s.countIn p).hrdDone h ((p.data ++ List.replicate 64 0).take 64)
  | none => s

/-! ## Register packets (R349, R519) -/

/-- A read of the register window: none where it waits. -/
def State.regReadPkt (s : State) (p : Pkt) : Option State :=
  (s.readReg .host p.addr p.len).map (fun a => a.st.answerData p a.status (if a.status = 0 then toLE p.len a.value else []))

/-- A write of the register window: none where it waits. -/
def State.regWritePkt (s : State) (p : Pkt) : Option State :=
  (s.writeReg .host p.addr p.len (field p.data 0 p.len)).map (fun a =>
    (if a.status = 0 then a.st.countIn p else a.st).answer p a.status)

/-! ## Packets -/

/-- Is a packet a completion of a write that reports the wait-for graph, which the debug path makes (R522, R523). -/
def State.reportCmp (s : State) (p : Pkt) : Bool :=
  p.op = 0x21 && s.hl.hwr.any (fun h => h.tag == p.tag && h.what == HwrFor.report)

/-- Is a packet held: by a global stop (R519), or, for device memory, by a running reset. A register access that may be
served is decided by its page. -/
def State.pktHeld (s : State) (p : Pkt) : Bool :=
  let reg := p.win = 1 && (p.op = 1 || p.op = 4)
  if s.stopState ≠ 0 then !(reg || s.reportCmp p) || decide (8 ≤ p.port)
  else s.rs.run.isSome && decide (p.port < 8) && p.win = 0 && decide (1 ≤ p.op) && decide (p.op ≤ 6)

/-- An access of a window that allows no such operation completes with UR (R348). -/
def State.pktBad (s : State) (p : Pkt) : State :=
  if p.op = 6 then s else if p.op = 4 ∨ p.op = 5 then s.answer p 1 else s.answerData p 1 []

/-- The effect of a packet (table "Packet operations"); none where it waits. Reserved codes, and codes of the other
direction, have none. -/
def State.pktEffect (s : State) (p : Pkt) : Option State :=
  if s.pktHeld p then none
  else if 8 ≤ p.port then
    (match p.op with
     | 0x51 => some (s.cCmp (p.port - 8) p.tag p.status)
     | 0x52 => some (s.cData (p.port - 8) p.tag p.status p.data)
     | _ => some s)
  else match p.op with
  | 0x01 => if p.win = 0 then some (s.memAccess p) else if p.win = 1 then s.regReadPkt p else some (s.pktBad p)
  | 0x04 => if p.win = 0 then some (s.memAccess p) else if p.win = 1 then s.regWritePkt p else some (s.pktBad p)
  | 0x02 | 0x03 | 0x05 | 0x06 => some (if p.win = 0 then s.memAccess p else s.pktBad p)
  | 0x07 => some (s.doorbell p)
  | 0x08 => some (s.push p)
  | 0x21 => some (s.cmpIn p)
  | 0x22 => some (s.cmpDIn p)
  | 0x23 => some (s.recallAck p.tag)
  | 0x24 => some (s.recallData p)
  | _ => some s

/-- The credit class of a packet that arrives. -/
def inClass (op : Nat) : Nat := if op < 0x20 then 0 else 1

/-- Slots of data after a packet's header, by its code. -/
def carries (op : Nat) : Bool := [0x04, 0x05, 0x07, 0x08, 0x22, 0x24, 0x52].contains op

/-- The slots after the header: a mask and data. -/
def tailSlots (p : Pkt) : Nat :=
  b2n (p.masked && p.op = 4 && p.len = 64) + (if carries p.op then ceilDiv p.len 8 else 0)

/-- A packet has its effect, and its slots go back as credit; or it is held, and returns none (R347, R519). -/
def State.pktServe (s : State) (p : Pkt) : State :=
  match s.pktEffect p with
  | some t => t.grantCredit p.port (inClass p.op) (2 + tailSlots p)
  | none => s.holdAccess (.pkt p)

/-- A packet has arrived whole on a port that carries flits. -/
def State.recvPacket (s : State) (p : Pkt) : State :=
  if p.port < 24 ∧ s.fld F.OP_STATUS.UP p.port = 1 then s.pktServe p else s

/-- A row of the host link. -/
def State.kclRow (s : State) (p : Pkt) (op : Nat) : State := if p.port < 8 then s.recvPacket { p with op := op } else s

def execDb (p : Pkt) (s : State) : Host.Outcome State Fault Refusal := .next (s.kclRow p 0x07)
def execPush (p : Pkt) (s : State) : Host.Outcome State Fault Refusal := .next (s.kclRow p 0x08)
def execRdNc (p : Pkt) (s : State) : Host.Outcome State Fault Refusal := .next (s.kclRow p 0x01)
def execRdS (p : Pkt) (s : State) : Host.Outcome State Fault Refusal := .next (s.kclRow p 0x02)
def execRdM (p : Pkt) (s : State) : Host.Outcome State Fault Refusal := .next (s.kclRow p 0x03)
def execWr (p : Pkt) (s : State) : Host.Outcome State Fault Refusal := .next (s.kclRow p 0x04)
def execWb (p : Pkt) (s : State) : Host.Outcome State Fault Refusal := .next (s.kclRow p 0x05)
def execEvict (p : Pkt) (s : State) : Host.Outcome State Fault Refusal := .next (s.kclRow p 0x06)
def execCmp (p : Pkt) (s : State) : Host.Outcome State Fault Refusal := .next (s.kclRow p 0x21)
def execCmpD (p : Pkt) (s : State) : Host.Outcome State Fault Refusal := .next (s.kclRow p 0x22)
def execRclAck (p : Pkt) (s : State) : Host.Outcome State Fault Refusal := .next (s.kclRow p 0x23)
def execRclData (p : Pkt) (s : State) : Host.Outcome State Fault Refusal := .next (s.kclRow p 0x24)

def execCCmp (m : Fin 16) (tag : Nat) (status : Nat) (s : State) : Host.Outcome State Fault Refusal :=
  .next (s.recvPacket { op := 0x51, port := m + 8, tag := tag, status := status })

def execCData (m : Fin 16) (tag : Nat) (status : Nat) (data : List Byte) (s : State) : Host.Outcome State Fault Refusal :=
  .next (s.recvPacket { op := 0x52, port := m + 8, tag := tag, status := status, len := data.length, data := data })

/-! ## Flits (R343 to R346) -/

/-- CRC-32 with the IEEE 802.3 polynomial, in that standard's bit order (log 51). -/
def crcBits : (n : Nat) → W32 → W32
  | 0, c => c
  | n + 1, c => crcBits n (if c.getLsbD 0 then (c >>> 1) ^^^ 0xEDB88320#32 else c >>> 1)
def crc32 (b : List Byte) : W32 := ~~~ b.foldl (fun c x => crcBits 8 (c ^^^ x.setWidth 32)) 0xFFFFFFFF#32

/-- A packet whose slots are all there, and the slots that follow it. -/
def pktOf (port : Nat) (w : List W64) : Option (Pkt × List W64) :=
  match w with
  | h :: a :: r =>
    let v := h.toNat
    let p : Pkt :=
      { op := v % 256, win := bits v 9 8, poison := bit v 10, masked := bit v 11, tag := bits v 27 16
        status := bits v 31 28, len := bits v 47 32, aux := bits v 63 48, addr := a.toNat, port := port }
    let n := tailSlots p
    if r.length < n then none
    else
      let m := b2n (p.masked && p.op = 4 && p.len = 64)
      some ({ p with
        mask := if m = 1 then (r.headD 0).toNat else 0
        data := (((r.take n).drop m).flatMap (fun x => toLE 8 x.toNat)).take p.len }, r.drop n)
  | _ => none

/-- The packets whose slots have all been released take effect in order (R346, R351); the time a partly arrived one began
to arrive is kept (R362). A zero slot where a header would stand is filling. -/
def State.takePackets : (fuel : Nat) → State → (port : Nat) → State
  | 0, s, _ => s
  | fuel + 1, s, n =>
    let x := s.port n
    match x.partialIn.dropWhile (· = 0) with
    | [] => s.setPort n { x with partialIn := [], partialSince := none, stalled := false }
    | w => match pktOf n w with
      | none => s.setPort n { x with partialIn := w, partialSince := some (x.partialSince.getD s.tm.now) }
      | some (p, rest) =>
        let s := s.setPort n { x with partialIn := rest, partialSince := none, stalled := false }
        State.takePackets fuel (if (n < 8 ∧ p.op < 0x40) ∨ (8 ≤ n ∧ 0x40 ≤ p.op) then s.recvPacket p else s) n

/-- A link control message of the partner; SLOT_ANNOUNCE is the device's own to send. -/
def State.ctrlIn (s : State) (port : Nat) (w : W64) : State :=
  let v := w.toNat
  let failed := bits v 12 8
  match v % 256 with
  | 0x01 => if bits v 9 8 < 3 then s.creditIn port (bits v 9 8) (bits v 63 32) else s
  | 0x03 => s.laneRotate port (bit v 11) (bits v 10 8) true
  | 0x04 => s.laneRotate port (bit v 11) (bits v 10 8) false
  | 0x05 => if failed < 8 then s.handover failed (bits v 27 16) else s
  | 0x06 => if failed < 8 then s.handoverDone failed else s
  | _ => s

/-- A flit discarded; NAK names the last SEQ released in order, once until the gap is filled (R344). -/
def State.flitDrop (s : State) (p : Nat) : State :=
  let s := s.addCnt C.OP_CNT_CRC 1 p
  let x := s.port p
  if x.nakSent then s
  else (s.setPort p { x with nakSent := true }).emit (.ackFlit p ((x.rxNext + 4095) % 4096) true)

/-- A DATA or CTRL flit released in order: it is acknowledged, and its slots go on (R345, R346). -/
def State.flitRelease (s : State) (p typ : Nat) (slots : List W64) : State :=
  let x := s.port p
  let s := (s.setPort p { x with rxNext := (x.rxNext + 1) % 4096, nakSent := false }).emit (.ackFlit p x.rxNext false)
  if typ = 1 then
    let x := s.port p
    let l := x.partialIn ++ slots
    State.takePackets (l.length + 1) (s.setPort p { x with partialIn := l }) p
  else slots.foldl (fun s w => s.ctrlIn p w) s

/-- The acknowledgement in a flit's header. -/
def State.flitAck (s : State) (p hdr : Nat) : State :=
  if bit hdr 29 then s.nakIn p (bits hdr 27 16)
  else if bit hdr 28 then s.ackIn p (bits hdr 27 16)
  else s

/-- A flit arrives (table "Flit"). -/
def State.flitIn (s : State) (p : Nat) (b : List Byte) (decoded : Bool) : State :=
  if s.fld F.OP_STATUS.UP p = 0 ∨ b.length ≠ 128 then s
  else if !decoded || (crc32 (b.take 124)).toNat ≠ field b 124 4 then s.flitDrop p
  else
    let hdr := field b 0 4
    let typ := bits hdr 15 12
    let s := s.flitAck p hdr
    if typ = 1 ∨ typ = 2 then
      let s := s.addSlot 0x30 p 0 128
      let ahead := (hdr % 4096 + 4096 - (s.port p).rxNext) % 4096
      if ahead = 0 then s.flitRelease p typ ((List.range 15).map (fun i => BitVec.ofNat 64 (field b (4 + 8 * i) 8)))
      else if ahead < 2048 then s.flitDrop p
      else s
    else s

def execFlit (port : Fin 24) (bytes : List Byte) (decoded : Bool) (s : State) : Host.Outcome State Fault Refusal :=
  .next (s.flitIn port bytes decoded)

/-- A partly arrived packet has waited longer than HL_STALL_WATCH, a stop's interval apart (R362, R521). -/
def State.stallWatch (s : State) (p : Nat) : State :=
  let x := s.port p
  match x.partialSince with
  | some t =>
    if s.stopState = 0 ∧ x.stalled = false ∧ t + Nat.max 1 (s.fld F.HL_STALL_WATCH.MS) * 1000000 < s.tm.now then
      let s := s.setPort p { x with stalled := true }
      ((s.addCnt C.HL_CNT_STALLS 1).setInt F.HL_INT_STATUS.STALL).raise 0x3102 0 0 p
    else s
  | none => s

def execStallWatch (port : Fin 8) (s : State) : Host.Outcome State Fault Refusal := .next (s.stallWatch port)

/-! ## Held accesses take effect -/

/-- A held access is tried again. -/
def State.serveHeld (s : State) (h : HeldAccess) : State :=
  match h with
  | .pkt p => s.pktServe p
  | .read r off n => if r = .mgmt then s.mgmtRead off n else s.registerRead r off n
  | .write r off n v reply => if reply then s.mgmtWrite off n v.toNat else s.registerWrite r off v.toNat

/-- Every held access is tried again in the order of arrival; what still waits is held again in that order. -/
def State.drain (s : State) : State :=
  s.st.held.foldl State.serveHeld { s with st.held := [] }

/-! ## Stops -/

/-- The capture is complete (R517, R518): reads of other pages are answered from it (R519). -/
def State.capturedOp (s : State) : State :=
  if s.stopState = 2 then
    let b := s.captureBytes.take (2 ^ 23)
    let s : State := { s with st.capture := (b.zipIdx.filter (fun x => x.1 ≠ 0)).map (fun x => (x.2, x.1)) }
    let s := ((s.setCnt C.STOP_CAP_LEN b.length).setFld F.STOP_STATUS.PARTIAL 0).setFld F.STOP_STATUS.STATE 3
    (s.setInt F.STOP_INT_STATUS.CAPTURED).drain
  else s

def execCaptured (s : State) : Host.Outcome State Fault Refusal := .next s.capturedOp

/-- A stop ends: held packets take effect in order (R519, R520). -/
def execReleased (s : State) : Host.Outcome State Fault Refusal := .next s.releasedOp.drain

/-! ## Resets -/

/-- A request for resets by RST_CTRL (R467); firmware's own request meets no register access and is taken during a stop
too (R464). -/
def State.resetRow (s : State) (r : Requester) (v : Nat) : State :=
  if r = .firmware then (s.rstCtrl r v).drain else (s.opWrite r 0x0A 0 0x100 v (fun s => s.rstCtrl r v)).drain

def execWarm (r : Requester) (s : State) : Host.Outcome State Fault Refusal := .next (s.resetRow r 1)
def execRecovery (r : Requester) (s : State) : Host.Outcome State Fault Refusal := .next (s.resetRow r 2)
def execClusterReset (r : Requester) (s : State) : Host.Outcome State Fault Refusal := .next (s.resetRow r 4)

def execResetDone (s : State) : Host.Outcome State Fault Refusal := .next s.resetDoneOp.blackAfterReset.drain

def execClusterResetDone (cl : Fin 256) (s : State) : Host.Outcome State Fault Refusal :=
  .next (s.clusterResetDoneOp cl).drain

/-- Firmware requests a recovery reset to restore the system area (R579). -/
def execCacheUe (slice : Fin 4) (off : Fin 100663296) (s : State) : Host.Outcome State Fault Refusal :=
  .next (s.cacheUe slice off (fun s => s.resetRequest true 3) State.redealReaders).drain

/-! ## Firmware's action on errors -/

/-- An error's record may start a reset, which releases a stop. -/
def execErrorRecord (s : State) : Host.Outcome State Fault Refusal := .next s.errorRecord.drain

def execBlackAction (s : State) : Host.Outcome State Fault Refusal := .next s.blackActionOp.drain

def execThermalHoldEnd (s : State) : Host.Outcome State Fault Refusal := .next s.thermalHoldEndOp.drain

end Sys2Proof.Machine
end

