-- ==== Sys2Proof/Machine/StepClose.lean ====
section
/-! DEFINITION. STEP_CLOSE: the end of a wellhead step (02_rollouts.md; R53, R54, R71, R76, R202, R263). -/

namespace Sys2Proof.Machine

/-- STEP_CLOSE: the last batch of a step has drained (R53, R54, R71, R76, R202): staged entries, states, scores and rows
are written; the next step may begin, or the command's outputs are complete. -/
def State.stepClose (s : State) (q seq : Nat) (heads : List HeadOut) : State :=
  match s.cmd? q seq with
  | none => s
  | some c =>
    if s.runs 313 ∧ c.kind = .step ∧ c.stage = .running ∧ c.work.inStep ∧ c.layers.all (fun l => l.ended) ∧
        c.work.stepped.all (fun k => (headFor heads k).isSome) then
      let im := s.stepImage c
      let tokens := Config.imageTokens im.desc im.version
      let t := c.work.stepped.foldl
        (fun (t : State × Cmd) k => match headFor heads k with
          | some h => t.1.closeBranch t.2 tokens k h
          | none => t) (s, c)
      let c0 := c
      let c := t.2
      let gs := (c.work.stepped.map (· / 4096)).dedup
      let s := gs.foldl (fun s g => s.writeRows c0 c heads g) t.1
      let ran := c.groups.map (fun g => (g, c.work.ranOf g + b2n (gs.contains g)))
      let c := { c with
        layers := []
        tileBase := c.tileBase + s.stepTiles c0
        work := { c.work with
          inStep := false, step := c.work.step + 1, ran := ran, list := [c.work.list.headD 0 + c.work.stepped.length] } }
      let s := s.setCmd c
      if c.work.step = field c.rec_ 0x11 1 ∨ c.groups.all (fun g => (s.indicesIn c g (· = 1)).isEmpty)
      then s.stagedNow c else s.settle c.ctx
    else s

def execStepClose (q : Fin 4096) (seq : W32) (heads : List HeadOut) (s : State) : Host.Outcome State Fault Refusal :=
  .next (s.stepClose q seq.toNat heads)

end Sys2Proof.Machine
end

