-- ==== Sys2Proof/Machine/Dispatch.lean ====
section
/-! DEFINITION. One arm per command: the meaning it calls, or its refusal by name. -/

namespace Sys2Proof.Machine

def exec (i : Instr) (s : State) : Host.Outcome State Fault Refusal :=
  match i with
  | .db p => Sys2Proof.Machine.execDb p s
  | .push p => Sys2Proof.Machine.execPush p s
  | .run q => Sys2Proof.Machine.execRun q s
  | .move q => Sys2Proof.Machine.execMove q s
  | .checkpoint q => Sys2Proof.Machine.execCheckpoint q s
  | .reduce q => Sys2Proof.Machine.execReduce q s
  | .barrier q => Sys2Proof.Machine.execBarrier q s
  | .openGroup q => Sys2Proof.Machine.execOpenGroup q s
  | .stepGroups q => Sys2Proof.Machine.execStepGroups q s
  | .fork q => Sys2Proof.Machine.execFork q s
  | .prune q => Sys2Proof.Machine.execPrune q s
  | .close q => Sys2Proof.Machine.execClose q s
  | .commandStart q seq => Sys2Proof.Machine.execCommandStart q seq s
  | .windowGrant => Sys2Proof.Machine.execWindowGrant s
  | .publish q seq => Sys2Proof.Machine.execPublish q seq s
  | .lineageSpaceFreed => Sys2Proof.Machine.execLineageSpaceFreed s
  | .descriptorSwap q seq => Sys2Proof.Machine.execDescriptorSwap q seq s
  | .enable r host => Sys2Proof.Machine.execEnable r host s
  | .disable r => Sys2Proof.Machine.execDisable r s
  | .resetSeq r => Sys2Proof.Machine.execResetSeq r s
  | .whCommandStart q seq => Sys2Proof.Machine.execWhCommandStart q seq s
  | .stepStart q seq => Sys2Proof.Machine.execStepStart q seq s
  | .stepClose q seq heads => Sys2Proof.Machine.execStepClose q seq heads s
  | .holdResume q seq => Sys2Proof.Machine.execHoldResume q seq s
  | .rederiveDone g => Sys2Proof.Machine.execRederiveDone g s
  | .countUpdate => Sys2Proof.Machine.execCountUpdate s
  | .holdingReturn => Sys2Proof.Machine.execHoldingReturn s
  | .seqCreate r => Sys2Proof.Machine.execSeqCreate r s
  | .seqDestroy r => Sys2Proof.Machine.execSeqDestroy r s
  | .dropFront r => Sys2Proof.Machine.execDropFront r s
  | .evictEntry r => Sys2Proof.Machine.execEvictEntry r s
  | .setPolicy r => Sys2Proof.Machine.execSetPolicy r s
  | .sealTail r => Sys2Proof.Machine.execSealTail r s
  | .deferredEdit sequence => Sys2Proof.Machine.execDeferredEdit sequence s
  | .kvpCfgEnable r v => Sys2Proof.Machine.execKvpCfgEnable r v s
  | .whCfgEnable r v => Sys2Proof.Machine.execWhCfgEnable r v s
  | .dispatchMessage cl q seq layer => Sys2Proof.Machine.execDispatchMessage cl q seq layer s
  | .placementScan => Sys2Proof.Machine.execPlacementScan s
  | .claim cl counter => Sys2Proof.Machine.execClaim cl counter s
  | .itemComplete core => Sys2Proof.Machine.execItemComplete core s
  | .doneIncrement cl counter job item gen => Sys2Proof.Machine.execDoneIncrement cl counter job item gen s
  | .gaugeAdvance gauge value gen counter job item => Sys2Proof.Machine.execGaugeAdvance gauge value gen counter job item s
  | .waitWake core => Sys2Proof.Machine.execWaitWake core s
  | .array core => Sys2Proof.Machine.execArray core s
  | .loadStat core => Sys2Proof.Machine.execLoadStat core s
  | .drain core => Sys2Proof.Machine.execDrain core s
  | .save40 core => Sys2Proof.Machine.execSave40 core s
  | .restore40 core => Sys2Proof.Machine.execRestore40 core s
  | .wait core => Sys2Proof.Machine.execWait core s
  | .yieldMark core => Sys2Proof.Machine.execYieldMark core s
  | .endWord core => Sys2Proof.Machine.execEndWord core s
  | .moveRead core => Sys2Proof.Machine.execMoveRead core s
  | .moveWrite core => Sys2Proof.Machine.execMoveWrite core s
  | .add32 core => Sys2Proof.Machine.execAdd32 core s
  | .add64 core => Sys2Proof.Machine.execAdd64 core s
  | .fadd32 core => Sys2Proof.Machine.execFadd32 core s
  | .max32 core => Sys2Proof.Machine.execMax32 core s
  | .min32 core => Sys2Proof.Machine.execMin32 core s
  | .swap32 core => Sys2Proof.Machine.execSwap32 core s
  | .swap64 core => Sys2Proof.Machine.execSwap64 core s
  | .cas32 core => Sys2Proof.Machine.execCas32 core s
  | .cas64 core => Sys2Proof.Machine.execCas64 core s
  | .fma core => Sys2Proof.Machine.execFma core s
  | .add core => Sys2Proof.Machine.execAdd core s
  | .mul core => Sys2Proof.Machine.execMul core s
  | .max core => Sys2Proof.Machine.execMax core s
  | .min core => Sys2Proof.Machine.execMin core s
  | .select core => Sys2Proof.Machine.execSelect core s
  | .vectorCmp core => Sys2Proof.Machine.execVectorCmp core s
  | .add40 core => Sys2Proof.Machine.execAdd40 core s
  | .add40w core => Sys2Proof.Machine.execAdd40w core s
  | .cvt core => Sys2Proof.Machine.execCvt core s
  | .exp core => Sys2Proof.Machine.execExp core s
  | .ln core => Sys2Proof.Machine.execLn core s
  | .exp2 core => Sys2Proof.Machine.execExp2 core s
  | .log2 core => Sys2Proof.Machine.execLog2 core s
  | .sin2pi core => Sys2Proof.Machine.execSin2pi core s
  | .cos2pi core => Sys2Proof.Machine.execCos2pi core s
  | .tanh core => Sys2Proof.Machine.execTanh core s
  | .sigmoid core => Sys2Proof.Machine.execSigmoid core s
  | .sqrt core => Sys2Proof.Machine.execSqrt core s
  | .rcp core => Sys2Proof.Machine.execRcp core s
  | .rsqrt core => Sys2Proof.Machine.execRsqrt core s
  | .sum core => Sys2Proof.Machine.execSum core s
  | .rmax core => Sys2Proof.Machine.execRmax core s
  | .rmin core => Sys2Proof.Machine.execRmin core s
  | .topk core => Sys2Proof.Machine.execTopk core s
  | .splitmix core => Sys2Proof.Machine.execSplitmix core s
  | .gate40w core => Sys2Proof.Machine.execGate40w core s
  | .fma40 core => Sys2Proof.Machine.execFma40 core s
  | .lscan40 core => Sys2Proof.Machine.execLscan40 core s
  | .coreFault core cause well => Sys2Proof.Machine.execCoreFault core cause well s
  | .coreTestStart r core => Sys2Proof.Machine.execCoreTestStart r core s
  | .selfTestDone core pass failUnit => Sys2Proof.Machine.execSelfTestDone core pass failUnit s
  | .clusterFault cl => Sys2Proof.Machine.execClusterFault cl s
  | .dieLost die => Sys2Proof.Machine.execDieLost die s
  | .clusterStoreUe cl addr reader => Sys2Proof.Machine.execClusterStoreUe cl addr reader s
  | .cacheUe slice off => Sys2Proof.Machine.execCacheUe slice off s
  | .hbmUe stack addr => Sys2Proof.Machine.execHbmUe stack addr s
  | .unitRelease stack pc => Sys2Proof.Machine.execUnitRelease stack pc s
  | .retrain stack ch => Sys2Proof.Machine.execRetrain stack ch s
  | .retrainEnd stack pass0 pass1 => Sys2Proof.Machine.execRetrainEnd stack pass0 pass1 s
  | .temperatureRead stack celsius => Sys2Proof.Machine.execTemperatureRead stack celsius s
  | .refreshInterval stack => Sys2Proof.Machine.execRefreshInterval stack s
  | .grant r page => Sys2Proof.Machine.execGrant r page s
  | .revoke r page => Sys2Proof.Machine.execRevoke r page s
  | .query r page => Sys2Proof.Machine.execQuery r page s
  | .zeroDone page => Sys2Proof.Machine.execZeroDone page s
  | .revokeEffect page => Sys2Proof.Machine.execRevokeEffect page s
  | .reductionDone q seq => Sys2Proof.Machine.execReductionDone q seq s
  | .laneTrain port rx lane partnerLight => Sys2Proof.Machine.execLaneTrain port rx lane partnerLight s
  | .laneLock port rx lane rtt => Sys2Proof.Machine.execLaneLock port rx lane rtt s
  | .lockTimeout port rx lane => Sys2Proof.Machine.execLockTimeout port rx lane s
  | .laneDown port rx lane => Sys2Proof.Machine.execLaneDown port rx lane s
  | .lightLost port rx lane => Sys2Proof.Machine.execLightLost port rx lane s
  | .laserModuleLoss m => Sys2Proof.Machine.execLaserModuleLoss m s
  | .linkLost => Sys2Proof.Machine.execLinkLost s
  | .resetLanes r port => Sys2Proof.Machine.execResetLanes r port s
  | .rejoin r port => Sys2Proof.Machine.execRejoin r port s
  | .calibrationSlot port => Sys2Proof.Machine.execCalibrationSlot port s
  | .slotEnd port => Sys2Proof.Machine.execSlotEnd port s
  | .slotAnnounce port => Sys2Proof.Machine.execSlotAnnounce port s
  | .flit port bytes decoded => Sys2Proof.Machine.execFlit port bytes decoded s
  | .nak port ack => Sys2Proof.Machine.execNak port ack s
  | .ack port ack => Sys2Proof.Machine.execAck port ack s
  | .credit port cls slots => Sys2Proof.Machine.execCredit port cls slots s
  | .laneAdd port rx lane cwseq => Sys2Proof.Machine.execLaneAdd port rx lane cwseq s
  | .laneDrop port rx lane => Sys2Proof.Machine.execLaneDrop port rx lane s
  | .handover failed lastSeq => Sys2Proof.Machine.execHandover failed lastSeq s
  | .handoverDone port => Sys2Proof.Machine.execHandoverDone port s
  | .portFailed port => Sys2Proof.Machine.execPortFailed port s
  | .cisternPortFailed port => Sys2Proof.Machine.execCisternPortFailed port s
  | .rdNc p => Sys2Proof.Machine.execRdNc p s
  | .rdS p => Sys2Proof.Machine.execRdS p s
  | .rdM p => Sys2Proof.Machine.execRdM p s
  | .wr p => Sys2Proof.Machine.execWr p s
  | .wb p => Sys2Proof.Machine.execWb p s
  | .evict p => Sys2Proof.Machine.execEvict p s
  | .cmp p => Sys2Proof.Machine.execCmp p s
  | .cmpD p => Sys2Proof.Machine.execCmpD p s
  | .rclAck p => Sys2Proof.Machine.execRclAck p s
  | .rclData p => Sys2Proof.Machine.execRclData p s
  | .recallTimeout line => Sys2Proof.Machine.execRecallTimeout line s
  | .stallWatch port => Sys2Proof.Machine.execStallWatch port s
  | .cData m tag status data => Sys2Proof.Machine.execCData m tag status data s
  | .cCmp m tag status => Sys2Proof.Machine.execCCmp m tag status s
  | .cisCfgEnable r m v => Sys2Proof.Machine.execCisCfgEnable r m v s
  | .format r m => Sys2Proof.Machine.execFormat r m s
  | .release r m => Sys2Proof.Machine.execRelease r m s
  | .trim r m => Sys2Proof.Machine.execTrim r m s
  | .create r => Sys2Proof.Machine.execCreate r s
  | .destroy r => Sys2Proof.Machine.execDestroy r s
  | .sliceEnd ctx => Sys2Proof.Machine.execSliceEnd ctx s
  | .sliceOverrun ctx => Sys2Proof.Machine.execSliceOverrun ctx s
  | .coreRelease core => Sys2Proof.Machine.execCoreRelease core s
  | .swapOut => Sys2Proof.Machine.execSwapOut s
  | .saveComplete ctx => Sys2Proof.Machine.execSaveComplete ctx s
  | .swapIn => Sys2Proof.Machine.execSwapIn s
  | .restoreComplete ctx => Sys2Proof.Machine.execRestoreComplete ctx s
  | .pwrOk straps => Sys2Proof.Machine.execPwrOk straps s
  | .powerLoss => Sys2Proof.Machine.execPowerLoss s
  | .refLost ref => Sys2Proof.Machine.execRefLost ref s
  | .pllUnlock => Sys2Proof.Machine.execPllUnlock s
  | .powerRecompute watts mv fit => Sys2Proof.Machine.execPowerRecompute watts mv fit s
  | .droop cl => Sys2Proof.Machine.execDroop cl s
  | .droopCalibration cl => Sys2Proof.Machine.execDroopCalibration cl s
  | .dieTemperatureRead compute port control photonic => Sys2Proof.Machine.execDieTemperatureRead compute port control photonic s
  | .park cl => Sys2Proof.Machine.execPark cl s
  | .pwrLimitWrite r v => Sys2Proof.Machine.execPwrLimitWrite r v s
  | .warm r => Sys2Proof.Machine.execWarm r s
  | .recovery r => Sys2Proof.Machine.execRecovery r s
  | .clusterReset r => Sys2Proof.Machine.execClusterReset r s
  | .resetDone => Sys2Proof.Machine.execResetDone s
  | .clusterResetDone cl => Sys2Proof.Machine.execClusterResetDone cl s
  | .bootStage e => Sys2Proof.Machine.execBootStage e s
  | .stageTimeout => Sys2Proof.Machine.execStageTimeout s
  | .bootCtrlClearCount r => Sys2Proof.Machine.execBootCtrlClearCount r s
  | .setPrefer r slot => Sys2Proof.Machine.execSetPrefer r slot s
  | .commitSvn r => Sys2Proof.Machine.execCommitSvn r s
  | .secCtrlRevoke r slot => Sys2Proof.Machine.execSecCtrlRevoke r slot s
  | .lcGo r => Sys2Proof.Machine.execLcGo r s
  | .lcRequest target token => Sys2Proof.Machine.execLcRequest target token s
  | .getIdentity => Sys2Proof.Machine.execGetIdentity s
  | .getCert offset len => Sys2Proof.Machine.execGetCert offset len s
  | .attest nonce => Sys2Proof.Machine.execAttest nonce s
  | .getBootCause => Sys2Proof.Machine.execGetBootCause s
  | .getSignState => Sys2Proof.Machine.execGetSignState s
  | .clearCount => Sys2Proof.Machine.execClearCount s
  | .treeDone => Sys2Proof.Machine.execTreeDone s
  | .requestUpdate image => Sys2Proof.Machine.execRequestUpdate image s
  | .regRead offset size => Sys2Proof.Machine.execRegRead offset size s
  | .regWrite offset size value => Sys2Proof.Machine.execRegWrite offset size value s
  | .send r len => Sys2Proof.Machine.execSend r len s
  | .mboxAck r => Sys2Proof.Machine.execMboxAck r s
  | .setdasa addr => Sys2Proof.Machine.execSetdasa addr s
  | .errorRecord => Sys2Proof.Machine.execErrorRecord s
  | .blackAction => Sys2Proof.Machine.execBlackAction s
  | .thermalHoldEnd => Sys2Proof.Machine.execThermalHoldEnd s
  | .errInject r v => Sys2Proof.Machine.execErrInject r v s
  | .errFirstClear r => Sys2Proof.Machine.execErrFirstClear r s
  | .pgErrFirstClear r cls inst => Sys2Proof.Machine.execPgErrFirstClear r cls inst s
  | .sample => Sys2Proof.Machine.execSample s
  | .throttleWindow => Sys2Proof.Machine.execThrottleWindow s
  | .mark r v => Sys2Proof.Machine.execMark r v s
  | .trcCfgEnable r v => Sys2Proof.Machine.execTrcCfgEnable r v s
  | .go r => Sys2Proof.Machine.execGo r s
  | .domainHalt d => Sys2Proof.Machine.execDomainHalt d s
  | .halted => Sys2Proof.Machine.execHalted s
  | .captured => Sys2Proof.Machine.execCaptured s
  | .stopRelease r => Sys2Proof.Machine.execStopRelease r s
  | .domainResume d => Sys2Proof.Machine.execDomainResume d s
  | .released => Sys2Proof.Machine.execReleased s
  | .wfgGo r => Sys2Proof.Machine.execWfgGo r s
  | .wfgDone => Sys2Proof.Machine.execWfgDone s
  | .snap r cls inst => Sys2Proof.Machine.execSnap r cls inst s
  | .pgApply r cls inst => Sys2Proof.Machine.execPgApply r cls inst s
  | .take r cls inst => Sys2Proof.Machine.execTake r cls inst s
  | .give r cls inst => Sys2Proof.Machine.execGive r cls inst s
  | .registerWrite r offset v => Sys2Proof.Machine.execRegisterWrite r offset v s
  | .vinLow mv => Sys2Proof.Machine.execVinLow mv s
  | .ctrlBlock block => Sys2Proof.Machine.execCtrlBlock block s
  | .portDieLost p => Sys2Proof.Machine.execPortDieLost p s
  | .debugInstruction => Sys2Proof.Machine.execDebugInstruction s
  | .droopSlotEnd cl => Sys2Proof.Machine.execDroopSlotEnd cl s
  | .requestFirmwareData offset data => Sys2Proof.Machine.execRequestFirmwareData offset data s
  | .stopCapData r => Sys2Proof.Machine.execStopCapData r s
  | .seqStatus r cl => Sys2Proof.Machine.execSeqStatus r cl s

end Sys2Proof.Machine
end

