-- ==== Sys2Proof/Safety.lean ====
section
/-! DEFINITION. The terms in which the claims speak: which command starts which operation, what a command may change, and
the invariants of the block. -/

namespace Sys2Proof.Machine

/-! ## Words of a core -/

/-- The command that starts the oldest VECTOR word of an operation. -/
def vecCommand (op : VecOp) (c : Fin 10240) : Instr :=
  match op with
  | .fma => .fma c | .add => .add c | .mul => .mul c | .max => .max c | .min => .min c | .select => .select c
  | .cmp => .vectorCmp c | .add40 => .add40 c | .add40w => .add40w c | .cvt => .cvt c | .exp => .exp c | .ln => .ln c
  | .exp2 => .exp2 c | .log2 => .log2 c | .sin2pi => .sin2pi c | .cos2pi => .cos2pi c | .tanh => .tanh c
  | .sigmoid => .sigmoid c | .sqrt => .sqrt c | .rcp => .rcp c | .rsqrt => .rsqrt c | .sum => .sum c | .rmax => .rmax c
  | .rmin => .rmin c | .topk => .topk c | .splitmix => .splitmix c | .gate40w => .gate40w c | .fma40 => .fma40 c
  | .lscan40 => .lscan40 c

/-- The function of the FP32 operands that an elementwise operation puts at D (table "Vector operations"). -/
def elementOf (op : VecOp) : Option (Nat → Nat → Nat → Nat) :=
  match op with
  | .fma => some f32fma
  | .add => some (fun a b _ => f32add a b)
  | .mul => some (fun a b _ => f32mul a b)
  | .max => some (fun a b _ => vMaxMin true a b)
  | .min => some (fun a b _ => vMaxMin false a b)
  | .select => some selectMarked
  | .cmp => some (fun a b _ => (Config.cmpResult (BitVec.ofNat 32 a) (BitVec.ofNat 32 b)).toNat)
  | .exp => some (fun a _ _ => vExp 1 0x42B17218 a)
  | .ln => some (fun a _ _ => vLog 2 a)
  | .exp2 => some (fun a _ _ => vExp 3 0x43000000 a)
  | .log2 => some (fun a _ _ => vLog 4 a)
  | .sin2pi => some (fun a _ _ => vTrig 5 a)
  | .cos2pi => some (fun a _ _ => vTrig 6 a)
  | .tanh => some (fun a _ _ => vTanh a)
  | .sigmoid => some (fun a _ _ => vSigmoid a)
  | .sqrt => some (fun a _ _ => vSqrt a)
  | .rcp => some (fun a _ _ => vRcp a)
  | .rsqrt => some (fun a _ _ => vRsqrt a)
  | _ => none

/-- The combining function of a range reduction (R116). -/
def reducerOf (op : VecOp) : Option (Nat → Nat → Nat) :=
  match op with
  | .sum => some vAdd
  | .rmax => some (vMaxMin true)
  | .rmin => some (vMaxMin false)
  | _ => none

/-- The command that starts a MOVE ATOMIC of an operation code (table "Atomic operations"). -/
def atomicCommand (aop : Fin 9) (c : Fin 10240) : Instr :=
  match aop with
  | 0 => .add32 c | 1 => .add64 c | 2 => .fadd32 c | 3 => .max32 c | 4 => .min32 c
  | 5 => .swap32 c | 6 => .swap64 c | 7 => .cas32 c | 8 => .cas64 c

/-- The command that asks for the acceptance of a record of a kind from a queue (table "Acceptance sequence"). -/
def kindCommand (k : Kind) (q : Fin 4096) : Instr :=
  match k with
  | .run => .run q | .move => .move q | .checkpoint => .checkpoint q | .reduce => .reduce q | .barrier => .barrier q
  | .open_ => .openGroup q | .step => .stepGroups q | .fork => .fork q | .prune => .prune q | .close => .close q

/-- The command that starts the edit whose code KVP_EDIT_OP holds (table "Edit operations"). -/
def editCommand (op : Fin 6) (r : Requester) : Instr :=
  match op with
  | 0 => .seqCreate r | 1 => .seqDestroy r | 2 => .dropFront r
  | 3 => .evictEntry r | 4 => .setPolicy r | 5 => .sealTail r

/-- The core may start words, and `w` is the oldest word of its kind and may start: it names no arrival still to come (R146),
no fill that the pumps still owe it (R260), and no items still to complete (R242); `rest` is the queue without it. -/
def Starts (s : State) (c kind : Nat) (w : QWord) (rest : List QWord) : Prop :=
  s.coreRuns c = true ∧ takeWord kind [] (s.core c).queue = some (w, rest) ∧ (s.core c).tagHere w = true ∧
    (s.core c).fillsHere w = true ∧ s.matesDone c w = true

/-- The pumps owe the item of a core nothing: no fill is to be issued and none to be stored (R260). -/
def PumpsIdle (s : State) (c : Nat) : Prop := ∀ p ∈ (s.core c).place, p.due = [] ∧ p.outs = []

/-! ## What a command may change -/

/-- Nothing but the cores and the counters of the register window. -/
def OnlyCores (s t : State) : Prop :=
  t = { s with rg := { s.rg with cnts := t.rg.cnts, slots := t.rg.slots }, tl := { s.tl with cores := t.tl.cores } }

/-- Nothing but core `c` and the counters of the register window. -/
def OnlyCore (s t : State) (c : Nat) : Prop := OnlyCores s t ∧ ∀ k, k ≠ c → t.core k = s.core k

/-- Nothing but the register window. -/
def OnlyRegs (s t : State) : Prop := t = { s with rg := t.rg }

/-- Nothing but the register window, what the device sends, and errors on their way to the collector. -/
def OnlySignals (s t : State) : Prop :=
  t = { s with rg := t.rg, hl.out := t.hl.out, op := t.op, er.collector := t.er.collector, er.thermN := t.er.thermN }

/-- No field of a register but those of the keys listed has another value in force. -/
def FieldsBut (s t : State) (keys : List Nat) : Prop :=
  ∀ k, k ∉ keys → ∀ d, look d t.rg.fields k = look d s.rg.fields k

/-- An error of a code and severity, detected now at an instance, is on its way to the collector. -/
def Raised (s t : State) (code sev inst : Nat) : Prop :=
  ∃ e ∈ t.er.collector, e.code = code ∧ e.sev = sev ∧ e.inst = inst ∧ e.time = s.tm.now

/-- What the command engine, the wellhead, the pools and the tiling hold. -/
def SameWork (s t : State) : Prop :=
  t.cq = s.cq ∧ t.wh = s.wh ∧ t.kv = s.kv ∧ t.tl = s.tl ∧ t.sc = s.sc

/-! ## Accesses -/

/-- A packet of the host arrives on a live KCL port, and neither a stop nor a reset holds it. -/
def Serving (s : State) (p : Pkt) : Prop :=
  p.port < 8 ∧ s.fld F.OP_STATUS.UP p.port = 1 ∧ s.stopState = 0 ∧ s.rs.run = none

/-- LEN and ADDR of an RD_NC or WR of device memory as R349 asks. -/
def sized (p : Pkt) : Prop := (p.len = 64 ∨ p.len = 128 ∨ p.len = 256) ∧ p.addr % p.len = 0

/-- A write of a register of the page by the requester takes effect: the page has power, nothing holds the access, and no
other requester has locked the page. -/
def Writable (s : State) (cls inst : Nat) (r : Requester) : Prop :=
  s.pagePowered cls inst = true ∧ s.accessWaits cls inst r = false ∧ s.lockedFor cls inst r = false

end Sys2Proof.Machine
end

