-- ==== Sys2Proof/Certificates/Slice0/Obligations.lean ====
section
/-! DEFINITION. The claims: one definition per obligation, grouped by family of commands and kind of state. -/

open Sys2Proof Sys2Proof.Machine

/-- Elementwise FP32 operations (R83, R116, R118): the operands are read before any result is written; element i at D
is the operation of elements i at A, B and C; nothing else of the state changes but counters. Then the pumps go on: those
that owe the core's item nothing change nothing. -/
def Obligations.VectorElementwise : Prop :=
  ∀ (s : State) (c : Fin 10240) (op : VecOp) (f : Nat → Nat → Nat → Nat) (q : QWord) (v : VecWord) (rest : List QWord),
    elementOf op = some f → q.w = .vec v → v.op = op → Starts s c 4 q rest →
    ∃ t : State, exec (vecCommand op c) s = .next (t.pump c) ∧ (PumpsIdle s c → t.pump c = t) ∧
      (∀ i, i < 32 * v.len → (t.core c).f32 (v.d * 32 + 4 * i) =
        f ((s.core c).f32 (v.a * 32 + 4 * i)) ((s.core c).f32 (v.b * 32 + 4 * i)) ((s.core c).f32 (v.c * 32 + 4 * i)) % 2 ^ 32) ∧
      (∀ x, x < v.d * 32 ∨ v.d * 32 + 128 * v.len ≤ x → rdByte (t.core c).store x = rdByte (s.core c).store x) ∧
      (t.core c).wells = (s.core c).wells ∧ (t.core c).lfsr = (s.core c).lfsr ∧ OnlyCore s t c

/-- SUM, RMAX and RMIN write one FP32 value at D, combined by the fixed tree (R116). SPLITMIX (R581): every 64-bit
lane at A steps, and the output goes to D; with the two ranges apart. TOPK (R117): k pairs of score and index are
written at D, the score of each being that of its index, and the first pair is one before which no candidate stands.
-/
def Obligations.VectorRangeOperations : Prop :=
  (∀ (s : State) (c : Fin 10240) (op : VecOp) (f : Nat → Nat → Nat) (q : QWord) (v : VecWord) (rest : List QWord),
     reducerOf op = some f → q.w = .vec v → v.op = op → Starts s c 4 q rest →
     ∃ t : State, exec (vecCommand op c) s = .next (t.pump c) ∧ (PumpsIdle s c → t.pump c = t) ∧
       (t.core c).f32 (v.d * 32) = reduceRange f (s.core c).store (v.a * 32) v.len % 2 ^ 32 ∧
       (∀ x, x < v.d * 32 ∨ v.d * 32 + 4 ≤ x → rdByte (t.core c).store x = rdByte (s.core c).store x) ∧
       (t.core c).wells = (s.core c).wells ∧ OnlyCore s t c) ∧
  (∀ (s : State) (c : Fin 10240) (q : QWord) (v : VecWord) (rest : List QWord),
     q.w = .vec v → v.op = .splitmix → Starts s c 4 q rest →
     (v.a * 32 + 128 * v.len ≤ v.d * 32 ∨ v.d * 32 + 128 * v.len ≤ v.a * 32) →
     ∃ t : State, exec (.splitmix c) s = .next (t.pump c) ∧ (PumpsIdle s c → t.pump c = t) ∧
       (∀ i, i < 16 * v.len →
         let x := leNat (rdBytes (s.core c).store (v.a * 32 + 8 * i) 8)
         leNat (rdBytes (t.core c).store (v.a * 32 + 8 * i) 8) = (x + 0x9E3779B97F4A7C15) % 2 ^ 64 ∧
         leNat (rdBytes (t.core c).store (v.d * 32 + 8 * i) 8) = (splitmix64 x).2 % 2 ^ 64) ∧
       (∀ x, (x < v.a * 32 ∨ v.a * 32 + 128 * v.len ≤ x) → (x < v.d * 32 ∨ v.d * 32 + 128 * v.len ≤ x) →
         rdByte (t.core c).store x = rdByte (s.core c).store x) ∧
       (t.core c).wells = (s.core c).wells ∧ OnlyCore s t c) ∧
  (∀ (s : State) (c : Fin 10240) (q : QWord) (v : VecWord) (rest : List QWord),
     q.w = .vec v → v.op = .topk → Starts s c 4 q rest → 1 ≤ v.aux → v.aux ≤ 64 → 2 ≤ v.len → v.len < 2 ^ 20 →
     ∃ t : State, exec (.topk c) s = .next (t.pump c) ∧ (PumpsIdle s c → t.pump c = t) ∧
       (∀ j, j < v.aux →
         let i := (t.core c).f32 (v.d * 32 + 8 * j + 4)
         i < 32 * v.len ∧ (t.core c).f32 (v.d * 32 + 8 * j) = (s.core c).f32 (v.a * 32 + 4 * i)) ∧
       (∀ i, i < 32 * v.len →
         topBefore ((s.core c).f32 (v.a * 32 + 4 * i)) i ((t.core c).f32 (v.d * 32)) ((t.core c).f32 (v.d * 32 + 4)) = false) ∧
       (∀ x, x < v.d * 32 ∨ v.d * 32 + 8 * v.aux ≤ x → rdByte (t.core c).store x = rdByte (s.core c).store x) ∧
       (t.core c).wells = (s.core c).wells ∧ OnlyCore s t c)

/-- ADD40 and FMA40 (R91, R152): W40 element i at D is the sum, or the product and sum, rounded once. ADD40W and
GATE40W (R99, R119, R142, R157): every element of the well takes its new value from its old one, and no other well
changes. -/
def Obligations.VectorWideOperations : Prop :=
  (∀ (s : State) (c : Fin 10240) (q : QWord) (v : VecWord) (rest : List QWord),
     q.w = .vec v → Starts s c 4 q rest →
     let sat : Bool := s.coreFld F.CORE_CFG.W40_SAT c = 1
     let k := s.core c
     (v.op = .add40 → ∃ t : State, exec (.add40 c) s = .next (t.pump c) ∧ (PumpsIdle s c → t.pump c = t) ∧
       (∀ i, i < 32 * v.len → (t.core c).w40 (v.d * 32 + 5 * i) =
         (toW40 sat ((ofW40 (k.w40 (v.a * 32 + 5 * i))).add (ofW40 (k.w40 (v.b * 32 + 5 * i))))).1) ∧
       (∀ x, x < v.d * 32 ∨ v.d * 32 + 160 * v.len ≤ x → rdByte (t.core c).store x = rdByte k.store x) ∧
       (t.core c).wells = k.wells ∧ OnlyCore s t c) ∧
     (v.op = .fma40 → ∃ t : State, exec (.fma40 c) s = .next (t.pump c) ∧ (PumpsIdle s c → t.pump c = t) ∧
       (∀ i, i < 32 * v.len → (t.core c).w40 (v.d * 32 + 5 * i) =
         (toW40 sat (((mixed k (bit v.fmtA 0) (v.a * 32) i).mul (mixed k (bit v.fmtA 1) (v.b * 32) i)).add
           (mixed k (bit v.fmtA 2) (v.c * 32) i))).1) ∧
       (∀ x, x < v.d * 32 ∨ v.d * 32 + 160 * v.len ≤ x → rdByte (t.core c).store x = rdByte k.store x) ∧
       (t.core c).wells = k.wells ∧ OnlyCore s t c)) ∧
  (∀ (s : State) (c : Fin 10240) (q : QWord) (v : VecWord) (rest : List QWord),
     q.w = .vec v → Starts s c 4 q rest → v.d < 24 →
     let sat : Bool := s.coreFld F.CORE_CFG.W40_SAT c = 1
     let k := s.core c
     (v.op = .add40w → ∃ t : State, exec (.add40w c) s = .next (t.pump c) ∧ (PumpsIdle s c → t.pump c = t) ∧
       (∀ r col, r < 16 → col < 16 → (t.core c).well v.d r col =
         (toW40 sat ((ofW40 (k.well v.d r col)).add (ofW40 (k.w40 (v.a * 32 + 5 * (r * 16 + col)))))).1) ∧
       (∀ w r col, w ≠ v.d → r < 16 → col < 16 → (t.core c).well w r col = k.well w r col) ∧
       (t.core c).store = k.store ∧ OnlyCore s t c) ∧
     (v.op = .gate40w → ∃ t : State, exec (.gate40w c) s = .next (t.pump c) ∧ (PumpsIdle s c → t.pump c = t) ∧
       (∀ r col, r < 16 → col < 16 →
         let p := if bit v.aux r then k.w40 (v.c * 32 + 5 * (r * 16 + col)) else k.well v.d r col
         (t.core c).well v.d r col =
           (toW40 sat (((ofF32 (k.f32 (v.a * 32 + 4 * (r * 16 + col)))).mul (ofW40 p)).add
             (ofF32 (k.f32 (v.b * 32 + 4 * (r * 16 + col)))))).1) ∧
       (∀ w r col, w ≠ v.d → r < 16 → col < 16 → (t.core c).well w r col = k.well w r col) ∧
       (t.core c).store = k.store ∧ OnlyCore s t c))

/-- CVT between any two formats (R112, R113): only the bytes of the result at D change; without stochastic rounding the LFSR
lanes stay, and every element of a format of whole bytes is converted with one rounding to nearest even. LSCAN40 of a chunk
of 2^p steps (R153), its operands where log 8 puts them: A and B of the last step, as W40, are written first, for each of
the 16 channels; without marks and APPLY, a chunk of two steps gives A1 x A0 and A1 x B0 + B1, each rounded once. -/
def Obligations.VectorConvertScan : Prop :=
  ∀ (s : State) (c : Fin 10240) (q : QWord) (v : VecWord) (rest : List QWord),
    q.w = .vec v → Starts s c 4 q rest →
    let k := s.core c
    let sat : Bool := s.coreFld F.CORE_CFG.W40_SAT c = 1
    (v.op = .cvt →
      ∃ t : State, exec (.cvt c) s = .next (t.pump c) ∧ (PumpsIdle s c → t.pump c = t) ∧
        (v.rnd = false → (t.core c).lfsr = k.lfsr ∧ (v.fmtD ≠ 4 → ∀ i, i < 32 * v.len →
          leNat (rdBytes (t.core c).store (v.d * 32 + fmtBytes v.fmtD i) (fmtBytes v.fmtD 1)) =
            (cvtTo sat (s.coreFld F.CORE_CFG.NARROW_SAT c = 1) .rne v.fmtD i (cvtRead k.store (v.a * 32) v.fmtA i)).1 %
              2 ^ (8 * fmtBytes v.fmtD 1))) ∧
        (∀ x, x < v.d * 32 ∨ v.d * 32 + fmtBytes v.fmtD (32 * v.len) ≤ x → rdByte (t.core c).store x = rdByte k.store x) ∧
        (t.core c).wells = k.wells ∧ OnlyCore s t c) ∧
    (v.op = .lscan40 →
      let l := 2 ^ (v.aux % 16)
      let a (n h : Nat) : Val := mixed k (bit v.fmtA 0) (v.a * 32) (n * 16 + h)
      let b (n h : Nat) : Val := mixed k (bit v.fmtA 1) (v.b * 32) (n * 16 + h)
      let marks := (List.range l).map (fun n => (rdByte k.store (v.c * 32 + 160 + n / 8)).getLsbD (n % 8))
      ∃ t : State, exec (.lscan40 c) s = .next (t.pump c) ∧ (PumpsIdle s c → t.pump c = t) ∧
        (∀ h, h < 16 →
          let x := (scanChannel sat (bit v.aux 4) (v.aux % 16) (k.w40 (v.c * 32 + 5 * h)) (k.w40 (v.c * 32 + 80 + 5 * h)) marks
            ((List.range l).map (fun n => a n h)) ((List.range l).map (fun n => b n h))).1
          (t.core c).w40 (v.d * 32 + 5 * h) = x.a.getD (l - 1) 0 ∧ (t.core c).w40 (v.d * 32 + 80 + 5 * h) = x.b.getD (l - 1) 0) ∧
        (v.aux = 1 → (rdByte k.store (v.c * 32 + 160)).getLsbD 0 = false → (rdByte k.store (v.c * 32 + 160)).getLsbD 1 = false →
          ∀ h, h < 16 →
            let r (y : Val) : W40 := (toW40 sat y).1
            (t.core c).w40 (v.d * 32 + 5 * h) = r ((ofW40 (r (a 1 h))).mul (ofW40 (r (a 0 h)))) ∧
            (t.core c).w40 (v.d * 32 + 80 + 5 * h) =
              r (((ofW40 (r (a 1 h))).mul (ofW40 (r (b 0 h)))).add (ofW40 (r (b 1 h))))) ∧
        (∀ x, x < v.d * 32 ∨ v.d * 32 + 160 + (if bit v.aux 4 then 80 else 160) * l ≤ x →
          rdByte (t.core c).store x = rdByte k.store x) ∧
        (t.core c).wells = k.wells ∧ OnlyCore s t c)

/-- ARRAY in every class of formats (R88, R89, R92, R93): every element of the pass's columns of the destination well is the
exact sum of products onto the old value, or onto 0, rounded once, scales taken as logs 111 and 112 say; no other element of
a well changes; SWAP makes the shadow tile the active one. LOAD_STAT (R93, R95): the shadow tile takes the rows at the
word's stride, in the 16-bit class the 8 by 8 quarter that the word names; the active tile and the store stay. -/
def Obligations.ArrayAndTiles : Prop :=
  (∀ (s : State) (c : Fin 10240) (q : QWord) (w : W64) (rest : List QWord),
     q.w = .bits w → Starts s c 1 q rest →
     let k := s.core c
     let act := if wf w 51 51 = 1 then k.shadow else k.active
     let dst := wf w 59 55
     let cols := if class16 (wf w 46 43) then 8 else 16
     let first := if class16 (wf w 46 43) then 8 * wf w 52 52 else 0
     let scale (m : Nat) : Val :=
       if wf w 42 42 = 1 then mxElem (wf w 50 47) (rdByte k.store (wf w 21 10 * 32 + m)).toNat else .fin false 1 0
     ∃ t : State, exec (.array c) s = .next (t.pump c) ∧ (PumpsIdle s c → t.pump c = t) ∧
       (t.core c).active = act ∧ (t.core c).shadow = k.shadow ∧
       (∀ m o, m < 16 → o < cols → (t.core c).well dst m (first + o) =
         (toW40 (s.coreFld F.CORE_CFG.W40_SAT c = 1)
           (dot (if wf w 54 54 = 1 then ofW40 (k.well dst m (first + o)) else .fin false 0 0)
             ((movingRow k.store (movingAt w q m) (wf w 50 47)).map (fun v => v.mul (scale m)))
             (statRow act (wf w 53 53 = 1) (wf w 46 43) o))).1) ∧
       (∀ x r o, x ≠ dst ∨ o < first ∨ first + cols ≤ o → r < 16 → o < 16 → (t.core c).well x r o = k.well x r o) ∧
       (t.core c).store = k.store ∧ OnlyCore s t c) ∧
  (∀ (s : State) (c : Fin 10240) (q : QWord) (w : W64) (rest : List QWord),
     q.w = .bits w → Starts s c 2 q rest →
     let k := s.core c
     let at_ := wf w 59 48 * 32
     let st := wf w 47 40 * 16
     ∃ t : State, exec (.loadStat c) s = .next (t.pump c) ∧ (PumpsIdle s c → t.pump c = t) ∧
       (t.core c).shadow.fmt = wf w 39 36 ∧ (t.core c).shadow.mx = decide (wf w 35 35 = 1) ∧
       (wf w 35 35 = 1 → (t.core c).shadow.scales = rdBytes k.store (wf w 32 21 * 32) 16) ∧
       (class16 (wf w 39 36) = false → ∀ i j, i < 16 → j < 16 → look 0 (t.core c).shadow.cells (i * 16 + j) =
         (rdByte k.store (at_ + i * st + j)).setWidth 16) ∧
       (class16 (wf w 39 36) = true → ∀ i j, i < 8 → j < 8 → look 0 (t.core c).shadow.cells (i * 16 + j) =
         BitVec.ofNat 16 (leNat (rdBytes k.store
           (at_ + (8 * (wf w 34 33 / 2) + i) * st + 2 * (8 * (wf w 34 33 % 2) + j)) 2))) ∧
       (t.core c).active = k.active ∧ (t.core c).store = k.store ∧ (t.core c).wells = k.wells ∧ OnlyCore s t c)

/-- DRAIN (R108, R109, R112, R133) leaves the wells. Without scale and stochastic rounding, to a format of whole bytes, with a
stride that keeps its rows apart: every element, past its bias and its function, is rounded once to nearest even; with the
identity and no bias that is the well's own value. SAVE40 and RESTORE40 (R102): of the j-th well of the mask, ascending,
element (r, c) lies at byte (r * 16 + c) * 5 of the j-th image of 1,280 bytes; the one leaves the wells, the other the store and
every well outside the mask. -/
def Obligations.DrainAndWellImages : Prop :=
  (∀ (s : State) (c : Fin 10240) (q : QWord) (w : W64) (rest : List QWord),
     q.w = .bits w → Starts s c 3 q rest →
     let k := s.core c
     let compat : Bool := s.coreFld F.CORE_CFG.ELT_COMPAT c = 1
     let src := wf w 59 55
     let f := outFmt (wf w 54 51)
     let v (r o : Nat) : Val := drainVal k compat w src r o
     ∃ t : State, exec (.drain c) s = .next (t.pump c) ∧ (PumpsIdle s c → t.pump c = t) ∧
       (wf w 49 48 = 0 → wf w 50 50 = 0 → wf w 54 51 < 4 → 2 * f.width ≤ wf w 29 22 * 16 → ∀ r o, r < 16 → o < 16 →
         leNat (rdBytes (t.core c).store (wf w 41 30 * 32 + r * (wf w 29 22 * 16) + f.width / 8 * o) (f.width / 8)) =
           (drainEncode f (keepsNan w compat) .rne (s.coreFld F.CORE_CFG.NARROW_SAT c = 1) (65 * o) (v r o)).1 % 2 ^ f.width) ∧
       (wf w 47 44 = 0xF → wf w 43 42 = 0 → ∀ r o, v r o = ofW40 (k.well src r o)) ∧
       (t.core c).wells = k.wells ∧ OnlyCore s t c) ∧
  (∀ (s : State) (c : Fin 10240) (q : QWord) (m : BitVec 24) (a : Nat) (rest : List QWord),
     let k := s.core c
     let image (j r o : Nat) : Nat := a * 32 + 1280 * j + (r * 16 + o) * 5
     (q.w = .save40 m a → Starts s c 6 q rest →
       ∃ t : State, exec (.save40 c) s = .next (t.pump c) ∧ (PumpsIdle s c → t.pump c = t) ∧
         (∀ j x r o, (wellsOf m.toNat)[j]? = some x → r < 16 → o < 16 → (t.core c).w40 (image j r o) = k.well x r o) ∧
         (∀ y, y < a * 32 ∨ a * 32 + 1280 * (wellsOf m.toNat).length ≤ y → rdByte (t.core c).store y = rdByte k.store y) ∧
         (t.core c).wells = k.wells ∧ OnlyCore s t c) ∧
     (q.w = .restore40 m a → Starts s c 7 q rest →
       ∃ t : State, exec (.restore40 c) s = .next (t.pump c) ∧ (PumpsIdle s c → t.pump c = t) ∧
         (∀ j x r o, (wellsOf m.toNat)[j]? = some x → r < 16 → o < 16 → (t.core c).well x r o = k.w40 (image j r o)) ∧
         (∀ y r o, m.getLsbD y = false → r < 16 → o < 16 → (t.core c).well y r o = k.well y r o) ∧
         (t.core c).store = k.store ∧ OnlyCore s t c))

/-- WAIT, YIELD and END words and the end of a wait (R104, R236, R261, R274, R425): a met wait lets the core go on, an unmet
one makes it wait; YIELD without yield-pending is a mark without effect; under yield-pending a YIELD saves the wells of its
mask and its store range, and an unmet WAIT every well written and the whole store; END ends the core's share. -/
def Obligations.SequencerWords : Prop :=
  ∀ (s : State) (c : Fin 10240) (q : QWord) (w : W64) (rest : List QWord),
    q.w = .bits w →
    let x : Waiting := { counter := wf w 59 59 = 1, index := q.at_, target := wf w 46 23, since := s.tm.now }
    (Starts s c 8 q rest → s.waitMet x = true →
      ∃ t : State, exec (.wait c) s = .next (t.pump c) ∧ (PumpsIdle s c → t.pump c = t) ∧ (t.core c).waiting = none ∧
        (t.core c).store = (s.core c).store ∧ (t.core c).wells = (s.core c).wells ∧ OnlyCore s t c) ∧
    (Starts s c 8 q rest → s.waitMet x = false → s.yieldPending c = false →
      ∃ t : State, exec (.wait c) s = .next (t.pump c) ∧ (PumpsIdle s c → t.pump c = t) ∧ (t.core c).waiting = some x ∧
        (t.core c).saving = none ∧ (t.core c).store = (s.core c).store ∧ (t.core c).wells = (s.core c).wells ∧ OnlyCore s t c) ∧
    (Starts s c 8 q rest → s.waitMet x = false → s.yieldPending c = true →
      ∃ t r, exec (.wait c) s = .next t ∧ (t.core c).waiting = some x ∧ (t.core c).saving = some r ∧ r.point = 1 ∧
        r.mask = (s.core c).liveMask ∧ r.csAddr = 0 ∧ r.csLen = 3072 ∧
        r.wells = (s.core c).wells.filter (fun e => bit r.mask (e.1 / 256)) ∧ OnlyCore s t c) ∧
    (Starts s c 14 q rest → s.yieldPending c = false →
      ∃ t : State, exec (.yieldMark c) s = .next (t.pump c) ∧ (PumpsIdle s c → t.pump c = t) ∧ (t.core c).saving = none ∧
        (t.core c).wells = (s.core c).wells ∧ (t.core c).store = (s.core c).store ∧ OnlyCore s t c) ∧
    (Starts s c 14 q rest → s.yieldPending c = true →
      ∃ t r, exec (.yieldMark c) s = .next t ∧ (t.core c).saving = some r ∧ r.point = 0 ∧ r.mask = wf w 59 36 ∧
        r.csAddr = wf w 35 24 ∧ r.csLen = wf w 23 12 ∧
        r.wells = (s.core c).wells.filter (fun e => bit r.mask (e.1 / 256)) ∧
        r.bytes = (s.core c).store.filter
          (fun e => decide (wf w 35 24 * 32 ≤ e.1) && decide (e.1 < (wf w 35 24 + wf w 23 12) * 32)) ∧ OnlyCore s t c) ∧
    (Starts s c 15 q rest →
      ∃ t : State, exec (.endWord c) s = .next (t.pump c) ∧ (PumpsIdle s c → t.pump c = t) ∧ (t.core c).ended = true ∧
        (t.core c).wells = (s.core c).wells ∧ (t.core c).store = (s.core c).store ∧ OnlyCore s t c) ∧
    ((s.core c).waiting = some x → s.waitMet x = true → (s.core c).saving = none → s.runs (c / 40) = true →
      ∃ t : State, exec (.waitWake c) s = .next (t.pump c) ∧ (PumpsIdle s c → t.pump c = t) ∧ (t.core c).waiting = none ∧ t.rg = s.rg ∧
        (t.core c).store = (s.core c).store ∧ (t.core c).wells = (s.core c).wells ∧ OnlyCore s t c)

/-- MOVE READ and MOVE WRITE (R122, R146, R233, R287): N units of 64 bytes are copied from, or to, the store of a ring
neighbour or of the cluster; a write to a neighbour sets the arrival tag where the word asks for it; a write with ADVANCE, of a
core on whose item the pumps owe nothing, sends its advance for the gauge; one whose item's outputs are still owed first has
the rows that the advance covers stored. -/
def Obligations.NeighbourMoves : Prop :=
  ∀ (s : State) (c : Fin 10240) (q : QWord) (w : W64) (rest : List QWord),
    q.w = .bits w → Starts s c 5 q rest → wf w 57 56 ≤ 2 →
    let nb := neighbour c (wf w 57 56)
    let loc := wf w 55 44 * 32
    let rem := if wf w 57 56 = 2 then wf w 43 28 * 32 else wf w 39 28 * 32
    let n := 64 * wf w 27 16
    let cl := c.val / 40
    let far (u : State) : Mem := if wf w 57 56 = 2 then (u.cluster cl).store else (u.core nb).store
    (wf w 59 58 = 0 → ∃ t : State, exec (.moveRead c) s = .next (t.pump c) ∧ (PumpsIdle s c → t.pump c = t) ∧
      (∀ i, i < n → rdByte (t.core c).store (loc + i) = rdByte (far s) (rem + i)) ∧
      (∀ y, y < loc ∨ loc + n ≤ y → rdByte (t.core c).store y = rdByte (s.core c).store y) ∧
      (t.core c).wells = (s.core c).wells ∧ OnlyCore s t c) ∧
    (wf w 59 58 = 1 → wf w 10 10 = 1 → ∃ t : State, exec (.moveWrite c) s = .next (t.pump c)) ∧
    (wf w 59 58 = 1 → wf w 10 10 = 0 ∨ PumpsIdle s c →
      ∃ t : State, exec (.moveWrite c) s = .next (t.pump c) ∧ (PumpsIdle s c → t.pump c = t) ∧
        (∀ i, i < n → rdByte (far t) (rem + i) = rdByte (s.core c).store (loc + i)) ∧
        (∀ y, y < rem ∨ rem + n ≤ y → rdByte (far t) y = rdByte (far s) y) ∧
        (t.core c).store = (s.core c).store ∧ (t.core c).wells = (s.core c).wells ∧
        (∀ k, k ≠ c.val → k ≠ nb ∨ wf w 57 56 = 2 → t.core k = s.core k) ∧
        (wf w 57 56 < 2 → t.tl.clusters = s.tl.clusters ∧ t.core nb = { s.core nb with
          store := (t.core nb).store
          tags := if wf w 11 11 = 1 then Nat.lor (s.core nb).tags (2 ^ wf w 15 12) else (s.core nb).tags }) ∧
        (wf w 57 56 = 2 → (∀ d, d ≠ cl → t.cluster d = s.cluster d) ∧
          t.cluster cl = { s.cluster cl with store := (t.cluster cl).store }) ∧
        (wf w 10 10 = 0 → t.tl.traffic = s.tl.traffic) ∧
        (∀ p, wf w 10 10 = 1 → (s.core c).place = some p → t.tl.traffic = s.tl.traffic ++
          [{ q := p.q, seq := p.seq, cl := cl, counter := p.counter, job := p.job
             item := p.item.getD 0 % ((s.counter p.counter).items + 1), gen := p.gen, gauge := some (q.at_, q.gval) }]) ∧
        t = { s with
          rg := { s.rg with cnts := t.rg.cnts, slots := t.rg.slots }
          tl := { s.tl with cores := t.tl.cores, clusters := t.tl.clusters, traffic := t.tl.traffic } })

/-- MOVE ATOMIC (R272, R293): the element of the shared tensor takes its new value, the old value goes to LOCAL, and no other
byte of the shared cache changes; of a core on a fenced item it is discarded, counted and logged grey. -/
def Obligations.Atomics : Prop :=
  ∀ (s : State) (c : Fin 10240) (aop : Fin 9) (q : QWord) (w : W64) (rest : List QWord),
    q.w = .bits w → Starts s c 5 q rest → wf w 59 58 = 2 → wf w 19 16 = aop.val →
    let n := atomicSize aop
    let a := q.at_ + n * wf w 43 28
    let loc := wf w 55 44 * 32
    let old := leNat (rdBytes s.mm.shared a n)
    (s.coreFenced c = false →
      ∃ t : State, exec (atomicCommand aop c) s = .next (t.pump c) ∧ (PumpsIdle s c → t.pump c = t) ∧
        leNat (rdBytes t.mm.shared a n) =
          atomicVal aop old (leNat (rdBytes (s.core c).store loc n)) (leNat (rdBytes (s.core c).store (loc + n) n)) % 2 ^ (8 * n) ∧
        (∀ y, y < a ∨ a + n ≤ y → rdByte t.mm.shared y = rdByte s.mm.shared y) ∧
        leNat (rdBytes (t.core c).store loc n) = old ∧
        (∀ y, y < loc ∨ loc + n ≤ y → rdByte (t.core c).store y = rdByte (s.core c).store y) ∧
        (t.core c).wells = (s.core c).wells ∧ (∀ k, k ≠ c.val → t.core k = s.core k) ∧
        t = { s with
          rg := { s.rg with cnts := t.rg.cnts, slots := t.rg.slots }
          tl := { s.tl with cores := t.tl.cores }, mm := { s.mm with shared := t.mm.shared } }) ∧
    (s.coreFenced c = true →
      ∃ t : State, exec (atomicCommand aop c) s = .next (t.pump c) ∧ t.mm = s.mm ∧ (t.core c).store = (s.core c).store ∧
        t.cnt C.PDIE_CNT_FENCED (sliceOf a) = (s.cnt C.PDIE_CNT_FENCED (sliceOf a) + 1) % 2 ^ 64 ∧
        Raised s t 0x2003 0 (sliceOf a) ∧ t.fld F.SEQ_STATUS.FENCED (c / 40) = 1 ∧ ∀ k, k ≠ c.val → t.core k = s.core k)

/-- WR and WB of device memory (R348, R349, R352, R353): the bytes are written, every other byte stays, the lines
leave the host's hold, and the answer is OK; a MASKED write keeps the bytes whose mask bit is clear. -/
def Obligations.HostWrites : Prop :=
  ∀ (s : State) (p : Pkt), Serving s p → p.win = 0 → s.windowReaches p.addr = true →
    (sized p → p.masked = false →
      ∃ t, exec (.wr p) s = .next t ∧ t.devRead p.addr p.len = pktPayload p ∧
        (∀ a, a < p.addr ∨ p.addr + p.len ≤ a → rdByte t.mm.dev a = rdByte s.mm.dev a) ∧
        (∀ u ∈ units64 p.addr p.len, t.held? u = none) ∧ .cmp p.port p.tag 0 ∈ t.hl.out ∧ t.rg.fields = s.rg.fields) ∧
    (p.len = 64 → p.addr % 64 = 0 → p.masked = true →
      ∃ t, exec (.wr p) s = .next t ∧
        (∀ i, i < 64 → rdByte t.mm.dev (p.addr + i) =
          if bit p.mask i then (pktPayload p).getD i 0 else rdByte s.mm.dev (p.addr + i)) ∧
        (∀ a, a < p.addr ∨ p.addr + 64 ≤ a → rdByte t.mm.dev a = rdByte s.mm.dev a) ∧
        .cmp p.port p.tag 0 ∈ t.hl.out ∧ t.rg.fields = s.rg.fields) ∧
    (p.len = 64 → p.addr % 64 = 0 → (s.held? (p.addr / 64)).isSome = true →
      ∃ t, exec (.wb p) s = .next t ∧ t.devRead p.addr 64 = pktPayload p ∧
        (∀ a, a < p.addr ∨ p.addr + 64 ≤ a → rdByte t.mm.dev a = rdByte s.mm.dev a) ∧
        t.held? (p.addr / 64) = none ∧ .cmp p.port p.tag 0 ∈ t.hl.out ∧ t.rg.fields = s.rg.fields) ∧
    (p.addr % 64 = 0 → ∃ t, exec (.evict p) s = .next t ∧ t.held? (p.addr / 64) = none ∧ t.mm = s.mm ∧
      t.rg.fields = s.rg.fields)

/-- RD_NC, RD_S and RD_M of device memory of which no line waits for a recall (R348, R349, R352): the data are
answered as they stand; the host then holds the line clean, or modified; no byte changes. An access of device memory
that is not aligned as R349 asks completes with UR and has no effect on memory. -/
def Obligations.HostReads : Prop :=
  (∀ (s : State) (p : Pkt), Serving s p → p.win = 0 → s.windowReaches p.addr = true →
     (units64 p.addr p.len).filter s.lineBusy = [] →
     let st := if s.poisoned p.addr p.len then 3 else 0
     let ans := Out.cmpD p.port p.tag st (s.hostView p.addr p.len)
     (sized p → ∃ t, exec (.rdNc p) s = .next t ∧ ans ∈ t.hl.out ∧ t.mm = s.mm ∧ t.hl.filter = s.hl.filter ∧
       t.rg.fields = s.rg.fields) ∧
     (p.len = 64 → p.addr % 64 = 0 → s.filterFull (p.addr / 64) = none →
       (∃ t, exec (.rdS p) s = .next t ∧ ans ∈ t.hl.out ∧ t.mm = s.mm ∧
         t.held? (p.addr / 64) = some { line := p.addr / 64, modified := false } ∧ t.rg.fields = s.rg.fields) ∧
       (∃ t, exec (.rdM p) s = .next t ∧ ans ∈ t.hl.out ∧ t.mm = s.mm ∧
         t.held? (p.addr / 64) = some { line := p.addr / 64, modified := true } ∧ t.rg.fields = s.rg.fields))) ∧
  (∀ (s : State) (p : Pkt), Serving s p → p.win = 0 → p.len = 64 → p.addr % 64 ≠ 0 →
     (∃ t, exec (.wr p) s = .next t ∧ .cmp p.port p.tag 1 ∈ t.hl.out ∧ t.mm = s.mm) ∧
     (∃ t, exec (.wb p) s = .next t ∧ .cmp p.port p.tag 1 ∈ t.hl.out ∧ t.mm = s.mm) ∧
     (∃ t, exec (.rdNc p) s = .next t ∧ .cmpD p.port p.tag 1 [] ∈ t.hl.out ∧ t.mm = s.mm) ∧
     (∃ t, exec (.rdS p) s = .next t ∧ .cmpD p.port p.tag 1 [] ∈ t.hl.out ∧ t.mm = s.mm ∧ t.hl.filter = s.hl.filter) ∧
     (∃ t, exec (.rdM p) s = .next t ∧ .cmpD p.port p.tag 1 [] ∈ t.hl.out ∧ t.mm = s.mm ∧ t.hl.filter = s.hl.filter))

/-- DB and PUSH (R358, R359, R382): a doorbell of one more slot takes the new tail and asks host memory for the slot's
record; one that does not cover bytes 0 to 3, or names a queue that is not enabled, is discarded, counted and logged
grey; a pushed record enters the ring cache. -/
def Obligations.DoorbellPush : Prop :=
  ∀ (s : State) (p : Pkt), Serving s p →
    let n := p.addr / 16
    let q := s.queue n
    (p.addr % 16 = 0 → 4 ≤ p.len → p.masked = false → q.enabled = true → n < 4096 → q.asked = q.tail →
      field p.data 0 4 = seqAfter q.tail 1 → seqAhead (seqAfter q.tail 1) q.oldest ≤ q.size →
      seqAhead q.tail q.oldest < seqAhead (seqAfter q.tail 1) q.oldest →
      (∀ e ∈ s.hl.ringCache, e.q ≠ n) →
      ∃ t, exec (.db p) s = .next t ∧ (t.queue n).tail = seqAfter q.tail 1 ∧ (t.queue n).asked = seqAfter q.tail 1 ∧
        .hrd s.hl.nextTag (q.sq + 64 * q.slotOf q.tail) ∈ t.hl.out ∧
        t.hl.hrd = s.hl.hrd ++ [{ tag := s.hl.nextTag, addr := q.sq + 64 * q.slotOf q.tail, what := .record n q.tail }] ∧
        t.mm = s.mm) ∧
    (p.addr % 16 ≠ 0 ∨ p.len < 4 ∨ q.enabled = false →
      ∃ t, exec (.db p) s = .next t ∧ t.cnt C.HL_CNT_DB_DROPPED = (s.cnt C.HL_CNT_DB_DROPPED + 1) % 2 ^ 64 ∧
        (∃ e ∈ t.er.collector, e.code = 0x3101 ∧ e.sev = 0) ∧ t.cq = s.cq ∧ t.mm = s.mm) ∧
    (s.fld F.HL_CFG.PUSH_EN = 1 →
      ∃ t, exec (.push p) s = .next t ∧ { q := p.aux, slot := p.addr, rec_ := p.data } ∈ t.hl.ringCache ∧
        (s.hl.ringCache.length ≤ 8192 → t.hl.ringCache.length ≤ 8192) ∧ t.cq = s.cq ∧ t.mm = s.mm)

/-- CMP and CMP_D answer the device's own requests (R31, R351): the acknowledged journal entry is marked on its
command, the record read is put in hand, and the request is no longer outstanding. Answers of a cistern module (R366,
R378): the identity is kept and gives the capacity; a trim answered OK ends the operation with result 0. -/
def Obligations.AnswersToTheDevice : Prop :=
  (∀ (s : State) (p : Pkt), Serving s p →
     (∀ h q n c, s.hl.hwr.find? (fun h => h.tag == p.tag) = some h → h.what = .journal q n →
       (s.hl.hwr.erase h).any (fun g => g.what == h.what) = false → s.cmd? q n = some c →
       ∃ t, exec (.cmp p) s = .next t ∧ t.hl.hwr = s.hl.hwr.erase h ∧ t.cmd? q n = some { c with journalled := true } ∧
         t.mm = s.mm ∧ t.rg.fields = s.rg.fields) ∧
     (∀ h n seq, s.hl.hrd.find? (fun h => h.tag == p.tag) = some h → h.what = .record n seq → (s.queue n).enabled = true →
       seqAhead seq (s.queue n).next < seqAhead (s.queue n).asked (s.queue n).next →
       ∃ t, exec (.cmpD p) s = .next t ∧ t.hl.hrd = s.hl.hrd.erase h ∧
         (t.queue n).inHand = (s.queue n).inHand ++ [(seq, (p.data ++ List.replicate 64 0).take 64)] ∧
         t.mm = s.mm ∧ t.rg.fields = s.rg.fields)) ∧
  (∀ (s : State) (m : Fin 16) (tag : Nat) (r : CisReq),
     s.fld F.OP_STATUS.UP (m + 8) = 1 → s.stopState = 0 →
     (s.module m).reqs.find? (fun r => r.tag = tag) = some r → (s.module m).clearing = false →
     (∀ data : List Byte, data ≠ [] → r.what = .ident → (s.module m).label = [] →
       ∃ t, exec (.cData m tag 0 data) s = .next t ∧ (t.module m).ident = data ∧
         (t.module m).reqs = (s.module m).reqs.erase r ∧ (t.module m).st = (s.module m).st ∧
         t.cnt C.CIS_CAPACITY m = field data 8 8 % 2 ^ 64 ∧ t.mm = s.mm) ∧
     (r.what = .trim → ∃ t, exec (.cCmp m tag 0) s = .next t ∧ t.fld F.CIS_OP_STATUS.BUSY m = 0 ∧
       t.fld F.CIS_OP_STATUS.RESULT m = 0 ∧ t.fld F.CIS_INT_STATUS.OP_DONE m = 1 ∧
       (t.module m).reqs = (s.module m).reqs.erase r ∧ t.mm = s.mm))

/-- Answers to a RECALL for which nothing waits, and its time-out (R353, R354, R356): the host then holds the line
invalid; returned data are written; with no answer within 1 ms the line is poisoned and a red error raised. A packet
that waits for its remainder past HL_STALL_WATCH (R362): the wait goes on; STALL is set, the stall counted and logged
grey. -/
def Obligations.RecallsAndStalls : Prop :=
  (∀ (s : State) (p : Pkt) (r : Recall), r.waits = [] →
     (Serving s p → s.hl.recalls.find? (fun r => r.tag == p.tag) = some r →
       (∃ t, exec (.rclAck p) s = .next t ∧ t.hl.recalls = s.hl.recalls.erase r ∧ t.held? r.line = none ∧ t.mm = s.mm) ∧
       (∃ t, exec (.rclData p) s = .next t ∧ t.hl.recalls = s.hl.recalls.erase r ∧ t.held? r.line = none ∧
         t.devRead (r.line * 64) 64 = (p.data ++ List.replicate 64 0).take 64 ∧
         (∀ a, a < r.line * 64 ∨ r.line * 64 + 64 ≤ a → rdByte t.mm.dev a = rdByte s.mm.dev a))) ∧
     (∀ line : BitVec 40, s.hl.recalls.find? (fun r => r.line == line.toNat) = some r → s.stopState = 0 →
       r.at_ + 1000000 ≤ s.tm.now →
       ∃ t, exec (.recallTimeout line) s = .next t ∧ t.hl.recalls = s.hl.recalls.erase r ∧ t.held? line.toNat = none ∧
         t.poisoned (line.toNat * 64) 64 = true ∧ (∃ e ∈ t.er.collector, e.code = 0x3103 ∧ e.sev = 2) ∧
         t.mm.dev = s.mm.dev)) ∧
  (∀ (s : State) (p : Fin 8) (e : Nat), (s.port p).partialSince = some e → (s.port p).stalled = false → s.stopState = 0 →
     e + Nat.max 1 (s.fld F.HL_STALL_WATCH.MS) * 1000000 < s.tm.now →
     ∃ t, exec (.stallWatch p) s = .next t ∧ (t.port p).stalled = true ∧ (t.port p).partialIn = (s.port p).partialIn ∧
       t.fld F.HL_INT_STATUS.STALL = 1 ∧ t.cnt C.HL_CNT_STALLS = (s.cnt C.HL_CNT_STALLS + 1) % 2 ^ 64 ∧
       ∃ e ∈ t.er.collector, e.code = 0x3102 ∧ e.sev = 0)

/-- Lanes in use on an enabled port (R337, R343): DARK to DIM with light; DIM to LIT after 1 ms; failed after 50 ms
without lock; out of LIT to DIM, or failed on the third move within 1 s; dark without light; into and out of the flit
rotation by LANE_ADD and LANE_DROP. -/
def Obligations.LaneStates : Prop :=
  ∀ (s : State) (p : Fin 24) (rx : Bool) (w : Fin 8),
    let l := s.lane p rx w
    (s.laneUsed p w = true → s.fld F.OP_CFG.ENABLE p = 1 → l.st = .dark →
      ∃ t, exec (.laneTrain p rx w true) s = .next t ∧ (t.lane p rx w).st = .dim ∧ (t.lane p rx w).since = s.tm.now ∧
        t.rg = s.rg) ∧
    (∀ rtt, s.laneUsed p w = true → s.fld F.OP_STATUS.UP p = 1 → l.st = .dim → l.since + 1000000 ≤ s.tm.now →
      ∃ t, exec (.laneLock p rx w rtt) s = .next t ∧ (t.lane p rx w).st = .lit ∧ (t.lane p rx w).rot = true ∧
        t.fld F.OP_INT_STATUS.LANE_UP p = 1) ∧
    (l.st = .dim → l.since + 50000000 ≤ s.tm.now →
      ∃ t, exec (.lockTimeout p rx w) s = .next t ∧ (t.lane p rx w).st = .failed ∧
        (∃ e ∈ t.er.collector, e.code = 0x3001 ∧ e.inst = p.val) ∧ t.rg = s.rg) ∧
    (l.st = .lit →
      ∃ t, exec (.laneDown p rx w) s = .next t ∧ (t.lane p rx w).rot = false ∧
        (t.lane p rx w).st = (if (l.moves.filter (fun x => decide (s.tm.now < x + 1000000000))).length < 2
          then .dim else .failed) ∧ t.fld F.OP_INT_STATUS.LANE_DOWN p = 1) ∧
    (l.st ≠ .failed → ∃ t, exec (.lightLost p rx w) s = .next t ∧ (t.lane p rx w).st = .dark ∧
      (t.lane p rx w).light = false ∧ (t.lane p rx w).rot = false) ∧
    (∀ cwseq, l.st = .lit → ∃ t, exec (.laneAdd p rx w cwseq) s = .next t ∧ (t.lane p rx w).rot = true ∧ t.rg = s.rg) ∧
    (∃ t, exec (.laneDrop p rx w) s = .next t ∧ (t.lane p rx w).rot = false ∧ (t.lane p rx w).st = l.st ∧ t.rg = s.rg)

/-- Calibration slots (R339 to R341): a slot begins at its time and holds the port's sending; it ends after 39
codewords; it is announced at least 16 codewords ahead. -/
def Obligations.CalibrationSlots : Prop :=
  ∀ (s : State) (p : Fin 24),
    (s.powered = true → s.fld F.OP_CFG.ENABLE p = 1 → (s.port p).slotUntil = none → 52 ≤ s.tm.now →
      slotTime p (s.tm.now - 52) ≤ s.tm.now →
      ∃ t, exec (.calibrationSlot p) s = .next t ∧ t.fld F.OP_STATUS.IN_SLOT p = 1 ∧ t.portSends p = false ∧
        (t.port p).slotUntil = some (s.tm.now + 1996)) ∧
    (∀ e, (s.port p).slotUntil = some e → e < s.tm.now →
      ∃ t, exec (.slotEnd p) s = .next t ∧ t.fld F.OP_STATUS.IN_SLOT p = 0 ∧ (t.port p).slotUntil = none ∧
        t.cnt C.OP_CNT_SLOTS p = (s.cnt C.OP_CNT_SLOTS p + 1) % 2 ^ 64) ∧
    (s.fld F.OP_STATUS.UP p = 1 → (s.port p).announced = none → (s.port p).slotUntil = none →
      s.tm.now + 820 ≤ slotTime p s.tm.now →
      ∃ t, exec (.slotAnnounce p) s = .next t ∧ (t.port p).announced = some (slotTime p s.tm.now) ∧
        (∃ x, .ctrl p.val 0x02 x ∈ t.hl.out) ∧ t.rg.fields = s.rg.fields)

/-- The flit layer of a port where nothing waits to be sent (R344 to R347): ACK ends the keeping of the flits it
covers, NAK replays those it does not, CREDIT adds slots; a flit whose codeword did not decode is discarded, counted
and answered by a NAK that names the last SEQ released; an in-order control flit is acknowledged. -/
def Obligations.FlitLayer : Prop :=
  ∀ (s : State) (p : Fin 24), (s.port p).heldTx = [] →
    (∀ a, ∃ t, exec (.ack p a) s = .next t ∧ (t.port p).retry = flitsAfter a.toNat (s.port p).retry ∧
      t.hl.out = s.hl.out ∧ t.rg.fields = s.rg.fields) ∧
    (∀ a, ∃ t, exec (.nak p a) s = .next t ∧ (t.port p).retry = flitsAfter a.toNat (s.port p).retry ∧
      (∀ f ∈ flitsAfter a.toNat (s.port p).retry, .replay p.val f.seq ∈ t.hl.out) ∧
      t.cnt C.OP_CNT_REPLAY p = (s.cnt C.OP_CNT_REPLAY p + (flitsAfter a.toNat (s.port p).retry).length) % 2 ^ 64) ∧
    (∀ (k : Fin 3) n,
      ∃ t, exec (.credit p k n) s = .next t ∧
        (t.port p).credits = (s.port p).credits.set k ((s.port p).credits.getD k 0 + n) ∧ t.hl.out = s.hl.out ∧ t.rg.fields = s.rg.fields) ∧
    (∀ b, s.fld F.OP_STATUS.UP p = 1 → b.length = 128 → (s.port p).nakSent = false →
      ∃ t, exec (.flit p b false) s = .next t ∧ .ackFlit p.val (((s.port p).rxNext + 4095) % 4096) true ∈ t.hl.out ∧
        (t.port p).rxNext = (s.port p).rxNext ∧ t.cnt C.OP_CNT_CRC p = (s.cnt C.OP_CNT_CRC p + 1) % 2 ^ 64 ∧
        t.rg.fields = s.rg.fields) ∧
    (∀ b, s.fld F.OP_STATUS.UP p = 1 → b.length = 128 → (crc32 (b.take 124)).toNat = field b 124 4 →
      field b 0 4 = (s.port p).rxNext + 2 * 2 ^ 12 → (s.port p).rxNext < 4096 →
      (∀ i, i < 15 → field b (4 + 8 * i) 8 = 0) →
      ∃ t, exec (.flit p b true) s = .next t ∧ .ackFlit p.val (s.port p).rxNext false ∈ t.hl.out ∧
        (t.port p).rxNext = ((s.port p).rxNext + 1) % 4096 ∧ t.rg.fields = s.rg.fields)

/-- Failure of a KCL port and the hand-over (R361), outside minimal mode: the port is down and failed and the
hand-over of its slots begins on a live port; at HANDOVER the kept flits leave for replay and HANDOVER_DONE is sent;
at HANDOVER_DONE the slots are mapped to the next live port; REJOIN begins the same sequence for a port that is up
again. RESET_LANES (R337), the failure of a cistern port (R367) whose module is not READY, the loss of laser module 0, and of one of
the cistern ports' (R20, R336) and the loss of the link (table "Error codes"). -/
def Obligations.PortsAndLight : Prop :=
  (∀ (s : State) (p : Fin 8) (q : Nat),
     (s.fld F.OP_STATUS.UP p = 1 → s.tm.power ≠ .minimal → (∃ q < 8, q ≠ p.val ∧ s.fld F.OP_STATUS.UP q = 1) →
       ∃ t, exec (.portFailed p) s = .next t ∧ t.fld F.OP_STATUS.UP p = 0 ∧ t.fld F.OP_STATUS.FAILED p = 1 ∧
         t.fld F.HL_STATUS.HANDOVER = 1 ∧ (t.port p).handing = true ∧ t.fld F.HL_INT_STATUS.PORT_LOST = 1 ∧
         ∃ e ∈ t.er.collector, e.code = 0x3003 ∧ e.inst = p.val) ∧
     (∀ a, (s.port p).handing = true → s.fld F.OP_STATUS.UP p = 0 → s.nextLive p = some q →
       ∃ t, exec (.handover p a) s = .next t ∧ (t.port p).retry = [] ∧ .ctrl q 0x06 p.val ∈ t.hl.out ∧
         t.rg.fields = s.rg.fields) ∧
     ((s.port p).handing = true → s.fld F.OP_STATUS.UP p = 0 → s.nextLive p = some q →
       ∃ t, exec (.handoverDone p) s = .next t ∧ (t.port p).handing = false ∧
         (∀ i, i < 8 → t.physPort i = if s.physPort i = p.val then q else s.physPort i) ∧
         t.fld F.HL_INT_STATUS.HANDOVER_DONE = 1 ∧
         t.cnt C.HL_CNT_HANDOVERS = (s.cnt C.HL_CNT_HANDOVERS + 1) % 2 ^ 64) ∧
     (∀ r, Writable s 0x30 p r → s.fld F.OP_STATUS.UP p = 1 → (s.port p).handing = false → s.tm.power ≠ .minimal →
       s.physPort p ≠ p.val →
       ∃ t, exec (.rejoin r (p.castLE (by decide))) s = .next t ∧ t.fld F.HL_STATUS.HANDOVER = 1 ∧ (t.port p).handing = true)) ∧
  (∀ (s : State),
     (∀ (r : Requester) (p : Fin 24), Writable s 0x30 p r →
       ∃ t, exec (.resetLanes r p) s = .next t ∧ ∀ rx w, w < 8 →
         (t.lane p rx w).st = (if (s.lane p rx w).st = .failed then .dark else (s.lane p rx w).st)) ∧
     (∀ p : Fin 24, 8 ≤ p.val → s.fld F.OP_STATUS.UP p = 1 → (s.module (p - 8)).st ≠ 4 →
       ∃ t, exec (.cisternPortFailed p) s = .next t ∧ t.fld F.OP_STATUS.UP p = 0 ∧ t.fld F.OP_STATUS.FAILED p = 1 ∧
         t.module (p - 8) = s.module (p - 8) ∧ ∃ e ∈ t.er.collector, e.code = 0x3003 ∧ e.inst = p.val) ∧
     (s.tm.power ≠ .minimal → (∃ p < 8, s.fld F.OP_STATUS.UP p = 1) → s.er.darkSince = none →
       ∃ t, exec (.laserModuleLoss 0) s = .next t ∧ (∀ p, p < 8 → t.fld F.OP_STATUS.UP p = 0) ∧
         (∀ p w, p < 8 → w < 8 → (t.lane p false w).light = false ∧ (t.lane p false w).st ≠ .lit) ∧
         t.er.darkSince = some s.tm.now) ∧
     (∀ m : Fin 3, 1 ≤ m.val → ∃ t, exec (.laserModuleLoss m) s = .next t ∧
       ∀ p, 8 * m.val ≤ p → p < 8 * m.val + 8 → t.fld F.OP_STATUS.UP p = 0 ∧
         (s.fld F.OP_STATUS.UP p ≠ 0 → t.fld F.OP_STATUS.FAILED p = 1 ∧ Raised s t 0x3003 1 p) ∧
         ∀ w, w < 8 → (t.lane p false w).light = false ∧ (t.lane p false w).st ≠ .lit) ∧
     (∀ e, s.er.darkSince = some e → e + 10000000000 ≤ s.tm.now →
       ∃ t, exec .linkLost s = .next t ∧ t.er.darkSince = none ∧ t.rg = s.rg ∧
         ∃ e ∈ t.er.collector, e.code = 0x3105 ∧ e.sev = 3))

/-- A lost reference and a PLL out of lock (R444): the status bits fall, REF_LOST is set and a black error raised;
nothing else changes. POWER_RECOMPUTE in ACTIVE (R448, R449, R452, R453): the common point is the highest that stays within
the limit, 0 and gated where none does, and below the present one where the measured mean is above the limit (the mean's bound
is the model's reading, log 122); each cluster that no stop halts moves towards its own by at most 4 points and at most once
in 10 µs; PWR_STATUS, the input registers and LIMITED say what was found. -/
def Obligations.ClocksAndPoints : Prop :=
  (∀ s : State, s.powered = true →
     (∃ t, exec (.refLost 0) s = .next t ∧ t.fld F.CLK_STATUS.REF0_OK = 0 ∧ t.fld F.CLK_INT_STATUS.REF_LOST = 1 ∧
       Raised s t 0x0801 3 0 ∧
       FieldsBut s t [fieldKey F.CLK_STATUS.REF0_OK 0 0, fieldKey F.CLK_INT_STATUS.REF_LOST 0 0] ∧ OnlySignals s t) ∧
     (∃ t, exec (.refLost 1) s = .next t ∧ t.fld F.CLK_STATUS.REF1_OK = 0 ∧ t.fld F.CLK_STATUS.TB_UNSYNC = 1 ∧
       t.fld F.CLK_INT_STATUS.REF_LOST = 1 ∧ Raised s t 0x0801 3 0 ∧
       FieldsBut s t [fieldKey F.CLK_STATUS.REF1_OK 0 0, fieldKey F.CLK_STATUS.TB_UNSYNC 0 0,
         fieldKey F.CLK_INT_STATUS.REF_LOST 0 0] ∧ OnlySignals s t) ∧
     (∃ t, exec .pllUnlock s = .next t ∧ t.fld F.CLK_STATUS.PLL_LOCKED = 0 ∧ t.fld F.CLK_INT_STATUS.REF_LOST = 1 ∧
       Raised s t 0x0802 3 0 ∧
       FieldsBut s t [fieldKey F.CLK_STATUS.PLL_LOCKED 0 0, fieldKey F.CLK_INT_STATUS.REF_LOST 0 0] ∧ OnlySignals s t)) ∧
  (∀ (s : State) (watts mv : BitVec 16) (fit : Fin 28), s.tm.power = .active → s.tm.now % 10000 = 0 →
     let mean := s.inputMean watts.toNat
     let best := s.fitWithin mean fit
     let common := if best = 27 then 0 else best
     ∃ t, exec (.powerRecompute watts mv fit) s = .next t ∧ mean ≤ 2400 ∧
       (powerLimit (s.fld F.PWR_LIMIT.WATTS) < mean → best = 27 ∨ common < s.fld F.PWR_STATUS.POINT) ∧
       (mean ≤ powerLimit (s.fld F.PWR_LIMIT.WATTS) → best = fit.val) ∧
       t.fld F.PWR_STATUS.POINT = common ∧ t.fld F.PWR_INPUT.WATTS = mean ∧ t.fld F.PWR_VIN.MV = mv.toNat ∧
       t.fld F.PWR_STATUS.STATE = (if best = 27 then 1 else if s.pw.hotAll || s.pw.hotDies ≠ [] then 2 else 0) ∧
       (∀ cl, cl < 256 → s.domHalted cl = false →
         let x := s.clk cl
         let target := if (s.cluster cl).layers = [] then 0 else Nat.min common (s.pointCap cl)
         (t.clk cl).point =
           (if (match x.changed with | none => true | some e => decide (e + 10000 ≤ s.tm.now)) then
             (if x.point < target then Nat.min target (x.point + 4) else Nat.max target (x.point - 4)) else x.point)) ∧
       (best = 27 → s.fld F.PWR_STATUS.STATE ≠ 1 →
         t.fld F.PWR_INT_STATUS.LIMITED = 1 ∧ Raised s t 0x0901 0 0) ∧
       SameWork s t ∧ t.bt = s.bt ∧ t.tm = s.tm)

/-- PWR_LIMIT, VIN_LOW, droop, its calibration, and parking (R450 to R452, R455, R503). A reading of the die
temperatures (R454, R503): the registers show it; a die at 100 °C steps its clusters down until a reading of 98 °C or
below; 110 °C of a die and 90 °C of a photonic die are black errors. -/
def Obligations.SuppliesAndTemperatures : Prop :=
  (∀ (s : State) (cl : Fin 256),
     (∀ (r : Requester) (v : W32), Writable s 0x09 0 r →
       ∃ t, exec (.pwrLimitWrite r v) s = .next t ∧ t.fld F.PWR_LIMIT.WATTS = v.toNat % 4096 ∧
         t.pw.limitAt = s.tm.now ∧ FieldsBut s t [fieldKey F.PWR_LIMIT.WATTS 0 0] ∧
         t = { s with rg := t.rg, pw.limitAt := t.pw.limitAt }) ∧
     (∀ mv : BitVec 16, s.powered = true →
       ∃ t, exec (.vinLow mv) s = .next t ∧ t.fld F.PWR_VIN.MV = mv.toNat ∧ t.fld F.PWR_INT_STATUS.VIN_LOW = 1 ∧
         Raised s t 0x0904 1 0 ∧
         FieldsBut s t [fieldKey F.PWR_VIN.MV 0 0, fieldKey F.PWR_INT_STATUS.VIN_LOW 0 0] ∧ OnlySignals s t) ∧
     (s.tm.power = .active → s.domHalted cl = false → (s.clk cl).parked = false →
       ∃ t, exec (.droop cl) s = .next t ∧ t.fld F.CLK_INT_STATUS.STRETCH = 1 ∧
         t.cnt C.CLK_CNT_STRETCH 0 cl = (s.cnt C.CLK_CNT_STRETCH 0 cl + (Config.freeValue s.free).toNat) % 2 ^ 64 ∧
         FieldsBut s t [fieldKey F.CLK_INT_STATUS.STRETCH 0 0] ∧ OnlySignals { s with free := s.free + 1 } t) ∧
     (s.tm.power = .active → s.stopState = 0 → s.tm.now % 64000000 = cl * 250000 →
       ∃ t, exec (.droopCalibration cl) s = .next t ∧ (t.cluster cl).droopUntil = some (s.tm.now + 2000) ∧
         (∀ k, k / 40 = cl.val → t.coreRuns k = false) ∧ (∀ d, d ≠ cl.val → t.cluster d = s.cluster d) ∧
         t = { s with tl.clusters := t.tl.clusters }) ∧
     (∀ e, (s.cluster cl).droopUntil = some e →
       ∃ t, exec (.droopSlotEnd cl) s = .next t ∧ (t.cluster cl).droopUntil = none ∧
         t.cnt C.CLK_CNT_DROOP_CAL 0 cl = (s.cnt C.CLK_CNT_DROOP_CAL 0 cl + 1) % 2 ^ 64 ∧ t.rg.fields = s.rg.fields ∧
         t = { s with rg := t.rg, tl.clusters := t.tl.clusters }) ∧
     (s.tm.power = .active → s.domHalted cl = false → s.fld F.PWR_CFG.PARK ≠ 0 → (s.clk cl).parked = false →
       (s.cluster cl).layers = [] → (s.clk cl).idleSince + s.parkDelay ≤ s.tm.now →
       ∃ t, exec (.park cl) s = .next t ∧ (t.clk cl).parked = true ∧ (t.clk cl).point = (s.clk cl).point ∧
         t.cnt C.PWR_CNT_PARKS = (s.cnt C.PWR_CNT_PARKS + 1) % 2 ^ 64 ∧ t.rg.fields = s.rg.fields ∧
         t = { s with rg := t.rg, pw.clk := t.pw.clk })) ∧
  (∀ (s : State) (compute port : List Byte) (control : Byte) (photonic : List Byte), s.powered = true →
     ∃ t, exec (.dieTemperatureRead compute port control photonic) s = .next t ∧
       t.fld F.PWR_TEMP.COMPUTE = hottest compute ∧ t.fld F.PWR_TEMP.PORT = hottest port ∧
       t.fld F.PWR_TEMP.CONTROL = control.toNat ∧ t.fld F.PWR_TEMP.PHOTONIC = hottest photonic ∧
       (∀ d, d < 16 → t.fld F.CD_STATUS.TEMP d = dieTemp compute d) ∧
       (∀ d, d < 16 → (d ∈ t.pw.hotDies ↔
         100 ≤ dieTemp compute d ∨ (d ∈ s.pw.hotDies ∧ 98 < dieTemp compute d))) ∧
       (∀ cl, cl < 256 → (t.clk cl).point = (s.clk cl).point ∧
         (t.clk cl).throttle = if t.pw.hotAll ∨ cl / 16 ∈ t.pw.hotDies
           then Nat.max (s.clk cl).throttle (26 - ((s.clk cl).point - 1)) else 0) ∧
       (∀ b, b ∈ compute ++ port ++ [control] → 110 ≤ b.toNat → Raised s t 0x0903 3 0) ∧
       (∀ q, q < 4 → 90 ≤ dieTemp photonic q → Raised s t 0x3004 3 (6 * q)) ∧
       SameWork s t ∧ t.mm = s.mm ∧ t.bt = s.bt ∧ t.tm = s.tm)

/-- A warm or a recovery reset is requested while the device is ACTIVE and no access is held (R459, R461, R462, R467):
the cores, core stores and the host's holds are gone, but a core that a fault or a failed test keeps out stays out (R125); a
warm reset clears the queue enables, a recovery reset keeps
them; the fuses and the time base stay. The end of a warm, recovery or per-cluster reset, with no access held and no
black error waiting (R462, R463): the device is ACTIVE again, RST_STATUS and the counters say which reset it was and
how long it took; a per-cluster reset wipes the cores of its cluster alone, in the same way. -/
def Obligations.Resets : Prop :=
  (∀ (s : State) (r : Requester), (r = .firmware ∨ Writable s 0x0A 0 r) → s.tm.power = .active → s.rs.run = none →
     s.st.held = [] →
     (∃ t, exec (.warm r) s = .next t ∧ t.tm.power = .resetting ∧
       (∃ x, t.rs.run = some x ∧ x.recovery = false ∧ x.at_ = s.tm.now) ∧ t.fld F.RST_STATUS.IN_PROGRESS = 1 ∧
       t.fld F.RST_CAUSE.CAUSE = resetCause r false ∧ (∀ q, (t.queue q).enabled = false) ∧
       (∀ k, t.core k = { out := (s.core k).out }) ∧
       t.hl.filter = [] ∧ t.bt.fuses = s.bt.fuses ∧ t.tm.now = s.tm.now) ∧
     (∃ t, exec (.recovery r) s = .next t ∧ t.tm.power = .resetting ∧
       (∃ x, t.rs.run = some x ∧ x.recovery = true ∧ x.at_ = s.tm.now) ∧ t.fld F.RST_STATUS.IN_PROGRESS = 1 ∧
       t.fld F.RST_CAUSE.CAUSE = resetCause r false ∧ (∀ q, (t.queue q).enabled = (s.queue q).enabled) ∧
       (∀ k, t.core k = { out := (s.core k).out }) ∧ t.hl.filter = [] ∧ t.bt.fuses = s.bt.fuses ∧ t.tm.now = s.tm.now) ∧
     (s.rs.clusters.any (fun c => c.1 == s.fld F.RST_CLUSTER.CLUSTER) = false →
       ∃ t, exec (.clusterReset r) s = .next t ∧ t.tm.power = .active ∧
         (t.cluster (s.fld F.RST_CLUSTER.CLUSTER)).removed = true ∧ t.fld F.RST_STATUS.CLUSTER_BUSY = 1 ∧
         t.fld F.RST_CAUSE.CAUSE = resetCause r true ∧
         t.rs.clusters = s.rs.clusters ++ [(s.fld F.RST_CLUSTER.CLUSTER, s.tm.now)])) ∧
  (∀ s : State, s.st.held = [] →
     (∀ x, s.rs.run = some x → x.ends ≤ s.tm.now → s.er.blackLater = none →
       ∃ t, exec .resetDone s = .next t ∧ t.tm.power = .active ∧ t.rs.run = none ∧
         t.fld F.RST_STATUS.IN_PROGRESS = 0 ∧ t.fld F.RST_STATUS.LAST = (if x.recovery then 3 else 2) ∧
         t.cnt C.RST_LAST_NS = (s.tm.now - x.at_) % 2 ^ 64 ∧ t.fld F.RST_INT_STATUS.DONE = 1 ∧
         (x.recovery = true → t.cnt C.RST_CNT_RECOVERY = (s.cnt C.RST_CNT_RECOVERY + 1) % 2 ^ 64) ∧
         (x.recovery = false → t.cnt C.RST_CNT_WARM = (s.cnt C.RST_CNT_WARM + 1) % 2 ^ 64) ∧
         t.mm.dev = s.mm.dev ∧ t.bt = s.bt ∧ t.tm.now = s.tm.now) ∧
     (∀ (cl : Fin 256) c, s.rs.clusters.find? (fun c => c.1 == cl.val) = some c → c.2 + 4300 ≤ s.tm.now →
       ∃ t, exec (.clusterResetDone cl) s = .next t ∧ (∀ k, k / 40 = cl.val → t.core k = { out := (s.core k).out }) ∧
         (∀ k, k / 40 ≠ cl.val → t.core k = s.core k) ∧
         (t.cluster cl).removed = (decide (s.fld F.CD_STATUS.REMOVED (cl / 16) = 1) && (s.cluster cl).removed) ∧
         (t.cluster cl).layers = [] ∧ (t.clk cl).point = 0 ∧ t.rs.clusters.all (fun c => c.1 != cl.val) = true ∧
         t.fld F.RST_STATUS.LAST = 4 ∧ t.fld F.RST_STATUS.LAST_CLUSTER = cl.val ∧ t.fld F.RST_INT_STATUS.DONE = 1 ∧
         t.cnt C.RST_CNT_CLUSTER = (s.cnt C.RST_CNT_CLUSTER + 1) % 2 ^ 64 ∧ t.mm = s.mm ∧ t.cq = s.cq))

/-- Power (R457, R460, R565): PWR_OK starts a device that is off, with the straps it samples, the time base at 0,
every register at its reset value but MG_CFG and every store zero; a loss of power stops it in any state; the fuses,
the logs and the boot flash stay. -/
def Obligations.PowerCycle : Prop :=
  ∀ s : State,
    (∀ straps : Fin 16, s.tm.power = .off →
      ∃ t, exec (.pwrOk straps) s = .next t ∧ t.tm.power = .starting ∧ t.tm.now = 0 ∧ t.tm.straps = straps.val ∧
        t.fld F.MG_CFG.STATIC_ADDR = 0x40 + straps.val ∧ FieldsBut State.reset t [fieldKey F.MG_CFG.STATIC_ADDR 0 0] ∧
        t.mm = {} ∧ t.cq = {} ∧ t.tl = {} ∧ t.hl.hwr = [] ∧ t.bt.fuses = s.bt.fuses ∧ t.bt.flash = s.bt.flash ∧
        t.bt.stateLog = s.bt.stateLog ∧ t.bt.resLog = s.bt.resLog ∧ t.pending = s.pending) ∧
    (∃ t, exec .powerLoss s = .next t ∧ t.tm.power = .off ∧ t.rg = {} ∧ t.mm = {} ∧ t.cq = {} ∧ t.tl = {} ∧ t.hl.hwr = [] ∧
      t.bt.fuses = s.bt.fuses ∧ t.bt.flash = s.bt.flash ∧ t.bt.stateLog = s.bt.stateLog ∧ t.bt.resLog = s.bt.resLog ∧
      t.bt.sign.next = none ∧ t.pending = s.pending)

/-- BOOT_STAGE and STAGE_TIMEOUT (R468 to R474): a stage that is done passes to the next, 0xA once the link is up; stage 0x3
raises the failure counter, and at 3 enters minimal mode; stage 0x4 fails where it accepts neither slot; stage 0x9 clears the
counter; the last makes the device ACTIVE; a failed or late stage writes its code to the log, where there is a flash to write
it to (log 48), and halts the device, but for those that enter minimal mode. -/
def Obligations.BootStages : Prop :=
  ∀ s : State, s.tm.power = .starting →
    let n := s.fld F.BOOT_STATUS.STAGE
    let accepts := s.slotOk s.preferred = true ∨ s.slotOk (1 - s.preferred) = true
    (n ∈ [1, 2, 5, 6, 7] ∨ (n = 4 ∧ accepts) → ∀ u, ∃ t, exec (.bootStage (.done u)) s = .next t ∧ t.fld F.BOOT_STATUS.STAGE = n + 1 ∧
      t.bt.stageAt = s.tm.now ∧ t.tm = s.tm ∧ t.bt.stateLog = s.bt.stateLog) ∧
    (n = 3 → s.failCount < 3 → ∀ u, ∃ t, exec (.bootStage (.done u)) s = .next t ∧ t.fld F.BOOT_STATUS.STAGE = 4 ∧
      t.failCount = s.failCount + 1 ∧ t.tm = s.tm) ∧
    (n = 3 → 3 ≤ s.failCount → ∀ u, ∃ t, exec (.bootStage (.done u)) s = .next t ∧ t.tm.power = .minimal ∧
      t.fld F.BOOT_STATUS.MODE = 2 ∧ t.fld F.BOOT_CAUSE.KIND = 1 ∧ t.failCount = s.failCount) ∧
    (n = 4 → ¬ accepts → ∀ u, ∃ t, exec (.bootStage (.done u)) s = .next t ∧ t.tm.power = .halted ∧
      t.fld F.BOOT_STATUS.MODE = 3 ∧ logValue t.bt.stateLog 2 = some (0x440 + s.slotCode s.preferred)) ∧
    (n = 8 → ∀ u : List (Fin 12 × Fin 64),
      (∀ i : Fin 12, ((u.filter (fun x => x.1.val = i.val)).map (·.2)).eraseDups.length ≤ 1) →
      ∃ t, exec (.bootStage (.done u)) s = .next t ∧ t.fld F.BOOT_STATUS.STAGE = 9 ∧ t.bt.stageAt = s.tm.now ∧ t.tm = s.tm) ∧
    (n = 9 → ∀ u, ∃ t, exec (.bootStage (.done u)) s = .next t ∧ t.fld F.BOOT_STATUS.STAGE = 10 ∧ t.failCount = 0 ∧ t.tm = s.tm) ∧
    (n = 10 → s.linkUp = true → ∀ u, ∃ t, exec (.bootStage (.done u)) s = .next t ∧ t.fld F.BOOT_STATUS.STAGE = 11 ∧
      t.tm = s.tm) ∧
    (n = 11 → ∀ u, ∃ t, exec (.bootStage (.done u)) s = .next t ∧ t.tm.power = .active ∧ t.fld F.BOOT_STATUS.MODE = 1 ∧
      t.cnt C.BOOT_DONE_NS = s.tm.now % 2 ^ 64) ∧
    (∀ d : Fin 15, 1 ≤ d.val → d.val ≤ stageCodes n → 16 * n + d.val ≠ 0x23 → 16 * n + d.val ≠ 0x31 →
      ∃ t, exec (.bootStage (.failed d)) s = .next t ∧ t.tm.power = .halted ∧ t.fld F.BOOT_STATUS.MODE = 3 ∧
        (16 * n + d.val ≠ 0x21 → logValue t.bt.stateLog 2 = some (16 * n + d.val + 256 * n)) ∧
        (16 * n + d.val = 0x21 → t.bt.stateLog = s.bt.stateLog ∧ t.fld F.BOOT_FAIL.CODE0 = 0x21)) ∧
    (∀ d : Fin 15, 1 ≤ d.val → d.val ≤ stageCodes n → (16 * n + d.val = 0x23 ∨ 16 * n + d.val = 0x31) →
      ∃ t, exec (.bootStage (.failed d)) s = .next t ∧ t.tm.power = .minimal ∧ t.fld F.BOOT_CAUSE.KIND = 2 ∧
        t.bt.stateLog = s.bt.stateLog) ∧
    (∀ ms, stageLimit n = some ms → s.bt.stageAt + ms * 1000000 ≤ s.tm.now →
      ∃ t, exec .stageTimeout s = .next t ∧ t.tm.power = .halted ∧ t.fld F.BOOT_STATUS.MODE = 3 ∧
        logValue t.bt.stateLog 2 = some (16 * n + 15 + 256 * n))

/-- BOOT_CTRL and SEC_CTRL (R477, R485, R499): the failure counter, the preferred slot, the SVN of the fuses, which
never falls, and a revoked vendor key slot; the slot that signed the running image stays. LC_GO and LC_REQUEST (R490,
R494, R495): a transition of the table that needs no token, or has a good one, is recorded in the fuses as pending;
any other leaves them and says why. -/
def Obligations.BootAndLifeCycle : Prop :=
  (∀ (s : State) (r : Requester),
     (Writable s 0x0C 0 r →
       (∃ t, exec (.bootCtrlClearCount r) s = .next t ∧ t.failCount = 0 ∧ t.preferred = s.preferred ∧
         t.bt.fuses = s.bt.fuses ∧ t.rg.fields = s.rg.fields ∧ t = { s with rg := t.rg, bt := t.bt }) ∧
       ∀ slot : Fin 2, ∃ t, exec (.setPrefer r slot) s = .next t ∧ t.preferred = slot.val ∧ t.failCount = s.failCount ∧
         t.bt.fuses = s.bt.fuses ∧ t.rg.fields = s.rg.fields ∧ t = { s with rg := t.rg, bt := t.bt }) ∧
     (Writable s 0x0D 0 r →
       (∃ t, exec (.commitSvn r) s = .next t ∧
         t.bt.fuses.svn = (if s.tm.power = .minimal ∨ s.fld F.BOOT_STATUS.FALLBACK = 1 then s.bt.fuses.svn
           else Nat.max s.bt.fuses.svn (Nat.min 64 (s.fld F.BOOT_SVN.SVN))) ∧
         t.bt.fuses.revoked = s.bt.fuses.revoked ∧ t.bt.fuses.lc = s.bt.fuses.lc ∧ t.rg.fields = s.rg.fields ∧
         t = { s with rg := t.rg, bt.fuses := t.bt.fuses }) ∧
       ∀ slot : Fin 4, ∃ t, exec (.secCtrlRevoke r slot) s = .next t ∧
         (s.bt.fwKey ≠ some slot.val → bit t.bt.fuses.revoked slot = true) ∧
         (s.bt.fwKey = some slot.val → t.bt.fuses.revoked = s.bt.fuses.revoked) ∧
         (∀ i, i ≠ slot.val → bit t.bt.fuses.revoked i = bit s.bt.fuses.revoked i) ∧
         t.bt.fuses.svn = s.bt.fuses.svn ∧ t.bt.fuses.lc = s.bt.fuses.lc ∧ t.rg.fields = s.rg.fields ∧
         t = { s with rg := t.rg, bt.fuses := t.bt.fuses })) ∧
  (∀ s : State, s.bt.fuses.lc.length < 16 →
     (∀ r : Requester, Writable s 0x0E 0 r →
       let dst := s.fld F.LC_TARGET.STATE
       let ok := s.lcPending = none ∧ lcAllowed s.lcState dst = true ∧ lcNeedsToken s.lcState dst = false
       ∃ t, exec (.lcGo r) s = .next t ∧
         (ok → t.fld F.LC_STATUS.RESULT = 0 ∧ t.bt.fuses.lc = s.bt.fuses.lc ++ [{ target := dst, applied := false }]) ∧
         (¬ ok → t.bt.fuses.lc = s.bt.fuses.lc ∧ t.fld F.LC_STATUS.RESULT =
           (if s.lcPending ≠ none then 5 else if lcAllowed s.lcState dst = false then 1 else 2)) ∧
         t.bt.fuses.svn = s.bt.fuses.svn ∧ t.bt.fuses.revoked = s.bt.fuses.revoked ∧
         FieldsBut s t [fieldKey F.LC_STATUS.RESULT 0 0] ∧ t = { s with rg := t.rg, bt.fuses := t.bt.fuses }) ∧
     (∀ (dst : Fin 8) (token : List Byte), s.mgmtServes = true → s.lcPending = none → lcAllowed s.lcState dst = true →
       lcNeedsToken s.lcState dst = true → s.tokenOk dst token = true →
       ∃ t, exec (.lcRequest dst token) s = .next t ∧ .mgmt 5 0 [0] ∈ t.hl.out ∧ t.fld F.LC_STATUS.RESULT = 0 ∧
         t.bt.fuses.lc = s.bt.fuses.lc ++ [{ target := dst, applied := false }]))

/-- GET_IDENTITY, GET_CERT, GET_BOOT_CAUSE, GET_SIGN_STATE and CLEAR_COUNT over I3C (R490, R556): each is answered
with its data, and is counted; only CLEAR_COUNT changes more, the failure counter. REG_READ, REG_WRITE and SETDASA
(R348, R543, R544, R554, R556): a read answers the value, a write of 32 bits is the same write of the register by the
management port and answers 0, one of the 64 bits of a read-only register answers 0 and changes no field, a write to a page
that another requester has locked answers 3 and has no effect, an access that the window does not serve answers 5; the dynamic
address is kept. -/
def Obligations.ManagementMessages : Prop :=
  (∀ s : State, s.mgmtServes = true →
     (∃ t, exec .getIdentity s = .next t ∧ t.hl.out = s.hl.out ++ [.mgmt 1 0 identityReply.data] ∧
       t.rg.fields = s.rg.fields ∧ t = { s with rg := t.rg, hl.out := t.hl.out }) ∧
     (∀ off len, ∃ t, exec (.getCert off len) s = .next t ∧
       t.hl.out = s.hl.out ++ [if len ≤ 1024 ∧ off + len ≤ 1600
         then .mgmt 2 0 ((List.range len).map (fun i => Config.certificate (off + i))) else .mgmt 2 5 []] ∧
       t.rg.fields = s.rg.fields ∧ t = { s with rg := t.rg, hl.out := t.hl.out }) ∧
     (∃ t, exec .getBootCause s = .next t ∧ t.hl.out = s.hl.out ++ [.mgmt 4 0 (toLE 4 (s.word 0x0C 0 0x100) ++
         toLE 4 (s.word 0x0C 0 0x104) ++ toLE 4 (s.word 0x0C 0 0x108))] ∧
       t.rg.fields = s.rg.fields ∧ t = { s with rg := t.rg, hl.out := t.hl.out }) ∧
     (∃ t, exec .getSignState s = .next t ∧
       t.hl.out = s.hl.out ++ [.mgmt 6 0 (toLE 8 (s.bt.sign.next.getD s.nextBlock) ++ toLE 8 s.indicesLeft)] ∧
       t.rg.fields = s.rg.fields ∧ t = { s with rg := t.rg, hl.out := t.hl.out }) ∧
     (∃ t, exec .clearCount s = .next t ∧ t.hl.out = s.hl.out ++ [.mgmt 7 0 []] ∧ t.failCount = 0 ∧
       t.preferred = s.preferred ∧ t.bt.fuses = s.bt.fuses ∧ t.rg.fields = s.rg.fields)) ∧
  (∀ s : State,
     (∀ off size : Nat, s.tm.power ≠ .off → s.tm.power ≠ .halted → s.stopState = 0 →
       let u := (s.addCnt C.MG_CNT_I3C_MSGS 1).addCnt C.MG_CNT_REG 1
       (s.regServed off size = true → s.accessWaits (offCls off) (offInst off) .mgmt = false →
         (∃ t, exec (.regRead off size) s = .next t ∧
           t.hl.out = s.hl.out ++ [.mgmt 0x10 0 (toLE size (u.regValue off size))] ∧
           t = { s with rg := t.rg, hl.out := t.hl.out }) ∧
         ∀ v : W64, s.lockedFor (offCls off) (offInst off) .mgmt = true → offReg off ≠ 0x024 →
           ∃ t, exec (.regWrite off size v) s = .next t ∧ t.hl.out = s.hl.out ++ [.mgmt 0x11 3 []] ∧
             t.fld (F.PG_STATUS.LOCK_ABORT (offCls off)) (offInst off) = 1 ∧
             FieldsBut s t [fieldKey (F.PG_STATUS.LOCK_ABORT (offCls off)) (offInst off) 0] ∧
             t = { s with rg := t.rg, hl.out := t.hl.out }) ∧
       (∀ v : W32, s.regServed off 4 = true → s.accessWaits (offCls off) (offInst off) .mgmt = false →
         s.lockedFor (offCls off) (offInst off) .mgmt = false →
         ∃ t, exec (.registerWrite .mgmt off v) u = .next t ∧
           exec (.regWrite off 4 (v.setWidth 64)) s = .next (t.emit (.mgmt 0x11 0 []))) ∧
       (∀ v : W64, s.regServed off 8 = true → s.accessWaits (offCls off) (offInst off) .mgmt = false →
         s.lockedFor (offCls off) (offInst off) .mgmt = false →
         ∃ t, exec (.regWrite off 8 v) s = .next t ∧ t.hl.out = s.hl.out ++ [.mgmt 0x11 0 []] ∧
           t.rg.fields = s.rg.fields ∧ t = { s with rg := t.rg, hl.out := t.hl.out }) ∧
       (s.regServed off size = false → s.accessWaits (offCls off) (offInst off) .mgmt = false →
         (∃ t, exec (.regRead off size) s = .next t ∧ t.hl.out = s.hl.out ++ [.mgmt 0x10 5 []] ∧
           t.rg.fields = s.rg.fields ∧ t = { s with rg := t.rg, hl.out := t.hl.out }) ∧
         ∀ v : W64, ∃ t, exec (.regWrite off size v) s = .next t ∧ t.hl.out = s.hl.out ++ [.mgmt 0x11 5 []] ∧
           t.rg.fields = s.rg.fields ∧ t = { s with rg := t.rg, hl.out := t.hl.out })) ∧
     (∀ addr : BitVec 7, s.tm.power ≠ .off →
       ∃ t, exec (.setdasa addr) s = .next t ∧ t.fld F.MG_STATUS.DYN_VALID = 1 ∧ t.fld F.MG_STATUS.DYN_ADDR = addr.toNat ∧
         t.fld F.MG_INT_STATUS.ATTACHED = 1 ∧
         FieldsBut s t [fieldKey F.MG_STATUS.DYN_VALID 0 0, fieldKey F.MG_STATUS.DYN_ADDR 0 0,
           fieldKey F.MG_INT_STATUS.ATTACHED 0 0] ∧ OnlySignals s t))

/-- ATTEST and TREE_DONE (R486 to R489, R492): a report is signed with the next index of the block held, which is used
up; with no block held the next block is reserved in the log first; when no index is left the answer is EXHAUSTED. A
tree generated is committed. A firmware update (R493): the image goes to the slot that does not run, 4,096 bytes at a
time; when all of it is written and R484 accepts it, its slot is preferred and FW_STAGED is set. -/
def Obligations.AttestationAndUpdate : Prop :=
  (∀ s : State,
     (∀ (nonce : List Byte) i, s.mgmtServes = true → nonce.length = 32 → s.lcState ≠ 4 → s.bt.sign.exhausted = false →
       s.bt.sign.next = some i → 1 ≤ s.bt.sign.left →
       ∃ t, exec (.attest nonce) s = .next t ∧
         .mgmt 3 0 (s.report nonce i ++ (List.range 5396).map (Config.hssSign i (s.report nonce i))) ∈ t.hl.out ∧
         t.bt.sign.next = (if s.bt.sign.left = 1 then none else some (i + 1)) ∧ t.bt.sign.left = s.bt.sign.left - 1 ∧
         t.cnt C.SEC_CNT_SIGNED = (s.cnt C.SEC_CNT_SIGNED + 1) % 2 ^ 64 ∧ t.bt.resLog = s.bt.resLog ∧
         t.bt.fuses = s.bt.fuses) ∧
     (∀ nonce : List Byte, s.mgmtServes = true → nonce.length = 32 → s.lcState ≠ 4 → s.bt.sign.exhausted = false →
       s.bt.sign.next = none → s.treeReady = true →
       ∃ t, exec (.attest nonce) s = .next t ∧ logValue t.bt.resLog 4 = some s.nextBlock ∧
         t.bt.sign.next = some (s.nextBlock + 1) ∧ t.bt.sign.left = 255 ∧
         t.cnt C.SEC_CNT_RESERVED = (s.cnt C.SEC_CNT_RESERVED + 1) % 2 ^ 64) ∧
     (∀ nonce : List Byte, s.mgmtServes = true → nonce.length = 32 → s.bt.sign.exhausted = true →
       ∃ t, exec (.attest nonce) s = .next t ∧ .mgmt 3 2 [] ∈ t.hl.out ∧ t.fld F.SEC_STATUS.NO_SIGN = 1 ∧
         t.bt = s.bt) ∧
     (∀ j e, s.bt.sign.generating = some (j, e) → s.powered = true → e + 1450000000 ≤ s.tm.now →
       ∃ t, exec .treeDone s = .next t ∧ logValue t.bt.resLog 5 = some j ∧ j ∈ t.bt.sign.stored ∧
         t.bt.sign.generating = none ∧ t.fld F.SEC_STATUS.TREE_GEN = 0 ∧ t.fld F.SEC_STATUS.TREE_READY = 1 ∧
         t.fld F.SEC_INT_STATUS.TREE_DONE = 1 ∧ t.bt.sign.next = s.bt.sign.next)) ∧
  (∀ s : State, s.mgmtServes = true →
     (∀ size, s.lcState ≠ 4 → s.bt.update = none →
       ∃ t, exec (.requestUpdate size) s = .next t ∧
         t.bt.update = some { slot := 1 - s.fld F.BOOT_STATUS.SLOT, size := Nat.min size 0x1000000, received := 0 } ∧
         t.hl.out = s.hl.out ++ [.mgmt 0x110 0 [], .mgmt 0x115 0 (toLE 4 0 ++ toLE 4 (Nat.min 4096 size))] ∧
         t = { s with bt.update := t.bt.update, hl.out := t.hl.out }) ∧
     (∀ u data, s.bt.update = some u → data.length = Nat.min 4096 (u.size - u.received) →
       ∃ t, exec (.requestFirmwareData u.received data) s = .next t ∧
         (∀ i, i < data.length → t.flashByte (slotBase u.slot + u.received + i) = data.getD i 0) ∧
         (∀ a, a < slotBase u.slot + u.received ∨ slotBase u.slot + u.received + data.length ≤ a →
           t.flashByte a = s.flashByte a) ∧
         (u.received + data.length < u.size → t.bt.update = some { u with received := u.received + data.length } ∧
           t.preferred = s.preferred) ∧
         (u.size ≤ u.received + data.length → t.bt.update = none ∧
           t.preferred = (if t.slotOk u.slot then u.slot % 2 else s.preferred) ∧
           (t.slotOk u.slot = true → t.fld F.BOOT_INT_STATUS.FW_STAGED = 1)) ∧
         t.bt.fuses = s.bt.fuses))

/-- The host mailbox (R555): a request is taken when the mailbox is in use and idle, and read from host memory in
units of 64 bytes; any other write is refused; ACK frees the response. -/
def Obligations.Mailbox : Prop :=
  ∀ (s : State) (r : Requester) (len : BitVec 14), Writable s 0x38 0 r →
    let ok := s.fld F.MG_CFG.MBOX_EN ≠ 0 ∧ s.fld F.MG_STATUS.MBOX_BUSY ≠ 1 ∧ s.fld F.MG_STATUS.RSP_READY ≠ 1 ∧
      len.toNat ≠ 0 ∧ len.toNat ≤ 8192
    (∃ t, exec (.send r len) s = .next t ∧
      (ok → t.fld F.MG_STATUS.MBOX_BUSY = 1 ∧ t.mg.reqLen = some len.toNat ∧
        t.hl.hrd.length = s.hl.hrd.length + ceilDiv len.toNat 64 ∧
        FieldsBut s t [fieldKey F.MG_STATUS.MBOX_BUSY 0 0]) ∧
      (¬ ok → t.fld (F.PG_STATUS.WRITE_REJECT 0x38) = 1 ∧ t.mg = s.mg ∧ t.hl = s.hl ∧
        FieldsBut s t [fieldKey (F.PG_STATUS.WRITE_REJECT 0x38) 0 0]) ∧ SameWork s t ∧ t.mm = s.mm) ∧
    (∃ t, exec (.mboxAck r) s = .next t ∧ t.fld F.MG_STATUS.RSP_READY = 0 ∧
      FieldsBut s t [fieldKey F.MG_STATUS.RSP_READY 0 0] ∧ OnlyRegs s t)

/-- ERROR_RECORD with no access held (R502, R504 to R507, R533): the collector's next error enters the ring at the
head with its SEQ, is counted on its severity, and leaves the collector; a black one, with no stop, reset or black
error in hand, takes the global stop. An error equal in CODE, INSTANCE and UNIT to the newest record and at most 1 ms
after it coalesces, of severity grey or amber (R506): no record is added, and REPEAT rises to at most 255. -/
def Obligations.ErrorRing : Prop :=
  (∀ (s : State) (e : ErrRec), firstRec s.er.collector = some e → s.tm.power ≠ .off → e.time + 2000 ≤ s.tm.now →
     s.coalesces e = false → s.st.held = [] → s.fld F.ERR_HEAD.SEQ < 2 ^ 32 - 1 →
     let n := s.fld F.ERR_HEAD.SEQ
     (e.sev ≤ 2 → ∃ t, exec .errorRecord s = .next t ∧ look {} t.er.ring (n % 64) = { e with seq := n } ∧
       t.fld F.ERR_HEAD.SEQ = n + 1 ∧ t.er.collector = s.er.collector.erase e ∧
       t.cnt (sevCnt e.sev) = (s.cnt (sevCnt e.sev) + 1) % 2 ^ 64 ∧
       (∀ i, i < 64 → i ≠ n % 64 → look {} t.er.ring i = look {} s.er.ring i) ∧ SameWork s t ∧ t.bt = s.bt ∧ t.tm = s.tm) ∧
     (e.sev = 3 → e.injected = false → s.stopState = 0 → s.rs.run = none → s.er.black = none →
       ∃ t, exec .errorRecord s = .next t ∧ look {} t.er.ring (n % 64) = { e with seq := n } ∧
         t.fld F.ERR_HEAD.SEQ = n + 1 ∧ t.er.collector = s.er.collector.erase e ∧ t.stopState = 1 ∧
         t.er.black = some e ∧ SameWork s t ∧ t.bt = s.bt ∧ t.tm = s.tm)) ∧
  (∀ (s : State) (e : ErrRec), firstRec s.er.collector = some e → s.tm.power ≠ .off → e.time + 2000 ≤ s.tm.now →
     s.fld F.ERR_CFG.COALESCE = 1 → e.sev ≤ 1 → 1 ≤ s.fld F.ERR_HEAD.SEQ → s.st.held = [] →
     let i := (s.fld F.ERR_HEAD.SEQ - 1) % 64
     let r := look {} s.er.ring i
     r.code = e.code → r.inst = e.inst → r.unit = e.unit → e.time ≤ r.time + 1000000 →
     ∃ t, exec .errorRecord s = .next t ∧ look {} t.er.ring i = { r with repeated := Nat.min 255 (r.repeated + 1) } ∧
       t.fld F.ERR_HEAD.SEQ = s.fld F.ERR_HEAD.SEQ ∧ t.er.collector = s.er.collector.erase e ∧
       t.cnt C.ERR_CNT_COALESCED = (s.cnt C.ERR_CNT_COALESCED + 1) % 2 ^ 64 ∧ SameWork s t)

/-- Firmware's action on a black error (R475, R478, R509, R510), with no access held: minimal mode for the codes that
mean a loss; the thermal hold for an overheat; a recovery reset for any other; and the recovery reset that ends a
thermal hold after 100 ms of cool readings. -/
def Obligations.BlackActions : Prop :=
  ∀ s : State, s.tm.power = .active → s.st.held = [] →
    (∀ e, s.er.black = some e → s.er.hold = false → (s.stopState = 3 ∨ e.time + 200000 ≤ s.tm.now) →
      (s.inBlackWindow e = true ∨ minimalCode e.code = true → ∃ t, exec .blackAction s = .next t ∧ t.tm.power = .minimal ∧
        t.fld F.BOOT_STATUS.MODE = 2 ∧ t.fld F.BOOT_CAUSE.KIND = 3 ∧ t.fld F.BOOT_CAUSE.PART = e.lossPart.1 % 16 ∧
        t.cq.cmds = [] ∧ (∀ k, t.core k = {}) ∧ t.bt = s.bt) ∧
      (s.inBlackWindow e = false → minimalCode e.code = false → overheatCode e.code = true →
        ∃ t, exec .blackAction s = .next t ∧ t.er.hold = true ∧ t.tm = s.tm ∧ t.rg = s.rg ∧ SameWork s t) ∧
      (s.inBlackWindow e = false → minimalCode e.code = false → overheatCode e.code = false → s.rs.run = none →
        ∃ t, exec .blackAction s = .next t ∧ t.tm.power = .resetting ∧ (∃ x, t.rs.run = some x ∧ x.recovery = true) ∧
          t.fld F.RST_CAUSE.CAUSE = 3 ∧ t.er.black = none ∧ t.bt.fuses = s.bt.fuses)) ∧
    (∀ e, s.er.coolSince = some e → s.er.hold = true → e + 100000000 ≤ s.tm.now → s.rs.run = none →
      ∃ t, exec .thermalHoldEnd s = .next t ∧ t.tm.power = .resetting ∧ (∃ x, t.rs.run = some x ∧ x.recovery = true) ∧
        t.er.hold = false ∧ t.er.coolSince = none)

/-- ERR_INJECT, ERR_FIRST_CTRL.CLEAR and PG_ERR_FIRST.CLEAR (R507, R525, R533): an injected error of a severity below
black reaches the collector marked INJECTED, but not in END_OF_LIFE; the first-error captures are emptied. Faults of
control-die blocks, port dies and a compute die's or a cluster's logic (R271, R478, R503): a black error names the
part, and a cluster leaves placement with a red error. -/
def Obligations.ErrorRegistersAndPartFaults : Prop :=
  (∀ (s : State) (r : Requester),
     (Writable s 0x40 0 r →
       (∀ v : W32, v.toNat / 65536 % 4 ≠ 3 → s.lcState ≠ 4 →
         ∃ t, exec (.errInject r v) s = .next t ∧
           (∃ e ∈ t.er.collector, e.code = v.toNat % 65536 ∧ e.sev = v.toNat / 65536 % 4 ∧ e.injected = true ∧ e.time = s.tm.now) ∧
           t.rg.fields = s.rg.fields ∧ t = { s with rg := t.rg, er.collector := t.er.collector }) ∧
       (∀ v : W32, v.toNat / 65536 % 4 = 3 ∨ s.lcState = 4 →
         ∃ t, exec (.errInject r v) s = .next t ∧ t.rg.fields = s.rg.fields ∧ OnlyRegs s t) ∧
       (∃ t, exec (.errFirstClear r) s = .next t ∧ t.er.first = none ∧ t.fld F.ERR_STATUS.FIRST_VALID = 0 ∧
         FieldsBut s t [fieldKey F.ERR_STATUS.FIRST_VALID 0 0] ∧ t = { s with rg := t.rg, er.first := none })) ∧
     (∀ cls inst, pageExists cls inst = true → Writable s cls inst r →
       ∃ t, exec (.pgErrFirstClear r cls inst) s = .next t ∧ t.fld (F.PG_ERR_FIRST.VALID cls) inst = 0 ∧
         t.fld (F.PG_ERR_FIRST.CODE cls) inst = 0 ∧ t.fld (F.PG_ERR_FIRST.SEV cls) inst = 0 ∧
         t.fld (F.PG_ERR_FIRST.SLOT cls) inst = 0 ∧
         FieldsBut s t [fieldKey (F.PG_ERR_FIRST.VALID cls) inst 0, fieldKey (F.PG_ERR_FIRST.CODE cls) inst 0,
           fieldKey (F.PG_ERR_FIRST.SEV cls) inst 0, fieldKey (F.PG_ERR_FIRST.SLOT cls) inst 0] ∧ OnlyRegs s t)) ∧
  (∀ s : State,
     (∀ block : Byte, s.powered = true → ∃ t, exec (.ctrlBlock block) s = .next t ∧
       (∃ e ∈ t.er.collector, e.code = 0x0001 ∧ e.sev = 3 ∧ e.part = block.toNat ∧ e.time = s.tm.now) ∧
       t = { s with er.collector := t.er.collector }) ∧
     (∀ p : Fin 4, s.powered = true → s.mm.diesLost.contains p.val = false → ∃ t, exec (.portDieLost p) s = .next t ∧
       p.val ∈ t.mm.diesLost ∧ (∃ e ∈ t.er.collector, e.code = 0x0002 ∧ e.sev = 3 ∧ e.part = p.val) ∧
       t = { s with er.collector := t.er.collector, mm.diesLost := t.mm.diesLost }) ∧
     (∀ cl : Fin 256, s.tm.power = .active → (s.cluster cl).removed = false → ∃ t, exec (.clusterFault cl) s = .next t ∧
       (t.cluster cl).removed = true ∧ t.fld F.CLS_STATUS.IN_PLACEMENT cl = 0 ∧ Raised s t 0x1121 2 cl ∧
       (∀ k, k / 40 = cl.val → t.coreRuns k = false) ∧ t.bt = s.bt ∧ t.tm = s.tm))

/-- MARK (R512, table "Trace record"): with the engine enabled, the type unmasked and room in the window and the buffer, a
record of 32 bytes is stored at TRC_WR; no line of the buffer is held by the host. TRC_CFG, SAMPLE and THROTTLE_WINDOW
(R513, R514, R526, R575): the engine is enabled with a buffer as R526 asks and from TRC_WR 0, and the enable is refused
without one; samples of every instance of TRC_SAMPLE's class are taken once in a period; a window that dropped records owes
them to the next, shows THROTTLED and reports TRACE_DROP (R503; as the window ends, log 70). -/
def Obligations.TraceBuffer : Prop :=
  (∀ (s : State) (r : Requester) (v : W32), Writable s 0x41 0 r → s.fld F.TRC_CFG.ENABLE = 1 →
     bit (s.fld F.TRC_TYPES.MASK) 15 = true → s.fld F.TRC_TRIG.TYPE = 0 → s.tr.owedDrop = 0 →
     s.tr.used + 32 ≤ s.traceBudget → s.hl.filter = [] → s.hl.recalls = [] → 1 ≤ s.fld F.TRC_COUNT.N →
     s.cnt C.TRC_WR % 32 = 0 → s.cnt C.TRC_WR + 32 < 2 ^ 64 →
     (s.fld F.TRC_CFG.WRAP ≠ 0 ∨ s.cnt C.TRC_WR + 32 ≤ s.traceSize) →
     let a := s.traceBase + s.cnt C.TRC_WR % s.traceSize
     ∃ t, exec (.mark r v) s = .next t ∧
       t.devRead a 32 = toLE 8 s.tm.now ++ toLE 1 0xF ++ toLE 1 0 ++ toLE 2 313 ++ toLE 2 0xFFFF ++ toLE 2 0xFFFF ++ toLE 4 0 ++
         toLE 4 v.toNat ++ toLE 8 0 ∧
       (∀ x, x < a ∨ a + 32 ≤ x → rdByte t.mm.dev x = rdByte s.mm.dev x) ∧
       t.cnt C.TRC_WR = s.cnt C.TRC_WR + 32 ∧ t.cnt C.TRC_CNT_RECORDS = (s.cnt C.TRC_CNT_RECORDS + 1) % 2 ^ 64 ∧
       t.tr.used = s.tr.used + 32 ∧ t.rg.fields = s.rg.fields ∧ SameWork s t) ∧
  (∀ s : State,
     (∀ (r : Requester) (v : W32), Writable s 0x41 0 r → s.fld F.TRC_CFG.ENABLE = 0 → v.toNat % 2 = 1 →
       (s.traceBufferOk = true → ∃ t, exec (.trcCfgEnable r v) s = .next t ∧ t.fld F.TRC_CFG.ENABLE = 1 ∧
         t.fld F.TRC_CFG.SHARE = bits v.toNat 8 4 ∧ t.fld F.TRC_CFG.WRAP = bits v.toNat 1 1 ∧ t.cnt C.TRC_WR = 0 ∧
         t.fld F.TRC_STATUS.TRIGGERED = 0 ∧ t.fld F.TRC_STATUS.FULL = 0 ∧ t = { s with rg := t.rg, tr := t.tr }) ∧
       (s.traceBufferOk = false → ∃ t, exec (.trcCfgEnable r v) s = .next t ∧ t.fld F.TRC_CFG.ENABLE = 0 ∧
         t.fld (F.PG_STATUS.WRITE_REJECT 0x41) = 1 ∧ OnlyRegs s t)) ∧
     (∀ (r : Requester) (v : W32), Writable s 0x41 0 r → s.fld F.TRC_CFG.ENABLE = 1 → v.toNat % 2 = 0 →
       ∃ t, exec (.trcCfgEnable r v) s = .next t ∧ t.fld F.TRC_CFG.ENABLE = 0 ∧ OnlyRegs s t) ∧
     (s.sampleDue = true → ∃ t, exec .sample s = .next t ∧ t.tr.lastSample = s.tm.now ∧ t.tm = s.tm ∧
       (bit (s.fld F.TRC_TYPES.MASK) 11 = false → t = { s with tr.lastSample := s.tm.now }) ∧
       (let cls := s.fld F.TRC_SAMPLE.CLASS
        t = (List.range ((instancesOf cls).getD 0)).foldl (fun u i => u.sampleInst cls i) { s with tr.lastSample := s.tm.now }) ∧
       SameWork s t) ∧
     (s.tr.window < s.tm.now / 10000 → ∃ t, exec .throttleWindow s = .next t ∧ t.tr.window = s.tm.now / 10000 ∧
       t.tr.used = 0 ∧ t.tr.dropped = 0 ∧ t.tr.owedDrop = s.tr.owedDrop + s.tr.dropped ∧
       t.fld F.TRC_STATUS.THROTTLED = (if s.tr.dropped = 0 then 0 else 1) ∧
       (s.tr.dropped ≠ 0 → Raised s t 0x4101 0 0) ∧ (s.tr.dropped = 0 → t.er = s.er) ∧
       t.tr.lastSample = s.tr.lastSample ∧ t = { s with rg := t.rg, tr := t.tr, er.collector := t.er.collector }))

/-- The stop's triggers (R516, R517): STOP_CTRL.GO of the host or management, and the debug instruction where the life
cycle offers it, arm a stop at T; a trigger outside RUNNING, or during a reset, only sets REFUSED. Halting and
resuming (R517, R518, R520): a domain halts from T on and resumes from T₂ on; 810 ns after T the stop is HALTED when
all have; the capture ends in CAPTURED; RELEASE sets T₂; 810 ns after T₂ the device is RUNNING. With no access held
and no trigger of the trace that stops. -/
def Obligations.GlobalStop : Prop :=
  (∀ s : State,
     (∀ r : Requester, r ≠ .firmware → Writable s 0x43 0 r →
       (s.stopState = 0 → s.rs.run = none → ∃ t, exec (.go r) s = .next t ∧ t.stopState = 1 ∧ t.fld F.STOP_STATUS.CAUSE = 1 ∧
         t.st.cut = s.tm.now + Nat.max 1000 (s.fld F.STOP_CFG.LEAD) ∧ t.cnt C.STOP_TARGET = t.st.cut % 2 ^ 64 ∧
         t.st.halted = [] ∧ SameWork s t ∧ t.mm = s.mm) ∧
       (s.stopState ≠ 0 ∨ s.rs.run ≠ none → ∃ t, exec (.go r) s = .next t ∧ t.stopState = s.stopState ∧
         t.fld F.STOP_STATUS.REFUSED = 1 ∧ OnlyRegs s t)) ∧
     (s.lcState = 0 ∨ s.lcState = 3 → s.stopState = 0 → s.rs.run = none →
       ∃ t, exec .debugInstruction s = .next t ∧ t.stopState = 1 ∧ t.fld F.STOP_STATUS.CAUSE = 5 ∧
         t.st.cut = s.tm.now + Nat.max 1000 (s.fld F.STOP_CFG.LEAD) ∧ SameWork s t ∧ t.mm = s.mm)) ∧
  (∀ s : State, s.st.held = [] → s.fld F.TRC_TRIG.STOP = 0 →
     (∀ d : Fin 315, s.stopState = 1 → s.st.cut ≤ s.tm.now → s.domHaltedOnce d = false → s.st.resumed = [] →
       ∃ t, exec (.domainHalt d) s = .next t ∧ t.domHalted d = true ∧ t = { s with st.halted := t.st.halted }) ∧
     (s.stopState = 1 → s.st.cut + 810 ≤ s.tm.now → allDomains.all s.domHaltedOnce = true →
       ∃ t, exec .halted s = .next t ∧ t.stopState = 2 ∧ t.fld F.STOP_INT_STATUS.HALTED = 1 ∧ Raised s t 0x4301 0 0 ∧
         t.cnt C.STOP_CNT_STOPS = (s.cnt C.STOP_CNT_STOPS + 1) % 2 ^ 64 ∧ SameWork s t) ∧
     (s.stopState = 2 → ∃ t, exec .captured s = .next t ∧ t.stopState = 3 ∧ t.fld F.STOP_INT_STATUS.CAPTURED = 1 ∧
       t.cnt C.STOP_CAP_LEN = (s.captureBytes.take (2 ^ 23)).length % 2 ^ 64 ∧
       (∀ i, i < 2 ^ 23 → rdByte t.st.capture i = (s.captureBytes).getD i 0) ∧ SameWork s t ∧ t.mm = s.mm) ∧
     (∀ r : Requester, Writable s 0x43 0 r → s.stopState = 3 →
       ∃ t, exec (.stopRelease r) s = .next t ∧ t.stopState = 4 ∧
         t.cnt C.STOP_TARGET = (s.tm.now + Nat.max 1000 (s.fld F.STOP_CFG.LEAD)) % 2 ^ 64 ∧
         FieldsBut s t [fieldKey F.STOP_STATUS.STATE 0 0] ∧ OnlyRegs s t) ∧
     (∀ d : Fin 315, s.stopState = 4 → s.cnt C.STOP_TARGET ≤ s.tm.now → s.domHaltedOnce d = true →
       s.st.resumed.contains d.val = false →
       ∃ t, exec (.domainResume d) s = .next t ∧ t.domHalted d = false ∧ t = { s with st.resumed := t.st.resumed }) ∧
     (s.stopState = 4 → s.cnt C.STOP_TARGET + 810 ≤ s.tm.now → allDomains.all (fun d => s.st.resumed.contains d) = true →
       ∃ t, exec .released s = .next t ∧ t.stopState = 0 ∧ t.fld F.STOP_INT_STATUS.RELEASED = 1 ∧ t.st.halted = [] ∧
         t.cnt C.STOP_CNT_NS = (s.cnt C.STOP_CNT_NS + (s.cnt C.STOP_TARGET - s.st.cut)) % 2 ^ 64 ∧ t.tl = s.tl ∧ t.cq = s.cq))

/-- WFG_CTRL.GO and the end of a report (R522 to R524): outside CAPTURED a LIVE report takes its first snapshot; after
1 ms the report is written with TIME now; a report written to host memory ends BUSY. -/
def Obligations.WaitForReports : Prop :=
  ∀ s : State,
    (∀ r : Requester, Writable s 0x43 0 r → s.fld F.WFG_STATUS.BUSY = 0 → s.stopState ≠ 3 →
      ∃ t, exec (.wfgGo r) s = .next t ∧ t.fld F.WFG_STATUS.BUSY = 1 ∧ t.fld F.WFG_STATUS.DONE = 0 ∧
        t.fld F.WFG_STATUS.CUT = 0 ∧ t.st.wfgAt = some s.tm.now ∧ t.st.wfgSnap = s.wfgSnapshot ∧ SameWork s t ∧ t.hl = s.hl) ∧
    (∀ r : Requester, Writable s 0x43 0 r → s.fld F.WFG_STATUS.BUSY = 0 → s.stopState = 3 →
      ∃ t, exec (.wfgGo r) s = .next t ∧ t.fld F.WFG_STATUS.BUSY = 1 ∧ t.fld F.WFG_STATUS.CUT = 1 ∧ t.st.wfgAt = none ∧
        t.fld F.WFG_STATUS.TRUNCATED = b2n (s.wfgReport false).2.2 ∧ SameWork s t) ∧
    (∀ e, s.fld F.WFG_STATUS.BUSY = 1 → s.st.wfgAt = some e → e + 1000000 ≤ s.tm.now → s.domHalted 312 = false →
      ∃ t, exec .wfgDone s = .next t ∧ t.fld F.WFG_STATUS.BUSY = 1 ∧ t.st.wfgAt = none ∧
        t.fld F.WFG_STATUS.TRUNCATED = b2n (s.wfgReport true).2.2 ∧ SameWork s t) ∧
    (s.fld F.WFG_STATUS.BUSY = 1 → s.st.wfgAt = none → s.hl.hwr.any (fun h => h.what == HwrFor.report) = false →
      ∃ t, exec .wfgDone s = .next t ∧ t.fld F.WFG_STATUS.BUSY = 0 ∧ t.fld F.WFG_STATUS.DONE = 1 ∧
        t.fld F.STOP_INT_STATUS.WFG_DONE = 1 ∧
        t.cnt C.WFG_CNT_REPORTS = (s.cnt C.WFG_CNT_REPORTS + 1) % 2 ^ 64 ∧ SameWork s t ∧ t.mm = s.mm)

/-- A write of a register of one field by its access kind (R17, R539, R540, R574): a live field takes the value, a
static one of a busy block refuses a change, a boundary-shadowed one of a busy block holds it (of an idle one takes it, in place
of any older value held), a reserved encoding is refused, a status bit written with 1 is cleared, and a read-only one stays. -/
def Obligations.RegisterWrites : Prop :=
  ∀ (s : State) (r : Requester) (f : Field) (inst : Nat) (v : W32),
    f ∈ fieldsAt f.cls f.off → fieldsAt f.cls f.off = [f] → 0x100 ≤ f.off → f.off < 0x400 → f.off % 4 = 0 →
    cntHere f.cls (f.off / 8 * 8) = false → pageExists f.cls inst = true → Writable s f.cls inst r →
    (∀ u : State, (u.startsOp r f.cls inst f.off v.toNat).isNone = true) →
    let x := f.part v.toNat
    let b := s.bankAt f.cls f.off
    let busy := s.blockBusy f.cls inst f.blk f.off
    ∃ t, exec (.registerWrite r (regAddr f.cls inst f.off) v) s = .next t ∧
      (f.acc = .ro → t.rg.fields = s.rg.fields) ∧
      (f.acc = .rwl ∨ f.acc = .rws ∨ f.acc = .rwb → f.rsv.contains x = true → t.fld f inst b = s.fld f inst b ∧
        t.fld (F.PG_STATUS.WRITE_REJECT f.cls) inst = 1) ∧
      (f.acc = .rwl → f.rsv.contains x = false → t.fld f inst b = x) ∧
      (f.acc = .rws → f.rsv.contains x = false → x ≠ s.fld f inst b →
        (busy = false → t.fld f inst b = x) ∧
        (busy = true → t.fld f inst b = s.fld f inst b ∧ t.fld (F.PG_STATUS.WRITE_REJECT f.cls) inst = 1)) ∧
      (f.acc = .rwb → f.rsv.contains x = false →
        t.fldShown f inst b = x ∧ (busy = false → t.fld f inst b = x) ∧
        (busy = true → t.fld f inst b = s.fld f inst b)) ∧
      (f.acc = .w1c → t.fld f inst b = (if x = 0 then s.fld f inst b
        else Nat.xor (s.fld f inst b) (Nat.land (s.fld f inst b) x) % 2 ^ f.width)) ∧
      FieldsBut s t [fieldKey f inst b, fieldKey (F.PG_STATUS.WRITE_REJECT f.cls) inst 0] ∧ SameWork s t ∧ t.mm = s.mm

/-- The page header's operations (R534, R536, R541, R544, R545): SNAP copies the twelve slots and the time; APPLY puts
every held value of the page in force; TAKE gives a free lock to the requester, GIVE frees it for its holder and for
firmware; and the two reads that have an effect. -/
def Obligations.HeaderOperations : Prop :=
  ∀ (s : State) (r : Requester) (cls inst : Nat), pageExists cls inst = true →
    (Writable s cls inst r →
      (∃ t, exec (.snap r cls inst) s = .next t ∧
        (∀ n, n < 12 → look 0 t.rg.snaps (slotKey cls inst n) = s.slot cls inst n) ∧
        t.cnt ⟨cls, 0x28⟩ inst = s.tm.now % 2 ^ 64 ∧ SameWork s t ∧ t.mm = s.mm) ∧
      (∃ t, exec (.pgApply r cls inst) s = .next t ∧
        (∀ f ∈ fieldsAt cls f.off, f.cls = cls → (∀ g ∈ fieldsAt cls f.off, g.lo = f.lo → g = f) → f.off < 4096 → f.lo < 64 →
          ∀ b, b < 4096 → ∀ v, look 0 s.rg.held (fieldKey f inst b) = v + 1 → t.fld f inst b = v % 2 ^ f.width) ∧
        SameWork s t ∧ t.mm = s.mm)) ∧
    (s.pagePowered cls inst = true → s.accessWaits cls inst r = false →
      (∃ t, exec (.take r cls inst) s = .next t ∧
        t.fld (F.PG_LOCK.HOLDER cls) inst = (if s.fld (F.PG_LOCK.HOLDER cls) inst = 0 then requesterCode r
          else s.fld (F.PG_LOCK.HOLDER cls) inst) ∧
        FieldsBut s t [fieldKey (F.PG_LOCK.HOLDER cls) inst 0] ∧ OnlyRegs s t) ∧
      (∃ t, exec (.give r cls inst) s = .next t ∧
        (s.fld (F.PG_LOCK.HOLDER cls) inst = requesterCode r ∨ r = .firmware → t.fld (F.PG_LOCK.HOLDER cls) inst = 0) ∧
        (s.fld (F.PG_LOCK.HOLDER cls) inst ≠ requesterCode r → r = .host →
          t.fld (F.PG_LOCK.HOLDER cls) inst = s.fld (F.PG_LOCK.HOLDER cls) inst) ∧
        FieldsBut s t [fieldKey (F.PG_LOCK.HOLDER cls) inst 0] ∧ OnlyRegs s t)) ∧
    (s.pagePowered 0x43 0 = true → s.accessWaits 0x43 0 r = false →
      ∃ t, exec (.stopCapData r) s = .next t ∧
        t.fld F.STOP_CAP_ADDR.OFFSET = (s.fld F.STOP_CAP_ADDR.OFFSET / 8 * 8 + 8) % 2 ^ 23 ∧ OnlyRegs s t) ∧
    (∀ cl : Fin 256, s.pagePowered 0x11 cl = true → s.accessWaits 0x11 cl r = false → s.stopState = 0 →
      ∃ t, exec (.seqStatus r cl) s = .next t ∧ t.fld F.SEQ_STATUS.FENCED cl = 0 ∧
        FieldsBut s t [fieldKey F.SEQ_STATUS.FENCED cl 0] ∧ OnlyRegs s t)

/-- CORE_FAULT and self-test (R125 to R127, R270): a core that reports a cause loses its layer, starts no word and is under
test; CORE_TEST.START tests an idle core that is not placed, and is refused while a test runs (log 108); a test that passes
returns the core, one that fails takes it OFFLINE with cause 5 and an amber error. DIE_LOST and CLUSTER_STORE_UE (R271,
R285): every cluster of a removed die leaves placement; an uncorrectable read of a cluster store is a red error, and a
second one within a second removes the cluster. -/
def Obligations.CoreAndClusterLosses : Prop :=
  (∀ (s : State) (c : Fin 10240),
     (∀ (cause : Fin 7) (well : Fin 24), cause ≠ 0 → s.runs (c / 40) = true → (s.core c).out = false →
       (s.cluster (c / 40)).removed = false →
       ∃ t, exec (.coreFault c cause well) s = .next t ∧ t.coreFld F.CORE_FAULT.CAUSE c = cause.val ∧
         t.coreFld F.CORE_FAULT.WELL c = (if cause.val = 2 then well.val else 0) ∧ (t.core c).out = true ∧
         (t.core c).place = none ∧ t.coreFld F.CORE_STATUS.TESTING c = 1 ∧ t.coreFld F.CORE_TEST.DONE c = 0 ∧
         Raised s t (0x1100 + cause) 2 (c / 40) ∧ t.coreRuns c = false ∧ t.tm = s.tm) ∧
     (∀ r : Requester, Writable s 0x11 (c / 40) r →
       let free := (s.core c).queue = [] ∧ (∀ p, (s.core c).place = some p → p.item = none) ∧
         s.coreFld F.CORE_CFG.PLACE c ≠ 1 ∧ s.coreFld F.CORE_STATUS.TESTING c ≠ 1
       ∃ t, exec (.coreTestStart r c) s = .next t ∧
         (free → t.coreFld F.CORE_STATUS.TESTING c = 1 ∧ t.coreFld F.CORE_TEST.DONE c = 0) ∧
         (¬ free → t.fld (F.PG_STATUS.WRITE_REJECT 0x11) (c / 40) = 1 ∧
           t.coreFld F.CORE_STATUS.TESTING c = s.coreFld F.CORE_STATUS.TESTING c) ∧ OnlyRegs s t) ∧
     (∀ (pass : Bool) (u : Fin 7), s.coreFld F.CORE_STATUS.TESTING c ≠ 0 ∨
         ((s.core c).out = true ∧ s.coreFld F.CORE_STATUS.OFFLINE c = 0) ∨ s.resetTests (c / 40) = true →
       ∃ t, exec (.selfTestDone c pass u) s = .next t ∧ t.coreFld F.CORE_STATUS.TESTING c = 0 ∧
         t.coreFld F.CORE_TEST.DONE c = 1 ∧ t.coreFld F.CORE_TEST.PASS c = b2n pass ∧
         t.coreFld F.CORE_TEST.FAIL_UNIT c = (if pass then 0 else u.val) ∧
         t.core c = { s.core c with out := !pass } ∧
         (pass = true → t.coreFld F.CORE_STATUS.OFFLINE c = s.coreFld F.CORE_STATUS.OFFLINE c ∧
           t.coreFld F.CORE_FAULT.CAUSE c = s.coreFld F.CORE_FAULT.CAUSE c) ∧
         (pass = false → t.coreFld F.CORE_STATUS.OFFLINE c = 1 ∧ t.coreFld F.CORE_FAULT.CAUSE c = 5 ∧
           Raised s t 0x1105 2 (c / 40) ∧ Raised s t 0x1111 1 (c / 40)) ∧
         (∀ k, k ≠ c.val → t.core k = s.core k) ∧ t.cq = s.cq ∧ t.mm = s.mm)) ∧
  (∀ s : State, s.tm.power = .active →
     (∀ die : Fin 16, s.fld F.CD_STATUS.REMOVED die ≠ 1 →
       ∃ t, exec (.dieLost die) s = .next t ∧ t.fld F.CD_STATUS.REMOVED die = 1 ∧ Raised s t 0x1001 2 die ∧
         (∀ i, i < 16 → (t.cluster (die * 16 + i)).removed = true) ∧ t.tm = s.tm ∧ t.bt = s.bt) ∧
     (∀ (cl : Fin 256) (a : Fin 2097152) (k : Fin 40), (s.cluster cl).removed = false →
       ∃ t, exec (.clusterStoreUe cl a k) s = .next t ∧ Raised s t 0x1122 2 cl ∧
         (t.cluster cl).lastUe = some s.tm.now ∧
         (∀ e, (s.cluster cl).lastUe = some e → s.tm.now < e + 1000000000 → (t.cluster cl).removed = true) ∧
         ((∀ e, (s.cluster cl).lastUe = some e → e + 1000000000 ≤ s.tm.now) → (t.cluster cl).removed = false) ∧ t.tm = s.tm))

/-- DISPATCH_MESSAGE (R104, R135, R136, R259): the layer is dispatched; each of its cores latches CMD_SEED and, for a layer with
tables, has its set loaded where it does not hold that set, and ELT_COMPAT written; then the layer goes on with what the sequencer
has claimed. PLACEMENT_SCAN (R265, R417 to R421, R428): a core newly placed was free and in a cluster that is not removed, and no
cluster that held at most 4 layers holds more; a ready layer, alone in its resident context, is started on the first cluster that
qualifies: its counter record is written, its n lowest free cores are placed, their wells those of the context alone, and the
context runs. -/
def Obligations.DispatchAndPlacement : Prop :=
  (∀ (s : State) (cl : Fin 256) (q : Fin 4096) (seq : W32) (ord : Nat) (sl : SeqLayer) (c : Cmd) (l : Layer),
     s.seqLayer? cl q seq.toNat ord = some sl → s.cmd? q seq.toNat = some c → c.layers.find? (fun x => x.ord == ord) = some l →
     sl.dispatched = false → s.runs cl = true → (s.clk cl).awake ≤ s.tm.now →
     let p := s.layerPlan c l
     let set := tableSetOf (s.cmdImage c) p
     ∃ u : State, exec (.dispatchMessage cl q seq ord) s = .next (u.goOnHere cl q seq.toNat ord) ∧
       u.seqLayer? cl q seq.toNat ord = some { sl with dispatched := true } ∧
       (∀ k ∈ sl.cores, u.core k = { s.core k with
           cmdSeed := recSeed c.rec_, lastCmd := some (c.q, c.seq)
           tables := if p.tables = true ∧ (s.core k).tableSet ≠ some set then s.tablesOf (s.cmdImage c) p else (s.core k).tables
           tableSet := if p.tables = true then some set else (s.core k).tableSet } ∧
         (p.tables = true → (∀ j ∈ sl.cores, j < 10240) → u.coreFld F.CORE_CFG.ELT_COMPAT k =
           b2n (Config.tableCompat (s.cmdImage c).desc (s.cmdImage c).version p.tableOff))) ∧
       (∀ k, k ∉ sl.cores → u.core k = s.core k) ∧ u.cq = s.cq ∧ u.mm = s.mm ∧ u.tl.counters = s.tl.counters ∧
       u.tl.traffic = s.tl.traffic ∧
       (sl.job = none → sl.ahead = [] → sl.exhausted = false → u.goOnHere cl q seq.toNat ord = u)) ∧
  (∀ s : State, s.runs 313 = true → s.fld F.SCHED_CFG.ENABLE = 1 →
     (∃ t, exec .placementScan s = .next t ∧
       (∀ k, (s.core k).place = none → (t.core k).place ≠ none →
         s.coreFree k = true ∧ (s.cluster (k / 40)).removed = false) ∧
       (∀ cl, (s.cluster cl).layers.length ≤ 4 → (t.cluster cl).layers.length ≤ 4) ∧ t.bt = s.bt ∧ t.tm = s.tm) ∧
     ∀ (n : Nat) (c : Cmd) (l : Layer) (cl : Nat), s.scanOrder = [n] → (s.ctx n).clRecs = [] → s.cmdsOf n = [c] →
       s.cmd? c.q c.seq = some c → c.layers = [l] → l.started = false → s.layerClusters c l = [] →
       let p := s.layerPlan c l
       let w := Nat.min p.jobItems 40
       s.layerReady c l p = true → 0 < s.layerJobs c l p → cl < 256 → s.qualifies c p w cl = true →
       (∀ d, d < cl → s.qualifies c p w d = false) →
       let cores := (s.freeCores cl).take w
       ∃ t, exec .placementScan s = .next t ∧
         t.counter (c.counterOf l) =
           { next := 0, limit := s.layerJobs c l p, done := 0, rq := 0, items := p.jobItems - 1 } ∧
         (t.cluster cl).layers = (s.cluster cl).layers ++
           [{ q := c.q, seq := c.seq, layer := l.ord, counter := c.counterOf l, n := w, cores := cores }] ∧
         (∀ k ∈ cores, t.core k = { ((s.core k).freed.wellsFor c.ctx) with
           place := some { q := c.q, seq := c.seq, layer := l.ord, counter := c.counterOf l, since := s.tm.now } }) ∧
         (s.layerJobs c l p = 1 → (∀ d, d ≠ cl → t.cluster d = s.cluster d) ∧ (∀ k, k ∉ cores → t.core k = s.core k)) ∧
         ((s.clk cl).parked = true → (t.clk cl).parked = false ∧ (t.clk cl).awake = s.tm.now + 4000) ∧
         ((s.ctx n).st = .ready → 0 < w → (t.ctx n).st = .running ∧ (t.ctx n).sliceStart = s.tm.now))

/-- CLAIM (R241, R266 to R268, R271): the oldest reclaim entry first, under its generation; else the next job below the
limit, under generation 0; and with neither the counter is exhausted and stays; then the layer goes on with what it has. A layer
that is not dispatched holds the job. ITEM_COMPLETE of an item whose words, fills and fetches have ended and whose source
boxes can be read (R262, R269, R353): what it makes is put in its homes, one DONE increment leaves, under the item's generation,
and the core stays placed without an item, until its layer goes on. -/
def Obligations.ClaimsAndItems : Prop :=
  (∀ (s : State) (cl : Fin 256) (n : Fin 1024) (l : SeqLayer),
     s.runs cl = true → (s.cluster cl).layers.find? (fun l => l.counter == n.val && s.mayClaim cl l) = some l →
     let x := s.counter n
     let on (u : State) : State := u.goOnHere cl l.q l.seq l.layer
     let same (u : State) : Prop := (∀ k, u.core k = s.core k) ∧ u.tl.traffic = s.tl.traffic ∧ u.cq = s.cq ∧ u.tm = s.tm ∧
       (l.dispatched = false → on u = u)
     (∀ f, s.tl.fences.find? (fun f => f.counter == n.val && f.reclaim) = some f →
       ∃ u : State, exec (.claim cl n) s = .next (on u) ∧ u.counter n = { x with rq := x.rq - 1 } ∧
         u.seqLayer? cl l.q l.seq l.layer = some { l with ahead := l.ahead ++ [{ job := f.job, mask := f.mask, gen := f.gen }] } ∧
         u.tl.fences = claimFence f s.tl.fences ∧
         u.cnt C.SEQ_CNT_RECLAIMED cl = (s.cnt C.SEQ_CNT_RECLAIMED cl + 1) % 2 ^ 64 ∧ same u) ∧
     (s.tl.fences.find? (fun f => f.counter == n.val && f.reclaim) = none → x.next < x.limit →
       ∃ u : State, exec (.claim cl n) s = .next (on u) ∧ u.counter n = { x with next := x.next + 1 } ∧
         (∀ m, m ≠ n.val → u.counter m = s.counter m) ∧
         u.seqLayer? cl l.q l.seq l.layer =
           some { l with ahead := l.ahead ++ [{ job := x.next, mask := 2 ^ (x.items + 1) - 1, gen := 0 }] } ∧
         u.cnt C.SEQ_CNT_JOBS cl = (s.cnt C.SEQ_CNT_JOBS cl + 1) % 2 ^ 64 ∧ u.tl.fences = s.tl.fences ∧ same u) ∧
     (s.tl.fences.find? (fun f => f.counter == n.val && f.reclaim) = none → x.limit ≤ x.next →
       ∃ u : State, exec (.claim cl n) s = .next (on u) ∧ u.tl.counters = s.tl.counters ∧
         u.seqLayer? cl l.q l.seq l.layer = some { l with exhausted := true } ∧ u.tl.fences = s.tl.fences ∧ same u)) ∧
  (∀ (s : State) (core : Fin 10240) (pl : Place) (r : ItemRun) (sl : SeqLayer),
     (s.core core).place = some pl → s.itemRun core = some r → s.seqLayer? (core / 40) pl.q pl.seq pl.layer = some sl →
     s.itemDone core r.item = true →
     (∀ x ∈ s.boxReads r core, s.homePoisoned x.1 x.2 16 = false ∧ s.homeReadable x.1 x.2 16 = true) →
     let k := r.item % Nat.max 1 r.p.jobItems
     let v := (s.finishItem r core).putKvs r.c r.l r.p core r.item
     let last := sl.deal.any (fun d => d.2 = sl.cores.findIdx? (· == core.val) || d.2.isNone) = false
     ∃ u : State, exec (.itemComplete core) s = .next (u.goOnHere (core / 40) pl.q pl.seq pl.layer) ∧
       u.tl.traffic = v.tl.traffic ++ [⟨pl.q, pl.seq, core / 40, pl.counter, pl.job, k, pl.gen, none⟩] ∧
       u.tl.counters = v.tl.counters ∧ u.tm = v.tm ∧ u.cq = v.cq ∧
       (r.p.markAfter pl.job (decide last) = false →
         u.core core = { v.core core with place := some { pl with item := none, due := [], outs := [] } }) ∧
       (r.p.markAfter pl.job (decide last) = true →
         (u.core core).place = some { pl with item := none, due := [], outs := [] } ∧
         (u.core core).queue ++ (u.core core).issue = (v.core core).queue ++ (v.core core).issue ++ [r.p.yieldWord]) ∧
       (∀ j, sl.job = some j → v.seqLayer? (core / 40) pl.q pl.seq pl.layer = some sl →
         u.seqLayer? (core / 40) pl.q pl.seq pl.layer = some { sl with job := some { j with done := Nat.lor j.done (2 ^ k) } }))

/-- DONE_INCREMENT and GAUGE_ADVANCE (R234, R272): one that no fence holds back adds 1 to DONE, or raises the gauge to
the greater value under its generation; a fenced one is discarded, counted and logged grey; an advance of a lower
generation is dropped. -/
def Obligations.TrafficArrives : Prop :=
  ∀ (s : State) (u : Traffic),
    (∀ (cl : Fin 256) (n : Fin 1024) (job item gen : Nat),
      s.tl.traffic.find? (fun t => t.gauge.isNone && t.cl == cl.val && t.counter == n.val && t.job == job &&
        t.item == item && t.gen == gen) = some u → s.runs (272 + n / 256) = true →
      (s.stale u = false → ∃ t, exec (.doneIncrement cl n job item gen) s = .next t ∧
        (t.counter n).done = (s.counter n).done + 1 ∧ (t.counter n).next = (s.counter n).next ∧
        (∀ m, m ≠ n.val → t.counter m = s.counter m) ∧ t.tl.gauges = s.tl.gauges ∧ t.tm = s.tm) ∧
      (s.stale u = true → ∃ t, exec (.doneIncrement cl n job item gen) s = .next t ∧
        t.tl = { s.tl with traffic := s.tl.traffic.erase u } ∧ t.fld F.SEQ_STATUS.FENCED cl = 1 ∧
        t.cnt C.PDIE_CNT_FENCED (n / 256) = (s.cnt C.PDIE_CNT_FENCED (n / 256) + 1) % 2 ^ 64 ∧
        Raised s t 0x2003 0 (n / 256) ∧ t.cq = s.cq ∧ t.mm = s.mm)) ∧
    (∀ (g : Fin 65536) (v : BitVec 24) (gen : Byte) (n : Fin 1024) (job item : Nat),
      s.tl.traffic.find? (fun t => t.gauge = some (g.val, v.toNat) && t.counter == n.val && t.job == job &&
        t.item == item && t.gen == gen.toNat) = some u → s.runs (272 + g / 16384) = true →
      (s.stale u = false → (s.gauge g).gen ≤ gen.toNat →
        ∃ t, exec (.gaugeAdvance g v gen n job item) s = .next t ∧
          t.gauge g = { value := Nat.max (s.gauge g).value v.toNat, gen := gen.toNat } ∧
          (∀ m, m ≠ g.val → t.gauge m = s.gauge m) ∧ t = { s with tl.traffic := t.tl.traffic, tl.gauges := t.tl.gauges }) ∧
      (s.stale u = false → gen.toNat < (s.gauge g).gen →
        ∃ t, exec (.gaugeAdvance g v gen n job item) s = .next t ∧ t = { s with tl.traffic := s.tl.traffic.erase u }) ∧
      (s.stale u = true → ∃ t, exec (.gaugeAdvance g v gen n job item) s = .next t ∧
        t.tl = { s.tl with traffic := s.tl.traffic.erase u } ∧ Raised s t 0x2003 0 (g / 16384)))

/-- CREATE and DESTROY (R412, R413): RESULT says how it ended; a context destroyed owns no granule and no module. -/
def Obligations.Contexts : Prop :=
  ∀ (s : State) (r : Requester), Writable s 0x01 0 r →
    let n := s.fld F.SCHED_CTX_SEL.CONTEXT
    (∃ t, exec (.create r) s = .next t ∧ (t.ctx n).exist = true ∧
      t.fld F.SCHED_CTX_OP.RESULT = (if (s.ctx n).exist then 2 else 0) ∧ (∀ m, m ≠ n → t.ctx m = s.ctx m) ∧
      FieldsBut s t [fieldKey F.SCHED_CTX_OP.RESULT 0 0] ∧ t = { s with rg := t.rg, sc.ctxs := t.sc.ctxs }) ∧
    ((s.ctx n).exist = false → ∃ t, exec (.destroy r) s = .next t ∧ t.fld F.SCHED_CTX_OP.RESULT = 3 ∧
      FieldsBut s t [fieldKey F.SCHED_CTX_OP.RESULT 0 0] ∧ OnlyRegs s t) ∧
    ((s.ctx n).exist = true → (s.cq.queues.any (fun q => q.2.enabled && q.2.ctx = n) = true ∨ s.cmdsOf n ≠ []) →
      ∃ t, exec (.destroy r) s = .next t ∧ t.fld F.SCHED_CTX_OP.RESULT = 1 ∧
        FieldsBut s t [fieldKey F.SCHED_CTX_OP.RESULT 0 0] ∧ OnlyRegs s t) ∧
    ((s.ctx n).exist = true → s.cq.queues.any (fun q => q.2.enabled && q.2.ctx = n) = false → s.cmdsOf n = [] → n < 4096 →
      ∃ t, exec (.destroy r) s = .next t ∧ t.fld F.SCHED_CTX_OP.RESULT = 0 ∧ t.ctx n = {} ∧
        (∀ k, look 0xFFFE t.mm.owners k ≠ n) ∧ (∀ m, m < 16 → t.fld F.CIS_OWNER.CONTEXT m ≠ n))

/-- SLICE_END and SLICE_OVERRUN (R422 to R427): a slice that has passed yields where R423 says so and the save pool
holds the worst case; with a pool that is short, or nobody to yield for, it begins anew; after the grace a context
that still yields has overrun. CORE_RELEASE (R421, R425): a core whose share of the layer has ended, or that has
saved, or that stands at its mark under yield-pending without an item (log 43), is free; a record saved is kept and counted. -/
def Obligations.SlicesAndReleases : Prop :=
  (∀ (s : State) (n : Fin 4096), s.runs 313 = true →
     let x := s.ctx n
     (x.st = .running → x.sliceStart + x.sliceLen ≤ s.tm.now →
       (s.othersWait n = false → s.outWaits = false → ∃ t, exec (.sliceEnd n) s = .next t ∧ (t.ctx n).st = .running ∧
         (t.ctx n).sliceStart = s.tm.now ∧ t.cq = s.cq ∧ t.tl = s.tl ∧ t.mm = s.mm) ∧
       (s.othersWait n = true ∨ s.outWaits = true → s.poolFree < s.worstSave n →
         ∃ t, exec (.sliceEnd n) s = .next t ∧ (t.ctx n).st = .running ∧ (t.ctx n).sliceStart = s.tm.now ∧
           t.fld F.SCHED_INT_STATUS.POOL_SHORT = 1 ∧ Raised s t 0x0102 0 0 ∧ t.cq = s.cq ∧ t.tl = s.tl ∧ t.mm = s.mm) ∧
       (s.othersWait n = true ∨ s.outWaits = true → s.worstSave n ≤ s.poolFree →
         ∃ t, exec (.sliceEnd n) s = .next t ∧ (t.ctx n).st = .yielding ∧ (t.ctx n).yieldSince = s.tm.now ∧
           (t.ctx n).swapping = s.outWaits ∧ t.cq = s.cq)) ∧
     (x.st = .yielding → x.overran = false →
       x.yieldSince + Nat.max 1 (s.fld F.SCHED_GRACE.US) * 1000 ≤ s.tm.now →
       ∃ t, exec (.sliceOverrun n) s = .next t ∧ (t.ctx n).overran = true ∧ (t.ctx n).st = .yielding ∧
         t.fld F.SCHED_INT_STATUS.OVERRUN = 1 ∧ Raised s t 0x0101 0 0 ∧
         (∀ c ∈ t.cq.cmds, c.ctx = n.val → s.coresOf c.q c.seq ≠ [] → bit c.cflags 5 = true) ∧ t.tl = s.tl ∧ t.mm = s.mm)) ∧
  (∀ (s : State) (core : Fin 10240) (p : Place) (ctx : Nat), (s.core core).place = some p → s.coreCtx core = some ctx →
     s.runs (core / 40) = true →
     ((s.core core).ended = true → (s.core core).saving = none →
       ∃ t, exec (.coreRelease core) s = .next t ∧ (t.core core).place = none ∧ (t.core core).queue = [] ∧
         t.cnt C.SCHED_CNT_YIELDS = s.cnt C.SCHED_CNT_YIELDS ∧ t.tm = s.tm) ∧
     (∀ r, (s.core core).saving = some r →
       ∃ t, exec (.coreRelease core) s = .next t ∧ (t.core core).place = none ∧ (t.core core).saving = none ∧
         t.cnt C.SCHED_CNT_YIELDS = (s.cnt C.SCHED_CNT_YIELDS + 1) % 2 ^ 64 ∧ t.tm = s.tm ∧
         (∀ c l, s.cmd? p.q p.seq = some c → l ∈ c.layers → l.ord = p.layer → l.ended = false →
           r.q = p.q → r.seq = p.seq → r.layer = p.layer → ∃ x ∈ (t.ctx ctx).saved, x = { r with at_ := x.at_ })) ∧
     ((s.core core).ended = false → (s.core core).saving = none → s.idleYields core ctx p = true →
       ∃ t, exec (.coreRelease core) s = .next t ∧ (t.core core).place = none ∧
         t.cnt C.SCHED_CNT_YIELDS = (s.cnt C.SCHED_CNT_YIELDS + 1) % 2 ^ 64 ∧ t.tm = s.tm))

/-- Swapping (R429 to R433): the context blocked longest is saved when another waits for a slot and none is free; when
all is saved its slot is free and its cluster stores are moved out; the one that waits longest takes a free slot;
loading ends when the clusters of its stores are free. -/
def Obligations.Swaps : Prop :=
  ∀ s : State, s.runs 313 = true →
    (∀ n, s.sc.ctxs.any (fun c => c.2.st == .outReady) = true → s.freeSlot = none →
      longest ((s.sc.ctxs.filter (fun c => c.2.slot.isSome && c.2.st == .blocked)).map (fun c => (c.1, c.2.blockedSince))) = some n →
      ∃ t, exec .swapOut s = .next t ∧ (t.ctx n).st = .saving ∧ (∀ m, m ≠ n → t.ctx m = s.ctx m) ∧
        t = { s with sc.ctxs := t.sc.ctxs }) ∧
    (∀ n : Fin 4096, (s.ctx n).st = .saving →
      ∃ t, exec (.saveComplete n) s = .next t ∧ (t.ctx n).slot = none ∧
        ((t.ctx n).st = .out ∨ (t.ctx n).st = .outReady ∨ (t.ctx n).st = .absent) ∧
        (∀ cl ∈ s.ctxStores n, (t.cluster cl).store = [] ∧ (t.cluster cl).owner = none) ∧
        t.cnt C.SCHED_CNT_SWAPS = (s.cnt C.SCHED_CNT_SWAPS + 1) % 2 ^ 64 ∧ t.fld F.SCHED_INT_STATUS.SWAP = 1 ∧
        t.cq = s.cq ∧ t.mm.owners = s.mm.owners ∧
        (∀ a, a < s.poolBase ∨ s.poolBase + s.poolBytes ≤ a → rdByte t.mm.dev a = rdByte s.mm.dev a)) ∧
    (∀ slot n, s.freeSlot = some slot →
      longest ((s.sc.ctxs.filter (fun c => c.2.st == .outReady)).map (fun c => (c.1, c.2.waitSince))) = some n →
      ∃ t, exec .swapIn s = .next t ∧ (t.ctx n).st = .loading ∧ (t.ctx n).slot = some slot ∧
        (∀ m, m ≠ n → t.ctx m = s.ctx m) ∧ t = { s with sc.ctxs := t.sc.ctxs }) ∧
    (∀ n : Fin 4096, (s.ctx n).st = .loading → (s.ctx n).clRecs.Pairwise (fun a b => a.1 ≠ b.1) →
      (s.ctx n).clRecs.any (fun r => r.2.owner.isSome && (s.cluster r.1).owner.isSome) = false →
      ∃ t, exec (.restoreComplete n) s = .next t ∧
        ((t.ctx n).st = .ready ∨ (t.ctx n).st = .blocked ∨ (t.ctx n).st = .absent) ∧
        (∀ r ∈ (s.ctx n).clRecs, r.2.owner ≠ none → (t.cluster r.1).owner = r.2.owner ∧ (t.cluster r.1).store = r.2.store) ∧
        t.fld F.SCHED_INT_STATUS.SWAP = 1 ∧ t.cq = s.cq ∧ t.mm = s.mm)

/-- HBM_UE (R305, R307): the fault register, the count and a red error name the pseudo-channel; a second unit of it
within a second retires it, or with another retired takes the stack out of service. CACHE_UE (R579), with no access
held and no reset running: a red error names the slice; in the system area a recovery reset restores it, in the weight
window the image that holds the unit waits for a grant again, its layer for its image, and the items that read it are dealt
again. -/
def Obligations.MemoryErrors : Prop :=
  (∀ (s : State) (i : Fin 12) (a : BitVec 36), s.tm.power ≠ .off → (s.stack i).offline = false →
     let pc := pcOf (i * 2 ^ 36 + a.toNat)
     let y : Stack := { s.stack i with ues := (s.stack i).ues ++ [(pc, unitIndex a.toNat, s.tm.now)] }
     let again := 2 ≤ (y.recentUes pc s.tm.now).length
     ∃ t, exec (.hbmUe i a) s = .next t ∧ t.fld F.HBMC_FAULT.PC i = pc ∧ t.fld F.HBMC_FAULT.KIND i = 1 ∧
       Raised s t 0x2102 2 i ∧ t.tm = s.tm ∧ t.bt = s.bt ∧
       (¬ again → (t.stack i).retired = (s.stack i).retired ∧ (t.stack i).offline = false ∧
         t.cnt C.HBMC_CNT_UE i = (s.cnt C.HBMC_CNT_UE i + 1) % 2 ^ 64) ∧
       (again → (s.stack i).retired = [] → (t.stack i).retired = [pc] ∧ t.fld F.HBMC_STATUS.RETIRED i = 1 ∧
         t.fld F.HBMC_STATUS.RETIRED_PC i = pc ∧ t.fld F.HBMC_INT_STATUS.PC_RETIRED i = 1 ∧ Raised s t 0x2103 2 i) ∧
       (again → (s.stack i).retired ≠ [] → pc ∉ (s.stack i).retired →
         (t.stack i).offline = true ∧ t.fld F.HBMC_STATUS.OFFLINE i = 1 ∧ Raised s t 0x2104 3 i)) ∧
  (∀ (s : State) (p : Fin 4) (off : Fin 100663296), s.tm.power = .active → s.rs.run = none → s.st.held = [] →
     (s.fld F.PDIE_SYS.SIZE p * 65536 ≤ off →
       let u := (p * 2 ^ 27 + off.val) / 64
       let quarter := (s.windowQuarter p).1 ≤ off ∧ off < (s.windowQuarter p).1 + (s.windowQuarter p).2
       (¬ quarter → ∃ t, exec (.cacheUe p off) s = .next t ∧ Raised s t 0x2002 2 p ∧ t.tm = s.tm ∧
         (s.cq.cmds = [] → (∀ v ∈ s.loggedVers ++ s.readVers, rangeHit (fun home x => home = 1 && x = u / 4) v.range = false) →
           u ∈ t.mm.poisonShared ∧ t.mm.dev = s.mm.dev ∧ t.mm.shared = s.mm.shared ∧ SameWork s t)) ∧
       (quarter → s.windowAt p off = none → ∃ t, exec (.cacheUe p off) s = .next t ∧ Raised s t 0x2002 2 p ∧
         u ∉ t.mm.poisonShared ∧ t.mm.window = s.mm.window ∧ t.mm.dev = s.mm.dev ∧ t.tm = s.tm ∧ SameWork s t) ∧
       (∀ w, quarter → s.windowAt p off = some w →
         ∃ v : State, exec (.cacheUe p off) s = .next (v.redealReaders w) ∧ Raised s v 0x2002 2 p ∧
           u ∉ v.mm.poisonShared ∧ v.mm.dev = s.mm.dev ∧ v.tl = s.tl ∧ v.tm = s.tm ∧
           v.mm.window = s.mm.window.map (fun x => if x = w then { w with granted := false } else x) ∧
           (∀ c, s.cmd? w.q w.seq = some c → v.cmd? w.q w.seq = some { c with
             layers := c.layers.map (fun l => if l.ord = w.layer then { l with windowReady := false } else l) }) ∧
           ((∀ k ∈ s.coresOf w.q w.seq, ∀ x ∈ (s.core k).place, x.layer ≠ w.layer ∨ x.item = none) →
             v.redealReaders w = v))) ∧
     (off < s.fld F.PDIE_SYS.SIZE p * 65536 →
       ∃ t, exec (.cacheUe p off) s = .next t ∧ t.tm.power = .resetting ∧ t.fld F.RST_CAUSE.CAUSE = 3 ∧
         (∃ x, t.rs.run = some x ∧ x.recovery = true)))

/-- UNIT_RELEASE (R299, R300, R353, R407): the oldest read of a pseudo-channel puts its bytes in the core store that
asked for them; one of a line that the host holds modified recalls the line first and waits. -/
def Obligations.UnitReads : Prop :=
  ∀ (s : State) (i : Fin 12) (pc : Fin 64) (r : UnitRead), s.retraining i pc = false → s.tm.power = .active →
    (s.stack i).offline = false → (s.stack i).reads.find? (fun r => r.pc = pc.val) = some r →
    (s.readable r.addr r.len = true → s.poisoned r.addr r.len = false →
      ∃ t, exec (.unitRelease i pc) s = .next t ∧
        rdBytes (t.core r.core).store r.dest r.len = r.deliver (s.devRead r.addr r.len) ∧
        (∀ a, a < r.dest ∨ r.dest + r.len ≤ a → rdByte (t.core r.core).store a = rdByte (s.core r.core).store a) ∧
        (t.core r.core).wells = (s.core r.core).wells ∧ (∀ k, k ≠ r.core → t.core k = s.core k) ∧
        (t.stack i).reads = (s.stack i).reads.erase r ∧ t.mm.dev = s.mm.dev ∧ t.rg.fields = s.rg.fields ∧ t.cq = s.cq) ∧
    (s.readable r.addr r.len = false →
      ∃ t, exec (.unitRelease i pc) s = .next t ∧
        (∃ u ∈ units64 r.addr r.len, ∃ h, s.held? u = some h ∧ h.modified = true ∧
          t.hl.recalls.any (fun x => x.line == u) = true) ∧
        (t.stack i).reads = (s.stack i).reads ∧ t.tl = s.tl ∧ t.mm.dev = s.mm.dev ∧ t.cq = s.cq)

/-- RETRAIN and its end (R301, R307): channel c of stack s begins when the time base modulo 32 ms is c ms and s × 80
µs, and ends after 1 µs; it is counted when both pseudo-channels pass, one that fails is retired, and with both failing the stack is out of service. TEMPERATURE_READ
and REFRESH_INTERVAL (R302, R304): the reading is shown, its step follows the thresholds with 3 °C of hysteresis and
comes into force at an interval boundary; 105 °C is a black error. -/
def Obligations.StackMaintenance : Prop :=
  (∀ (s : State) (i : Fin 12),
     (∀ ch : Fin 32, s.tm.power = .active → s.tm.now % 32000000 = ch * 1000000 + i * 80000 →
       s.fld F.HBMC_STATUS.RETRAINING i = 0 →
       ∃ t, exec (.retrain i ch) s = .next t ∧ t.fld F.HBMC_STATUS.RETRAINING i = 1 ∧ t.fld F.HBMC_STATUS.RETRAIN_CH i = ch.val ∧
         (t.stack i).retrainFrom = some s.tm.now ∧
         FieldsBut s t [fieldKey F.HBMC_STATUS.RETRAINING i 0, fieldKey F.HBMC_STATUS.RETRAIN_CH i 0] ∧
         t = { s with rg := t.rg, mm.hbm := t.mm.hbm }) ∧
     (∀ e, (s.stack i).retrainFrom = some e → e + 1000 ≤ s.tm.now →
       (∃ t, exec (.retrainEnd i true true) s = .next t ∧ t.fld F.HBMC_STATUS.RETRAINING i = 0 ∧
         (t.stack i).retrainFrom = none ∧ t.cnt C.HBMC_CNT_RETRAIN i = (s.cnt C.HBMC_CNT_RETRAIN i + 1) % 2 ^ 64 ∧
         FieldsBut s t [fieldKey F.HBMC_STATUS.RETRAINING i 0] ∧ t = { s with rg := t.rg, mm.hbm := t.mm.hbm }) ∧
       ((s.stack i).retired = [] → s.fld F.HBMC_STATUS.RETRAIN_CH i < 32 →
         (∃ t, exec (.retrainEnd i false true) s = .next t ∧ t.fld F.HBMC_STATUS.RETRAINING i = 0 ∧
           (t.stack i).retired = [2 * s.fld F.HBMC_STATUS.RETRAIN_CH i] ∧ t.fld F.HBMC_FAULT.KIND i = 2 ∧
           t.fld F.HBMC_STATUS.RETIRED i = 1 ∧ Raised s t 0x2103 2 i ∧
           t.cnt C.HBMC_CNT_RETRAIN i = s.cnt C.HBMC_CNT_RETRAIN i) ∧
         (∃ t, exec (.retrainEnd i true false) s = .next t ∧ t.fld F.HBMC_STATUS.RETRAINING i = 0 ∧
           (t.stack i).retired = [2 * s.fld F.HBMC_STATUS.RETRAIN_CH i + 1] ∧ t.fld F.HBMC_FAULT.KIND i = 2 ∧
           t.fld F.HBMC_STATUS.RETIRED i = 1 ∧ Raised s t 0x2103 2 i) ∧
         ∃ t, exec (.retrainEnd i false false) s = .next t ∧ (t.stack i).retired = [2 * s.fld F.HBMC_STATUS.RETRAIN_CH i] ∧
           (t.stack i).offline = true ∧ t.fld F.HBMC_STATUS.OFFLINE i = 1 ∧ Raised s t 0x2104 3 i))) ∧
  (∀ (s : State) (i : Fin 12), s.tm.power ≠ .off →
     (∀ c : Byte, ∃ t, exec (.temperatureRead i c) s = .next t ∧ t.fld F.HBMC_TEMP.TEMP i = c.toNat ∧
       (t.stack i).reading = c.toNat ∧ (t.stack i).stepInForce = (s.stack i).stepInForce ∧
       (95 ≤ c.toNat → 3 ≤ (t.stack i).tempStep) ∧ (c.toNat ≤ 72 → (t.stack i).tempStep = 0) ∧
       (75 ≤ c.toNat → c.toNat ≤ 82 → (t.stack i).tempStep = 1) ∧
       (105 ≤ c.toNat → Raised s t 0x2105 3 i ∧ t.er.thermN = false) ∧
       FieldsBut s t [fieldKey F.HBMC_TEMP.TEMP i 0] ∧ SameWork s t ∧ t.mm.dev = s.mm.dev) ∧
     (let step := Nat.max (s.stack i).tempStep (s.fld F.HBMC_REF_CFG.MIN_STEP i)
      s.tm.now % 3900 = 0 → step < 4 → step ≠ (s.stack i).stepInForce →
       ∃ t, exec (.refreshInterval i) s = .next t ∧ (t.stack i).stepInForce = step ∧ t.fld F.HBMC_TEMP.STEP i = step ∧
         t.fld F.HBMC_INT_STATUS.STEP_CHANGE i = 1 ∧ Raised s t 0x2107 0 i ∧
         FieldsBut s t [fieldKey F.HBMC_TEMP.STEP i 0, fieldKey F.HBMC_INT_STATUS.STEP_CHANGE i 0] ∧ SameWork s t))

/-- GRANT (R310, R311, R574), with OWN_OP holding it and the page idle: BAD_RANGE, IN_USE, done at once, or zeroing
first. -/
def Obligations.Grants : Prop :=
  ∀ (s : State) (r : Requester) (p : OwnPage), Writable s (ownCls p) (ownInst p) r →
    s.fld (F.OWN_OP.OP (ownCls p)) (ownInst p) = 1 → s.fld (F.OWN_STATUS.BUSY (ownCls p)) (ownInst p) ≠ 1 →
    let ks := ownKeys p (s.ownFirst p) (s.ownN p)
    let zero := s.mustZero p (s.ownFirst p) (s.ownN p) (s.ownCtx p)
    (s.ownBad p (s.ownN p) = true → ∃ t, exec (.grant r p) s = .next t ∧
      t.fld (F.OWN_STATUS.RESULT (ownCls p)) (ownInst p) = 1 ∧ t.mm = s.mm ∧ SameWork s t) ∧
    (s.ownBad p (s.ownN p) = false → (∃ k ∈ ks, s.ownerOf k ≠ 0xFFFE) → ∃ t, exec (.grant r p) s = .next t ∧
      t.fld (F.OWN_STATUS.RESULT (ownCls p)) (ownInst p) = 2 ∧ t.mm = s.mm ∧ SameWork s t) ∧
    (s.ownBad p (s.ownN p) = false → (∀ k ∈ ks, s.ownerOf k = 0xFFFE) → zero = [] → ∃ t, exec (.grant r p) s = .next t ∧
      t.fld (F.OWN_STATUS.RESULT (ownCls p)) (ownInst p) = 0 ∧
      t.fld (F.OWN_STATUS.BUSY (ownCls p)) (ownInst p) = 0 ∧ (∀ k ∈ ks, t.ownerOf k = s.ownCtx p) ∧
      (∀ k, k ∉ ks → t.ownerOf k = s.ownerOf k) ∧ t.mm.dev = s.mm.dev ∧ SameWork s t) ∧
    (s.ownBad p (s.ownN p) = false → (∀ k ∈ ks, s.ownerOf k = 0xFFFE) → zero ≠ [] → ∃ t, exec (.grant r p) s = .next t ∧
      t.fld (F.OWN_STATUS.BUSY (ownCls p)) (ownInst p) = 1 ∧ t.fld (F.OWN_STATUS.ZEROING (ownCls p)) (ownInst p) = 1 ∧
      t.mm.owners = s.mm.owners ∧ t.mm.granting = s.mm.granting ++
        [{ page := ownCode p, first := s.ownFirst p, count := s.ownN p, ctx := s.ownCtx p }] ∧ SameWork s t)

/-- ZERO_DONE (R311, R313): every granule that had another owner reads zero, no other byte of HBM changes, the owner
is written and the operation completes; with no line of them held by the host. REVOKE, QUERY and the effect of a
deferred REVOKE (R310, R312): granules of another owner are refused; those that an accepted command names are revoked
when no command names them; QUERY tells the owner. -/
def Obligations.ZeroingAndRevokes : Prop :=
  (∀ (s : State) (i : Fin 12) (g : Granting), s.mm.granting.find? (fun g => g.page == i.val) = some g → s.tm.power ≠ .off →
     let gs := s.mustZero (.stack i) g.first g.count g.ctx
     s.heldIn (.stack i) gs = [] →
     ∃ t, exec (.zeroDone (.stack i)) s = .next t ∧
       (∀ x ∈ gs, ∀ k, k < 2 ^ 21 → rdByte t.mm.dev (granuleAddr i x + k) = 0) ∧
       (∀ a, (∀ x ∈ gs, a < granuleAddr i x ∨ granuleAddr i x + 2 ^ 21 ≤ a) → rdByte t.mm.dev a = rdByte s.mm.dev a) ∧
       (∀ k ∈ ownKeys (.stack i) g.first g.count, t.ownerOf k = g.ctx) ∧
       t.fld (F.OWN_STATUS.BUSY 0x21) i = 0 ∧ t.fld (F.OWN_STATUS.ZEROING 0x21) i = 0 ∧
       t.fld (F.OWN_STATUS.RESULT 0x21) i = 0 ∧ t.fld F.HBMC_INT_STATUS.ZERO_DONE i = 1 ∧
       t.fld F.HBMC_INT_STATUS.OWN_DONE i = 1 ∧ t.mm.granting = s.mm.granting.erase g ∧ SameWork s t) ∧
  (∀ (s : State) (p : OwnPage),
     let ks := ownKeys p (s.ownFirst p) (s.ownN p)
     (∀ r : Requester, Writable s (ownCls p) (ownInst p) r → s.fld (F.OWN_STATUS.BUSY (ownCls p)) (ownInst p) ≠ 1 →
       (s.fld (F.OWN_OP.OP (ownCls p)) (ownInst p) = 2 → s.ownBad p (s.ownN p) = false →
         ((∃ k ∈ ks, s.ownerOf k ≠ s.ownCtx p) → ∃ t, exec (.revoke r p) s = .next t ∧
           t.fld (F.OWN_STATUS.RESULT (ownCls p)) (ownInst p) = 3 ∧ t.mm = s.mm ∧ SameWork s t) ∧
         ((∀ k ∈ ks, s.ownerOf k = s.ownCtx p) → s.inUse ks = true → ∃ t, exec (.revoke r p) s = .next t ∧
           t.fld (F.OWN_STATUS.RESULT (ownCls p)) (ownInst p) = 0 ∧
           t.fld (F.OWN_STATUS.DEFERRED (ownCls p)) (ownInst p) = 1 ∧ t.mm.owners = s.mm.owners ∧ SameWork s t) ∧
         ((∀ k ∈ ks, s.ownerOf k = s.ownCtx p) → s.inUse ks = false → ∃ t, exec (.revoke r p) s = .next t ∧
           t.fld (F.OWN_STATUS.RESULT (ownCls p)) (ownInst p) = 0 ∧ (∀ k ∈ ks, t.ownerOf k = 0xFFFE) ∧
           (∀ k, k ∉ ks → t.ownerOf k = s.ownerOf k) ∧ t.mm.dev = s.mm.dev ∧ SameWork s t)) ∧
       (s.fld (F.OWN_OP.OP (ownCls p)) (ownInst p) = 3 → s.ownBad p 1 = false → s.ownerOf (ownKey p (s.ownFirst p)) < 2 ^ 16 →
         ∃ t, exec (.query r p) s = .next t ∧ t.ownCtx p = s.ownerOf (ownKey p (s.ownFirst p)) ∧
           t.fld (F.OWN_STATUS.RESULT (ownCls p)) (ownInst p) = 0 ∧ t.mm = s.mm ∧ SameWork s t)) ∧
     (∀ g ∈ s.mm.revokes, g.page = ownCode p → s.inUse (ownKeys p g.first g.count) = false →
       ∃ t, exec (.revokeEffect p) s = .next t ∧ g ∉ t.mm.revokes ∧
         (∀ k ∈ ownKeys p g.first g.count, t.ownerOf k = 0xFFFE) ∧
         t.fld (F.OWN_STATUS.DEFERRED (ownCls p)) (ownInst p) = b2n (t.mm.revokes.any (fun g => g.page == ownCode p)) ∧
         t.mm.dev = s.mm.dev ∧ SameWork s t))

/-- ENABLE, DISABLE and RESET_SEQ of the selected queue (R379, R412, R550, R551): the result codes in their order; a
queue enabled keeps its position; one disabled takes no more slots and drains; a reset sequence loses the position. -/
def Obligations.QueueOperations : Prop :=
  ∀ (s : State) (r : Requester), Writable s 0x03 0 r →
    let n := s.fld F.Q_SEL.QUEUE
    let q := s.queue n
    (∀ host : List (Nat × Byte),
      let desc := (s.hostGives host).hostBytes (s.fld F.Q_TABLE_HI.BASE * 2 ^ 32 + s.fld F.Q_TABLE_LO.BASE * 4096 + 64 * n) 64
      let code : Nat := if q.enabled ∨ q.draining then 4 else if badQueueDesc desc then 1
        else if !(s.ctx (field desc 0x1C 2)).exist then 2 else if s.clientClash desc then 3 else 0
      ∃ t, exec (.enable r host) s = .next t ∧ t.fld F.Q_OP.RESULT = code ∧ t.mm = s.mm ∧ t.cq.cmds = s.cq.cmds ∧
        FieldsBut s t [fieldKey F.Q_OP.RESULT 0 0] ∧ (∀ m, m ≠ n → t.queue m = s.queue m) ∧
        (code ≠ 0 → t = { s with rg := t.rg, hl.hostMem := t.hl.hostMem }) ∧
        (code = 0 → (t.queue n).enabled = true ∧ (t.queue n).draining = false ∧ (t.queue n).desc = desc ∧
          (t.ctx (field desc 0x1C 2)).client.isSome = true ∧
          ∀ p, q.position = some p → s.tm.power ≠ .minimal →
            (t.queue n).position = some p ∧ (t.queue n).tail = p.2 ∧ (t.queue n).asked = p.2)) ∧
    (∃ t, exec (.disable r) s = .next t ∧ t.fld F.Q_OP.RESULT = 0 ∧ FieldsBut s t [fieldKey F.Q_OP.RESULT 0 0] ∧
      t = { s with rg := t.rg, cq := t.cq } ∧ t.cq.cmds = s.cq.cmds ∧ (∀ m, m ≠ n → t.queue m = s.queue m) ∧
      (q.enabled = false → t.cq = s.cq) ∧
      (q.enabled = true → t.queue n = { q with
        enabled := false, inHand := [], tail := q.next, asked := q.next
        draining := !(s.cq.cmds.all (fun c => c.q ≠ n) && q.done.isEmpty) })) ∧
    (∃ t, exec (.resetSeq r) s = .next t ∧ FieldsBut s t [fieldKey F.Q_OP.RESULT 0 0] ∧
      (q.enabled = true ∨ q.draining = true → t.fld F.Q_OP.RESULT = 4 ∧ OnlyRegs s t) ∧
      (q.enabled = false → q.draining = false → t.fld F.Q_OP.RESULT = 0 ∧
        t = { s with rg := t.rg, cq.queues := t.cq.queues } ∧ t.queue n = { q with position := none, done := [] } ∧
        ∀ m, m ≠ n → t.queue m = s.queue m))

/-- RUN, MOVE, CHECKPOINT, REDUCE, BARRIER, OPEN, STEP, FORK, PRUNE and CLOSE (R31, R32, R380, R390, R391): the
queue's next record is taken; one that the acceptance check passes is journalled and is a command in hand, and the check of its
image is kept (R252); one that fails it leaves nothing but its completion record, with the status of the check. -/
def Obligations.Acceptance : Prop :=
  ∀ (s : State) (k : Kind) (n : Fin 4096) (r : List Byte), s.engineRuns = true → s.takesFrom n = true →
    s.nextRecord n = some r → recKind r = some k →
    let q := s.queue n
    let d (f : Fail) : Done := { seq := q.next, tag := recTag r, time := s.tm.now, detail := f.detail, status := f.code
                                 intr := recIntr r && q.intr }
    (s.refusal q.ctx r = none →
      ∃ t, exec (kindCommand k n) s = .next t ∧
        t.cq.cmds = s.cq.cmds ++ [{ q := n, seq := q.next, ctx := q.ctx, client := q.client, kind := k, rec_ := r
                                    acceptedAt := s.tm.now, cflags := if q.again.contains q.next then 9 else 1 }] ∧
        (t.queue n).position = some (q.oldest, seqAfter q.next 1) ∧ (t.queue n).done = q.done ∧
        (∃ h ∈ t.hl.hwr, h.what = .journal n q.next) ∧
        t.cnt C.Q_CNT_ACCEPTED = (s.cnt C.Q_CNT_ACCEPTED + 1) % 2 ^ 64 ∧ (∀ i ∈ s.imageKey r, i ∈ t.cq.checked) ∧ t.wh = s.wh ∧ t.kv = s.kv ∧ t.tl = s.tl) ∧
    (∀ f, s.refusal q.ctx r = some f →
      ∃ t, exec (kindCommand k n) s = .next t ∧ t.cq.cmds = s.cq.cmds ∧
        (t.queue n).position = some (q.oldest, seqAfter q.next 1) ∧ (t.queue n).done = q.done ++ [d f] ∧
        t.cnt C.Q_CNT_REFUSED = (s.cnt C.Q_CNT_REFUSED + 1) % 2 ^ 64 ∧ t.cq.checked = s.cq.checked ∧ t.wh = s.wh ∧ t.kv = s.kv ∧ t.tl = s.tl ∧
        t.sc = s.sc ∧ t.mm = s.mm ∧ t.rg.fields = s.rg.fields)

/-- COMMAND_START, WINDOW_GRANT and REDUCTION_DONE (R320 to R323, R327, R328, R383 to R385, R395, R414): a command that
something keeps from starting is held; a BARRIER and a move complete their outputs; a RUN runs its layers; the oldest
request of the weight window is granted, of a RUN and of a STEP, at the place that log 119 gives it; a reduction stages its
sum. -/
def Obligations.CommandStarts : Prop :=
  ∀ s : State, s.runs 313 = true →
    (∀ (q : Fin 4096) (seq : W32) (c : Cmd), s.cmd? q seq.toNat = some c → s.queueRuns c.q = true → c.stage = .waiting →
      c.wellhead = false → s.resident c.ctx = true → c.hold ≠ some .rederive → s.inputsReadable (s.usesOf c.rec_) = true →
      (∀ h, s.startHold c = some h →
        ∃ t, exec (.commandStart q seq) s = .next t ∧ t.cmd? q seq.toNat =
          some { c with hold := some h, since := if c.hold = some h then c.since else s.tm.now } ∧
          t.kv = s.kv ∧ t.wh = s.wh ∧ t.tl = s.tl) ∧
      (s.startHold c = none → c.kind = .barrier → recKind c.rec_ = some .barrier →
        ∃ t x, exec (.commandStart q seq) s = .next t ∧ t.cmd? q seq.toNat = some x ∧ x.stage = .staged ∧ x.hold = none ∧
          x.begun = true ∧ t.kv = s.kv ∧ t.wh = s.wh ∧ t.tl = s.tl) ∧
      (s.startHold c = none → c.kind = .run → (c.hold = none ∨ s.fld F.TRC_CFG.ENABLE = 0) →
        (inputsOf (s.usesOf c.rec_)).any s.isLost = false →
        Config.imagePlans (s.runImage c).desc (s.runImage c).version (runSegment c) ≠ [] →
        ∃ t x, exec (.commandStart q seq) s = .next t ∧ t.cmd? q seq.toNat = some x ∧ x.stage = .running ∧ x.hold = none ∧
          x.begun = true ∧ x.descs = s.usesOf c.rec_ ∧
          x.layers.map (fun l => l.plan) = Config.imagePlans (s.runImage c).desc (s.runImage c).version (runSegment c)) ∧
      (∀ src dst raw, s.startHold c = none → (c.kind = .move ∨ c.kind = .checkpoint) → s.fld F.TRC_CFG.ENABLE = 0 →
        s.hl.filter = [] → s.hl.recalls = [] → s.usesOf c.rec_ = [src, dst] → src.out = false → dst.out = true → s.isLost src = false →
        (descOf src.img).home < 2 → (descOf dst.img).home < 2 →
        s.homePoisoned (descOf src.img).home (descOf src.img).addr (descOf src.img).storedLen = false →
        (descOf src.img).expand
          (s.homeRead (descOf src.img).home (descOf src.img).addr (descOf src.img).storedLen) = some raw →
        let e := descOf dst.img
        let o := if e.home = 1 then (raw, 0) else storeAs e.compress raw
        o.1.length ≤ e.allocLen →
        ∃ t x, exec (.commandStart q seq) s = .next t ∧ t.cmd? q seq.toNat = some x ∧ x.stage = .staged ∧ x.result = o.2 ∧
          t.homeRead e.home dst.store o.1.length = o.1)) ∧
    (∀ w c u raw, s.mm.window.find? (fun w => !w.granted) = some w → s.cmd? w.q w.seq = some c → c.kind ≠ .step →
      s.windowUsed + w.bytes ≤ s.windowRing →
      (c.layers.find? (fun l => l.ord == w.layer)).bind (fun l => s.layerWeights c l (s.imageBaseOf c)) = some u →
      s.homeReadable u.range.1 u.range.2.1 u.range.2.2 = true → s.homePoisoned u.range.1 u.range.2.1 u.range.2.2 = false →
      (u.range.1 = 3 → c.blocksHere u.range.2.1 u.range.2.2 = true) → (descOf u.img).expand (s.inputBytes c u) = some raw →
      ∃ t, exec .windowGrant s = .next t ∧
        t.mm.window = s.mm.window.map (fun x => if x = w then { w with granted := true, at_ := s.windowPlace w.bytes } else x) ∧
        t.cmd? w.q w.seq = some { c with layers := c.layers.map (fun l =>
          if l.ord = w.layer then { l with windowReady := true } else l) } ∧
        t.rg.fields = s.rg.fields ∧ t.mm.dev = s.mm.dev ∧ t.tl = s.tl) ∧
    (∀ w c l, s.mm.window.find? (fun w => !w.granted) = some w → s.cmd? w.q w.seq = some c → c.kind = .step →
      s.windowUsed + w.bytes ≤ s.windowRing → c.layers.find? (fun l => l.ord == w.layer) = some l →
      let x := s.stepWeights c l
      s.readable x.1 x.2 = true → s.poisoned x.1 x.2 = false →
      ∃ t, exec .windowGrant s = .next t ∧
        t.mm.window = s.mm.window.map (fun x => if x = w then { w with granted := true, at_ := s.windowPlace w.bytes } else x) ∧
        t.cmd? w.q w.seq = some { c with layers := c.layers.map (fun l =>
          if l.ord = w.layer then { l with windowReady := true } else l) } ∧
        t.rg.fields = s.rg.fields ∧ t.mm.dev = s.mm.dev ∧ t.tl = s.tl) ∧
    (∀ (q : Fin 4096) (seq : W32) (c : Cmd) (d : DescUse) (srcs : List DescUse) (sum : List Byte),
      s.cmd? q seq.toNat = some c → c.kind = .reduce → c.stage = .running → c.descs = d :: srcs → c.inputsHere = true →
      s.reduceBehind c = false → s.inputsReadable c.descs = true → cisOutputs c.descs = [] →
      c.descs.any (fun u => s.homePoisoned u.range.1 u.range.2.1 u.range.2.2) = false → s.sumOf c d srcs = some sum →
      let stage := field c.rec_ 0x20 8
      ∃ t x, exec (.reductionDone q seq) s = .next t ∧ t.cmd? q seq.toNat = some x ∧ x.stage = .staged ∧
        t.fld F.PDIE_INT_STATUS.RED_DONE (stackDie stage) = 1 ∧ t.kv = s.kv ∧ t.wh = s.wh ∧
        (s.fld F.TRC_CFG.ENABLE = 0 → s.hl.filter = [] → s.hl.recalls = [] → t.devRead stage sum.length = sum ∧
          ∀ a, a < stage ∨ stage + sum.length ≤ a → rdByte t.mm.dev a = rdByte s.mm.dev a))

/-- PUBLISH, LINEAGE_SPACE_FREED and DESCRIPTOR_SWAP (R33, R34, R393, R394, R400, R552, R583): a staged command whose
turn it is writes its lineage record, or waits for space of the log; the space of the oldest retired records is freed;
once the record is acknowledged the command is published, its completion record falls due, and its groups are free
again. -/
def Obligations.Publication : Prop :=
  ∀ s : State, s.runs 313 = true →
    (∀ (q : Fin 4096) (seq : W32) (c : Cmd), s.cmd? q seq.toNat = some c → c.stage = .staged →
      let ready := s.linkUp = true ∧ c.journalled = true ∧ s.earlierDone c = true ∧ s.fenceMet c.rec_ = true ∧
        s.swapPending c = false
      let slots := s.slotsOf c s.cq.linNext
      (¬ ready → exec (.publish q seq) s = .next s) ∧
      (∀ off, ready → s.linPlace (recordBytes slots.length) = some off →
        ∃ t, exec (.publish q seq) s = .next t ∧
          t.cmd? q seq.toNat = some { c with stage := .lineage, lineIndex := s.cq.linNext, waitsLog := false } ∧
          t.cq.lineage = s.cq.lineage ++ [{ index := s.cq.linNext, q := c.q, ctx := c.ctx, seq := c.seq, time := s.tm.now
                                            nondet := s.nondetOf c, retired := false, rec_ := c.rec_, slots := slots
                                            off := off, bytes := recordBytes slots.length }] ∧
          t.cq.linNext = s.cq.linNext + 1 ∧ t.cq.linOff = off + recordBytes slots.length ∧
          (∃ h ∈ t.hl.hwr, h.what = .lineage s.cq.linNext) ∧
          t.cnt C.LIN_CNT_RECORDS = (s.cnt C.LIN_CNT_RECORDS + 1) % 2 ^ 64 ∧ t.kv = s.kv ∧ t.wh = s.wh ∧ t.tl = s.tl) ∧
      (ready → s.linPlace (recordBytes slots.length) = none → c.waitsLog = false →
        ∃ t, exec (.publish q seq) s = .next t ∧ t.cmd? q seq.toNat = some { c with waitsLog := true } ∧
          t.fld F.Q_INT_STATUS.LINEAGE_FULL = 1 ∧ Raised s t 0x0302 1 0 ∧ t.cq.lineage = s.cq.lineage ∧ t.mm = s.mm ∧
          t.kv = s.kv ∧ t.wh = s.wh ∧ t.tl = s.tl)) ∧
    (s.cq.cmds.all (fun c => !c.waitsLog) = true →
      ∃ t, exec .lineageSpaceFreed s = .next t ∧ t = { s with cq.lineage := freeOldest s.cq.lineage }) ∧
    (∀ (q : Fin 4096) (seq : W32) (c : Cmd), s.cmd? q seq.toNat = some c → c.stage = .lineage →
      s.hl.hwr.all (fun h => h.what ≠ .lineage c.lineIndex) = true →
      ∃ t, exec (.descriptorSwap q seq) s = .next t ∧ t.cmd? q seq.toNat = none ∧
        (∃ d ∈ (t.queue c.q).done, d.seq = c.seq ∧ d.status = 0 ∧ d.tag = recTag c.rec_ ∧ d.flags = c.cflags ∧
          d.time = s.tm.now ∧ (c.kind = .move ∨ c.kind = .checkpoint → d.result = c.result)) ∧
        (∀ m, m ≠ c.q → t.queue m = s.queue m) ∧
        (c.kind = .open_ → (t.group (c.groups.headD 0)).state = 1 ∧ (t.group (c.groups.headD 0)).owner = c.ctx ∧
          (t.branch (c.groups.headD 0) 0).state = 1) ∧
        (c.kind = .close → (t.group (c.groups.headD 0)).state = 0) ∧
        (∀ g, c.kind = .step ∨ c.kind = .fork ∨ c.kind = .prune → (s.group g).lock = some (c.q, c.seq) →
          (s.group g).state = 2 → (t.group g).state = 1 ∧ (t.group g).lock = none))

/-- WH_COMMAND_START, HOLD_RESUME and REDERIVE_DONE (R38, R39, R41, R54, R67 to R69, R74, R75): a wellhead command is held, ends
without effect with the status of the test that fails, or starts and makes its groups BUSY; a PRUNE ranks and chooses (R62,
R63; product and sum each rounded, log 30), an OPEN takes a state block and holds its root's pages (R45); a hold ends; a
group re-derived is OPEN, and no byte of what it keeps is poisoned. -/
def Obligations.WellheadStarts : Prop :=
  ∀ s : State, s.runs 313 = true →
    (∀ (q : Fin 4096) (seq : W32) (c : Cmd), s.cmd? q seq.toNat = some c → s.queueRuns c.q = true → c.stage = .waiting →
      c.wellhead = true → s.resident c.ctx = true → s.whRunning < s.whMax → (c.kind ≠ .prune ∨ s.someCoreFree = true) →
      s.inputsReadable (s.usesOf c.rec_) = true →
      let c' := { c with descs := s.usesOf c.rec_ }
      (∀ h, s.whStartHold c = some h →
        ∃ t, exec (.whCommandStart q seq) s = .next t ∧ t.cmd? q seq.toNat =
          some { c with hold := some h, since := if c.hold = some h then c.since else s.tm.now } ∧
          t.kv = s.kv ∧ t.wh = s.wh ∧ t.tl = s.tl) ∧
      (∀ st, s.whStartHold c = none → (inputsOf (s.usesOf c.rec_)).any s.isLost = false → c.kind ≠ .open_ →
        s.whTest c' = some st →
        ∃ t, exec (.whCommandStart q seq) s = .next t ∧ t.cmd? q seq.toNat = none ∧
          (∃ d ∈ (t.queue c.q).done, d.seq = c.seq ∧ d.status = st ∧ d.tag = recTag c.rec_) ∧
          (st = 7 → t.fld F.WH_INT_STATUS.HISTORY_FULL = 1) ∧ t.wh.branches = s.wh.branches) ∧
      (s.whStartHold c = none → (inputsOf (s.usesOf c.rec_)).any s.isLost = false → s.whTest c' = none →
        c.kind = .step ∨ c.kind = .fork ∨ c.kind = .close →
        ∃ t x, exec (.whCommandStart q seq) s = .next t ∧ t.cmd? q seq.toNat = some x ∧ x.begun = true ∧ x.hold = none ∧
          x.stage = (if c.kind = .step then .running else .staged) ∧ t.wh.branches = s.wh.branches ∧
          (∀ g ∈ c.groups, (t.group g).state = 2 ∧ (t.group g).lock = some (c.q, c.seq)) ∧
          ∀ g, g ∉ c.groups → t.group g = s.group g) ∧
      (s.whStartHold c = none → (inputsOf (s.usesOf c.rec_)).any s.isLost = false → s.whTest c' = none →
        s.fld F.TRC_CFG.ENABLE = 0 →
        (∀ u ∈ inputsOf (s.usesOf c.rec_), u.range.1 ≠ 3 ∧ s.homePoisoned u.range.1 u.range.2.1 u.range.2.2 = false) →
        (c.kind = .prune →
          let g := c.groups.headD 0
          let idx := s.indicesIn c g (· ≠ 0)
          let kept := ((idx.foldl (fun l b => rankInsert (s.rankScore c' g b, b) l) []).map (·.2)).take (field c.rec_ 0x12 2)
          ∃ t x, exec (.whCommandStart q seq) s = .next t ∧ t.cmd? q seq.toNat = some x ∧ x.begun = true ∧ x.hold = none ∧
            x.stage = .staged ∧ x.work.list = kept ∧
            x.work.stepped = (idx.filter (fun b => !kept.contains b)).map (wbKey g) ∧ t.wh.branches = s.wh.branches ∧
            (t.group g).state = 2 ∧ (t.group g).lock = some (c.q, c.seq) ∧ ∀ h, h ≠ g → t.group h = s.group h) ∧
        (∀ u us p raw, c.kind = .open_ → c'.descs = u :: us → u.out = false → s.rootSeq? c = some p →
          (descOf u.img).expand (s.inputBytes c' u) = some raw →
          ∃ t x k, exec (.whCommandStart q seq) s = .next t ∧ t.cmd? q seq.toNat = some x ∧ x.begun = true ∧ x.hold = none ∧
            x.stage = .staged ∧ k ∈ s.sbFreeList ∧ x.work.taken = [.block k] ∧ t.objCount (.block k) = 2 ∧
            x.work.images = [(k, { p.image with tailSealed := true })] ∧ t.wh.branches = s.wh.branches ∧
            t.wh.groups = s.wh.groups))) ∧
    (∀ (q : Fin 4096) (seq : W32) (c : Cmd), s.cmd? q seq.toNat = some c → c.hold ≠ none → s.holdOver c = true →
      ∃ t, exec (.holdResume q seq) s = .next t ∧ t.cmd? q seq.toNat = some { c with hold := none } ∧ t.kv = s.kv ∧
        t.wh = s.wh ∧ t.tl = s.tl ∧ (s.fld F.TRC_CFG.ENABLE = 0 → t.rg.fields = s.rg.fields)) ∧
    (∀ g : Fin 256, (s.group g).state = 3 →
      ∃ t, exec (.rederiveDone g) s = .next t ∧ t.group g = { s.group g with state := 1, lock := none } ∧
        (∀ h, h ≠ g.val → t.group h = s.group h) ∧ t.wh.branches = s.wh.branches ∧
        (∀ r ∈ s.groupRanges g, t.homePoisoned r.1 r.2.1 r.2.2 = false) ∧ t.mm.dev = s.mm.dev ∧ t.mm.shared = s.mm.shared ∧
        t.fld F.WH_INT_STATUS.REDERIVE_DONE = 1 ∧ t.kv = s.kv ∧ t.cq = s.cq ∧ t.tl = s.tl)

/-- STEP_START and STEP_CLOSE (R46, R48, R53, R54, R69, R200): the next step begins when the pools, with the staged pages of the
entries evicted for it (log 118), hold what it takes, and is held whole where they do not; at its close every branch stepped
has one step more, the value the heads computed, and the score S + gamma^s x r of R53, product and sum each rounded to FP32
(the model's choice, log 30; a power of gamma above 1 is free), and after the last step the command's outputs are complete. -/
def Obligations.StepRuns : Prop :=
  ∀ (s : State) (q : Fin 4096) (seq : W32) (c : Cmd), s.runs 313 = true → s.cmd? q seq.toNat = some c → c.kind = .step →
    c.stage = .running →
    (s.resident c.ctx = true → (s.ctx c.ctx).st ≠ .yielding → c.work.inStep = false →
      c.work.step < field c.rec_ 0x11 1 → c.inputsHere = true → s.inputsReadable c.descs = true → c.work.stepDrops = [] →
      let u := s.setCmd c
      let im := s.stepImage c
      let tokens := Config.imageTokens im.desc im.version
      let preps := (u.planStep c tokens u.kvpFree c.groups).flatMap (fun p => p.2.2)
      let pages := preps.foldl (fun n p => n + u.prepNeed tokens p) 0
      let free := u.kvpFree + (preps.flatMap (fun p => p.freed)).length
      (u.sbFreeList.length < preps.length →
        ∃ t x, exec (.stepStart q seq) s = .next t ∧ t.cmd? q seq.toNat = some x ∧ x.hold = some .state ∧
          x.work.inStep = false ∧ t.kv = s.kv ∧ t.wh.branches = s.wh.branches ∧ t.wh.sbCount = s.wh.sbCount) ∧
      (preps.length ≤ u.sbFreeList.length → free < pages →
        ∃ t x, exec (.stepStart q seq) s = .next t ∧ t.cmd? q seq.toNat = some x ∧ x.hold = some .page ∧
          x.work.inStep = false ∧ t.kv = s.kv ∧ t.wh.branches = s.wh.branches ∧ t.wh.sbCount = s.wh.sbCount) ∧
      (preps.length ≤ u.sbFreeList.length → pages ≤ free →
        ∃ t x, exec (.stepStart q seq) s = .next t ∧ t.cmd? q seq.toNat = some x ∧ x.hold = none ∧
          x.work.inStep = true ∧ x.work.step = c.work.step ∧ t.wh.branches = s.wh.branches ∧
          x.layers.map (fun l => l.plan) = (s.stepSegments c).flatMap (Config.imagePlans im.desc im.version))) ∧
    (∀ heads : List HeadOut, c.work.inStep = true → c.layers.all (fun l => l.ended) = true →
      (∀ k ∈ c.work.stepped, (headFor heads k).isSome = true ∧ (s.wbranch c k).block ≠ none) → c.work.stepped.Nodup →
      ∃ t x, exec (.stepClose q seq heads) s = .next t ∧ t.cmd? q seq.toNat = some x ∧ x.work.step = c.work.step + 1 ∧
        x.work.inStep = false ∧ x.layers = [] ∧ (c.work.step + 1 = field c.rec_ 0x11 1 → x.stage = .staged) ∧
        (∀ k ∈ c.work.stepped, ∀ h, headFor heads k = some h →
          let b := s.wbranch c k
          let y := t.wbranch x k
          y.score = BitVec.ofNat 32
            (f32add b.score.toNat (f32mul (gammaPow (s.group (k / 4096)).gamma b.steps) h.reward.toNat)) ∧
          y.value = h.value ∧ y.steps = b.steps + 1 ∧
          y.positions = b.positions + Config.imageTokens (s.stepImage c).desc (s.stepImage c).version) ∧
        t.wh.branches = s.wh.branches ∧ t.kv = s.kv ∧ t.tl = s.tl)

/-- COUNT_UPDATE and HOLDING_RETURN (R47, R185, R191, R192, R194): the oldest change of a count is applied, and an
object that lost its last holder is held under its generation; the oldest held object that no running command may read
returns. SEQ_CREATE, SEQ_DESTROY, DROP_FRONT, EVICT_ENTRY, SET_POLICY and SEAL_TAIL, and DEFERRED_EDIT (R188, R191,
R203 to R207): an edit that fails a check says which and changes nothing, and 1,024 edits waiting set EDIT_FULL; one of a branch waits for its group's next
step; one of a sequence that a command appends to is deferred; any other makes a new generation at once. -/
def Obligations.ReferencesAndEdits : Prop :=
  (∀ s : State, s.runs 313 = true →
     (∀ u r, s.kv.refq = u :: r →
       let n := s.objCount u.obj
       let m := if u.add then n + u.n else n - u.n
       ∃ t, exec .countUpdate s = .next t ∧ t.kv.refq = r ∧ t.objCount u.obj = m ∧
         (∀ o, o ≠ u.obj → t.objCount o = s.objCount o) ∧
         (m = 0 → n ≠ 0 → s.objStaged u.obj = false → (u.tag, u.obj) ∈ t.kv.holding) ∧
         (m ≠ 0 ∨ s.objStaged u.obj = true → t.kv.holding = s.kv.holding) ∧ t.kv.seqs = s.kv.seqs ∧
         t = { s with kv := t.kv, wh.sbCount := t.wh.sbCount }) ∧
     (∀ h, s.kv.holding.find? (fun h => s.baseEpochs.all (fun b => decide (h.1 ≤ b))) = some h →
       ∃ t, exec .holdingReturn s = .next t ∧ t = { s with rg := t.rg, kv.holding := s.kv.holding.erase h } ∧
         t.rg.fields = s.rg.fields ∧
         (∀ p, h.2 = .page p → t.cnt C.KVP_CNT_RETURNED = (s.cnt C.KVP_CNT_RETURNED + 1) % 2 ^ 64))) ∧
  (∀ s : State, s.runs 313 = true →
     (∀ (r : Requester) (op : Fin 6), Writable s 0x04 0 r → s.fld F.KVP_EDIT_OP.OP = op.val + 1 →
       let e : Edit := { s.editRegs with
         pos := (s.editImage s.editRegs).startOf (s.editRegs.arg0.toNat % 65536), serial := s.kv.editNext }
       let res := s.editCheck e
       let q := s.seq e.target
       ∃ t, exec (editCommand op r) s = .next t ∧ t.fld F.KVP_EDIT_STATUS.RESULT = res ∧
         t.fld F.KVP_INT_STATUS.EDIT_DONE = 1 ∧ t.cq = s.cq ∧ t.tl = s.tl ∧ t.wh.branches = s.wh.branches ∧
         t.kv.editNext = s.kv.editNext + 1 ∧
         (res = 4 → 1024 ≤ s.editsWaiting → t.fld F.KVP_INT_STATUS.EDIT_FULL = 1) ∧
         (res ≠ 4 ∨ s.editsWaiting < 1024 → t.fld F.KVP_INT_STATUS.EDIT_FULL = s.fld F.KVP_INT_STATUS.EDIT_FULL) ∧
         (res ≠ 0 → t.fld F.KVP_EDIT_STATUS.DEFERRED = 0 ∧ t.kv = { s.kv with editNext := t.kv.editNext } ∧ t.wh = s.wh ∧
           t.mm = s.mm) ∧
         (res = 0 → e.branch = true → t.fld F.KVP_EDIT_STATUS.DEFERRED = 1 ∧
           t.kv = { s.kv with editNext := t.kv.editNext } ∧ t.mm = s.mm ∧
           (t.group (e.target / 4096)).edits = (s.group (e.target / 4096)).edits ++ [e]) ∧
         (res = 0 → e.branch = false → s.editWaits e = true → t.fld F.KVP_EDIT_STATUS.DEFERRED = 1 ∧
           t.kv.deferred = s.kv.deferred ++ [e] ∧ t.kv.seqs = s.kv.seqs ∧ t.wh = s.wh ∧ t.mm = s.mm) ∧
         (res = 0 → e.branch = false → s.editWaits e = false → t.fld F.KVP_EDIT_STATUS.DEFERRED = 0 ∧
           t.kv.epoch = s.kv.epoch + 1 ∧ t.kv.deferred = s.kv.deferred ∧ (∀ n, n ≠ e.target → t.seq n = s.seq n) ∧
           (op = 0 → (t.seq e.target).valid = true ∧ (t.seq e.target).image.pages = []) ∧
           (op = 1 → (t.seq e.target).valid = false) ∧
           (2 ≤ op.val → (t.seq e.target).image.gen = q.image.gen + 1 ∧ (t.seq e.target).valid = q.valid ∧
             (t.seq e.target).since = s.kv.epoch + 1) ∧
           (op = 2 → (t.seq e.target).image =
             { (q.image.raiseTo (q.image.windowStart + e.arg0.toNat)).1 with gen := q.image.gen + 1 }) ∧
           (op = 3 → (t.seq e.target).image =
             { (q.image.evict (e.arg1.toNat % 64) (q.image.indexAt e.pos)).1 with gen := q.image.gen + 1 }) ∧
           (op = 4 → (t.seq e.target).keepNewest = e.arg0.toNat / 65536 ∧ (t.seq e.target).decay = e.arg1) ∧
           (op = 5 → (t.seq e.target).image.tailSealed = true ∧ (t.seq e.target).image.pages = q.image.pages))) ∧
     (∀ (n : Nat) (e : Edit), s.kv.deferred.find? (fun e => e.target == n) = some e → (s.seq n).appending = false →
       ∃ t, exec (.deferredEdit n) s = .next t ∧ t.kv.deferred = s.kv.deferred.erase e ∧ t.cq = s.cq ∧
         ((s.seq n).valid = false → t = { s with kv.deferred := s.kv.deferred.erase e }) ∧
         ((s.seq n).valid = true → t.kv.epoch = s.kv.epoch + 1 ∧ t.fld F.KVP_INT_STATUS.EDIT_DONE = 1 ∧
           (e.op = 2 → (t.seq n).valid = false) ∧
           (3 ≤ e.op → (t.seq n).image.gen = (s.seq n).image.gen + 1 ∧ (t.seq n).valid = true) ∧
           (e.op = 6 → (t.seq n).image.tailSealed = true) ∧
           ∀ m, m ≠ n → t.seq m = s.seq m)))

/-- The writes of KVP_CFG, WH_CFG and CIS_CFG that enable or disable a block (R181, R289, R290, R308, R366, R538,
R575): they take effect where the spec's conditions hold, and are refused with WRITE_REJECT where not. FORMAT, RELEASE
and TRIM of a cistern module (R372, R373, R378), written to CIS_GO with CIS_OP holding them and nothing under way: the
result says that the module is not in the state, the argument is out of range, or the blocks are in use; else the
operation is BUSY and its trim is sent. -/
def Obligations.EnablesAndCisterns : Prop :=
  (∀ (s : State) (r : Requester) (v : W32),
     (Writable s 0x04 0 r → bits v.toNat 3 1 = s.fld F.KVP_CFG.PSIZE → v.toNat % 2 ≠ s.fld F.KVP_CFG.ENABLE →
       let ok : Bool := if v.toNat % 2 = 1
         then s.regionsOk && s.kvpAreasOk && s.sysOk true (s.fld F.WH_CFG.ENABLE = 1) else s.kvpClears
       ∃ t, exec (.kvpCfgEnable r v) s = .next t ∧
         (ok = true → t.fld F.KVP_CFG.ENABLE = v.toNat % 2 ∧ (v.toNat % 2 = 1 → t.kv.pgCount = [] ∧ t.kv.pgStaged = [])) ∧
         (ok = false → t.fld F.KVP_CFG.ENABLE = s.fld F.KVP_CFG.ENABLE ∧ t.fld (F.PG_STATUS.WRITE_REJECT 0x04) = 1 ∧
           FieldsBut s t [fieldKey (F.PG_STATUS.WRITE_REJECT 0x04) 0 0]) ∧ t = { s with rg := t.rg, kv := t.kv }) ∧
     (Writable s 0x02 0 r → v.toNat % 2 ≠ s.fld F.WH_CFG.ENABLE →
       let ok : Bool := !s.whBusy && (v.toNat % 2 = 0 || (s.whAreasOk && s.sysOk (s.fld F.KVP_CFG.ENABLE = 1) true))
       ∃ t, exec (.whCfgEnable r v) s = .next t ∧
         (ok = true → t.fld F.WH_CFG.ENABLE = v.toNat % 2) ∧
         (ok = false → t.fld F.WH_CFG.ENABLE = s.fld F.WH_CFG.ENABLE ∧ t.fld (F.PG_STATUS.WRITE_REJECT 0x02) = 1 ∧
           FieldsBut s t [fieldKey (F.PG_STATUS.WRITE_REJECT 0x02) 0 0]) ∧ OnlyRegs s t) ∧
     (∀ m : Fin 16, Writable s 0x22 m r → v.toNat % 2 ≠ s.fld F.CIS_CFG.ENABLE m →
       ∃ t, exec (.cisCfgEnable r m v) s = .next t ∧
         (s.cisBusy m = true → t.fld F.CIS_CFG.ENABLE m = s.fld F.CIS_CFG.ENABLE m ∧
           t.fld (F.PG_STATUS.WRITE_REJECT 0x22) m = 1 ∧ OnlyRegs s t) ∧
         (s.cisBusy m = false → t.fld F.CIS_CFG.ENABLE m = v.toNat % 2 ∧
           (v.toNat % 2 = 1 → (s.module m).st = 0 → (s.module m).clearing = false → s.portLit (m + 8) = true →
             (t.module m).st = 1 ∧ (t.module m).reqs.length = (s.module m).reqs.length + 2) ∧
           (v.toNat % 2 = 0 → (s.module m).reqs = [] → (t.module m).st = 0) ∧
           (v.toNat % 2 = 0 → (s.module m).reqs ≠ [] → (t.module m).clearing = true ∧ (t.module m).reqs = (s.module m).reqs)) ∧
         ∀ k, k ≠ m.val → t.module k = s.module k)) ∧
  (∀ (s : State) (r : Requester) (m : Fin 16), Writable s 0x22 m r → s.fld F.CIS_OP_STATUS.BUSY m ≠ 1 →
     let x := s.module m
     let code (op : Nat) : Nat :=
       if op = 1 then (if x.st ≠ 2 ∧ x.st ≠ 3 ∧ x.st ≠ 4 then 2 else if s.cisNamed m || s.coverOn m then 4 else 0)
       else if x.st ≠ 4 then 2
       else if op = 2 then
         (if x.cat.all (fun c => c.seq ≠ s.relSeq m) then 3
          else if s.blocksNamed m (catBlock (s.relSeq m)) 1 || s.coverOf m (s.relSeq m) then 4 else 0)
       else
         let b := s.fld F.CIS_ARG0.VALUE m + s.fld F.CIS_ARG1.VALUE m % 8 * 2 ^ 32
         let n := s.fld F.CIS_ARG2.BLOCKS m
         if n = 0 ∨ b < 2 ^ 20 ∨ s.cnt C.CIS_CAPACITY m < b + n then 3 else if s.blocksNamed m b n then 4 else 0
     let done (t : State) (op : Nat) : Prop :=
       (code op ≠ 0 → t.fld F.CIS_OP_STATUS.RESULT m = code op ∧ t.fld F.CIS_OP_STATUS.BUSY m = 0 ∧
         t.fld F.CIS_INT_STATUS.OP_DONE m = 1 ∧ t.ci = s.ci) ∧
       (code op = 0 → t.fld F.CIS_OP_STATUS.BUSY m = 1 ∧ (t.module m).reqs.length = x.reqs.length + 1 ∧
         (t.module m).st = x.st ∧ (t.module m).cat = x.cat) ∧
       (∀ k, k ≠ m.val → t.module k = s.module k) ∧ t.mm = s.mm ∧ SameWork s t
     (s.fld F.CIS_OP.OP m = 1 → ∃ t, exec (.format r m) s = .next t ∧ done t 1) ∧
     (s.fld F.CIS_OP.OP m = 2 → ∃ t, exec (.release r m) s = .next t ∧ done t 2) ∧
     (s.fld F.CIS_OP.OP m = 3 → ∃ t, exec (.trim r m) s = .next t ∧ done t 3))

/-- A STEP RUNS THE COMMAND AT THE FRONT of the queue on the state with the queue's rest; an empty queue lets one
nanosecond of the time base pass (log 1); and every command has an outcome that is a next state. -/
def Obligations.StepRunsFront : Prop :=
  (∀ (s : State) (c : Instr) (rest : List Instr), step { s with pending := c :: rest } = exec c { s with pending := rest }) ∧
  (∀ s : State, s.pending = [] → step s = .next s.tick) ∧
  (∀ (s : State) (c : Instr), ∃ t, exec c s = .next t)

/-- The device memory and the shared cache keep their canonical form in every step (rising addresses, no entry equal
to what an unlisted byte reads as). -/
def Obligations.MemoryStaysCanonical : Prop :=
  ∀ s t : State, Memory.wf s.mm.dev = true → Memory.wf s.mm.shared = true → step s = .next t →
    Memory.wf t.mm.dev = true ∧ Memory.wf t.mm.shared = true

/-- At reset the stores are in canonical form, nothing is in hand, the device is starting, it ships PROVISIONED with
no other fuse burnt, and every register field reads its reset value (R7, R460). -/
def Obligations.ResetState : Prop :=
  Memory.wf State.reset.mm.dev = true ∧ Memory.wf State.reset.mm.shared = true ∧ State.reset.pending = [] ∧
    State.reset.tm.power = .starting ∧ State.reset.cq.cmds = [] ∧ State.reset.bt.fuses.svn = 0 ∧
    State.reset.bt.fuses.revoked = 0 ∧ State.reset.lcState = 1 ∧ State.reset.lcPending = none ∧
    (∀ (f : Field) (i b : Nat), State.reset.fld f i b = resetOf f i) ∧ (∀ a, rdByte State.reset.mm.dev a = 0)

/-- Fuses only burn (R485, R494, R495, R499): whatever the step, the SVN never falls, a revoked key slot stays
revoked, and the life-cycle records stand in their order, none taken back once applied. -/
def Obligations.FusesOnlyBurn : Prop :=
  ∀ s t : State, step s = .next t →
    s.bt.fuses.svn ≤ t.bt.fuses.svn ∧
    (∀ i, bit s.bt.fuses.revoked i = true → bit t.bt.fuses.revoked i = true) ∧
    (∀ (i : Nat) (r : LcRec), s.bt.fuses.lc[i]? = some r →
      ∃ x, t.bt.fuses.lc[i]? = some x ∧ x.target = r.target ∧ (r.applied = true → x.applied = true))

/-- Commands are taken first in, first out, and by step alone: no command changes the queue behind it (log 1). -/
def Obligations.QueueFirstInFirstOut : Prop :=
  ∀ (s t : State) (c : Instr) (rest : List Instr), s.pending = c :: rest → step s = .next t → t.pending = rest
end

