-- ==== Sys2Proof/Laws/Maps.lean ====
section
/-! SUPPORT. The laws of sparse maps and of byte stores: a read after a write, and the canonical form kept. -/

namespace Sys2Proof.Machine

theorem look_dropKey_self {α : Type} (d : α) (m : SMap α) (k : Nat) : look d (dropKey m k) k = d := by
  induction m with
  | nil => rfl
  | cons e r ih =>
    by_cases h : e.1 = k
    · simpa [dropKey, h] using ih
    · simpa [dropKey, h, look] using ih

theorem look_dropKey_ne {α : Type} (d : α) (m : SMap α) {k j : Nat} (h : j ≠ k) : look d (dropKey m k) j = look d m j := by
  induction m with
  | nil => rfl
  | cons e r ih =>
    by_cases hk : e.1 = k
    · have : e.1 ≠ j := fun x => h (x ▸ hk)
      simpa [dropKey, hk, look, this, Ne.symm h] using ih
    · by_cases hj : e.1 = j
      · simp [dropKey, look, hj, h]
      · simpa [dropKey, hk, look, hj] using ih

/-- A read of the key written gives the value written. -/
@[simp] theorem look_put_self {α : Type} [DecidableEq α] (d : α) (m : SMap α) (k : Nat) (v : α) :
    look d (put d m k v) k = v := by
  induction m with
  | nil => by_cases h : v = d <;> simp [put, look, h]
  | cons e r ih =>
    simp only [put]
    split
    · split
      · next h => rw [look_dropKey_self, h]
      · simp [look]
    · split
      · split
        · next h => rw [look_dropKey_self, h]
        · simp [look]
      · next h1 h2 => simpa [look, Ne.symm h2] using ih

/-- A write leaves every other key alone. -/
theorem look_put_ne {α : Type} [DecidableEq α] (d : α) (m : SMap α) {k j : Nat} (v : α) (h : j ≠ k) :
    look d (put d m k v) j = look d m j := by
  induction m with
  | nil => by_cases hv : v = d <;> simp [put, look, hv, Ne.symm h]
  | cons e r ih =>
    simp only [put]
    split
    · split
      · exact look_dropKey_ne d _ h
      · simp [look, Ne.symm h]
    · split
      · next hk =>
        have he : e.1 ≠ j := fun x => h (hk ▸ x.symm)
        split
        · rw [look_dropKey_ne d _ h]; simp [look, he]
        · simp [look, Ne.symm h, he]
      · by_cases hj : e.1 = j
        · simp [look, hj]
        · simpa [look, hj] using ih

theorem look_put {α : Type} [DecidableEq α] (d : α) (m : SMap α) (k j : Nat) (v : α) :
    look d (put d m k v) j = if j = k then v else look d m j := by
  by_cases h : j = k
  · subst h; simp
  · simp [h, look_put_ne d m v h]

/-! ## The canonical form -/

/-- A read of another key gives the same, whatever resting value it is read with. -/
theorem look_put_other {α : Type} [DecidableEq α] {d e : α} (m : SMap α) {k j : Nat} (v : α) (h : j ≠ k) :
    look d (put e m k v) j = look d m j := by
  induction m with
  | nil => by_cases hv : v = e <;> simp [put, look, hv, Ne.symm h]
  | cons x r ih =>
    simp only [put]
    split
    · split
      · exact look_dropKey_ne d _ h
      · simp [look, Ne.symm h]
    · split
      · next hk =>
        have he : x.1 ≠ j := fun y => h (hk ▸ y.symm)
        split
        · rw [look_dropKey_ne d _ h]; simp [look, he]
        · simp [look, Ne.symm h, he]
      · by_cases hj : x.1 = j
        · simp [look, hj]
        · simpa [look, hj] using ih

theorem canonFrom_mono {α : Type} [DecidableEq α] {d : α} {lo hi : Nat} {m : SMap α} (h : canonFrom d hi m = true)
    (hl : lo ≤ hi) : canonFrom d lo m = true := by
  cases m with
  | nil => rfl
  | cons e r =>
    simp only [canonFrom, Bool.and_eq_true, decide_eq_true_eq] at h ⊢
    exact ⟨⟨by omega, h.1.2⟩, h.2⟩

theorem canonFrom_filter {α : Type} [DecidableEq α] {d : α} (p : Nat × α → Bool) {lo : Nat} {m : SMap α}
    (h : canonFrom d lo m = true) : canonFrom d lo (m.filter p) = true := by
  induction m generalizing lo with
  | nil => rfl
  | cons e r ih =>
    simp only [canonFrom, Bool.and_eq_true, decide_eq_true_eq] at h
    by_cases hp : p e
    · simp only [List.filter_cons_of_pos hp, canonFrom, Bool.and_eq_true, decide_eq_true_eq]
      exact ⟨h.1, ih h.2⟩
    · simpa only [List.filter_cons_of_neg hp] using canonFrom_mono (ih h.2) (by omega)

theorem canonFrom_put {α : Type} [DecidableEq α] {d : α} {lo : Nat} {m : SMap α} (k : Nat) (v : α)
    (h : canonFrom d lo m = true) (hk : lo ≤ k) : canonFrom d lo (put d m k v) = true := by
  induction m generalizing lo with
  | nil => by_cases hv : v = d <;> simp [put, canonFrom, hv, hk]
  | cons e r ih =>
    have h' := h
    simp only [canonFrom, Bool.and_eq_true, decide_eq_true_eq] at h'
    simp only [put]
    split
    · next hlt =>
      split
      · exact canonFrom_filter _ h
      · next hv =>
        simp only [canonFrom, Bool.and_eq_true, decide_eq_true_eq]
        exact ⟨⟨hk, hv⟩, ⟨by omega, h'.1.2⟩, h'.2⟩
    · split
      · next he =>
        split
        · exact canonFrom_mono (canonFrom_filter _ h'.2) (by omega)
        · next hv =>
          simp only [canonFrom, Bool.and_eq_true, decide_eq_true_eq]
          exact ⟨⟨hk, hv⟩, by rw [he]; exact h'.2⟩
      · next h1 h2 =>
        simp only [canonFrom, Bool.and_eq_true, decide_eq_true_eq]
        exact ⟨h'.1, ih h'.2 (by omega)⟩

/-- Every write of a map keeps the canonical form. -/
theorem canon_put {α : Type} [DecidableEq α] {d : α} {m : SMap α} (k : Nat) (v : α) (h : canon d m = true) :
    canon d (put d m k v) = true := canonFrom_put k v h (Nat.zero_le k)

theorem canon_filter {α : Type} [DecidableEq α] {d : α} {m : SMap α} (p : Nat × α → Bool) (h : canon d m = true) :
    canon d (m.filter p) = true := canonFrom_filter p h

/-! ## Bytes -/

/-- One byte written and read back. -/
theorem rdByte_put (m : Mem) (a b : Nat) (v : Byte) :
    rdByte (put 0 m a v) b = if b = a then v else rdByte m b := look_put 0 m a b v

/-- Bytes written from an address on, read one at a time. -/
theorem rdByte_wrBytes (m : Mem) (a : Nat) (l : List Byte) (b : Nat) :
    rdByte (wrBytes m a l) b = if a ≤ b ∧ b < a + l.length then l.getD (b - a) 0 else rdByte m b := by
  induction l generalizing m a with
  | nil => simp [wrBytes]
  | cons x r ih =>
    rw [wrBytes, ih, rdByte_put]
    by_cases h : b = a
    · subst h; simp
    · by_cases hr : a + 1 ≤ b ∧ b < a + 1 + r.length
      · have : b - a = (b - (a + 1)) + 1 := by omega
        rw [if_pos hr, if_pos (by simp; omega), this, List.getD_cons_succ]
      · rw [if_neg hr, if_neg h, if_neg (by simp; omega)]

/-- A write leaves every byte outside it alone. -/
theorem rdByte_wrBytes_out {m : Mem} {a b : Nat} {l : List Byte} (h : b < a ∨ a + l.length ≤ b) :
    rdByte (wrBytes m a l) b = rdByte m b := by
  rw [rdByte_wrBytes, if_neg (by omega)]

/-- Bytes written are read back. -/
theorem rdBytes_wrBytes_self (m : Mem) (a : Nat) (l : List Byte) : rdBytes (wrBytes m a l) a l.length = l := by
  induction l generalizing m a with
  | nil => rfl
  | cons x r ih =>
    simp only [List.length_cons, rdBytes, wrBytes, ih]
    rw [rdByte_wrBytes_out (by omega), rdByte_put, if_pos rfl]

/-- A read of bytes that a write does not touch. -/
theorem rdBytes_wrBytes_out (m : Mem) (a : Nat) (l : List Byte) (b n : Nat) (h : b + n ≤ a ∨ a + l.length ≤ b) :
    rdBytes (wrBytes m a l) b n = rdBytes m b n := by
  induction n generalizing b with
  | zero => rfl
  | succ n ih =>
    simp only [rdBytes]
    rw [rdByte_wrBytes_out (by omega), ih (b + 1) (by omega)]

@[simp] theorem rdBytes_length (m : Mem) (a n : Nat) : (rdBytes m a n).length = n := by
  induction n generalizing a with
  | zero => rfl
  | succ n ih => simp [rdBytes, ih]

/-- The memory's canonical form is kept by a byte, by bytes and by a masked write. -/
theorem wf_put {m : Mem} (a : Nat) (b : Byte) (h : Memory.wf m = true) : Memory.wf (put 0 m a b) = true := canon_put a b h

theorem wf_wrBytes {m : Mem} (a : Nat) (l : List Byte) (h : Memory.wf m = true) : Memory.wf (wrBytes m a l) = true := by
  induction l generalizing m a with
  | nil => exact h
  | cons x r ih => exact ih _ (wf_put a x h)

theorem wf_wrMasked {m : Mem} (a mask : Nat) (l : List Byte) (h : Memory.wf m = true) :
    Memory.wf (wrMasked m a mask l) = true := by
  induction l generalizing m a mask with
  | nil => exact h
  | cons x r ih =>
    simp only [wrMasked]
    split
    · exact ih _ _ (wf_put a x h)
    · exact ih _ _ h

theorem wf_filter {m : Mem} (p : Host.Cell → Bool) (h : Memory.wf m = true) : Memory.wf (m.filter p) = true :=
  canon_filter p h

/-! ## Little-endian numbers -/

@[simp] theorem toLE_length (n v : Nat) : (toLE n v).length = n := by
  induction n generalizing v with
  | zero => rfl
  | succ n ih => simp [toLE, ih]

theorem leNat_toLE (n v : Nat) : leNat (toLE n v) = v % 2 ^ (8 * n) := by
  induction n generalizing v with
  | zero => simp [toLE, leNat, Nat.mod_one]
  | succ n ih =>
    simp only [toLE, leNat, ih, BitVec.toNat_ofNat]
    have h : 2 ^ (8 * (n + 1)) = 256 * 2 ^ (8 * n) := by rw [Nat.mul_add, Nat.pow_add]; omega
    rw [h, Nat.mod_mul]

/-- A number written and read back at a place of a store. -/
theorem leNat_wrBytes (m : Mem) (a n v : Nat) : leNat (rdBytes (wrBytes m a (toLE n v)) a n) = v % 2 ^ (8 * n) := by
  have h := rdBytes_wrBytes_self m a (toLE n v)
  rw [toLE_length] at h
  rw [h, leNat_toLE]

end Sys2Proof.Machine
end

