-- ==== Sys2Proof/Laws/State.lean ====
section
/-! SUPPORT. What each plain update of the state leaves alone, field by field, and what a read after it gives. -/

namespace Sys2Proof.Machine

/-! ### setFld -/

@[simp] theorem State.setFld_tm (s : State) (f : Field) (v i b : Nat) : (s.setFld f v i b).tm = s.tm := rfl
@[simp] theorem State.setFld_hl (s : State) (f : Field) (v i b : Nat) : (s.setFld f v i b).hl = s.hl := rfl
@[simp] theorem State.setFld_op (s : State) (f : Field) (v i b : Nat) : (s.setFld f v i b).op = s.op := rfl
@[simp] theorem State.setFld_cq (s : State) (f : Field) (v i b : Nat) : (s.setFld f v i b).cq = s.cq := rfl
@[simp] theorem State.setFld_wh (s : State) (f : Field) (v i b : Nat) : (s.setFld f v i b).wh = s.wh := rfl
@[simp] theorem State.setFld_kv (s : State) (f : Field) (v i b : Nat) : (s.setFld f v i b).kv = s.kv := rfl
@[simp] theorem State.setFld_tl (s : State) (f : Field) (v i b : Nat) : (s.setFld f v i b).tl = s.tl := rfl
@[simp] theorem State.setFld_mm (s : State) (f : Field) (v i b : Nat) : (s.setFld f v i b).mm = s.mm := rfl
@[simp] theorem State.setFld_ci (s : State) (f : Field) (v i b : Nat) : (s.setFld f v i b).ci = s.ci := rfl
@[simp] theorem State.setFld_sc (s : State) (f : Field) (v i b : Nat) : (s.setFld f v i b).sc = s.sc := rfl
@[simp] theorem State.setFld_pw (s : State) (f : Field) (v i b : Nat) : (s.setFld f v i b).pw = s.pw := rfl
@[simp] theorem State.setFld_rs (s : State) (f : Field) (v i b : Nat) : (s.setFld f v i b).rs = s.rs := rfl
@[simp] theorem State.setFld_bt (s : State) (f : Field) (v i b : Nat) : (s.setFld f v i b).bt = s.bt := rfl
@[simp] theorem State.setFld_mg (s : State) (f : Field) (v i b : Nat) : (s.setFld f v i b).mg = s.mg := rfl
@[simp] theorem State.setFld_er (s : State) (f : Field) (v i b : Nat) : (s.setFld f v i b).er = s.er := rfl
@[simp] theorem State.setFld_tr (s : State) (f : Field) (v i b : Nat) : (s.setFld f v i b).tr = s.tr := rfl
@[simp] theorem State.setFld_st (s : State) (f : Field) (v i b : Nat) : (s.setFld f v i b).st = s.st := rfl
@[simp] theorem State.setFld_free (s : State) (f : Field) (v i b : Nat) : (s.setFld f v i b).free = s.free := rfl
@[simp] theorem State.setFld_pending (s : State) (f : Field) (v i b : Nat) : (s.setFld f v i b).pending = s.pending := rfl

/-! ### setCnt -/

@[simp] theorem State.setCnt_tm (s : State) (c : Cnt) (v i b : Nat) : (s.setCnt c v i b).tm = s.tm := rfl
@[simp] theorem State.setCnt_hl (s : State) (c : Cnt) (v i b : Nat) : (s.setCnt c v i b).hl = s.hl := rfl
@[simp] theorem State.setCnt_op (s : State) (c : Cnt) (v i b : Nat) : (s.setCnt c v i b).op = s.op := rfl
@[simp] theorem State.setCnt_cq (s : State) (c : Cnt) (v i b : Nat) : (s.setCnt c v i b).cq = s.cq := rfl
@[simp] theorem State.setCnt_wh (s : State) (c : Cnt) (v i b : Nat) : (s.setCnt c v i b).wh = s.wh := rfl
@[simp] theorem State.setCnt_kv (s : State) (c : Cnt) (v i b : Nat) : (s.setCnt c v i b).kv = s.kv := rfl
@[simp] theorem State.setCnt_tl (s : State) (c : Cnt) (v i b : Nat) : (s.setCnt c v i b).tl = s.tl := rfl
@[simp] theorem State.setCnt_mm (s : State) (c : Cnt) (v i b : Nat) : (s.setCnt c v i b).mm = s.mm := rfl
@[simp] theorem State.setCnt_ci (s : State) (c : Cnt) (v i b : Nat) : (s.setCnt c v i b).ci = s.ci := rfl
@[simp] theorem State.setCnt_sc (s : State) (c : Cnt) (v i b : Nat) : (s.setCnt c v i b).sc = s.sc := rfl
@[simp] theorem State.setCnt_pw (s : State) (c : Cnt) (v i b : Nat) : (s.setCnt c v i b).pw = s.pw := rfl
@[simp] theorem State.setCnt_rs (s : State) (c : Cnt) (v i b : Nat) : (s.setCnt c v i b).rs = s.rs := rfl
@[simp] theorem State.setCnt_bt (s : State) (c : Cnt) (v i b : Nat) : (s.setCnt c v i b).bt = s.bt := rfl
@[simp] theorem State.setCnt_mg (s : State) (c : Cnt) (v i b : Nat) : (s.setCnt c v i b).mg = s.mg := rfl
@[simp] theorem State.setCnt_er (s : State) (c : Cnt) (v i b : Nat) : (s.setCnt c v i b).er = s.er := rfl
@[simp] theorem State.setCnt_tr (s : State) (c : Cnt) (v i b : Nat) : (s.setCnt c v i b).tr = s.tr := rfl
@[simp] theorem State.setCnt_st (s : State) (c : Cnt) (v i b : Nat) : (s.setCnt c v i b).st = s.st := rfl
@[simp] theorem State.setCnt_free (s : State) (c : Cnt) (v i b : Nat) : (s.setCnt c v i b).free = s.free := rfl
@[simp] theorem State.setCnt_pending (s : State) (c : Cnt) (v i b : Nat) : (s.setCnt c v i b).pending = s.pending := rfl

/-! ### addCnt -/

@[simp] theorem State.addCnt_tm (s : State) (c : Cnt) (n i b : Nat) : (s.addCnt c n i b).tm = s.tm := rfl
@[simp] theorem State.addCnt_hl (s : State) (c : Cnt) (n i b : Nat) : (s.addCnt c n i b).hl = s.hl := rfl
@[simp] theorem State.addCnt_op (s : State) (c : Cnt) (n i b : Nat) : (s.addCnt c n i b).op = s.op := rfl
@[simp] theorem State.addCnt_cq (s : State) (c : Cnt) (n i b : Nat) : (s.addCnt c n i b).cq = s.cq := rfl
@[simp] theorem State.addCnt_wh (s : State) (c : Cnt) (n i b : Nat) : (s.addCnt c n i b).wh = s.wh := rfl
@[simp] theorem State.addCnt_kv (s : State) (c : Cnt) (n i b : Nat) : (s.addCnt c n i b).kv = s.kv := rfl
@[simp] theorem State.addCnt_tl (s : State) (c : Cnt) (n i b : Nat) : (s.addCnt c n i b).tl = s.tl := rfl
@[simp] theorem State.addCnt_mm (s : State) (c : Cnt) (n i b : Nat) : (s.addCnt c n i b).mm = s.mm := rfl
@[simp] theorem State.addCnt_ci (s : State) (c : Cnt) (n i b : Nat) : (s.addCnt c n i b).ci = s.ci := rfl
@[simp] theorem State.addCnt_sc (s : State) (c : Cnt) (n i b : Nat) : (s.addCnt c n i b).sc = s.sc := rfl
@[simp] theorem State.addCnt_pw (s : State) (c : Cnt) (n i b : Nat) : (s.addCnt c n i b).pw = s.pw := rfl
@[simp] theorem State.addCnt_rs (s : State) (c : Cnt) (n i b : Nat) : (s.addCnt c n i b).rs = s.rs := rfl
@[simp] theorem State.addCnt_bt (s : State) (c : Cnt) (n i b : Nat) : (s.addCnt c n i b).bt = s.bt := rfl
@[simp] theorem State.addCnt_mg (s : State) (c : Cnt) (n i b : Nat) : (s.addCnt c n i b).mg = s.mg := rfl
@[simp] theorem State.addCnt_er (s : State) (c : Cnt) (n i b : Nat) : (s.addCnt c n i b).er = s.er := rfl
@[simp] theorem State.addCnt_tr (s : State) (c : Cnt) (n i b : Nat) : (s.addCnt c n i b).tr = s.tr := rfl
@[simp] theorem State.addCnt_st (s : State) (c : Cnt) (n i b : Nat) : (s.addCnt c n i b).st = s.st := rfl
@[simp] theorem State.addCnt_free (s : State) (c : Cnt) (n i b : Nat) : (s.addCnt c n i b).free = s.free := rfl
@[simp] theorem State.addCnt_pending (s : State) (c : Cnt) (n i b : Nat) : (s.addCnt c n i b).pending = s.pending := rfl

/-! ### addSlot -/

@[simp] theorem State.addSlot_tm (s : State) (cls inst n k : Nat) : (s.addSlot cls inst n k).tm = s.tm := rfl
@[simp] theorem State.addSlot_hl (s : State) (cls inst n k : Nat) : (s.addSlot cls inst n k).hl = s.hl := rfl
@[simp] theorem State.addSlot_op (s : State) (cls inst n k : Nat) : (s.addSlot cls inst n k).op = s.op := rfl
@[simp] theorem State.addSlot_cq (s : State) (cls inst n k : Nat) : (s.addSlot cls inst n k).cq = s.cq := rfl
@[simp] theorem State.addSlot_wh (s : State) (cls inst n k : Nat) : (s.addSlot cls inst n k).wh = s.wh := rfl
@[simp] theorem State.addSlot_kv (s : State) (cls inst n k : Nat) : (s.addSlot cls inst n k).kv = s.kv := rfl
@[simp] theorem State.addSlot_tl (s : State) (cls inst n k : Nat) : (s.addSlot cls inst n k).tl = s.tl := rfl
@[simp] theorem State.addSlot_mm (s : State) (cls inst n k : Nat) : (s.addSlot cls inst n k).mm = s.mm := rfl
@[simp] theorem State.addSlot_ci (s : State) (cls inst n k : Nat) : (s.addSlot cls inst n k).ci = s.ci := rfl
@[simp] theorem State.addSlot_sc (s : State) (cls inst n k : Nat) : (s.addSlot cls inst n k).sc = s.sc := rfl
@[simp] theorem State.addSlot_pw (s : State) (cls inst n k : Nat) : (s.addSlot cls inst n k).pw = s.pw := rfl
@[simp] theorem State.addSlot_rs (s : State) (cls inst n k : Nat) : (s.addSlot cls inst n k).rs = s.rs := rfl
@[simp] theorem State.addSlot_bt (s : State) (cls inst n k : Nat) : (s.addSlot cls inst n k).bt = s.bt := rfl
@[simp] theorem State.addSlot_mg (s : State) (cls inst n k : Nat) : (s.addSlot cls inst n k).mg = s.mg := rfl
@[simp] theorem State.addSlot_er (s : State) (cls inst n k : Nat) : (s.addSlot cls inst n k).er = s.er := rfl
@[simp] theorem State.addSlot_tr (s : State) (cls inst n k : Nat) : (s.addSlot cls inst n k).tr = s.tr := rfl
@[simp] theorem State.addSlot_st (s : State) (cls inst n k : Nat) : (s.addSlot cls inst n k).st = s.st := rfl
@[simp] theorem State.addSlot_free (s : State) (cls inst n k : Nat) : (s.addSlot cls inst n k).free = s.free := rfl
@[simp] theorem State.addSlot_pending (s : State) (cls inst n k : Nat) : (s.addSlot cls inst n k).pending = s.pending := rfl

/-! ### setPort -/

@[simp] theorem State.setPort_tm (s : State) (p : Nat) (x : Port) : (s.setPort p x).tm = s.tm := rfl
@[simp] theorem State.setPort_rg (s : State) (p : Nat) (x : Port) : (s.setPort p x).rg = s.rg := rfl
@[simp] theorem State.setPort_hl (s : State) (p : Nat) (x : Port) : (s.setPort p x).hl = s.hl := rfl
@[simp] theorem State.setPort_cq (s : State) (p : Nat) (x : Port) : (s.setPort p x).cq = s.cq := rfl
@[simp] theorem State.setPort_wh (s : State) (p : Nat) (x : Port) : (s.setPort p x).wh = s.wh := rfl
@[simp] theorem State.setPort_kv (s : State) (p : Nat) (x : Port) : (s.setPort p x).kv = s.kv := rfl
@[simp] theorem State.setPort_tl (s : State) (p : Nat) (x : Port) : (s.setPort p x).tl = s.tl := rfl
@[simp] theorem State.setPort_mm (s : State) (p : Nat) (x : Port) : (s.setPort p x).mm = s.mm := rfl
@[simp] theorem State.setPort_ci (s : State) (p : Nat) (x : Port) : (s.setPort p x).ci = s.ci := rfl
@[simp] theorem State.setPort_sc (s : State) (p : Nat) (x : Port) : (s.setPort p x).sc = s.sc := rfl
@[simp] theorem State.setPort_pw (s : State) (p : Nat) (x : Port) : (s.setPort p x).pw = s.pw := rfl
@[simp] theorem State.setPort_rs (s : State) (p : Nat) (x : Port) : (s.setPort p x).rs = s.rs := rfl
@[simp] theorem State.setPort_bt (s : State) (p : Nat) (x : Port) : (s.setPort p x).bt = s.bt := rfl
@[simp] theorem State.setPort_mg (s : State) (p : Nat) (x : Port) : (s.setPort p x).mg = s.mg := rfl
@[simp] theorem State.setPort_er (s : State) (p : Nat) (x : Port) : (s.setPort p x).er = s.er := rfl
@[simp] theorem State.setPort_tr (s : State) (p : Nat) (x : Port) : (s.setPort p x).tr = s.tr := rfl
@[simp] theorem State.setPort_st (s : State) (p : Nat) (x : Port) : (s.setPort p x).st = s.st := rfl
@[simp] theorem State.setPort_free (s : State) (p : Nat) (x : Port) : (s.setPort p x).free = s.free := rfl
@[simp] theorem State.setPort_pending (s : State) (p : Nat) (x : Port) : (s.setPort p x).pending = s.pending := rfl

/-! ### setQueue -/

@[simp] theorem State.setQueue_tm (s : State) (q : Nat) (x : Queue) : (s.setQueue q x).tm = s.tm := rfl
@[simp] theorem State.setQueue_rg (s : State) (q : Nat) (x : Queue) : (s.setQueue q x).rg = s.rg := rfl
@[simp] theorem State.setQueue_hl (s : State) (q : Nat) (x : Queue) : (s.setQueue q x).hl = s.hl := rfl
@[simp] theorem State.setQueue_op (s : State) (q : Nat) (x : Queue) : (s.setQueue q x).op = s.op := rfl
@[simp] theorem State.setQueue_wh (s : State) (q : Nat) (x : Queue) : (s.setQueue q x).wh = s.wh := rfl
@[simp] theorem State.setQueue_kv (s : State) (q : Nat) (x : Queue) : (s.setQueue q x).kv = s.kv := rfl
@[simp] theorem State.setQueue_tl (s : State) (q : Nat) (x : Queue) : (s.setQueue q x).tl = s.tl := rfl
@[simp] theorem State.setQueue_mm (s : State) (q : Nat) (x : Queue) : (s.setQueue q x).mm = s.mm := rfl
@[simp] theorem State.setQueue_ci (s : State) (q : Nat) (x : Queue) : (s.setQueue q x).ci = s.ci := rfl
@[simp] theorem State.setQueue_sc (s : State) (q : Nat) (x : Queue) : (s.setQueue q x).sc = s.sc := rfl
@[simp] theorem State.setQueue_pw (s : State) (q : Nat) (x : Queue) : (s.setQueue q x).pw = s.pw := rfl
@[simp] theorem State.setQueue_rs (s : State) (q : Nat) (x : Queue) : (s.setQueue q x).rs = s.rs := rfl
@[simp] theorem State.setQueue_bt (s : State) (q : Nat) (x : Queue) : (s.setQueue q x).bt = s.bt := rfl
@[simp] theorem State.setQueue_mg (s : State) (q : Nat) (x : Queue) : (s.setQueue q x).mg = s.mg := rfl
@[simp] theorem State.setQueue_er (s : State) (q : Nat) (x : Queue) : (s.setQueue q x).er = s.er := rfl
@[simp] theorem State.setQueue_tr (s : State) (q : Nat) (x : Queue) : (s.setQueue q x).tr = s.tr := rfl
@[simp] theorem State.setQueue_st (s : State) (q : Nat) (x : Queue) : (s.setQueue q x).st = s.st := rfl
@[simp] theorem State.setQueue_free (s : State) (q : Nat) (x : Queue) : (s.setQueue q x).free = s.free := rfl
@[simp] theorem State.setQueue_pending (s : State) (q : Nat) (x : Queue) : (s.setQueue q x).pending = s.pending := rfl

/-! ### setGroup -/

@[simp] theorem State.setGroup_tm (s : State) (g : Nat) (x : Group) : (s.setGroup g x).tm = s.tm := rfl
@[simp] theorem State.setGroup_rg (s : State) (g : Nat) (x : Group) : (s.setGroup g x).rg = s.rg := rfl
@[simp] theorem State.setGroup_hl (s : State) (g : Nat) (x : Group) : (s.setGroup g x).hl = s.hl := rfl
@[simp] theorem State.setGroup_op (s : State) (g : Nat) (x : Group) : (s.setGroup g x).op = s.op := rfl
@[simp] theorem State.setGroup_cq (s : State) (g : Nat) (x : Group) : (s.setGroup g x).cq = s.cq := rfl
@[simp] theorem State.setGroup_kv (s : State) (g : Nat) (x : Group) : (s.setGroup g x).kv = s.kv := rfl
@[simp] theorem State.setGroup_tl (s : State) (g : Nat) (x : Group) : (s.setGroup g x).tl = s.tl := rfl
@[simp] theorem State.setGroup_mm (s : State) (g : Nat) (x : Group) : (s.setGroup g x).mm = s.mm := rfl
@[simp] theorem State.setGroup_ci (s : State) (g : Nat) (x : Group) : (s.setGroup g x).ci = s.ci := rfl
@[simp] theorem State.setGroup_sc (s : State) (g : Nat) (x : Group) : (s.setGroup g x).sc = s.sc := rfl
@[simp] theorem State.setGroup_pw (s : State) (g : Nat) (x : Group) : (s.setGroup g x).pw = s.pw := rfl
@[simp] theorem State.setGroup_rs (s : State) (g : Nat) (x : Group) : (s.setGroup g x).rs = s.rs := rfl
@[simp] theorem State.setGroup_bt (s : State) (g : Nat) (x : Group) : (s.setGroup g x).bt = s.bt := rfl
@[simp] theorem State.setGroup_mg (s : State) (g : Nat) (x : Group) : (s.setGroup g x).mg = s.mg := rfl
@[simp] theorem State.setGroup_er (s : State) (g : Nat) (x : Group) : (s.setGroup g x).er = s.er := rfl
@[simp] theorem State.setGroup_tr (s : State) (g : Nat) (x : Group) : (s.setGroup g x).tr = s.tr := rfl
@[simp] theorem State.setGroup_st (s : State) (g : Nat) (x : Group) : (s.setGroup g x).st = s.st := rfl
@[simp] theorem State.setGroup_free (s : State) (g : Nat) (x : Group) : (s.setGroup g x).free = s.free := rfl
@[simp] theorem State.setGroup_pending (s : State) (g : Nat) (x : Group) : (s.setGroup g x).pending = s.pending := rfl

/-! ### setCounter -/

@[simp] theorem State.setCounter_tm (s : State) (n : Nat) (x : Counter) : (s.setCounter n x).tm = s.tm := rfl
@[simp] theorem State.setCounter_rg (s : State) (n : Nat) (x : Counter) : (s.setCounter n x).rg = s.rg := rfl
@[simp] theorem State.setCounter_hl (s : State) (n : Nat) (x : Counter) : (s.setCounter n x).hl = s.hl := rfl
@[simp] theorem State.setCounter_op (s : State) (n : Nat) (x : Counter) : (s.setCounter n x).op = s.op := rfl
@[simp] theorem State.setCounter_cq (s : State) (n : Nat) (x : Counter) : (s.setCounter n x).cq = s.cq := rfl
@[simp] theorem State.setCounter_wh (s : State) (n : Nat) (x : Counter) : (s.setCounter n x).wh = s.wh := rfl
@[simp] theorem State.setCounter_kv (s : State) (n : Nat) (x : Counter) : (s.setCounter n x).kv = s.kv := rfl
@[simp] theorem State.setCounter_mm (s : State) (n : Nat) (x : Counter) : (s.setCounter n x).mm = s.mm := rfl
@[simp] theorem State.setCounter_ci (s : State) (n : Nat) (x : Counter) : (s.setCounter n x).ci = s.ci := rfl
@[simp] theorem State.setCounter_sc (s : State) (n : Nat) (x : Counter) : (s.setCounter n x).sc = s.sc := rfl
@[simp] theorem State.setCounter_pw (s : State) (n : Nat) (x : Counter) : (s.setCounter n x).pw = s.pw := rfl
@[simp] theorem State.setCounter_rs (s : State) (n : Nat) (x : Counter) : (s.setCounter n x).rs = s.rs := rfl
@[simp] theorem State.setCounter_bt (s : State) (n : Nat) (x : Counter) : (s.setCounter n x).bt = s.bt := rfl
@[simp] theorem State.setCounter_mg (s : State) (n : Nat) (x : Counter) : (s.setCounter n x).mg = s.mg := rfl
@[simp] theorem State.setCounter_er (s : State) (n : Nat) (x : Counter) : (s.setCounter n x).er = s.er := rfl
@[simp] theorem State.setCounter_tr (s : State) (n : Nat) (x : Counter) : (s.setCounter n x).tr = s.tr := rfl
@[simp] theorem State.setCounter_st (s : State) (n : Nat) (x : Counter) : (s.setCounter n x).st = s.st := rfl
@[simp] theorem State.setCounter_free (s : State) (n : Nat) (x : Counter) : (s.setCounter n x).free = s.free := rfl
@[simp] theorem State.setCounter_pending (s : State) (n : Nat) (x : Counter) : (s.setCounter n x).pending = s.pending := rfl

/-! ### setCluster -/

@[simp] theorem State.setCluster_tm (s : State) (n : Nat) (x : Cluster) : (s.setCluster n x).tm = s.tm := rfl
@[simp] theorem State.setCluster_rg (s : State) (n : Nat) (x : Cluster) : (s.setCluster n x).rg = s.rg := rfl
@[simp] theorem State.setCluster_hl (s : State) (n : Nat) (x : Cluster) : (s.setCluster n x).hl = s.hl := rfl
@[simp] theorem State.setCluster_op (s : State) (n : Nat) (x : Cluster) : (s.setCluster n x).op = s.op := rfl
@[simp] theorem State.setCluster_cq (s : State) (n : Nat) (x : Cluster) : (s.setCluster n x).cq = s.cq := rfl
@[simp] theorem State.setCluster_wh (s : State) (n : Nat) (x : Cluster) : (s.setCluster n x).wh = s.wh := rfl
@[simp] theorem State.setCluster_kv (s : State) (n : Nat) (x : Cluster) : (s.setCluster n x).kv = s.kv := rfl
@[simp] theorem State.setCluster_mm (s : State) (n : Nat) (x : Cluster) : (s.setCluster n x).mm = s.mm := rfl
@[simp] theorem State.setCluster_ci (s : State) (n : Nat) (x : Cluster) : (s.setCluster n x).ci = s.ci := rfl
@[simp] theorem State.setCluster_sc (s : State) (n : Nat) (x : Cluster) : (s.setCluster n x).sc = s.sc := rfl
@[simp] theorem State.setCluster_pw (s : State) (n : Nat) (x : Cluster) : (s.setCluster n x).pw = s.pw := rfl
@[simp] theorem State.setCluster_rs (s : State) (n : Nat) (x : Cluster) : (s.setCluster n x).rs = s.rs := rfl
@[simp] theorem State.setCluster_bt (s : State) (n : Nat) (x : Cluster) : (s.setCluster n x).bt = s.bt := rfl
@[simp] theorem State.setCluster_mg (s : State) (n : Nat) (x : Cluster) : (s.setCluster n x).mg = s.mg := rfl
@[simp] theorem State.setCluster_er (s : State) (n : Nat) (x : Cluster) : (s.setCluster n x).er = s.er := rfl
@[simp] theorem State.setCluster_tr (s : State) (n : Nat) (x : Cluster) : (s.setCluster n x).tr = s.tr := rfl
@[simp] theorem State.setCluster_st (s : State) (n : Nat) (x : Cluster) : (s.setCluster n x).st = s.st := rfl
@[simp] theorem State.setCluster_free (s : State) (n : Nat) (x : Cluster) : (s.setCluster n x).free = s.free := rfl
@[simp] theorem State.setCluster_pending (s : State) (n : Nat) (x : Cluster) : (s.setCluster n x).pending = s.pending := rfl

/-! ### setCore -/

@[simp] theorem State.setCore_tm (s : State) (n : Nat) (x : Core) : (s.setCore n x).tm = s.tm := rfl
@[simp] theorem State.setCore_rg (s : State) (n : Nat) (x : Core) : (s.setCore n x).rg = s.rg := rfl
@[simp] theorem State.setCore_hl (s : State) (n : Nat) (x : Core) : (s.setCore n x).hl = s.hl := rfl
@[simp] theorem State.setCore_op (s : State) (n : Nat) (x : Core) : (s.setCore n x).op = s.op := rfl
@[simp] theorem State.setCore_cq (s : State) (n : Nat) (x : Core) : (s.setCore n x).cq = s.cq := rfl
@[simp] theorem State.setCore_wh (s : State) (n : Nat) (x : Core) : (s.setCore n x).wh = s.wh := rfl
@[simp] theorem State.setCore_kv (s : State) (n : Nat) (x : Core) : (s.setCore n x).kv = s.kv := rfl
@[simp] theorem State.setCore_mm (s : State) (n : Nat) (x : Core) : (s.setCore n x).mm = s.mm := rfl
@[simp] theorem State.setCore_ci (s : State) (n : Nat) (x : Core) : (s.setCore n x).ci = s.ci := rfl
@[simp] theorem State.setCore_sc (s : State) (n : Nat) (x : Core) : (s.setCore n x).sc = s.sc := rfl
@[simp] theorem State.setCore_pw (s : State) (n : Nat) (x : Core) : (s.setCore n x).pw = s.pw := rfl
@[simp] theorem State.setCore_rs (s : State) (n : Nat) (x : Core) : (s.setCore n x).rs = s.rs := rfl
@[simp] theorem State.setCore_bt (s : State) (n : Nat) (x : Core) : (s.setCore n x).bt = s.bt := rfl
@[simp] theorem State.setCore_mg (s : State) (n : Nat) (x : Core) : (s.setCore n x).mg = s.mg := rfl
@[simp] theorem State.setCore_er (s : State) (n : Nat) (x : Core) : (s.setCore n x).er = s.er := rfl
@[simp] theorem State.setCore_tr (s : State) (n : Nat) (x : Core) : (s.setCore n x).tr = s.tr := rfl
@[simp] theorem State.setCore_st (s : State) (n : Nat) (x : Core) : (s.setCore n x).st = s.st := rfl
@[simp] theorem State.setCore_free (s : State) (n : Nat) (x : Core) : (s.setCore n x).free = s.free := rfl
@[simp] theorem State.setCore_pending (s : State) (n : Nat) (x : Core) : (s.setCore n x).pending = s.pending := rfl

/-! ### setStack -/

@[simp] theorem State.setStack_tm (s : State) (n : Nat) (x : Stack) : (s.setStack n x).tm = s.tm := rfl
@[simp] theorem State.setStack_rg (s : State) (n : Nat) (x : Stack) : (s.setStack n x).rg = s.rg := rfl
@[simp] theorem State.setStack_hl (s : State) (n : Nat) (x : Stack) : (s.setStack n x).hl = s.hl := rfl
@[simp] theorem State.setStack_op (s : State) (n : Nat) (x : Stack) : (s.setStack n x).op = s.op := rfl
@[simp] theorem State.setStack_cq (s : State) (n : Nat) (x : Stack) : (s.setStack n x).cq = s.cq := rfl
@[simp] theorem State.setStack_wh (s : State) (n : Nat) (x : Stack) : (s.setStack n x).wh = s.wh := rfl
@[simp] theorem State.setStack_kv (s : State) (n : Nat) (x : Stack) : (s.setStack n x).kv = s.kv := rfl
@[simp] theorem State.setStack_tl (s : State) (n : Nat) (x : Stack) : (s.setStack n x).tl = s.tl := rfl
@[simp] theorem State.setStack_ci (s : State) (n : Nat) (x : Stack) : (s.setStack n x).ci = s.ci := rfl
@[simp] theorem State.setStack_sc (s : State) (n : Nat) (x : Stack) : (s.setStack n x).sc = s.sc := rfl
@[simp] theorem State.setStack_pw (s : State) (n : Nat) (x : Stack) : (s.setStack n x).pw = s.pw := rfl
@[simp] theorem State.setStack_rs (s : State) (n : Nat) (x : Stack) : (s.setStack n x).rs = s.rs := rfl
@[simp] theorem State.setStack_bt (s : State) (n : Nat) (x : Stack) : (s.setStack n x).bt = s.bt := rfl
@[simp] theorem State.setStack_mg (s : State) (n : Nat) (x : Stack) : (s.setStack n x).mg = s.mg := rfl
@[simp] theorem State.setStack_er (s : State) (n : Nat) (x : Stack) : (s.setStack n x).er = s.er := rfl
@[simp] theorem State.setStack_tr (s : State) (n : Nat) (x : Stack) : (s.setStack n x).tr = s.tr := rfl
@[simp] theorem State.setStack_st (s : State) (n : Nat) (x : Stack) : (s.setStack n x).st = s.st := rfl
@[simp] theorem State.setStack_free (s : State) (n : Nat) (x : Stack) : (s.setStack n x).free = s.free := rfl
@[simp] theorem State.setStack_pending (s : State) (n : Nat) (x : Stack) : (s.setStack n x).pending = s.pending := rfl

/-! ### setModule -/

@[simp] theorem State.setModule_tm (s : State) (n : Nat) (x : Module) : (s.setModule n x).tm = s.tm := rfl
@[simp] theorem State.setModule_rg (s : State) (n : Nat) (x : Module) : (s.setModule n x).rg = s.rg := rfl
@[simp] theorem State.setModule_hl (s : State) (n : Nat) (x : Module) : (s.setModule n x).hl = s.hl := rfl
@[simp] theorem State.setModule_op (s : State) (n : Nat) (x : Module) : (s.setModule n x).op = s.op := rfl
@[simp] theorem State.setModule_cq (s : State) (n : Nat) (x : Module) : (s.setModule n x).cq = s.cq := rfl
@[simp] theorem State.setModule_wh (s : State) (n : Nat) (x : Module) : (s.setModule n x).wh = s.wh := rfl
@[simp] theorem State.setModule_kv (s : State) (n : Nat) (x : Module) : (s.setModule n x).kv = s.kv := rfl
@[simp] theorem State.setModule_tl (s : State) (n : Nat) (x : Module) : (s.setModule n x).tl = s.tl := rfl
@[simp] theorem State.setModule_mm (s : State) (n : Nat) (x : Module) : (s.setModule n x).mm = s.mm := rfl
@[simp] theorem State.setModule_sc (s : State) (n : Nat) (x : Module) : (s.setModule n x).sc = s.sc := rfl
@[simp] theorem State.setModule_pw (s : State) (n : Nat) (x : Module) : (s.setModule n x).pw = s.pw := rfl
@[simp] theorem State.setModule_rs (s : State) (n : Nat) (x : Module) : (s.setModule n x).rs = s.rs := rfl
@[simp] theorem State.setModule_bt (s : State) (n : Nat) (x : Module) : (s.setModule n x).bt = s.bt := rfl
@[simp] theorem State.setModule_mg (s : State) (n : Nat) (x : Module) : (s.setModule n x).mg = s.mg := rfl
@[simp] theorem State.setModule_er (s : State) (n : Nat) (x : Module) : (s.setModule n x).er = s.er := rfl
@[simp] theorem State.setModule_tr (s : State) (n : Nat) (x : Module) : (s.setModule n x).tr = s.tr := rfl
@[simp] theorem State.setModule_st (s : State) (n : Nat) (x : Module) : (s.setModule n x).st = s.st := rfl
@[simp] theorem State.setModule_free (s : State) (n : Nat) (x : Module) : (s.setModule n x).free = s.free := rfl
@[simp] theorem State.setModule_pending (s : State) (n : Nat) (x : Module) : (s.setModule n x).pending = s.pending := rfl

/-! ### setCtx -/

@[simp] theorem State.setCtx_tm (s : State) (n : Nat) (x : Ctx) : (s.setCtx n x).tm = s.tm := rfl
@[simp] theorem State.setCtx_rg (s : State) (n : Nat) (x : Ctx) : (s.setCtx n x).rg = s.rg := rfl
@[simp] theorem State.setCtx_hl (s : State) (n : Nat) (x : Ctx) : (s.setCtx n x).hl = s.hl := rfl
@[simp] theorem State.setCtx_op (s : State) (n : Nat) (x : Ctx) : (s.setCtx n x).op = s.op := rfl
@[simp] theorem State.setCtx_cq (s : State) (n : Nat) (x : Ctx) : (s.setCtx n x).cq = s.cq := rfl
@[simp] theorem State.setCtx_wh (s : State) (n : Nat) (x : Ctx) : (s.setCtx n x).wh = s.wh := rfl
@[simp] theorem State.setCtx_kv (s : State) (n : Nat) (x : Ctx) : (s.setCtx n x).kv = s.kv := rfl
@[simp] theorem State.setCtx_tl (s : State) (n : Nat) (x : Ctx) : (s.setCtx n x).tl = s.tl := rfl
@[simp] theorem State.setCtx_mm (s : State) (n : Nat) (x : Ctx) : (s.setCtx n x).mm = s.mm := rfl
@[simp] theorem State.setCtx_ci (s : State) (n : Nat) (x : Ctx) : (s.setCtx n x).ci = s.ci := rfl
@[simp] theorem State.setCtx_pw (s : State) (n : Nat) (x : Ctx) : (s.setCtx n x).pw = s.pw := rfl
@[simp] theorem State.setCtx_rs (s : State) (n : Nat) (x : Ctx) : (s.setCtx n x).rs = s.rs := rfl
@[simp] theorem State.setCtx_bt (s : State) (n : Nat) (x : Ctx) : (s.setCtx n x).bt = s.bt := rfl
@[simp] theorem State.setCtx_mg (s : State) (n : Nat) (x : Ctx) : (s.setCtx n x).mg = s.mg := rfl
@[simp] theorem State.setCtx_er (s : State) (n : Nat) (x : Ctx) : (s.setCtx n x).er = s.er := rfl
@[simp] theorem State.setCtx_tr (s : State) (n : Nat) (x : Ctx) : (s.setCtx n x).tr = s.tr := rfl
@[simp] theorem State.setCtx_st (s : State) (n : Nat) (x : Ctx) : (s.setCtx n x).st = s.st := rfl
@[simp] theorem State.setCtx_free (s : State) (n : Nat) (x : Ctx) : (s.setCtx n x).free = s.free := rfl
@[simp] theorem State.setCtx_pending (s : State) (n : Nat) (x : Ctx) : (s.setCtx n x).pending = s.pending := rfl

/-! ### setClk -/

@[simp] theorem State.setClk_tm (s : State) (n : Nat) (x : Clk) : (s.setClk n x).tm = s.tm := rfl
@[simp] theorem State.setClk_rg (s : State) (n : Nat) (x : Clk) : (s.setClk n x).rg = s.rg := rfl
@[simp] theorem State.setClk_hl (s : State) (n : Nat) (x : Clk) : (s.setClk n x).hl = s.hl := rfl
@[simp] theorem State.setClk_op (s : State) (n : Nat) (x : Clk) : (s.setClk n x).op = s.op := rfl
@[simp] theorem State.setClk_cq (s : State) (n : Nat) (x : Clk) : (s.setClk n x).cq = s.cq := rfl
@[simp] theorem State.setClk_wh (s : State) (n : Nat) (x : Clk) : (s.setClk n x).wh = s.wh := rfl
@[simp] theorem State.setClk_kv (s : State) (n : Nat) (x : Clk) : (s.setClk n x).kv = s.kv := rfl
@[simp] theorem State.setClk_tl (s : State) (n : Nat) (x : Clk) : (s.setClk n x).tl = s.tl := rfl
@[simp] theorem State.setClk_mm (s : State) (n : Nat) (x : Clk) : (s.setClk n x).mm = s.mm := rfl
@[simp] theorem State.setClk_ci (s : State) (n : Nat) (x : Clk) : (s.setClk n x).ci = s.ci := rfl
@[simp] theorem State.setClk_sc (s : State) (n : Nat) (x : Clk) : (s.setClk n x).sc = s.sc := rfl
@[simp] theorem State.setClk_rs (s : State) (n : Nat) (x : Clk) : (s.setClk n x).rs = s.rs := rfl
@[simp] theorem State.setClk_bt (s : State) (n : Nat) (x : Clk) : (s.setClk n x).bt = s.bt := rfl
@[simp] theorem State.setClk_mg (s : State) (n : Nat) (x : Clk) : (s.setClk n x).mg = s.mg := rfl
@[simp] theorem State.setClk_er (s : State) (n : Nat) (x : Clk) : (s.setClk n x).er = s.er := rfl
@[simp] theorem State.setClk_tr (s : State) (n : Nat) (x : Clk) : (s.setClk n x).tr = s.tr := rfl
@[simp] theorem State.setClk_st (s : State) (n : Nat) (x : Clk) : (s.setClk n x).st = s.st := rfl
@[simp] theorem State.setClk_free (s : State) (n : Nat) (x : Clk) : (s.setClk n x).free = s.free := rfl
@[simp] theorem State.setClk_pending (s : State) (n : Nat) (x : Clk) : (s.setClk n x).pending = s.pending := rfl

/-! ### setCmd -/

@[simp] theorem State.setCmd_tm (s : State) (c : Cmd) : (s.setCmd c).tm = s.tm := rfl
@[simp] theorem State.setCmd_rg (s : State) (c : Cmd) : (s.setCmd c).rg = s.rg := rfl
@[simp] theorem State.setCmd_hl (s : State) (c : Cmd) : (s.setCmd c).hl = s.hl := rfl
@[simp] theorem State.setCmd_op (s : State) (c : Cmd) : (s.setCmd c).op = s.op := rfl
@[simp] theorem State.setCmd_wh (s : State) (c : Cmd) : (s.setCmd c).wh = s.wh := rfl
@[simp] theorem State.setCmd_kv (s : State) (c : Cmd) : (s.setCmd c).kv = s.kv := rfl
@[simp] theorem State.setCmd_tl (s : State) (c : Cmd) : (s.setCmd c).tl = s.tl := rfl
@[simp] theorem State.setCmd_mm (s : State) (c : Cmd) : (s.setCmd c).mm = s.mm := rfl
@[simp] theorem State.setCmd_ci (s : State) (c : Cmd) : (s.setCmd c).ci = s.ci := rfl
@[simp] theorem State.setCmd_sc (s : State) (c : Cmd) : (s.setCmd c).sc = s.sc := rfl
@[simp] theorem State.setCmd_pw (s : State) (c : Cmd) : (s.setCmd c).pw = s.pw := rfl
@[simp] theorem State.setCmd_rs (s : State) (c : Cmd) : (s.setCmd c).rs = s.rs := rfl
@[simp] theorem State.setCmd_bt (s : State) (c : Cmd) : (s.setCmd c).bt = s.bt := rfl
@[simp] theorem State.setCmd_mg (s : State) (c : Cmd) : (s.setCmd c).mg = s.mg := rfl
@[simp] theorem State.setCmd_er (s : State) (c : Cmd) : (s.setCmd c).er = s.er := rfl
@[simp] theorem State.setCmd_tr (s : State) (c : Cmd) : (s.setCmd c).tr = s.tr := rfl
@[simp] theorem State.setCmd_st (s : State) (c : Cmd) : (s.setCmd c).st = s.st := rfl
@[simp] theorem State.setCmd_free (s : State) (c : Cmd) : (s.setCmd c).free = s.free := rfl
@[simp] theorem State.setCmd_pending (s : State) (c : Cmd) : (s.setCmd c).pending = s.pending := rfl

/-! ### dropCmd -/

@[simp] theorem State.dropCmd_tm (s : State) (q seq : Nat) : (s.dropCmd q seq).tm = s.tm := rfl
@[simp] theorem State.dropCmd_rg (s : State) (q seq : Nat) : (s.dropCmd q seq).rg = s.rg := rfl
@[simp] theorem State.dropCmd_hl (s : State) (q seq : Nat) : (s.dropCmd q seq).hl = s.hl := rfl
@[simp] theorem State.dropCmd_op (s : State) (q seq : Nat) : (s.dropCmd q seq).op = s.op := rfl
@[simp] theorem State.dropCmd_wh (s : State) (q seq : Nat) : (s.dropCmd q seq).wh = s.wh := rfl
@[simp] theorem State.dropCmd_kv (s : State) (q seq : Nat) : (s.dropCmd q seq).kv = s.kv := rfl
@[simp] theorem State.dropCmd_tl (s : State) (q seq : Nat) : (s.dropCmd q seq).tl = s.tl := rfl
@[simp] theorem State.dropCmd_mm (s : State) (q seq : Nat) : (s.dropCmd q seq).mm = s.mm := rfl
@[simp] theorem State.dropCmd_ci (s : State) (q seq : Nat) : (s.dropCmd q seq).ci = s.ci := rfl
@[simp] theorem State.dropCmd_sc (s : State) (q seq : Nat) : (s.dropCmd q seq).sc = s.sc := rfl
@[simp] theorem State.dropCmd_pw (s : State) (q seq : Nat) : (s.dropCmd q seq).pw = s.pw := rfl
@[simp] theorem State.dropCmd_rs (s : State) (q seq : Nat) : (s.dropCmd q seq).rs = s.rs := rfl
@[simp] theorem State.dropCmd_bt (s : State) (q seq : Nat) : (s.dropCmd q seq).bt = s.bt := rfl
@[simp] theorem State.dropCmd_mg (s : State) (q seq : Nat) : (s.dropCmd q seq).mg = s.mg := rfl
@[simp] theorem State.dropCmd_er (s : State) (q seq : Nat) : (s.dropCmd q seq).er = s.er := rfl
@[simp] theorem State.dropCmd_tr (s : State) (q seq : Nat) : (s.dropCmd q seq).tr = s.tr := rfl
@[simp] theorem State.dropCmd_st (s : State) (q seq : Nat) : (s.dropCmd q seq).st = s.st := rfl
@[simp] theorem State.dropCmd_free (s : State) (q seq : Nat) : (s.dropCmd q seq).free = s.free := rfl
@[simp] theorem State.dropCmd_pending (s : State) (q seq : Nat) : (s.dropCmd q seq).pending = s.pending := rfl

/-! ### raise -/

@[simp] theorem State.raise_tm (s : State) (code sev inst unit ctx q cmd detail : Nat) : (s.raise code sev inst unit ctx q cmd detail).tm = s.tm := rfl
@[simp] theorem State.raise_rg (s : State) (code sev inst unit ctx q cmd detail : Nat) : (s.raise code sev inst unit ctx q cmd detail).rg = s.rg := rfl
@[simp] theorem State.raise_hl (s : State) (code sev inst unit ctx q cmd detail : Nat) : (s.raise code sev inst unit ctx q cmd detail).hl = s.hl := rfl
@[simp] theorem State.raise_op (s : State) (code sev inst unit ctx q cmd detail : Nat) : (s.raise code sev inst unit ctx q cmd detail).op = s.op := rfl
@[simp] theorem State.raise_cq (s : State) (code sev inst unit ctx q cmd detail : Nat) : (s.raise code sev inst unit ctx q cmd detail).cq = s.cq := rfl
@[simp] theorem State.raise_wh (s : State) (code sev inst unit ctx q cmd detail : Nat) : (s.raise code sev inst unit ctx q cmd detail).wh = s.wh := rfl
@[simp] theorem State.raise_kv (s : State) (code sev inst unit ctx q cmd detail : Nat) : (s.raise code sev inst unit ctx q cmd detail).kv = s.kv := rfl
@[simp] theorem State.raise_tl (s : State) (code sev inst unit ctx q cmd detail : Nat) : (s.raise code sev inst unit ctx q cmd detail).tl = s.tl := rfl
@[simp] theorem State.raise_mm (s : State) (code sev inst unit ctx q cmd detail : Nat) : (s.raise code sev inst unit ctx q cmd detail).mm = s.mm := rfl
@[simp] theorem State.raise_ci (s : State) (code sev inst unit ctx q cmd detail : Nat) : (s.raise code sev inst unit ctx q cmd detail).ci = s.ci := rfl
@[simp] theorem State.raise_sc (s : State) (code sev inst unit ctx q cmd detail : Nat) : (s.raise code sev inst unit ctx q cmd detail).sc = s.sc := rfl
@[simp] theorem State.raise_pw (s : State) (code sev inst unit ctx q cmd detail : Nat) : (s.raise code sev inst unit ctx q cmd detail).pw = s.pw := rfl
@[simp] theorem State.raise_rs (s : State) (code sev inst unit ctx q cmd detail : Nat) : (s.raise code sev inst unit ctx q cmd detail).rs = s.rs := rfl
@[simp] theorem State.raise_bt (s : State) (code sev inst unit ctx q cmd detail : Nat) : (s.raise code sev inst unit ctx q cmd detail).bt = s.bt := rfl
@[simp] theorem State.raise_mg (s : State) (code sev inst unit ctx q cmd detail : Nat) : (s.raise code sev inst unit ctx q cmd detail).mg = s.mg := rfl
@[simp] theorem State.raise_tr (s : State) (code sev inst unit ctx q cmd detail : Nat) : (s.raise code sev inst unit ctx q cmd detail).tr = s.tr := rfl
@[simp] theorem State.raise_st (s : State) (code sev inst unit ctx q cmd detail : Nat) : (s.raise code sev inst unit ctx q cmd detail).st = s.st := rfl
@[simp] theorem State.raise_free (s : State) (code sev inst unit ctx q cmd detail : Nat) : (s.raise code sev inst unit ctx q cmd detail).free = s.free := rfl
@[simp] theorem State.raise_pending (s : State) (code sev inst unit ctx q cmd detail : Nat) : (s.raise code sev inst unit ctx q cmd detail).pending = s.pending := rfl

/-! ### Free values -/

@[simp] theorem State.draw_tm (s : State) : s.draw.2.tm = s.tm := rfl
@[simp] theorem State.draw_rg (s : State) : s.draw.2.rg = s.rg := rfl
@[simp] theorem State.draw_hl (s : State) : s.draw.2.hl = s.hl := rfl
@[simp] theorem State.draw_op (s : State) : s.draw.2.op = s.op := rfl
@[simp] theorem State.draw_cq (s : State) : s.draw.2.cq = s.cq := rfl
@[simp] theorem State.draw_wh (s : State) : s.draw.2.wh = s.wh := rfl
@[simp] theorem State.draw_kv (s : State) : s.draw.2.kv = s.kv := rfl
@[simp] theorem State.draw_tl (s : State) : s.draw.2.tl = s.tl := rfl
@[simp] theorem State.draw_mm (s : State) : s.draw.2.mm = s.mm := rfl
@[simp] theorem State.draw_ci (s : State) : s.draw.2.ci = s.ci := rfl
@[simp] theorem State.draw_sc (s : State) : s.draw.2.sc = s.sc := rfl
@[simp] theorem State.draw_pw (s : State) : s.draw.2.pw = s.pw := rfl
@[simp] theorem State.draw_rs (s : State) : s.draw.2.rs = s.rs := rfl
@[simp] theorem State.draw_bt (s : State) : s.draw.2.bt = s.bt := rfl
@[simp] theorem State.draw_mg (s : State) : s.draw.2.mg = s.mg := rfl
@[simp] theorem State.draw_er (s : State) : s.draw.2.er = s.er := rfl
@[simp] theorem State.draw_tr (s : State) : s.draw.2.tr = s.tr := rfl
@[simp] theorem State.draw_st (s : State) : s.draw.2.st = s.st := rfl
@[simp] theorem State.draw_pending (s : State) : s.draw.2.pending = s.pending := rfl

/-! ### Registers -/

@[simp] theorem State.setFld_cnts (s : State) (f : Field) (v i b : Nat) : (s.setFld f v i b).rg.cnts = s.rg.cnts := rfl
@[simp] theorem State.setFld_held (s : State) (f : Field) (v i b : Nat) : (s.setFld f v i b).rg.held = s.rg.held := rfl
@[simp] theorem State.setFld_slots (s : State) (f : Field) (v i b : Nat) : (s.setFld f v i b).rg.slots = s.rg.slots := rfl
@[simp] theorem State.setCnt_fields (s : State) (c : Cnt) (v i b : Nat) : (s.setCnt c v i b).rg.fields = s.rg.fields := rfl
@[simp] theorem State.setCnt_held (s : State) (c : Cnt) (v i b : Nat) : (s.setCnt c v i b).rg.held = s.rg.held := rfl
@[simp] theorem State.setCnt_slots (s : State) (c : Cnt) (v i b : Nat) : (s.setCnt c v i b).rg.slots = s.rg.slots := rfl
@[simp] theorem State.addCnt_fields (s : State) (c : Cnt) (n i b : Nat) : (s.addCnt c n i b).rg.fields = s.rg.fields := rfl
@[simp] theorem State.addCnt_held (s : State) (c : Cnt) (n i b : Nat) : (s.addCnt c n i b).rg.held = s.rg.held := rfl
@[simp] theorem State.addCnt_slots (s : State) (c : Cnt) (n i b : Nat) : (s.addCnt c n i b).rg.slots = s.rg.slots := rfl
@[simp] theorem State.addSlot_fields (s : State) (cls inst n k : Nat) : (s.addSlot cls inst n k).rg.fields = s.rg.fields := rfl
@[simp] theorem State.addSlot_held (s : State) (cls inst n k : Nat) : (s.addSlot cls inst n k).rg.held = s.rg.held := rfl
@[simp] theorem State.addSlot_cnts (s : State) (cls inst n k : Nat) : (s.addSlot cls inst n k).rg.cnts = s.rg.cnts := rfl

/-- A field put in force reads as the value cut to its width. -/
@[simp] theorem State.fld_setFld (s : State) (f : Field) (v i b : Nat) : (s.setFld f v i b).fld f i b = v % 2 ^ f.width := by
  simp [State.fld, State.setFld]

/-- It leaves every field with another key alone. -/
theorem State.fld_setFld_ne (s : State) (f g : Field) (v i b j c : Nat) (h : fieldKey g j c ≠ fieldKey f i b) :
    (s.setFld f v i b).fld g j c = s.fld g j c := by
  simp only [State.fld, State.setFld]
  generalize hd : resetOf g j = d
  generalize he : resetOf f i = e
  have key : ∀ m : SMap Nat, look d (put e m (fieldKey f i b) (v % 2 ^ f.width)) (fieldKey g j c) = look d m (fieldKey g j c) := by
    intro m
    exact look_put_other m _ h
  exact key _

@[simp] theorem State.fld_setCnt (s : State) (c : Cnt) (v i b : Nat) (g : Field) (j k : Nat) :
    (s.setCnt c v i b).fld g j k = s.fld g j k := rfl
@[simp] theorem State.fld_addCnt (s : State) (c : Cnt) (v i b : Nat) (g : Field) (j k : Nat) :
    (s.addCnt c v i b).fld g j k = s.fld g j k := rfl
@[simp] theorem State.fld_addSlot (s : State) (cls inst n v : Nat) (g : Field) (j k : Nat) :
    (s.addSlot cls inst n v).fld g j k = s.fld g j k := rfl
@[simp] theorem State.cnt_setFld (s : State) (f : Field) (v i b : Nat) (c : Cnt) (j k : Nat) :
    (s.setFld f v i b).cnt c j k = s.cnt c j k := rfl
@[simp] theorem State.cnt_addSlot (s : State) (cls inst n v : Nat) (c : Cnt) (j k : Nat) :
    (s.addSlot cls inst n v).cnt c j k = s.cnt c j k := rfl

/-- A counter set reads as the value modulo 2^64, and one added to as the sum. -/
@[simp] theorem State.cnt_setCnt (s : State) (c : Cnt) (v i b : Nat) : (s.setCnt c v i b).cnt c i b = v % 2 ^ 64 := by
  simp [State.cnt, State.setCnt]

@[simp] theorem State.cnt_addCnt (s : State) (c : Cnt) (n i b : Nat) :
    (s.addCnt c n i b).cnt c i b = (s.cnt c i b + n) % 2 ^ 64 := by
  simp [State.addCnt]

theorem State.cnt_setCnt_ne (s : State) (c d : Cnt) (v i b j k : Nat) (h : cntKey d j k ≠ cntKey c i b) :
    (s.setCnt c v i b).cnt d j k = s.cnt d j k := look_put_ne 0 _ _ h

theorem State.cnt_addCnt_ne (s : State) (c d : Cnt) (n i b j k : Nat) (h : cntKey d j k ≠ cntKey c i b) :
    (s.addCnt c n i b).cnt d j k = s.cnt d j k := State.cnt_setCnt_ne s c d _ i b j k h

/-! ### Sub-states by number -/

@[simp] theorem State.port_setPort (s : State) (p : Nat) (x : Port) : (s.setPort p x).port p = x := look_put_self _ _ _ _
theorem State.port_setPort_ne (s : State) (p q : Nat) (x : Port) (h : q ≠ p) : (s.setPort p x).port q = s.port q :=
  look_put_ne _ _ _ h
@[simp] theorem State.queue_setQueue (s : State) (n : Nat) (x : Queue) : (s.setQueue n x).queue n = x := look_put_self _ _ _ _
theorem State.queue_setQueue_ne (s : State) (n m : Nat) (x : Queue) (h : m ≠ n) : (s.setQueue n x).queue m = s.queue m :=
  look_put_ne _ _ _ h
@[simp] theorem State.group_setGroup (s : State) (n : Nat) (x : Group) : (s.setGroup n x).group n = x := look_put_self _ _ _ _
theorem State.group_setGroup_ne (s : State) (n m : Nat) (x : Group) (h : m ≠ n) : (s.setGroup n x).group m = s.group m :=
  look_put_ne _ _ _ h
@[simp] theorem State.core_setCore (s : State) (n : Nat) (x : Core) : (s.setCore n x).core n = x := look_put_self _ _ _ _
theorem State.core_setCore_ne (s : State) (n m : Nat) (x : Core) (h : m ≠ n) : (s.setCore n x).core m = s.core m :=
  look_put_ne _ _ _ h
@[simp] theorem State.cluster_setCluster (s : State) (n : Nat) (x : Cluster) : (s.setCluster n x).cluster n = x :=
  look_put_self _ _ _ _
theorem State.cluster_setCluster_ne (s : State) (n m : Nat) (x : Cluster) (h : m ≠ n) :
    (s.setCluster n x).cluster m = s.cluster m := look_put_ne _ _ _ h
@[simp] theorem State.counter_setCounter (s : State) (n : Nat) (x : Counter) : (s.setCounter n x).counter n = x :=
  look_put_self _ _ _ _
theorem State.counter_setCounter_ne (s : State) (n m : Nat) (x : Counter) (h : m ≠ n) :
    (s.setCounter n x).counter m = s.counter m := look_put_ne _ _ _ h
@[simp] theorem State.stack_setStack (s : State) (n : Nat) (x : Stack) : (s.setStack n x).stack n = x := look_put_self _ _ _ _
theorem State.stack_setStack_ne (s : State) (n m : Nat) (x : Stack) (h : m ≠ n) : (s.setStack n x).stack m = s.stack m :=
  look_put_ne _ _ _ h
@[simp] theorem State.module_setModule (s : State) (n : Nat) (x : Module) : (s.setModule n x).module n = x :=
  look_put_self _ _ _ _
theorem State.module_setModule_ne (s : State) (n m : Nat) (x : Module) (h : m ≠ n) :
    (s.setModule n x).module m = s.module m := look_put_ne _ _ _ h
@[simp] theorem State.ctx_setCtx (s : State) (n : Nat) (x : Ctx) : (s.setCtx n x).ctx n = x := look_put_self _ _ _ _
theorem State.ctx_setCtx_ne (s : State) (n m : Nat) (x : Ctx) (h : m ≠ n) : (s.setCtx n x).ctx m = s.ctx m :=
  look_put_ne _ _ _ h
@[simp] theorem State.clk_setClk (s : State) (n : Nat) (x : Clk) : (s.setClk n x).clk n = x := look_put_self _ _ _ _
theorem State.clk_setClk_ne (s : State) (n m : Nat) (x : Clk) (h : m ≠ n) : (s.setClk n x).clk m = s.clk m :=
  look_put_ne _ _ _ h

/-! ### Commands in hand -/

/-- A command found in hand is the one asked for. -/
theorem State.cmd?_key (s : State) (q seq : Nat) (c : Cmd) (h : s.cmd? q seq = some c) : c.q = q ∧ c.seq = seq := by
  have := List.find?_some h
  simpa using this

/-- A command dropped is no longer in hand. -/
@[simp] theorem State.cmd?_dropCmd (s : State) (q seq : Nat) : (s.dropCmd q seq).cmd? q seq = none := by
  simp only [State.cmd?, State.dropCmd, List.find?_eq_none, List.mem_filter]
  rintro x ⟨_, h⟩ hx
  simp [hx] at h

/-- The record of a command replaced is the one in hand. -/
theorem State.cmd?_setCmd (s : State) (c d : Cmd) (h : s.cmd? c.q c.seq = some d) : (s.setCmd c).cmd? c.q c.seq = some c := by
  simp only [State.cmd?, State.setCmd] at *
  generalize s.cq.cmds = l at h
  induction l with
  | nil => simp at h
  | cons e r ih =>
    rcases he : (e.q == c.q && e.seq == c.seq) with _ | _
    · rw [List.find?_cons_of_neg (by rw [he]; decide)] at h
      rw [List.map_cons, if_neg (by rw [he]; decide), List.find?_cons_of_neg (by rw [he]; decide)]
      exact ih h
    · rw [List.map_cons, if_pos he, List.find?_cons_of_pos (by simp)]

/-! ### Errors -/

/-- An error raised goes to the collector, detected now. -/
@[simp] theorem State.raise_collector (s : State) (code sev inst unit ctx q cmd detail : Nat) :
    (s.raise code sev inst unit ctx q cmd detail).er.collector =
      s.er.collector ++ [{ time := s.tm.now, code := code, sev := sev, afterCut := s.halted, inst := inst, unit := unit
                           ctx := ctx, q := q, cmd := cmd, detail := detail }] := rfl

end Sys2Proof.Machine
end

