-- ==== Sys2Proof/Laws/Frames.lean ====
section
/-! SUPPORT. What the shared operations can do, once for each: sending, interrupts, device writes, stops, trace records and
the write of a register with an operation of its own. -/

namespace Sys2Proof.Machine

/-! ## Sending -/

/-- Only the ports and the counter slots. -/
theorem State.sendPort_frame (s : State) (p : Nat) :
    s.sendPort p = { s with op := (s.sendPort p).op, rg.slots := (s.sendPort p).rg.slots } := by
  unfold State.sendPort
  split <;> rfl

@[simp] theorem State.sendPort_tm (s : State) (p : Nat) : (s.sendPort p).tm = s.tm := by rw [State.sendPort_frame]
@[simp] theorem State.sendPort_hl (s : State) (p : Nat) : (s.sendPort p).hl = s.hl := by rw [State.sendPort_frame]
@[simp] theorem State.sendPort_cq (s : State) (p : Nat) : (s.sendPort p).cq = s.cq := by rw [State.sendPort_frame]
@[simp] theorem State.sendPort_wh (s : State) (p : Nat) : (s.sendPort p).wh = s.wh := by rw [State.sendPort_frame]
@[simp] theorem State.sendPort_kv (s : State) (p : Nat) : (s.sendPort p).kv = s.kv := by rw [State.sendPort_frame]
@[simp] theorem State.sendPort_tl (s : State) (p : Nat) : (s.sendPort p).tl = s.tl := by rw [State.sendPort_frame]
@[simp] theorem State.sendPort_mm (s : State) (p : Nat) : (s.sendPort p).mm = s.mm := by rw [State.sendPort_frame]
@[simp] theorem State.sendPort_ci (s : State) (p : Nat) : (s.sendPort p).ci = s.ci := by rw [State.sendPort_frame]
@[simp] theorem State.sendPort_sc (s : State) (p : Nat) : (s.sendPort p).sc = s.sc := by rw [State.sendPort_frame]
@[simp] theorem State.sendPort_pw (s : State) (p : Nat) : (s.sendPort p).pw = s.pw := by rw [State.sendPort_frame]
@[simp] theorem State.sendPort_rs (s : State) (p : Nat) : (s.sendPort p).rs = s.rs := by rw [State.sendPort_frame]
@[simp] theorem State.sendPort_bt (s : State) (p : Nat) : (s.sendPort p).bt = s.bt := by rw [State.sendPort_frame]
@[simp] theorem State.sendPort_mg (s : State) (p : Nat) : (s.sendPort p).mg = s.mg := by rw [State.sendPort_frame]
@[simp] theorem State.sendPort_er (s : State) (p : Nat) : (s.sendPort p).er = s.er := by rw [State.sendPort_frame]
@[simp] theorem State.sendPort_tr (s : State) (p : Nat) : (s.sendPort p).tr = s.tr := by rw [State.sendPort_frame]
@[simp] theorem State.sendPort_st (s : State) (p : Nat) : (s.sendPort p).st = s.st := by rw [State.sendPort_frame]
@[simp] theorem State.sendPort_free (s : State) (p : Nat) : (s.sendPort p).free = s.free := by rw [State.sendPort_frame]
@[simp] theorem State.sendPort_pending (s : State) (p : Nat) : (s.sendPort p).pending = s.pending := by rw [State.sendPort_frame]

/-- A packet sent is listed last; only the ports and the counter slots change beside. -/
theorem State.emit_frame (s : State) (o : Out) :
    s.emit o = { s with hl.out := s.hl.out ++ [o], op := (s.emit o).op, rg.slots := (s.emit o).rg.slots } := by
  unfold State.emit
  dsimp only
  split
  · rw [State.sendPort_frame]
    rfl
  · rfl

@[simp] theorem State.emit_out (s : State) (o : Out) : (s.emit o).hl.out = s.hl.out ++ [o] := by
  rw [State.emit_frame]

@[simp] theorem State.emit_tm (s : State) (o : Out) : (s.emit o).tm = s.tm := by rw [State.emit_frame]
@[simp] theorem State.emit_cq (s : State) (o : Out) : (s.emit o).cq = s.cq := by rw [State.emit_frame]
@[simp] theorem State.emit_wh (s : State) (o : Out) : (s.emit o).wh = s.wh := by rw [State.emit_frame]
@[simp] theorem State.emit_kv (s : State) (o : Out) : (s.emit o).kv = s.kv := by rw [State.emit_frame]
@[simp] theorem State.emit_tl (s : State) (o : Out) : (s.emit o).tl = s.tl := by rw [State.emit_frame]
@[simp] theorem State.emit_mm (s : State) (o : Out) : (s.emit o).mm = s.mm := by rw [State.emit_frame]
@[simp] theorem State.emit_ci (s : State) (o : Out) : (s.emit o).ci = s.ci := by rw [State.emit_frame]
@[simp] theorem State.emit_sc (s : State) (o : Out) : (s.emit o).sc = s.sc := by rw [State.emit_frame]
@[simp] theorem State.emit_pw (s : State) (o : Out) : (s.emit o).pw = s.pw := by rw [State.emit_frame]
@[simp] theorem State.emit_rs (s : State) (o : Out) : (s.emit o).rs = s.rs := by rw [State.emit_frame]
@[simp] theorem State.emit_bt (s : State) (o : Out) : (s.emit o).bt = s.bt := by rw [State.emit_frame]
@[simp] theorem State.emit_mg (s : State) (o : Out) : (s.emit o).mg = s.mg := by rw [State.emit_frame]
@[simp] theorem State.emit_er (s : State) (o : Out) : (s.emit o).er = s.er := by rw [State.emit_frame]
@[simp] theorem State.emit_tr (s : State) (o : Out) : (s.emit o).tr = s.tr := by rw [State.emit_frame]
@[simp] theorem State.emit_st (s : State) (o : Out) : (s.emit o).st = s.st := by rw [State.emit_frame]
@[simp] theorem State.emit_free (s : State) (o : Out) : (s.emit o).free = s.free := by rw [State.emit_frame]
@[simp] theorem State.emit_pending (s : State) (o : Out) : (s.emit o).pending = s.pending := by rw [State.emit_frame]
@[simp] theorem State.emit_fields (s : State) (o : Out) : (s.emit o).rg.fields = s.rg.fields := by rw [State.emit_frame]
@[simp] theorem State.emit_cnts (s : State) (o : Out) : (s.emit o).rg.cnts = s.rg.cnts := by rw [State.emit_frame]

/-- An INTR is a packet sent. -/
theorem State.intr_frame (s : State) (v src : Nat) :
    s.intr v src = { s with hl.out := s.hl.out ++ [.intr (v % 2048) src], op := (s.intr v src).op
                            rg.slots := (s.intr v src).rg.slots } := State.emit_frame s _

/-- Only packets sent, the ports and the counter slots. -/
theorem State.blockIntr_frame (s : State) (cls inst : Nat) :
    s.blockIntr cls inst = { s with hl.out := (s.blockIntr cls inst).hl.out, op := (s.blockIntr cls inst).op
                                    rg.slots := (s.blockIntr cls inst).rg.slots } := by
  unfold State.blockIntr
  rw [State.intr_frame]
  rfl

/-- An interrupt bit set: that field reads 1, and beside it only packets sent, the ports and the counter slots change. -/
theorem State.setInt_frame (s : State) (f : Field) (i : Nat) :
    s.setInt f i = { s.setFld f 1 i with hl.out := (s.setInt f i).hl.out, op := (s.setInt f i).op
                                         rg.slots := (s.setInt f i).rg.slots } := by
  unfold State.setInt
  dsimp only
  split
  · rw [State.blockIntr_frame]
  · rfl

theorem State.setInt_fields (s : State) (f : Field) (i : Nat) :
    (s.setInt f i).rg.fields = (s.setFld f 1 i).rg.fields := by
  rw [State.setInt_frame]

@[simp] theorem State.setInt_tm (s : State) (f : Field) (i : Nat) : (s.setInt f i).tm = s.tm := by rw [State.setInt_frame]; rfl
@[simp] theorem State.setInt_cq (s : State) (f : Field) (i : Nat) : (s.setInt f i).cq = s.cq := by rw [State.setInt_frame]; rfl
@[simp] theorem State.setInt_wh (s : State) (f : Field) (i : Nat) : (s.setInt f i).wh = s.wh := by rw [State.setInt_frame]; rfl
@[simp] theorem State.setInt_kv (s : State) (f : Field) (i : Nat) : (s.setInt f i).kv = s.kv := by rw [State.setInt_frame]; rfl
@[simp] theorem State.setInt_tl (s : State) (f : Field) (i : Nat) : (s.setInt f i).tl = s.tl := by rw [State.setInt_frame]; rfl
@[simp] theorem State.setInt_mm (s : State) (f : Field) (i : Nat) : (s.setInt f i).mm = s.mm := by rw [State.setInt_frame]; rfl
@[simp] theorem State.setInt_ci (s : State) (f : Field) (i : Nat) : (s.setInt f i).ci = s.ci := by rw [State.setInt_frame]; rfl
@[simp] theorem State.setInt_sc (s : State) (f : Field) (i : Nat) : (s.setInt f i).sc = s.sc := by rw [State.setInt_frame]; rfl
@[simp] theorem State.setInt_pw (s : State) (f : Field) (i : Nat) : (s.setInt f i).pw = s.pw := by rw [State.setInt_frame]; rfl
@[simp] theorem State.setInt_rs (s : State) (f : Field) (i : Nat) : (s.setInt f i).rs = s.rs := by rw [State.setInt_frame]; rfl
@[simp] theorem State.setInt_bt (s : State) (f : Field) (i : Nat) : (s.setInt f i).bt = s.bt := by rw [State.setInt_frame]; rfl
@[simp] theorem State.setInt_mg (s : State) (f : Field) (i : Nat) : (s.setInt f i).mg = s.mg := by rw [State.setInt_frame]; rfl
@[simp] theorem State.setInt_er (s : State) (f : Field) (i : Nat) : (s.setInt f i).er = s.er := by rw [State.setInt_frame]; rfl
@[simp] theorem State.setInt_tr (s : State) (f : Field) (i : Nat) : (s.setInt f i).tr = s.tr := by rw [State.setInt_frame]; rfl
@[simp] theorem State.setInt_st (s : State) (f : Field) (i : Nat) : (s.setInt f i).st = s.st := by rw [State.setInt_frame]; rfl
@[simp] theorem State.setInt_free (s : State) (f : Field) (i : Nat) : (s.setInt f i).free = s.free := by rw [State.setInt_frame]; rfl
@[simp] theorem State.setInt_pending (s : State) (f : Field) (i : Nat) : (s.setInt f i).pending = s.pending := by rw [State.setInt_frame]; rfl

@[simp] theorem State.fld_setInt (s : State) (f : Field) (i : Nat) : (s.setInt f i).fld f i = 1 % 2 ^ f.width := by
  have h : (s.setInt f i).fld f i = (s.setFld f 1 i).fld f i := by simp only [State.fld, State.setInt_fields]
  rw [h, State.fld_setFld]

@[simp] theorem State.cnt_setInt (s : State) (f : Field) (i : Nat) (c : Cnt) (j k : Nat) :
    (s.setInt f i).cnt c j k = s.cnt c j k := by
  rw [State.setInt_frame]
  rfl

/-! ## Host memory -/

/-- One HWR: outstanding, sent, the next tag; only the ports and the counter slots change beside. -/
theorem State.hwr1_frame (s : State) (w : HwrFor) (p : Nat × List Byte) :
    s.hwr1 w p = { s with hl := { s.hl with out := s.hl.out ++ [.hwr s.hl.nextTag p.1 p.2]
                                            hwr := s.hl.hwr ++ [⟨s.hl.nextTag, p.1, p.2, w⟩]
                                            nextTag := (s.hl.nextTag + 1) % 4096 }
                          op := (s.hwr1 w p).op, rg.slots := (s.hwr1 w p).rg.slots } := by
  unfold State.hwr1
  dsimp only
  rw [State.emit_frame]
  rfl

/-- A write of host memory changes what is outstanding and sent, the ports and the counter slots. -/
theorem State.hwr_frame (s : State) (a : Nat) (d : List Byte) (w : HwrFor) :
    s.hwr a d w = { s with hl := { s.hl with out := (s.hwr a d w).hl.out, hwr := (s.hwr a d w).hl.hwr
                                             nextTag := (s.hwr a d w).hl.nextTag }
                           op := (s.hwr a d w).op, rg.slots := (s.hwr a d w).rg.slots } := by
  unfold State.hwr
  generalize split256 a d (d.length / 256 + 2) = l
  induction l generalizing s with
  | nil => rfl
  | cons x r ih =>
    simp only [List.foldl_cons]
    rw [ih (s.hwr1 w x), State.hwr1_frame]

@[simp] theorem State.hwr_tm (s : State) (a : Nat) (d : List Byte) (w : HwrFor) : (s.hwr a d w).tm = s.tm := by rw [State.hwr_frame]
@[simp] theorem State.hwr_cq (s : State) (a : Nat) (d : List Byte) (w : HwrFor) : (s.hwr a d w).cq = s.cq := by rw [State.hwr_frame]
@[simp] theorem State.hwr_wh (s : State) (a : Nat) (d : List Byte) (w : HwrFor) : (s.hwr a d w).wh = s.wh := by rw [State.hwr_frame]
@[simp] theorem State.hwr_kv (s : State) (a : Nat) (d : List Byte) (w : HwrFor) : (s.hwr a d w).kv = s.kv := by rw [State.hwr_frame]
@[simp] theorem State.hwr_tl (s : State) (a : Nat) (d : List Byte) (w : HwrFor) : (s.hwr a d w).tl = s.tl := by rw [State.hwr_frame]
@[simp] theorem State.hwr_mm (s : State) (a : Nat) (d : List Byte) (w : HwrFor) : (s.hwr a d w).mm = s.mm := by rw [State.hwr_frame]
@[simp] theorem State.hwr_ci (s : State) (a : Nat) (d : List Byte) (w : HwrFor) : (s.hwr a d w).ci = s.ci := by rw [State.hwr_frame]
@[simp] theorem State.hwr_sc (s : State) (a : Nat) (d : List Byte) (w : HwrFor) : (s.hwr a d w).sc = s.sc := by rw [State.hwr_frame]
@[simp] theorem State.hwr_pw (s : State) (a : Nat) (d : List Byte) (w : HwrFor) : (s.hwr a d w).pw = s.pw := by rw [State.hwr_frame]
@[simp] theorem State.hwr_rs (s : State) (a : Nat) (d : List Byte) (w : HwrFor) : (s.hwr a d w).rs = s.rs := by rw [State.hwr_frame]
@[simp] theorem State.hwr_bt (s : State) (a : Nat) (d : List Byte) (w : HwrFor) : (s.hwr a d w).bt = s.bt := by rw [State.hwr_frame]
@[simp] theorem State.hwr_mg (s : State) (a : Nat) (d : List Byte) (w : HwrFor) : (s.hwr a d w).mg = s.mg := by rw [State.hwr_frame]
@[simp] theorem State.hwr_er (s : State) (a : Nat) (d : List Byte) (w : HwrFor) : (s.hwr a d w).er = s.er := by rw [State.hwr_frame]
@[simp] theorem State.hwr_tr (s : State) (a : Nat) (d : List Byte) (w : HwrFor) : (s.hwr a d w).tr = s.tr := by rw [State.hwr_frame]
@[simp] theorem State.hwr_st (s : State) (a : Nat) (d : List Byte) (w : HwrFor) : (s.hwr a d w).st = s.st := by rw [State.hwr_frame]
@[simp] theorem State.hwr_free (s : State) (a : Nat) (d : List Byte) (w : HwrFor) : (s.hwr a d w).free = s.free := by rw [State.hwr_frame]
@[simp] theorem State.hwr_pending (s : State) (a : Nat) (d : List Byte) (w : HwrFor) : (s.hwr a d w).pending = s.pending := by rw [State.hwr_frame]

/-- An HRD: outstanding, sent, the next tag. -/
theorem State.hrd_frame (s : State) (a : Nat) (w : HrdFor) :
    s.hrd a w = { s with hl := { s.hl with out := s.hl.out ++ [.hrd s.hl.nextTag a]
                                           hrd := s.hl.hrd ++ [⟨s.hl.nextTag, a, w⟩]
                                           nextTag := (s.hl.nextTag + 1) % 4096 }
                         op := (s.hrd a w).op, rg.slots := (s.hrd a w).rg.slots } := by
  unfold State.hrd
  dsimp only
  rw [State.emit_frame]

@[simp] theorem State.hrd_tm (s : State) (a : Nat) (w : HrdFor) : (s.hrd a w).tm = s.tm := by rw [State.hrd_frame]
@[simp] theorem State.hrd_cq (s : State) (a : Nat) (w : HrdFor) : (s.hrd a w).cq = s.cq := by rw [State.hrd_frame]
@[simp] theorem State.hrd_wh (s : State) (a : Nat) (w : HrdFor) : (s.hrd a w).wh = s.wh := by rw [State.hrd_frame]
@[simp] theorem State.hrd_kv (s : State) (a : Nat) (w : HrdFor) : (s.hrd a w).kv = s.kv := by rw [State.hrd_frame]
@[simp] theorem State.hrd_tl (s : State) (a : Nat) (w : HrdFor) : (s.hrd a w).tl = s.tl := by rw [State.hrd_frame]
@[simp] theorem State.hrd_mm (s : State) (a : Nat) (w : HrdFor) : (s.hrd a w).mm = s.mm := by rw [State.hrd_frame]
@[simp] theorem State.hrd_ci (s : State) (a : Nat) (w : HrdFor) : (s.hrd a w).ci = s.ci := by rw [State.hrd_frame]
@[simp] theorem State.hrd_sc (s : State) (a : Nat) (w : HrdFor) : (s.hrd a w).sc = s.sc := by rw [State.hrd_frame]
@[simp] theorem State.hrd_pw (s : State) (a : Nat) (w : HrdFor) : (s.hrd a w).pw = s.pw := by rw [State.hrd_frame]
@[simp] theorem State.hrd_rs (s : State) (a : Nat) (w : HrdFor) : (s.hrd a w).rs = s.rs := by rw [State.hrd_frame]
@[simp] theorem State.hrd_bt (s : State) (a : Nat) (w : HrdFor) : (s.hrd a w).bt = s.bt := by rw [State.hrd_frame]
@[simp] theorem State.hrd_mg (s : State) (a : Nat) (w : HrdFor) : (s.hrd a w).mg = s.mg := by rw [State.hrd_frame]
@[simp] theorem State.hrd_er (s : State) (a : Nat) (w : HrdFor) : (s.hrd a w).er = s.er := by rw [State.hrd_frame]
@[simp] theorem State.hrd_tr (s : State) (a : Nat) (w : HrdFor) : (s.hrd a w).tr = s.tr := by rw [State.hrd_frame]
@[simp] theorem State.hrd_st (s : State) (a : Nat) (w : HrdFor) : (s.hrd a w).st = s.st := by rw [State.hrd_frame]
@[simp] theorem State.hrd_free (s : State) (a : Nat) (w : HrdFor) : (s.hrd a w).free = s.free := by rw [State.hrd_frame]
@[simp] theorem State.hrd_pending (s : State) (a : Nat) (w : HrdFor) : (s.hrd a w).pending = s.pending := by rw [State.hrd_frame]

/-! ## Device memory -/

/-- Bytes put into device memory: the bytes, what is poisoned and fresh, and the counter slots. -/
theorem State.devPut_frame (s : State) (a : Nat) (d : List Byte) :
    s.devPut a d = { s with mm := { s.mm with dev := wrBytes s.mm.dev a d, poison := (s.devPut a d).mm.poison
                                              fresh := (s.devPut a d).mm.fresh }
                            rg.slots := (s.devPut a d).rg.slots } := rfl

@[simp] theorem State.devPut_dev (s : State) (a : Nat) (d : List Byte) : (s.devPut a d).mm.dev = wrBytes s.mm.dev a d := rfl

/-- A RECALL: what waits for an answer, what is sent, the next tag, the ports, counters and counter slots. -/
theorem State.recall_frame (s : State) (line : Nat) (w : List RecallWait) :
    s.recall line w = { s with hl := { s.hl with out := (s.recall line w).hl.out, recalls := (s.recall line w).hl.recalls
                                                 nextTag := (s.recall line w).hl.nextTag }
                               op := (s.recall line w).op
                               rg := { s.rg with slots := (s.recall line w).rg.slots, cnts := (s.recall line w).rg.cnts } } := by
  unfold State.recall
  split
  · rfl
  · dsimp only
    rw [State.emit_frame]
    rfl

@[simp] theorem State.recall_tm (s : State) (line : Nat) (w : List RecallWait) : (s.recall line w).tm = s.tm := by rw [State.recall_frame]
@[simp] theorem State.recall_cq (s : State) (line : Nat) (w : List RecallWait) : (s.recall line w).cq = s.cq := by rw [State.recall_frame]
@[simp] theorem State.recall_wh (s : State) (line : Nat) (w : List RecallWait) : (s.recall line w).wh = s.wh := by rw [State.recall_frame]
@[simp] theorem State.recall_kv (s : State) (line : Nat) (w : List RecallWait) : (s.recall line w).kv = s.kv := by rw [State.recall_frame]
@[simp] theorem State.recall_tl (s : State) (line : Nat) (w : List RecallWait) : (s.recall line w).tl = s.tl := by rw [State.recall_frame]
@[simp] theorem State.recall_mm (s : State) (line : Nat) (w : List RecallWait) : (s.recall line w).mm = s.mm := by rw [State.recall_frame]
@[simp] theorem State.recall_ci (s : State) (line : Nat) (w : List RecallWait) : (s.recall line w).ci = s.ci := by rw [State.recall_frame]
@[simp] theorem State.recall_sc (s : State) (line : Nat) (w : List RecallWait) : (s.recall line w).sc = s.sc := by rw [State.recall_frame]
@[simp] theorem State.recall_pw (s : State) (line : Nat) (w : List RecallWait) : (s.recall line w).pw = s.pw := by rw [State.recall_frame]
@[simp] theorem State.recall_rs (s : State) (line : Nat) (w : List RecallWait) : (s.recall line w).rs = s.rs := by rw [State.recall_frame]
@[simp] theorem State.recall_bt (s : State) (line : Nat) (w : List RecallWait) : (s.recall line w).bt = s.bt := by rw [State.recall_frame]
@[simp] theorem State.recall_mg (s : State) (line : Nat) (w : List RecallWait) : (s.recall line w).mg = s.mg := by rw [State.recall_frame]
@[simp] theorem State.recall_er (s : State) (line : Nat) (w : List RecallWait) : (s.recall line w).er = s.er := by rw [State.recall_frame]
@[simp] theorem State.recall_tr (s : State) (line : Nat) (w : List RecallWait) : (s.recall line w).tr = s.tr := by rw [State.recall_frame]
@[simp] theorem State.recall_st (s : State) (line : Nat) (w : List RecallWait) : (s.recall line w).st = s.st := by rw [State.recall_frame]
@[simp] theorem State.recall_free (s : State) (line : Nat) (w : List RecallWait) : (s.recall line w).free = s.free := by rw [State.recall_frame]
@[simp] theorem State.recall_pending (s : State) (line : Nat) (w : List RecallWait) : (s.recall line w).pending = s.pending := by rw [State.recall_frame]

/-- What a device write may change. -/
def State.DevWritten (s t : State) : Prop :=
  t = { s with hl := { s.hl with out := t.hl.out, recalls := t.hl.recalls, nextTag := t.hl.nextTag }
               op := t.op, mm := { s.mm with dev := t.mm.dev, poison := t.mm.poison, fresh := t.mm.fresh }
               rg := { s.rg with slots := t.rg.slots, cnts := t.rg.cnts } }

theorem State.DevWritten.refl (s : State) : s.DevWritten s := rfl

theorem State.DevWritten.trans {s t u : State} (h : s.DevWritten t) (k : t.DevWritten u) : s.DevWritten u := by
  unfold State.DevWritten at *
  rw [k, h]

theorem State.devWriteLine_frame (s : State) (a : Nat) (d : List Byte) : s.DevWritten (s.devWriteLine a d) := by
  unfold State.DevWritten State.devWriteLine
  split
  · rw [State.recall_frame]
  · rfl

/-- A device write changes memory, poison and fresh units, or recalls lines; nothing else but counters. -/
theorem State.devWrite_frame (s : State) (a : Nat) (d : List Byte) : s.DevWritten (s.devWrite a d) := by
  unfold State.devWrite
  generalize units64 a d.length = l
  induction l generalizing s with
  | nil => exact State.DevWritten.refl s
  | cons x r ih => exact (State.devWriteLine_frame s _ _).trans (ih _)

@[simp] theorem State.devWrite_tm (s : State) (a : Nat) (d : List Byte) : (s.devWrite a d).tm = s.tm := by rw [State.devWrite_frame s a d]
@[simp] theorem State.devWrite_cq (s : State) (a : Nat) (d : List Byte) : (s.devWrite a d).cq = s.cq := by rw [State.devWrite_frame s a d]
@[simp] theorem State.devWrite_wh (s : State) (a : Nat) (d : List Byte) : (s.devWrite a d).wh = s.wh := by rw [State.devWrite_frame s a d]
@[simp] theorem State.devWrite_kv (s : State) (a : Nat) (d : List Byte) : (s.devWrite a d).kv = s.kv := by rw [State.devWrite_frame s a d]
@[simp] theorem State.devWrite_tl (s : State) (a : Nat) (d : List Byte) : (s.devWrite a d).tl = s.tl := by rw [State.devWrite_frame s a d]
@[simp] theorem State.devWrite_ci (s : State) (a : Nat) (d : List Byte) : (s.devWrite a d).ci = s.ci := by rw [State.devWrite_frame s a d]
@[simp] theorem State.devWrite_sc (s : State) (a : Nat) (d : List Byte) : (s.devWrite a d).sc = s.sc := by rw [State.devWrite_frame s a d]
@[simp] theorem State.devWrite_pw (s : State) (a : Nat) (d : List Byte) : (s.devWrite a d).pw = s.pw := by rw [State.devWrite_frame s a d]
@[simp] theorem State.devWrite_rs (s : State) (a : Nat) (d : List Byte) : (s.devWrite a d).rs = s.rs := by rw [State.devWrite_frame s a d]
@[simp] theorem State.devWrite_bt (s : State) (a : Nat) (d : List Byte) : (s.devWrite a d).bt = s.bt := by rw [State.devWrite_frame s a d]
@[simp] theorem State.devWrite_mg (s : State) (a : Nat) (d : List Byte) : (s.devWrite a d).mg = s.mg := by rw [State.devWrite_frame s a d]
@[simp] theorem State.devWrite_er (s : State) (a : Nat) (d : List Byte) : (s.devWrite a d).er = s.er := by rw [State.devWrite_frame s a d]
@[simp] theorem State.devWrite_tr (s : State) (a : Nat) (d : List Byte) : (s.devWrite a d).tr = s.tr := by rw [State.devWrite_frame s a d]
@[simp] theorem State.devWrite_st (s : State) (a : Nat) (d : List Byte) : (s.devWrite a d).st = s.st := by rw [State.devWrite_frame s a d]
@[simp] theorem State.devWrite_free (s : State) (a : Nat) (d : List Byte) : (s.devWrite a d).free = s.free := by rw [State.devWrite_frame s a d]
@[simp] theorem State.devWrite_pending (s : State) (a : Nat) (d : List Byte) : (s.devWrite a d).pending = s.pending := by rw [State.devWrite_frame s a d]
@[simp] theorem State.devWrite_fields (s : State) (a : Nat) (d : List Byte) : (s.devWrite a d).rg.fields = s.rg.fields := by rw [State.devWrite_frame s a d]

/-- It keeps the canonical form of device memory. -/
theorem State.devWriteLine_wf (s : State) (a : Nat) (d : List Byte) (h : Memory.wf s.mm.dev = true) :
    Memory.wf (s.devWriteLine a d).mm.dev = true := by
  unfold State.devWriteLine
  split
  · rw [State.recall_frame]; exact h
  · exact wf_wrBytes _ _ h

theorem State.devWrite_wf (s : State) (a : Nat) (d : List Byte) (h : Memory.wf s.mm.dev = true) :
    Memory.wf (s.devWrite a d).mm.dev = true := by
  unfold State.devWrite
  generalize units64 a d.length = l
  induction l generalizing s with
  | nil => exact h
  | cons x r ih => exact ih _ (State.devWriteLine_wf s _ _ h)

theorem State.devZero_wf (s : State) (a n : Nat) (h : Memory.wf s.mm.dev = true) : Memory.wf (s.devZero a n).mm.dev = true := by
  show Memory.wf (s.mm.dev.filter _) = true
  exact wf_filter _ h

/-! ## Stops and trace -/

/-- A trigger changes the register window and the record of the stop. -/
theorem State.takeStop_frame (s : State) (cause : Nat) :
    s.takeStop cause = { s with rg := (s.takeStop cause).rg, st := (s.takeStop cause).st } := by
  unfold State.takeStop
  split <;> rfl

@[simp] theorem State.takeStop_tm (s : State) (c : Nat) : (s.takeStop c).tm = s.tm := by rw [State.takeStop_frame]
@[simp] theorem State.takeStop_hl (s : State) (c : Nat) : (s.takeStop c).hl = s.hl := by rw [State.takeStop_frame]
@[simp] theorem State.takeStop_op (s : State) (c : Nat) : (s.takeStop c).op = s.op := by rw [State.takeStop_frame]
@[simp] theorem State.takeStop_cq (s : State) (c : Nat) : (s.takeStop c).cq = s.cq := by rw [State.takeStop_frame]
@[simp] theorem State.takeStop_wh (s : State) (c : Nat) : (s.takeStop c).wh = s.wh := by rw [State.takeStop_frame]
@[simp] theorem State.takeStop_kv (s : State) (c : Nat) : (s.takeStop c).kv = s.kv := by rw [State.takeStop_frame]
@[simp] theorem State.takeStop_tl (s : State) (c : Nat) : (s.takeStop c).tl = s.tl := by rw [State.takeStop_frame]
@[simp] theorem State.takeStop_mm (s : State) (c : Nat) : (s.takeStop c).mm = s.mm := by rw [State.takeStop_frame]
@[simp] theorem State.takeStop_ci (s : State) (c : Nat) : (s.takeStop c).ci = s.ci := by rw [State.takeStop_frame]
@[simp] theorem State.takeStop_sc (s : State) (c : Nat) : (s.takeStop c).sc = s.sc := by rw [State.takeStop_frame]
@[simp] theorem State.takeStop_pw (s : State) (c : Nat) : (s.takeStop c).pw = s.pw := by rw [State.takeStop_frame]
@[simp] theorem State.takeStop_rs (s : State) (c : Nat) : (s.takeStop c).rs = s.rs := by rw [State.takeStop_frame]
@[simp] theorem State.takeStop_bt (s : State) (c : Nat) : (s.takeStop c).bt = s.bt := by rw [State.takeStop_frame]
@[simp] theorem State.takeStop_mg (s : State) (c : Nat) : (s.takeStop c).mg = s.mg := by rw [State.takeStop_frame]
@[simp] theorem State.takeStop_er (s : State) (c : Nat) : (s.takeStop c).er = s.er := by rw [State.takeStop_frame]
@[simp] theorem State.takeStop_tr (s : State) (c : Nat) : (s.takeStop c).tr = s.tr := by rw [State.takeStop_frame]
@[simp] theorem State.takeStop_free (s : State) (c : Nat) : (s.takeStop c).free = s.free := by rw [State.takeStop_frame]
@[simp] theorem State.takeStop_pending (s : State) (c : Nat) : (s.takeStop c).pending = s.pending := by rw [State.takeStop_frame]

/-- A trigger outside RUNNING, or during a reset, only sets REFUSED (R516). -/
theorem State.takeStop_refused (s : State) (cause : Nat) (h : s.stopState ≠ 0 ∨ s.rs.run.isSome) :
    s.takeStop cause = s.setFld F.STOP_STATUS.REFUSED 1 := by
  unfold State.takeStop
  rw [if_pos h]

/-- What a trace record may change. -/
def State.Traced (s t : State) : Prop :=
  t = { s with hl := { s.hl with out := t.hl.out, recalls := t.hl.recalls, nextTag := t.hl.nextTag }
               op := t.op, mm := { s.mm with dev := t.mm.dev, poison := t.mm.poison, fresh := t.mm.fresh }
               rg := t.rg, tr := t.tr, st := t.st }

theorem State.Traced.refl (s : State) : s.Traced s := rfl

theorem State.Traced.trans {s t u : State} (h : s.Traced t) (k : t.Traced u) : s.Traced u := by
  unfold State.Traced at *
  rw [k, h]

/-- A change of the register window and the trace engine follows. -/
theorem State.Traced.tail {s u v : State} (h : s.Traced u) (k : v = { u with rg := v.rg, tr := v.tr }) : s.Traced v :=
  h.trans (by unfold State.Traced; rw [k])

theorem State.DevWritten.traced {s t : State} (h : s.DevWritten t) : s.Traced t := by
  unfold State.DevWritten at h
  unfold State.Traced
  rw [h]

theorem State.setInt_traced (s : State) (f : Field) (i : Nat) : s.Traced (s.setInt f i) := by
  unfold State.Traced
  rw [State.setInt_frame]
  rfl

theorem State.setFld_traced (s : State) (f : Field) (v i b : Nat) : s.Traced (s.setFld f v i b) := rfl
theorem State.addCnt_traced (s : State) (c : Cnt) (n i b : Nat) : s.Traced (s.addCnt c n i b) := rfl
theorem State.takeStop_traced (s : State) (c : Nat) : s.Traced (s.takeStop c) := by
  unfold State.Traced
  rw [State.takeStop_frame]

/-- A record stored is dropped for want of room, with FULL set, or is one device write of its bytes. -/
theorem State.traceStore_cases (s : State) (t : TraceRec) (P : State → Prop)
    (full : P ((s.addCnt C.TRC_CNT_DROPPED 1).setInt F.TRC_INT_STATUS.DROPPED))
    (fills : P ((((s.setFld F.TRC_STATUS.FULL 1).setInt F.TRC_INT_STATUS.FULL).addCnt C.TRC_CNT_DROPPED 1).setInt
      F.TRC_INT_STATUS.DROPPED))
    (stored : ∀ a n, P { (((s.devWrite a (t.bytes s.tm.now)).addCnt C.TRC_WR 32).addCnt C.TRC_CNT_RECORDS 1) with
      tr := { (((s.devWrite a (t.bytes s.tm.now)).addCnt C.TRC_WR 32).addCnt C.TRC_CNT_RECORDS 1).tr with used := n } }) :
    P (s.traceStore t) := by
  unfold State.traceStore
  dsimp only
  split
  · split
    · exact fills
    · exact full
  · exact stored _ _

theorem State.traceStore_traced (s : State) (t : TraceRec) : s.Traced (s.traceStore t) := by
  refine s.traceStore_cases t _ ((State.addCnt_traced _ _ _ _ _).trans (State.setInt_traced _ _ _))
    ((((State.setFld_traced s _ _ _ _).trans (State.setInt_traced _ _ _)).trans (State.addCnt_traced _ _ _ _ _)).trans
      (State.setInt_traced _ _ _)) ?_
  intro a n
  have h := (State.devWrite_frame s a (t.bytes s.tm.now)).traced
  generalize s.devWrite a (t.bytes s.tm.now) = u at h ⊢
  exact h.tail rfl

theorem State.traceTrigger_traced (s : State) (t : TraceRec) : s.Traced (s.traceTrigger t) := by
  unfold State.traceTrigger
  split
  · dsimp only
    split
    · exact ((State.setFld_traced s _ _ _ _).trans (State.setInt_traced _ _ _)).trans (State.takeStop_traced _ _)
    · exact (State.setFld_traced s _ _ _ _).trans (State.setInt_traced _ _ _)
  · exact State.Traced.refl s

theorem State.traceOwed_traced (s : State) : s.Traced s.traceOwed := by
  unfold State.traceOwed
  split
  · exact (State.traceStore_traced s _).trans rfl
  · exact State.Traced.refl s

theorem State.traceDrop_traced (s : State) : s.Traced s.traceDrop := by
  unfold State.traceDrop
  dsimp only
  exact ((State.addCnt_traced s _ _ _ _).trans (State.setInt_traced _ _ _)).trans rfl

theorem State.traceBudgeted_traced (s : State) (t : TraceRec) : s.Traced (s.traceBudgeted t) := by
  unfold State.traceBudgeted
  dsimp only
  split
  · exact (State.traceOwed_traced s).trans (State.traceDrop_traced _)
  · exact (State.traceOwed_traced s).trans (State.traceStore_traced _ _)

/-- A trace record changes the register window, the trace engine, the stop it may trigger, and what its write of device
memory may change: nothing of the commands, groups, pools, cores, contexts, boot or error state. -/
theorem State.trace_frame (s : State) (t : TraceRec) : s.Traced (s.trace t) := by
  unfold State.trace
  split
  · exact (State.traceTrigger_traced s t).trans (State.traceBudgeted_traced _ t)
  · exact State.Traced.refl s

@[simp] theorem State.trace_tm (s : State) (t : TraceRec) : (s.trace t).tm = s.tm := by rw [State.trace_frame s t]
@[simp] theorem State.trace_cq (s : State) (t : TraceRec) : (s.trace t).cq = s.cq := by rw [State.trace_frame s t]
@[simp] theorem State.trace_wh (s : State) (t : TraceRec) : (s.trace t).wh = s.wh := by rw [State.trace_frame s t]
@[simp] theorem State.trace_kv (s : State) (t : TraceRec) : (s.trace t).kv = s.kv := by rw [State.trace_frame s t]
@[simp] theorem State.trace_tl (s : State) (t : TraceRec) : (s.trace t).tl = s.tl := by rw [State.trace_frame s t]
@[simp] theorem State.trace_ci (s : State) (t : TraceRec) : (s.trace t).ci = s.ci := by rw [State.trace_frame s t]
@[simp] theorem State.trace_sc (s : State) (t : TraceRec) : (s.trace t).sc = s.sc := by rw [State.trace_frame s t]
@[simp] theorem State.trace_pw (s : State) (t : TraceRec) : (s.trace t).pw = s.pw := by rw [State.trace_frame s t]
@[simp] theorem State.trace_rs (s : State) (t : TraceRec) : (s.trace t).rs = s.rs := by rw [State.trace_frame s t]
@[simp] theorem State.trace_bt (s : State) (t : TraceRec) : (s.trace t).bt = s.bt := by rw [State.trace_frame s t]
@[simp] theorem State.trace_mg (s : State) (t : TraceRec) : (s.trace t).mg = s.mg := by rw [State.trace_frame s t]
@[simp] theorem State.trace_er (s : State) (t : TraceRec) : (s.trace t).er = s.er := by rw [State.trace_frame s t]
@[simp] theorem State.trace_free (s : State) (t : TraceRec) : (s.trace t).free = s.free := by rw [State.trace_frame s t]
@[simp] theorem State.trace_pending (s : State) (t : TraceRec) : (s.trace t).pending = s.pending := by rw [State.trace_frame s t]

/-- With the engine disabled a trace event does nothing. -/
theorem State.trace_off (s : State) (t : TraceRec) (h : s.fld F.TRC_CFG.ENABLE = 0) : s.trace t = s := by
  unfold State.trace
  rw [if_neg]
  simp [h]

/-- What a stored record does to device memory: nothing, or one device write. -/
theorem State.traceStore_mm (s : State) (t : TraceRec) :
    (s.traceStore t).mm = s.mm ∨ ∃ a d, (s.traceStore t).mm = (s.devWrite a d).mm := by
  refine s.traceStore_cases t (fun u => u.mm = s.mm ∨ ∃ a d, u.mm = (s.devWrite a d).mm) (.inl ?_) (.inl ?_) ?_
  · simp
  · simp
  · intro a n
    exact .inr ⟨a, t.bytes s.tm.now, rfl⟩

theorem State.traceStore_wf (s : State) (t : TraceRec) (h : Memory.wf s.mm.dev = true) :
    Memory.wf (s.traceStore t).mm.dev = true := by
  rcases s.traceStore_mm t with e | ⟨a, d, e⟩
  · rw [e]; exact h
  · rw [e]; exact s.devWrite_wf a d h

theorem State.traceTrigger_mm (s : State) (t : TraceRec) : (s.traceTrigger t).mm = s.mm := by
  unfold State.traceTrigger
  split
  · dsimp only
    split <;> simp
  · rfl

theorem State.traceDrop_mm (s : State) : s.traceDrop.mm = s.mm := by
  unfold State.traceDrop
  simp

theorem State.traceOwed_wf (s : State) (h : Memory.wf s.mm.dev = true) : Memory.wf s.traceOwed.mm.dev = true := by
  unfold State.traceOwed
  split
  · exact s.traceStore_wf _ h
  · exact h

/-- A trace record keeps the canonical form of device memory. -/
theorem State.trace_wf (s : State) (t : TraceRec) (h : Memory.wf s.mm.dev = true) : Memory.wf (s.trace t).mm.dev = true := by
  unfold State.trace
  split
  · have h1 : Memory.wf (s.traceTrigger t).mm.dev = true := by rw [State.traceTrigger_mm]; exact h
    have h2 := State.traceOwed_wf _ h1
    unfold State.traceBudgeted
    dsimp only
    split
    · rw [State.traceDrop_mm]; exact h2
    · exact State.traceStore_wf _ t h2
  · exact h

/-! ## The write of a register with an operation of its own (R462, R476, R519, R543, R544) -/

/-- On a page without power nothing happens. -/
theorem State.opWrite_unpowered (s : State) (r : Requester) (cls inst off v : Nat) (op : State → State)
    (h : s.pagePowered cls inst = false) : s.opWrite r cls inst off v op = s := by
  simp [State.opWrite, h]

/-- An access that waits is held, and has no other effect. -/
theorem State.opWrite_waits (s : State) (r : Requester) (cls inst off v : Nat) (op : State → State)
    (hp : s.pagePowered cls inst = true) (h : s.accessWaits cls inst r = true) :
    s.opWrite r cls inst off v op =
      { s with st.held := s.st.held ++ [.write r (regAddr cls inst off) 4 (BitVec.ofNat 64 v) false] } := by
  simp [State.opWrite, hp, h]

/-- A write that another requester locks out is counted and sets LOCK_ABORT. -/
theorem State.opWrite_locked (s : State) (r : Requester) (cls inst off v : Nat) (op : State → State)
    (hp : s.pagePowered cls inst = true) (hw : s.accessWaits cls inst r = false) (h : s.lockedFor cls inst r = true) :
    s.opWrite r cls inst off v op = (s.addCnt C.GL_CNT_REG_WRITES 1).lockAbort cls inst := by
  have : (s.addCnt C.GL_CNT_REG_WRITES 1).lockedFor cls inst r = true := h
  simp [State.opWrite, hp, hw, this]

/-- Any other write is counted and has its effect. -/
theorem State.opWrite_effect (s : State) (r : Requester) (cls inst off v : Nat) (op : State → State)
    (hp : s.pagePowered cls inst = true) (hw : s.accessWaits cls inst r = false) (h : s.lockedFor cls inst r = false) :
    s.opWrite r cls inst off v op = op (s.addCnt C.GL_CNT_REG_WRITES 1) := by
  have : (s.addCnt C.GL_CNT_REG_WRITES 1).lockedFor cls inst r = false := h
  simp [State.opWrite, hp, hw, this]

end Sys2Proof.Machine
end

