-- ==== Sys2Proof/WellFormed.lean ====
section
/-! DEFINITION. Well-formed commands: the operands that the spec lets a command carry beyond what its type already says. -/

namespace Sys2Proof

/-- The fields every packet header has (table "Packet header"): WIN of 2 bits, TAG of 12, STATUS of a defined value (R348),
AUX of 16, ADDR and the mask of 64; a KCL port is one of 0 to 7. -/
def Pkt.headerOk (p : Pkt) : Bool :=
  decide (p.win < 4) && decide (p.tag < 4096) && decide (p.status < 7) && decide (p.aux < 65536) &&
    decide (p.addr < 2 ^ 64) && decide (p.mask < 2 ^ 64) && decide (p.port < 8)

/-- A packet that carries LEN bytes of data carries LEN bytes; one without data carries none. -/
def Pkt.dataOk (p : Pkt) (carries : Bool) : Bool := if carries then p.data.length = p.len else p.data.isEmpty

/-- A request or answer with code `op`, in one of the windows, with one of the lengths (table "Packet operations"). -/
def Pkt.isOp (p : Pkt) (op : Nat) (wins lens : List Nat) (carries : Bool) : Bool :=
  p.op = op && p.headerOk && wins.contains p.win && lens.contains p.len && p.dataOk carries

/-- LEN of RD_NC and WR: 4 or 8 in the register window, 64, 128 or 256 in device memory. -/
def Pkt.plainLen (p : Pkt) : Bool :=
  if p.win = 0 then [64, 128, 256].contains p.len else p.win = 1 && [4, 8].contains p.len

/-- A well-formed packet of an operation; MASKED belongs to a write of 64 bytes of device memory, or of a doorbell. -/
def Pkt.wf (p : Pkt) (op : Nat) : Bool :=
  match op with
  | 0x01 => p.isOp 0x01 [0, 1] [4, 8, 64, 128, 256] false && p.plainLen && !p.masked
  | 0x02 => p.isOp 0x02 [0] [64] false && !p.masked
  | 0x03 => p.isOp 0x03 [0] [64] false && !p.masked
  | 0x04 => p.isOp 0x04 [0, 1] [4, 8, 64, 128, 256] true && p.plainLen && (!p.masked || (p.win = 0 && p.len = 64))
  | 0x05 => p.isOp 0x05 [0] [64] true && !p.masked
  | 0x06 => p.isOp 0x06 [0] [0] false && !p.masked
  | 0x07 => p.isOp 0x07 [2] [4, 8, 16] true
  | 0x08 => p.isOp 0x08 [0, 1, 2, 3] [64] true && !p.masked && decide (p.aux < 4096)
  | 0x21 => p.isOp 0x21 [0, 1, 2, 3] [0] false && !p.masked
  | 0x22 => p.op = 0x22 && p.headerOk && p.dataOk true && !p.masked
  | 0x23 => p.isOp 0x23 [0, 1, 2, 3] [0] false && !p.masked
  | 0x24 => p.isOp 0x24 [0, 1, 2, 3] [64] true && !p.masked
  | _ => false

/-- A port page exists for a class and an instance below 256 of it: the window has 256 classes of 256 pages (R528). -/
def pageOk (cls inst : Nat) : Bool := decide (cls < 256) && decide (inst < 256)

/-- A register offset of the window of 256 MiB, aligned for its size (R349, R556). -/
def offsetOk (off size : Nat) : Bool := (size = 4 || size = 8) && decide (off < 2 ^ 28) && off % size = 0

/-- A well-formed command. A command whose operands are all of types that admit only defined values is well-formed. -/
def WellFormed (i : Instr) : Bool :=
  match i with
  | .db p => p.wf 0x07
  | .push p => p.wf 0x08
  | .rdNc p => p.wf 0x01
  | .rdS p => p.wf 0x02
  | .rdM p => p.wf 0x03
  | .wr p => p.wf 0x04
  | .wb p => p.wf 0x05
  | .evict p => p.wf 0x06
  | .cmp p => p.wf 0x21
  | .cmpD p => p.wf 0x22
  | .rclAck p => p.wf 0x23
  | .rclData p => p.wf 0x24
  -- a DISPATCH message names a layer of a plan of at most 65,536; a DONE or gauge message an item of a job
  | .dispatchMessage _ _ _ layer => decide (layer < 65536)
  | .doneIncrement _ _ job item gen => decide (job < 2 ^ 64) && decide (item < 2 ^ 24) && decide (gen < 256)
  | .gaugeAdvance _ _ _ _ job item => decide (job < 2 ^ 64) && decide (item < 2 ^ 24)
  -- a deferred edit is one of a sequence
  | .deferredEdit n => decide (n < 2 ^ 32)
  -- the cells of host memory lie in its window of 64 address bits
  | .enable _ host => host.all (fun c => decide (c.1 < 2 ^ 64))
  -- a branch of a group, once
  | .stepClose _ _ heads =>
    heads.all (fun h => decide (h.group < 256) && decide (h.index < 4096)) &&
      decide ((heads.map (fun h => (h.group, h.index))).Nodup)
  | .flit _ bytes _ => bytes.length = 128
  | .credit _ _ slots => decide (slots < 2 ^ 16)
  | .cData _ tag status data => decide (tag < 4096) && decide (status < 7) && [64, 4096].contains data.length
  | .cCmp _ tag status => decide (tag < 4096) && decide (status < 7)
  | .dieTemperatureRead compute port _ photonic => compute.length = 16 && port.length = 4 && photonic.length = 4
  | .lcRequest _ token => token.isEmpty || token.length = 1484
  | .getCert off len => decide (off < 2 ^ 32) && decide (len < 2 ^ 16)
  | .attest nonce => nonce.length = 32
  | .requestUpdate image => decide (image < 2 ^ 32)
  | .requestFirmwareData _ data => decide (data.length ≤ 4096)
  | .regRead off size => offsetOk off size
  | .regWrite off size _ => offsetOk off size
  | .registerWrite _ off _ => offsetOk off 4
  | .pgErrFirstClear _ cls inst => pageOk cls inst
  | .snap _ cls inst => pageOk cls inst
  | .pgApply _ cls inst => pageOk cls inst
  | .take _ cls inst => pageOk cls inst
  | .give _ cls inst => pageOk cls inst
  | .bootStage (.done u) => decide u.Nodup
  | .bootStage (.failed _) => true
  | .run _ => true
  | .move _ => true
  | .checkpoint _ => true
  | .reduce _ => true
  | .barrier _ => true
  | .openGroup _ => true
  | .stepGroups _ => true
  | .fork _ => true
  | .prune _ => true
  | .close _ => true
  | .commandStart _ _ => true
  | .windowGrant => true
  | .publish _ _ => true
  | .lineageSpaceFreed => true
  | .descriptorSwap _ _ => true
  | .disable _ => true
  | .resetSeq _ => true
  | .whCommandStart _ _ => true
  | .stepStart _ _ => true
  | .holdResume _ _ => true
  | .rederiveDone _ => true
  | .countUpdate => true
  | .holdingReturn => true
  | .seqCreate _ => true
  | .seqDestroy _ => true
  | .dropFront _ => true
  | .evictEntry _ => true
  | .setPolicy _ => true
  | .sealTail _ => true
  | .kvpCfgEnable _ _ => true
  | .whCfgEnable _ _ => true
  | .placementScan => true
  | .claim _ _ => true
  | .itemComplete _ => true
  | .waitWake _ => true
  | .array _ => true
  | .loadStat _ => true
  | .drain _ => true
  | .save40 _ => true
  | .restore40 _ => true
  | .wait _ => true
  | .yieldMark _ => true
  | .endWord _ => true
  | .moveRead _ => true
  | .moveWrite _ => true
  | .add32 _ => true
  | .add64 _ => true
  | .fadd32 _ => true
  | .max32 _ => true
  | .min32 _ => true
  | .swap32 _ => true
  | .swap64 _ => true
  | .cas32 _ => true
  | .cas64 _ => true
  | .fma _ => true
  | .add _ => true
  | .mul _ => true
  | .max _ => true
  | .min _ => true
  | .select _ => true
  | .vectorCmp _ => true
  | .add40 _ => true
  | .add40w _ => true
  | .cvt _ => true
  | .exp _ => true
  | .ln _ => true
  | .exp2 _ => true
  | .log2 _ => true
  | .sin2pi _ => true
  | .cos2pi _ => true
  | .tanh _ => true
  | .sigmoid _ => true
  | .sqrt _ => true
  | .rcp _ => true
  | .rsqrt _ => true
  | .sum _ => true
  | .rmax _ => true
  | .rmin _ => true
  | .topk _ => true
  | .splitmix _ => true
  | .gate40w _ => true
  | .fma40 _ => true
  | .lscan40 _ => true
  | .coreFault _ _ _ => true
  | .coreTestStart _ _ => true
  | .selfTestDone _ _ _ => true
  | .clusterFault _ => true
  | .dieLost _ => true
  | .clusterStoreUe _ _ _ => true
  | .cacheUe _ _ => true
  | .hbmUe _ _ => true
  | .unitRelease _ _ => true
  | .retrain _ _ => true
  | .retrainEnd _ _ _ => true
  | .temperatureRead _ _ => true
  | .refreshInterval _ => true
  | .grant _ _ => true
  | .revoke _ _ => true
  | .query _ _ => true
  | .zeroDone _ => true
  | .revokeEffect _ => true
  | .reductionDone _ _ => true
  | .laneTrain _ _ _ _ => true
  | .laneLock _ _ _ _ => true
  | .lockTimeout _ _ _ => true
  | .laneDown _ _ _ => true
  | .lightLost _ _ _ => true
  | .laserModuleLoss _ => true
  | .linkLost => true
  | .resetLanes _ _ => true
  | .rejoin _ _ => true
  | .calibrationSlot _ => true
  | .slotEnd _ => true
  | .slotAnnounce _ => true
  | .nak _ _ => true
  | .ack _ _ => true
  | .laneAdd _ _ _ _ => true
  | .laneDrop _ _ _ => true
  | .handover _ _ => true
  | .handoverDone _ => true
  | .portFailed _ => true
  | .cisternPortFailed _ => true
  | .recallTimeout _ => true
  | .stallWatch _ => true
  | .cisCfgEnable _ _ _ => true
  | .format _ _ => true
  | .release _ _ => true
  | .trim _ _ => true
  | .create _ => true
  | .destroy _ => true
  | .sliceEnd _ => true
  | .sliceOverrun _ => true
  | .coreRelease _ => true
  | .swapOut => true
  | .saveComplete _ => true
  | .swapIn => true
  | .restoreComplete _ => true
  | .pwrOk _ => true
  | .powerLoss => true
  | .refLost _ => true
  | .pllUnlock => true
  | .powerRecompute _ _ _ => true
  | .droop _ => true
  | .droopCalibration _ => true
  | .park _ => true
  | .pwrLimitWrite _ _ => true
  | .warm _ => true
  | .recovery _ => true
  | .clusterReset _ => true
  | .resetDone => true
  | .clusterResetDone _ => true
  | .stageTimeout => true
  | .bootCtrlClearCount _ => true
  | .setPrefer _ _ => true
  | .commitSvn _ => true
  | .secCtrlRevoke _ _ => true
  | .lcGo _ => true
  | .getIdentity => true
  | .getBootCause => true
  | .getSignState => true
  | .clearCount => true
  | .treeDone => true
  | .send _ _ => true
  | .mboxAck _ => true
  | .setdasa _ => true
  | .errorRecord => true
  | .blackAction => true
  | .thermalHoldEnd => true
  | .errInject _ _ => true
  | .errFirstClear _ => true
  | .sample => true
  | .throttleWindow => true
  | .mark _ _ => true
  | .trcCfgEnable _ _ => true
  | .go _ => true
  | .domainHalt _ => true
  | .halted => true
  | .captured => true
  | .stopRelease _ => true
  | .domainResume _ => true
  | .released => true
  | .wfgGo _ => true
  | .wfgDone => true
  | .vinLow _ => true
  | .ctrlBlock _ => true
  | .portDieLost _ => true
  | .debugInstruction => true
  | .droopSlotEnd _ => true
  | .stopCapData _ => true
  | .seqStatus _ _ => true

end Sys2Proof
end

