-- ==== Sys2Proof/Laws/PerInstr.lean ====
section
/-! SUPPORT. Statements for all commands, made per constructor: a well-formed command that carries a packet carries one of
a KCL port, with a tag of twelve bits. -/

namespace Sys2Proof.Laws

/-- The packet a command carries. -/
def packetOf (i : Instr) : Option Pkt :=
  match i with
  | .db p => some p
  | .push p => some p
  | .rdNc p => some p
  | .rdS p => some p
  | .rdM p => some p
  | .wr p => some p
  | .wb p => some p
  | .evict p => some p
  | .cmp p => some p
  | .cmpD p => some p
  | .rclAck p => some p
  | .rclData p => some p
  | .run _ => none
  | .move _ => none
  | .checkpoint _ => none
  | .reduce _ => none
  | .barrier _ => none
  | .openGroup _ => none
  | .stepGroups _ => none
  | .fork _ => none
  | .prune _ => none
  | .close _ => none
  | .commandStart _ _ => none
  | .windowGrant => none
  | .publish _ _ => none
  | .lineageSpaceFreed => none
  | .descriptorSwap _ _ => none
  | .enable _ _ => none
  | .disable _ => none
  | .resetSeq _ => none
  | .whCommandStart _ _ => none
  | .stepStart _ _ => none
  | .stepClose _ _ _ => none
  | .holdResume _ _ => none
  | .rederiveDone _ => none
  | .countUpdate => none
  | .holdingReturn => none
  | .seqCreate _ => none
  | .seqDestroy _ => none
  | .dropFront _ => none
  | .evictEntry _ => none
  | .setPolicy _ => none
  | .sealTail _ => none
  | .deferredEdit _ => none
  | .kvpCfgEnable _ _ => none
  | .whCfgEnable _ _ => none
  | .dispatchMessage _ _ _ _ => none
  | .placementScan => none
  | .claim _ _ => none
  | .itemComplete _ => none
  | .doneIncrement _ _ _ _ _ => none
  | .gaugeAdvance _ _ _ _ _ _ => none
  | .waitWake _ => none
  | .array _ => none
  | .loadStat _ => none
  | .drain _ => none
  | .save40 _ => none
  | .restore40 _ => none
  | .wait _ => none
  | .yieldMark _ => none
  | .endWord _ => none
  | .moveRead _ => none
  | .moveWrite _ => none
  | .add32 _ => none
  | .add64 _ => none
  | .fadd32 _ => none
  | .max32 _ => none
  | .min32 _ => none
  | .swap32 _ => none
  | .swap64 _ => none
  | .cas32 _ => none
  | .cas64 _ => none
  | .fma _ => none
  | .add _ => none
  | .mul _ => none
  | .max _ => none
  | .min _ => none
  | .select _ => none
  | .vectorCmp _ => none
  | .add40 _ => none
  | .add40w _ => none
  | .cvt _ => none
  | .exp _ => none
  | .ln _ => none
  | .exp2 _ => none
  | .log2 _ => none
  | .sin2pi _ => none
  | .cos2pi _ => none
  | .tanh _ => none
  | .sigmoid _ => none
  | .sqrt _ => none
  | .rcp _ => none
  | .rsqrt _ => none
  | .sum _ => none
  | .rmax _ => none
  | .rmin _ => none
  | .topk _ => none
  | .splitmix _ => none
  | .gate40w _ => none
  | .fma40 _ => none
  | .lscan40 _ => none
  | .coreFault _ _ _ => none
  | .coreTestStart _ _ => none
  | .selfTestDone _ _ _ => none
  | .clusterFault _ => none
  | .dieLost _ => none
  | .clusterStoreUe _ _ _ => none
  | .cacheUe _ _ => none
  | .hbmUe _ _ => none
  | .unitRelease _ _ => none
  | .retrain _ _ => none
  | .retrainEnd _ _ _ => none
  | .temperatureRead _ _ => none
  | .refreshInterval _ => none
  | .grant _ _ => none
  | .revoke _ _ => none
  | .query _ _ => none
  | .zeroDone _ => none
  | .revokeEffect _ => none
  | .reductionDone _ _ => none
  | .laneTrain _ _ _ _ => none
  | .laneLock _ _ _ _ => none
  | .lockTimeout _ _ _ => none
  | .laneDown _ _ _ => none
  | .lightLost _ _ _ => none
  | .laserModuleLoss _ => none
  | .linkLost => none
  | .resetLanes _ _ => none
  | .rejoin _ _ => none
  | .calibrationSlot _ => none
  | .slotEnd _ => none
  | .slotAnnounce _ => none
  | .flit _ _ _ => none
  | .nak _ _ => none
  | .ack _ _ => none
  | .credit _ _ _ => none
  | .laneAdd _ _ _ _ => none
  | .laneDrop _ _ _ => none
  | .handover _ _ => none
  | .handoverDone _ => none
  | .portFailed _ => none
  | .cisternPortFailed _ => none
  | .recallTimeout _ => none
  | .stallWatch _ => none
  | .cData _ _ _ _ => none
  | .cCmp _ _ _ => none
  | .cisCfgEnable _ _ _ => none
  | .format _ _ => none
  | .release _ _ => none
  | .trim _ _ => none
  | .create _ => none
  | .destroy _ => none
  | .sliceEnd _ => none
  | .sliceOverrun _ => none
  | .coreRelease _ => none
  | .swapOut => none
  | .saveComplete _ => none
  | .swapIn => none
  | .restoreComplete _ => none
  | .pwrOk _ => none
  | .powerLoss => none
  | .refLost _ => none
  | .pllUnlock => none
  | .powerRecompute _ _ _ => none
  | .droop _ => none
  | .droopCalibration _ => none
  | .dieTemperatureRead _ _ _ _ => none
  | .park _ => none
  | .pwrLimitWrite _ _ => none
  | .warm _ => none
  | .recovery _ => none
  | .clusterReset _ => none
  | .resetDone => none
  | .clusterResetDone _ => none
  | .bootStage _ => none
  | .stageTimeout => none
  | .bootCtrlClearCount _ => none
  | .setPrefer _ _ => none
  | .commitSvn _ => none
  | .secCtrlRevoke _ _ => none
  | .lcGo _ => none
  | .lcRequest _ _ => none
  | .getIdentity => none
  | .getCert _ _ => none
  | .attest _ => none
  | .getBootCause => none
  | .getSignState => none
  | .clearCount => none
  | .treeDone => none
  | .requestUpdate _ => none
  | .regRead _ _ => none
  | .regWrite _ _ _ => none
  | .send _ _ => none
  | .mboxAck _ => none
  | .setdasa _ => none
  | .errorRecord => none
  | .blackAction => none
  | .thermalHoldEnd => none
  | .errInject _ _ => none
  | .errFirstClear _ => none
  | .pgErrFirstClear _ _ _ => none
  | .sample => none
  | .throttleWindow => none
  | .mark _ _ => none
  | .trcCfgEnable _ _ => none
  | .go _ => none
  | .domainHalt _ => none
  | .halted => none
  | .captured => none
  | .stopRelease _ => none
  | .domainResume _ => none
  | .released => none
  | .wfgGo _ => none
  | .wfgDone => none
  | .snap _ _ _ => none
  | .pgApply _ _ _ => none
  | .take _ _ _ => none
  | .give _ _ _ => none
  | .registerWrite _ _ _ => none
  | .vinLow _ => none
  | .ctrlBlock _ => none
  | .portDieLost _ => none
  | .debugInstruction => none
  | .droopSlotEnd _ => none
  | .requestFirmwareData _ _ => none
  | .stopCapData _ => none
  | .seqStatus _ _ => none

/-- A well-formed packet of any operation names a KCL port and a tag of twelve bits. -/
theorem wf_port (p : Pkt) (op : Nat) (h : p.wf op = true) : p.port < 8 ∧ p.tag < 4096 := by
  unfold Pkt.wf at h
  split at h <;> simp [Pkt.isOp, Pkt.headerOk] at h <;> grind

/-- The statement of the family. -/
def PacketPorts.Statement (i : Instr) : Prop :=
  ∀ p, packetOf i = some p → WellFormed i = true → p.port < 8 ∧ p.tag < 4096

/-- A command without a packet. -/
theorem PacketPorts.none_of {i : Instr} (h : packetOf i = none) : PacketPorts.Statement i := by
  intro p hp
  rw [h] at hp
  cases hp

theorem PacketPorts.db (p : Pkt) : PacketPorts.Statement (.db p) := by
  intro q hq h
  cases hq
  exact wf_port p 7 h
theorem PacketPorts.push (p : Pkt) : PacketPorts.Statement (.push p) := by
  intro q hq h
  cases hq
  exact wf_port p 8 h
theorem PacketPorts.run (q : Fin 4096) : PacketPorts.Statement (.run q) := PacketPorts.none_of rfl
theorem PacketPorts.move (q : Fin 4096) : PacketPorts.Statement (.move q) := PacketPorts.none_of rfl
theorem PacketPorts.checkpoint (q : Fin 4096) : PacketPorts.Statement (.checkpoint q) := PacketPorts.none_of rfl
theorem PacketPorts.reduce (q : Fin 4096) : PacketPorts.Statement (.reduce q) := PacketPorts.none_of rfl
theorem PacketPorts.barrier (q : Fin 4096) : PacketPorts.Statement (.barrier q) := PacketPorts.none_of rfl
theorem PacketPorts.openGroup (q : Fin 4096) : PacketPorts.Statement (.openGroup q) := PacketPorts.none_of rfl
theorem PacketPorts.stepGroups (q : Fin 4096) : PacketPorts.Statement (.stepGroups q) := PacketPorts.none_of rfl
theorem PacketPorts.fork (q : Fin 4096) : PacketPorts.Statement (.fork q) := PacketPorts.none_of rfl
theorem PacketPorts.prune (q : Fin 4096) : PacketPorts.Statement (.prune q) := PacketPorts.none_of rfl
theorem PacketPorts.close (q : Fin 4096) : PacketPorts.Statement (.close q) := PacketPorts.none_of rfl
theorem PacketPorts.commandStart (q : Fin 4096) (seq : W32) : PacketPorts.Statement (.commandStart q seq) := PacketPorts.none_of rfl
theorem PacketPorts.windowGrant : PacketPorts.Statement (.windowGrant) := PacketPorts.none_of rfl
theorem PacketPorts.publish (q : Fin 4096) (seq : W32) : PacketPorts.Statement (.publish q seq) := PacketPorts.none_of rfl
theorem PacketPorts.lineageSpaceFreed : PacketPorts.Statement (.lineageSpaceFreed) := PacketPorts.none_of rfl
theorem PacketPorts.descriptorSwap (q : Fin 4096) (seq : W32) : PacketPorts.Statement (.descriptorSwap q seq) := PacketPorts.none_of rfl
theorem PacketPorts.enable (r : Requester) (host : List (Nat × Byte)) : PacketPorts.Statement (.enable r host) := PacketPorts.none_of rfl
theorem PacketPorts.disable (r : Requester) : PacketPorts.Statement (.disable r) := PacketPorts.none_of rfl
theorem PacketPorts.resetSeq (r : Requester) : PacketPorts.Statement (.resetSeq r) := PacketPorts.none_of rfl
theorem PacketPorts.whCommandStart (q : Fin 4096) (seq : W32) : PacketPorts.Statement (.whCommandStart q seq) := PacketPorts.none_of rfl
theorem PacketPorts.stepStart (q : Fin 4096) (seq : W32) : PacketPorts.Statement (.stepStart q seq) := PacketPorts.none_of rfl
theorem PacketPorts.stepClose (q : Fin 4096) (seq : W32) (heads : List HeadOut) : PacketPorts.Statement (.stepClose q seq heads) := PacketPorts.none_of rfl
theorem PacketPorts.holdResume (q : Fin 4096) (seq : W32) : PacketPorts.Statement (.holdResume q seq) := PacketPorts.none_of rfl
theorem PacketPorts.rederiveDone (g : Fin 256) : PacketPorts.Statement (.rederiveDone g) := PacketPorts.none_of rfl
theorem PacketPorts.countUpdate : PacketPorts.Statement (.countUpdate) := PacketPorts.none_of rfl
theorem PacketPorts.holdingReturn : PacketPorts.Statement (.holdingReturn) := PacketPorts.none_of rfl
theorem PacketPorts.seqCreate (r : Requester) : PacketPorts.Statement (.seqCreate r) := PacketPorts.none_of rfl
theorem PacketPorts.seqDestroy (r : Requester) : PacketPorts.Statement (.seqDestroy r) := PacketPorts.none_of rfl
theorem PacketPorts.dropFront (r : Requester) : PacketPorts.Statement (.dropFront r) := PacketPorts.none_of rfl
theorem PacketPorts.evictEntry (r : Requester) : PacketPorts.Statement (.evictEntry r) := PacketPorts.none_of rfl
theorem PacketPorts.setPolicy (r : Requester) : PacketPorts.Statement (.setPolicy r) := PacketPorts.none_of rfl
theorem PacketPorts.sealTail (r : Requester) : PacketPorts.Statement (.sealTail r) := PacketPorts.none_of rfl
theorem PacketPorts.deferredEdit (sequence : Nat) : PacketPorts.Statement (.deferredEdit sequence) := PacketPorts.none_of rfl
theorem PacketPorts.kvpCfgEnable (r : Requester) (v : W32) : PacketPorts.Statement (.kvpCfgEnable r v) := PacketPorts.none_of rfl
theorem PacketPorts.whCfgEnable (r : Requester) (v : W32) : PacketPorts.Statement (.whCfgEnable r v) := PacketPorts.none_of rfl
theorem PacketPorts.dispatchMessage (cl : Fin 256) (q : Fin 4096) (seq : W32) (layer : Nat) : PacketPorts.Statement (.dispatchMessage cl q seq layer) := PacketPorts.none_of rfl
theorem PacketPorts.placementScan : PacketPorts.Statement (.placementScan) := PacketPorts.none_of rfl
theorem PacketPorts.claim (cl : Fin 256) (counter : Fin 1024) : PacketPorts.Statement (.claim cl counter) := PacketPorts.none_of rfl
theorem PacketPorts.itemComplete (core : Fin 10240) : PacketPorts.Statement (.itemComplete core) := PacketPorts.none_of rfl
theorem PacketPorts.doneIncrement (cl : Fin 256) (counter : Fin 1024) (job item gen : Nat) : PacketPorts.Statement (.doneIncrement cl counter job item gen) := PacketPorts.none_of rfl
theorem PacketPorts.gaugeAdvance (gauge : Fin 65536) (value : BitVec 24) (gen : Byte) (counter : Fin 1024) (job item : Nat) : PacketPorts.Statement (.gaugeAdvance gauge value gen counter job item) := PacketPorts.none_of rfl
theorem PacketPorts.waitWake (core : Fin 10240) : PacketPorts.Statement (.waitWake core) := PacketPorts.none_of rfl
theorem PacketPorts.array (core : Fin 10240) : PacketPorts.Statement (.array core) := PacketPorts.none_of rfl
theorem PacketPorts.loadStat (core : Fin 10240) : PacketPorts.Statement (.loadStat core) := PacketPorts.none_of rfl
theorem PacketPorts.drain (core : Fin 10240) : PacketPorts.Statement (.drain core) := PacketPorts.none_of rfl
theorem PacketPorts.save40 (core : Fin 10240) : PacketPorts.Statement (.save40 core) := PacketPorts.none_of rfl
theorem PacketPorts.restore40 (core : Fin 10240) : PacketPorts.Statement (.restore40 core) := PacketPorts.none_of rfl
theorem PacketPorts.wait (core : Fin 10240) : PacketPorts.Statement (.wait core) := PacketPorts.none_of rfl
theorem PacketPorts.yieldMark (core : Fin 10240) : PacketPorts.Statement (.yieldMark core) := PacketPorts.none_of rfl
theorem PacketPorts.endWord (core : Fin 10240) : PacketPorts.Statement (.endWord core) := PacketPorts.none_of rfl
theorem PacketPorts.moveRead (core : Fin 10240) : PacketPorts.Statement (.moveRead core) := PacketPorts.none_of rfl
theorem PacketPorts.moveWrite (core : Fin 10240) : PacketPorts.Statement (.moveWrite core) := PacketPorts.none_of rfl
theorem PacketPorts.add32 (core : Fin 10240) : PacketPorts.Statement (.add32 core) := PacketPorts.none_of rfl
theorem PacketPorts.add64 (core : Fin 10240) : PacketPorts.Statement (.add64 core) := PacketPorts.none_of rfl
theorem PacketPorts.fadd32 (core : Fin 10240) : PacketPorts.Statement (.fadd32 core) := PacketPorts.none_of rfl
theorem PacketPorts.max32 (core : Fin 10240) : PacketPorts.Statement (.max32 core) := PacketPorts.none_of rfl
theorem PacketPorts.min32 (core : Fin 10240) : PacketPorts.Statement (.min32 core) := PacketPorts.none_of rfl
theorem PacketPorts.swap32 (core : Fin 10240) : PacketPorts.Statement (.swap32 core) := PacketPorts.none_of rfl
theorem PacketPorts.swap64 (core : Fin 10240) : PacketPorts.Statement (.swap64 core) := PacketPorts.none_of rfl
theorem PacketPorts.cas32 (core : Fin 10240) : PacketPorts.Statement (.cas32 core) := PacketPorts.none_of rfl
theorem PacketPorts.cas64 (core : Fin 10240) : PacketPorts.Statement (.cas64 core) := PacketPorts.none_of rfl
theorem PacketPorts.fma (core : Fin 10240) : PacketPorts.Statement (.fma core) := PacketPorts.none_of rfl
theorem PacketPorts.add (core : Fin 10240) : PacketPorts.Statement (.add core) := PacketPorts.none_of rfl
theorem PacketPorts.mul (core : Fin 10240) : PacketPorts.Statement (.mul core) := PacketPorts.none_of rfl
theorem PacketPorts.max (core : Fin 10240) : PacketPorts.Statement (.max core) := PacketPorts.none_of rfl
theorem PacketPorts.min (core : Fin 10240) : PacketPorts.Statement (.min core) := PacketPorts.none_of rfl
theorem PacketPorts.select (core : Fin 10240) : PacketPorts.Statement (.select core) := PacketPorts.none_of rfl
theorem PacketPorts.vectorCmp (core : Fin 10240) : PacketPorts.Statement (.vectorCmp core) := PacketPorts.none_of rfl
theorem PacketPorts.add40 (core : Fin 10240) : PacketPorts.Statement (.add40 core) := PacketPorts.none_of rfl
theorem PacketPorts.add40w (core : Fin 10240) : PacketPorts.Statement (.add40w core) := PacketPorts.none_of rfl
theorem PacketPorts.cvt (core : Fin 10240) : PacketPorts.Statement (.cvt core) := PacketPorts.none_of rfl
theorem PacketPorts.exp (core : Fin 10240) : PacketPorts.Statement (.exp core) := PacketPorts.none_of rfl
theorem PacketPorts.ln (core : Fin 10240) : PacketPorts.Statement (.ln core) := PacketPorts.none_of rfl
theorem PacketPorts.exp2 (core : Fin 10240) : PacketPorts.Statement (.exp2 core) := PacketPorts.none_of rfl
theorem PacketPorts.log2 (core : Fin 10240) : PacketPorts.Statement (.log2 core) := PacketPorts.none_of rfl
theorem PacketPorts.sin2pi (core : Fin 10240) : PacketPorts.Statement (.sin2pi core) := PacketPorts.none_of rfl
theorem PacketPorts.cos2pi (core : Fin 10240) : PacketPorts.Statement (.cos2pi core) := PacketPorts.none_of rfl
theorem PacketPorts.tanh (core : Fin 10240) : PacketPorts.Statement (.tanh core) := PacketPorts.none_of rfl
theorem PacketPorts.sigmoid (core : Fin 10240) : PacketPorts.Statement (.sigmoid core) := PacketPorts.none_of rfl
theorem PacketPorts.sqrt (core : Fin 10240) : PacketPorts.Statement (.sqrt core) := PacketPorts.none_of rfl
theorem PacketPorts.rcp (core : Fin 10240) : PacketPorts.Statement (.rcp core) := PacketPorts.none_of rfl
theorem PacketPorts.rsqrt (core : Fin 10240) : PacketPorts.Statement (.rsqrt core) := PacketPorts.none_of rfl
theorem PacketPorts.sum (core : Fin 10240) : PacketPorts.Statement (.sum core) := PacketPorts.none_of rfl
theorem PacketPorts.rmax (core : Fin 10240) : PacketPorts.Statement (.rmax core) := PacketPorts.none_of rfl
theorem PacketPorts.rmin (core : Fin 10240) : PacketPorts.Statement (.rmin core) := PacketPorts.none_of rfl
theorem PacketPorts.topk (core : Fin 10240) : PacketPorts.Statement (.topk core) := PacketPorts.none_of rfl
theorem PacketPorts.splitmix (core : Fin 10240) : PacketPorts.Statement (.splitmix core) := PacketPorts.none_of rfl
theorem PacketPorts.gate40w (core : Fin 10240) : PacketPorts.Statement (.gate40w core) := PacketPorts.none_of rfl
theorem PacketPorts.fma40 (core : Fin 10240) : PacketPorts.Statement (.fma40 core) := PacketPorts.none_of rfl
theorem PacketPorts.lscan40 (core : Fin 10240) : PacketPorts.Statement (.lscan40 core) := PacketPorts.none_of rfl
theorem PacketPorts.coreFault (core : Fin 10240) (cause : Fin 7) (well : Fin 24) : PacketPorts.Statement (.coreFault core cause well) := PacketPorts.none_of rfl
theorem PacketPorts.coreTestStart (r : Requester) (core : Fin 10240) : PacketPorts.Statement (.coreTestStart r core) := PacketPorts.none_of rfl
theorem PacketPorts.selfTestDone (core : Fin 10240) (pass : Bool) (failUnit : Fin 7) : PacketPorts.Statement (.selfTestDone core pass failUnit) := PacketPorts.none_of rfl
theorem PacketPorts.clusterFault (cl : Fin 256) : PacketPorts.Statement (.clusterFault cl) := PacketPorts.none_of rfl
theorem PacketPorts.dieLost (die : Fin 16) : PacketPorts.Statement (.dieLost die) := PacketPorts.none_of rfl
theorem PacketPorts.clusterStoreUe (cl : Fin 256) (addr : Fin 2097152) (reader : Fin 40) : PacketPorts.Statement (.clusterStoreUe cl addr reader) := PacketPorts.none_of rfl
theorem PacketPorts.cacheUe (slice : Fin 4) (off : Fin 100663296) : PacketPorts.Statement (.cacheUe slice off) := PacketPorts.none_of rfl
theorem PacketPorts.hbmUe (stack : Fin 12) (addr : BitVec 36) : PacketPorts.Statement (.hbmUe stack addr) := PacketPorts.none_of rfl
theorem PacketPorts.unitRelease (stack : Fin 12) (pc : Fin 64) : PacketPorts.Statement (.unitRelease stack pc) := PacketPorts.none_of rfl
theorem PacketPorts.retrain (stack : Fin 12) (ch : Fin 32) : PacketPorts.Statement (.retrain stack ch) := PacketPorts.none_of rfl
theorem PacketPorts.retrainEnd (stack : Fin 12) (pass0 pass1 : Bool) : PacketPorts.Statement (.retrainEnd stack pass0 pass1) := PacketPorts.none_of rfl
theorem PacketPorts.temperatureRead (stack : Fin 12) (celsius : Byte) : PacketPorts.Statement (.temperatureRead stack celsius) := PacketPorts.none_of rfl
theorem PacketPorts.refreshInterval (stack : Fin 12) : PacketPorts.Statement (.refreshInterval stack) := PacketPorts.none_of rfl
theorem PacketPorts.grant (r : Requester) (page : OwnPage) : PacketPorts.Statement (.grant r page) := PacketPorts.none_of rfl
theorem PacketPorts.revoke (r : Requester) (page : OwnPage) : PacketPorts.Statement (.revoke r page) := PacketPorts.none_of rfl
theorem PacketPorts.query (r : Requester) (page : OwnPage) : PacketPorts.Statement (.query r page) := PacketPorts.none_of rfl
theorem PacketPorts.zeroDone (page : OwnPage) : PacketPorts.Statement (.zeroDone page) := PacketPorts.none_of rfl
theorem PacketPorts.revokeEffect (page : OwnPage) : PacketPorts.Statement (.revokeEffect page) := PacketPorts.none_of rfl
theorem PacketPorts.reductionDone (q : Fin 4096) (seq : W32) : PacketPorts.Statement (.reductionDone q seq) := PacketPorts.none_of rfl
theorem PacketPorts.laneTrain (port : Fin 24) (rx : Bool) (lane : Fin 8) (partnerLight : Bool) : PacketPorts.Statement (.laneTrain port rx lane partnerLight) := PacketPorts.none_of rfl
theorem PacketPorts.laneLock (port : Fin 24) (rx : Bool) (lane : Fin 8) (rtt : BitVec 16) : PacketPorts.Statement (.laneLock port rx lane rtt) := PacketPorts.none_of rfl
theorem PacketPorts.lockTimeout (port : Fin 24) (rx : Bool) (lane : Fin 8) : PacketPorts.Statement (.lockTimeout port rx lane) := PacketPorts.none_of rfl
theorem PacketPorts.laneDown (port : Fin 24) (rx : Bool) (lane : Fin 8) : PacketPorts.Statement (.laneDown port rx lane) := PacketPorts.none_of rfl
theorem PacketPorts.lightLost (port : Fin 24) (rx : Bool) (lane : Fin 8) : PacketPorts.Statement (.lightLost port rx lane) := PacketPorts.none_of rfl
theorem PacketPorts.laserModuleLoss (m : Fin 3) : PacketPorts.Statement (.laserModuleLoss m) := PacketPorts.none_of rfl
theorem PacketPorts.linkLost : PacketPorts.Statement (.linkLost) := PacketPorts.none_of rfl
theorem PacketPorts.resetLanes (r : Requester) (port : Fin 24) : PacketPorts.Statement (.resetLanes r port) := PacketPorts.none_of rfl
theorem PacketPorts.rejoin (r : Requester) (port : Fin 24) : PacketPorts.Statement (.rejoin r port) := PacketPorts.none_of rfl
theorem PacketPorts.calibrationSlot (port : Fin 24) : PacketPorts.Statement (.calibrationSlot port) := PacketPorts.none_of rfl
theorem PacketPorts.slotEnd (port : Fin 24) : PacketPorts.Statement (.slotEnd port) := PacketPorts.none_of rfl
theorem PacketPorts.slotAnnounce (port : Fin 24) : PacketPorts.Statement (.slotAnnounce port) := PacketPorts.none_of rfl
theorem PacketPorts.flit (port : Fin 24) (bytes : List Byte) (decoded : Bool) : PacketPorts.Statement (.flit port bytes decoded) := PacketPorts.none_of rfl
theorem PacketPorts.nak (port : Fin 24) (ack : BitVec 12) : PacketPorts.Statement (.nak port ack) := PacketPorts.none_of rfl
theorem PacketPorts.ack (port : Fin 24) (ack : BitVec 12) : PacketPorts.Statement (.ack port ack) := PacketPorts.none_of rfl
theorem PacketPorts.credit (port : Fin 24) (cls : Fin 3) (slots : Nat) : PacketPorts.Statement (.credit port cls slots) := PacketPorts.none_of rfl
theorem PacketPorts.laneAdd (port : Fin 24) (rx : Bool) (lane : Fin 8) (cwseq : Byte) : PacketPorts.Statement (.laneAdd port rx lane cwseq) := PacketPorts.none_of rfl
theorem PacketPorts.laneDrop (port : Fin 24) (rx : Bool) (lane : Fin 8) : PacketPorts.Statement (.laneDrop port rx lane) := PacketPorts.none_of rfl
theorem PacketPorts.handover (failed : Fin 8) (lastSeq : BitVec 12) : PacketPorts.Statement (.handover failed lastSeq) := PacketPorts.none_of rfl
theorem PacketPorts.handoverDone (port : Fin 8) : PacketPorts.Statement (.handoverDone port) := PacketPorts.none_of rfl
theorem PacketPorts.portFailed (port : Fin 8) : PacketPorts.Statement (.portFailed port) := PacketPorts.none_of rfl
theorem PacketPorts.cisternPortFailed (port : Fin 24) : PacketPorts.Statement (.cisternPortFailed port) := PacketPorts.none_of rfl
theorem PacketPorts.rdNc (p : Pkt) : PacketPorts.Statement (.rdNc p) := by
  intro q hq h
  cases hq
  exact wf_port p 1 h
theorem PacketPorts.rdS (p : Pkt) : PacketPorts.Statement (.rdS p) := by
  intro q hq h
  cases hq
  exact wf_port p 2 h
theorem PacketPorts.rdM (p : Pkt) : PacketPorts.Statement (.rdM p) := by
  intro q hq h
  cases hq
  exact wf_port p 3 h
theorem PacketPorts.wr (p : Pkt) : PacketPorts.Statement (.wr p) := by
  intro q hq h
  cases hq
  exact wf_port p 4 h
theorem PacketPorts.wb (p : Pkt) : PacketPorts.Statement (.wb p) := by
  intro q hq h
  cases hq
  exact wf_port p 5 h
theorem PacketPorts.evict (p : Pkt) : PacketPorts.Statement (.evict p) := by
  intro q hq h
  cases hq
  exact wf_port p 6 h
theorem PacketPorts.cmp (p : Pkt) : PacketPorts.Statement (.cmp p) := by
  intro q hq h
  cases hq
  exact wf_port p 33 h
theorem PacketPorts.cmpD (p : Pkt) : PacketPorts.Statement (.cmpD p) := by
  intro q hq h
  cases hq
  exact wf_port p 34 h
theorem PacketPorts.rclAck (p : Pkt) : PacketPorts.Statement (.rclAck p) := by
  intro q hq h
  cases hq
  exact wf_port p 35 h
theorem PacketPorts.rclData (p : Pkt) : PacketPorts.Statement (.rclData p) := by
  intro q hq h
  cases hq
  exact wf_port p 36 h
theorem PacketPorts.recallTimeout (line : BitVec 40) : PacketPorts.Statement (.recallTimeout line) := PacketPorts.none_of rfl
theorem PacketPorts.stallWatch (port : Fin 8) : PacketPorts.Statement (.stallWatch port) := PacketPorts.none_of rfl
theorem PacketPorts.cData (m : Fin 16) (tag : Nat) (status : Nat) (data : List Byte) : PacketPorts.Statement (.cData m tag status data) := PacketPorts.none_of rfl
theorem PacketPorts.cCmp (m : Fin 16) (tag : Nat) (status : Nat) : PacketPorts.Statement (.cCmp m tag status) := PacketPorts.none_of rfl
theorem PacketPorts.cisCfgEnable (r : Requester) (m : Fin 16) (v : W32) : PacketPorts.Statement (.cisCfgEnable r m v) := PacketPorts.none_of rfl
theorem PacketPorts.format (r : Requester) (m : Fin 16) : PacketPorts.Statement (.format r m) := PacketPorts.none_of rfl
theorem PacketPorts.release (r : Requester) (m : Fin 16) : PacketPorts.Statement (.release r m) := PacketPorts.none_of rfl
theorem PacketPorts.trim (r : Requester) (m : Fin 16) : PacketPorts.Statement (.trim r m) := PacketPorts.none_of rfl
theorem PacketPorts.create (r : Requester) : PacketPorts.Statement (.create r) := PacketPorts.none_of rfl
theorem PacketPorts.destroy (r : Requester) : PacketPorts.Statement (.destroy r) := PacketPorts.none_of rfl
theorem PacketPorts.sliceEnd (ctx : Fin 4096) : PacketPorts.Statement (.sliceEnd ctx) := PacketPorts.none_of rfl
theorem PacketPorts.sliceOverrun (ctx : Fin 4096) : PacketPorts.Statement (.sliceOverrun ctx) := PacketPorts.none_of rfl
theorem PacketPorts.coreRelease (core : Fin 10240) : PacketPorts.Statement (.coreRelease core) := PacketPorts.none_of rfl
theorem PacketPorts.swapOut : PacketPorts.Statement (.swapOut) := PacketPorts.none_of rfl
theorem PacketPorts.saveComplete (ctx : Fin 4096) : PacketPorts.Statement (.saveComplete ctx) := PacketPorts.none_of rfl
theorem PacketPorts.swapIn : PacketPorts.Statement (.swapIn) := PacketPorts.none_of rfl
theorem PacketPorts.restoreComplete (ctx : Fin 4096) : PacketPorts.Statement (.restoreComplete ctx) := PacketPorts.none_of rfl
theorem PacketPorts.pwrOk (straps : Fin 16) : PacketPorts.Statement (.pwrOk straps) := PacketPorts.none_of rfl
theorem PacketPorts.powerLoss : PacketPorts.Statement (.powerLoss) := PacketPorts.none_of rfl
theorem PacketPorts.refLost (ref : Fin 2) : PacketPorts.Statement (.refLost ref) := PacketPorts.none_of rfl
theorem PacketPorts.pllUnlock : PacketPorts.Statement (.pllUnlock) := PacketPorts.none_of rfl
theorem PacketPorts.powerRecompute (watts mv : BitVec 16) (fit : Fin 28) : PacketPorts.Statement (.powerRecompute watts mv fit) := PacketPorts.none_of rfl
theorem PacketPorts.droop (cl : Fin 256) : PacketPorts.Statement (.droop cl) := PacketPorts.none_of rfl
theorem PacketPorts.droopCalibration (cl : Fin 256) : PacketPorts.Statement (.droopCalibration cl) := PacketPorts.none_of rfl
theorem PacketPorts.dieTemperatureRead (compute : List Byte) (port : List Byte) (control : Byte) (photonic : List Byte) : PacketPorts.Statement (.dieTemperatureRead compute port control photonic) := PacketPorts.none_of rfl
theorem PacketPorts.park (cl : Fin 256) : PacketPorts.Statement (.park cl) := PacketPorts.none_of rfl
theorem PacketPorts.pwrLimitWrite (r : Requester) (v : W32) : PacketPorts.Statement (.pwrLimitWrite r v) := PacketPorts.none_of rfl
theorem PacketPorts.warm (r : Requester) : PacketPorts.Statement (.warm r) := PacketPorts.none_of rfl
theorem PacketPorts.recovery (r : Requester) : PacketPorts.Statement (.recovery r) := PacketPorts.none_of rfl
theorem PacketPorts.clusterReset (r : Requester) : PacketPorts.Statement (.clusterReset r) := PacketPorts.none_of rfl
theorem PacketPorts.resetDone : PacketPorts.Statement (.resetDone) := PacketPorts.none_of rfl
theorem PacketPorts.clusterResetDone (cl : Fin 256) : PacketPorts.Statement (.clusterResetDone cl) := PacketPorts.none_of rfl
theorem PacketPorts.bootStage (e : StageEnd) : PacketPorts.Statement (.bootStage e) := PacketPorts.none_of rfl
theorem PacketPorts.stageTimeout : PacketPorts.Statement (.stageTimeout) := PacketPorts.none_of rfl
theorem PacketPorts.bootCtrlClearCount (r : Requester) : PacketPorts.Statement (.bootCtrlClearCount r) := PacketPorts.none_of rfl
theorem PacketPorts.setPrefer (r : Requester) (slot : Fin 2) : PacketPorts.Statement (.setPrefer r slot) := PacketPorts.none_of rfl
theorem PacketPorts.commitSvn (r : Requester) : PacketPorts.Statement (.commitSvn r) := PacketPorts.none_of rfl
theorem PacketPorts.secCtrlRevoke (r : Requester) (slot : Fin 4) : PacketPorts.Statement (.secCtrlRevoke r slot) := PacketPorts.none_of rfl
theorem PacketPorts.lcGo (r : Requester) : PacketPorts.Statement (.lcGo r) := PacketPorts.none_of rfl
theorem PacketPorts.lcRequest (target : Fin 8) (token : List Byte) : PacketPorts.Statement (.lcRequest target token) := PacketPorts.none_of rfl
theorem PacketPorts.getIdentity : PacketPorts.Statement (.getIdentity) := PacketPorts.none_of rfl
theorem PacketPorts.getCert (offset len : Nat) : PacketPorts.Statement (.getCert offset len) := PacketPorts.none_of rfl
theorem PacketPorts.attest (nonce : List Byte) : PacketPorts.Statement (.attest nonce) := PacketPorts.none_of rfl
theorem PacketPorts.getBootCause : PacketPorts.Statement (.getBootCause) := PacketPorts.none_of rfl
theorem PacketPorts.getSignState : PacketPorts.Statement (.getSignState) := PacketPorts.none_of rfl
theorem PacketPorts.clearCount : PacketPorts.Statement (.clearCount) := PacketPorts.none_of rfl
theorem PacketPorts.treeDone : PacketPorts.Statement (.treeDone) := PacketPorts.none_of rfl
theorem PacketPorts.requestUpdate (image : Nat) : PacketPorts.Statement (.requestUpdate image) := PacketPorts.none_of rfl
theorem PacketPorts.regRead (offset : Nat) (size : Nat) : PacketPorts.Statement (.regRead offset size) := PacketPorts.none_of rfl
theorem PacketPorts.regWrite (offset : Nat) (size : Nat) (value : W64) : PacketPorts.Statement (.regWrite offset size value) := PacketPorts.none_of rfl
theorem PacketPorts.send (r : Requester) (len : BitVec 14) : PacketPorts.Statement (.send r len) := PacketPorts.none_of rfl
theorem PacketPorts.mboxAck (r : Requester) : PacketPorts.Statement (.mboxAck r) := PacketPorts.none_of rfl
theorem PacketPorts.setdasa (addr : BitVec 7) : PacketPorts.Statement (.setdasa addr) := PacketPorts.none_of rfl
theorem PacketPorts.errorRecord : PacketPorts.Statement (.errorRecord) := PacketPorts.none_of rfl
theorem PacketPorts.blackAction : PacketPorts.Statement (.blackAction) := PacketPorts.none_of rfl
theorem PacketPorts.thermalHoldEnd : PacketPorts.Statement (.thermalHoldEnd) := PacketPorts.none_of rfl
theorem PacketPorts.errInject (r : Requester) (v : W32) : PacketPorts.Statement (.errInject r v) := PacketPorts.none_of rfl
theorem PacketPorts.errFirstClear (r : Requester) : PacketPorts.Statement (.errFirstClear r) := PacketPorts.none_of rfl
theorem PacketPorts.pgErrFirstClear (r : Requester) (cls inst : Nat) : PacketPorts.Statement (.pgErrFirstClear r cls inst) := PacketPorts.none_of rfl
theorem PacketPorts.sample : PacketPorts.Statement (.sample) := PacketPorts.none_of rfl
theorem PacketPorts.throttleWindow : PacketPorts.Statement (.throttleWindow) := PacketPorts.none_of rfl
theorem PacketPorts.mark (r : Requester) (v : W32) : PacketPorts.Statement (.mark r v) := PacketPorts.none_of rfl
theorem PacketPorts.trcCfgEnable (r : Requester) (v : W32) : PacketPorts.Statement (.trcCfgEnable r v) := PacketPorts.none_of rfl
theorem PacketPorts.go (r : Requester) : PacketPorts.Statement (.go r) := PacketPorts.none_of rfl
theorem PacketPorts.domainHalt (d : Fin 315) : PacketPorts.Statement (.domainHalt d) := PacketPorts.none_of rfl
theorem PacketPorts.halted : PacketPorts.Statement (.halted) := PacketPorts.none_of rfl
theorem PacketPorts.captured : PacketPorts.Statement (.captured) := PacketPorts.none_of rfl
theorem PacketPorts.stopRelease (r : Requester) : PacketPorts.Statement (.stopRelease r) := PacketPorts.none_of rfl
theorem PacketPorts.domainResume (d : Fin 315) : PacketPorts.Statement (.domainResume d) := PacketPorts.none_of rfl
theorem PacketPorts.released : PacketPorts.Statement (.released) := PacketPorts.none_of rfl
theorem PacketPorts.wfgGo (r : Requester) : PacketPorts.Statement (.wfgGo r) := PacketPorts.none_of rfl
theorem PacketPorts.wfgDone : PacketPorts.Statement (.wfgDone) := PacketPorts.none_of rfl
theorem PacketPorts.snap (r : Requester) (cls inst : Nat) : PacketPorts.Statement (.snap r cls inst) := PacketPorts.none_of rfl
theorem PacketPorts.pgApply (r : Requester) (cls inst : Nat) : PacketPorts.Statement (.pgApply r cls inst) := PacketPorts.none_of rfl
theorem PacketPorts.take (r : Requester) (cls inst : Nat) : PacketPorts.Statement (.take r cls inst) := PacketPorts.none_of rfl
theorem PacketPorts.give (r : Requester) (cls inst : Nat) : PacketPorts.Statement (.give r cls inst) := PacketPorts.none_of rfl
theorem PacketPorts.registerWrite (r : Requester) (offset : Nat) (v : W32) : PacketPorts.Statement (.registerWrite r offset v) := PacketPorts.none_of rfl
theorem PacketPorts.vinLow (mv : BitVec 16) : PacketPorts.Statement (.vinLow mv) := PacketPorts.none_of rfl
theorem PacketPorts.ctrlBlock (block : Byte) : PacketPorts.Statement (.ctrlBlock block) := PacketPorts.none_of rfl
theorem PacketPorts.portDieLost (p : Fin 4) : PacketPorts.Statement (.portDieLost p) := PacketPorts.none_of rfl
theorem PacketPorts.debugInstruction : PacketPorts.Statement (.debugInstruction) := PacketPorts.none_of rfl
theorem PacketPorts.droopSlotEnd (cl : Fin 256) : PacketPorts.Statement (.droopSlotEnd cl) := PacketPorts.none_of rfl
theorem PacketPorts.requestFirmwareData (offset : Nat) (data : List Byte) : PacketPorts.Statement (.requestFirmwareData offset data) := PacketPorts.none_of rfl
theorem PacketPorts.stopCapData (r : Requester) : PacketPorts.Statement (.stopCapData r) := PacketPorts.none_of rfl
theorem PacketPorts.seqStatus (r : Requester) (cl : Fin 256) : PacketPorts.Statement (.seqStatus r cl) := PacketPorts.none_of rfl

end Sys2Proof.Laws
end

