-- ==== Sys2Proof/Laws/Words.lean ====
section
/-! SUPPORT. What the start of a word of a core does, and when the pumps stand still: the lemmas that statements about words
rest on. -/

namespace Sys2Proof.Machine

/-- The state that the effect of a starting word begins with: the word taken off the queue, its bytes and the words issued
in its place counted. -/
def State.wordTaken (s : State) (c : Nat) (w : QWord) (rest : List QWord) : State :=
  let k := s.core c
  let k' := k.refill rest
  let s := s.setCore c { k' with written := Nat.lor k'.written w.foot.ww, tags := k.tagsAfter w }
  let s := (s.addSlot 0x11 (c / 40) 0 (total w.foot.sr)).addSlot 0x11 (c / 40) 1 (total w.foot.sw)
  s.addCnt C.SEQ_CNT_WORDS (k.issue.length - k'.issue.length) (c / 40)

/-- A word that can start, of the operation asked for, has its effect. -/
theorem State.runWord_starts {s : State} {c kind : Nat} {sel : CoreWord → Bool} {w : QWord} {rest : List QWord}
    (h : Starts s c kind w rest) (hs : sel w.w = true) (eff : State → QWord → State) :
    s.runWord c kind sel eff = eff (s.wordTaken c w rest) w := by
  obtain ⟨h1, h2, h3, h4, h5⟩ := h
  simp [State.runWord, State.wordTaken, h1, h2, h3, h4, h5, hs]

/-- With no word of its kind in the queue, a command of a core's unit changes nothing. -/
theorem State.runWord_none {s : State} {c kind : Nat} {sel : CoreWord → Bool} {eff : State → QWord → State}
    (h : takeWord kind [] (s.core c).queue = none) : s.runWord c kind sel eff = s := by
  unfold State.runWord; split <;> simp [h]

/-- Pumps that owe nothing change nothing (R260). -/
theorem State.pump_idle {s : State} {c : Nat} (h : PumpsIdle s c) : s.pump c = s := by
  unfold State.pump
  split
  · rfl
  · rfl
  · next pl hp _ =>
    obtain ⟨hd, ho⟩ := h pl (by simp [hp])
    simp [hd, ho]

/-- Pumps of a core without an item stand still. -/
theorem State.pump_unplaced {s : State} {c : Nat} (h : (s.core c).place = none) : s.pump c = s :=
  State.pump_idle (by simp [PumpsIdle, h])

/-- What the pumps owe does not change while a word is taken off the queue. -/
theorem Core.refill_place (k : Core) (rest : List QWord) : (k.refill rest).place = k.place := rfl

end Sys2Proof.Machine
end

