-- ==== Sys2Proof/Tests/Slice0.lean ====
section
/-! SUPPORT. Tests of the model: ill-formed terms that the check refuses; per obligation, states and operands that meet the
hypotheses of its clauses (wit_), with a look at the next state; and single steps (test_). Expected values are the spec's, or
computed by hand from it. -/

namespace Sys2Proof.Tests
open Sys2Proof.Machine

set_option Elab.async false

/-! ## Helpers -/

/-- The next state of a command (every command has one). -/
def aft (c : Instr) (s : State) : State := match exec c s with | .next t => t | _ => s

/-- The device ACTIVE, one second after power-on. -/
def act : State := { tm := { power := .active, now := 1000000000 } }

/-- KCL port 0 is up. -/
def up0 : State := act.setFld F.OP_STATUS.UP 1

/-- A core that holds one word. -/
def oneWord (w : CoreWord) (store : Mem := []) : State := act.setCore 5 { queue := [{ w := w }], store := store }

/-- FP32 1.0 at byte 0, 2.0 at byte 32. -/
def f12 : Mem := [(2, 0x80), (3, 0x3F), (35, 0x40)]

/-- A packet to device memory. -/
def pk (op len addr : Nat) (data : List Byte := []) : Pkt := { op := op, tag := 7, len := len, addr := addr, data := data }

/-! ## Well-formedness -/

theorem test_wf_op : WellFormed (.rdNc { pk 2 64 0 with win := 0 }) = false := by decide +kernel
theorem test_wf_win : WellFormed (.rdNc { pk 1 64 0 with win := 4 }) = false := by decide +kernel
theorem test_wf_tag : WellFormed (.rdNc { pk 1 64 0 with tag := 4096 }) = false := by decide +kernel
theorem test_wf_status : WellFormed (.cmp { pk 0x21 0 0 with status := 7 }) = false := by decide +kernel
theorem test_wf_len : WellFormed (.rdNc (pk 1 32 0)) = false := by decide +kernel
theorem test_wf_data : WellFormed (.wr (pk 4 64 0 [1])) = false := by decide +kernel
theorem test_wf_no_data : WellFormed (.rdNc (pk 1 64 0 [1])) = false := by decide +kernel
theorem test_wf_mask : WellFormed (.wr { pk 4 128 0 (List.replicate 128 0) with masked := true }) = false := by decide +kernel
theorem test_wf_port : WellFormed (.rdNc { pk 1 64 0 with port := 8 }) = false := by decide +kernel
theorem test_wf_aux : WellFormed (.push { pk 8 64 0 (List.replicate 64 0) with aux := 4096 }) = false := by decide +kernel
theorem test_wf_good : WellFormed (.wr (pk 4 64 0 (List.replicate 64 1))) = true := by decide +kernel
theorem test_wf_flit : WellFormed (.flit 0 [] true) = false := by decide +kernel
theorem test_wf_credit : WellFormed (.credit 0 0 65536) = false := by decide +kernel
theorem test_wf_cdata : WellFormed (.cData 0 0 0 [1]) = false ∧ WellFormed (.cData 0 4096 0 (List.replicate 64 0)) = false ∧
    WellFormed (.cData 0 0 7 (List.replicate 64 0)) = false := by decide +kernel
theorem test_wf_ccmp : WellFormed (.cCmp 0 4096 0) = false ∧ WellFormed (.cCmp 0 0 7) = false := by decide +kernel
theorem test_wf_temperatures : WellFormed (.dieTemperatureRead [] [0, 0, 0, 0] 0 [0, 0, 0, 0]) = false ∧
    WellFormed (.dieTemperatureRead (List.replicate 16 0) [0] 0 [0, 0, 0, 0]) = false ∧
    WellFormed (.dieTemperatureRead (List.replicate 16 0) [0, 0, 0, 0] 0 []) = false := by decide +kernel
theorem test_wf_token : WellFormed (.lcRequest 3 [0]) = false := by decide +kernel
theorem test_wf_nonce : WellFormed (.attest []) = false := by decide +kernel
theorem test_wf_cert : WellFormed (.getCert (2 ^ 32) 0) = false ∧ WellFormed (.getCert 0 65536) = false := by decide +kernel
theorem test_wf_update : WellFormed (.requestUpdate (2 ^ 32)) = false ∧
    WellFormed (.requestFirmwareData 0 (List.replicate 4097 0)) = false := by decide +kernel
theorem test_wf_offset : WellFormed (.regRead 2 4) = false ∧ WellFormed (.regWrite (2 ^ 28) 4 0) = false ∧
    WellFormed (.regRead 0 2) = false ∧ WellFormed (.registerWrite .host 6 0) = false := by decide +kernel
theorem test_wf_page : WellFormed (.snap .host 256 0) = false ∧ WellFormed (.pgApply .host 0 256) = false ∧
    WellFormed (.take .host 256 0) = false ∧ WellFormed (.give .host 256 0) = false ∧
    WellFormed (.pgErrFirstClear .host 256 0) = false := by decide +kernel
theorem test_wf_messages : WellFormed (.dispatchMessage 0 0 0 65536) = false ∧
    WellFormed (.doneIncrement 0 0 0 0 256) = false ∧ WellFormed (.doneIncrement 0 0 (2 ^ 64) 0 0) = false ∧
    WellFormed (.gaugeAdvance 0 0 0 0 0 (2 ^ 24)) = false := by decide +kernel
theorem test_wf_edit : WellFormed (.deferredEdit (2 ^ 32)) = false := by decide +kernel
theorem test_wf_cells : WellFormed (.enable .host [(2 ^ 64, 1)]) = false := by decide +kernel
theorem test_wf_heads :
    let h : HeadOut := { group := 0, index := 0, reward := 0, value := 0, mean := [], logScale := [], state := [] }
    WellFormed (.stepClose 0 0 [h, h]) = false ∧ WellFormed (.stepClose 0 0 [{ h with group := 256 }]) = false ∧
      WellFormed (.stepClose 0 0 [h]) = true := by decide +kernel
theorem test_wf_stage : WellFormed (.bootStage (.done [(0, 1), (0, 1)])) = false := by decide +kernel

/-! ## Words of a core -/

theorem wit_VectorElementwise :
    let v : VecWord := { op := .add, a := 0, b := 1, d := 4 }
    let s := oneWord (.vec v) f12
    elementOf .add = some (fun a b _ => f32add a b) ∧ Starts s 5 4 { w := .vec v } [] ∧
      ((aft (.add 5) s).core 5).f32 128 = 0x40400000 ∧ ((aft (.add 5) s).core 5).f32 132 = 0 := by
  refine ⟨rfl, ?_, ?_⟩
  · unfold Starts; decide +kernel
  · decide +kernel

/-- Every row of the elementwise family writes its destination: the operands 1.0, 2.0 and 0.0 (R83, R116). -/
theorem test_elementwise_rows :
    let go (o : VecOp) : Nat := ((aft (vecCommand o 5) (oneWord (.vec { op := o, a := 0, b := 1, c := 2, d := 4 }) f12)).core 5).f32 128
    go .fma = 0x40000000 ∧ go .mul = 0x40000000 ∧ go .sqrt = 0x3F800000 := by
  decide +kernel

theorem wit_VectorRangeOperations :
    let v : VecWord := { op := .sum, a := 0, d := 4 }
    let w : VecWord := { op := .splitmix, a := 0, d := 4 }
    let x : VecWord := { op := .topk, a := 0, d := 8, len := 2, aux := 1 }
    reducerOf .sum = some vAdd ∧ Starts (oneWord (.vec v) f12) 5 4 { w := .vec v } [] ∧
      Starts (oneWord (.vec w) f12) 5 4 { w := .vec w } [] ∧ Starts (oneWord (.vec x) f12) 5 4 { w := .vec x } [] ∧
      w.a * 32 + 128 * w.len ≤ w.d * 32 ∧
      ((aft (.sum 5) (oneWord (.vec v) f12)).core 5).f32 128 = 0x40400000 ∧
      ((aft (.topk 5) (oneWord (.vec x) f12)).core 5).f32 256 = 0x40000000 ∧
      ((aft (.topk 5) (oneWord (.vec x) f12)).core 5).f32 260 = 8 := by
  refine ⟨rfl, ?_, ?_, ?_, ?_⟩
  · unfold Starts; decide +kernel
  · unfold Starts; decide +kernel
  · unfold Starts; decide +kernel
  · decide +kernel

/-- The first output of splitmix64 from state 0 (R581). -/
theorem test_splitmix : leNat (rdBytes ((aft (.splitmix 5) (oneWord (.vec { op := .splitmix, a := 0, d := 4 }))).core 5).store 128 8) =
    0xE220A8397B1DCDAF := by decide +kernel

theorem wit_VectorWideOperations :
    let v (o : VecOp) : VecWord := { op := o, a := 0, b := 40, c := 80, d := if o = .add40 ∨ o = .fma40 then 120 else 3 }
    (Starts (oneWord (.vec (v .add40))) 5 4 { w := .vec (v .add40) } [] ∧
      Starts (oneWord (.vec (v .fma40))) 5 4 { w := .vec (v .fma40) } []) ∧
    Starts (oneWord (.vec (v .add40w))) 5 4 { w := .vec (v .add40w) } [] ∧
    Starts (oneWord (.vec (v .gate40w))) 5 4 { w := .vec (v .gate40w) } [] ∧ (v .add40w).d < 24 := by
  unfold Starts; decide +kernel

theorem wit_VectorConvertScan :
    let v : VecWord := { op := .cvt, fmtA := 0, fmtD := 1, d := 8 }
    let w : VecWord := { op := .lscan40, b := 8, c := 16, d := 32 }
    Starts (oneWord (.vec v)) 5 4 { w := .vec v } [] ∧ Starts (oneWord (.vec w)) 5 4 { w := .vec w } [] ∧
      (ofF32 ((oneWord (.vec v)).core 5 |>.f32 0)).isNan = false ∧
      (rdByte ((oneWord (.vec w)).core 5).store (w.c * 32 + 160)).getLsbD 0 = false ∧
      ((aft (.cvt 5) (oneWord (.vec v) f12)).core 5).f32 256 = 0x3F80 := by
  unfold Starts; decide +kernel

/-- ARRAY of format 3, LOAD_STAT of format 3. -/
theorem wit_ArrayAndTiles :
    let a : W64 := 0x1000180000000000
    let l : W64 := 0x2000003000000000
    Starts (oneWord (.bits a)) 5 1 { w := .bits a } [] ∧ class16 (wf a 46 43) = false ∧ wf a 42 42 = 0 ∧
      Starts (oneWord (.bits l)) 5 2 { w := .bits l } [] ∧ class16 (wf l 39 36) = false ∧
      ((aft (.loadStat 5) (oneWord (.bits l) f12)).core 5).shadow.fmt = 3 := by
  unfold Starts; decide +kernel

theorem wit_DrainAndWellImages :
    let w : W64 := 0x3000F00001000000
    Starts (oneWord (.bits w)) 5 3 { w := .bits w } [] ∧
      (wf w 47 44 = 0xF ∧ wf w 43 42 = 0 ∧ wf w 49 48 = 0 ∧ wf w 54 51 = 0 ∧ wf w 50 50 = 0 ∧ 4 ≤ wf w 29 22) ∧
      Starts (oneWord (.save40 (BitVec.ofNat 24 (2 ^ 23)) 4)) 5 6 { w := .save40 (BitVec.ofNat 24 (2 ^ 23)) 4 } [] ∧
      Starts (oneWord (.restore40 1 4)) 5 7 { w := .restore40 1 4 } [] := by
  unfold Starts; decide +kernel

/-- RESTORE40 of well 0 from byte 0: element (0, 0) takes the W40 value at the image's first five bytes. -/
theorem test_restore40 : ((aft (.restore40 5) (oneWord (.restore40 1 0) [(4, 0x40)])).core 5).well 0 0 0 = 0x4000000000 := by
  decide +kernel

theorem wit_SequencerWords :
    let w (k tgt : Nat) : W64 := BitVec.ofNat 64 (k * 2 ^ 60 + tgt * 2 ^ 23)
    let s (k tgt : Nat) := oneWord (.bits (w k tgt))
    let x : Waiting := { counter := false, index := 0, target := 0, since := act.tm.now }
    Starts (s 8 0) 5 8 { w := .bits (w 8 0) } [] ∧ (s 8 0).waitMet x = true ∧ (s 8 1).waitMet { x with target := 1 } = false ∧
      (s 8 1).yieldPending 5 = false ∧ Starts (s 14 0) 5 14 { w := .bits (w 14 0) } [] ∧
      Starts (s 15 0) 5 15 { w := .bits (w 15 0) } [] ∧
      (((act.setCore 5 { waiting := some x }).core 5).waiting = some x ∧ act.runs 0 = true) ∧
      ((aft (.wait 5) (s 8 1)).core 5).waiting = some { x with target := 1 } ∧
      ((aft (.waitWake 5) (act.setCore 5 { waiting := some x })).core 5).waiting = none ∧
      ((aft (.endWord 5) (s 15 0)).core 5).ended = true := by
  unfold Starts; decide +kernel

theorem wit_NeighbourMoves :
    let r : W64 := 0x5000008000010000
    let w : W64 := 0x5400008000018800
    Starts (oneWord (.bits r)) 5 5 { w := .bits r } [] ∧ wf r 57 56 < 2 ∧ wf r 59 58 = 0 ∧
      Starts (oneWord (.bits w) f12) 5 5 { w := .bits w } [] ∧ wf w 57 56 < 2 ∧ wf w 59 58 = 1 ∧ wf w 10 10 = 0 ∧ wf w 11 11 = 1 ∧
      ((aft (.moveWrite 5) (oneWord (.bits w) f12)).core (neighbour 5 (wf w 57 56))).f32 (wf w 39 28 * 32) = 0x3F800000 := by
  unfold Starts; decide +kernel

theorem wit_Atomics :
    let w : W64 := 0x5800000000000000
    let s := oneWord (.bits w) f12
    Starts s 5 5 { w := .bits w } [] ∧ wf w 59 58 = 2 ∧ wf w 19 16 = 0 ∧ (s.core 5).place = none ∧
      leNat (rdBytes (aft (.add32 5) s).mm.shared 0 4) = 0x3F800000 := by
  unfold Starts; decide +kernel

/-! ## Host link and ports -/

theorem wit_HostWrites :
    let d := List.replicate 64 (0x5A : Byte)
    let p := pk 4 64 0x1000 d
    let h : State := { up0 with hl.filter := [{ line := 64, modified := true }] }
    Serving up0 p ∧ p.win = 0 ∧ up0.windowReaches (63 * 2 ^ 30 - 64) = true ∧ sized p ∧ (h.held? (p.addr / 64)).isSome = true ∧
      (let t := aft (.wr p) up0
       t.devRead 0x1000 2 = [0x5A, 0x5A] ∧ rdByte t.mm.dev 0xFFF = 0 ∧ rdByte t.mm.dev 0x1040 = 0 ∧ .cmp 0 7 0 ∈ t.hl.out) ∧
      (let t := aft (.wr { p with masked := true, mask := 1 }) up0
       t.devRead 0x1000 2 = [0x5A, 0]) ∧
      (aft (.wb { p with op := 5 }) h).hl.filter = [] ∧ (aft (.evict (pk 6 0 0x1000)) h).hl.filter = [] := by
  unfold Serving sized; decide +kernel

theorem wit_HostReads :
    let p := pk 1 64 0x1000
    let m : State := { up0 with mm.dev := [(0x1001, 9)] }
    Serving m p ∧ p.win = 0 ∧ m.windowReaches p.addr = true ∧ (units64 p.addr p.len).filter m.lineBusy = [] ∧ sized p ∧
      m.filterFull (p.addr / 64) = none ∧ (0x1001 : Nat) % 64 ≠ 0 ∧
      .cmpD 0 7 0 (0 :: 9 :: List.replicate 62 0) ∈ (aft (.rdNc p) m).hl.out ∧
      (aft (.rdS { p with op := 2 }) m).held? 64 = some { line := 64, modified := false } ∧
      (aft (.rdM { p with op := 3 }) m).held? 64 = some { line := 64, modified := true } ∧
      .cmpD 0 7 1 [] ∈ (aft (.rdS { p with op := 2, addr := 0x1001 }) m).hl.out := by
  unfold Serving sized; decide +kernel

/-- A queue of 2^4 slots, of context 3 and client 1, whose oldest and next slot are 5. -/
def qdesc : List Byte := toLE 8 0x10000 ++ toLE 8 0x20000 ++ toLE 8 0x30000 ++ [4, 1, 1, 0, 3, 0, 9, 0]
def oneQueue (asked : Nat := 5) (hand : List (Nat × List Byte) := []) : State :=
  up0.setQueue 2 { enabled := true, desc := qdesc, position := some (5, 5), tail := asked, asked := asked, inHand := hand }

theorem wit_DoorbellPush :
    let p := pk 7 4 32 (toLE 4 6)
    let s := oneQueue
    let q := s.queue 2
    Serving s p ∧ p.addr / 16 = 2 ∧ p.addr % 16 = 0 ∧ p.masked = false ∧ q.enabled = true ∧ q.asked = q.tail ∧
      field p.data 0 4 = seqAfter q.tail 1 ∧ seqAhead (seqAfter q.tail 1) q.oldest ≤ q.size ∧
      seqAhead q.tail q.oldest < seqAhead (seqAfter q.tail 1) q.oldest ∧ s.hl.ringCache = [] ∧
      (let t := aft (.db p) s
       (t.queue 2).tail = 6 ∧ .hrd 0 (0x10000 + 64 * 5) ∈ t.hl.out) ∧
      (let t := aft (.db { p with addr := 33 }) s
       t.cnt C.HL_CNT_DB_DROPPED = 1 ∧ t.er.collector.length = 1) ∧
      (s.setFld F.HL_CFG.PUSH_EN 1).fld F.HL_CFG.PUSH_EN = 1 ∧
      (aft (.push (pk 8 64 5 [1])) (s.setFld F.HL_CFG.PUSH_EN 1)).hl.ringCache.length = 1 := by
  unfold Serving; decide +kernel

theorem wit_AnswersToTheDevice :
    let c : Cmd := { q := 2, seq := 4, ctx := 3, kind := .barrier, rec_ := [] }
    let s : State := { oneQueue 6 with
      hl.hwr := [⟨7, 0, [], .journal 2 4⟩], hl.hrd := [⟨7, 0, .record 2 5⟩], cq.cmds := [c] }
    let m : State := (act.setFld F.OP_STATUS.UP 1 8).setModule 0 { st := 1, reqs := [⟨3, .ident⟩, ⟨4, .trim⟩] }
    Serving s (pk 0x21 0 0) ∧ s.hl.hwr.find? (fun h => h.tag == 7) = some ⟨7, 0, [], .journal 2 4⟩ ∧
      (s.hl.hwr.erase ⟨7, 0, [], .journal 2 4⟩).any (fun g => g.what == .journal 2 4) = false ∧ s.cmd? 2 4 = some c ∧
      s.hl.hrd.find? (fun h => h.tag == 7) = some ⟨7, 0, .record 2 5⟩ ∧
      seqAhead 5 (s.queue 2).next < seqAhead (s.queue 2).asked (s.queue 2).next ∧
      (aft (.cmp (pk 0x21 0 0)) s).cmd? 2 4 = some { c with journalled := true } ∧
      ((aft (.cmpD (pk 0x22 64 0 [1])) s).queue 2).inHand = [(5, 1 :: List.replicate 63 0)] ∧
      m.fld F.OP_STATUS.UP 8 = 1 ∧ m.stopState = 0 ∧ (m.module 0).clearing = false ∧ (m.module 0).label = [] ∧
      (m.module 0).reqs.find? (fun r => r.tag = 3) = some ⟨3, .ident⟩ ∧ (m.module 0).reqs.find? (fun r => r.tag = 4) = some ⟨4, .trim⟩ ∧
      (aft (.cData 0 3 0 (toLE 8 0 ++ toLE 8 5 ++ List.replicate 48 0)) m).cnt C.CIS_CAPACITY 0 = 5 ∧
      (aft (.cCmp 0 4 0) m).fld F.CIS_INT_STATUS.OP_DONE 0 = 1 := by
  unfold Serving; decide +kernel

theorem wit_RecallsAndStalls :
    let r : Recall := { line := 64, tag := 7, at_ := 999000000, waits := [] }
    let s : State := { up0 with hl.recalls := [r], hl.filter := [{ line := 64, modified := true }] }
    let p : State := act.setPort 1 { partialSince := some 1 }
    Serving s (pk 0x23 0 0) ∧ s.hl.recalls.find? (fun r => r.tag == 7) = some r ∧ r.at_ + 1000000 ≤ s.tm.now ∧
      (aft (.rclAck (pk 0x23 0 0)) s).held? 64 = none ∧ (aft (.rclData (pk 0x24 64 0 [3])) s).devRead 4096 2 = [3, 0] ∧
      (aft (.recallTimeout 64) s).poisoned 4096 64 = true ∧
      (p.port 1).partialSince = some 1 ∧ (p.port 1).stalled = false ∧
      1 + Nat.max 1 (p.fld F.HL_STALL_WATCH.MS) * 1000000 < p.tm.now ∧
      (aft (.stallWatch 1) p).fld F.HL_INT_STATUS.STALL = 1 := by
  unfold Serving; decide +kernel

theorem wit_LaneStates :
    let s := (act.setFld F.OP_CFG.ENABLE 1).setFld F.OP_STATUS.UP 1
    let l (x : LaneSt) (e : Nat) : State := s.setLane 0 true 7 { st := x, since := e, light := true }
    s.laneUsed 0 7 = true ∧ s.fld F.OP_CFG.ENABLE = 1 ∧ (s.lane 0 true 7).st = .dark ∧
      ((aft (.laneTrain 0 true 7 true) s).lane 0 true 7).st = .dim ∧
      ((aft (.laneLock 0 true 7 9) (l .dim 999000000)).lane 0 true 7).st = .lit ∧
      ((aft (.laneLock 0 true 7 9) (l .dim 999000001)).lane 0 true 7).st = .dim ∧
      ((aft (.lockTimeout 0 true 7) (l .dim 950000000)).lane 0 true 7).st = .failed ∧
      ((aft (.laneDown 0 true 7) (l .lit 0)).lane 0 true 7).st = .dim ∧
      ((aft (.laneDown 0 true 7) (s.setLane 0 true 7 { st := .lit, light := true, moves := [999999999, 1] })).lane 0 true 7).st = .failed ∧
      ((aft (.laneDown 0 true 7) (s.setLane 0 true 7 { st := .lit, light := true, moves := [999999999, 0] })).lane 0 true 7).st = .dim ∧
      ((aft (.lightLost 0 true 7) (l .lit 0)).lane 0 true 7).st = .dark ∧
      ((aft (.laneAdd 0 true 7 3) (l .lit 0)).lane 0 true 7).rot = true ∧
      ((aft (.laneDrop 0 true 7) (aft (.laneAdd 0 true 7 3) (l .lit 0))).lane 0 true 7).rot = false := by
  decide +kernel

theorem wit_CalibrationSlots :
    let s : State := { (act.setFld F.OP_CFG.ENABLE 1 1).setFld F.OP_STATUS.UP 1 1 with tm.now := 1000040000 }
    s.powered = true ∧ (s.port 1).slotUntil = none ∧ slotTime 1 (s.tm.now - 52) ≤ s.tm.now ∧
      (let t := aft (.calibrationSlot 1) s
       t.fld F.OP_STATUS.IN_SLOT 1 = 1 ∧ (t.port 1).slotUntil = some 1000041996 ∧
       (aft (.slotEnd 1) { t with tm.now := 1000041997 }).fld F.OP_STATUS.IN_SLOT 1 = 0) ∧
      (let u : State := { s with tm.now := 1000001000 }
       u.tm.now + 820 ≤ slotTime 1 u.tm.now ∧ ((aft (.slotAnnounce 1) u).port 1).announced = some 1000040000) := by
  decide +kernel

/-- Bytes 0 to 123 of a flit of SEQ 0 of type 2 with all slots 0, and the whole flit. -/
def ctlHead : List Byte := toLE 4 (2 * 2 ^ 12) ++ List.replicate 120 0
def ctlFlit : List Byte := ctlHead ++ toLE 4 (crc32 ctlHead).toNat

theorem wit_FlitLayer_crc : ctlFlit.length = 128 ∧ (crc32 (ctlFlit.take 124)).toNat = field ctlFlit 124 4 := by
  have h : ctlHead.length = 124 := by decide +kernel
  refine ⟨by simp [ctlFlit, h], ?_⟩
  have e : field ctlFlit 124 4 = leNat (toLE 4 (crc32 ctlHead).toNat) := by
    unfold field ctlFlit
    rw [← h, List.drop_left, List.take_of_length_le (by simp)]
  rw [e, leNat_toLE, ctlFlit, ← h, List.take_left]
  have := (crc32 ctlHead).isLt
  omega

theorem wit_FlitLayer :
    let s : State := up0.setPort 0 { retry := [⟨4095, [], .ctrl 0 2 0⟩, ⟨0, [], .ctrl 0 2 1⟩] }
    (s.port 0).heldTx = [] ∧ s.fld F.OP_STATUS.UP = 1 ∧ (s.port 0).nakSent = false ∧ (s.port 0).rxNext = 0 ∧
      field ctlFlit 0 4 = (s.port 0).rxNext + 2 * 2 ^ 12 ∧ (∀ i, i < 15 → field ctlFlit (4 + 8 * i) 8 = 0) ∧
      ((aft (.ack 0 4095) s).port 0).retry = [⟨0, [], .ctrl 0 2 1⟩] ∧
      .replay 0 0 ∈ (aft (.nak 0 4095) s).hl.out ∧
      ((aft (.credit 0 1 9) s).port 0).credits = [0, 9, 0] ∧
      .ackFlit 0 4095 true ∈ (aft (.flit 0 (List.replicate 128 0) false) s).hl.out := by
  decide +kernel

theorem wit_PortsAndLight :
    let s := (up0.setFld F.OP_STATUS.UP 1 1).setFld F.OP_STATUS.UP 1 9
    let t := aft (.portFailed 0) s
    let u := aft (.handover 0 5) t
    let v := aft (.handoverDone 0) u
    let w : State := v.setFld F.OP_STATUS.UP 1 0
    s.tm.power ≠ .minimal ∧ s.fld F.OP_STATUS.UP 1 = 1 ∧ t.fld F.OP_STATUS.FAILED 0 = 1 ∧ (t.port 0).handing = true ∧
      t.nextLive 0 = some 1 ∧ .ctrl 1 0x06 0 ∈ u.hl.out ∧ v.physPort 0 = 1 ∧ v.physPort 7 = 7 ∧
      v.fld F.HL_INT_STATUS.HANDOVER_DONE = 1 ∧ Writable w 0x30 0 .host ∧ (w.port 0).handing = false ∧ w.physPort 0 ≠ 0 ∧
      ((aft (.rejoin .host 0) w).port 0).handing = true ∧
      (s.module 1).st ≠ 4 ∧ (aft (.cisternPortFailed 9) s).fld F.OP_STATUS.FAILED 9 = 1 ∧
      s.er.darkSince = none ∧ (aft (.laserModuleLoss 0) s).er.darkSince = some 1000000000 ∧
      (∃ e ∈ (aft .linkLost { s with er.darkSince := some 0, tm.now := 10000000000 }).er.collector, e.code = 0x3105) ∧
      (((aft (.resetLanes .host 0) (s.setLane 0 false 7 { st := .failed })).lane 0 false 7).st = .dark ∧
        Writable s 0x30 0 .host) := by
  unfold Writable; decide +kernel

/-! ## Clocks, power, resets -/

theorem wit_ClocksAndPoints :
    act.powered = true ∧ act.tm.power = .active ∧ act.tm.now % 10000 = 0 ∧
      (aft (.refLost 1) act).fld F.CLK_STATUS.TB_UNSYNC = 1 ∧ (aft .pllUnlock act).fld F.CLK_STATUS.PLL_LOCKED = 0 ∧
      act.fld F.PWR_STATUS.STATE ≠ 1 ∧
      (let t := aft (.powerRecompute 900 12000 27) act
       t.fld F.PWR_INT_STATUS.LIMITED = 1 ∧ t.fld F.PWR_STATUS.STATE = 1 ∧ t.fld F.PWR_INPUT.WATTS = 900) ∧
      (let s := act.setCluster 7 { layers := [{ q := 0, seq := 0, layer := 0, counter := 0, n := 1, cores := [280] }] }
       ((aft (.powerRecompute 900 12000 26) s).clk 7).point = 4 ∧ ((aft (.powerRecompute 900 12000 2) s).clk 7).point = 2) := by
  decide +kernel

theorem wit_SuppliesAndTemperatures :
    let s : State := { act with tm.now := 1000000000 / 64000000 * 64000000 + 3 * 250000 }
    let d := act.setCluster 3 { droopUntil := some 5 }
    let k := act.setFld F.PWR_CFG.PARK 1
    Writable act 0x09 0 .host ∧ (aft (.pwrLimitWrite .host 900) act).fld F.PWR_LIMIT.WATTS = 900 ∧
      (aft (.vinLow 10400) act).fld F.PWR_INT_STATUS.VIN_LOW = 1 ∧ act.domHalted 3 = false ∧ (act.clk 3).parked = false ∧
      (aft (.droop 3) act).fld F.CLK_INT_STATUS.STRETCH = 1 ∧ s.stopState = 0 ∧ s.tm.now % 64000000 = 3 * 250000 ∧
      ((aft (.droopCalibration 3) s).cluster 3).droopUntil = some (s.tm.now + 2000) ∧
      ((aft (.droopSlotEnd 3) d).cluster 3).droopUntil = none ∧
      k.fld F.PWR_CFG.PARK ≠ 0 ∧ (k.cluster 3).layers = [] ∧ (k.clk 3).idleSince + k.parkDelay ≤ k.tm.now ∧
      ((aft (.park 3) k).clk 3).parked = true := by
  unfold Writable; decide +kernel

/-- A reading of 100 °C steps a die's clusters down, 99 °C keeps, 98 °C ends it (R454). -/
theorem test_hot_die :
    let r (c : Byte) (s : State) := aft (.dieTemperatureRead (List.replicate 15 40 ++ [c]) [40, 40, 40, 40] 40 [40, 40, 40, 40]) s
    act.powered = true ∧ (r 100 act).pw.hotDies = [15] ∧ (r 99 act).pw.hotDies = [] ∧ (r 99 (r 100 act)).pw.hotDies = [15] ∧
      (r 98 (r 100 act)).pw.hotDies = [] ∧ (∃ e ∈ (r 110 act).er.collector, e.code = 0x0903 ∧ e.sev = 3) := by
  decide +kernel

theorem wit_Resets :
    let s : State := { act.setQueue 2 { enabled := true, position := some (0, 0) } with hl.filter := [{ line := 1, modified := true }] }
    let w := aft (.warm .firmware) s
    let v := aft (.recovery .host) s
    let c := aft (.clusterReset .host) s
    s.rs.run = none ∧ s.st.held = [] ∧ Writable s 0x0A 0 .host ∧ s.rs.clusters.any (fun c => c.1 == s.fld F.RST_CLUSTER.CLUSTER) = false ∧
      w.tm.power = .resetting ∧ (w.queue 2).enabled = false ∧ (v.queue 2).enabled = true ∧ v.hl.filter = [] ∧
      (∃ x, w.rs.run = some x) ∧ w.er.blackLater = none ∧
      (let e : State := { w with tm.now := w.tm.now + 1000000000 }
       e.st.held = [] ∧ (aft .resetDone e).tm.power = .active ∧ (aft .resetDone e).fld F.RST_STATUS.LAST = 2) ∧
      (c.cluster 0).removed = true ∧
      (let e : State := { c with tm.now := c.tm.now + 4300 }
       e.st.held = [] ∧ e.rs.clusters = [(0, 1000000000)] ∧ ((aft (.clusterResetDone 0) e).cluster 0).removed = false ∧
         (aft (.clusterResetDone 0) e).fld F.RST_STATUS.LAST = 4) := by
  unfold Writable
  refine ⟨by decide +kernel, by decide +kernel, by decide +kernel, by decide +kernel, by decide +kernel, by decide +kernel,
    by decide +kernel, by decide +kernel, ⟨_, rfl⟩, by decide +kernel, by decide +kernel, by decide +kernel, by decide +kernel⟩

/-- STRAP_ADDR0 to 3 give the static address (R565). -/
theorem wit_PowerCycle :
    let s : State := { act with tm.power := .off }
    s.tm.power = .off ∧ (aft (.pwrOk 5) s).fld F.MG_CFG.STATIC_ADDR = 0x45 ∧ (aft (.pwrOk 5) s).tm.power = .starting ∧
      (aft .powerLoss act).tm.power = .off := by decide +kernel

theorem wit_BootStages :
    let at_ (n : Nat) : State := (State.reset.setFld F.BOOT_STATUS.STAGE n)
    let l (n : Nat) : State := { at_ 3 with bt.stateLog := [⟨1, 1, n, 0⟩] }
    (at_ 1).tm.power = .starting ∧ (aft (.bootStage (.done [])) (at_ 1)).fld F.BOOT_STATUS.STAGE = 2 ∧ (l 2).failCount < 3 ∧
      (aft (.bootStage (.done [])) (l 2)).failCount = 3 ∧ 3 ≤ (l 3).failCount ∧
      (aft (.bootStage (.done [])) (at_ 11)).tm.power = .active ∧
      1 ≤ stageCodes 8 ∧ (aft (.bootStage (.failed 1)) (at_ 8)).tm.power = .halted ∧
      3 ≤ stageCodes 2 ∧
      stageLimit 4 = some 1000 ∧
      (aft .stageTimeout { at_ 4 with tm.now := 1000000000 }).bt.stateLog.getLast?.map (·.value) = some (0x4F + 256 * 4) ∧
      (aft .stageTimeout { at_ 4 with tm.now := 999999999 }).tm.power = .starting := by decide +kernel

theorem wit_BootAndLifeCycle :
    let s := ((act.setFld F.BOOT_SVN.SVN 3).setFld F.LC_TARGET.STATE 2)
    let k : State := { act with bt.fwKey := some 1 }
    Writable s 0x0C 0 .host ∧ Writable s 0x0D 0 .host ∧ Writable s 0x0E 0 .host ∧ s.bt.fuses.lc.length < 16 ∧
      (aft (.bootCtrlClearCount .host) { s with bt.stateLog := [⟨1, 1, 2, 0⟩] }).failCount = 0 ∧
      (aft (.setPrefer .host 1) s).preferred = 1 ∧ (aft (.commitSvn .host) s).bt.fuses.svn = 3 ∧
      (aft (.commitSvn .host) { s with tm.power := .minimal }).bt.fuses.svn = 0 ∧
      (aft (.secCtrlRevoke .host 3) k).bt.fuses.revoked = 8 ∧ (aft (.secCtrlRevoke .host 1) k).bt.fuses.revoked = 0 ∧
      s.lcPending = none ∧ lcAllowed s.lcState 2 = true ∧ lcNeedsToken s.lcState 2 = false ∧
      (aft (.lcGo .host) s).bt.fuses.lc = [⟨1, true⟩, ⟨2, false⟩] ∧
      (aft (.lcGo .host) (aft (.lcGo .host) s)).fld F.LC_STATUS.RESULT = 5 ∧
      (aft (.lcGo .host) act).fld F.LC_STATUS.RESULT = 1 := by
  unfold Writable; decide +kernel

/-- A token from DEBUG to PROVISIONED of this device; whether its signature is good the model leaves open (log 10). -/
def token : List Byte := toLE 4 1 ++ [3, 1, 0, 0] ++ serialBytes ++ toLE 4 2 ++ toLE 4 0 ++ List.replicate 1452 0

theorem wit_BootAndLifeCycle_token :
    let s : State := { act with bt.fuses.lc := [⟨1, true⟩, ⟨3, true⟩] }
    s.mgmtServes = true ∧ s.lcPending = none ∧ lcAllowed s.lcState 1 = true ∧ lcNeedsToken s.lcState 1 = true ∧
      (Config.lmsVerify 0 (token.take 32) (token.drop 32) = true → s.tokenOk 1 token = true) := by
  refine ⟨by decide +kernel, by decide +kernel, by decide +kernel, by decide +kernel, fun h => ?_⟩
  have e : (token.drop 8).take 16 = serialBytes := by rfl
  have f0 : field token 0x1C 4 = 0 := by decide +kernel
  simp only [State.tokenOk, e, f0, h, decide_true, Bool.and_true]
  decide +kernel

theorem wit_ManagementMessages :
    let s := act.setFld (F.PG_LOCK.HOLDER 9) 1
    act.mgmtServes = true ∧ (aft .getSignState act).hl.out = [.mgmt 6 0 (toLE 8 0 ++ toLE 8 (2 ^ 30))] ∧
      (aft (.getCert 1500 101) act).hl.out = [.mgmt 2 5 []] ∧ (aft .clearCount act).hl.out = [.mgmt 7 0 []] ∧
      s.regServed 0x900100 4 = true ∧ s.accessWaits (offCls 0x900100) (offInst 0x900100) .mgmt = false ∧
      s.lockedFor (offCls 0x900100) (offInst 0x900100) .mgmt = true ∧ offReg 0x900100 ≠ 0x024 ∧
      (aft (.regWrite 0x900100 4 5) s).hl.out = [.mgmt 0x11 3 []] ∧ s.regServed 0x900100 16 = false ∧
      (aft (.regRead 0x900100 16) s).hl.out = [.mgmt 0x10 5 []] ∧
      (aft (.setdasa 0x21) act).fld F.MG_STATUS.DYN_ADDR = 0x21 := by decide +kernel

theorem wit_AttestationAndUpdate :
    let n := List.replicate 32 (1 : Byte)
    let s : State := { act with bt.sign.next := some 300, bt.sign.left := 1 }
    let x : State := { act with bt.sign.exhausted := true }
    let g : State := { act with tm.now := 2000000000, bt.sign.generating := some (1, 550000000) }
    let u : State := { act with bt.update := some { slot := 1, size := 3, received := 1 } }
    s.lcState ≠ 4 ∧ s.bt.sign.exhausted = false ∧ 1 ≤ s.bt.sign.left ∧ (aft (.attest n) s).bt.sign.next = none ∧
      act.bt.sign.next = none ∧ act.treeReady = true ∧ (aft (.attest n) act).bt.sign.next = some 1 ∧
      logValue (aft (.attest n) act).bt.resLog 4 = some 0 ∧ (aft (.attest n) x).hl.out = [.mgmt 3 2 []] ∧
      550000000 + 1450000000 ≤ g.tm.now ∧ (aft .treeDone g).bt.sign.stored.contains 1 = true ∧
      act.bt.update = none ∧ ((aft (.requestUpdate 5000) act).bt.update.map (·.size)) = some 5000 ∧
      u.mgmtServes = true ∧ (aft (.requestFirmwareData 1 [7]) { u with bt.update := some { slot := 1, size := 3, received := 1 } }).bt.update =
        some { slot := 1, size := 3, received := 1 } ∧
      ((aft (.requestFirmwareData 0 (List.replicate 4096 7))
        { act with bt.update := some { slot := 1, size := 5000, received := 0 } }).bt.update.map (·.received)) = some 4096 := by
  decide +kernel

theorem wit_Mailbox :
    let s := act.setFld F.MG_CFG.MBOX_EN 1
    Writable s 0x38 0 .host ∧ (s.fld F.MG_CFG.MBOX_EN ≠ 0 ∧ s.fld F.MG_STATUS.MBOX_BUSY ≠ 1 ∧ s.fld F.MG_STATUS.RSP_READY ≠ 1) ∧
      (aft (.send .host 8192) s).hl.hrd.length = 128 ∧
      (aft (.send .host 8193) s).fld (F.PG_STATUS.WRITE_REJECT 0x38) = 1 ∧
      (aft (.mboxAck .host) (s.setFld F.MG_STATUS.RSP_READY 1)).fld F.MG_STATUS.RSP_READY = 0 := by
  unfold Writable; decide +kernel

/-! ## Errors, trace, stop, registers -/

/-- A red error, detected 5 µs ago. -/
def redErr : ErrRec := { time := 999995000, code := 0x2102, sev := 2, inst := 3 }

theorem wit_ErrorRing :
    let s : State := { act with er.collector := [redErr] }
    let b : State := { act with er.collector := [{ redErr with sev := 3 }] }
    let g : ErrRec := { redErr with sev := 0 }
    let c : State := { act.setFld F.ERR_HEAD.SEQ 1 with er.collector := [g], er.ring := [(0, { g with repeated := 255 })] }
    let t := aft .errorRecord s
    firstRec s.er.collector = some redErr ∧ redErr.time + 2000 ≤ s.tm.now ∧ s.coalesces redErr = false ∧ s.st.held = [] ∧
      s.fld F.ERR_HEAD.SEQ < 2 ^ 32 - 1 ∧ t.fld F.ERR_HEAD.SEQ = 1 ∧ (look {} t.er.ring 0).code = 0x2102 ∧ t.er.collector = [] ∧
      b.stopState = 0 ∧ b.rs.run = none ∧ b.er.black = none ∧ (aft .errorRecord b).stopState = 1 ∧
      firstRec c.er.collector = some g ∧ c.fld F.ERR_CFG.COALESCE = 1 ∧ 1 ≤ c.fld F.ERR_HEAD.SEQ ∧
      (look {} (aft .errorRecord c).er.ring 0).repeated = 255 ∧ (aft .errorRecord c).cnt C.ERR_CNT_COALESCED = 1 := by
  decide +kernel

theorem wit_BlackActions :
    let s (code : Nat) : State := { act with er.black := some { code := code, sev := 3, time := 999000000 } }
    let h : State := { act with er.hold := true, er.coolSince := some 900000000 }
    (s 0x2104).er.hold = false ∧ 999000000 + 200000 ≤ act.tm.now ∧ minimalCode 0x2104 = true ∧ overheatCode 0x0903 = true ∧
      (s 0x0903).inBlackWindow { code := 0x0903 } = false ∧ minimalCode 0x0801 = false ∧ overheatCode 0x0801 = false ∧
      (aft .blackAction (s 0x0903)).er.hold = true ∧ (aft .blackAction (s 0x0801)).tm.power = .resetting ∧
      900000000 + 100000000 ≤ h.tm.now ∧ h.rs.run = none ∧ (aft .thermalHoldEnd h).tm.power = .resetting := by
  decide +kernel

theorem wit_ErrorRegistersAndPartFaults :
    let s := act.setFld (F.PG_ERR_FIRST.VALID 0x21) 1 3
    Writable s 0x40 0 .host ∧ s.lcState ≠ 4 ∧ (aft (.errInject .host 0x22102) s).er.collector.length = 1 ∧
      (aft (.errInject .host 0x32102) s).er.collector = [] ∧
      pageExists 0x21 3 = true ∧ Writable s 0x21 3 .host ∧
      (aft (.pgErrFirstClear .host 0x21 3) s).fld (F.PG_ERR_FIRST.VALID 0x21) 3 = 0 ∧
      s.mm.diesLost.contains 2 = false ∧ (aft (.portDieLost 2) s).mm.diesLost = [2] ∧
      (s.cluster 9).removed = false ∧ ((aft (.clusterFault 9) s).cluster 9).removed = true := by
  unfold Writable; decide +kernel

/-- A trace buffer of one granule, with only MARK unmasked; the engine enabled. -/
def trcOff : State := (act.setFld F.TRC_COUNT.N 1).setFld F.TRC_TYPES.MASK 0x8000
def trcOn : State := { (trcOff.setFld F.TRC_CFG.ENABLE 1).setFld F.TRC_CFG.WRAP 1 with tr.window := 100000 }

theorem wit_TraceBuffer_mark :
    Writable trcOn 0x41 0 .host ∧ bit (trcOn.fld F.TRC_TYPES.MASK) 15 = true ∧ trcOn.fld F.TRC_TRIG.TYPE = 0 ∧
      trcOn.tr.owedDrop = 0 ∧ 1 ≤ trcOn.fld F.TRC_COUNT.N ∧ trcOn.cnt C.TRC_WR = 0 ∧ trcOn.fld F.TRC_CFG.WRAP ≠ 0 ∧
      (aft (.mark .host 0xABCD) trcOn).devRead 20 2 = [0xCD, 0xAB] ∧ (aft (.mark .host 0xABCD) trcOn).cnt C.TRC_WR = 32 := by
  unfold Writable; decide +kernel

theorem wit_TraceBuffer_budget : trcOn.tr.used + 32 ≤ trcOn.traceBudget := by decide +kernel

theorem wit_TraceBuffer :
    let o : State := { trcOff with mm.owners := [(0, 0xFFFF)] }
    let p := (trcOff.setFld F.TRC_CFG.ENABLE 1).setFld F.TRC_SAMPLE.US 1
    let w : State := { trcOn with tm.now := 1000010000 }
    o.traceBufferOk = true ∧ (aft (.trcCfgEnable .host 1) o).fld F.TRC_CFG.ENABLE = 1 ∧ trcOff.traceBufferOk = false ∧
      (aft (.trcCfgEnable .host 1) trcOff).fld (F.PG_STATUS.WRITE_REJECT 0x41) = 1 ∧
      (aft (.trcCfgEnable .host 0) trcOn).fld F.TRC_CFG.ENABLE = 0 ∧ p.sampleDue = true ∧
      w.tr.window < w.tm.now / 10000 ∧
      (aft .throttleWindow w).tr.window = 100001 := by
  refine ⟨?_, ?_, ?_, ?_, ?_, ?_, ?_, ?_⟩ <;> decide +kernel

theorem wit_GlobalStop :
    let s := aft (.go .host) act
    let n (d : Nat) (s : State) : State := { s with tm.now := s.tm.now + d }
    let all : State := { n 1810 s with st.halted := allDomains.map (fun d => (d, 1000001000)) }
    let h := aft .halted all
    let c : State := h.setFld F.STOP_STATUS.STATE 3
    let r := aft (.stopRelease .host) c
    let z : State := { n 1810 r with st.resumed := allDomains }
    Writable act 0x43 0 .host ∧ act.stopState = 0 ∧ act.rs.run = none ∧ s.stopState = 1 ∧ s.st.cut = 1000001000 ∧
      (aft (.go .host) s).fld F.STOP_STATUS.REFUSED = 1 ∧
      (aft .debugInstruction { act with bt.fuses.lc := [⟨3, true⟩] }).stopState = 1 ∧ (aft .debugInstruction act).stopState = 0 ∧
      s.fld F.TRC_TRIG.STOP = 0 ∧ (n 1000 s).domHaltedOnce 314 = false ∧ s.st.resumed = [] ∧
      (aft (.domainHalt 314) (n 1000 s)).domHalted 314 = true ∧ (aft (.domainHalt 314) (n 999 s)).domHalted 314 = false ∧
      allDomains.all all.domHaltedOnce = true ∧ h.stopState = 2 ∧ Writable c 0x43 0 .host ∧ c.st.held = [] ∧ r.stopState = 4 ∧
      (n 1000 r).domHaltedOnce 0 = true ∧ (aft (.domainResume 0) (n 1000 r)).domHalted 0 = false ∧
      allDomains.all (fun d => z.st.resumed.contains d) = true ∧ z.cnt C.STOP_TARGET + 810 ≤ z.tm.now ∧
      (aft .released z).stopState = 0 ∧ (aft .released z).cnt C.STOP_CNT_NS = r.cnt C.STOP_TARGET - s.st.cut := by
  unfold Writable; decide +kernel

theorem wit_WaitForReports :
    let s := aft (.wfgGo .host) act
    let e : State := act.setFld F.WFG_STATUS.BUSY 1
    act.fld F.WFG_STATUS.BUSY = 0 ∧ Writable act 0x43 0 .host ∧ act.stopState ≠ 3 ∧ s.fld F.WFG_STATUS.BUSY = 1 ∧
      s.st.wfgAt = some 1000000000 ∧ s.domHalted 312 = false ∧
      Writable (act.setFld F.STOP_STATUS.STATE 3) 0x43 0 .host ∧ (act.setFld F.STOP_STATUS.STATE 3).stopState = 3 ∧
      e.st.wfgAt = none ∧ e.hl.hwr.any (fun h => h.what == HwrFor.report) = false ∧
      (aft .wfgDone e).fld F.WFG_STATUS.DONE = 1 := by
  unfold Writable; decide +kernel

/-- A live field, a static one of a busy and of an idle block, and a boundary-shadowed one of a busy block. -/
theorem wit_RegisterWrites :
    let l := F.HL_STALL_WATCH.MS
    let w := F.TRC_BASE.BASE
    let b := F.HL_CFG.PUSH_EN
    let s := act.setFld F.TRC_CFG.ENABLE 1
    let go (f : Field) (v : W32) (s : State) := aft (.registerWrite .host (regAddr f.cls 0 f.off) v) s
    (∀ f ∈ [l, w, b], f ∈ fieldsAt f.cls f.off ∧ fieldsAt f.cls f.off = [f] ∧ 0x100 ≤ f.off ∧ f.off < 0x400 ∧ f.off % 4 = 0 ∧
      cntHere f.cls (f.off / 8 * 8) = false ∧ pageExists f.cls 0 = true ∧ Writable s f.cls 0 .host ∧
      ∀ (u : State) (v : W32), (u.startsOp .host f.cls 0 f.off v.toNat).isNone = true) ∧
      l.acc = .rwl ∧ w.acc = .rws ∧ b.acc = .rwb ∧ (go l 7 act).fld l = 7 ∧ (go w 7 act).fld w = 7 ∧ (go w 7 s).fld w = 0 ∧
      (go w 7 s).fld (F.PG_STATUS.WRITE_REJECT 0x41) = 1 ∧ (go b 0 up0).fld b = 1 ∧ (go b 0 up0).fldShown b = 0 ∧
      (go b 0 act).fld b = 0 := by
  intro l w b s go
  refine ⟨?_, by decide +kernel⟩
  intro f hf
  simp only [List.mem_cons, List.not_mem_nil, or_false] at hf
  unfold Writable
  rcases hf with rfl | rfl | rfl
  · exact ⟨by decide +kernel, by decide +kernel, by decide, by decide, by decide, by decide +kernel, by decide +kernel,
      by decide +kernel, fun _ _ => rfl⟩
  · exact ⟨by decide +kernel, by decide +kernel, by decide, by decide, by decide, by decide +kernel, by decide +kernel,
      by decide +kernel, fun _ _ => rfl⟩
  · exact ⟨by decide +kernel, by decide +kernel, by decide, by decide, by decide, by decide +kernel, by decide +kernel,
      by decide +kernel, fun _ _ => rfl⟩

theorem wit_HeaderOperations :
    let s := aft (.take .mgmt 0x31 0) act
    let b := aft (.registerWrite .host (regAddr 0x31 0 0x100) 0) up0
    pageExists 0x31 0 = true ∧ Writable act 0x31 0 .host ∧ act.pagePowered 0x31 0 = true ∧ act.accessWaits 0x31 0 .host = false ∧
      (aft (.snap .host 0x31 0) (act.addSlot 0x31 0 11 9)).rg.snaps = [(slotKey 0x31 0 11, 9)] ∧
      look 0 b.rg.held (fieldKey F.HL_CFG.PUSH_EN 0 0) = 1 ∧ (aft (.pgApply .host 0x31 0) b).fld F.HL_CFG.PUSH_EN = 0 ∧
      s.fld (F.PG_LOCK.HOLDER 0x31) = 2 ∧ (aft (.take .host 0x31 0) s).fld (F.PG_LOCK.HOLDER 0x31) = 2 ∧
      (aft (.give .host 0x31 0) s).fld (F.PG_LOCK.HOLDER 0x31) = 2 ∧ (aft (.give .firmware 0x31 0) s).fld (F.PG_LOCK.HOLDER 0x31) = 0 ∧
      act.pagePowered 0x43 0 = true ∧ (aft (.stopCapData .host) act).fld F.STOP_CAP_ADDR.OFFSET = 8 ∧
      act.pagePowered 0x11 255 = true ∧ act.accessWaits 0x11 255 .host = false ∧
      (aft (.seqStatus .host 255) (act.setFld F.SEQ_STATUS.FENCED 1 255)).fld F.SEQ_STATUS.FENCED 255 = 0 := by
  unfold Writable; decide +kernel

theorem wit_CoreAndClusterLosses :
    let o := aft (.coreFault 45 2 23) act
    let a := act.setCoreFld F.CORE_CFG.PLACE 45 0
    let t := aft (.coreTestStart .host 45) a
    act.runs 1 = true ∧ (act.core 45).out = false ∧ (act.cluster 1).removed = false ∧ o.coreFld F.CORE_FAULT.CAUSE 45 = 2 ∧
      o.coreFld F.CORE_FAULT.WELL 45 = 23 ∧ o.coreRuns 45 = false ∧ Writable act 0x11 1 .host ∧
      ((a.core 45).place = none ∧ a.coreFld F.CORE_CFG.PLACE 45 ≠ 1 ∧ a.coreFld F.CORE_STATUS.TESTING 45 ≠ 1) ∧
      t.coreFld F.CORE_STATUS.TESTING 45 ≠ 0 ∧ (aft (.coreTestStart .host 45) t).fld (F.PG_STATUS.WRITE_REJECT 0x11) 1 = 1 ∧
      (aft (.selfTestDone 45 true 0) t).coreFld F.CORE_TEST.PASS 45 = 1 ∧
      (aft (.selfTestDone 45 false 6) t).coreFld F.CORE_STATUS.OFFLINE 45 = 1 ∧
      act.fld F.CD_STATUS.REMOVED 15 ≠ 1 ∧ ((aft (.dieLost 15) act).cluster 255).removed = true ∧
      ((aft (.clusterStoreUe 7 0 0) act).cluster 7).removed = false ∧
      ((aft (.clusterStoreUe 7 0 0) (aft (.clusterStoreUe 7 0 0) act)).cluster 7).removed = true := by
  unfold Writable; decide +kernel

/-! ## Tiling, scheduling, memory -/

/-- A RUN of context 3 with one layer on counter 7. -/
def runCmd : Cmd := { q := 2, seq := 5, ctx := 3, kind := .run, rec_ := List.replicate 64 0, stage := .running, begun := true,
                      layers := [{ ord := 0, plan := 0, n := 1, k := 1, counter := 7, started := true }] }
def lay : SeqLayer := { q := 2, seq := 5, layer := 0, counter := 7, n := 1, cores := [85] }
/-- Its layer is on cluster 2, core 85. -/
def placed (l : SeqLayer) (x : Counter := {}) (k : Core := {}) : State :=
  (({ act with cq.cmds := [runCmd] } : State).setCluster 2 { layers := [l] }).setCounter 7 x |>.setCore 85
    { k with place := some { q := 2, seq := 5, layer := 0, counter := 7, item := k.place.bind (·.item) } }

theorem wit_DispatchAndPlacement :
    let s := placed lay
    let e := act.setFld F.SCHED_CFG.ENABLE 1
    s.seqLayer? 2 2 5 0 = some lay ∧ s.cmd? 2 5 = some runCmd ∧ (runCmd.layers.find? (fun x => x.ord == 0)).isSome = true ∧
      lay.dispatched = false ∧ s.runs 2 = true ∧ (s.clk 2).awake ≤ s.tm.now ∧ lay.job = none ∧ lay.ahead = [] ∧ lay.exhausted = false ∧
      (aft (.dispatchMessage 2 2 5 0) s).seqLayer? 2 2 5 0 = some { lay with dispatched := true } ∧
      e.runs 313 = true ∧ e.fld F.SCHED_CFG.ENABLE = 1 ∧ (e.cluster 2).layers.length ≤ 4 := by
  decide +kernel

theorem wit_ClaimsAndItems :
    let s := placed lay { limit := 2 }
    let r : State := { placed lay { limit := 2, next := 2, rq := 1 } with
      tl.fences := [{ pdie := 0, q := 2, seq := 5, counter := 7, job := 1, mask := 1, gen := 4, reclaim := true }] }
    let i := placed { lay with dispatched := true, job := some { job := 0, mask := 1, gen := 0 } } { limit := 1, next := 1 }
      { place := some { q := 2, seq := 5, layer := 0, counter := 7, item := some 0 } }
    (s.cluster 2).layers.find? (fun l => l.counter == 7 && s.mayClaim 2 l) = some lay ∧ s.runs 2 = true ∧
      (aft (.claim 2 7) s).counter 7 = { limit := 2, next := 1 } ∧
      (aft (.claim 2 7) s).seqLayer? 2 2 5 0 = some { lay with ahead := [{ job := 0, mask := 1, gen := 0 }] } ∧
      (aft (.claim 2 7) (placed lay { limit := 2, next := 2 })).seqLayer? 2 2 5 0 = some { lay with exhausted := true } ∧
      (aft (.claim 2 7) r).seqLayer? 2 2 5 0 = some { lay with ahead := [{ job := 1, mask := 1, gen := 4 }] } ∧
      (i.core 85).place.bind (·.item) = some 0 ∧ i.itemDone 85 0 = true := by
  decide +kernel

theorem wit_TrafficArrives :
    let u : Traffic := { q := 2, seq := 5, cl := 2, counter := 7, job := 0, item := 0, gen := 1 }
    let g : Traffic := { u with gauge := some (20000, 9) }
    let s : State := { (placed lay { limit := 1, next := 1 }) with tl.traffic := [u, g] }
    let f : State := { s with tl.fences := [{ pdie := 0, q := 2, seq := 5, counter := 7, job := 0, mask := 1, gen := 2, reclaim := false }] }
    s.tl.traffic.find? (fun t => t.gauge.isNone && t.cl == 2 && t.counter == 7 && t.job == 0 && t.item == 0 && t.gen == 1) = some u ∧
      s.runs 272 = true ∧ s.stale u = false ∧ f.stale u = true ∧ (aft (.doneIncrement 2 7 0 0 1) s).counter 7 = { limit := 1, next := 1, done := 1 } ∧
      (aft (.doneIncrement 2 7 0 0 1) f).fld F.SEQ_STATUS.FENCED 2 = 1 ∧
      s.runs 273 = true ∧ (s.gauge 20000).gen ≤ 1 ∧ (aft (.gaugeAdvance 20000 9 1 7 0 0) s).gauge 20000 = { value := 9, gen := 1 } ∧
      (aft (.gaugeAdvance 20000 9 1 7 0 0) f).gauge 20000 = {} ∧
      (aft (.gaugeAdvance 20000 9 1 7 0 0) { s with tl.gauges := [(20000, { value := 3, gen := 2 })] }).gauge 20000 = { value := 3, gen := 2 } := by
  decide +kernel

theorem wit_Contexts :
    let s := aft (.create .host) (act.setFld F.SCHED_CTX_SEL.CONTEXT 3)
    let q := s.setQueue 2 { enabled := true, desc := qdesc }
    let c : State := { s with cq.cmds := [runCmd] }
    Writable act 0x01 0 .host ∧ (s.ctx 3).exist = true ∧ (aft (.create .host) s).fld F.SCHED_CTX_OP.RESULT = 2 ∧
      (aft (.destroy .host) act).fld F.SCHED_CTX_OP.RESULT = 3 ∧ (aft (.destroy .host) q).fld F.SCHED_CTX_OP.RESULT = 1 ∧
      (aft (.destroy .host) c).fld F.SCHED_CTX_OP.RESULT = 1 ∧ s.cmdsOf 3 = [] ∧
      (aft (.destroy .host) { s with mm.owners := [(5, 3), (6, 4)] }).mm.owners = [(6, 4)] := by
  unfold Writable; decide +kernel

theorem wit_SlicesAndReleases :
    let x : Ctx := { exist := true, st := .running, slot := some 0, sliceLen := 1000 }
    let s : State := { act.setCtx 3 x with cq.cmds := [runCmd] }
    let w : State := { s.setCtx 4 { exist := true, st := .ready, slot := some 1 } with sc.unplaced := [4] }
    let p := w.setFld F.SCHED_POOL_COUNT.N 1
    let y := s.setCtx 3 { x with st := .yielding }
    let k := placed lay {} { ended := true }
    let r : SavedCore := { q := 2, seq := 5, cluster := 2, position := 0, point := 0, layer := 0, place := { q := 2, seq := 5, layer := 0, counter := 7 },
                           mask := 0, wells := [], csAddr := 0, csLen := 0, bytes := [], queue := [] }
    let v := placed lay {} { saving := some r }
    s.runs 313 = true ∧ (s.ctx 3).sliceStart + (s.ctx 3).sliceLen ≤ s.tm.now ∧ s.othersWait 3 = false ∧ s.outWaits = false ∧
      ((aft (.sliceEnd 3) s).ctx 3).sliceStart = 1000000000 ∧ w.othersWait 3 = true ∧ w.poolFree < w.worstSave 3 ∧
      (aft (.sliceEnd 3) w).fld F.SCHED_INT_STATUS.POOL_SHORT = 1 ∧ p.worstSave 3 ≤ p.poolFree ∧
      ((aft (.sliceEnd 3) p).ctx 3).st = .yielding ∧
      0 + Nat.max 1 (y.fld F.SCHED_GRACE.US) * 1000 ≤ y.tm.now ∧ ((aft (.sliceOverrun 3) y).ctx 3).overran = true ∧
      k.coreCtx 85 = some 3 ∧ k.runs 2 = true ∧ (k.core 85).ended = true ∧ ((aft (.coreRelease 85) k).core 85).place = none ∧
      (v.core 85).saving = some r ∧ (aft (.coreRelease 85) v).cnt C.SCHED_CNT_YIELDS = 1 := by
  decide +kernel

theorem wit_Swaps :
    let full : State := (List.range 64).foldl (fun s n => s.setCtx (n + 1) { exist := true, st := .blocked, slot := some n, blockedSince := 100 - n }) act
    let s := full.setCtx 4095 { exist := true, st := .outReady }
    let o := (act.setCtx 7 { exist := true, st := .outReady, waitSince := 5 }).setCtx 9 { exist := true, st := .outReady, waitSince := 4 }
    let v := act.setCtx 7 { exist := true, st := .saving, slot := some 3 }
    let l := act.setCtx 7 { exist := true, st := .loading, slot := some 3, clRecs := [(2, { owner := some (2, 5), store := [(1, 9)] })] }
    s.runs 313 = true ∧ s.freeSlot = none ∧ s.sc.ctxs.any (fun c => c.2.st == .outReady) = true ∧
      longest ((s.sc.ctxs.filter (fun c => c.2.slot.isSome && c.2.st == .blocked)).map (fun c => (c.1, c.2.blockedSince))) = some 64 ∧
      ((aft .swapOut s).ctx 64).st = .saving ∧ ((aft (.saveComplete 7) v).ctx 7).slot = none ∧
      o.freeSlot = some 0 ∧ ((aft .swapIn o).ctx 9).st = .loading ∧
      (l.ctx 7).clRecs.any (fun r => r.2.owner.isSome && (l.cluster r.1).owner.isSome) = false ∧
      ((aft (.restoreComplete 7) l).cluster 2).store = [(1, 9)] := by
  decide +kernel

theorem wit_Swaps_records : ([(2, ({} : Cluster))] : List (Nat × Cluster)).Pairwise (fun a b => a.1 ≠ b.1) := by simp

theorem wit_MemoryErrors :
    let t := aft (.hbmUe 3 0) act
    let u := aft (.hbmUe 3 0x100000) t
    (act.stack 3).offline = false ∧ (t.stack 3).retired = [] ∧ t.cnt C.HBMC_CNT_UE 3 = 1 ∧ t.fld F.HBMC_FAULT.KIND 3 = 1 ∧
      pcOf (3 * 2 ^ 36 + 0x100000) = pcOf (3 * 2 ^ 36) ∧ (u.stack 3).retired = [0] ∧ u.fld F.HBMC_STATUS.RETIRED 3 = 1 ∧
      act.fld F.PDIE_SYS.SIZE 3 * 65536 ≤ 100663295 ∧ act.rs.run = none ∧ act.st.held = [] ∧
      (∃ e ∈ (aft (.cacheUe 3 100663295) act).er.collector, e.code = 0x2002) := by
  decide +kernel

theorem wit_UnitReads :
    let r : UnitRead := { pc := 0, addr := 0x1000, core := 45, dest := 32, len := 4 }
    let s : State := ({ act with mm.dev := [(0x1000, 7)] } : State).setStack 0 { reads := [r] }
    let h : State := { s with hl.filter := [{ line := 64, modified := true }] }
    s.retraining 0 0 = false ∧ (s.stack 0).offline = false ∧ (s.stack 0).reads.find? (fun r => r.pc = 0) = some r ∧
      s.readable r.addr r.len = true ∧ s.poisoned r.addr r.len = false ∧
      rdBytes ((aft (.unitRelease 0 0) s).core 45).store 32 2 = [7, 0] ∧ h.readable r.addr r.len = false ∧
      (aft (.unitRelease 0 0) h).hl.recalls.any (fun x => x.line == 64) = true := by
  decide +kernel

theorem wit_StackMaintenance :
    let s : State := { act with tm.now := 32000000 + 31 * 1000000 + 11 * 80000 }
    let t := aft (.retrain 11 31) s
    let e : State := { t with tm.now := t.tm.now + 1000 }
    let c (n : Byte) := aft (.temperatureRead 11 n) act
    let i : State := { c 95 with tm.now := 3900 }
    s.tm.now % 32000000 = 31 * 1000000 + 11 * 80000 ∧ s.fld F.HBMC_STATUS.RETRAINING 11 = 0 ∧ t.fld F.HBMC_STATUS.RETRAIN_CH 11 = 31 ∧
      (e.stack 11).retrainFrom = some s.tm.now ∧ (e.stack 11).retired = [] ∧ e.fld F.HBMC_STATUS.RETRAIN_CH 11 < 32 ∧
      (aft (.retrainEnd 11 true true) e).cnt C.HBMC_CNT_RETRAIN 11 = 1 ∧ ((aft (.retrainEnd 11 false true) e).stack 11).retired = [62] ∧
      ((c 75).stack 11).tempStep = 1 ∧ ((c 74).stack 11).tempStep = 0 ∧ ((c 95).stack 11).tempStep = 3 ∧
      (c 105).er.thermN = false ∧ (c 104).er.thermN = true ∧
      (let step := Nat.max (i.stack 11).tempStep (i.fld F.HBMC_REF_CFG.MIN_STEP 11)
       i.tm.now % 3900 = 0 ∧ step < 4 ∧ step ≠ (i.stack 11).stepInForce) ∧
      ((aft (.refreshInterval 11) i).stack 11).stepInForce = 3 := by
  decide +kernel

/-- An operation of an ownership page: its code, first granule, count and context. -/
def ownReq (p : OwnPage) (op first n ctx : Nat) (s : State) : State :=
  (((s.setFld (F.OWN_OP.OP (ownCls p)) op (ownInst p)).setFld (F.OWN_FIRST.GRANULE (ownCls p)) first (ownInst p)).setFld
    (F.OWN_COUNT.N (ownCls p)) n (ownInst p)).setFld (F.OWN_CTX.CONTEXT (ownCls p)) ctx (ownInst p)

theorem wit_Grants :
    let p : OwnPage := .stack 3
    let k := 3 * 65536
    let s := ownReq p 1 5 2 9 act
    let z : State := { s with mm.prevOwners := [(k + 5, 8)] }
    let go (s : State) := aft (.grant .host p) s
    Writable s (ownCls p) (ownInst p) .host ∧ s.fld (F.OWN_OP.OP (ownCls p)) (ownInst p) = 1 ∧
      ownKeys p (s.ownFirst p) (s.ownN p) = [k + 5, k + 6] ∧ s.ownBad p 2 = false ∧ s.mustZero p 5 2 9 = [] ∧
      (go s).ownerOf (k + 6) = 9 ∧ (go s).ownerOf (k + 7) = 0xFFFE ∧
      (ownReq p 1 32255 2 9 act).ownBad p 2 = true ∧ (go (ownReq p 1 32255 2 9 act)).fld (F.OWN_STATUS.RESULT 0x21) 3 = 1 ∧
      (go (go s)).fld (F.OWN_STATUS.RESULT 0x21) 3 = 2 ∧ z.mustZero p 5 2 9 ≠ [] ∧
      (go z).fld (F.OWN_STATUS.ZEROING 0x21) 3 = 1 := by
  unfold Writable; decide +kernel

theorem wit_ZeroingAndRevokes :
    let p : OwnPage := .stack 3
    let k := 3 * 65536
    let g : Granting := { page := 3, first := 5, count := 1, ctx := 9 }
    let z : State := { act with mm.granting := [g], mm.prevOwners := [(k + 5, 8)], mm.dev := [(3 * 2 ^ 36 + 5 * 2 ^ 21, 7), (3 * 2 ^ 36 + 6 * 2 ^ 21, 7)] }
    let r (o : Nat) : State := { ownReq p 2 5 1 9 act with mm.owners := [(k + 5, o)] }
    let q : State := { ownReq p 3 5 1 0 act with mm.owners := [(k + 5, 8)] }
    let e : State := { act with mm.revokes := [g], mm.owners := [(k + 5, 9)] }
    z.mm.granting.find? (fun g => g.page == 3) = some g ∧ z.mustZero p 5 1 9 = [5] ∧ z.heldIn p [5] = [] ∧
      (aft (.zeroDone p) z).mm.dev = [(3 * 2 ^ 36 + 6 * 2 ^ 21, 7)] ∧ (aft (.zeroDone p) z).ownerOf (k + 5) = 9 ∧
      Writable (r 9) (ownCls p) (ownInst p) .host ∧ (r 9).ownBad p 1 = false ∧ (r 9).inUse [k + 5] = false ∧
      (aft (.revoke .host p) (r 9)).ownerOf (k + 5) = 0xFFFE ∧
      (aft (.revoke .host p) (r 8)).fld (F.OWN_STATUS.RESULT 0x21) 3 = 3 ∧
      Writable q (ownCls p) (ownInst p) .host ∧ q.ownerOf (ownKey p (q.ownFirst p)) = 8 ∧ (aft (.query .host p) q).ownCtx p = 8 ∧
      e.inUse (ownKeys p 5 1) = false ∧ (aft (.revokeEffect p) e).mm.revokes = [] ∧ (aft (.revokeEffect p) e).ownerOf (k + 5) = 0xFFFE := by
  unfold Writable; decide +kernel

/-! ## Commands -/

/-- A record of a class with more fields, and a tensor descriptor of 16 bytes in a home. -/
def rec_ (cls : Nat) (more : List (Nat × Nat × Nat)) : List Byte := layout 64 ((0, 1, cls) :: (0xC, 4, 77) :: more)
def desc16 (home addr : Nat) : List Byte :=
  layout 64 [(0, 1, 13), (1, 1, home * 4), (8, 8, addr), (0x10, 3, 16), (0x1C, 3, 16)]

/-- A command in hand of queue 2, whose context 3 is resident. -/
def hand (k : Kind) (r : List Byte) (c : Cmd → Cmd := id) (s : State := oneQueue 6) : State :=
  { s.setCtx 3 { exist := true, slot := some 0, st := .ready } with
    cq.cmds := [c { q := 2, seq := 5, ctx := 3, kind := k, rec_ := r, journalled := true }] }

theorem wit_QueueOperations :
    let s := ((up0.setFld F.Q_SEL.QUEUE 2).setCtx 3 { exist := true }).setQueue 2 { position := some (5, 5) }
    let host := (List.range 64).map (fun i => (128 + i, qdesc.getD i 0))
    let e := aft (.enable .host host) s
    let n := oneQueue.setFld F.Q_SEL.QUEUE 2
    Writable s 0x03 0 .host ∧ s.fld F.Q_SEL.QUEUE = 2 ∧ e.fld F.Q_OP.RESULT = 0 ∧ (e.queue 2).enabled = true ∧
      (e.queue 2).ctx = 3 ∧ (aft (.enable .host host) e).fld F.Q_OP.RESULT = 4 ∧
      (aft (.enable .host host) (up0.setFld F.Q_SEL.QUEUE 2)).fld F.Q_OP.RESULT = 2 ∧
      (aft (.enable .host ((128, 1) :: host.tail)) s).fld F.Q_OP.RESULT = 1 ∧
      (n.queue 2).enabled = true ∧ ((aft (.disable .host) n).queue 2).enabled = false ∧
      (aft (.resetSeq .host) n).fld F.Q_OP.RESULT = 4 ∧
      ((aft (.resetSeq .host) (aft (.disable .host) n)).queue 2).position = none := by
  unfold Writable; decide +kernel

theorem wit_Acceptance :
    let r := rec_ 5 []
    let s : State := { oneQueue 6 [(5, r)] with cq.arrivals := [(2, 6)] }
    let b : State := { oneQueue 6 [(5, rec_ 5 [(0x10, 1, 1)])] with cq.arrivals := [(2, 6)] }
    let t := aft (.barrier 2) s
    s.engineRuns = true ∧ s.takesFrom 2 = true ∧ s.nextRecord 2 = some r ∧ recKind r = some .barrier ∧
      s.refusal (s.queue 2).ctx r = none ∧ (t.queue 2).position = some (5, 6) ∧ t.cq.cmds.length = 1 ∧
      (∃ h ∈ t.hl.hwr, h.what = .journal 2 5 ∧ h.addr = 0x30000 + 16 * 5) ∧
      b.refusal (b.queue 2).ctx (rec_ 5 [(0x10, 1, 1)]) = some { code := 0x40 } ∧
      ((aft (.barrier 2) b).queue 2).done.map (·.status) = [0x40] ∧ (aft (.run 2) s).cq.cmds = [] := by
  decide +kernel

/-- A move of the 16 bytes at 0x8000 to the tensor whose descriptor is at 0x2000. -/
def moveRec : List Byte := rec_ 3 [(0x18, 8, 0x1000), (0x20, 8, 0x2000)]
def moveMem : Mem := wrBytes (wrBytes (wrBytes [] 0x1000 (desc16 0 0x8000)) 0x2000 (desc16 0 0x9000)) 0x8000 (toLE 16 0x1122)

theorem wit_CommandStarts :
    let f := hand .barrier (rec_ 5 [(1, 1, 2), (2, 2, 0x8003)])
    let b := hand .barrier (rec_ 5 [])
    let c : Cmd := { q := 2, seq := 5, ctx := 3, kind := .barrier, rec_ := rec_ 5 [], journalled := true }
    f.startHold { c with rec_ := rec_ 5 [(1, 1, 2), (2, 2, 0x8003)] } = some .fence ∧ b.cmd? 2 5 = some c ∧ b.queueRuns 2 = true ∧
      c.stage = .waiting ∧ c.wellhead = false ∧ b.resident 3 = true ∧ b.inputsReadable (b.usesOf c.rec_) = true ∧
      b.startHold c = none ∧ recKind c.rec_ = some .barrier ∧
      ((aft (.commandStart 2 5) f).cmd? 2 5).bind (·.hold) = some .fence ∧
      ((aft (.commandStart 2 5) b).cmd? 2 5).map (·.stage) = some .staged := by
  decide +kernel

theorem wit_CommandStarts_move :
    let s : State := { hand .move moveRec with mm.dev := moveMem }
    let src : DescUse := { addr := 0x1000, out := false, store := 0, img := desc16 0 0x8000 }
    let dst : DescUse := { addr := 0x2000, out := true, store := 0x9000, img := desc16 0 0x9000 }
    let t := aft (.commandStart 2 5) s
    s.usesOf moveRec = [src, dst] ∧ s.isLost src = false ∧ (descOf src.img).home < 2 ∧ (descOf src.img).storedLen = 16 ∧
      s.homePoisoned 0 0x8000 16 = false ∧ (descOf src.img).expand (s.homeRead 0 0x8000 16) = some (toLE 16 0x1122) ∧
      s.inputsReadable (s.usesOf moveRec) = true ∧ s.fld F.TRC_CFG.ENABLE = 0 ∧ s.hl.filter = [] ∧ s.hl.recalls = [] ∧
      t.devRead 0x9000 3 = [0x22, 0x11, 0] ∧ (t.cmd? 2 5).map (·.stage) = some .staged := by
  decide +kernel

/-- A reduction of one source, of BYTES-wide INT32 elements, into STAGE. -/
theorem wit_CommandStarts_reduce :
    let d (a : Nat) := layout 64 [(0, 1, 10), (8, 8, a), (0x10, 3, 4), (0x1C, 3, 4)]
    let r := rec_ 4 [(0x10, 1, 1), (0x18, 8, 0x1000), (0x20, 8, 0xA000), (0x28, 8, 0x3000)]
    let u (a x : Nat) : DescUse := { addr := a, out := false, store := 0, img := d x }
    let c : Cmd := { q := 2, seq := 5, ctx := 3, kind := .reduce, rec_ := r, journalled := true, stage := .running, descs := [u 0x1000 0x8000, u 0x2000 0x9000] }
    let s : State := { hand .reduce r (fun _ => c) with mm.dev := wrBytes (wrBytes [] 0x8000 (toLE 4 5)) 0x9000 (toLE 4 6) }
    let t := aft (.reductionDone 2 5) s
    s.cmd? 2 5 = some c ∧ c.inputsHere = true ∧ s.reduceBehind c = false ∧ s.inputsReadable c.descs = true ∧ cisOutputs c.descs = [] ∧
      c.descs.any (fun u => s.homePoisoned u.range.1 u.range.2.1 u.range.2.2) = false ∧
      s.sumOf c (u 0x1000 0x8000) [u 0x2000 0x9000] = some (toLE 16 11) ∧ t.devRead 0xA000 2 = [11, 0] ∧
      (t.cmd? 2 5).map (·.stage) = some .staged := by
  decide +kernel

theorem wit_Publication :
    let r := rec_ 5 []
    let s := hand .barrier r (fun c => { c with stage := .staged })
    let l := s.setFld F.LIN_SIZE.PAGES 1
    let t := aft (.publish 2 5) l
    let d : State := { t with hl.hwr := [] }
    s.runs 313 = true ∧ (s.cmd? 2 5).map (·.stage) = some .staged ∧
      (s.linkUp = true ∧ s.earlierDone { q := 2, seq := 5, ctx := 3, kind := .barrier, rec_ := r } = true ∧ s.fenceMet r = true) ∧
      l.linPlace (recordBytes 0) = some 0 ∧ s.linPlace (recordBytes 0) = none ∧
      (t.cmd? 2 5).map (·.stage) = some .lineage ∧ t.cq.linNext = 2 ∧ (∃ h ∈ t.hl.hwr, h.what = .lineage 1) ∧
      (aft (.publish 2 5) s).fld F.Q_INT_STATUS.LINEAGE_FULL = 1 ∧
      s.cq.cmds.all (fun c => !c.waitsLog) = true ∧
      d.hl.hwr.all (fun h => h.what ≠ .lineage 1) = true ∧ (aft (.descriptorSwap 2 5) d).cmd? 2 5 = none ∧
      (((aft (.descriptorSwap 2 5) d).queue 2).done.map (fun x => (x.seq, x.status, x.tag))) = [(5, 0, 77)] := by
  decide +kernel

/-- Group 4 of context 3, open, of two branches, of which branch 0 lives. -/
def openGroup4 (s : State) : State :=
  { s.setGroup 4 { state := 1, owner := 3, capacity := 2, horizon := 8 } with
    wh.branches := [(branchKey 4 0, { state := 1, block := some 0, score := 0x3F800000 })] }
/-- CLOSE of group 4. -/
def closeRec : List Byte := rec_ 2 [(0x10, 1, 5), (0x11, 1, 4)]

theorem wit_WellheadStarts :
    let c : Cmd := { q := 2, seq := 5, ctx := 3, kind := .close, rec_ := closeRec, journalled := true }
    let s := openGroup4 (hand .close closeRec)
    let x := hand .close closeRec
    let h := (openGroup4 (hand .close closeRec (fun c => { c with hold := some .rederive })))
    let b := s.setGroup 4 { state := 3, owner := 3 }
    s.cmd? 2 5 = some c ∧ c.wellhead = true ∧ s.resident 3 = true ∧ s.whRunning < s.whMax ∧ s.inputsReadable (s.usesOf c.rec_) = true ∧
      s.whStartHold c = none ∧ s.whTest c = none ∧ x.whTest c = some 3 ∧ b.whStartHold c = some .rederive ∧
      ((aft (.whCommandStart 2 5) s).group 4).state = 2 ∧ ((aft (.whCommandStart 2 5) s).cmd? 2 5).map (·.stage) = some .staged ∧
      (((aft (.whCommandStart 2 5) x).queue 2).done.map (·.status)) = [3] ∧
      ((aft (.whCommandStart 2 5) b).cmd? 2 5).bind (·.hold) = some .rederive ∧
      h.holdOver { c with hold := some .rederive } = true ∧ ((aft (.holdResume 2 5) h).cmd? 2 5).bind (·.hold) = none ∧
      ((aft (.rederiveDone 4) b).group 4).state = 1 := by
  decide +kernel

/-- A STEP of group 4, of one step. -/
def stepRec : List Byte := rec_ 2 [(0x10, 1, 2), (0x11, 1, 1), (0x20, 1, 16)]

theorem wit_StepRuns :
    let k := branchKey 4 0
    let h : HeadOut := { group := 4, index := 0, reward := 0x3F800000, value := 7, mean := [], logScale := [], state := [] }
    let w : Cmd := { q := 2, seq := 5, ctx := 3, kind := .step, rec_ := stepRec, journalled := true, stage := .running, begun := true }
    let s := openGroup4 (hand .step stepRec (fun _ => w))
    let c : Cmd := { w with work := { inStep := true, stepped := [k] } }
    let t := aft (.stepClose 2 5 [h]) (openGroup4 (hand .step stepRec (fun _ => c)))
    s.runs 313 = true ∧ s.cmd? 2 5 = some w ∧ s.resident 3 = true ∧ (s.ctx 3).st ≠ .yielding ∧ w.work.step < field stepRec 0x11 1 ∧
      w.inputsHere = true ∧ s.inputsReadable w.descs = true ∧ s.sbFreeList.length < 1 ∧
      ((aft (.stepStart 2 5) s).cmd? 2 5).bind (·.hold) = some .state ∧
      c.layers.all (fun l => l.ended) = true ∧ (headFor [h] k).isSome = true ∧ (s.wbranch c k).block ≠ none ∧ c.work.stepped.Nodup ∧
      (t.cmd? 2 5).map (fun x => x.work.step) = some 1 := by
  decide +kernel

theorem wit_ReferencesAndEdits :
    let u : RefUpd := { obj := .block 3, add := false, n := 1, tag := 6 }
    let s : State := { act with kv.refq := [u], wh.sbCount := [(3, 1)] }
    let h : State := { act with kv.holding := [(6, .page 9)] }
    let e (op : Nat) := act.setFld F.KVP_EDIT_OP.OP op
    let q := (act.setFld F.KVP_EDIT_OP.OP 5).setSeq 0 { valid := true, evict := true, cap := 9 }
    let d : State := { act with kv.deferred := [{ op := 6, branch := false, target := 7, arg0 := 0, arg1 := 0, ctx := 0 }] }
    s.runs 313 = true ∧ (aft .countUpdate s).kv.holding = [(6, .block 3)] ∧
      h.kv.holding.find? (fun x => h.baseEpochs.all (fun b => decide (x.1 ≤ b))) = some (6, .page 9) ∧
      (aft .holdingReturn h).kv.holding = [] ∧ Writable act 0x04 0 .host ∧ (e 6).fld F.KVP_EDIT_OP.OP = 6 ∧
      (aft (.sealTail .host) (e 6)).fld F.KVP_INT_STATUS.EDIT_DONE = 1 ∧ (e 6).editCheck (e 6).editRegs ≠ 0 ∧ q.fld F.KVP_EDIT_OP.OP = 5 ∧
      (d.seq 7).appending = false ∧ (aft (.deferredEdit 7) d).kv.deferred = [] := by
  unfold Writable; decide +kernel

theorem wit_EnablesAndCisterns :
    let s := act.setModule 3 { st := 4, cat := [⟨9, [], 1048576, 4⟩] }
    let e := (act.setFld F.CIS_CFG.ENABLE 1 3)
    let go (op : Nat) := (s.setFld F.CIS_OP.OP op 3)
    let tr := (((go 3).setFld F.CIS_ARG0.VALUE (2 ^ 20) 3).setFld F.CIS_ARG2.BLOCKS 4 3).setCnt C.CIS_CAPACITY (2 ^ 20 + 4) 3
    Writable act 0x04 0 .host ∧ act.fld F.KVP_CFG.PSIZE = bits (7 : W32).toNat 3 1 ∧ Writable act 0x02 0 .host ∧ Writable act 0x22 3 .host ∧
      (aft (.whCfgEnable .host 1) act).fld F.WH_CFG.ENABLE + (aft (.whCfgEnable .host 1) act).fld (F.PG_STATUS.WRITE_REJECT 0x02) = 1 ∧
      (aft (.kvpCfgEnable .host 7) act).fld F.KVP_CFG.ENABLE + (aft (.kvpCfgEnable .host 7) act).fld (F.PG_STATUS.WRITE_REJECT 0x04) = 1 ∧
      act.cisBusy 3 = false ∧ (aft (.cisCfgEnable .host 3 1) act).fld F.CIS_CFG.ENABLE 3 = 1 ∧
      (aft (.cisCfgEnable .host 3 0) e).fld F.CIS_CFG.ENABLE 3 = 0 ∧ (go 1).fld F.CIS_OP_STATUS.BUSY 3 ≠ 1 ∧
      Writable (go 1) 0x22 3 .host ∧ (aft (.format .host 3) (go 1)).fld F.CIS_OP_STATUS.BUSY 3 = 1 ∧
      (aft (.release .host 3) (go 2)).fld F.CIS_OP_STATUS.RESULT 3 = 3 ∧ (aft (.trim .host 3) (go 3)).fld F.CIS_OP_STATUS.RESULT 3 = 3 ∧
      (aft (.trim .host 3) tr).fld F.CIS_OP_STATUS.BUSY 3 = 1 ∧
      (aft (.trim .host 3) (tr.setFld F.CIS_ARG2.BLOCKS 5 3)).fld F.CIS_OP_STATUS.RESULT 3 = 3 ∧
      (aft (.trim .host 3) (act.setFld F.CIS_OP.OP 3 3)).fld F.CIS_OP_STATUS.RESULT 3 = 2 := by
  unfold Writable; decide +kernel

/-! ## The whole block -/

theorem wit_invariants :
    Memory.wf State.reset.mm.dev = true ∧ Memory.wf State.reset.mm.shared = true ∧ State.reset.pending = [] ∧
      State.reset.tick.tm.now = 1 := by decide +kernel

theorem test_idle : step State.reset = .next State.reset.tick := rfl

theorem wit_QueueFirstInFirstOut :
    let s : State := { act with pending := [.swapOut, .sample] }
    (match step s with | .next t => t.pending | _ => []) = [.sample] := by decide +kernel

/-- No row gives bits, so no word spells a command. -/
theorem test_no_word : decodeTableWord 32 5 = none ∧ (act.withFetchWord 32 5).pending = [] := by decide +kernel

/-- A layer whose weights are the tensor at 0x8000 asks for the window; the plan's bytes are zero, so slot 0 is the weight. -/
theorem wit_CommandStarts_window :
    let u : DescUse := { addr := 0x1000, out := false, store := 0, img := desc16 0 0x8000 }
    let c : Cmd := { runCmd with descs := [u], layers := [{ ord := 0, plan := 0x4000, windowBytes := 16, started := true }] }
    let w : WinReq := { q := 2, seq := 5, layer := 0, bytes := 16 }
    let s : State := { act.setFld F.PDIE_WIN_SIZE.SIZE 1 with cq.cmds := [c], mm.window := [w], mm.dev := [(0x8000, 5)] }
    s.mm.window.find? (fun w => !w.granted) = some w ∧ s.cmd? 2 5 = some c ∧ (s.windowUsed + 16).ble s.windowRing = true ∧
      (c.layers.find? (fun l => l.ord == 0)).bind (fun l => s.layerWeights c l (s.imageBaseOf c)) = some u ∧
      s.homeReadable 0 0x8000 16 = true ∧ s.homePoisoned 0 0x8000 16 = false ∧ (descOf u.img).expand (s.inputBytes c u) = some (toLE 16 5) ∧
      (aft .windowGrant s).mm.window.map (·.granted) = [true] := by
  decide +kernel

/-- A REVOKE of the granule of a tensor that an accepted move names is deferred (R312). -/
theorem wit_ZeroingAndRevokes_deferred :
    let s : State := { ownReq (.stack 0) 2 0 1 9 (hand .move moveRec) with mm.dev := moveMem, mm.owners := [(0, 9)] }
    Writable s 0x21 0 .host ∧ s.ownBad (.stack 0) 1 = false ∧ s.inUse [0] = true ∧
      (aft (.revoke .host (.stack 0)) s).fld (F.OWN_STATUS.DEFERRED 0x21) 0 = 1 ∧ (aft (.revoke .host (.stack 0)) s).ownerOf 0 = 9 := by
  unfold Writable; decide +kernel


/-- A core record's bytes (11, table "Core record"): the fields in their places, then the core-store range. -/
theorem test_core_record :
    let r : SavedCore := { q := 2, seq := 5, cluster := 2, position := 3, point := 1, layer := 4,
                           place := { q := 2, seq := 5, layer := 4, counter := 7, item := some 9 },
                           mask := 0, wells := [], csAddr := 1, csLen := 1, bytes := [(32, 7)], queue := [] }
    (r.record 5).take 24 = [2, 0, 3, 1, 4, 0, 0, 0, 9, 0, 0, 0, 5, 0, 0, 0, 0, 0, 0, 0, 1, 0, 1, 0] ∧
      (r.record 5).length = 96 ∧ (r.record 5)[64]? = some 7 := by decide +kernel

/-- A layer state of a cluster record (11, table "Layer state"). -/
theorem test_layer_state :
    ({ q := 3, seq := 8, layer := 1, counter := 6, n := 2, cores := [80, 81], job := some ⟨4, 3, 1, 2⟩ } : SeqLayer).bytes.take 32 =
      [3, 0, 1, 0, 8, 0, 0, 0, 6, 0, 2, 0, 4, 0, 0, 0, 1, 0, 0, 0, 0, 0, 0, 0, 2, 0, 0, 0, 0, 0, 0, 0] := by decide +kernel

/-! ## Clauses met apart -/

/-- A core without an item owes its pumps nothing. -/
theorem idle_of_none {s : State} {c : Nat} (h : (s.core c).place = none) : PumpsIdle s c := by simp [PumpsIdle, h]

theorem wit_PumpsIdle : PumpsIdle (oneWord (.vec { op := .add, a := 0, b := 1, d := 4 }) f12) 5 :=
  idle_of_none (by decide +kernel)

/-- LSCAN40 of two steps (p = 1): A0 = 2, A1 = 3, B0 = 1 and B1 = 5 in channel 0 give A = 6 and B = 3 x 1 + 5 = 8 (R153). -/
theorem wit_VectorConvertScan_chunk :
    let w : VecWord := { op := .lscan40, a := 0, b := 8, c := 16, d := 32, aux := 1 }
    let m : Mem := [(3, 0x40), (66, 0x40), (67, 0x40), (258, 0x80), (259, 0x3F), (322, 0xA0), (323, 0x40)]
    let s := oneWord (.vec w) m
    Starts s 5 4 { w := .vec w } [] ∧ (rdByte (s.core 5).store (w.c * 32 + 160)).getLsbD 0 = false ∧
      (rdByte (s.core 5).store (w.c * 32 + 160)).getLsbD 1 = false ∧
      ((aft (.lscan40 5) s).core 5).w40 1024 = (toW40 false (ofF32 0x40C00000)).1 ∧
      ((aft (.lscan40 5) s).core 5).w40 (1024 + 80) = (toW40 false (ofF32 0x41000000)).1 := by
  unfold Starts; decide +kernel

/-- CVT with RND = 0 keeps the LFSR lanes; BF16 1.0 to FP32 1.0 (R112, R113). -/
theorem test_cvt_lanes :
    let s := act.setCore 5 { queue := [{ w := .vec { op := .cvt, fmtA := 1, fmtD := 0, d := 8 } }], store := [(0, 0x80), (1, 0x3F)], lfsr := [5] }
    ((aft (.cvt 5) s).core 5).f32 256 = 0x3F800000 ∧ ((aft (.cvt 5) s).core 5).lfsr = [5] := by decide +kernel

/-- BF16 stationary by BF16 moving, one element each: 2.0 x 1.5 = 3.0 in column 8 of well 3 where the word names it (R93, R94);
and a LOAD_STAT of quarter 3, whose rows begin at row 8, byte 16. -/
theorem wit_ArrayAndTiles_16 :
    let a : W64 := BitVec.ofNat 64 (1 * 2 ^ 60 + 3 * 2 ^ 55 + 2 ^ 52 + 5 * 2 ^ 47 + 5 * 2 ^ 43 + 2 ^ 30)
    let l : W64 := BitVec.ofNat 64 (2 * 2 ^ 60 + 2 * 2 ^ 40 + 5 * 2 ^ 36 + 3 * 2 ^ 33)
    let s := act.setCore 5 { queue := [{ w := .bits a }], store := [(32, 0xC0), (33, 0x3F)], active := { fmt := 5, cells := [(0, 0x4000)] } }
    let u := oneWord (.bits l) [(8 * 32 + 16, 0x34), (8 * 32 + 17, 0x12)]
    Starts s 5 1 { w := .bits a } [] ∧ class16 (wf a 46 43) = true ∧ wf a 52 52 = 1 ∧ wf a 42 42 = 0 ∧
      ((aft (.array 5) s).core 5).well 3 0 8 = (toW40 false (ofF32 0x40400000)).1 ∧
      ((aft (.array 5) s).core 5).well 3 0 0 = 0 ∧
      Starts u 5 2 { w := .bits l } [] ∧ class16 (wf l 39 36) = true ∧ wf l 34 33 = 3 ∧
      look 0 ((aft (.loadStat 5) u).core 5).shadow.cells 0 = 0x1234 := by
  unfold Starts; decide +kernel

/-- A pass with MX = 1: a moving FP8 row of 1.0 with scale 2^1 by a stationary 1.0 gives 2.0 (R86). -/
theorem wit_ArrayAndTiles_mx :
    let a : W64 := BitVec.ofNat 64 (1 * 2 ^ 60 + 2 * 2 ^ 47 + 2 * 2 ^ 43 + 2 ^ 42 + 2 ^ 30 + 4 * 2 ^ 10)
    let s := act.setCore 5 { queue := [{ w := .bits a }], store := [(32, 0x38), (128, 0x80)], active := { fmt := 2, cells := [(0, 0x38)] } }
    Starts s 5 1 { w := .bits a } [] ∧ wf a 42 42 = 1 ∧
      ((aft (.array 5) s).core 5).well 0 0 0 = (toW40 false (ofF32 0x40000000)).1 := by
  unfold Starts; decide +kernel

/-- A core on the layer of `runCmd` with one word in hand, its context in a state. -/
def placedWord (w : W64) (st : CtxSt) (item : Option Nat := none) (gval : Nat := 0) : State :=
  ((placed { lay with dispatched := true }).setCtx 3 { exist := true, st := st, slot := some 0 }).setCore 85
    { queue := [{ w := .bits w, gval := gval }], store := f12, wells := [(3, 7), (300, 9)], written := 3
      place := some { q := 2, seq := 5, layer := 0, counter := 7, item := item } }

/-- Under yield-pending a YIELD saves the wells of its mask and its range, an unmet WAIT every well written (R425). -/
theorem wit_SequencerWords_yield :
    let y : W64 := BitVec.ofNat 64 (14 * 2 ^ 60 + 1 * 2 ^ 36 + 1 * 2 ^ 24 + 1 * 2 ^ 12)
    let w : W64 := BitVec.ofNat 64 (8 * 2 ^ 60 + 1 * 2 ^ 23)
    let s := placedWord y .yielding
    let u := placedWord w .yielding
    Starts s 85 14 { w := .bits y } [] ∧ s.yieldPending 85 = true ∧
      (((aft (.yieldMark 85) s).core 85).saving.map (fun r => (r.wells, r.bytes, r.point))) = some ([(3, 7)], [(35, 0x40)], 0) ∧
      Starts u 85 8 { w := .bits w } [] ∧ u.yieldPending 85 = true ∧
      u.waitMet { counter := false, index := 0, target := 1, since := 1000000000 } = false ∧
      (((aft (.wait 85) u).core 85).saving.map (fun r => (r.wells, r.csLen, r.point))) = some ([(3, 7), (300, 9)], 3072, 1) := by
  unfold Starts; decide +kernel

/-- MOVE WRITE of one unit to the cluster store, and READ of it; and a WRITE with ADVANCE of a core that is placed (R233). -/
theorem wit_NeighbourMoves_cluster :
    let w : W64 := BitVec.ofNat 64 (5 * 2 ^ 60 + 1 * 2 ^ 58 + 2 * 2 ^ 56 + 3 * 2 ^ 28 + 2 ^ 16)
    let r : W64 := BitVec.ofNat 64 (5 * 2 ^ 60 + 2 * 2 ^ 56 + 4 * 2 ^ 44 + 3 * 2 ^ 28 + 2 ^ 16)
    let v : W64 := BitVec.ofNat 64 (5 * 2 ^ 60 + 1 * 2 ^ 58 + 2 * 2 ^ 56 + 3 * 2 ^ 28 + 2 ^ 16 + 2 ^ 10)
    let s := oneWord (.bits w) f12
    let u : State := (oneWord (.bits r)).setCluster 0 { store := [(97, 9)] }
    let p := placedWord v .running (some 0) 4
    Starts s 5 5 { w := .bits w } [] ∧ wf w 57 56 = 2 ∧ wf w 59 58 = 1 ∧ wf w 10 10 = 0 ∧
      ((aft (.moveWrite 5) s).cluster 0).store = [(98, 0x80), (99, 0x3F), (131, 0x40)] ∧
      Starts u 5 5 { w := .bits r } [] ∧ wf r 59 58 = 0 ∧ ((aft (.moveRead 5) u).core 5).store = [(129, 9)] ∧
      Starts p 85 5 { w := .bits v, gval := 4 } [] ∧ wf v 10 10 = 1 ∧ (p.core 85).place.all (fun x => x.due = [] ∧ x.outs = []) = true ∧
      (aft (.moveWrite 85) p).tl.traffic = [⟨2, 5, 2, 7, 0, 0, 0, some (0, 4)⟩] := by
  unfold Starts; decide +kernel

/-- An atomic of a core on an item that a fence holds back is discarded; of one that none holds back it runs (R272). -/
theorem wit_Atomics_fenced :
    let w : W64 := 0x5800000000000000
    let s := placedWord w .running (some 0)
    let f : State := { s with tl.fences := [{ pdie := 0, q := 2, seq := 5, counter := 7, job := 0, mask := 1, gen := 2, reclaim := false }] }
    Starts s 85 5 { w := .bits w } [] ∧ s.coreFenced 85 = false ∧ leNat (rdBytes (aft (.add32 85) s).mm.shared 0 4) = 0x3F800000 ∧
      Starts f 85 5 { w := .bits w } [] ∧ f.coreFenced 85 = true ∧ (aft (.add32 85) f).mm.shared = [] ∧
      (aft (.add32 85) f).cnt C.PDIE_CNT_FENCED 0 = 1 := by
  unfold Starts; decide +kernel

/-- A mean above the limit steps the common point down, also where the fit is higher (R23, R448). -/
theorem wit_ClocksAndPoints_limit :
    let s : State := { (act.setFld F.PWR_LIMIT.WATTS 1400).setFld F.PWR_STATUS.POINT 9 with pw.limitAt := 999999999 }
    let mean := s.inputMean 2000
    powerLimit (s.fld F.PWR_LIMIT.WATTS) < mean ∧ s.fitWithin mean 26 < 9 ∧
      (aft (.powerRecompute 2000 12000 26) s).fld F.PWR_STATUS.POINT < 9 ∧ act.inputMean 900 ≤ powerLimit (act.fld F.PWR_LIMIT.WATTS) := by
  decide +kernel

theorem wit_SuppliesAndTemperatures_limit : (aft (.pwrLimitWrite .host 900) act).pw.limitAt = 1000000000 := by decide +kernel

/-- A core kept out by a fault stays out over a reset (R125). -/
theorem wit_Resets_out :
    let s := act.setCore 45 { out := true, tags := 3 }
    (aft (.warm .firmware) s).core 45 = { out := true } ∧ (aft (.recovery .firmware) s).core 45 = { out := true } := by decide +kernel

/-- Slot 0 as delivered is accepted while no key is revoked and the fuses hold SVN 0 (R7, R484). -/
theorem wit_BootStages_delivered :
    let s := State.reset.setFld F.BOOT_STATUS.STAGE 4
    s.preferred = 0 ∧ s.slotOk 0 = true := by
  intro s
  have ha : s.asDelivered 0 = true := by decide +kernel
  have hr : s.bt.fuses.revoked = 0 := by decide +kernel
  have hv : s.bt.fuses.svn = 0 := by decide +kernel
  refine ⟨by decide +kernel, ?_⟩
  simp [State.slotOk, State.slotCode, State.signedBy, ha, hr, hv, bit]

theorem wit_BootStages_more :
    let at_ (n : Nat) : State := State.reset.setFld F.BOOT_STATUS.STAGE n
    let e : State := { at_ 4 with bt.erased := true }
    (e.slotOk e.preferred = false ∧ e.slotOk (1 - e.preferred) = false) ∧ (aft (.bootStage (.done [])) e).tm.power = .halted ∧
      (aft (.bootStage (.done [(0, 5)])) (at_ 8)).fld F.BOOT_STATUS.STAGE = 9 ∧
      (aft (.bootStage (.done [])) { at_ 9 with bt.stateLog := [⟨1, 1, 2, 0⟩] }).failCount = 0 ∧
      ((at_ 10).setFld F.OP_STATUS.UP 1).linkUp = true ∧
      (aft (.bootStage (.done [])) ((at_ 10).setFld F.OP_STATUS.UP 1)).fld F.BOOT_STATUS.STAGE = 11 ∧
      1 ≤ stageCodes 2 ∧ (aft (.bootStage (.failed 1)) (at_ 2)).bt.stateLog = [] := by
  decide +kernel

theorem wit_ManagementMessages_write :
    let s := act
    s.regServed 0x900100 4 = true ∧ s.accessWaits (offCls 0x900100) (offInst 0x900100) .mgmt = false ∧
      s.lockedFor (offCls 0x900100) (offInst 0x900100) .mgmt = false ∧
      (aft (.regWrite 0x900100 4 900) s).hl.out = [.mgmt 0x11 0 []] ∧ (aft (.regWrite 0x900100 4 900) s).fld F.PWR_LIMIT.WATTS = 900 := by
  decide +kernel

theorem wit_CoreAndClusterLosses_more :
    let p := (placed lay {} {}).setCoreFld F.CORE_CFG.PLACE 85 0
    let o := act.setCore 85 { out := true }
    ((p.core 85).queue = [] ∧ (p.core 85).place ≠ none ∧ (p.core 85).place.all (fun x => x.item.isNone) = true) ∧
      p.coreFld F.CORE_CFG.PLACE 85 ≠ 1 ∧ p.coreFld F.CORE_STATUS.TESTING 85 ≠ 1 ∧
      (aft (.coreTestStart .host 85) p).coreFld F.CORE_STATUS.TESTING 85 = 1 ∧
      (aft (.coreFault 85 3 0) (placed lay {} {})).coreFld F.CORE_STATUS.TESTING 85 = 1 ∧
      ((o.core 85).out = true ∧ o.coreFld F.CORE_STATUS.OFFLINE 85 = 0) ∧ ((aft (.selfTestDone 85 true 0) o).core 85).out = false ∧
      (aft (.selfTestDone 85 false 2) o).coreFld F.CORE_FAULT.CAUSE 85 = 5 ∧
      ((aft (.selfTestDone 85 false 2) o).er.collector.map (fun e => (e.code, e.sev))) = [(0x1105, 2), (0x1111, 1)] ∧
      ({ aft (.clusterReset .firmware) act with tm.now := 1000000570 } : State).resetTests 0 = true := by decide +kernel

/-- A RUN whose one layer, of jobs of two items, waits for a place. -/
def oneLayer : Layer := { ord := 0, plan := 0x4000, counter := 7 }
def waitingRun : State :=
  { ((act.setFld F.SCHED_CFG.ENABLE 1).setCtx 3 { exist := true, slot := some 0, st := .ready }) with
    cq.cmds := [{ runCmd with layers := [oneLayer] }], mm.dev := [(0x4008, 2)] }

theorem wit_DispatchAndPlacement_place :
    let s := waitingRun
    let c : Cmd := { runCmd with layers := [oneLayer] }
    let p := s.layerPlan c oneLayer
    s.runs 313 = true ∧ s.fld F.SCHED_CFG.ENABLE = 1 ∧ s.scanOrder = [3] ∧ (s.ctx 3).clRecs = [] ∧ s.cmdsOf 3 = [c] ∧
      s.cmd? 2 5 = some c ∧ s.layerClusters c oneLayer = [] ∧ s.layerReady c oneLayer p = true ∧ s.layerJobs c oneLayer p = 1 ∧
      Nat.min p.jobItems 40 = 2 ∧ s.qualifies c p 2 0 = true ∧
      ((aft .placementScan s).cluster 0).layers.map (fun l => (l.n, l.cores)) = [(2, [0, 1])] ∧
      (aft .placementScan s).counter 7 = { limit := 1, items := 1 } := by
  decide +kernel

theorem wit_ClaimsAndItems_item :
    let sl := { lay with dispatched := true, job := some { job := 0, mask := 1, gen := 0 } }
    let s := placed sl { limit := 1, next := 1 } { place := some { q := 2, seq := 5, layer := 0, counter := 7, item := some 0 } }
    s.seqLayer? 2 2 5 0 = some sl ∧ (s.itemRun 85).any (fun r => (s.boxReads r 85).isEmpty) = true ∧ s.itemDone 85 0 = true := by
  decide +kernel

theorem wit_SlicesAndReleases_more :
    let p : Place := { q := 2, seq := 5, layer := 0, counter := 7 }
    let r : SavedCore := { q := 2, seq := 5, cluster := 2, position := 0, point := 0, layer := 0, place := p,
                           mask := 0, wells := [], csAddr := 0, csLen := 0, bytes := [], queue := [] }
    let v := placed lay {} { saving := some r }
    let y := (placed lay).setCtx 3 { exist := true, st := .yielding, slot := some 0, saved := [r] }
    (v.core 85).place = some p ∧ (runCmd.layers.map (fun l => (l.ord, l.ended))) = [(0, false)] ∧
      ((aft (.coreRelease 85) v).ctx 3).saved.map (fun x => (x.q, x.seq, x.layer)) = [(2, 5, 0)] ∧
      y.coreCtx 85 = some 3 ∧ (y.core 85).ended = false ∧ (y.core 85).saving = none ∧ y.idleYields 85 3 p = true ∧
      ((aft (.coreRelease 85) y).core 85).place = none ∧ (aft (.coreRelease 85) y).cnt C.SCHED_CNT_YIELDS = 1 := by
  decide +kernel

/-- The window's quarters are 64 KiB each from 128 KiB; the image of the layer of `runCmd` lies in the first units. -/
theorem wit_MemoryErrors_window :
    let w : WinReq := { q := 2, seq := 5, layer := 0, bytes := 8192, granted := true }
    let s : State := { ((List.range 4).foldl (fun s p => s.setFld F.PDIE_WIN_BASE.BASE 2 p) (act.setFld F.PDIE_WIN_SIZE.SIZE 1)) with
      mm.window := [w], cq.cmds := [{ runCmd with layers := [{ ord := 0, plan := 0, windowReady := true, started := true }] }] }
    s.fld F.PDIE_SYS.SIZE 1 * 65536 = 131072 ∧ s.windowQuarter 1 = (131072, 65536) ∧ s.windowAt 1 131072 = some w ∧
      s.windowAt 1 (131072 + 4096) = none ∧
      (aft (.cacheUe 1 131072) s).mm.window = [{ w with granted := false }] ∧ (aft (.cacheUe 1 135168) s).mm.window = [w] ∧
      ((aft (.cacheUe 1 131072) s).cmd? 2 5).map (fun c => c.layers.map (·.windowReady)) = some [false] ∧
      (aft (.cacheUe 1 100663295) act).mm.poisonShared = [(1 * 2 ^ 27 + 100663295) / 64] ∧
      (act.loggedVers ++ act.readVers) = [] := by
  decide +kernel

theorem wit_StackMaintenance_fail :
    let s : State := { act with tm.now := 32000000 + 31 * 1000000 + 11 * 80000 }
    let t := aft (.retrain 11 31) s
    let e : State := { t with tm.now := t.tm.now + 1000 }
    ((aft (.retrainEnd 11 true false) e).stack 11).retired = [63] ∧ ((aft (.retrainEnd 11 false false) e).stack 11).retired = [62] ∧
      ((aft (.retrainEnd 11 false false) e).stack 11).offline = true := by decide +kernel

theorem wit_PortsAndLight_module :
    let s := act.setFld F.OP_STATUS.UP 1 9
    let t := aft (.laserModuleLoss 1) s
    s.fld F.OP_STATUS.UP 9 ≠ 0 ∧ t.fld F.OP_STATUS.UP 9 = 0 ∧ t.fld F.OP_STATUS.FAILED 9 = 1 ∧
      (∃ e ∈ t.er.collector, e.code = 0x3003 ∧ e.inst = 9) := by decide +kernel

theorem wit_ManagementMessages_wide :
    act.regServed 0x900180 8 = true ∧ act.accessWaits (offCls 0x900180) (offInst 0x900180) .mgmt = false ∧
      act.lockedFor (offCls 0x900180) (offInst 0x900180) .mgmt = false := by decide +kernel

theorem wit_RegisterWrites_clear :
    let f := F.RST_INT_STATUS.DONE
    let go (v : W32) (s : State) := aft (.registerWrite .host (regAddr f.cls 0 f.off) v) s
    (f ∈ fieldsAt f.cls f.off ∧ fieldsAt f.cls f.off = [f] ∧ 0x100 ≤ f.off ∧ f.off < 0x400 ∧ f.off % 4 = 0 ∧
      cntHere f.cls (f.off / 8 * 8) = false ∧ pageExists f.cls 0 = true ∧ Writable act f.cls 0 .host ∧
      ∀ (u : State) (v : W32), (u.startsOp .host f.cls 0 f.off v.toNat).isNone = true) ∧
      f.acc = .w1c ∧ (go 1 (act.setFld f 1)).fld f = 0 ∧ (go 0 (act.setFld f 1)).fld f = 1 := by
  intro f go
  refine ⟨⟨by decide +kernel, by decide +kernel, by decide, by decide, by decide, by decide +kernel, by decide +kernel,
    by unfold Writable; decide +kernel, fun _ _ => rfl⟩, by decide +kernel⟩

theorem wit_TraceBuffer_more :
    let w : State := { act with tr.dropped := 3 }
    let m : State := act.setFld F.TRC_TYPES.MASK 0x800 |>.setFld F.TRC_CFG.ENABLE 1
    w.tr.window < w.tm.now / 10000 ∧ (aft .throttleWindow w).fld F.TRC_STATUS.THROTTLED = 1 ∧
      (∃ e ∈ (aft .throttleWindow w).er.collector, e.code = 0x4101) ∧ bit (m.fld F.TRC_TYPES.MASK) 11 = true ∧
      (act.sampleDue = true → bit (act.fld F.TRC_TYPES.MASK) 11 = false) := by decide +kernel

theorem wit_WellheadStarts_replay :
    let b := (openGroup4 act).setGroup 4 { state := 3, owner := 3, rootBlock := some 1 }
    let r := (b.groupRanges 4)[0]?
    r = some (0, branchKey 4 0 * 64, 64) ∧
      ({ b with mm.poison := [branchKey 4 0] } : State).homePoisoned 0 (branchKey 4 0 * 64) 64 = true ∧
      (aft (.rederiveDone 4) { b with mm.poison := [branchKey 4 0] }).homePoisoned 0 (branchKey 4 0 * 64) 64 = false := by
  decide +kernel

/-- PRUNE of group 4 that keeps one branch, by the scores held. -/
def pruneRec : List Byte := rec_ 2 [(0x10, 1, 4), (0x11, 1, 4), (0x12, 2, 1)]

theorem wit_WellheadStarts_prune :
    let c : Cmd := { q := 2, seq := 5, ctx := 3, kind := .prune, rec_ := pruneRec, journalled := true }
    let s : State := { hand .prune pruneRec with
      wh.groups := (openGroup4 act).wh.groups
      wh.branches := [(branchKey 4 0, { state := 1, block := some 0, score := 0x3F800000 }),
        (branchKey 4 1, { state := 1, block := some 1, score := 0x40000000 })] }
    s.cmd? 2 5 = some c ∧ s.someCoreFree = true ∧ s.whStartHold c = none ∧ s.whTest c = none ∧ s.usesOf c.rec_ = [] ∧
      ((aft (.whCommandStart 2 5) s).cmd? 2 5).map (fun x => (x.work.list, x.work.stepped)) = some ([1], [branchKey 4 0]) := by
  decide +kernel

theorem wit_StepRuns_go :
    let w : Cmd := { q := 2, seq := 5, ctx := 3, kind := .step, rec_ := stepRec, journalled := true, stage := .running, begun := true }
    let s := hand .step stepRec (fun _ => w)
    let u := s.setCmd w
    w.work.stepDrops = [] ∧ w.work.inStep = false ∧ ∀ tokens free,
      (u.planStep w tokens free w.groups).flatMap (fun p => p.2.2) = [] := by
  intro w s u
  refine ⟨by decide +kernel, by decide +kernel, fun tokens free => ?_⟩
  have hg : w.groups = [4] := by decide +kernel
  have hi : u.indicesIn w 4 (· = 1) = [] := by decide +kernel
  simp [hg, State.planStep, hi]

theorem wit_CommandStarts_stepWindow :
    let l : Layer := { ord := 0, plan := 0x4000, windowBytes := 16, started := true }
    let c : Cmd := { runCmd with kind := .step, rec_ := stepRec, layers := [l] }
    let w : WinReq := { q := 2, seq := 5, layer := 0, bytes := 16 }
    let s : State := { act.setFld F.PDIE_WIN_SIZE.SIZE 1 with cq.cmds := [c], mm.window := [w] }
    s.mm.window.find? (fun w => !w.granted) = some w ∧ s.cmd? 2 5 = some c ∧ (s.windowUsed + 16).ble s.windowRing = true ∧
      c.layers.find? (fun l => l.ord == 0) = some l ∧ (∀ a n, s.readable a n = true) ∧ (∀ a n, s.poisoned a n = false) := by
  intro l c w s
  refine ⟨by decide +kernel, by decide +kernel, by decide +kernel, by decide +kernel, fun a n => ?_, fun a n => ?_⟩
  · have h : s.hl.filter = [] := by decide +kernel
    unfold State.readable State.held?; rw [h]; simp
  · have h : s.mm.poison = [] := by decide +kernel
    unfold State.poisoned; rw [h]; simp

theorem wit_ReferencesAndEdits_now :
    let s (op a0 a1 : Nat) : State := (((((act.setFld F.KVP_EDIT_OP.OP op).setFld F.KVP_SEQ_COUNT.N 8).setFld F.KVP_CFG.ENABLE 1).setFld
      F.KVP_EDIT_TARGET.ID 3).setFld F.KVP_EDIT_ARG0.VALUE a0).setFld F.KVP_EDIT_ARG1.VALUE a1 |>.setSeq 3 { valid := true, evict := true, cap := 9 }
    let d : State := { act.setSeq 7 { valid := true, cap := 9 } with
      kv.deferred := [{ op := 6, branch := false, target := 7, arg0 := 0, arg1 := 0, ctx := 0 }] }
    (s 6 0 0).editCheck (s 6 0 0).editRegs = 0 ∧ (s 6 0 0).editWaits (s 6 0 0).editRegs = false ∧
      ((aft (.sealTail .host) (s 6 0 0)).seq 3).image.tailSealed = true ∧
      ((aft (.deferredEdit 7) d).seq 7).image.tailSealed = true ∧ (aft (.deferredEdit 7) d).kv.epoch = d.kv.epoch + 1 := by
  decide +kernel

end Sys2Proof.Tests
end

section
/-! SUPPORT. What a loss of stored data leaves alone of the stacks: which pseudo-channels are retired, the registers of the
HBM pages, the count of retrains, the time, and the errors already on their way. -/

namespace Sys2Proof.Machine

/-! ## Sparse maps -/

/-- What a change of every value leaves of each is left of the value at a key. -/
theorem look_map_proj {α β : Type} {d : α} {g : α → α} {p : α → β} (hg : ∀ x, p (g x) = p x) (m : SMap α) (k : Nat) :
    p (look d (m.map (fun e => (e.1, g e.2))) k) = p (look d m k) := by
  induction m with
  | nil => rfl
  | cons e r ih =>
    by_cases h : e.1 = k
    · simpa [look, h] using hg e.2
    · simpa [look, h] using ih

/-! ## The relation -/

/-- From `s` to `t` no pseudo-channel is retired or restored, no field of an HBM page (class 0x21) changes, no retrain is
counted, no time passes, and no error on its way to the collector is lost. -/
structure StacksKept (s t : State) : Prop where
  time : t.tm = s.tm
  errors : s.er.collector ⊆ t.er.collector
  retired : ∀ i, (t.stack i).retired = (s.stack i).retired
  fields : ∀ k, k / 2 ^ 38 = 0x21 → ∀ d, look d t.rg.fields k = look d s.rg.fields k
  retrains : ∀ i, t.cnt C.HBMC_CNT_RETRAIN i = s.cnt C.HBMC_CNT_RETRAIN i

namespace StacksKept

/-! The relation holds of a state and itself, and each rule below carries it over one more update of the later state. -/

theorem refl (s : State) : StacksKept s s := ⟨rfl, fun _ h => h, fun _ => rfl, fun _ _ _ => rfl, fun _ => rfl⟩

theorem trans {s t u : State} (h : StacksKept s t) (h' : StacksKept t u) : StacksKept s u where
  time := h'.time.trans h.time
  errors _ he := h'.errors (h.errors he)
  retired i := (h'.retired i).trans (h.retired i)
  fields n hn d := (h'.fields n hn d).trans (h.fields n hn d)
  retrains i := (h'.retrains i).trans (h.retrains i)

variable {s t : State}

/-- An update of other parts of the state. -/
theorem same (h : StacksKept s t) {u : State} (time : u.tm = t.tm := by rfl) (errors : u.er = t.er := by rfl)
    (hbm : u.mm.hbm = t.mm.hbm := by rfl) (fields : u.rg.fields = t.rg.fields := by rfl)
    (cnts : u.rg.cnts = t.rg.cnts := by rfl) : StacksKept s u :=
  h.trans
    { time := time
      errors := by rw [errors]; exact fun _ he => he
      retired := fun i => by unfold State.stack; rw [hbm]
      fields := fun _ _ d => by rw [fields]
      retrains := fun i => by unfold State.cnt; rw [cnts] }

theorem foldl (h : StacksKept s t) {α : Type} {f : State → α → State}
    (step : ∀ u x, StacksKept s u → StacksKept s (f u x)) (l : List α) : StacksKept s (l.foldl f t) := by
  induction l generalizing t with
  | nil => exact h
  | cons x r ih => exact ih (step t x h)

theorem setFld (h : StacksKept s t) {f : Field} {v i b : Nat} (hk : fieldKey f i b / 2 ^ 38 ≠ 0x21) :
    StacksKept s (t.setFld f v i b) :=
  h.trans ⟨rfl, fun _ he => he, fun _ => rfl, fun _ hp _ => look_put_other _ _ (fun e => hk (e ▸ hp)), fun _ => rfl⟩

theorem setCnt (h : StacksKept s t) {c : Cnt} {v i b : Nat} (ho : c.off % 4096 ≠ 0x1A0) : StacksKept s (t.setCnt c v i b) :=
  h.trans ⟨rfl, fun _ he => he, fun _ => rfl, fun _ _ _ => rfl, fun j =>
    State.cnt_setCnt_ne t c C.HBMC_CNT_RETRAIN v i b j 0 (by simp only [cntKey, C.HBMC_CNT_RETRAIN]; omega)⟩

theorem addCnt (h : StacksKept s t) {c : Cnt} {n i b : Nat} (ho : c.off % 4096 ≠ 0x1A0) : StacksKept s (t.addCnt c n i b) :=
  h.setCnt ho

theorem setInt (h : StacksKept s t) {f : Field} {i : Nat} (hk : fieldKey f i 0 / 2 ^ 38 ≠ 0x21) :
    StacksKept s (t.setInt f i) :=
  (h.setFld (v := 1) hk).same (by simp) (by simp) (by simp) (State.setInt_fields t f i) (by rw [State.setInt_frame])

theorem raise (h : StacksKept s t) {code sev inst unit ctx q cmd detail : Nat} :
    StacksKept s (t.raise code sev inst unit ctx q cmd detail) :=
  h.trans ⟨rfl, List.subset_append_left _ _, fun _ => rfl, fun _ _ _ => rfl, fun _ => rfl⟩

/-! ## Device memory -/

theorem recallLine (h : StacksKept s t) (line : Nat) (w : List RecallWait) : StacksKept s (t.recall line w) := by
  unfold State.recall
  split
  · exact h.same
  · refine addCnt ?_ (by decide)
    exact h.same (by simp) (by simp) (by simp) (by simp) (by simp)

theorem devWriteLine (h : StacksKept s t) (a : Nat) (d : List Byte) : StacksKept s (t.devWriteLine a d) := by
  unfold State.devWriteLine
  split
  · exact h.recallLine _ _
  · exact h.same

theorem devWrite (h : StacksKept s t) (a : Nat) (d : List Byte) : StacksKept s (t.devWrite a d) :=
  h.foldl (fun _ _ hu => hu.devWriteLine _ _) _

/-! ## Trace records -/

theorem takeStop (h : StacksKept s t) (cause : Nat) : StacksKept s (t.takeStop cause) := by
  unfold State.takeStop
  split
  · exact h.setFld (by decide)
  · extract_lets u v
    have fields : StacksKept s u := ((h.setFld (by decide)).setFld (by decide)).setFld (by decide)
    have target : StacksKept s v := (fields.setFld (by decide)).setCnt (by decide)
    exact target.same

theorem traceStore (h : StacksKept s t) (r : TraceRec) : StacksKept s (t.traceStore r) := by
  refine t.traceStore_cases r _ ?_ ?_ (fun a n => ?_)
  · exact (h.addCnt (by decide)).setInt (by decide)
  · exact (((h.setFld (by decide)).setInt (by decide)).addCnt (by decide)).setInt (by decide)
  · have stored : StacksKept s (((t.devWrite a (r.bytes t.tm.now)).addCnt C.TRC_WR 32).addCnt C.TRC_CNT_RECORDS 1) :=
      ((h.devWrite _ _).addCnt (by decide)).addCnt (by decide)
    exact stored.same

theorem traceDrop (h : StacksKept s t) : StacksKept s t.traceDrop := by
  have counted : StacksKept s ((t.addCnt C.TRC_CNT_DROPPED 1).setInt F.TRC_INT_STATUS.DROPPED) :=
    (h.addCnt (by decide)).setInt (by decide)
  exact counted.same

theorem traceTrigger (h : StacksKept s t) (r : TraceRec) : StacksKept s (t.traceTrigger r) := by
  have fires : StacksKept s ((t.setFld F.TRC_STATUS.TRIGGERED 1).setInt F.TRC_INT_STATUS.TRIGGER) :=
    (h.setFld (by decide)).setInt (by decide)
  unfold State.traceTrigger
  dsimp only
  split_ifs
  · exact fires.takeStop _
  · exact fires
  · exact h

theorem traceOwed (h : StacksKept s t) : StacksKept s t.traceOwed := by
  unfold State.traceOwed
  split
  · exact (h.traceStore _).same
  · exact h

theorem traceBudgeted (h : StacksKept s t) (r : TraceRec) : StacksKept s (t.traceBudgeted r) := by
  unfold State.traceBudgeted
  dsimp only
  split
  · exact h.traceOwed.traceDrop
  · exact h.traceOwed.traceStore r

theorem trace (h : StacksKept s t) (r : TraceRec) : StacksKept s (t.trace r) := by
  unfold State.trace
  split
  · exact (h.traceTrigger r).traceBudgeted r
  · exact h

/-! ## Contexts and holds -/

theorem ctxTo (h : StacksKept s t) (ctx : Nat) (st : CtxSt) : StacksKept s (t.ctxTo ctx st) := h.same

theorem yieldEnds (h : StacksKept s t) (ctx : Nat) : StacksKept s (t.yieldEnds ctx) := by
  unfold State.yieldEnds
  dsimp only
  split_ifs
  · exact (h.trace _).ctxTo _ _
  · exact (h.trace _).ctxTo _ _
  · exact h

theorem settle (h : StacksKept s t) (ctx : Nat) : StacksKept s (t.settle ctx) := by
  have h := h.yieldEnds ctx
  unfold State.settle
  generalize t.yieldEnds ctx = u at h ⊢
  dsimp only
  split
  · split <;> exact h.same
  · split_ifs <;> split <;> exact h.same

theorem holdCmd (h : StacksKept s t) (c : Cmd) (w : Hold) : StacksKept s (t.holdCmd c w) := by
  unfold State.holdCmd
  extract_lets wh u r v
  have record : StacksKept s u := h.same
  have recorded : StacksKept s r := record.trace _
  have signal : StacksKept s v := by
    unfold v
    split_ifs
    · exact record
    · exact recorded.setInt (by decide)
    · exact (recorded.setInt (by decide)).raise
    · exact recorded
  exact signal.settle _

/-! ## Staging discarded -/

theorem clearClusters (h : StacksKept s t) (q seq : Nat) : StacksKept s (t.clearClusters q seq) := by
  refine foldl (h.same) (fun u cl hu => ?_) _
  unfold State.idleNow
  split
  · exact hu.same
  · exact hu

/-- Of a stack, only reads in its queues are given up. -/
theorem releaseWork (h : StacksKept s t) (q seq : Nat) : StacksKept s (t.releaseWork q seq) := by
  have freed : StacksKept s ((t.coresOf q seq).foldl State.freeCore t) :=
    h.foldl (fun _ _ hu => hu.same) _
  refine (freed.clearClusters q seq).trans
    ⟨rfl, fun _ he => he, fun i => ?_, fun _ _ _ => rfl, fun _ => rfl⟩
  exact look_map_proj (p := Stack.retired)
    (g := fun x => { x with reads := x.reads.filter (fun r => !(t.coresOf q seq).contains r.core) }) (fun _ => rfl) _ i

theorem setObjCount (h : StacksKept s t) (o : Obj) (n : Nat) : StacksKept s (t.setObjCount o n) := by
  cases o <;> exact h.same

theorem unstage (h : StacksKept s t) (os : List Obj) : StacksKept s (t.unstage os) := by
  refine h.foldl (fun u o hu => ?_) os
  cases o with
  | page p =>
    refine devWrite ?_ _ _
    dsimp only
    split
    · exact addCnt (hu.same) (by decide)
    · exact hu.same
  | block k => exact hu.same

theorem hold (h : StacksKept s t) (tag : Nat) (o : Obj) : StacksKept s (t.hold tag o) := by
  unfold State.hold
  dsimp only
  split <;> exact h.same

theorem applyRef (h : StacksKept s t) (u : RefUpd) : StacksKept s (t.applyRef u) := by
  unfold State.applyRef
  extract_lets n m v
  have counted : StacksKept s v := h.setObjCount _ _
  split
  · exact counted.hold _ _
  · exact counted

theorem unrelease (h : StacksKept s t) (os : List Obj) : StacksKept s (t.unrelease os) :=
  h.foldl (fun _ o hu => (hu.applyRef { obj := o, add := true, n := 1, tag := 0 }).same) os

theorem putSeq (h : StacksKept s t) (n : Nat) (q : Seq) : StacksKept s (t.putSeq n q) :=
  devWrite (h.same) _ _

theorem newImage (h : StacksKept s t) (n : Nat) (q : Seq) (im : Image) (gone : List Nat) :
    StacksKept s (t.newImage n q im gone) := by
  refine foldl ?_ (fun _ _ hu => hu.same) _
  refine putSeq (devWrite ?_ _ _) _ _
  exact setCnt (h.same) (by decide)

theorem sealTail (h : StacksKept s t) (n : Nat) : StacksKept s (t.sealTail n) := by
  unfold State.sealTail
  dsimp only
  split
  · exact h.newImage _ _ _ _
  · exact h

theorem endAppend (h : StacksKept s t) (c : Cmd) : StacksKept s (t.endAppend c) := by
  refine h.foldl (fun u n hu => ?_) _
  split
  · exact (hu.putSeq _ _).sealTail _
  · exact hu

theorem discard (h : StacksKept s t) (c : Cmd) : StacksKept s (t.discard c) := by
  unfold State.discard
  extract_lets s1 s2 s3 s4 s5 client s6 s7
  have freed : StacksKept s s3 := (foldl (h.releaseWork _ _) (fun _ _ hu => hu.setObjCount _ _) _).unstage _
  have reversed : StacksKept s s5 := ((freed.foldl (fun _ _ hu => hu.applyRef _) _).unrelease _).endAppend c
  have counted : StacksKept s s7 := (reversed.addCnt (by decide)).setCnt (by decide)
  exact counted.same

/-! ## A loss of stored units -/

theorem waitRederive (h : StacksKept s t) (c : Cmd) : StacksKept s (t.waitRederive c) := by
  unfold State.waitRederive
  dsimp only
  split
  · exact (h.discard c).holdCmd _ _
  · exact h.discard c

theorem remade (h : StacksKept s t) (v : Ver) : StacksKept s (t.remade v) := by
  unfold State.remade State.remadeAt
  dsimp only
  split <;> exact h.same

theorem loseVer (h : StacksKept s t) (hit : Nat → Nat → Bool) (v : Ver) : StacksKept s (t.loseVer hit v) := by
  unfold State.loseVer
  split_ifs
  · exact (h.remade v).addCnt (by decide)
  · exact h.remade v
  · exact raise (h.same)

theorem loseCmds (h : StacksKept s t) (hit : Nat → Nat → Bool) : StacksKept s (t.loseCmds hit) := by
  refine h.foldl (fun u c hu => ?_) _
  split_ifs
  · exact hu.waitRederive c
  · exact hu.discard c
  · exact hu

theorem lose (h : StacksKept s t) (hit : Nat → Nat → Bool) : StacksKept s (t.lose hit) :=
  (h.foldl (fun _ v hu => hu.loseVer hit v) _).loseCmds hit

theorem groupLost (h : StacksKept s t) (g : Nat) : StacksKept s (t.groupLost g) := by
  unfold State.groupLost
  extract_lets x u v
  have waits : StacksKept s u := by
    unfold u
    split
    · split
      · split
        · exact h.waitRederive _
        · exact h
      · exact h
    · exact h
  exact (setInt (waits.same) (by decide)).raise

theorem groupsLost (h : StacksKept s t) (hit : Nat → Nat → Bool) : StacksKept s (t.groupsLost hit) := by
  refine h.foldl (fun u g hu => ?_) _
  split
  · exact hu.groupLost g
  · exact hu

theorem failRead (h : StacksKept s t) (i : Nat) (r : UnitRead) : StacksKept s (t.failRead i r) :=
  addCnt (h.same) (by decide)

/-! ## What it gives -/

/-- An HBM page's field reads the same. -/
theorem fld (h : StacksKept s t) (f : Field) (i : Fin 12) (hc : f.cls = 0x21) (ho : f.off < 4096) (hl : f.lo < 64) :
    t.fld f i = s.fld f i :=
  h.fields _ (by have := i.isLt; simp only [fieldKey, hc]; omega) _

/-- An error raised before is still on its way. -/
theorem raised (h : StacksKept s t) {r : State} {code sev inst : Nat} (e : Raised r s code sev inst) :
    Raised r t code sev inst := by
  obtain ⟨x, hx, he⟩ := e
  exact ⟨x, h.errors hx, he⟩

end StacksKept

end Sys2Proof.Machine
end

section
/-! SUPPORT. The maintenance of a stack: what its updates leave of the registers, the retirement of a pseudo-channel, and the
retrains, readings and refresh boundaries that the claim speaks of (R301 to R307). -/

namespace Sys2Proof.Machine

/-! ## Registers -/

@[simp] theorem State.fld_setStack (s : State) (n : Nat) (x : Stack) (f : Field) (i b : Nat) :
    (s.setStack n x).fld f i b = s.fld f i b := rfl
@[simp] theorem State.fld_raise (s : State) (code sev inst unit ctx q cmd detail : Nat) (f : Field) (i b : Nat) :
    (s.raise code sev inst unit ctx q cmd detail).fld f i b = s.fld f i b := rfl
@[simp] theorem State.cnt_setStack (s : State) (n : Nat) (x : Stack) (c : Cnt) (i b : Nat) :
    (s.setStack n x).cnt c i b = s.cnt c i b := rfl
@[simp] theorem State.cnt_raise (s : State) (code sev inst unit ctx q cmd detail : Nat) (c : Cnt) (i b : Nat) :
    (s.raise code sev inst unit ctx q cmd detail).cnt c i b = s.cnt c i b := rfl
@[simp] theorem State.stack_setFld (s : State) (f : Field) (v i b n : Nat) : (s.setFld f v i b).stack n = s.stack n := rfl
@[simp] theorem State.stack_addCnt (s : State) (c : Cnt) (v i b n : Nat) : (s.addCnt c v i b).stack n = s.stack n := rfl
@[simp] theorem State.stack_raise (s : State) (code sev inst unit ctx q cmd detail n : Nat) :
    (s.raise code sev inst unit ctx q cmd detail).stack n = s.stack n := rfl
@[simp] theorem State.stack_setInt (s : State) (f : Field) (i n : Nat) : (s.setInt f i).stack n = s.stack n := by
  simp [State.stack]

/-- The number of a page shifts the keys of all its fields alike. -/
theorem fieldKey_inst (f : Field) (i : Nat) : fieldKey f i 0 = fieldKey f 0 0 + i * 2 ^ 30 := by
  simp only [fieldKey]; omega

/-- Another field of the same page reads as before. -/
theorem State.fld_setFld_other (s : State) {f g : Field} {v i : Nat} (h : fieldKey g 0 0 ≠ fieldKey f 0 0) :
    (s.setFld f v i).fld g i = s.fld g i :=
  s.fld_setFld_ne f g v i 0 i 0 (by rw [fieldKey_inst g, fieldKey_inst f]; omega)

theorem State.fld_setInt_other (s : State) {f g : Field} {i : Nat} (h : fieldKey g 0 0 ≠ fieldKey f 0 0) :
    (s.setInt f i).fld g i = s.fld g i := by
  rw [← s.fld_setFld_other (v := 1) (i := i) h]
  simp only [State.fld, State.setInt_fields]

theorem FieldsBut.refl (s : State) (keys : List Nat) : FieldsBut s s keys := fun _ _ _ => rfl

theorem FieldsBut.setStack {s t : State} {keys : List Nat} (h : FieldsBut s t keys) {n : Nat} {x : Stack} :
    FieldsBut s (t.setStack n x) keys := h

theorem FieldsBut.raise {s t : State} {keys : List Nat} (h : FieldsBut s t keys)
    {code sev inst unit ctx q cmd detail : Nat} : FieldsBut s (t.raise code sev inst unit ctx q cmd detail) keys := h

/-- A write of a listed field. -/
theorem FieldsBut.setFld {s t : State} {keys : List Nat} (h : FieldsBut s t keys) {f : Field} {v i b : Nat}
    (hk : fieldKey f i b ∈ keys) : FieldsBut s (t.setFld f v i b) keys := fun k hn d =>
  (look_put_other _ _ (fun e : k = fieldKey f i b => hn (e ▸ hk))).trans (h k hn d)

theorem FieldsBut.setInt {s t : State} {keys : List Nat} (h : FieldsBut s t keys) {f : Field} {i : Nat}
    (hk : fieldKey f i 0 ∈ keys) : FieldsBut s (t.setInt f i) keys := fun k hn d => by
  rw [State.setInt_fields]
  exact h.setFld hk k hn d

/-- An error just raised is on its way. -/
theorem State.raise_raised (s : State) (code sev inst unit ctx q cmd detail : Nat) :
    Raised s (s.raise code sev inst unit ctx q cmd detail) code sev inst :=
  ⟨_, List.mem_append_right _ (List.mem_singleton_self _), rfl, rfl, rfl, rfl⟩

/-! ## Retirement of a pseudo-channel (R305, R307) -/

/-- The first retirement of a stack as far as the stack and its page: queued reads fail, the pseudo-channel is listed and
shown, and the red error is raised. -/
def State.retireMarks (s : State) (i pc : Nat) : State :=
  let x := s.stack i
  let s := (x.reads.filter (fun r => r.pc = pc)).foldl (fun s r => s.failRead i r) s
  let s := s.setStack i { x with retired := [pc], reads := x.reads.filter (fun r => r.pc ≠ pc) }
  let s := (s.setFld F.HBMC_STATUS.RETIRED 1 i).setFld F.HBMC_STATUS.RETIRED_PC pc i
  (s.setInt F.HBMC_INT_STATUS.PC_RETIRED i).raise 0x2103 2 i pc

/-- A stack's first retirement marks it, and then loses the data of the pseudo-channel. -/
theorem State.retire_of_none {s : State} {i pc : Nat} (h : (s.stack i).retired = []) :
    s.retire i pc = ((s.retireMarks i pc).groupsLost (pcHit i pc)).lose (pcHit i pc) := by
  unfold State.retire
  simp only [h]
  rfl

/-- Another one takes the stack out of service. -/
theorem State.retire_of_some {s : State} {i pc : Nat} (h : (s.stack i).retired ≠ []) (hpc : pc ∉ (s.stack i).retired) :
    s.retire i pc =
      ((s.setStack i { s.stack i with offline := true }).setFld F.HBMC_STATUS.OFFLINE 1 i).raise 0x2104 3 i pc := by
  unfold State.retire
  simp [h, hpc]

/-- What holds of a stack once a failed retrain has retired its first pseudo-channel. -/
structure FirstRetired (s t : State) (i : Fin 12) (pc : Nat) : Prop where
  time : t.tm = s.tm
  retired : (t.stack i).retired = [pc]
  retraining : t.fld F.HBMC_STATUS.RETRAINING i = s.fld F.HBMC_STATUS.RETRAINING i
  kind : t.fld F.HBMC_FAULT.KIND i = 2
  shown : t.fld F.HBMC_STATUS.RETIRED i = 1
  error : Raised s t 0x2103 2 i
  retrains : t.cnt C.HBMC_CNT_RETRAIN i = s.cnt C.HBMC_CNT_RETRAIN i

/-- The loss of data that follows leaves all of it. -/
theorem FirstRetired.of_kept {s t u : State} {i : Fin 12} {pc : Nat} (h : FirstRetired s t i pc) (k : StacksKept t u) :
    FirstRetired s u i pc where
  time := k.time.trans h.time
  retired := (k.retired i).trans h.retired
  retraining := (k.fld _ i rfl (by decide) (by decide)).trans h.retraining
  kind := (k.fld _ i rfl (by decide) (by decide)).trans h.kind
  shown := (k.fld _ i rfl (by decide) (by decide)).trans h.shown
  error := k.raised h.error
  retrains := (k.retrains i).trans h.retrains

/-- The marks, when HBMC_FAULT tells a failed retrain. -/
theorem State.retireMarks_firstRetired (s : State) (i : Fin 12) (pc : Nat) (hk : s.fld F.HBMC_FAULT.KIND i = 2) :
    FirstRetired s (s.retireMarks i pc) i pc := by
  have failed : StacksKept s (((s.stack i).reads.filter (fun r => r.pc = pc)).foldl (fun s r => s.failRead i r) s) :=
    (StacksKept.refl s).foldl (fun _ r hu => hu.failRead i r) _
  unfold State.retireMarks
  extract_lets x u v w
  have hu : StacksKept s u := failed
  have other {f : Field} (h0 : fieldKey f 0 0 ≠ fieldKey F.HBMC_STATUS.RETIRED 0 0)
      (h1 : fieldKey f 0 0 ≠ fieldKey F.HBMC_STATUS.RETIRED_PC 0 0)
      (h2 : fieldKey f 0 0 ≠ fieldKey F.HBMC_INT_STATUS.PC_RETIRED 0 0) :
      ((w.setInt F.HBMC_INT_STATUS.PC_RETIRED i).raise 0x2103 2 i pc).fld f i = u.fld f i := by
    rw [State.fld_raise, State.fld_setInt_other _ h2, State.fld_setFld_other _ h1, State.fld_setFld_other _ h0]
    rfl
  constructor
  case time => simpa [w, v] using hu.time
  case retired => simp [w, v]
  case retraining => exact (other (by decide) (by decide) (by decide)).trans (hu.fld _ i rfl (by decide) (by decide))
  case kind => exact ((other (by decide) (by decide) (by decide)).trans (hu.fld _ i rfl (by decide) (by decide))).trans hk
  case shown =>
    rw [State.fld_raise, State.fld_setInt_other _ (by decide), State.fld_setFld_other _ (by decide), State.fld_setFld]
    rfl
  case error =>
    obtain ⟨e, he, hc, hs, hi, ht⟩ :=
      (w.setInt F.HBMC_INT_STATUS.PC_RETIRED i).raise_raised 0x2103 2 i pc 0xFFFF 0xFFFF 0 0
    exact ⟨e, he, hc, hs, hi, ht.trans (by simpa [w, v] using congrArg Tm.now hu.time)⟩
  case retrains => simpa [w, v] using hu.retrains i

/-- A failed retrain retires the first pseudo-channel of a stack. -/
theorem State.retrainFailed_first (s : State) (i : Fin 12) (pc : Nat) (h : (s.stack i).retired = []) :
    FirstRetired s (s.retrainFailed i pc) i pc := by
  let u := (s.setFld F.HBMC_FAULT.PC pc i).setFld F.HBMC_FAULT.KIND 2 i
  have hk : u.fld F.HBMC_FAULT.KIND i = 2 := State.fld_setFld _ _ _ _ _
  have marked := u.retireMarks_firstRetired i pc hk
  have lost : FirstRetired u (s.retrainFailed i pc) i pc := by
    unfold State.retrainFailed
    rw [State.retire_of_none (by simpa using h)]
    exact marked.of_kept (((StacksKept.refl _).groupsLost _).lose _)
  have hr : u.fld F.HBMC_STATUS.RETRAINING i = s.fld F.HBMC_STATUS.RETRAINING i := by
    unfold u
    rw [State.fld_setFld_other _ (by decide), State.fld_setFld_other _ (by decide)]
  exact { lost with retraining := lost.retraining.trans hr }

/-- A second one that fails takes the stack out of service. -/
theorem State.retrainFailed_second (s : State) (i : Fin 12) {pc pc' : Nat} (h : (s.stack i).retired = [pc])
    (hne : pc' ≠ pc) :
    ((s.retrainFailed i pc').stack i).retired = [pc] ∧ ((s.retrainFailed i pc').stack i).offline = true ∧
      (s.retrainFailed i pc').fld F.HBMC_STATUS.OFFLINE i = 1 ∧ Raised s (s.retrainFailed i pc') 0x2104 3 i := by
  unfold State.retrainFailed
  rw [State.retire_of_some (by simp [h]) (by simp [h, hne])]
  refine ⟨by simpa using h, by simp, ?_, State.raise_raised _ _ _ _ _ _ _ _ _⟩
  rw [State.fld_raise, State.fld_setFld]
  rfl

/-! ## Retraining (R301) -/

/-- A channel's retrain begins at its instant. -/
theorem State.retrain_due {s : State} {i ch : Nat} (hp : s.tm.power = .active)
    (ht : s.tm.now % 32000000 = ch * 1000000 + i * 80000) (hr : s.fld F.HBMC_STATUS.RETRAINING i = 0) :
    s.retrain i ch = ((s.setFld F.HBMC_STATUS.RETRAINING 1 i).setFld F.HBMC_STATUS.RETRAIN_CH ch i).setStack i
      { s.stack i with retrainFrom := some s.tm.now } :=
  if_pos ⟨hp, by simp [retrainDue, ht], hr⟩

/-- A retrain that is over: its channel serves again. -/
def State.retrainOver (s : State) (i : Nat) : State :=
  (s.setFld F.HBMC_STATUS.RETRAINING 0 i).setStack i { s.stack i with retrainFrom := none }

/-- Its end, 1 µs after it began: it is counted, or each pseudo-channel that failed is retired. -/
theorem State.retrainEnd_over {s : State} {i e : Nat} (he : (s.stack i).retrainFrom = some e) (hn : e + 1000 ≤ s.tm.now) :
    let ch := s.fld F.HBMC_STATUS.RETRAIN_CH i
    s.retrainEnd i true true = (s.retrainOver i).addCnt C.HBMC_CNT_RETRAIN 1 i ∧
      s.retrainEnd i false true = (s.retrainOver i).retrainFailed i (2 * ch) ∧
      s.retrainEnd i true false = (s.retrainOver i).retrainFailed i (2 * ch + 1) ∧
      s.retrainEnd i false false = ((s.retrainOver i).retrainFailed i (2 * ch)).retrainFailed i (2 * ch + 1) := by
  have hn : ¬ s.tm.now < e + 1000 := by omega
  simp only [State.retrainEnd, he, hn, if_false]
  exact ⟨rfl, rfl, rfl, rfl⟩

@[simp] theorem State.retrainOver_retraining (s : State) (i : Nat) :
    (s.retrainOver i).fld F.HBMC_STATUS.RETRAINING i = 0 := State.fld_setFld _ _ _ _ _

@[simp] theorem State.retrainOver_stack (s : State) (i : Nat) :
    (s.retrainOver i).stack i = { s.stack i with retrainFrom := none } := State.stack_setStack _ _ _

/-! ## Temperature (R302, R304) -/

/-- Whether everything is cool is noted for a thermal hold; nothing else changes. -/
theorem State.watchCool_frame (s : State) : s.watchCool = { s with er.coolSince := s.watchCool.er.coolSince } := by
  unfold State.watchCool
  split <;> rfl

/-- The stack that a reading leaves. -/
def Stack.withReading (x : Stack) (c : Nat) : Stack := { x with reading := c, tempStep := tempStepOf x.tempStep c }

/-- A reading taken and shown. -/
def State.readingShown (s : State) (i c : Nat) : State :=
  (s.setStack i ((s.stack i).withReading c)).setFld F.HBMC_TEMP.TEMP c i

/-- A reading is shown and watched, and from 105 °C on it raises an error. -/
theorem State.temperatureRead_powered {s : State} (i c : Nat) (hp : s.tm.power ≠ .off) :
    s.temperatureRead i c =
      if 105 ≤ c then (s.readingShown i c).watchCool.raise 0x2105 3 i 0 0xFFFF 0xFFFF 0 c
      else (s.readingShown i c).watchCool := if_neg hp

/-- Beside the reading only errors change. -/
theorem State.temperatureRead_frame {s : State} (i c : Nat) (hp : s.tm.power ≠ .off) :
    s.temperatureRead i c = { s.readingShown i c with er := (s.temperatureRead i c).er } := by
  rw [State.temperatureRead_powered i c hp, State.watchCool_frame]
  split <;> rfl

/-- From 105 °C on it is a black error, and THERM_N is driven. -/
theorem State.temperatureRead_hot {s : State} (i : Nat) {c : Nat} (hp : s.tm.power ≠ .off) (hc : 105 ≤ c) :
    Raised s (s.temperatureRead i c) 0x2105 3 i ∧ (s.temperatureRead i c).er.thermN = false := by
  rw [State.temperatureRead_powered i c hp, if_pos hc, State.watchCool_frame]
  exact ⟨State.raise_raised _ _ _ _ _ _ _ _ _, by simp [State.raise, overheatCode]⟩

theorem tempStepOf_hot (old : Nat) {c : Nat} (h : 95 ≤ c) : 3 ≤ tempStepOf old c := by
  rw [tempStepOf, if_pos h]
  exact Nat.le_max_left _ _

theorem tempStepOf_cool (old : Nat) {c : Nat} (h : c ≤ 72) : tempStepOf old c = 0 := by
  simp (disch := omega) only [tempStepOf, if_neg]
  simp

theorem tempStepOf_warm (old : Nat) {c : Nat} (h : 75 ≤ c) (h' : c ≤ 82) : tempStepOf old c = 1 := by
  simp (disch := omega) only [tempStepOf, if_neg, if_pos]
  simp

/-! ## Refresh (R302) -/

/-- At an interval boundary a new step comes into force. -/
theorem State.refreshInterval_step {s : State} {i : Nat} (hp : s.tm.power ≠ .off) (hb : s.tm.now % 3900 = 0)
    (hn : Nat.max (s.stack i).tempStep (s.fld F.HBMC_REF_CFG.MIN_STEP i) ≠ (s.stack i).stepInForce) :
    let step := Nat.max (s.stack i).tempStep (s.fld F.HBMC_REF_CFG.MIN_STEP i)
    let x : Stack := { s.stack i with
      stepInForce := step, hotSince := if (s.stack i).stepInForce = 0 then s.tm.now else (s.stack i).hotSince }
    s.refreshInterval i =
      (((s.setStack i x).setFld F.HBMC_TEMP.STEP step i).setInt F.HBMC_INT_STATUS.STEP_CHANGE i).raise 0x2107 0 i := by
  have runs : ¬ (s.tm.power = .off ∨ s.tm.now % 3900 ≠ 0) := by simp [hp, hb]
  exact (if_neg runs).trans (if_neg hn)

/-! ## The claim -/

/-- The clause of RETRAIN. -/
theorem retrain_begins (s : State) (i : Fin 12) (ch : Fin 32) (hp : s.tm.power = .active)
    (ht : s.tm.now % 32000000 = ch * 1000000 + i * 80000) (hr : s.fld F.HBMC_STATUS.RETRAINING i = 0) :
    ∃ t, exec (.retrain i ch) s = .next t ∧ t.fld F.HBMC_STATUS.RETRAINING i = 1 ∧
      t.fld F.HBMC_STATUS.RETRAIN_CH i = ch.val ∧ (t.stack i).retrainFrom = some s.tm.now ∧
      FieldsBut s t [fieldKey F.HBMC_STATUS.RETRAINING i 0, fieldKey F.HBMC_STATUS.RETRAIN_CH i 0] ∧
      t = { s with rg := t.rg, mm.hbm := t.mm.hbm } := by
  refine ⟨s.retrain i ch, rfl, ?_⟩
  rw [State.retrain_due hp ht hr]
  refine ⟨?_, ?_, by simp, ?_, rfl⟩
  · rw [State.fld_setStack, State.fld_setFld_other _ (by decide), State.fld_setFld]
    rfl
  · rw [State.fld_setStack, State.fld_setFld]
    exact Nat.mod_eq_of_lt ch.isLt
  · exact (((FieldsBut.refl s _).setFld (by simp)).setFld (by simp)).setStack

/-- The clause of a retrain that both pseudo-channels pass. -/
theorem retrainEnd_passed (s : State) (i : Fin 12) {e : Nat} (he : (s.stack i).retrainFrom = some e)
    (hn : e + 1000 ≤ s.tm.now) :
    ∃ t, exec (.retrainEnd i true true) s = .next t ∧ t.fld F.HBMC_STATUS.RETRAINING i = 0 ∧
      (t.stack i).retrainFrom = none ∧ t.cnt C.HBMC_CNT_RETRAIN i = (s.cnt C.HBMC_CNT_RETRAIN i + 1) % 2 ^ 64 ∧
      FieldsBut s t [fieldKey F.HBMC_STATUS.RETRAINING i 0] ∧ t = { s with rg := t.rg, mm.hbm := t.mm.hbm } := by
  obtain ⟨passed, -⟩ := State.retrainEnd_over he hn
  refine ⟨s.retrainEnd i true true, rfl, ?_⟩
  rw [passed]
  refine ⟨by simp, by simp, ?_, (FieldsBut.refl s _).setFld (by simp), rfl⟩
  rw [State.cnt_addCnt]
  rfl

/-- The clause of TEMPERATURE_READ. -/
theorem temperatureRead_shows (s : State) (i : Fin 12) (hp : s.tm.power ≠ .off) (c : Byte) :
    ∃ t, exec (.temperatureRead i c) s = .next t ∧ t.fld F.HBMC_TEMP.TEMP i = c.toNat ∧
      (t.stack i).reading = c.toNat ∧ (t.stack i).stepInForce = (s.stack i).stepInForce ∧
      (95 ≤ c.toNat → 3 ≤ (t.stack i).tempStep) ∧ (c.toNat ≤ 72 → (t.stack i).tempStep = 0) ∧
      (75 ≤ c.toNat → c.toNat ≤ 82 → (t.stack i).tempStep = 1) ∧
      (105 ≤ c.toNat → Raised s t 0x2105 3 i ∧ t.er.thermN = false) ∧
      FieldsBut s t [fieldKey F.HBMC_TEMP.TEMP i 0] ∧ SameWork s t ∧ t.mm.dev = s.mm.dev := by
  have frame := s.temperatureRead_frame i c.toNat hp
  have stack : (s.temperatureRead i c.toNat).stack i = (s.stack i).withReading c.toNat := by
    rw [frame]
    exact State.stack_setStack s i _
  have shown : (s.temperatureRead i c.toNat).fld F.HBMC_TEMP.TEMP i = c.toNat := by
    rw [frame]
    exact (State.fld_setFld _ F.HBMC_TEMP.TEMP _ _ _).trans (Nat.mod_eq_of_lt c.isLt)
  refine ⟨s.temperatureRead i c.toNat, rfl, shown, ?_⟩
  rw [stack]
  refine ⟨rfl, rfl, tempStepOf_hot _, tempStepOf_cool _, tempStepOf_warm _, s.temperatureRead_hot i hp, ?_⟩
  rw [frame]
  exact ⟨(FieldsBut.refl s _).setFld (List.mem_singleton_self _), ⟨rfl, rfl, rfl, rfl, rfl⟩, rfl⟩

/-- The clause of REFRESH_INTERVAL. -/
theorem refreshInterval_takes_step (s : State) (i : Fin 12) (hp : s.tm.power ≠ .off) :
    let step := Nat.max (s.stack i).tempStep (s.fld F.HBMC_REF_CFG.MIN_STEP i)
    s.tm.now % 3900 = 0 → step < 4 → step ≠ (s.stack i).stepInForce →
      ∃ t, exec (.refreshInterval i) s = .next t ∧ (t.stack i).stepInForce = step ∧ t.fld F.HBMC_TEMP.STEP i = step ∧
        t.fld F.HBMC_INT_STATUS.STEP_CHANGE i = 1 ∧ Raised s t 0x2107 0 i ∧
        FieldsBut s t [fieldKey F.HBMC_TEMP.STEP i 0, fieldKey F.HBMC_INT_STATUS.STEP_CHANGE i 0] ∧ SameWork s t := by
  intro step hb hs hn
  refine ⟨s.refreshInterval i, rfl, ?_⟩
  rw [State.refreshInterval_step hp hb hn]
  refine ⟨by simp [step], ?_, ?_, ?_, ?_, by simp [SameWork]⟩
  · rw [State.fld_raise, State.fld_setInt_other _ (by decide), State.fld_setFld]
    exact Nat.mod_eq_of_lt hs
  · rw [State.fld_raise, State.fld_setInt]
    rfl
  · obtain ⟨e, he, hc, hv, hi, ht⟩ := State.raise_raised _ 0x2107 0 i 0 0xFFFF 0xFFFF 0 0
    exact ⟨e, he, hc, hv, hi, ht.trans (by simp)⟩
  · exact (((FieldsBut.refl s _).setStack.setFld (by simp)).setInt (by simp)).raise

/-- Settles O45: each clause by its rule above; a failed retrain retires through `State.retrainFailed_first`, whose marks the
loss of the pseudo-channel's data leaves alone (`StacksKept`), so a second failure finds the first one listed. -/
theorem stackMaintenance : Obligations.StackMaintenance := by
  unfold Obligations.StackMaintenance
  refine ⟨fun s i => ⟨retrain_begins s i, fun e he hn => ⟨retrainEnd_passed s i he hn, fun hr _ => ?_⟩⟩,
    fun s i hp => ⟨temperatureRead_shows s i hp, refreshInterval_takes_step s i hp⟩⟩
  obtain ⟨-, failed0, failed1, failedBoth⟩ := State.retrainEnd_over he hn
  have none : ((s.retrainOver i).stack i).retired = [] := by simpa using hr
  have first := (s.retrainOver i).retrainFailed_first i (2 * s.fld F.HBMC_STATUS.RETRAIN_CH i) none
  have other := (s.retrainOver i).retrainFailed_first i (2 * s.fld F.HBMC_STATUS.RETRAIN_CH i + 1) none
  refine ⟨⟨_, rfl, ?_⟩, ⟨_, rfl, ?_⟩, ⟨_, rfl, ?_⟩⟩
  · rw [failed0]
    exact ⟨first.retraining.trans (by simp), first.retired, first.kind, first.shown, first.error, first.retrains⟩
  · rw [failed1]
    exact ⟨other.retraining.trans (by simp), other.retired, other.kind, other.shown, other.error⟩
  · obtain ⟨retired, offline, shown, x, hx, hc, hs, hi, ht⟩ :=
      State.retrainFailed_second _ i first.retired (Nat.succ_ne_self _)
    rw [failedBoth]
    exact ⟨retired, offline, shown, x, hx, hc, hs, hi, ht.trans (congrArg Tm.now first.time)⟩

end Sys2Proof.Machine
end

section
/-! SUPPORT. A save header outside the save pool: SCHED_POOL_COUNT is written while a context that has saved is not resident
(R440), and the context's next save writes its header where it was. -/

namespace Sys2Proof.Machine

/-- The state that rows run one after the other leave. -/
def State.afterRows (s : State) (rows : List Instr) : State :=
  rows.foldl (fun s i => match exec i s with | .next t => t | _ => s) s

/-- The host writes a register of the SCHED page. -/
def schedWrite (off : Nat) (v : W32) : Instr := .registerWrite .host (regAddr 0x01 0 off) v

/-- A layer of context 7's command that has yielded in cluster 2. -/
def yieldedLayer : SeqLayer := { q := 4, seq := 9, layer := 0, counter := 1, n := 1, cores := [80] }

/-- A save pool of one granule. Context 7 has been swapped out: its header is the first unit of the pool, the record of cluster
2, whose store its command owns, the second. It waits for a slot, as 32 other contexts do. -/
def savedInPool : State :=
  let s : State := {
    tm.power := .active
    cq.cmds := [{ q := 4, seq := 9, ctx := 7, kind := .run, rec_ := List.replicate 64 0, stage := .staged }]
    sc.ctxs := (7, { exist := true, st := .outReady, headAt := some 0, clAt := [{ cluster := 2, at_ := some 1 }]
                     clRecs := [(2, { layers := [yieldedLayer], owner := some (4, 9) })] }) ::
      (List.range' 100 32).map (fun n => (n, { exist := true, st := .outReady })) }
  (s.setFld F.SCHED_CFG.ENABLE 1).setFld F.SCHED_POOL_COUNT.N 1

/-- The host stops the scheduler, takes the pool away and starts it again: no context is resident (R440, R575; log 69).
All slots are taken, context 7 is loaded and, as its command is held, BLOCKED; the one context left waiting evicts it. -/
def poolTakenAway : List Instr :=
  [schedWrite 0x100 0, schedWrite 0x110 0, schedWrite 0x100 1] ++ List.replicate 32 .swapIn ++ [.restoreComplete 7, .swapOut]

/-- Context 7 is SAVING, and the pool has no unit. -/
def savingWithoutPool : State := savedInPool.afterRows poolTakenAway

/-- Here the header's 64 bytes lie in the pool. -/
theorem savedInPool_header : (savedInPool.ctx 7).headAt = some 0 ∧ 64 ≤ savedInPool.poolBytes := by decide +kernel

theorem savingWithoutPool_runs : savingWithoutPool.runs 313 = true := by decide +kernel

theorem savingWithoutPool_saving : (savingWithoutPool.ctx 7).st = .saving := by decide +kernel

theorem savingWithoutPool_pool : savingWithoutPool.poolBase = 0 ∧ savingWithoutPool.poolBytes = 0 := by decide +kernel

/-- The number of the context, which begins its header, is written at address 0. -/
theorem savingWithoutPool_writes :
    rdByte savingWithoutPool.mm.dev 0 = 0 ∧ rdByte (savingWithoutPool.saveComplete 7).mm.dev 0 = 7 := by decide +kernel

/-- Refutes O42: SAVE_COMPLETE writes outside the save pool. A context that has saved before keeps the place of its header, and
its next save writes the header there again, wherever SCHED_POOL_BASE and SCHED_POOL_COUNT put the pool by then. The clause on
the bytes outside the pool lacks the hypothesis that this place still lies inside. -/
theorem not_swaps : ¬ Obligations.Swaps := by
  unfold Obligations.Swaps
  intro holds
  obtain ⟨-, saves, -, -⟩ := holds savingWithoutPool savingWithoutPool_runs
  obtain ⟨t, ran, -, -, -, -, -, -, -, kept⟩ := saves 7 savingWithoutPool_saving
  have saved : t = savingWithoutPool.saveComplete 7 := (Host.Outcome.next.inj ran).symm
  obtain ⟨base, bytes⟩ := savingWithoutPool_pool
  obtain ⟨before, after⟩ := savingWithoutPool_writes
  have outside : 0 < savingWithoutPool.poolBase ∨ savingWithoutPool.poolBase + savingWithoutPool.poolBytes ≤ 0 := by
    simp [base, bytes]
  have same := kept 0 outside
  rw [saved, before, after] at same
  exact absurd same (by decide)

end Sys2Proof.Machine
end

section
/-! SUPPORT. The state log: what a record committed gives (R473, R480, R481, R485). -/

namespace Sys2Proof.Machine

/-! ## The logs (R480, R481) -/

/-- The record committed last of a TYPE gives its value. -/
@[simp] theorem logValue_appendLog_self (l : List LogRec) (type value time : Nat) :
    logValue (appendLog l type value time) type = some value := by
  simp [logValue, appendLog]

/-- A record of another TYPE leaves it. -/
theorem logValue_appendLog_ne (l : List LogRec) {type other : Nat} (value time : Nat) (h : type ≠ other) :
    logValue (appendLog l type value time) other = logValue l other := by
  simp [logValue, appendLog, h]

@[simp] theorem State.commitState_stateLog (s : State) (type value : Nat) :
    (s.commitState type value).bt.stateLog = appendLog s.bt.stateLog type value s.tm.now := rfl

/-- A COUNT record gives the failure counter, and leaves the slot preferred. -/
@[simp] theorem State.commitState_count_failCount (s : State) (n : Nat) : (s.commitState 1 n).failCount = n := by
  simp [State.failCount]

@[simp] theorem State.commitState_count_preferred (s : State) (n : Nat) : (s.commitState 1 n).preferred = s.preferred := by
  simp [State.preferred, logValue_appendLog_ne]

/-- A PREFER record gives the slot preferred, and leaves the failure counter. -/
@[simp] theorem State.commitState_prefer_preferred (s : State) (slot : Nat) :
    (s.commitState 3 slot).preferred = slot % 2 := by
  simp [State.preferred]

@[simp] theorem State.commitState_prefer_failCount (s : State) (slot : Nat) :
    (s.commitState 3 slot).failCount = s.failCount := by
  simp [State.failCount, logValue_appendLog_ne]

end Sys2Proof.Machine
end

section
/-! SUPPORT. The stages of a start: what each passes to, what a failed or late one leaves, and the entry to minimal mode (R468
to R474). -/

namespace Sys2Proof.Machine

/-! ## Updates that leave the boot state alone -/

/-- From `s` to `t` no time passes, the boot state is the same, and so is every field of the boot page (class 0x0C). -/
structure BootKept (s t : State) : Prop where
  time : t.tm = s.tm
  boot : t.bt = s.bt
  fields : ∀ k, k / 2 ^ 38 = 0x0C → ∀ d, look d t.rg.fields k = look d s.rg.fields k

namespace BootKept

theorem refl (s : State) : BootKept s s := ⟨rfl, rfl, fun _ _ _ => rfl⟩

variable {s t : State}

theorem trans {u : State} (h : BootKept s t) (h' : BootKept t u) : BootKept s u where
  time := h'.time.trans h.time
  boot := h'.boot.trans h.boot
  fields k hk d := (h'.fields k hk d).trans (h.fields k hk d)

theorem foldl (h : BootKept s t) {α : Type} {f : State → α → State} {l : List α}
    (step : ∀ u, ∀ x ∈ l, BootKept u (f u x)) : BootKept s (l.foldl f t) := by
  induction l generalizing t with
  | nil => exact h
  | cons x r ih =>
    exact ih (h.trans (step t x List.mem_cons_self)) fun u y hy => step u y (List.mem_cons_of_mem x hy)

/-- A field of another page. -/
theorem setFld (h : BootKept s t) {f : Field} {v i b : Nat} (hk : fieldKey f i b / 2 ^ 38 ≠ 0x0C) :
    BootKept s (t.setFld f v i b) :=
  h.trans ⟨rfl, rfl, fun _ hp _ => look_put_other _ _ (fun e => hk (e ▸ hp))⟩

theorem setPort (h : BootKept s t) (p : Nat) (x : Port) : BootKept s (t.setPort p x) :=
  h.trans ⟨rfl, rfl, fun _ _ _ => rfl⟩

theorem sendPort (h : BootKept s t) (p : Nat) : BootKept s (t.sendPort p) :=
  h.trans ⟨by simp, by simp, fun _ _ _ => by rw [State.sendPort_frame]⟩

theorem moveTx (h : BootKept s t) (p q : Nat) (first : List Out) : BootKept s (t.moveTx p q first) :=
  ((h.setPort _ _).setPort _ _).sendPort _

theorem portEnable (h : BootKept s t) {p : Nat} (hp : p < 256) : BootKept s (t.portEnable p) := by
  have drawn : BootKept s t.draw.2 := h.trans ⟨rfl, rfl, fun _ _ _ => rfl⟩
  refine (drawn.setFld ?_).setPort _ _
  simp only [fieldKey, F.OP_CFG.ENABLE]
  omega

theorem enableKcl (h : BootKept s t) : BootKept s t.enableKcl :=
  h.foldl fun u p hp => (refl u).portEnable (by have := List.mem_range.mp hp; omega)

theorem minimalLink (h : BootKept s t) : BootKept s t.minimalLink := by
  have shown : BootKept s ((List.range 24).foldl
      (fun s p => s.setFld F.OP_STATUS.UP (b2n (t.minimalPort = some p)) p) t) := by
    refine h.foldl fun u p hp => (refl u).setFld ?_
    have := List.mem_range.mp hp
    simp only [fieldKey, F.OP_STATUS.UP]
    omega
  unfold State.minimalLink
  dsimp only
  split
  · exact shown
  · exact (foldl (shown.setFld (by decide)) fun u p _ => (refl u).moveTx _ _ _).sendPort _

/-- A field of the boot page reads the same. -/
theorem fld (h : BootKept s t) (f : Field) (hk : fieldKey f 0 0 / 2 ^ 38 = 0x0C) : t.fld f = s.fld f :=
  h.fields _ hk _

end BootKept

/-- The release of a stop by a reset leaves the boot state. -/
theorem State.stopByReset_bt (s : State) : s.stopByReset.bt = s.bt := by
  unfold State.stopByReset State.stopOver
  dsimp only
  split_ifs <;> simp [State.stopShift]

/-! ## Minimal mode and failed stages (R471, R473, R474) -/

/-- A start that enters minimal mode says so and why, and leaves the log. -/
structure EnteredMinimal (s t : State) (kind : Nat) : Prop where
  power : t.tm.power = .minimal
  mode : t.fld F.BOOT_STATUS.MODE = 2
  cause : t.fld F.BOOT_CAUSE.KIND = kind
  log : t.bt.stateLog = s.bt.stateLog

/-- What BOOT_STATUS and BOOT_CAUSE say of a minimal mode that no part's loss has caused. -/
def State.showMinimal (s : State) (kind noHbm stack : Nat) : State :=
  (((((s.setFld F.BOOT_STATUS.MODE 2).setFld F.BOOT_STATUS.MIN_NO_HBM noHbm).setFld F.BOOT_STATUS.MIN_STACK stack).setFld
    F.BOOT_CAUSE.KIND kind).setFld F.BOOT_CAUSE.PART 0).setFld F.BOOT_CAUSE.INSTANCE 0

/-- The entry without an interrupt: the boot page shows it, and the link takes its minimal form. -/
theorem State.enterMinimal_eq (s : State) {kind : Nat} (hk : kind ≠ 3) :
    ∃ (u : State) (noHbm stack : Nat), u.tm.power = .minimal ∧ u.bt = s.bt ∧
      s.enterMinimal kind 0 0 = (u.showMinimal kind noHbm stack).minimalLink := by
  unfold State.enterMinimal
  simp only [if_neg hk]
  refine ⟨_, _, _, ?_, ?_, rfl⟩
  · rfl
  · exact s.stopByReset_bt

theorem State.enterMinimal_entered (s : State) {kind : Nat} (hk : kind < 3) :
    EnteredMinimal s (s.enterMinimal kind 0 0) kind := by
  obtain ⟨u, noHbm, stack, power, boot, shown⟩ := s.enterMinimal_eq (show kind ≠ 3 by omega)
  have kept : BootKept (u.showMinimal kind noHbm stack) (s.enterMinimal kind 0 0) := by
    rw [shown]
    exact (BootKept.refl _).minimalLink
  constructor
  case power => exact (congrArg Tm.power kept.time).trans power
  case mode =>
    rw [kept.fld F.BOOT_STATUS.MODE (by decide), State.showMinimal]
    simp (disch := decide) only [State.fld_setFld_other, State.fld_setFld]
    rfl
  case cause =>
    rw [kept.fld F.BOOT_CAUSE.KIND (by decide), State.showMinimal]
    simp (disch := decide) only [State.fld_setFld_other, State.fld_setFld]
    exact Nat.mod_eq_of_lt (show kind < 4 by omega)
  case log => exact congrArg Bt.stateLog (kept.boot.trans boot)

theorem State.bootMinimal_entered (s : State) {kind : Nat} (hk : kind < 3) : EnteredMinimal s (s.bootMinimal kind) kind := by
  obtain ⟨power, mode, cause, log⟩ := s.enableKcl.enterMinimal_entered hk
  exact ⟨power, mode, cause, log.trans (congrArg Bt.stateLog (BootKept.refl s).enableKcl.boot)⟩

/-- A failed stage that enters minimal mode (R474). -/
theorem State.stageFail_minimal (s : State) {code : Nat} (hc : code = 0x23 ∨ code = 0x31) :
    EnteredMinimal s (s.stageFail code) 2 := by
  have entered := (s.showFails (code :: failedStarts s.bt.stateLog)).bootMinimal_entered (show 2 < 3 by decide)
  rw [State.stageFail, if_pos hc]
  exact ⟨entered.power, entered.mode, entered.cause, entered.log⟩

/-- A start that halts says so, with its code in the log, or with the log left where there is no flash. -/
structure HaltedWith (s t : State) (code : Nat) : Prop where
  power : t.tm.power = .halted
  mode : t.fld F.BOOT_STATUS.MODE = 3
  logged : code ≠ 0x21 → logValue t.bt.stateLog 2 = some (code + 256 * (code / 16))
  unlogged : code = 0x21 → t.bt.stateLog = s.bt.stateLog ∧ t.fld F.BOOT_FAIL.CODE0 = 0x21

/-- Any other failed stage halts (R471). -/
theorem State.stageFail_halted (s : State) {code : Nat} (hc : ¬ (code = 0x23 ∨ code = 0x31)) :
    HaltedWith s (s.stageFail code) code := by
  rw [State.stageFail, if_neg hc]
  by_cases flash : code = 0x21
  case neg =>
    simp only [if_neg flash]
    exact ⟨rfl, State.fld_setFld _ _ _ _ _, fun _ => logValue_appendLog_self _ _ _ _, fun h => absurd h flash⟩
  case pos =>
    subst flash
    refine ⟨rfl, State.fld_setFld _ _ _ _ _, fun h => absurd rfl h, fun _ => ⟨rfl, ?_⟩⟩
    rw [State.fld_setFld_other _ (by decide)]
    change (State.showFails s _).fld F.BOOT_FAIL.CODE0 = 0x21
    unfold State.showFails
    simp (disch := decide) only [State.fld_setFld_other, State.fld_setFld]
    rfl

/-! ## Stages that pass (R468 to R470, R473) -/

/-- A stage done does its work, and the next begins now. -/
theorem State.bootStage_done {s : State} (hp : s.tm.power = .starting) (us : List (Fin 12 × Fin 64)) :
    let t := s.stageWork (s.fld F.BOOT_STATUS.STAGE) us
    s.bootStage (.done us) = { t with bt.stageAt := t.tm.now } := by
  simp [State.bootStage, hp]

/-- Stage `m` begins after `s`: it is shown, its time runs from now, and the device goes on starting. -/
structure StageBegins (s t : State) (m : Nat) : Prop where
  shown : t.fld F.BOOT_STATUS.STAGE = m
  since : t.bt.stageAt = s.tm.now
  time : t.tm = s.tm

/-- So it is where the work of a stage ends by showing the next one, and takes no time. -/
theorem State.bootStage_begins {s u : State} {us : List (Fin 12 × Fin 64)} {m : Nat} (hp : s.tm.power = .starting)
    (work : s.stageWork (s.fld F.BOOT_STATUS.STAGE) us = u.setFld F.BOOT_STATUS.STAGE m) (time : u.tm = s.tm) (hm : m < 16) :
    StageBegins s (s.bootStage (.done us)) m ∧ (s.bootStage (.done us)).bt.stateLog = u.bt.stateLog := by
  rw [State.bootStage_done hp, work]
  exact ⟨⟨(State.fld_setFld _ _ _ _ _).trans (Nat.mod_eq_of_lt hm), congrArg Tm.now time, time⟩, rfl⟩

/-- Stages 0x1, 0x2, 0x5, 0x6, 0x7, and 0x4 with a slot that it accepts, take no time and leave the log. -/
theorem State.stageWork_passes (s : State) {n : Nat} (us : List (Fin 12 × Fin 64))
    (hn : n ∈ [1, 2, 5, 6, 7] ∨ (n = 4 ∧ (s.slotOk s.preferred = true ∨ s.slotOk (1 - s.preferred) = true))) :
    ∃ u : State, s.stageWork n us = u.setFld F.BOOT_STATUS.STAGE (n + 1) ∧ u.tm = s.tm ∧
      u.bt.stateLog = s.bt.stateLog := by
  have applied : s.lcApply.tm = s.tm ∧ s.lcApply.bt.stateLog = s.bt.stateLog := by
    unfold State.lcApply
    split <;> exact ⟨rfl, rfl⟩
  simp only [List.mem_cons, List.not_mem_nil, or_false] at hn
  obtain (rfl | rfl | rfl | rfl | rfl) | ⟨rfl, accepts⟩ := hn
  · exact ⟨_, rfl, applied⟩
  · exact ⟨_, rfl, rfl, rfl⟩
  · exact ⟨_, rfl, rfl, rfl⟩
  · exact ⟨_, rfl, rfl, rfl⟩
  · exact ⟨_, rfl, rfl, rfl⟩
  · refine ⟨s.loadFirmware, ?_, rfl, rfl⟩
    simp only [State.stageWork]
    rw [if_pos (by simpa using accepts)]

/-- A pseudo-channel retired takes no time. -/
theorem State.retire_tm (s : State) (i pc : Nat) : (s.retire i pc).tm = s.tm := by
  by_cases first : (s.stack i).retired = []
  · have failed : StacksKept s (((s.stack i).reads.filter (fun r => r.pc = pc)).foldl (fun s r => s.failRead i r) s) :=
      (StacksKept.refl s).foldl (fun _ r hu => hu.failRead i r) _
    have marked : (s.retireMarks i pc).tm = s.tm := by
      unfold State.retireMarks
      simpa using failed.time
    rw [State.retire_of_none first]
    exact (((StacksKept.refl _).groupsLost _).lose _).time.trans marked
  · by_cases listed : pc ∈ (s.stack i).retired
    · simp [State.retire, listed]
    · rw [State.retire_of_some first listed]
      rfl

theorem State.foldl_retire_tm (s : State) (us : List (Fin 12 × Fin 64)) :
    (us.foldl (fun s u => s.retire u.1 u.2) s).tm = s.tm := by
  induction us generalizing s with
  | nil => rfl
  | cons u r ih => exact (ih _).trans (s.retire_tm _ _)

/-- Stage 0x8 retires what could not be trained, at most one pseudo-channel of a stack. -/
theorem State.stageWork_train (s : State) {us : List (Fin 12 × Fin 64)}
    (once : ∀ i : Fin 12, ((us.filter (fun x => x.1.val = i.val)).map (·.2)).eraseDups.length ≤ 1) :
    s.stageWork 8 us = (us.foldl (fun s u => s.retire u.1 u.2) s).setFld F.BOOT_STATUS.STAGE 9 := by
  have notTwice : (List.range 12).any
      (fun i => decide (1 < ((us.filter (fun u => u.1.val = i)).map (·.2)).eraseDups.length)) = false := by
    simp only [List.any_eq_false, List.mem_range, decide_eq_true_eq, Nat.not_lt]
    exact fun i hi => once ⟨i, hi⟩
  simp only [State.stageWork, notTwice]
  rfl

/-- The last stage makes the device ACTIVE. -/
theorem State.bootStage_last {s : State} (hp : s.tm.power = .starting) (hn : s.fld F.BOOT_STATUS.STAGE = 11)
    (us : List (Fin 12 × Fin 64)) :
    let t := s.bootStage (.done us)
    t.tm.power = .active ∧ t.fld F.BOOT_STATUS.MODE = 1 ∧ t.cnt C.BOOT_DONE_NS = s.tm.now % 2 ^ 64 := by
  let u : State := { s with tm.power := .active }
  let v := (u.setFld F.BOOT_STATUS.MODE 1).setCnt C.BOOT_DONE_NS s.tm.now
  have mode : v.fld F.BOOT_STATUS.MODE = 1 := State.fld_setFld _ _ _ _ _
  have done : v.cnt C.BOOT_DONE_NS = s.tm.now % 2 ^ 64 := State.cnt_setCnt _ _ _ _ _
  have work : s.stageWork 11 us = if v.degraded then (v.setFld F.BOOT_STATUS.DEGRADED 1).raise 0x0C01 1 else v := rfl
  rw [State.bootStage_done hp, hn, work]
  split_ifs
  · exact ⟨rfl, (State.fld_setFld_other _ (by decide)).trans mode, done⟩
  · exact ⟨rfl, mode, done⟩

/-! ## Stages 0x3 and 0x4 (R473, R484) -/

/-- Stage 0x3 raises the failure counter below 3. -/
theorem State.stageWork_count (s : State) (us : List (Fin 12 × Fin 64)) (hk : s.failCount < 3) :
    s.stageWork 3 us = ((s.setFld F.BOOT_STATUS.COUNT (Nat.min 7 s.failCount)).commitState 1 (s.failCount + 1)).setFld
      F.BOOT_STATUS.STAGE 4 := if_neg (Nat.not_le.mpr hk)

/-- At 3 it enters minimal mode. -/
theorem State.stageWork_count_minimal (s : State) (us : List (Fin 12 × Fin 64)) (hk : 3 ≤ s.failCount) :
    EnteredMinimal s (s.stageWork 3 us) 1 := by
  have work : s.stageWork 3 us = (s.setFld F.BOOT_STATUS.COUNT (Nat.min 7 s.failCount)).bootMinimal 1 := if_pos hk
  obtain ⟨power, mode, cause, log⟩ :=
    (s.setFld F.BOOT_STATUS.COUNT (Nat.min 7 s.failCount)).bootMinimal_entered (show 1 < 3 by decide)
  rw [work]
  exact ⟨power, mode, cause, log⟩

theorem State.slotCode_le (s : State) (slot : Nat) : s.slotCode slot ≤ 3 := by
  unfold State.slotCode
  dsimp only
  split_ifs <;> decide

/-- Stage 0x4 fails with the code of the preferred slot where it accepts neither. -/
theorem State.stageWork_noSlot (s : State) (us : List (Fin 12 × Fin 64))
    (no : ¬ (s.slotOk s.preferred = true ∨ s.slotOk (1 - s.preferred) = true)) :
    HaltedWith s (s.stageWork 4 us) (0x40 + s.slotCode s.preferred) := by
  have work : s.stageWork 4 us = s.stageFail (0x40 + s.slotCode s.preferred) := if_neg (by simpa using no)
  rw [work]
  exact s.stageFail_halted (by omega)

/-! ## Stages that fail or are late (R469, R471) -/

theorem State.bootStage_failed {s : State} (hp : s.tm.power = .starting) {d : Fin 15} (h1 : 1 ≤ d.val)
    (hd : d.val ≤ stageCodes (s.fld F.BOOT_STATUS.STAGE)) :
    s.bootStage (.failed d) = s.stageFail (16 * s.fld F.BOOT_STATUS.STAGE + d.val) := by
  simp [State.bootStage, hp, h1, hd]

theorem State.stageTimeout_late {s : State} (hp : s.tm.power = .starting) {ms : Nat}
    (hl : stageLimit (s.fld F.BOOT_STATUS.STAGE) = some ms) (ht : s.bt.stageAt + ms * 1000000 ≤ s.tm.now) :
    s.stageTimeout = s.stageFail (16 * s.fld F.BOOT_STATUS.STAGE + 15) := by
  simp [State.stageTimeout, hp, hl, ht]

/-- The record of a code names its stage too. -/
theorem HaltedWith.logged_stage {s t : State} {n d : Nat} (h : HaltedWith s t (16 * n + d)) (hd : d < 16)
    (hc : 16 * n + d ≠ 0x21) : logValue t.bt.stateLog 2 = some (16 * n + d + 256 * n) := by
  have stage : (16 * n + d) / 16 = n := by omega
  rw [h.logged hc, stage]

/-- Settles O23, stage by stage. A stage that passes is `State.bootStage_begins` of its work; a failed one, of whatever stage,
halts (`State.stageFail_halted`) but for the two codes that enter minimal mode (`State.stageFail_minimal`), where the link's
minimal form, entered last, leaves the boot page alone (`BootKept`). -/
theorem bootStages : Obligations.BootStages := by
  unfold Obligations.BootStages
  intro s hp n accepts
  refine ⟨fun hn us => ?passes, fun hn hk us => ?count, fun hn hk us => ?minimal, fun hn no us => ?noSlot,
    fun hn us once => ?train, fun hn us => ?clear, fun hn up us => ?link, fun hn us => ?last, fun d h1 hd h23 h31 => ?failed,
    fun d h1 hd hc => ?failedMinimal, fun ms hl ht => ?late⟩
  case passes =>
    obtain ⟨u, work, time, log⟩ := s.stageWork_passes us hn
    have short : n + 1 < 16 := by
      simp only [List.mem_cons, List.not_mem_nil, or_false] at hn
      omega
    obtain ⟨begins, logged⟩ := State.bootStage_begins hp work time short
    exact ⟨_, rfl, begins.shown, begins.since, begins.time, logged.trans log⟩
  case count =>
    have work := s.stageWork_count us hk
    rw [← hn] at work
    obtain ⟨begins, logged⟩ := State.bootStage_begins hp work rfl (by decide)
    refine ⟨_, rfl, begins.shown, ?_, begins.time⟩
    rw [State.failCount, logged]
    exact State.commitState_count_failCount _ _
  case minimal =>
    obtain ⟨power, mode, cause, log⟩ := s.stageWork_count_minimal us hk
    refine ⟨_, congrArg Host.Outcome.next (State.bootStage_done hp us), ?_⟩
    rw [show s.fld F.BOOT_STATUS.STAGE = 3 from hn]
    exact ⟨power, mode, cause, congrArg (fun l => (logValue l 1).getD 0) log⟩
  case noSlot =>
    have halted := s.stageWork_noSlot us no
    have code := s.slotCode_le s.preferred
    have logged := HaltedWith.logged_stage (n := 4) halted (by omega) (by omega)
    refine ⟨_, congrArg Host.Outcome.next (State.bootStage_done hp us), ?_⟩
    rw [show s.fld F.BOOT_STATUS.STAGE = 4 from hn]
    exact ⟨halted.power, halted.mode, logged.trans (congrArg some (by omega))⟩
  case train =>
    have work := s.stageWork_train once
    rw [← hn] at work
    obtain ⟨begins, -⟩ := State.bootStage_begins hp work (s.foldl_retire_tm us) (by decide)
    exact ⟨_, rfl, begins.shown, begins.since, begins.time⟩
  case clear =>
    have kept := (BootKept.refl (s.commitState 1 0)).enableKcl
    have work : s.stageWork n us = (s.commitState 1 0).enableKcl.setFld F.BOOT_STATUS.STAGE 10 := by rw [hn]; rfl
    obtain ⟨begins, logged⟩ := State.bootStage_begins hp work kept.time (by decide)
    refine ⟨_, rfl, begins.shown, ?_, begins.time⟩
    rw [State.failCount, logged, kept.boot]
    exact State.commitState_count_failCount _ _
  case link =>
    have work : s.stageWork n us = s.setFld F.BOOT_STATUS.STAGE 11 := by rw [hn]; exact if_pos up
    obtain ⟨begins, -⟩ := State.bootStage_begins hp work rfl (by decide)
    exact ⟨_, rfl, begins.shown, begins.time⟩
  case last => exact ⟨_, rfl, State.bootStage_last hp hn us⟩
  case failed =>
    have halted := s.stageFail_halted (show ¬ (16 * n + d.val = 0x23 ∨ 16 * n + d.val = 0x31) by omega)
    exact ⟨_, congrArg Host.Outcome.next (State.bootStage_failed hp h1 hd), halted.power, halted.mode,
      halted.logged_stage (by omega), halted.unlogged⟩
  case failedMinimal =>
    have entered := s.stageFail_minimal hc
    exact ⟨_, congrArg Host.Outcome.next (State.bootStage_failed hp h1 hd), entered.power, entered.cause, entered.log⟩
  case late =>
    have halted := s.stageFail_halted (show ¬ (16 * n + 15 = 0x23 ∨ 16 * n + 15 = 0x31) by omega)
    exact ⟨_, congrArg Host.Outcome.next (State.stageTimeout_late hp hl ht), halted.power, halted.mode,
      halted.logged_stage (by decide) (by omega)⟩

end Sys2Proof.Machine
end

section
/-! SUPPORT. BOOT_CTRL, SEC_CTRL and the life cycle: what each write and each request leaves in the log and in the fuses (R477,
R485, R490, R494, R495, R499). -/

namespace Sys2Proof.Machine

/-- A write that takes effect is counted, and its operation runs. -/
theorem Writable.opWrite {s : State} {cls inst : Nat} {r : Requester} (hw : Writable s cls inst r) (off v : Nat)
    (op : State → State) : s.opWrite r cls inst off v op = op (s.addCnt C.GL_CNT_REG_WRITES 1) := by
  obtain ⟨powered, served, unlocked⟩ := hw
  exact s.opWrite_effect r cls inst off v op powered served unlocked

/-! ## BOOT_CTRL (R477) -/

/-- CLEAR_COUNT clears the failure counter. -/
theorem bootCtrlClearCount_clears (s : State) (r : Requester) (hw : Writable s 0x0C 0 r) :
    ∃ t, exec (.bootCtrlClearCount r) s = .next t ∧ t.failCount = 0 ∧ t.preferred = s.preferred ∧
      t.bt.fuses = s.bt.fuses ∧ t.rg.fields = s.rg.fields ∧ t = { s with rg := t.rg, bt := t.bt } := by
  refine ⟨(s.addCnt C.GL_CNT_REG_WRITES 1).commitState 1 0,
    congrArg Host.Outcome.next (hw.opWrite _ _ _), State.commitState_count_failCount _ _,
    State.commitState_count_preferred _ _, rfl, rfl, rfl⟩

/-- SET_PREFER names the slot preferred. -/
theorem setPrefer_prefers (s : State) (r : Requester) (slot : Fin 2) (hw : Writable s 0x0C 0 r) :
    ∃ t, exec (.setPrefer r slot) s = .next t ∧ t.preferred = slot.val ∧ t.failCount = s.failCount ∧
      t.bt.fuses = s.bt.fuses ∧ t.rg.fields = s.rg.fields ∧ t = { s with rg := t.rg, bt := t.bt } := by
  refine ⟨(s.addCnt C.GL_CNT_REG_WRITES 1).commitState 3 slot,
    congrArg Host.Outcome.next (hw.opWrite _ _ _), ?_, State.commitState_prefer_failCount _ _,
    rfl, rfl, rfl⟩
  exact (State.commitState_prefer_preferred _ _).trans (Nat.mod_eq_of_lt slot.isLt)

/-! ## SEC_CTRL (R485, R499) -/

/-- COMMIT_SVN changes the SVN of the fuses alone. -/
theorem State.commitSvnOp_eq (s : State) :
    s.commitSvnOp = { s with bt.fuses.svn :=
      (if s.tm.power = .minimal ∨ s.fld F.BOOT_STATUS.FALLBACK = 1 then s.bt.fuses.svn
        else Nat.max s.bt.fuses.svn (Nat.min 64 (s.fld F.BOOT_SVN.SVN))) } := by
  unfold State.commitSvnOp
  split <;> rfl

theorem commitSvn_raises (s : State) (r : Requester) (hw : Writable s 0x0D 0 r) :
    ∃ t, exec (.commitSvn r) s = .next t ∧
      t.bt.fuses.svn = (if s.tm.power = .minimal ∨ s.fld F.BOOT_STATUS.FALLBACK = 1 then s.bt.fuses.svn
        else Nat.max s.bt.fuses.svn (Nat.min 64 (s.fld F.BOOT_SVN.SVN))) ∧
      t.bt.fuses.revoked = s.bt.fuses.revoked ∧ t.bt.fuses.lc = s.bt.fuses.lc ∧ t.rg.fields = s.rg.fields ∧
      t = { s with rg := t.rg, bt.fuses := t.bt.fuses } := by
  refine ⟨(s.addCnt C.GL_CNT_REG_WRITES 1).commitSvnOp,
    congrArg Host.Outcome.next (hw.opWrite _ _ _), ?_⟩
  rw [State.commitSvnOp_eq]
  exact ⟨rfl, rfl, rfl, rfl, rfl⟩

theorem bit_lor_two_pow_self (v i : Nat) : bit (Nat.lor v (2 ^ i)) i = true := by
  have set : (v ||| 2 ^ i).testBit i = true := by simp
  simpa [bit, Nat.testBit_eq_decide_div_mod_eq] using set

theorem bit_lor_two_pow_ne (v : Nat) {i j : Nat} (h : j ≠ i) : bit (Nat.lor v (2 ^ i)) j = bit v j := by
  have same : (v ||| 2 ^ i).testBit j = v.testBit j := by simp [h.symm]
  simpa [bit, Nat.testBit_eq_decide_div_mod_eq] using same

/-- REVOKE changes the revoked key slots alone. -/
theorem State.revokeKeyOp_eq (s : State) (slot : Nat) :
    s.revokeKeyOp slot = { s with bt.fuses.revoked :=
      (if s.bt.fwKey = some slot then s.bt.fuses.revoked else Nat.lor s.bt.fuses.revoked (2 ^ slot)) } := by
  unfold State.revokeKeyOp
  split <;> rfl

theorem secCtrlRevoke_revokes (s : State) (r : Requester) (slot : Fin 4) (hw : Writable s 0x0D 0 r) :
    ∃ t, exec (.secCtrlRevoke r slot) s = .next t ∧
      (s.bt.fwKey ≠ some slot.val → bit t.bt.fuses.revoked slot = true) ∧
      (s.bt.fwKey = some slot.val → t.bt.fuses.revoked = s.bt.fuses.revoked) ∧
      (∀ i, i ≠ slot.val → bit t.bt.fuses.revoked i = bit s.bt.fuses.revoked i) ∧
      t.bt.fuses.svn = s.bt.fuses.svn ∧ t.bt.fuses.lc = s.bt.fuses.lc ∧ t.rg.fields = s.rg.fields ∧
      t = { s with rg := t.rg, bt.fuses := t.bt.fuses } := by
  refine ⟨(s.addCnt C.GL_CNT_REG_WRITES 1).revokeKeyOp slot,
    congrArg Host.Outcome.next (hw.opWrite _ _ _), ?_⟩
  rw [State.revokeKeyOp_eq]
  refine ⟨fun other => ?_, fun running => if_pos running, fun i hi => ?_, rfl, rfl, rfl, rfl⟩
  · exact (congrArg (bit · slot) (if_neg other)).trans (bit_lor_two_pow_self _ _)
  · by_cases running : s.bt.fwKey = some slot.val
    · exact congrArg (bit · i) (if_pos running)
    · exact (congrArg (bit · i) (if_neg running)).trans (bit_lor_two_pow_ne _ hi)

/-! ## Life-cycle requests (R494, R495) -/

/-- The request recorded: LC_STATUS.RESULT 0, and the transition pending in the fuses. -/
theorem State.lcRequestOp_accepted {s : State} {dst : Nat} {token : Option (List Byte)} (hl : s.bt.fuses.lc.length < 16)
    (hp : s.lcPending = none) (ha : lcAllowed s.lcState dst = true)
    (ht : lcNeedsToken s.lcState dst = true → s.tokenOk dst (token.getD []) = true) :
    s.lcRequestOp dst token = { s.setFld F.LC_STATUS.RESULT 0 with
      bt.fuses.lc := s.bt.fuses.lc ++ [{ target := dst, applied := false }] } := by
  have hl : ¬ 16 ≤ s.bt.fuses.lc.length := by omega
  have given : lcNeedsToken s.lcState dst = true → token.getD [] ≠ [] := by
    intro needs missing
    have good := ht needs
    simp [State.tokenOk, missing] at good
  cases needs : lcNeedsToken s.lcState dst with
  | false => simp [State.lcRequestOp, hp, ha, hl, needs]
  | true => simp [State.lcRequestOp, hp, ha, hl, needs, ht needs, given needs]

/-- A request without a token that is not recorded: RESULT says why. -/
theorem State.lcRequestOp_none_refused {s : State} {dst : Nat}
    (h : ¬ (s.lcPending = none ∧ lcAllowed s.lcState dst = true ∧ lcNeedsToken s.lcState dst = false)) :
    s.lcRequestOp dst none = s.setFld F.LC_STATUS.RESULT
      (if s.lcPending ≠ none then 5 else if lcAllowed s.lcState dst = false then 1 else 2) := by
  cases pending : s.lcPending with
  | some x => simp [State.lcRequestOp, pending]
  | none =>
    cases allowed : lcAllowed s.lcState dst with
    | false => simp [State.lcRequestOp, pending, allowed]
    | true =>
      have needs : lcNeedsToken s.lcState dst = true := by simpa [pending, allowed] using h
      simp [State.lcRequestOp, pending, allowed, needs]

/-- LC_GO carries no token. -/
theorem lcGo_answers (s : State) (hl : s.bt.fuses.lc.length < 16) (r : Requester) (hw : Writable s 0x0E 0 r) :
    let dst := s.fld F.LC_TARGET.STATE
    let ok := s.lcPending = none ∧ lcAllowed s.lcState dst = true ∧ lcNeedsToken s.lcState dst = false
    ∃ t, exec (.lcGo r) s = .next t ∧
      (ok → t.fld F.LC_STATUS.RESULT = 0 ∧ t.bt.fuses.lc = s.bt.fuses.lc ++ [{ target := dst, applied := false }]) ∧
      (¬ ok → t.bt.fuses.lc = s.bt.fuses.lc ∧ t.fld F.LC_STATUS.RESULT =
        (if s.lcPending ≠ none then 5 else if lcAllowed s.lcState dst = false then 1 else 2)) ∧
      t.bt.fuses.svn = s.bt.fuses.svn ∧ t.bt.fuses.revoked = s.bt.fuses.revoked ∧
      FieldsBut s t [fieldKey F.LC_STATUS.RESULT 0 0] ∧ t = { s with rg := t.rg, bt.fuses := t.bt.fuses } := by
  intro dst ok
  let u := s.addCnt C.GL_CNT_REG_WRITES 1
  have effect : exec (.lcGo r) s = .next (u.lcRequestOp dst none) :=
    congrArg Host.Outcome.next (hw.opWrite _ _ _)
  have kept (v : Nat) : FieldsBut s (u.setFld F.LC_STATUS.RESULT v) [fieldKey F.LC_STATUS.RESULT 0 0] :=
    FieldsBut.setFld (FieldsBut.refl s _) (List.mem_singleton_self _)
  refine ⟨_, effect, ?_⟩
  by_cases h : ok
  · obtain ⟨pending, allowed, noToken⟩ := id h
    have needs : lcNeedsToken s.lcState dst = true → u.tokenOk dst [] = true := by simp [noToken]
    rw [State.lcRequestOp_accepted (s := u) (token := none) hl pending allowed needs]
    exact ⟨fun _ => ⟨State.fld_setFld _ _ _ _ _, rfl⟩, fun no => absurd h no, rfl, rfl, kept 0, rfl⟩
  · rw [State.lcRequestOp_none_refused (s := u) h]
    refine ⟨fun yes => absurd yes h, fun _ => ⟨rfl, ?_⟩, rfl, rfl, kept _, rfl⟩
    refine (State.fld_setFld _ _ _ _ _).trans (Nat.mod_eq_of_lt ?_)
    change (if s.lcPending ≠ none then 5 else if lcAllowed s.lcState dst = false then 1 else 2) < 2 ^ 4
    split_ifs <;> decide

/-- A management message is served: counted, and answered with what its operation gives. -/
theorem State.onI3c_served {s : State} (code : Nat) (op : State → State × Reply) (h : s.mgmtServes = true) :
    let x := op (s.addCnt C.MG_CNT_I3C_MSGS 1)
    s.onI3c code op = x.1.emit (.mgmt code x.2.status x.2.data) := by
  have awake : ¬ (s.tm.power = .off ∨ s.tm.power = .halted) := by
    rintro (off | off) <;> simp [State.mgmtServes, off] at h
  have serves : (s.addCnt C.MG_CNT_I3C_MSGS 1).mgmtServes = true := h
  simp [State.onI3c, awake, serves]

/-- LC_REQUEST with a good token. -/
theorem lcRequest_records (s : State) (hl : s.bt.fuses.lc.length < 16) (dst : Fin 8) (token : List Byte)
    (hm : s.mgmtServes = true) (hp : s.lcPending = none) (ha : lcAllowed s.lcState dst = true)
    (ht : s.tokenOk dst token = true) :
    ∃ t, exec (.lcRequest dst token) s = .next t ∧ .mgmt 5 0 [0] ∈ t.hl.out ∧ t.fld F.LC_STATUS.RESULT = 0 ∧
      t.bt.fuses.lc = s.bt.fuses.lc ++ [{ target := dst, applied := false }] := by
  let u := s.addCnt C.MG_CNT_I3C_MSGS 1
  have recorded := State.lcRequestOp_accepted (s := u) (token := some token) hl hp ha (fun _ => ht)
  have result : (u.lcRequestOp dst (some token)).fld F.LC_STATUS.RESULT = 0 := by
    rw [recorded]
    exact State.fld_setFld _ _ _ _ _
  have reply : u.lcReply dst token = (u.lcRequestOp dst (some token), { status := 0, data := [0] }) := by
    unfold State.lcReply
    simp only [result]
    rfl
  have served := State.onI3c_served 5 (fun s => s.lcReply dst token) hm
  simp only [reply, u] at served
  refine ⟨_, congrArg Host.Outcome.next served, by simp, ?_, ?_⟩
  · simpa [State.fld] using result
  · rw [State.emit_bt, recorded]
    rfl

/-- Settles O24, each command by its clause above. -/
theorem bootAndLifeCycle : Obligations.BootAndLifeCycle := by
  unfold Obligations.BootAndLifeCycle
  refine ⟨fun s r => ⟨fun hw => ?bootCtrl, fun hw => ?secCtrl⟩, fun s hl => ⟨?lcGo, ?lcRequest⟩⟩
  case bootCtrl => exact ⟨bootCtrlClearCount_clears s r hw, fun slot => setPrefer_prefers s r slot hw⟩
  case secCtrl => exact ⟨commitSvn_raises s r hw, fun slot => secCtrlRevoke_revokes s r slot hw⟩
  case lcGo => exact fun r hw => lcGo_answers s hl r hw
  case lcRequest => exact fun dst token hm hp ha _ ht => lcRequest_records s hl dst token hm hp ha ht

end Sys2Proof.Machine
end

section
/-! SUPPORT. What a change of power leaves: the state of power-on reset but for what outlives the loss of power (R457, R460,
R565). -/

namespace Sys2Proof.Machine

/-! ## What is lost -/

@[simp] theorem State.afterPower_tm (s : State) (p : Power) : (s.afterPower p).tm = { power := p } := rfl
@[simp] theorem State.afterPower_rg (s : State) (p : Power) : (s.afterPower p).rg = {} := rfl
@[simp] theorem State.afterPower_mm (s : State) (p : Power) : (s.afterPower p).mm = {} := rfl
@[simp] theorem State.afterPower_cq (s : State) (p : Power) : (s.afterPower p).cq = {} := rfl
@[simp] theorem State.afterPower_tl (s : State) (p : Power) : (s.afterPower p).tl = {} := rfl
@[simp] theorem State.afterPower_hwr (s : State) (p : Power) : (s.afterPower p).hl.hwr = [] := rfl
@[simp] theorem State.afterPower_signNext (s : State) (p : Power) : (s.afterPower p).bt.sign.next = none := rfl

/-! ## What stays -/

@[simp] theorem State.afterPower_fuses (s : State) (p : Power) : (s.afterPower p).bt.fuses = s.bt.fuses := rfl
@[simp] theorem State.afterPower_flash (s : State) (p : Power) : (s.afterPower p).bt.flash = s.bt.flash := rfl
@[simp] theorem State.afterPower_stateLog (s : State) (p : Power) : (s.afterPower p).bt.stateLog = s.bt.stateLog := rfl
@[simp] theorem State.afterPower_resLog (s : State) (p : Power) : (s.afterPower p).bt.resLog = s.bt.resLog := rfl
@[simp] theorem State.afterPower_pending (s : State) (p : Power) : (s.afterPower p).pending = s.pending := rfl

/-! ## PWR_OK -/

/-- A device that is off starts, with the straps and the static address they give. -/
theorem State.pwrOk_of_off {s : State} (off : s.tm.power = .off) (straps : Nat) :
    s.pwrOk straps = ({ s.afterPower .starting with tm.straps := straps } : State).setFld F.MG_CFG.STATIC_ADDR
      (0x40 + straps) :=
  if_neg (not_not_intro off)

/-- The static address of four straps fits its field. -/
theorem State.fld_setFld_staticAddr (s : State) (straps : Fin 16) :
    (s.setFld F.MG_CFG.STATIC_ADDR (0x40 + straps)).fld F.MG_CFG.STATIC_ADDR = 0x40 + straps.val := by
  have fits : 0x40 + straps.val < 2 ^ F.MG_CFG.STATIC_ADDR.width :=
    calc 0x40 + straps.val < 2 ^ 7 := by omega
      _ = 2 ^ F.MG_CFG.STATIC_ADDR.width := rfl
  rw [State.fld_setFld, Nat.mod_eq_of_lt fits]

/-- PWR_OK on a device that is off: but for the static address, every field reads as it does at reset, for both hold an
empty window of registers. -/
theorem pwrOk_starts (s : State) (straps : Fin 16) (off : s.tm.power = .off) :
    ∃ t, exec (.pwrOk straps) s = .next t ∧ t.tm.power = .starting ∧ t.tm.now = 0 ∧ t.tm.straps = straps.val ∧
      t.fld F.MG_CFG.STATIC_ADDR = 0x40 + straps.val ∧ FieldsBut State.reset t [fieldKey F.MG_CFG.STATIC_ADDR 0 0] ∧
      t.mm = {} ∧ t.cq = {} ∧ t.tl = {} ∧ t.hl.hwr = [] ∧ t.bt.fuses = s.bt.fuses ∧ t.bt.flash = s.bt.flash ∧
      t.bt.stateLog = s.bt.stateLog ∧ t.bt.resLog = s.bt.resLog ∧ t.pending = s.pending := by
  let u : State := { s.afterPower .starting with tm.straps := straps.val }
  have registers : FieldsBut State.reset u [fieldKey F.MG_CFG.STATIC_ADDR 0 0] := FieldsBut.refl State.reset _
  refine ⟨u.setFld F.MG_CFG.STATIC_ADDR (0x40 + straps), congrArg Host.Outcome.next (State.pwrOk_of_off off straps),
    rfl, rfl, rfl, u.fld_setFld_staticAddr straps, registers.setFld (List.mem_singleton_self _), ?_⟩
  simp [u]

/-! ## The loss of power -/

/-- A loss of power stops the device, whatever state it is in. -/
theorem powerLoss_stops (s : State) :
    ∃ t, exec .powerLoss s = .next t ∧ t.tm.power = .off ∧ t.rg = {} ∧ t.mm = {} ∧ t.cq = {} ∧ t.tl = {} ∧ t.hl.hwr = [] ∧
      t.bt.fuses = s.bt.fuses ∧ t.bt.flash = s.bt.flash ∧ t.bt.stateLog = s.bt.stateLog ∧ t.bt.resLog = s.bt.resLog ∧
      t.bt.sign.next = none ∧ t.pending = s.pending := by
  refine ⟨s.afterPower .off, rfl, ?_⟩
  simp

/-- Settles O22: PWR_OK and the loss of power, each by its rule above. -/
theorem powerCycle : Obligations.PowerCycle := by
  unfold Obligations.PowerCycle
  exact fun s => ⟨fun straps off => pwrOk_starts s straps off, powerLoss_stops s⟩

end Sys2Proof.Machine
end


section
/-! SUPPORT. What every command keeps: the queue behind it, the fuses burnt, and the canonical form of device memory
and of the shared cache. -/

-- The rules below are many and small: checked one after another they need few threads.
set_option Elab.async false

namespace Sys2Proof.Machine

/-! ## The relation -/

/-- From fuses `a` to fuses `b` nothing is taken back: the SVN does not fall, a revoked key slot stays revoked, and the
life-cycle records stand in their order, an applied one applied (R485, R494, R495, R499). -/
structure Fuses.Burn (a b : Fuses) : Prop where
  svn : a.svn ≤ b.svn
  revoked : ∀ i, bit a.revoked i = true → bit b.revoked i = true
  lc : ∀ (i : Nat) (r : LcRec), a.lc[i]? = some r →
    ∃ x, b.lc[i]? = some x ∧ x.target = r.target ∧ (r.applied = true → x.applied = true)

theorem Fuses.Burn.refl (a : Fuses) : a.Burn a := ⟨le_rfl, fun _ h => h, fun _ r h => ⟨r, h, rfl, id⟩⟩

theorem Fuses.Burn.trans {a b c : Fuses} (h : a.Burn b) (h' : b.Burn c) : a.Burn c where
  svn := h.svn.trans h'.svn
  revoked i hi := h'.revoked i (h.revoked i hi)
  lc i r hr := by
    obtain ⟨x, hx, xt, xa⟩ := h.lc i r hr
    obtain ⟨y, hy, yt, ya⟩ := h'.lc i x hx
    exact ⟨y, hy, yt.trans xt, fun ha => ya (xa ha)⟩

/-- Device memory and the shared cache are in canonical form. -/
def Mm.Canonical (m : Mm) : Prop := Memory.wf m.dev = true ∧ Memory.wf m.shared = true

/-- From `s` to `t` the queue of commands stays, fuses only burn, and stores in canonical form stay in it. -/
structure StepKept (s t : State) : Prop where
  queue : t.pending = s.pending
  fuses : s.bt.fuses.Burn t.bt.fuses
  memory : s.mm.Canonical → t.mm.Canonical

namespace StepKept

/-! The relation holds of a state and itself, and each rule below carries it over one more update of the later state. -/

theorem refl (s : State) : StepKept s s := ⟨rfl, .refl _, id⟩

theorem trans {s t u : State} (h : StepKept s t) (h' : StepKept t u) : StepKept s u :=
  ⟨h'.queue.trans h.queue, h.fuses.trans h'.fuses, fun m => h'.memory (h.memory m)⟩

variable {s t : State}

/-- An update of other parts of the state. -/
theorem same (h : StepKept s t) {u : State} (queue : u.pending = t.pending := by rfl)
    (fuses : u.bt.fuses = t.bt.fuses := by rfl) (dev : u.mm.dev = t.mm.dev := by rfl)
    (shared : u.mm.shared = t.mm.shared := by rfl) : StepKept s u where
  queue := queue.trans h.queue
  fuses := fuses ▸ h.fuses
  memory m := by
    unfold Mm.Canonical
    rw [dev, shared]
    exact h.memory m

/-- An update of the stores that keeps their canonical form. -/
theorem stores (h : StepKept s t) {u : State} (memory : t.mm.Canonical → u.mm.Canonical)
    (queue : u.pending = t.pending := by rfl) (fuses : u.bt.fuses = t.bt.fuses := by rfl) : StepKept s u where
  queue := queue.trans h.queue
  fuses := fuses ▸ h.fuses
  memory m := memory (h.memory m)

theorem either {c : Prop} [Decidable c] {a b : State} (ha : StepKept s a) (hb : StepKept s b) :
    StepKept s (if c then a else b) := by
  split
  · exact ha
  · exact hb

theorem foldl (h : StepKept s t) {α : Type} {f : State → α → State}
    (step : ∀ u x, StepKept s u → StepKept s (f u x)) {l : List α} : StepKept s (l.foldl f t) := by
  induction l generalizing t with
  | nil => exact h
  | cons x r ih => exact ih (step t x h)

theorem setModule (h : StepKept s t) {n : Nat} {x : Module} : StepKept s (t.setModule n x) := h.same

theorem raise (h : StepKept s t) {code sev inst unit ctx q cmd detail : Nat} :
    StepKept s (t.raise code sev inst unit ctx q cmd detail) :=
  h.same

theorem cisWorn (h : StepKept s t) {m : Nat} : StepKept s (t.cisWorn m) := h.setModule.raise

theorem setFld (h : StepKept s t) {f : Field} {v inst bank : Nat} : StepKept s (t.setFld f v inst bank) := h.same

theorem addSlot (h : StepKept s t) {cls inst n k : Nat} : StepKept s (t.addSlot cls inst n k) := h.same

theorem setPort (h : StepKept s t) {p : Nat} {x : Port} : StepKept s (t.setPort p x) := h.same

theorem sendPort (h : StepKept s t) {p : Nat} : StepKept s (t.sendPort p) := either h.setPort.addSlot h

theorem emit (h : StepKept s t) {o : Out} : StepKept s (t.emit o) := by
  unfold State.emit
  extract_lets _ u1
  have hu1 : StepKept s u1 := h.same
  split
  · extract_lets
    exact hu1.setPort.sendPort
  · exact hu1

theorem intr (h : StepKept s t) {vector source : Nat} : StepKept s (t.intr vector source) := h.emit

theorem blockIntr (h : StepKept s t) {cls inst : Nat} : StepKept s (t.blockIntr cls inst) := h.intr.addSlot

theorem setInt (h : StepKept s t) {f : Field} {inst : Nat} : StepKept s (t.setInt f inst) := by
  unfold State.setInt
  extract_lets _ u1
  have hu1 : StepKept s u1 := h.setFld
  exact either hu1.blockIntr hu1

theorem cisOpDone (h : StepKept s t) {m result : Nat} : StepKept s (t.cisOpDone m result) := h.setFld.setFld.setInt

theorem cisReq (h : StepKept s t) {m : Nat} {what : CisFor} {o : Nat → Out} : StepKept s (t.cisReq m what o) :=
  h.setModule.emit

theorem setCnt (h : StepKept s t) {c : Cnt} {v inst bank : Nat} : StepKept s (t.setCnt c v inst bank) := h.same

theorem addCnt (h : StepKept s t) {c : Cnt} {n inst bank : Nat} : StepKept s (t.addCnt c n inst bank) := h.setCnt

theorem cisWrite (h : StepKept s t) {m block : Nat} {data : List Byte} {what : CisFor} :
    StepKept s (t.cisWrite m block data what) :=
  h.cisReq.addCnt.addSlot

theorem cisFlush (h : StepKept s t) {m : Nat} {what : CisFor} : StepKept s (t.cisFlush m what) := h.cisReq

theorem commitData (h : StepKept s t) {c : Cmd} {m sent : Nat} : StepKept s (t.commitData c m sent) := by
  unfold State.commitData
  split
  · exact h
  · split
    · extract_lets
      exact h.cisWrite
    · exact h.cisFlush

theorem commitRecord (h : StepKept s t) {c : Cmd} {m : Nat} : StepKept s (t.commitRecord c m) := by
  unfold State.commitRecord
  split
  · exact h
  · extract_lets
    exact h.cisWrite

theorem recallLine (h : StepKept s t) {line : Nat} {w : List RecallWait} : StepKept s (t.recall line w) :=
  either h.same h.same.emit.addCnt

theorem pins (h : StepKept s t) {a : Nat} {write : Bool} {n : Nat} : StepKept s (t.pins a write n) := h.addSlot

theorem devPut (h : StepKept s t) {a : Nat} {data : List Byte} : StepKept s (t.devPut a data) :=
  h.stores fun m => ⟨wf_wrBytes _ _ m.1, m.2⟩

theorem devWriteLine (h : StepKept s t) {a : Nat} {data : List Byte} : StepKept s (t.devWriteLine a data) :=
  either h.recallLine h.devPut

theorem devWrite (h : StepKept s t) {a : Nat} {data : List Byte} : StepKept s (t.devWrite a data) :=
  h.foldl fun _ _ hu => hu.devWriteLine

theorem traceStore (h : StepKept s t) {r : TraceRec} : StepKept s (t.traceStore r) := by
  refine t.traceStore_cases r _ h.addCnt.setInt h.setFld.setInt.addCnt.setInt (fun a n => ?_)
  have stored : StepKept s (((t.devWrite a (r.bytes t.tm.now)).addCnt C.TRC_WR 32).addCnt C.TRC_CNT_RECORDS 1) :=
    h.devWrite.addCnt.addCnt
  exact stored.same

theorem traceOwed (h : StepKept s t) : StepKept s t.traceOwed := either h.traceStore.same h

theorem traceDrop (h : StepKept s t) : StepKept s t.traceDrop := h.addCnt.setInt.same

theorem traceBudgeted (h : StepKept s t) {r' : TraceRec} : StepKept s (t.traceBudgeted r') := by
  unfold State.traceBudgeted
  extract_lets u1
  have hu1 : StepKept s u1 := h.traceOwed
  exact either hu1.traceDrop hu1.traceStore

theorem takeStop (h : StepKept s t) {cause : Nat} : StepKept s (t.takeStop cause) := by
  unfold State.takeStop
  split
  · exact h.setFld
  · extract_lets u1 u2
    have hu1 : StepKept s u1 := h.setFld.setFld.setFld
    have hu2 : StepKept s u2 := hu1.setFld.setCnt
    exact hu2.same

theorem traceTrigger (h : StepKept s t) {r' : TraceRec} : StepKept s (t.traceTrigger r') := by
  unfold State.traceTrigger
  split
  · extract_lets u1
    have hu1 : StepKept s u1 := h.setFld.setInt
    exact either hu1.takeStop hu1
  · exact h

theorem trace (h : StepKept s t) {r' : TraceRec} : StepKept s (t.trace r') := either h.traceTrigger.traceBudgeted h

theorem setCtx (h : StepKept s t) {n : Nat} {x : Ctx} : StepKept s (t.setCtx n x) := h.same

theorem ctxTo (h : StepKept s t) {ctx : Nat} {st : CtxSt} : StepKept s (t.ctxTo ctx st) := h.setCtx

theorem yieldEnds (h : StepKept s t) {ctx : Nat} : StepKept s (t.yieldEnds ctx) := by
  unfold State.yieldEnds
  extract_lets _ u1
  have hu1 : StepKept s u1 := h.trace
  exact either (either hu1.ctxTo hu1.ctxTo) h

theorem ctxAbsent (h : StepKept s t) {ctx : Nat} : StepKept s (t.ctxAbsent ctx) := h.setCtx

theorem settle (h : StepKept s t) {ctx : Nat} : StepKept s (t.settle ctx) := by
  unfold State.settle
  extract_lets u1
  have hu1 : StepKept s u1 := h.yieldEnds
  split
  · exact either hu1 hu1.ctxAbsent
  · split
    · exact either hu1.ctxTo hu1
    · exact either (either hu1.ctxTo hu1.ctxTo) hu1
    · exact either hu1 hu1.ctxTo
    · exact either hu1 hu1.ctxTo
    · exact hu1

theorem setCmd (h : StepKept s t) {c : Cmd} : StepKept s (t.setCmd c) := h.same

theorem cisRead (h : StepKept s t) {m block : Nat} {what : CisFor} : StepKept s (t.cisRead m block what) := h.cisReq

theorem commitNext (h : StepKept s t) {c : Cmd} : StepKept s (t.commitNext c) := by
  unfold State.commitNext
  split
  · exact h.setCmd.settle
  · split
    · exact h
    · extract_lets
      exact either h h.cisRead

theorem cisNextCommit (h : StepKept s t) {m : Nat} : StepKept s (t.cisNextCommit m) := by
  unfold State.cisNextCommit
  split
  · exact h.commitNext
  · exact h

theorem commitEnd (h : StepKept s t) {c : Cmd} {m : Nat} : StepKept s (t.commitEnd c m) := by
  unfold State.commitEnd
  split
  · exact h
  · extract_lets _ _ _ u1 u2 _ _ u3
    have hu1 : StepKept s u1 := h.setModule
    have hu2 : StepKept s u2 := hu1.setCnt.addCnt
    have hu3 : StepKept s u3 := hu2.setCmd.commitNext
    exact either hu3 hu3.cisNextCommit

theorem cisTrim (h : StepKept s t) {m block n : Nat} {what : CisFor} : StepKept s (t.cisTrim m block n what) :=
  h.cisReq

theorem formatFrom (h : StepKept s t) {m block : Nat} : StepKept s (t.formatFrom m block) :=
  either h.cisTrim h.setModule.cisWrite

theorem formatEnd (h : StepKept s t) {m : Nat} : StepKept s (t.formatEnd m) := h.setModule.setCnt.cisOpDone

theorem cisAttach (h : StepKept s t) {m : Nat} : StepKept s (t.cisAttach m) := either h.setModule.cisReq.cisRead h

theorem cisDrained (h : StepKept s t) {m : Nat} : StepKept s (t.cisDrained m) := either h.setModule.cisAttach h

theorem cisMedia (h : StepKept s t) {m : Nat} {c : Option Cmd} : StepKept s (t.cisMedia m c) := h.addCnt.raise

theorem cisAttached (h : StepKept s t) {m : Nat} {x : Module} {st : Nat} : StepKept s (t.cisAttached m x st) :=
  h.setModule.setInt

theorem cisScan (h : StepKept s t) {m block : Nat} : StepKept s (t.cisScan m block) :=
  either h.cisRead h.setCnt.cisAttached

theorem cisKnown (h : StepKept s t) {m : Nat} : StepKept s (t.cisKnown m) :=
  either h (either h.cisAttached (either h.cisAttached h.setModule.cisScan))

theorem setCore (h : StepKept s t) {n : Nat} {x : Core} : StepKept s (t.setCore n x) := h.same

theorem freeCore (h : StepKept s t) {c : Nat} : StepKept s (t.freeCore c) := h.setCore

theorem setClk (h : StepKept s t) {n : Nat} {x : Clk} : StepKept s (t.setClk n x) := h.same

theorem idleNow (h : StepKept s t) {cl : Nat} : StepKept s (t.idleNow cl) := either h.setClk h

theorem clearClusters (h : StepKept s t) {q seq : Nat} : StepKept s (t.clearClusters q seq) :=
  h.same.foldl fun _ _ hu => hu.idleNow

theorem releaseWork (h : StepKept s t) {q seq : Nat} : StepKept s (t.releaseWork q seq) :=
  (h.foldl (fun _ _ hu => hu.freeCore)).clearClusters.same

theorem setPageCount (h : StepKept s t) {p n : Nat} : StepKept s (t.setPageCount p n) := h.same

theorem setObjCount (h : StepKept s t) {o : Obj} {n : Nat} : StepKept s (t.setObjCount o n) := by
  unfold State.setObjCount
  split
  · exact h.setPageCount
  · extract_lets
    exact h.same

theorem writePageRecord (h : StepKept s t) {p : Nat} : StepKept s (t.writePageRecord p) := h.devWrite

theorem unstage (h : StepKept s t) {os : List Obj} : StepKept s (t.unstage os) := by
  unfold State.unstage
  refine h.foldl fun u x hu => ?_
  split
  · extract_lets _ u1 u2
    have hu1 : StepKept s u1 := hu.same
    have hu2 : StepKept s u2 := either hu1.addCnt hu1
    exact hu2.writePageRecord
  · extract_lets
    exact hu.same

theorem hold (h : StepKept s t) {tag : Nat} {o : Obj} : StepKept s (t.hold tag o) := either h.same h.same

theorem applyRef (h : StepKept s t) {u : RefUpd} : StepKept s (t.applyRef u) := by
  unfold State.applyRef
  extract_lets _ _ u1
  have hu1 : StepKept s u1 := h.setObjCount
  exact either hu1.hold hu1

theorem setSeq (h : StepKept s t) {n : Nat} {q : Seq} : StepKept s (t.setSeq n q) := h.same

theorem putSeq (h : StepKept s t) {n : Nat} {q : Seq} : StepKept s (t.putSeq n q) := h.setSeq.devWrite

theorem queueRef (h : StepKept s t) {u : RefUpd} : StepKept s (t.queueRef u) := h.same

theorem dropRefs (h : StepKept s t) {tag : Nat} {os : List Obj} : StepKept s (t.dropRefs tag os) :=
  h.foldl fun _ _ hu => hu.queueRef

theorem swapImage (h : StepKept s t) {n : Nat} {q : Seq} {im : Image} {gone : List Nat} :
    StepKept s (t.swapImage n q im gone) :=
  h.devWrite.putSeq.dropRefs

theorem nextEpoch (h : StepKept s t) : StepKept s t.nextEpoch := h.same.setCnt

theorem newImage (h : StepKept s t) {n : Nat} {q : Seq} {im : Image} {gone : List Nat} :
    StepKept s (t.newImage n q im gone) :=
  h.nextEpoch.swapImage

theorem sealTail (h : StepKept s t) {n : Nat} : StepKept s (t.sealTail n) := either h.newImage h

theorem endAppend (h : StepKept s t) {c : Cmd} : StepKept s (t.endAppend c) :=
  h.foldl fun _ _ hu => either hu.putSeq.sealTail hu

theorem unrelease (h : StepKept s t) {os : List Obj} : StepKept s (t.unrelease os) :=
  h.foldl fun _ _ hu => hu.applyRef.same

theorem discard (h : StepKept s t) {c : Cmd} : StepKept s (t.discard c) :=
  have unstaged := (h.releaseWork.foldl fun _ _ hu => hu.setObjCount).unstage
  (unstaged.foldl fun _ _ hu => hu.applyRef).unrelease.endAppend.addCnt.setCnt.setCmd

theorem disengage (h : StepKept s t) {c : Cmd} : StepKept s (t.disengage c) := h.same

theorem unlockGroups (h : StepKept s t) {q seq : Nat} : StepKept s (t.unlockGroups q seq) := h.same

theorem draw (h : StepKept s t) : StepKept s t.draw.2 := h.same

theorem dropCmd (h : StepKept s t) {q seq : Nat} : StepKept s (t.dropCmd q seq) := h.same

theorem setQueue (h : StepKept s t) {q : Nat} {x : Queue} : StepKept s (t.setQueue q x) := h.same

theorem hwr1 (h : StepKept s t) {what : HwrFor} {p : Nat × List Byte} : StepKept s (t.hwr1 what p) :=
  h.same.emit.addSlot

theorem hwr (h : StepKept s t) {addr : Nat} {data : List Byte} {what : HwrFor} : StepKept s (t.hwr addr data what) :=
  h.foldl fun _ _ hu => hu.hwr1

theorem pumpQueue (h : StepKept s t) {n : Nat} : StepKept s (t.pumpQueue n) := by
  unfold State.pumpQueue
  extract_lets _ u1
  have hu1 : StepKept s u1 := h.setQueue
  split
  · exact h
  · split
    · exact h
    · exact hu1.hwr

theorem due (h : StepKept s t) {n : Nat} {d : Done} : StepKept s (t.due n d) := h.setQueue.pumpQueue

theorem complete (h : StepKept s t) {c : Cmd} {status result : Nat} : StepKept s (t.complete c status result) := by
  unfold State.complete
  extract_lets u1 _ u2 u3 u4 u5 u6 u7
  have hu1 : StepKept s u1 := h.releaseWork.unlockGroups
  have hu2 : StepKept s u2 := hu1.draw
  have hu3 : StepKept s u3 := hu2.dropCmd
  have hu4 : StepKept s u4 := either hu3.addCnt.addCnt hu3.addCnt
  have hu5 : StepKept s u5 := either hu4.addCnt hu4
  have hu6 : StepKept s u6 := hu5.trace
  have hu7 : StepKept s u7 := hu6.due
  exact hu7.settle

theorem noEffect (h : StepKept s t) {c : Cmd} {status : Nat} : StepKept s (t.noEffect c status) := by
  unfold State.noEffect
  extract_lets _ u1
  have hu1 : StepKept s u1 := h.disengage.discard
  split
  · exact hu1.complete
  · exact hu1

theorem lostInput (h : StepKept s t) {c : Cmd} : StepKept s (t.lostInput c) := h.raise.noEffect

theorem cisReadRange (h : StepKept s t) {c : Cmd} {a n : Nat} : StepKept s (t.cisReadRange c a n) := by
  unfold State.cisReadRange
  split
  · exact h
  · exact either h h.cisRead

theorem readCisterns (h : StepKept s t) {c : Cmd} : StepKept s (t.readCisterns c) :=
  h.foldl fun _ _ hu => either hu.cisReadRange hu

theorem countRead (h : StepKept s t) {home a n : Nat} : StepKept s (t.countRead home a n) := by
  unfold State.countRead
  split
  · exact h.pins
  · exact h.addSlot
  · exact h

theorem homeWrite (h : StepKept s t) {home a : Nat} {data : List Byte} : StepKept s (t.homeWrite home a data) := by
  unfold State.homeWrite
  split
  · exact h.devWrite
  · exact h.stores fun m => ⟨m.1, wf_wrBytes _ _ m.2⟩
  · exact h

theorem outputsDone (h : StepKept s t) {c : Cmd} : StepKept s (t.outputsDone c) := h.setCmd.commitNext

theorem addRefs (h : StepKept s t) {os : List Obj} {n : Nat} : StepKept s (t.addRefs os n) :=
  h.foldl fun _ _ hu => hu.applyRef

theorem stagedNow (h : StepKept s t) {c : Cmd} : StepKept s (t.stagedNow c) := h.setCmd.settle

theorem forkWork (h : StepKept s t) {c : Cmd} : StepKept s (t.forkWork c) := h.addRefs.stagedNow

theorem pruneWork (h : StepKept s t) {c : Cmd} : StepKept s (t.pruneWork c) :=
  either h (either h.lostInput h.stagedNow)

theorem catChecked (h : StepKept s t) {c : Cmd} {m block : Nat} {b : List Byte} :
    StepKept s (t.catChecked c m block b) :=
  either h.setInt.raise.noEffect.cisNextCommit h.commitData

theorem answer (h : StepKept s t) {p : Pkt} {status : Nat} : StepKept s (t.answer p status) := h.emit

theorem answerData (h : StepKept s t) {p : Pkt} {status : Nat} {data : List Byte} :
    StepKept s (t.answerData p status data) :=
  h.emit.addSlot

theorem dropLine (h : StepKept s t) {line : Nat} : StepKept s (t.dropLine line) := h.same

theorem setPoison (h : StepKept s t) {a n : Nat} : StepKept s (t.setPoison a n) := h.same

theorem countIn (h : StepKept s t) {p : Pkt} : StepKept s (t.countIn p) := h.addSlot

theorem memWrite (h : StepKept s t) {p : Pkt} : StepKept s (t.memWrite p) := by
  unfold State.memWrite
  extract_lets u1 u2 u3
  have hu1 : StepKept s u1 := h.foldl fun _ _ hu => hu.dropLine
  have hu2 : StepKept s u2 := hu1.devPut
  have hu3 : StepKept s u3 := either hu2.setPoison hu2
  exact hu3.countIn.answer

theorem memBack (h : StepKept s t) {p : Pkt} : StepKept s (t.memBack p) := by
  unfold State.memBack
  split
  · extract_lets u1 u2
    have hu1 : StepKept s u1 := h.dropLine.devPut
    have hu2 : StepKept s u2 := either hu1.setPoison hu1
    exact hu2.countIn.answer
  · exact h.answer

theorem readAnswer (h : StepKept s t) {p : Pkt} : StepKept s (t.readAnswer p) := h.pins.answerData

theorem grantLine (h : StepKept s t) {line : Nat} {modified : Bool} : StepKept s (t.grantLine line modified) :=
  either h.same h.same

theorem memRead (h : StepKept s t) {p : Pkt} : StepKept s (t.memRead p) := by
  unfold State.memRead
  split
  · exact h.recallLine.foldl fun _ _ hu => hu.recallLine
  · extract_lets
    split
    · exact h.readAnswer
    · split
      · exact h.recallLine
      · exact h.readAnswer.grantLine

theorem memAccess (h : StepKept s t) {p : Pkt} : StepKept s (t.memAccess p) :=
  either (either h (either h.answer h.answerData)) (either h.memWrite (either h.memBack (either h.dropLine h.memRead)))

theorem readEffect (h : StepKept s t) {off : Nat} : StepKept s (t.readEffect off) :=
  either h.setFld (either h.setFld h)

theorem pktBad (h : StepKept s t) {p : Pkt} : StepKept s (t.pktBad p) := either h (either h.answer h.answerData)

theorem takeLock (h : StepKept s t) {cls inst : Nat} {r' : Requester} : StepKept s (t.takeLock cls inst r') :=
  either h.setFld h

theorem giveLock (h : StepKept s t) {cls inst : Nat} {r' : Requester} : StepKept s (t.giveLock cls inst r') :=
  either h.setFld h

theorem lockWrite (h : StepKept s t) {cls inst : Nat} {r' : Requester} {v : Nat} :
    StepKept s (t.lockWrite cls inst r' v) := by
  unfold State.lockWrite
  extract_lets u1
  have hu1 : StepKept s u1 := either h.takeLock h
  exact either hu1.giveLock hu1

theorem lockAbort (h : StepKept s t) {cls inst : Nat} : StepKept s (t.lockAbort cls inst) := h.setFld.addSlot

theorem holdField (h : StepKept s t) {f : Field} {inst bank v : Nat} : StepKept s (t.holdField f inst bank v) :=
  h.same

theorem takeField (h : StepKept s t) {f : Field} {inst bank v : Nat} : StepKept s (t.takeField f inst bank v) := by
  unfold State.takeField
  extract_lets u1
  have hu1 : StepKept s u1 := h.setFld
  exact hu1.same

theorem reject (h : StepKept s t) {cls inst : Nat} : StepKept s (t.reject cls inst) := h.setFld.addSlot

theorem snap (h : StepKept s t) {cls inst : Nat} : StepKept s (t.snap cls inst) :=
  (h.foldl (fun _ _ hu => hu.same)).setCnt

theorem pgErrFirstClearOp (h : StepKept s t) {cls inst : Nat} : StepKept s (t.pgErrFirstClearOp cls inst) :=
  h.setFld.setFld.setFld.setFld

theorem applyField (h : StepKept s t) {f : Field} {inst bank : Nat} : StepKept s (t.applyField f inst bank) := by
  unfold State.applyField
  split
  · exact h
  · extract_lets u1
    have hu1 : StepKept s u1 := h.setFld
    exact hu1.same

theorem applyHeld (h : StepKept s t) {sel : KeyParts → Bool} : StepKept s (t.applyHeld sel) := by
  unfold State.applyHeld
  refine h.foldl fun u x hu => ?_
  extract_lets
  split
  · exact either hu.applyField hu
  · exact hu

theorem pgApply (h : StepKept s t) {cls inst : Nat} : StepKept s (t.pgApply cls inst) := h.applyHeld

theorem setCoreFld (h : StepKept s t) {f : Field} {c v : Nat} : StepKept s (t.setCoreFld f c v) := h.setFld

theorem coreTest (h : StepKept s t) {core : Nat} : StepKept s (t.coreTest core) :=
  either h.reject h.setCoreFld.setCoreFld

theorem schedCfgWrite (h : StepKept s t) {v : Nat} : StepKept s (t.schedCfgWrite v) :=
  either h (either (either h.setFld h.reject) (either h.setFld h.reject))

theorem ctxResult (h : StepKept s t) {v : Nat} : StepKept s (t.ctxResult v) := h.setFld

theorem createOp (h : StepKept s t) : StepKept s t.createOp := either h.ctxResult h.setCtx.ctxResult

theorem setGroup (h : StepKept s t) {g : Nat} {x : Group} : StepKept s (t.setGroup g x) := h.same

theorem dropEdits (h : StepKept s t) {k : Nat} : StepKept s (t.dropEdits k) := h.setGroup

theorem putBranch (h : StepKept s t) {k : Nat} {b : Branch} : StepKept s (t.putBranch k b) := h.same.devWrite

theorem freeBranch (h : StepKept s t) {k : Nat} : StepKept s (t.freeBranch k) := h.putBranch.dropEdits

theorem destroyBranch (h : StepKept s t) {k : Nat} : StepKept s (t.destroyBranch k) := h.nextEpoch.dropRefs.freeBranch

theorem closeGroup (h : StepKept s t) {g : Nat} : StepKept s (t.closeGroup g) := by
  unfold State.closeGroup
  extract_lets _ _ u1 u2
  have hu1 : StepKept s u1 := h.foldl fun _ _ hu => hu.destroyBranch
  have hu2 : StepKept s u2 := by
    unfold u2
    split
    · exact hu1.dropRefs
    · exact hu1
  exact hu2.setGroup

theorem seqDestroyNow (h : StepKept s t) {n : Nat} : StepKept s (t.seqDestroyNow n) := h.putSeq.nextEpoch.dropRefs

theorem disown (h : StepKept s t) {ks : List Nat} : StepKept s (t.disown ks) := h.foldl fun _ _ hu => hu.same

theorem destroyContext (h : StepKept s t) {n : Nat} : StepKept s (t.destroyContext n) := by
  unfold State.destroyContext
  exact (((h.foldl fun _ _ hu => hu.closeGroup).same.foldl fun _ _ hu => hu.seqDestroyNow).disown.foldl
    fun _ _ hu => either hu.setFld hu).setCtx

theorem destroyOp (h : StepKept s t) : StepKept s t.destroyOp :=
  either h.ctxResult (either h.ctxResult h.destroyContext.ctxResult)

theorem ctxOpWrite (h : StepKept s t) {v : Nat} : StepKept s (t.ctxOpWrite v) := by
  unfold State.ctxOpWrite
  split
  · exact h.createOp
  · exact h.destroyOp
  · exact h.reject
  · exact h

theorem resizeSys (h : StepKept s t) {kvp wh : Bool} : StepKept s (t.resizeSys kvp wh) :=
  h.foldl fun _ _ hu => hu.setFld

theorem whCfgWrite (h : StepKept s t) {v : Nat} : StepKept s (t.whCfgWrite v) :=
  either h (either h.reject (either (either h.setFld.resizeSys h.reject) h.setFld))

theorem enableQueue (h : StepKept s t) {n : Nat} {desc : List Byte} : StepKept s (t.enableQueue n desc) :=
  h.setQueue.pumpQueue

theorem enableOp (h : StepKept s t) : StepKept s t.enableOp :=
  either h.setFld (either h.setFld (either h.setFld (either h.setFld h.setCtx.enableQueue.setFld)))

theorem drainCheck (h : StepKept s t) {n : Nat} : StepKept s (t.drainCheck n) := either h.setQueue h

theorem disableOp (h : StepKept s t) : StepKept s t.disableOp := by
  unfold State.disableOp
  extract_lets _ _ u1 u2 _ u3
  have hu1 : StepKept s u1 := h.setFld
  have hu2 : StepKept s u2 := hu1.setQueue
  have hu3 : StepKept s u3 := hu2.same
  exact either hu3.drainCheck hu1

theorem resetSeqOp (h : StepKept s t) : StepKept s t.resetSeqOp := either h.setFld h.setQueue.setFld

theorem qOpWrite (h : StepKept s t) {v : Nat} : StepKept s (t.qOpWrite v) := by
  unfold State.qOpWrite
  split
  · exact h.enableOp
  · exact h.disableOp
  · exact h.resetSeqOp
  · exact h

theorem kvpCfgWrite (h : StepKept s t) {v : Nat} : StepKept s (t.kvpCfgWrite v) := by
  unfold State.kvpCfgWrite
  extract_lets _ _ u1 _ u2
  have hu1 : StepKept s u1 := either h (either h.reject h.setFld)
  have hu2 : StepKept s u2 := hu1.setFld.resizeSys
  exact either hu1 (either (either hu2.same hu1.reject) (either hu1.setFld hu1.reject))

theorem seqEditNow (h : StepKept s t) {e : Edit} : StepKept s (t.seqEditNow e) := by
  unfold State.seqEditNow
  extract_lets _ _ u1 _ _ _ _ u2 u3
  have hu1 : StepKept s u1 := h.devWrite
  have hu2 : StepKept s u2 := either h.addCnt h
  have hu3 : StepKept s u3 := by
    unfold u3
    split
    · exact hu1.putSeq.nextEpoch
    · exact h.seqDestroyNow
    · exact h.newImage
    · exact hu2.newImage
  exact hu3.setInt

theorem editGo (h : StepKept s t) : StepKept s t.editGo := by
  unfold State.editGo
  extract_lets _ _ _ _ _ u1 u2 u3 _ _ _ u4
  have hu1 : StepKept s u1 := h.same
  have hu2 : StepKept s u2 := hu1.setFld.setFld
  have hu3 : StepKept s u3 := either hu2.setInt.setInt (either hu2.setInt hu2)
  have hu4 : StepKept s u4 := hu3.same
  exact either hu3 (either hu3.setGroup.setFld.setInt (either hu4.setFld.setInt hu3.seqEditNow))

theorem limitWrite (h : StepKept s t) {v : Nat} : StepKept s (t.limitWrite v) := by
  unfold State.limitWrite
  extract_lets u1
  have hu1 : StepKept s u1 := h.setFld
  exact hu1.same

theorem clearEnables (h : StepKept s t) : StepKept s t.clearEnables := h.same

theorem stopShift (h : StepKept s t) {d : Nat} : StepKept s (t.stopShift d) := h.same

theorem stopOver (h : StepKept s t) {r' : Nat} : StepKept s (t.stopOver r') := by
  unfold State.stopOver
  extract_lets _ _ u1 _ u2 u3
  have hu1 : StepKept s u1 := h.setFld
  have hu2 : StepKept s u2 := hu1.same
  have hu3 : StepKept s u3 := hu2.addCnt.stopShift
  exact either hu3.trace hu3

theorem stopByReset (h : StepKept s t) : StepKept s t.stopByReset := either h ((either h.setFld h).stopOver)

theorem resetQueues (h : StepKept s t) : StepKept s t.resetQueues := h.same

theorem resetCmd (h : StepKept s t) {c : Cmd} : StepKept s (t.resetCmd c) := either h.releaseWork.setCmd h.discard

theorem rebuild (h : StepKept s t) : StepKept s t.rebuild := by
  unfold State.rebuild
  extract_lets _ u1 _ _ _ _ _ _ _ u2 u3 u4
  have hu1 : StepKept s u1 := h.same.foldl fun _ _ hu => hu.applyRef
  have hu2 : StepKept s u2 := hu1.same
  have hu3 : StepKept s u3 := hu2.foldl (fun _ _ hu => hu.foldl (fun _ _ hu => hu.setObjCount))
  have hu4 : StepKept s u4 := hu3.foldl fun _ _ hu => hu.setObjCount
  exact hu4.addCnt

theorem remadeAt (h : StepKept s t) {r' : Nat × Nat × Nat} : StepKept s (t.remadeAt r') := either h.same h.same

theorem remade (h : StepKept s t) {v : Ver} : StepKept s (t.remade v) := h.remadeAt

theorem loseVer (h : StepKept s t) {hit : Nat → Nat → Bool} {v : Ver} : StepKept s (t.loseVer hit v) :=
  either (either h.remade.addCnt h.remade) h.same.raise

theorem wipeUnowned (h : StepKept s t) : StepKept s t.wipeUnowned := h.stores fun m => ⟨wf_filter _ m.1, m.2⟩

theorem testCores (h : StepKept s t) {sel : Nat → Bool} : StepKept s (t.testCores sel) := h.same

theorem wipeCores (h : StepKept s t) {sel : Nat → Bool} : StepKept s (t.wipeCores sel) := h.same

theorem wipeClusters (h : StepKept s t) : StepKept s t.wipeClusters := by
  unfold State.wipeClusters
  extract_lets u1
  have hu1 : StepKept s u1 := h.wipeCores.testCores
  exact hu1.same

theorem abandonGrants (h : StepKept s t) : StepKept s t.abandonGrants := h.same.foldl fun _ _ hu => hu.setFld.setFld

theorem resetCtxs (h : StepKept s t) : StepKept s t.resetCtxs := h.same

theorem rerun (h : StepKept s t) {q seq : Nat} : StepKept s (t.rerun q seq) := by
  unfold State.rerun
  split
  · exact h.discard.settle
  · exact h

theorem dropReads (h : StepKept s t) {core : Nat} : StepKept s (t.dropReads core) := h.same

theorem setCluster (h : StepKept s t) {n : Nat} {x : Cluster} : StepKept s (t.setCluster n x) := h.same

theorem setCounter (h : StepKept s t) {n : Nat} {x : Counter} : StepKept s (t.setCounter n x) := h.same

theorem raiseGauges (h : StepKept s t) {l : SeqLayer} {job gen : Nat} {ks : List Nat} :
    StepKept s (t.raiseGauges l job gen ks) := by
  unfold State.raiseGauges
  split
  · exact h
  · split
    · exact h
    · extract_lets
      split
      · exact h
      · refine h.foldl fun u x hu => ?_
        extract_lets
        exact hu.same

theorem requestWindow (h : StepKept s t) {c : Cmd} {l : Layer} : StepKept s (t.requestWindow c l) := either h h.same

theorem requestNext (h : StepKept s t) {c : Cmd} : StepKept s (t.requestNext c) := by
  unfold State.requestNext
  split
  · exact h.requestWindow
  · exact h

theorem layersEnd (h : StepKept s t) {q seq : Nat} : StepKept s (t.layersEnd q seq) := by
  unfold State.layersEnd
  split
  · exact h
  · split
    · exact h
    · extract_lets _ _ u1 u2
      have hu1 : StepKept s u1 := h.setCmd
      have hu2 : StepKept s u2 := hu1.foldl fun _ _ hu => hu.requestNext
      exact either hu2.outputsDone hu2.settle

theorem commitState (h : StepKept s t) {type value : Nat} : StepKept s (t.commitState type value) := h.same.addCnt

theorem clearCountOp (h : StepKept s t) : StepKept s t.clearCountOp := h.commitState

theorem preferOp (h : StepKept s t) {slot : Nat} : StepKept s (t.preferOp slot) := h.commitState

theorem bootCtrl (h : StepKept s t) {v : Nat} : StepKept s (t.bootCtrl v) := by
  unfold State.bootCtrl
  extract_lets u1
  have hu1 : StepKept s u1 := either h.clearCountOp h
  exact either hu1.preferOp hu1

theorem commitSvnOp (h : StepKept s t) : StepKept s t.commitSvnOp := by
  unfold State.commitSvnOp
  split
  · exact h
  · exact h.trans ⟨rfl, ⟨Nat.le_max_left _ _, fun _ hi => hi, fun _ r hr => ⟨r, hr, rfl, id⟩⟩, id⟩

theorem revokeKeyOp (h : StepKept s t) {slot : Nat} : StepKept s (t.revokeKeyOp slot) := by
  unfold State.revokeKeyOp
  split
  · exact h
  · refine h.trans ⟨rfl, ⟨le_rfl, fun i hi => ?_, fun _ r hr => ⟨r, hr, rfl, id⟩⟩, id⟩
    by_cases e : i = slot
    · rw [e]; exact bit_lor_two_pow_self _ _
    · exact (bit_lor_two_pow_ne _ e).trans hi

theorem secCtrl (h : StepKept s t) {v : Nat} : StepKept s (t.secCtrl v) := by
  unfold State.secCtrl
  extract_lets u1
  have hu1 : StepKept s u1 := either h.commitSvnOp h
  exact either hu1.revokeKeyOp hu1

theorem lcRequestOp (h : StepKept s t) {dst : Nat} {token : Option (List Byte)} :
    StepKept s (t.lcRequestOp dst token) := by
  unfold State.lcRequestOp
  extract_lets tok r u
  have hu : StepKept s u := h.setFld
  split
  · exact hu.trans ⟨rfl, ⟨le_rfl, fun _ hi => hi, fun i x hx => ⟨x,
      (List.getElem?_append_left (List.getElem?_eq_some_iff.1 hx).1).trans hx, rfl, id⟩⟩, id⟩
  · exact hu

theorem ownGo (h : StepKept s t) {p : OwnPage} {op : State → State} (hop : ∀ u, StepKept s u → StepKept s (op u)) :
    StepKept s (t.ownGo p op) :=
  either h (either h.reject (hop _ h))

theorem ownInt (h : StepKept s t) {p : OwnPage} : StepKept s (t.ownInt p) := by
  unfold State.ownInt
  split
  · exact h.setInt
  · exact h.setInt

theorem ownDone (h : StepKept s t) {p : OwnPage} {result : Nat} : StepKept s (t.ownDone p result) :=
  h.setFld.setFld.ownInt

theorem own (h : StepKept s t) {ks : List Nat} {ctx : Nat} : StepKept s (t.own ks ctx) :=
  h.foldl fun _ _ hu => hu.same

theorem grant (h : StepKept s t) {p : OwnPage} : StepKept s (t.grant p) := by
  unfold State.grant
  extract_lets _ _ _ u1 _ u2
  have hu1 : StepKept s u1 := by
    unfold u1
    split
    · exact h.applyField
    · exact h
  have hu2 : StepKept s u2 := hu1.same
  exact either h.ownDone (either h.ownDone (either h.own.ownDone hu2.setFld.setFld))

theorem revoke (h : StepKept s t) {p : OwnPage} : StepKept s (t.revoke p) :=
  either h.ownDone (either h.ownDone (either h.same.setFld.ownDone h.disown.ownDone))

theorem ownQuery (h : StepKept s t) {p : OwnPage} : StepKept s (t.ownQuery p) := either h.ownDone h.setFld.ownDone

theorem cisCfgWrite (h : StepKept s t) {m v : Nat} : StepKept s (t.cisCfgWrite m v) := by
  unfold State.cisCfgWrite
  split
  · exact h
  · split
    · exact h.reject
    · extract_lets u1
      have hu1 : StepKept s u1 := h.setFld
      exact either hu1.cisAttach hu1.setModule.cisDrained

theorem cisGo (h : StepKept s t) {m : Nat} {op : State → State} (hop : ∀ u, StepKept s u → StepKept s (op u)) :
    StepKept s (t.cisGo m op) :=
  either h (hop _ h)

theorem cisFormat (h : StepKept s t) {m : Nat} : StepKept s (t.cisFormat m) :=
  either h.cisOpDone (either h.cisOpDone h.setFld.formatFrom)

theorem cisRelease (h : StepKept s t) {m : Nat} : StepKept s (t.cisRelease m) :=
  either h.cisOpDone (either h.cisOpDone (either h.cisOpDone h.setFld.cisTrim))

theorem cisTrimOp (h : StepKept s t) {m : Nat} : StepKept s (t.cisTrimOp m) :=
  either h.cisOpDone (either h.cisOpDone (either h.cisOpDone h.setFld.cisTrim))

theorem setLane (h : StepKept s t) {p : Nat} {rx : Bool} {w : Nat} {l : Lane} : StepKept s (t.setLane p rx w l) :=
  h.setPort

theorem laneDark (h : StepKept s t) {p : Nat} {rx : Bool} {w : Nat} {light : Bool} :
    StepKept s (t.laneDark p rx w light) := by
  unfold State.laneDark
  extract_lets _ _ u1
  have hu1 : StepKept s u1 := h.setLane
  exact either hu1.setInt hu1

theorem holdCmd (h : StepKept s t) {c : Cmd} {x : Hold} : StepKept s (t.holdCmd c x) := by
  unfold State.holdCmd
  extract_lets _ u1 u2 u3
  have hu1 : StepKept s u1 := h.setCmd
  have hu2 : StepKept s u2 := hu1.trace
  have hu3 : StepKept s u3 := either hu1 (either (either hu2.setInt hu2.setInt.raise) hu2)
  exact hu3.settle

theorem cisOffline (h : StepKept s t) {m : Nat} : StepKept s (t.cisOffline m) := by
  unfold State.cisOffline
  extract_lets _ _ u1 u2 u3
  have hu1 : StepKept s u1 := h.setModule.setInt
  have hu2 : StepKept s u2 := hu1.raise
  have hu3 : StepKept s u3 := either hu2.cisOpDone hu2
  split
  · exact h
  · refine hu3.foldl fun u x hu => ?_
    split
    · split
      · exact hu.discard.holdCmd
      · exact hu
    · exact hu

theorem mapSlots (h : StepKept s t) {l : List Nat} {q : Nat} : StepKept s (t.mapSlots l q) := h.setFld

theorem moveTx (h : StepKept s t) {p q : Nat} {first : List Out} : StepKept s (t.moveTx p q first) :=
  h.setPort.setPort.sendPort

theorem linkDark (h : StepKept s t) : StepKept s t.linkDark := either h h.same.raise

theorem sendCtrl (h : StepKept s t) {p code w : Nat} : StepKept s (t.sendCtrl p code w) := h.emit

theorem handoverStart (h : StepKept s t) {p live : Nat} : StepKept s (t.handoverStart p live) :=
  h.setPort.setFld.sendCtrl

theorem moveSlots (h : StepKept s t) {p : Nat} : StepKept s (t.moveSlots p) := by
  unfold State.moveSlots
  split
  · exact h.linkDark
  · exact h.handoverStart

theorem resetLanes (h : StepKept s t) {p : Nat} : StepKept s (t.resetLanes p) := h.setPort

theorem rejoin (h : StepKept s t) {p : Nat} : StepKept s (t.rejoin p) := by
  unfold State.rejoin
  split
  · exact h
  · exact either h.handoverStart h

theorem opCtrlWrite (h : StepKept s t) {p v : Nat} : StepKept s (t.opCtrlWrite p v) := by
  unfold State.opCtrlWrite
  extract_lets u1
  have hu1 : StepKept s u1 := either h.resetLanes h
  exact either hu1.rejoin hu1

theorem hrd (h : StepKept s t) {addr : Nat} {what : HrdFor} : StepKept s (t.hrd addr what) := by
  unfold State.hrd
  exact h.same.emit

theorem sendOp (h : StepKept s t) {len : Nat} : StepKept s (t.sendOp len) := by
  unfold State.sendOp
  split
  · exact h.reject
  · extract_lets u1 _ u2
    have hu1 : StepKept s u1 := h.setFld
    have hu2 : StepKept s u2 := hu1.same
    exact hu2.foldl fun _ _ hu => hu.hrd

theorem mboxAckOp (h : StepKept s t) : StepKept s t.mboxAckOp := h.setFld

theorem errFirstClearOp (h : StepKept s t) : StepKept s t.errFirstClearOp := h.same.setFld

theorem errInjectOp (h : StepKept s t) {v : Nat} : StepKept s (t.errInjectOp v) := either h h.same

theorem traceOn (h : StepKept s t) : StepKept s t.traceOn := by
  unfold State.traceOn
  extract_lets u1 u2
  have hu1 : StepKept s u1 := h.setFld.setCnt
  have hu2 : StepKept s u2 := hu1.setFld.setFld.setFld
  exact hu2.same

theorem trcCfgWrite (h : StepKept s t) {v : Nat} : StepKept s (t.trcCfgWrite v) := by
  unfold State.trcCfgWrite
  extract_lets _ u1 u2
  have hu1 : StepKept s u1 := h.setFld
  have hu2 : StepKept s u2 := either hu1 (either hu1.reject hu1.setFld)
  exact either hu2 (either hu2.setFld (either hu2.traceOn hu2.reject))

theorem markOp (h : StepKept s t) {v : Nat} : StepKept s (t.markOp v) := h.trace

theorem goOp (h : StepKept s t) {r' : Requester} : StepKept s (t.goOp r') := either h h.takeStop

theorem stopReleaseOp (h : StepKept s t) : StepKept s t.stopReleaseOp := either h.setFld.setCnt h

theorem stopCtrlWrite (h : StepKept s t) {r' : Requester} {v : Nat} : StepKept s (t.stopCtrlWrite r' v) := by
  unfold State.stopCtrlWrite
  extract_lets u1
  have hu1 : StepKept s u1 := either h.goOp h
  exact either hu1.stopReleaseOp hu1

theorem wfgWrite (h : StepKept s t) {live : Bool} : StepKept s (t.wfgWrite live) := by
  unfold State.wfgWrite
  extract_lets _ u1 _ u2
  have hu1 : StepKept s u1 := h.setFld.setFld
  have hu2 : StepKept s u2 := hu1.same
  exact hu2.hwr

theorem wfgGoOp (h : StepKept s t) : StepKept s t.wfgGoOp := by
  unfold State.wfgGoOp
  split
  · exact h
  · extract_lets _ u1
    have hu1 : StepKept s u1 := h.setFld.setFld.setFld
    exact either hu1.wfgWrite hu1.same

theorem dbDrop (h : StepKept s t) : StepKept s t.dbDrop := h.addCnt.raise

theorem askRecord (h : StepKept s t) {n seq : Nat} : StepKept s (t.askRecord n seq) := by
  unfold State.askRecord
  extract_lets _ _ u1
  have hu1 : StepKept s u1 := h.setQueue.addCnt
  split
  · extract_lets u2
    have hu2 : StepKept s u2 := h.same
    exact hu2.setQueue.addCnt
  · exact hu1.hrd

theorem push (h : StepKept s t) {p : Pkt} : StepKept s (t.push p) := either h.same.addSlot h

theorem completionWord3 (h : StepKept s t) {n seq : Nat} : StepKept s (t.completionWord3 n seq) := by
  unfold State.completionWord3
  extract_lets
  split
  · exact h
  · exact h.hwr

theorem completionEnd (h : StepKept s t) {n seq : Nat} : StepKept s (t.completionEnd n seq) := by
  unfold State.completionEnd
  extract_lets
  split
  · exact h
  · extract_lets _ _ u1 u2 u3 u4
    have hu1 : StepKept s u1 := h.setQueue
    have hu2 : StepKept s u2 := either hu1.intr hu1
    have hu3 : StepKept s u3 := either hu2.addCnt hu2
    have hu4 : StepKept s u4 := either hu3.setInt hu3
    exact hu4.pumpQueue.drainCheck

theorem mailboxDone (h : StepKept s t) : StepKept s t.mailboxDone := h.setFld.setFld.setInt

theorem hwrDone (h : StepKept s t) {x : Hwr} : StepKept s (t.hwrDone x) := by
  unfold State.hwrDone
  extract_lets _ u1
  have hu1 : StepKept s u1 := h.same
  split
  · exact hu1
  · split
    · split
      · exact hu1.setCmd
      · exact hu1
    · exact hu1.completionWord3
    · exact hu1.completionEnd
    · exact hu1.completionEnd
    · exact hu1.mailboxDone
    · exact hu1
    · exact hu1
    · exact hu1
    · exact hu1

theorem cmpIn (h : StepKept s t) {p : Pkt} : StepKept s (t.cmpIn p) := by
  unfold State.cmpIn
  split
  · exact h.hwrDone
  · exact h

theorem recordArrived (h : StepKept s t) {n seq : Nat} {data : List Byte} : StepKept s (t.recordArrived n seq data) :=
  either h.setQueue h

theorem showIndex (h : StepKept s t) : StepKept s t.showIndex := h.setCnt.setFld

theorem commitRes (h : StepKept s t) {type value : Nat} : StepKept s (t.commitRes type value) := h.same.addCnt

theorem startTree (h : StepKept s t) {first : Nat} : StepKept s (t.startTree first) := either h.same.setFld.setFld h

theorem reserve (h : StepKept s t) : StepKept s t.reserve := by
  unfold State.reserve
  extract_lets _ _ u1 u2 _ _ u3
  have hu1 : StepKept s u1 := h.commitRes.addCnt
  have hu2 : StepKept s u2 := hu1.addCnt
  have hu3 : StepKept s u3 := hu2.same
  exact hu3.startTree

theorem serveWait (h : StepKept s t) {w : RecallWait} : StepKept s (t.serveWait w) := by
  unfold State.serveWait
  split
  · exact h
  · exact h.memAccess
  · exact h.devWrite

theorem recallDone (h : StepKept s t) {r' : Recall} : StepKept s (t.recallDone r') :=
  h.same.dropLine.foldl fun _ _ hu => hu.serveWait

theorem recallAck (h : StepKept s t) {tag : Nat} : StepKept s (t.recallAck tag) := by
  unfold State.recallAck
  split
  · exact h
  · exact h.recallDone

theorem recallData (h : StepKept s t) {p : Pkt} : StepKept s (t.recallData p) := by
  unfold State.recallData
  split
  · exact h.answer
  · extract_lets u1 u2
    have hu1 : StepKept s u1 := h.devPut
    have hu2 : StepKept s u2 := either hu1.setPoison hu1
    exact hu2.countIn.recallDone

theorem grantCredit (h : StepKept s t) {p cls n : Nat} : StepKept s (t.grantCredit p cls n) := h.sendCtrl

theorem holdAccess (h : StepKept s t) {x : HeldAccess} : StepKept s (t.holdAccess x) := h.same

theorem refuse (h : StepKept s t) {n seq : Nat} {r' : List Byte} {f : Fail} : StepKept s (t.refuse n seq r' f) :=
  h.addCnt.due

theorem takeSlot (h : StepKept s t) {n : Nat} : StepKept s (t.takeSlot n) := by
  unfold State.takeSlot
  extract_lets _ _ u1
  have hu1 : StepKept s u1 := h.setQueue
  exact hu1.same

theorem ctxAccept (h : StepKept s t) {ctx : Nat} : StepKept s (t.ctxAccept ctx) := by
  unfold State.ctxAccept
  split
  · split
    · extract_lets
      exact h.setCtx.ctxTo
    · exact h.ctxTo
  · exact h

theorem accept (h : StepKept s t) {n seq : Nat} {r' : List Byte} {k : Kind} : StepKept s (t.accept n seq r' k) :=
  h.hwr.same.setQueue.addCnt.trace.ctxAccept

theorem takeRecord (h : StepKept s t) {n : Nat} {k : Kind} : StepKept s (t.takeRecord n k) := by
  unfold State.takeRecord
  split
  · split
    · exact h
    · extract_lets
      split
      · exact h.takeSlot.refuse
      · split
        · split
          · exact h.takeSlot.refuse
          · exact h.takeSlot.accept
        · exact h
  · exact h

theorem askLines (h : StepKept s t) {a n : Nat} : StepKept s (t.askLines a n) := by
  unfold State.askLines
  refine h.foldl fun u x hu => ?_
  split
  · exact either hu.recallLine hu
  · exact hu

theorem askInputs (h : StepKept s t) {us : List DescUse} : StepKept s (t.askInputs us) := by
  unfold State.askInputs
  refine h.foldl fun u x hu => ?_
  extract_lets u1
  have hu1 : StepKept s u1 := hu.askLines
  exact either hu1.askLines hu1

theorem unhold (h : StepKept s t) {c : Cmd} : StepKept s (t.unhold c) := by
  unfold State.unhold
  split
  · exact h
  · extract_lets u1
    have hu1 : StepKept s u1 := h.setCmd
    exact (either hu1 hu1.trace).settle

theorem clearCounters (h : StepKept s t) {run : Option (Nat × Nat)} : StepKept s (t.clearCounters run) := by
  unfold State.clearCounters
  split
  · extract_lets
    exact h.same
  · exact h

theorem lowCheck (h : StepKept s t) {before : Nat} : StepKept s (t.lowCheck before) := either h.setInt h

theorem requestFirst (h : StepKept s t) {c : Cmd} : StepKept s (t.requestFirst c) :=
  h.applyField.foldl fun _ _ hu => hu.requestWindow

theorem windowHere (h : StepKept s t) {c : Cmd} {w : WinReq} {n : Nat} : StepKept s (t.windowHere c w n) :=
  (h.same.foldl (fun _ _ hu => hu.addCnt.addSlot)).setCmd

theorem windowGrant (h : StepKept s t) : StepKept s t.windowGrant := by
  unfold State.windowGrant
  split
  · split
    · exact h
    · split
      · exact h
      · split
        · exact h
        · split
          · split
            · exact h
            · extract_lets
              exact either h.askLines (either h.lostInput h.countRead.windowHere)
          · split
            · exact h
            · extract_lets
              split
              · exact h.askInputs
              · split
                · exact h.lostInput
                · split
                  · exact h
                  · split
                    · exact h.noEffect
                    · exact h.countRead.windowHere
  · exact h

theorem writeLineage (h : StepKept s t) {c : Cmd} : StepKept s (t.writeLineage c) := by
  unfold State.writeLineage
  extract_lets _ _ _ u1
  have hu1 : StepKept s u1 := h.setCmd
  split
  · exact either h h.setCmd.raise.setInt
  · extract_lets _ u2
    have hu2 : StepKept s u2 := hu1.same
    exact hu2.hwr.addCnt.settle

theorem publish (h : StepKept s t) {q seq : Nat} : StepKept s (t.publish q seq) := by
  unfold State.publish
  split
  · exact h
  · exact either h.writeLineage h

theorem freeLog (h : StepKept s t) : StepKept s t.freeLog := h.same

theorem lineageSpaceFreed (h : StepKept s t) : StepKept s t.lineageSpaceFreed := by
  unfold State.lineageSpaceFreed
  split
  · extract_lets u1
    have hu1 : StepKept s u1 := h.freeLog
    split
    · exact hu1.publish
    · exact hu1
  · exact h

theorem keepOld (h : StepKept s t) {c : Cmd} : StepKept s (t.keepOld c) := h.same

theorem putImage (h : StepKept s t) {k : Nat} {im : Image} : StepKept s (t.putImage k im) := h.same.devWrite

theorem histWrite (h : StepKept s t) {g : Nat} {r' : List Byte} : StepKept s (t.histWrite g r') :=
  either h.setGroup.hwr h

theorem publishOpen (h : StepKept s t) {c : Cmd} : StepKept s (t.publishOpen c) := by
  unfold State.publishOpen
  extract_lets _ _ _ _ _ u1 u2 _ u3
  have hu1 : StepKept s u1 := h.setGroup
  have hu2 : StepKept s u2 := hu1.putImage.putBranch
  have hu3 : StepKept s u3 := either hu2.nextEpoch.putSeq hu2.newImage
  exact hu3.histWrite

theorem publishGroupStep (h : StepKept s t) {c : Cmd} {g : Nat} : StepKept s (t.publishGroupStep c g) := by
  unfold State.publishGroupStep
  extract_lets _ _ u1 _ u2 _ u3
  have hu1 : StepKept s u1 := h.foldl fun _ _ hu => hu.histWrite
  have hu2 : StepKept s u2 := hu1.histWrite
  have hu3 : StepKept s u3 := hu2.setGroup
  exact either hu3 hu3.setInt

theorem publishFork (h : StepKept s t) {c : Cmd} : StepKept s (t.publishFork c) := by
  unfold State.publishFork
  extract_lets _ u1 u2 _ u3
  have hu1 : StepKept s u1 := h.foldl fun _ _ hu => hu.destroyBranch
  have hu2 : StepKept s u2 := hu1.foldl fun _ _ hu => hu.putBranch
  have hu3 : StepKept s u3 := either hu2 hu2.devWrite
  exact hu3.addCnt.histWrite

theorem publishPrune (h : StepKept s t) {c : Cmd} : StepKept s (t.publishPrune c) := by
  unfold State.publishPrune
  extract_lets _ u1 _ u2
  have hu1 : StepKept s u1 := h.foldl fun _ _ hu => hu.destroyBranch
  have hu2 : StepKept s u2 := either hu1 hu1.devWrite
  exact hu2.addCnt.histWrite

theorem publishClose (h : StepKept s t) {c : Cmd} : StepKept s (t.publishClose c) := h.histWrite.closeGroup

theorem publishAppend (h : StepKept s t) {c : Cmd} : StepKept s (t.publishAppend c) :=
  either h ((h.nextEpoch.foldl (fun _ _ hu => hu.swapImage)).foldl (fun _ _ hu => hu.sealTail))

theorem rewrite (h : StepKept s t) {old new : LinRec} : StepKept s (t.rewrite old new) := by
  unfold State.rewrite
  split
  · exact h
  · extract_lets _ u1
    have hu1 : StepKept s u1 := either h h.hwr
    refine hu1.foldl fun u x hu => ?_
    split
    · extract_lets u2
      have hu2 : StepKept s u2 := either hu hu.hwr
      exact either hu2 hu2.hwr
    · exact hu

theorem setRec (h : StepKept s t) {old new : LinRec} : StepKept s (t.setRec old new) := either h h.same.rewrite

theorem coverSource (h : StepKept s t) {c : Cmd} : StepKept s (t.coverSource c) := by
  unfold State.coverSource
  split
  · extract_lets
    split
    · exact h.setRec
    · exact h
  · exact h

theorem releaseOld (h : StepKept s t) : StepKept s t.releaseOld := h.foldl fun _ _ hu => hu.setRec

theorem opWrite (h : StepKept s t) {r' : Requester} {cls inst off v : Nat} {op : State → State}
    (hop : ∀ u, StepKept s u → StepKept s (op u)) :
    StepKept s (t.opWrite r' cls inst off v op) := by
  unfold State.opWrite
  split
  · exact h
  · split
    · extract_lets
      exact h.same
    · extract_lets u1
      have hu1 : StepKept s u1 := h.addCnt
      exact either hu1.lockAbort (hop _ hu1)

theorem hostGives (h : StepKept s t) {cells : List (Nat × Byte)} : StepKept s (t.hostGives cells) := h.same

theorem whFail (h : StepKept s t) {c : Cmd} {status : Nat} : StepKept s (t.whFail c status) :=
  (either h.setInt.raise h).noEffect

theorem lockGroups (h : StepKept s t) {c : Cmd} : StepKept s (t.lockGroups c) :=
  either h (h.foldl (fun _ _ hu => hu.setGroup))

theorem writeRows (h : StepKept s t) {before c : Cmd} {heads : List HeadOut} {g : Nat} :
    StepKept s (t.writeRows before c heads g) :=
  either h (h.foldl (fun _ _ hu => hu.homeWrite))

theorem holdResume (h : StepKept s t) {q seq : Nat} : StepKept s (t.holdResume q seq) := by
  unfold State.holdResume
  split
  · exact h
  · exact either h.unhold h

theorem rederiveDone (h : StepKept s t) {g : Nat} : StepKept s (t.rederiveDone g) :=
  either ((h.foldl (fun _ _ hu => hu.remadeAt)).setGroup.setInt) h

theorem countUpdate (h : StepKept s t) : StepKept s t.countUpdate := by
  unfold State.countUpdate
  split
  · split
    · exact h
    · extract_lets
      exact h.same.applyRef
  · exact h

theorem holdingReturn (h : StepKept s t) : StepKept s t.holdingReturn := by
  unfold State.holdingReturn
  split
  · split
    · exact h
    · extract_lets _ u1
      have hu1 : StepKept s u1 := h.same
      split
      · exact hu1.addCnt
      · exact hu1
  · exact h

theorem editRow (h : StepKept s t) {r' : Requester} {op : Nat} : StepKept s (t.editRow r' op) :=
  either (h.opWrite (fun _ hu => hu.editGo)) h

theorem deferredEdit (h : StepKept s t) {n : Nat} : StepKept s (t.deferredEdit n) := by
  unfold State.deferredEdit
  split
  · exact h
  · split
    · extract_lets _ u1
      have hu1 : StepKept s u1 := h.same
      exact either hu1.seqEditNow hu1
    · exact h

theorem coreBoundary (h : StepKept s t) {c : Cmd} {p : Plan} {core : Nat} : StepKept s (t.coreBoundary c p core) := by
  unfold State.coreBoundary
  extract_lets u1
  have hu1 : StepKept s u1 := either h h.applyField.applyField
  exact either hu1.setCore.setCoreFld hu1.setCore

theorem issueWords (h : StepKept s t) {core : Nat} {ws : List QWord} : StepKept s (t.issueWords core ws) :=
  h.setCore.addCnt

theorem discardFenced (h : StepKept s t) {p : Nat} {cl : Option Nat} : StepKept s (t.discardFenced p cl) := by
  unfold State.discardFenced
  extract_lets u1
  have hu1 : StepKept s u1 := h.addCnt.raise
  split
  · exact hu1.setFld
  · exact hu1

theorem tensorWrite (h : StepKept s t) {c : Cmd} {cl : Nat} {u : DescUse} {off : Nat} {data : List Byte} :
    StepKept s (t.tensorWrite c cl u off data) := by
  unfold State.tensorWrite
  extract_lets
  split
  · exact h.setCluster.addSlot
  · split
    · exact h.setCmd
    · exact h
  · exact h.homeWrite

theorem itemWrite (h : StepKept s t) {c : Cmd} {core : Nat} {u : DescUse} {off : Nat} {data : List Byte} :
    StepKept s (t.itemWrite c core u off data) :=
  either h.discardFenced h.tensorWrite

theorem elemWrite (h : StepKept s t) {c : Cmd} {core : Nat} {u : DescUse} {off w v : Nat} :
    StepKept s (t.elemWrite c core u off w v) :=
  either h.itemWrite h.itemWrite

theorem storeTile (h : StepKept s t) {c : Cmd} {core : Nat} {x : List Byte} {u : DescUse} {d : Desc}
    {base stride ch x' y n : Nat} :
    StepKept s (t.storeTile c core x u d base stride ch x' y n) := by
  unfold State.storeTile
  extract_lets
  refine h.foldl fun u x hu => ?_
  split
  · exact hu
  · extract_lets
    exact hu.elemWrite

theorem storePiece (h : StepKept s t) {r' : ItemRun} {core base : Nat} {x : Config.Piece} :
    StepKept s (t.storePiece r' core base x) := by
  unfold State.storePiece
  extract_lets _ _ u1
  have hu1 : StepKept s u1 := h.addSlot
  split
  · exact either hu1.itemWrite hu1
  · exact either (either hu1.discardFenced hu1.homeWrite) hu1

theorem storeFill (h : StepKept s t) {r' : ItemRun} {core i fill upto : Nat} :
    StepKept s (t.storeFill r' core i fill upto) := by
  unfold State.storeFill
  split
  · exact h
  · extract_lets
    split
    · exact h.foldl fun _ _ hu => hu.storeTile
    · exact h.foldl (fun _ _ hu => hu.foldl (fun _ _ hu => hu.storePiece))

theorem pumpOut (h : StepKept s t) {core : Nat} {d : Nat × Nat} : StepKept s (t.pumpOut core d) := by
  unfold State.pumpOut
  split
  · split
    · extract_lets
      exact h.setCore.storeFill
    · exact h
  · exact h

theorem fillCore (h : StepKept s t) {core dest : Nat} {data : List Byte} : StepKept s (t.fillCore core dest data) :=
  h.setCore.addSlot

theorem fillMask (h : StepKept s t) {r' : ItemRun} {core b : Nat} {g : KeyPage} :
    StepKept s (t.fillMask r' core b g) := by
  unfold State.fillMask
  split
  · extract_lets
    exact h.fillCore.fillCore
  · exact h

theorem fillPage (h : StepKept s t) {r' : ItemRun} {core dest : Nat} {g : KeyPage} :
    StepKept s (t.fillPage r' core dest g) :=
  (either h.countRead h).fillCore

theorem setStack (h : StepKept s t) {n : Nat} {x : Stack} : StepKept s (t.setStack n x) := h.same

theorem putSeqLayer (h : StepKept s t) {cl : Nat} {l : SeqLayer} : StepKept s (t.putSeqLayer cl l) := h.setCluster

theorem beginJob (h : StepKept s t) {c : Cmd} {l : Layer} {p : Plan} {cl : Nat} {sl : SeqLayer} {j : Job}
    {rest : List Job} :
    StepKept s (t.beginJob c l p cl sl j rest) := by
  unfold State.beginJob
  extract_lets _ _ _ _ _ _ _ u1
  have hu1 : StepKept s u1 := h.putSeqLayer
  exact hu1.same.addCnt

theorem wake (h : StepKept s t) {cl : Nat} : StepKept s (t.wake cl) := either h.setClk h

theorem resumeTables (h : StepKept s t) {sl : SeqLayer} {cores : List Nat} : StepKept s (t.resumeTables sl cores) := by
  unfold State.resumeTables
  split
  · exact h
  · split
    · exact h
    · exact h.foldl fun _ _ hu => hu.coreBoundary

theorem startSlice (h : StepKept s t) {ctx : Nat} : StepKept s (t.startSlice ctx) := h.applyField.setCtx

theorem ctxRuns (h : StepKept s t) {ctx : Nat} : StepKept s (t.ctxRuns ctx) := either h.ctxTo.startSlice h

theorem openLayer (h : StepKept s t) {c : Cmd} {l : Layer} {p : Plan} : StepKept s (t.openLayer c l p) :=
  h.setCounter.setCmd

theorem emptyLayer (h : StepKept s t) {c : Cmd} {l : Layer} {p : Plan} : StepKept s (t.emptyLayer c l p) := by
  unfold State.emptyLayer
  extract_lets u1
  have hu1 : StepKept s u1 := h.openLayer
  split
  · exact hu1
  · exact hu1.setCmd.layersEnd

theorem placeOn (h : StepKept s t) {c : Cmd} {l : Layer} {p : Plan} {cl : Nat} : StepKept s (t.placeOn c l p cl) := by
  unfold State.placeOn
  extract_lets _ _ _ _ u1 u2 u3
  have hu1 : StepKept s u1 := h.setCluster
  have hu2 : StepKept s u2 := by
    unfold u2
    refine hu1.foldl fun u x hu => ?_
    extract_lets
    exact hu.setCore
  have hu3 : StepKept s u3 := hu2.wake
  split
  · exact hu3.setCmd
  · exact hu3

theorem placedTrace (h : StepKept s t) {c : Cmd} {ord : Nat} : StepKept s (t.placedTrace c ord) := by
  unfold State.placedTrace
  split
  · exact h
  · split
    · exact h
    · extract_lets _ _ u1
      have hu1 : StepKept s u1 := either h.trace h
      exact either h hu1.trace

theorem putKv (h : StepKept s t) {c : Cmd} {l : Layer} {p : Plan} {core : Nat} {r' : Config.KvRow} :
    StepKept s (t.putKv c l p core r') := by
  unfold State.putKv
  extract_lets
  split
  · exact h
  · split
    · exact h
    · exact either h (either h.discardFenced h.homeWrite)

theorem putKvs (h : StepKept s t) {c : Cmd} {l : Layer} {p : Plan} {core item : Nat} :
    StepKept s (t.putKvs c l p core item) :=
  h.foldl fun _ _ hu => hu.putKv

theorem attend (h : StepKept s t) {c : Cmd} {l : Layer} {p : Plan} {core item : Nat} {at_ : Entry16 → CoreWord} :
    StepKept s (t.attend c l p core item at_) := by
  unfold State.attend
  split
  · exact h
  · split
    · extract_lets _ _ _ _ u1
      have hu1 : StepKept s u1 := h.setCore
      split
      · split
        · extract_lets
          exact either hu1.setCmd hu1
        · exact hu1
      · exact hu1
    · exact h

theorem boxItem (h : StepKept s t) {c : Cmd} {core : Nat} {b : BoxJob} {i : Nat} :
    StepKept s (t.boxItem c core b i) := by
  unfold State.boxItem
  extract_lets _ _ u1 u2
  have hu1 : StepKept s u1 := h.foldl fun _ _ hu => hu.countRead
  have hu2 : StepKept s u2 := by
    unfold u2
    split
    · exact hu1.setCmd
    · exact hu1
  refine hu2.foldl fun u x hu => ?_
  refine hu.foldl fun u x hu => ?_
  refine hu.foldl fun u x hu => ?_
  extract_lets
  exact hu.elemWrite

theorem finishItem (h : StepKept s t) {r' : ItemRun} {core : Nat} : StepKept s (t.finishItem r' core) := by
  unfold State.finishItem
  extract_lets _ u1
  have hu1 : StepKept s u1 := h.attend
  split
  · exact hu1.foldl (fun _ _ hu => hu.foldl (fun _ _ hu => hu.storePiece))
  · split
    · split
      · exact h.boxItem
      · exact h
    · exact h

theorem doneIncrement (h : StepKept s t) {cl counter job item gen : Nat} :
    StepKept s (t.doneIncrement cl counter job item gen) := by
  unfold State.doneIncrement
  split
  · exact h
  · split
    · exact h
    · extract_lets _ u1 _ _ u2 _ u3
      have hu1 : StepKept s u1 := h.same
      have hu2 : StepKept s u2 := hu1.setCounter
      have hu3 : StepKept s u3 := by
        unfold u3
        split
        · split
          · extract_lets
            exact hu2.same
          · exact hu2
        · exact hu2
      exact either hu1.discardFenced hu3.layersEnd

theorem gaugeAdvance (h : StepKept s t) {gauge value gen counter job item : Nat} :
    StepKept s (t.gaugeAdvance gauge value gen counter job item) := by
  unfold State.gaugeAdvance
  split
  · exact h
  · split
    · exact h
    · extract_lets _ u1
      have hu1 : StepKept s u1 := h.same
      exact either hu1.discardFenced (either hu1 hu1.same)

theorem waitWake (h : StepKept s t) {c : Nat} : StepKept s (t.waitWake c) := by
  unfold State.waitWake
  extract_lets
  split
  · exact either h.setCore h
  · exact h

theorem runWord (h : StepKept s t) {c kind : Nat} {sel : CoreWord → Bool} {eff : State → QWord → State}
    (heff : ∀ u x2, StepKept s u → StepKept s (eff u x2)) :
    StepKept s (t.runWord c kind sel eff) := by
  unfold State.runWord
  split
  · split
    · split
      · extract_lets _ _ u1 u2
        have hu1 : StepKept s u1 := h.setCore
        have hu2 : StepKept s u2 := hu1.addSlot.addSlot
        exact heff _ _ hu2.addCnt
      · exact h
    · exact h
  · exact h

theorem addCoreCnt (h : StepKept s t) {x : Cnt} {c n : Nat} : StepKept s (t.addCoreCnt x c n) := h.addCnt

theorem of_arrayEff (h : StepKept s t) {c : Nat} {q : QWord} : StepKept s (arrayEff c t q) := by
  unfold arrayEff
  split
  · extract_lets _ _ _ _ u1 u2
    have hu1 : StepKept s u1 := h.setCore
    have hu2 : StepKept s u2 := hu1.addCoreCnt
    exact hu2.addCoreCnt.addCoreCnt
  · exact h

theorem of_loadStatEff (h : StepKept s t) {c : Nat} {q : QWord} : StepKept s (loadStatEff c t q) := by
  unfold loadStatEff
  split
  · extract_lets
    exact h.setCore
  · exact h

theorem of_drainEff (h : StepKept s t) {c : Nat} {q : QWord} : StepKept s (drainEff c t q) := by
  unfold drainEff
  split
  · extract_lets _ _ _ _ _ _ _ _ _ _ _ _ _ u1
    have hu1 : StepKept s u1 := h.setCore
    exact hu1.addCoreCnt
  · exact h

theorem of_save40Eff (h : StepKept s t) {c : Nat} {q : QWord} : StepKept s (save40Eff c t q) := by
  unfold save40Eff
  split
  · extract_lets
    exact h.setCore
  · exact h

theorem of_restore40Eff (h : StepKept s t) {c : Nat} {q : QWord} : StepKept s (restore40Eff c t q) := by
  unfold restore40Eff
  split
  · exact h.setCore
  · exact h

theorem yieldCore (h : StepKept s t) {c point mask csAddr csLen : Nat} :
    StepKept s (t.yieldCore c point mask csAddr csLen) := by
  unfold State.yieldCore
  extract_lets
  split
  · exact h
  · extract_lets
    exact h.setCore

theorem yieldAtWait (h : StepKept s t) {c : Nat} : StepKept s (t.yieldAtWait c) := either h.yieldCore h

theorem of_waitEff (h : StepKept s t) {c : Nat} {q : QWord} : StepKept s (waitEff c t q) := by
  unfold waitEff
  split
  · extract_lets
    exact either h h.setCore.yieldAtWait
  · exact h

theorem of_yieldEff (h : StepKept s t) {c : Nat} {q : QWord} : StepKept s (yieldEff c t q) := by
  unfold yieldEff
  split
  · exact either h.yieldCore h
  · exact h

theorem of_endEff (h : StepKept s t) {c : Nat} {_q : QWord} : StepKept s (endEff c t _q) := h.setCore

theorem of_moveReadEff (h : StepKept s t) {c : Nat} {q : QWord} : StepKept s (moveReadEff c t q) := by
  unfold moveReadEff
  split
  · extract_lets
    exact either h.setCore.addSlot h.setCore.addSlot
  · exact h

theorem sendAdvance (h : StepKept s t) {c : Nat} {q : QWord} : StepKept s (t.sendAdvance c q) := by
  unfold State.sendAdvance
  split
  · extract_lets
    exact h.same
  · exact h

theorem of_moveWriteEff (h : StepKept s t) {c : Nat} {q : QWord} : StepKept s (moveWriteEff c t q) := by
  unfold moveWriteEff
  split
  · extract_lets _ _ u1
    have hu1 : StepKept s u1 := either h.sendAdvance h
    exact either hu1.setCluster.addSlot hu1.setCore.addSlot
  · exact h

theorem storeBefore (h : StepKept s t) {core step : Nat} : StepKept s (t.storeBefore core step) := by
  unfold State.storeBefore
  split
  · exact h.foldl fun _ _ hu => hu.storeFill
  · exact h

theorem of_moveOutEff (h : StepKept s t) {c : Nat} {q : QWord} : StepKept s (moveOutEff c t q) :=
  (either h.storeBefore h).of_moveWriteEff

theorem of_atomicEff (h : StepKept s t) {c : Nat} {q : QWord} : StepKept s (atomicEff c t q) := by
  unfold atomicEff
  split
  · dsimp only
    split
    · exact h.discardFenced
    · refine addSlot (addSlot (addCnt (setCore ?_)))
      exact h.stores fun m => ⟨m.1, wf_wrBytes _ _ m.2⟩
  · exact h

theorem of_vecMap (h : StepKept s t) {f : Nat → Nat → Nat → Nat} {c : Nat} {q : QWord} :
    StepKept s (vecMap f c t q) := by
  unfold vecMap
  split
  · extract_lets
    exact h.setCore
  · exact h

theorem of_add40Eff (h : StepKept s t) {c : Nat} {q : QWord} : StepKept s (add40Eff c t q) := by
  unfold add40Eff
  split
  · extract_lets
    exact h.setCore.addCoreCnt
  · exact h

theorem of_wellEff (h : StepKept s t) {f : Bool → Core → VecWord → Nat → Nat → W40 → W40 × Bool} {c : Nat} {q : QWord} :
    StepKept s (wellEff f c t q) := by
  unfold wellEff
  split
  · extract_lets
    exact h.setCore.addCoreCnt
  · exact h

theorem of_cvtEff (h : StepKept s t) {c : Nat} {q : QWord} : StepKept s (cvtEff c t q) := by
  unfold cvtEff
  split
  · extract_lets _ _ _ u1
    have hu1 : StepKept s u1 := h.setCore
    exact hu1.addCoreCnt
  · exact h

theorem of_vecReduce (h : StepKept s t) {f : Nat → Nat → Nat} {c : Nat} {q : QWord} :
    StepKept s (vecReduce f c t q) := by
  unfold vecReduce
  split
  · extract_lets
    exact h.setCore
  · exact h

theorem of_topkEff (h : StepKept s t) {c : Nat} {q : QWord} : StepKept s (topkEff c t q) := by
  unfold topkEff
  split
  · extract_lets
    exact h.setCore
  · exact h

theorem of_splitmixEff (h : StepKept s t) {c : Nat} {q : QWord} : StepKept s (splitmixEff c t q) := by
  unfold splitmixEff
  split
  · extract_lets
    exact h.setCore
  · exact h

theorem of_fma40Eff (h : StepKept s t) {c : Nat} {q : QWord} : StepKept s (fma40Eff c t q) := by
  unfold fma40Eff
  split
  · extract_lets
    exact h.setCore.addCoreCnt
  · exact h

theorem of_lscan40Eff (h : StepKept s t) {c : Nat} {q : QWord} : StepKept s (lscan40Eff c t q) := by
  unfold lscan40Eff
  split
  · extract_lets _ _ _ _ _ _ _ _ _ _ _ _ u1
    have hu1 : StepKept s u1 := h.setCore
    exact hu1.addCoreCnt
  · exact h

theorem selfTestDone (h : StepKept s t) {core : Nat} {pass : Bool} {unit : Nat} :
    StepKept s (t.selfTestDone core pass unit) := by
  unfold State.selfTestDone
  split
  · exact h
  · extract_lets u1 u2 _ u3 u4
    have hu1 : StepKept s u1 := h.setCoreFld.setCoreFld.setCoreFld
    have hu2 : StepKept s u2 := hu1.setCoreFld
    have hu3 : StepKept s u3 := hu2.setCore
    have hu4 : StepKept s u4 := hu3.setCoreFld.setCoreFld
    exact either hu2.setCore hu4.setCoreFld.raise.raise

theorem refetchWindow (h : StepKept s t) {w : WinReq} {redeal : State → WinReq → State}
    (hredeal : ∀ u x2, StepKept s u → StepKept s (redeal u x2)) :
    StepKept s (t.refetchWindow w redeal) := by
  unfold State.refetchWindow
  extract_lets _ u1 u2
  have hu1 : StepKept s u1 := h.same
  have hu2 : StepKept s u2 := by
    unfold u2
    split
    · exact hu1.setCmd
    · exact hu1
  exact hredeal _ _ hu2

theorem waitRederive (h : StepKept s t) {c : Cmd} : StepKept s (t.waitRederive c) := by
  unfold State.waitRederive
  extract_lets u1
  have hu1 : StepKept s u1 := h.discard
  split
  · exact hu1.holdCmd
  · exact hu1

theorem loseCmds (h : StepKept s t) {hit : Nat → Nat → Bool} : StepKept s (t.loseCmds hit) :=
  h.foldl fun _ _ hu => either hu.waitRederive (either hu.discard hu)

theorem lose (h : StepKept s t) {hit : Nat → Nat → Bool} : StepKept s (t.lose hit) :=
  (h.foldl (fun _ _ hu => hu.loseVer)).loseCmds

theorem cacheUe (h : StepKept s t) {slice off : Nat} {recovery : State → State} {redeal : State → WinReq → State}
    (hrecovery : ∀ u, StepKept s u → StepKept s (recovery u)) (hredeal : ∀ u x2, StepKept s u → StepKept s (redeal u x2)) :
    StepKept s (t.cacheUe slice off recovery redeal) := by
  unfold State.cacheUe
  split
  · exact h
  · extract_lets _ u1 _ _ u2 _ u3
    have hu1 : StepKept s u1 := h.raise
    have hu2 : StepKept s u2 := hu1.same
    have hu3 : StepKept s u3 := hu2.same
    split
    · exact hrecovery _ hu2
    · split
      · split
        · exact hu3.refetchWindow fun _ _ hu => hredeal _ _ hu
        · exact hu3
      · exact hu2.lose

theorem failRead (h : StepKept s t) {stack : Nat} {r' : UnitRead} : StepKept s (t.failRead stack r') := h.same.addCnt

theorem groupLost (h : StepKept s t) {g : Nat} : StepKept s (t.groupLost g) := by
  unfold State.groupLost
  extract_lets _ u1 _ u2
  have hu1 : StepKept s u1 := by
    unfold u1
    split
    · split
      · exact either h.waitRederive h
      · exact h
    · exact h
  have hu2 : StepKept s u2 := hu1.setGroup
  exact hu2.setInt.raise

theorem groupsLost (h : StepKept s t) {hit : Nat → Nat → Bool} : StepKept s (t.groupsLost hit) :=
  h.foldl fun _ _ hu => either hu.groupLost hu

theorem retire (h : StepKept s t) {stack pc : Nat} : StepKept s (t.retire stack pc) :=
  either h (either h.setStack.setFld.raise
    ((h.foldl (fun _ _ hu => hu.failRead)).setStack.setFld.setFld.setInt.raise.groupsLost.lose))

theorem hbmUe (h : StepKept s t) {stack a : Nat} : StepKept s (t.hbmUe stack a) := by
  unfold State.hbmUe
  extract_lets _ _ _ u1 u2 u3 _ _ u4 _ _ u5
  have hu1 : StepKept s u1 := h.addCnt
  have hu2 : StepKept s u2 := hu1.setFld.setFld
  have hu3 : StepKept s u3 := hu2.raise
  have hu4 : StepKept s u4 := hu3.same
  have hu5 : StepKept s u5 := hu4.setStack
  exact either h (either hu5.retire hu5.lose)

theorem poisonedRead (h : StepKept s t) {core : Nat} : StepKept s (t.poisonedRead core) := by
  unfold State.poisonedRead
  split
  · split
    · exact h.lostInput
    · exact h
  · exact h

theorem unitRelease (h : StepKept s t) {stack pc : Nat} : StepKept s (t.unitRelease stack pc) := by
  unfold State.unitRelease
  extract_lets
  split
  · exact h
  · split
    · exact h
    · split
      · refine h.foldl fun u x hu => ?_
        split
        · exact either hu.recallLine hu
        · exact hu
      · extract_lets u1 _ u2
        have hu1 : StepKept s u1 := h.setStack
        have hu2 : StepKept s u2 := hu1.setCore
        exact either hu1.poisonedRead hu2.pins.addSlot

theorem retrain (h : StepKept s t) {stack ch : Nat} : StepKept s (t.retrain stack ch) :=
  either h.setFld.setFld.setStack h

theorem retrainFailed (h : StepKept s t) {stack pc : Nat} : StepKept s (t.retrainFailed stack pc) :=
  h.setFld.setFld.retire

theorem retrainEnd (h : StepKept s t) {stack : Nat} {pass0 pass1 : Bool} :
    StepKept s (t.retrainEnd stack pass0 pass1) := by
  unfold State.retrainEnd
  split
  · exact h
  · split
    · exact h
    · extract_lets _ u1 _ u2 u3 u4
      have hu1 : StepKept s u1 := h.setFld
      have hu2 : StepKept s u2 := hu1.setStack
      have hu3 : StepKept s u3 := either hu2.addCnt hu2
      have hu4 : StepKept s u4 := either hu3 hu3.retrainFailed
      exact either hu4 hu4.retrainFailed

theorem watchCool (h : StepKept s t) : StepKept s t.watchCool := either h.same h

theorem temperatureRead (h : StepKept s t) {stack r' : Nat} : StepKept s (t.temperatureRead stack r') := by
  unfold State.temperatureRead
  split
  · exact h
  · extract_lets _ u1 u2
    have hu1 : StepKept s u1 := h.setStack.setFld
    have hu2 : StepKept s u2 := hu1.watchCool
    exact either hu2.raise hu2

theorem refreshInterval (h : StepKept s t) {stack : Nat} : StepKept s (t.refreshInterval stack) :=
  either h (either h h.setStack.setFld.setInt.raise)

theorem ownRow (h : StepKept s t) {r' : Requester} {p : OwnPage} {code : Nat} {op : State → State}
    (hop : ∀ u, StepKept s u → StepKept s (op u)) :
    StepKept s (t.ownRow r' p code op) :=
  either (h.opWrite (fun _ hu => hu.ownGo (fun _ hu => hop _ hu))) h

theorem devZero (h : StepKept s t) {a n : Nat} : StepKept s (t.devZero a n) :=
  h.stores fun m => ⟨wf_filter _ m.1, m.2⟩

theorem zeroGranule (h : StepKept s t) {p : OwnPage} {g : Nat} : StepKept s (t.zeroGranule p g) := by
  cases p with
  | stack i => exact h.devZero
  | slice i => exact h.stores fun m => ⟨m.1, wf_filter _ m.2⟩

theorem revokeEffect (h : StepKept s t) {p : OwnPage} : StepKept s (t.revokeEffect p) := by
  unfold State.revokeEffect
  extract_lets
  split
  · exact h
  · extract_lets u1 _ _ u2
    have hu1 : StepKept s u1 := h.foldl fun _ _ hu => hu.disown
    have hu2 : StepKept s u2 := hu1.same
    exact hu2.setFld.ownInt

theorem reductionDone (h : StepKept s t) {q seq : Nat} : StepKept s (t.reductionDone q seq) := by
  unfold State.reductionDone
  split
  · exact h
  · split
    · exact h
    · extract_lets _ _ _ u1
      have hu1 : StepKept s u1 := h.foldl fun _ _ hu => hu.countRead
      split
      · split
        · exact h.askInputs
        · split
          · exact hu1.lostInput
          · split
            · exact hu1.noEffect
            · extract_lets u2 u3 u4
              have hu2 : StepKept s u2 := hu1.homeWrite
              have hu3 : StepKept s u3 := hu2.addCnt
              have hu4 : StepKept s u4 := hu3.addCnt
              exact hu4.setInt.outputsDone
      · exact h

theorem laneTrain (h : StepKept s t) {p : Nat} {rx : Bool} {w : Nat} {partner : Bool} :
    StepKept s (t.laneTrain p rx w partner) :=
  either h.setLane h

theorem measureRtt (h : StepKept s t) {rtt : Nat} : StepKept s (t.measureRtt rtt) := by
  unfold State.measureRtt
  extract_lets u1
  have hu1 : StepKept s u1 := either h.setFld h
  exact either hu1.setFld.raise hu1

theorem lockTimeout (h : StepKept s t) {p : Nat} {rx : Bool} {w : Nat} : StepKept s (t.lockTimeout p rx w) :=
  either h.setLane.raise h

theorem laneDown (h : StepKept s t) {p : Nat} {rx : Bool} {w : Nat} : StepKept s (t.laneDown p rx w) :=
  either h.setLane.setInt.sendCtrl.raise h

theorem linkLost (h : StepKept s t) : StepKept s t.linkLost := by
  unfold State.linkLost
  split
  · split
    · extract_lets
      exact h.same.raise
    · exact h
  · exact h

theorem slotBegin (h : StepKept s t) {p : Nat} : StepKept s (t.slotBegin p) := either h.setPort.setFld h

theorem slotEnd (h : StepKept s t) {p : Nat} : StepKept s (t.slotEnd p) := by
  unfold State.slotEnd
  split
  · split
    · extract_lets _ u1
      have hu1 : StepKept s u1 := h.setPort
      exact hu1.setFld.addCnt.sendPort
    · exact h
  · exact h

theorem flitDrop (h : StepKept s t) {p : Nat} : StepKept s (t.flitDrop p) := by
  unfold State.flitDrop
  extract_lets u1
  have hu1 : StepKept s u1 := h.addCnt
  exact either hu1 hu1.setPort.emit

theorem ackIn (h : StepKept s t) {p ack : Nat} : StepKept s (t.ackIn p ack) := h.setPort.sendPort

theorem nakIn (h : StepKept s t) {p ack : Nat} : StepKept s (t.nakIn p ack) :=
  (h.ackIn.foldl (fun _ _ hu => hu.emit)).addCnt.addSlot

theorem flitAck (h : StepKept s t) {p hdr : Nat} : StepKept s (t.flitAck p hdr) := either h.nakIn (either h.ackIn h)

theorem creditIn (h : StepKept s t) {p cls n : Nat} : StepKept s (t.creditIn p cls n) := h.setPort.sendPort

theorem laneRotate (h : StepKept s t) {p : Nat} {rx : Bool} {w : Nat} {on : Bool} :
    StepKept s (t.laneRotate p rx w on) :=
  h.setLane

theorem handover (h : StepKept s t) {p lastSeq : Nat} : StepKept s (t.handover p lastSeq) := by
  unfold State.handover
  split
  · exact h
  · split
    · exact h
    · extract_lets _ _ u1 u2
      have hu1 : StepKept s u1 := h.setPort.addCnt
      have hu2 : StepKept s u2 := either h hu1.moveTx
      exact hu2.sendCtrl

theorem handoverDone (h : StepKept s t) {p : Nat} : StepKept s (t.handoverDone p) := by
  unfold State.handoverDone
  split
  · exact h
  · extract_lets _ _ u1
    have hu1 : StepKept s u1 := h.setPort
    split
    · exact h
    · extract_lets u2 u3 u4
      have hu2 : StepKept s u2 := hu1.mapSlots
      have hu3 : StepKept s u3 := either hu2 hu2.moveTx
      have hu4 : StepKept s u4 := hu3.setFld
      exact hu4.addCnt.setInt

theorem ctrlIn (h : StepKept s t) {port : Nat} {w : W64} : StepKept s (t.ctrlIn port w) := by
  unfold State.ctrlIn
  extract_lets
  split
  · exact either h.creditIn h
  · exact h.laneRotate
  · exact h.laneRotate
  · exact either h.handover h
  · exact either h.handoverDone h
  · exact h

theorem recallTimeout (h : StepKept s t) {line : Nat} : StepKept s (t.recallTimeout line) := by
  unfold State.recallTimeout
  split
  · exact h
  · split
    · exact h
    · extract_lets u1
      have hu1 : StepKept s u1 := h.setInt.raise
      exact hu1.setPoison.recallDone

theorem stallWatch (h : StepKept s t) {p : Nat} : StepKept s (t.stallWatch p) := by
  unfold State.stallWatch
  extract_lets _ u1
  have hu1 : StepKept s u1 := h.setPort
  split
  · exact either hu1.addCnt.setInt.raise h
  · exact h

theorem cisRow (h : StepKept s t) {r' : Requester} {m code : Nat} {op : State → State}
    (hop : ∀ u, StepKept s u → StepKept s (op u)) :
    StepKept s (t.cisRow r' m code op) :=
  either (h.opWrite (fun _ hu => hu.cisGo (fun _ hu => hop _ hu))) h

theorem sliceEnd (h : StepKept s t) {ctx : Nat} : StepKept s (t.sliceEnd ctx) := by
  unfold State.sliceEnd
  extract_lets _ u1 u2 u3
  have hu1 : StepKept s u1 := h.trace
  have hu2 : StepKept s u2 := by
    unfold u2
    split
    · exact hu1.addCnt
    · exact hu1
  have hu3 : StepKept s u3 := hu2.setCtx
  exact either h (either h.startSlice (either h.setInt.raise.startSlice (hu3.foldl (fun _ _ hu => hu.yieldAtWait))))

theorem sliceOverrun (h : StepKept s t) {ctx : Nat} : StepKept s (t.sliceOverrun ctx) := by
  unfold State.sliceOverrun
  extract_lets _ u1 u2 u3
  have hu1 : StepKept s u1 := h.setCtx.raise
  have hu2 : StepKept s u2 := hu1.setInt
  have hu3 : StepKept s u3 := by
    unfold u3
    split
    · exact hu2.addCnt
    · exact hu2
  exact either h hu3.same

theorem savedBytes (h : StepKept s t) {n : Nat} : StepKept s (t.savedBytes n) := h.addCnt

theorem openSave (h : StepKept s t) {ctx : Nat} : StepKept s (t.openSave ctx) := either h.same.setCtx.savedBytes h

theorem poolWrite (h : StepKept s t) {u : Option Nat} {data : List Byte} : StepKept s (t.poolWrite u data) := by
  unfold State.poolWrite
  split
  · exact h.devWrite
  · exact h

theorem writeHeader (h : StepKept s t) {ctx : Nat} : StepKept s (t.writeHeader ctx) := h.poolWrite

theorem keepRecord (h : StepKept s t) {ctx : Nat} {r' : SavedCore} : StepKept s (t.keepRecord ctx r') :=
  h.openSave.same.setCtx.addCnt.savedBytes.poolWrite.writeHeader

theorem putClRec (h : StepKept s t) {ctx cl : Nat} {tensors : List Byte} : StepKept s (t.putClRec ctx cl tensors) := by
  unfold State.putClRec
  extract_lets _ _ u1
  have hu1 : StepKept s u1 := h.setCtx
  split
  · exact h
  · extract_lets _ u2
    have hu2 : StepKept s u2 := hu1.same.setCtx
    exact hu2.poolWrite.writeHeader

theorem layerLeaves (h : StepKept s t) {ctx : Nat} {p : Place} {cl : Nat} : StepKept s (t.layerLeaves ctx p cl) := by
  unfold State.layerLeaves
  split
  · exact h
  · split
    · exact h
    · extract_lets _ _ u1
      have hu1 : StepKept s u1 := h.setCluster
      exact either hu1 hu1.setCtx.savedBytes.putClRec

theorem coreRelease (h : StepKept s t) {core : Nat} : StepKept s (t.coreRelease core) := by
  unfold State.coreRelease
  extract_lets
  split
  · extract_lets _ u1 u2 u3
    have hu1 : StepKept s u1 := by
      unfold u1
      split
      · exact h.keepRecord
      · exact either h h.keepRecord
    have hu2 : StepKept s u2 := hu1.freeCore.layerLeaves
    have hu3 : StepKept s u3 := hu2.idleNow
    exact either h hu3.layersEnd.settle
  · exact h

theorem swapOut (h : StepKept s t) : StepKept s t.swapOut := by
  unfold State.swapOut
  split
  · split
    · exact h.ctxTo
    · exact h
  · exact h

theorem saveStore (h : StepKept s t) {ctx cl : Nat} : StepKept s (t.saveStore ctx cl) :=
  h.openSave.setCluster.setCtx.addSlot.savedBytes.putClRec

theorem saveComplete (h : StepKept s t) {ctx : Nat} : StepKept s (t.saveComplete ctx) := by
  unfold State.saveComplete
  extract_lets _ u1 _ u2 u3 u4
  have hu1 : StepKept s u1 := h.foldl fun _ _ hu => hu.saveStore
  have hu2 : StepKept s u2 := hu1.setCtx
  have hu3 : StepKept s u3 := hu2.addCnt
  have hu4 : StepKept s u4 := by
    unfold u4
    split
    · exact hu3.addCnt
    · exact hu3
  exact either h hu4.setInt.settle

theorem swapIn (h : StepKept s t) : StepKept s t.swapIn := by
  unfold State.swapIn
  split
  · split
    · extract_lets
      exact h.setCtx
    · exact h
  · exact h

theorem restoreStore (h : StepKept s t) {bytes cl : Nat} {r' : Cluster} : StepKept s (t.restoreStore bytes cl r') :=
  either h.setCluster.addSlot h

theorem restoreComplete (h : StepKept s t) {ctx : Nat} : StepKept s (t.restoreComplete ctx) :=
  either h ((h.foldl (fun _ _ hu => hu.restoreStore)).setCtx.ctxTo.setInt.settle)

theorem afterPower (h : StepKept s t) {p : Power} : StepKept s (t.afterPower p) := h.stores fun _ => ⟨rfl, rfl⟩

theorem pwrOk (h : StepKept s t) {straps : Nat} : StepKept s (t.pwrOk straps) := by
  unfold State.pwrOk
  split
  · exact h
  · extract_lets u1 _ u2
    have hu1 : StepKept s u1 := h.afterPower
    have hu2 : StepKept s u2 := hu1.same
    exact hu2.setFld

theorem refLost (h : StepKept s t) {ref : Nat} : StepKept s (t.refLost ref) :=
  either h ((either h.setFld h.setFld.setFld).setInt.raise)

theorem pllUnlock (h : StepKept s t) : StepKept s t.pllUnlock := either h h.setFld.setInt.raise

theorem movePoint (h : StepKept s t) {cl target : Nat} : StepKept s (t.movePoint cl target) :=
  either h h.setClk.addCnt.trace

theorem powerState (h : StepKept s t) {gated : Bool} : StepKept s (t.powerState gated) := h.setFld

theorem powerMeasure (h : StepKept s t) {watts mv : Nat} : StepKept s (t.powerMeasure watts mv) :=
  h.same.setFld.setFld.addCnt.setFld

theorem powerRecompute (h : StepKept s t) {mean mv best : Nat} : StepKept s (t.powerRecompute mean mv best) := by
  unfold State.powerRecompute
  split
  · exact h
  · extract_lets _ _ u1 _ _ _ _ _ u2 u3 u4 u5
    have hu1 : StepKept s u1 := h.applyField.applyField
    have hu2 : StepKept s u2 := hu1.same
    have hu3 : StepKept s u3 := either (hu2.foldl (fun _ _ hu => either hu hu.movePoint)) hu2
    have hu4 : StepKept s u4 := hu3.setFld
    have hu5 : StepKept s u5 := hu4.powerMeasure.powerState
    exact either hu5.setInt.raise hu5

theorem droop (h : StepKept s t) {cl : Nat} : StepKept s (t.droop cl) := either h h.draw.addCnt.setInt

theorem droopCalibration (h : StepKept s t) {cl : Nat} : StepKept s (t.droopCalibration cl) := either h h.setCluster

theorem throttleCluster (h : StepKept s t) {cl : Nat} : StepKept s (t.throttleCluster cl) := h.setClk

theorem overheats (h : StepKept s t) {compute port : List Byte} {control : Nat} {photonic : List Byte} :
    StepKept s (t.overheats compute port control photonic) :=
  (h.foldl (fun _ _ hu => either hu.raise hu)).foldl fun _ _ hu => either hu.raise hu

theorem dieTemperatureRead (h : StepKept s t) {compute port : List Byte} {control : Nat} {photonic : List Byte} :
    StepKept s (t.dieTemperatureRead compute port control photonic) := by
  unfold State.dieTemperatureRead
  split
  · exact h
  · extract_lets _ _ _ _ _ u1 u2 u3 u4 u5 u6
    have hu1 : StepKept s u1 := h.same
    have hu2 : StepKept s u2 := hu1.setFld.setFld.setFld
    have hu3 : StepKept s u3 := hu2.setFld
    have hu4 : StepKept s u4 := hu3.foldl fun _ _ hu => hu.setFld
    have hu5 : StepKept s u5 := (hu4.foldl (fun _ _ hu => hu.throttleCluster)).powerState
    have hu6 : StepKept s u6 := either hu5.setInt.raise hu5
    exact hu6.overheats.watchCool

theorem park (h : StepKept s t) {cl : Nat} : StepKept s (t.park cl) := either h h.setClk.addCnt

theorem blackAfterReset (h : StepKept s t) : StepKept s t.blackAfterReset := by
  unfold State.blackAfterReset
  split
  · exact h
  · split
    · exact h
    · extract_lets
      exact h.same.takeStop

theorem putBack (h : StepKept s t) {cl : Nat} : StepKept s (t.putBack cl) := either h.setCluster.setFld.setFld h

theorem takeAfresh (h : StepKept s t) {n : Nat} {gone : List Nat} : StepKept s (t.takeAfresh n gone) :=
  (h.foldl (fun _ _ hu => hu.unlockGroups.dropCmd)).same.setQueue

theorem reexecute (h : StepKept s t) {n : Nat} {d : Done} : StepKept s (t.reexecute n d) := by
  unfold State.reexecute
  split
  · extract_lets _ _ _ u1
    have hu1 : StepKept s u1 := h.same
    exact hu1.setQueue
  · exact h

theorem clusterResetDoneOp (h : StepKept s t) {cl : Nat} : StepKept s (t.clusterResetDoneOp cl) := by
  unfold State.clusterResetDoneOp
  split
  · exact h
  · split
    · exact h
    · extract_lets u1 u2 _ u3 u4 u5 u6 u7 u8
      have hu1 : StepKept s u1 := h.wipeCores
      have hu2 : StepKept s u2 := hu1.setCluster
      have hu3 : StepKept s u3 := hu2.same
      have hu4 : StepKept s u4 := hu3.setClk
      have hu5 : StepKept s u5 := either hu4 hu4.putBack
      have hu6 : StepKept s u6 := either hu5.setFld hu5
      have hu7 : StepKept s u7 := hu6.setFld.setFld
      have hu8 : StepKept s u8 := hu7.addCnt.setCnt
      exact hu8.setInt

theorem lcApply (h : StepKept s t) : StepKept s t.lcApply := by
  unfold State.lcApply
  split
  · exact h
  · exact h.trans ⟨rfl, ⟨le_rfl, fun _ hi => hi, fun i r hr => ⟨{ r with applied := true },
      by simp [List.getElem?_map, hr], rfl, fun _ => rfl⟩⟩, id⟩

theorem showFails (h : StepKept s t) {l : List Nat} : StepKept s (t.showFails l) := h.setFld.setFld.setFld

theorem loadFirmware (h : StepKept s t) : StepKept s t.loadFirmware := by
  unfold State.loadFirmware
  exact h.setFld.setFld.setFld.setFld.same

theorem getBootCause (h : StepKept s t) : StepKept s t.getBootCause := either h h.addCnt.emit

theorem treeDone (h : StepKept s t) : StepKept s t.treeDone := by
  unfold State.treeDone
  split
  · exact h
  · split
    · exact h
    · extract_lets u1 _ _ u2
      have hu1 : StepKept s u1 := h.commitRes
      have hu2 : StepKept s u2 := hu1.same
      exact hu2.setFld.setFld.setInt

theorem requestUpdateOp (h : StepKept s t) {size : Nat} : StepKept s (t.requestUpdateOp size) :=
  either h (either h.emit (either h.emit h.same.emit.emit))

theorem regMessage (h : StepKept s t) {op : State → State} (hop : ∀ u, StepKept s u → StepKept s (op u)) :
    StepKept s (t.regMessage op) :=
  either h (hop _ h.addCnt.addCnt)

theorem setdasaOp (h : StepKept s t) {addr : Nat} : StepKept s (t.setdasaOp addr) := either h h.setFld.setFld.setInt

theorem countErr (h : StepKept s t) {e : ErrRec} : StepKept s (t.countErr e) := by
  unfold State.countErr
  extract_lets u1
  have hu1 : StepKept s u1 := h.addCnt
  split
  · exact hu1
  · exact hu1.setFld

theorem captureFirst (h : StepKept s t) {e r' : ErrRec} : StepKept s (t.captureFirst e r') := by
  unfold State.captureFirst
  split
  · exact h
  · extract_lets _ u1
    have hu1 : StepKept s u1 := either h h.same.setFld
    split
    · exact hu1
    · exact either hu1 hu1.setFld.setFld.setFld.setFld

theorem sampleInst (h : StepKept s t) {cls inst : Nat} : StepKept s (t.sampleInst cls inst) :=
  h.foldl fun _ _ hu => hu.trace

theorem sample (h : StepKept s t) : StepKept s t.sample := either (h.same.foldl (fun _ _ hu => hu.sampleInst)) h

theorem windowOver (h : StepKept s t) : StepKept s t.windowOver := by
  unfold State.windowOver
  extract_lets _ u1 u2
  have hu1 : StepKept s u1 := h.setFld.addCnt
  have hu2 : StepKept s u2 := either hu1.raise hu1
  exact hu2.same

theorem throttleWindow (h : StepKept s t) : StepKept s t.throttleWindow :=
  either h.applyField.applyField.applyField.windowOver h

theorem domainHalt (h : StepKept s t) {d : Nat} : StepKept s (t.domainHalt d) := either h.same h

theorem haltedOp (h : StepKept s t) : StepKept s t.haltedOp := either h.setFld.addCnt.setInt.trace.raise h

theorem domainResume (h : StepKept s t) {d : Nat} : StepKept s (t.domainResume d) := either h.same h

theorem releasedOp (h : StepKept s t) : StepKept s t.releasedOp := either h.stopOver.setInt h

theorem wfgDoneOp (h : StepKept s t) : StepKept s t.wfgDoneOp := by
  unfold State.wfgDoneOp
  split
  · exact h
  · split
    · exact either h.wfgWrite h
    · exact either h h.setFld.setFld.addCnt.setInt

theorem vinLow (h : StepKept s t) {mv : Nat} : StepKept s (t.vinLow mv) := either h h.setFld.setInt.raise

theorem partLost (h : StepKept s t) {code part : Nat} : StepKept s (t.partLost code part) := h.same

theorem portDieLost (h : StepKept s t) {p : Nat} : StepKept s (t.portDieLost p) := either h h.same.partLost

theorem debugInstruction (h : StepKept s t) : StepKept s t.debugInstruction := either h.takeStop h

theorem droopSlotEnd (h : StepKept s t) {cl : Nat} : StepKept s (t.droopSlotEnd cl) := by
  unfold State.droopSlotEnd
  extract_lets
  split
  · exact h
  · exact h.setCluster.addCnt

theorem updateEnd (h : StepKept s t) {u : Update} : StepKept s (t.updateEnd u) := by
  unfold State.updateEnd
  extract_lets _ u1 u2
  have hu1 : StepKept s u1 := h.same
  have hu2 : StepKept s u2 := hu1.emit.preferOp
  exact either hu2.emit.setInt hu1.emit

theorem firmwareData (h : StepKept s t) {off : Nat} {data : List Byte} : StepKept s (t.firmwareData off data) := by
  unfold State.firmwareData
  split
  · exact h
  · split
    · exact h
    · extract_lets _ u1
      have hu1 : StepKept s u1 := h.same
      exact either hu1.updateEnd hu1.emit

theorem tickCodewords (h : StepKept s t) : StepKept s t.tickCodewords := h.foldl fun _ _ hu => hu.addCnt

theorem tickClocks (h : StepKept s t) : StepKept s t.tickClocks :=
  either (h.foldl (fun _ _ hu => either hu hu.addCnt)) h

theorem tickBusy (h : StepKept s t) : StepKept s t.tickBusy :=
  h.foldl (fun _ _ hu => hu.foldl (fun _ _ hu => either hu.addSlot hu))

theorem tickIf (h : StepKept s t) {b : Bool} {c : Cnt} {inst : Nat} : StepKept s (t.tickIf b c inst) :=
  either h.addCnt h

theorem tickBlocks (h : StepKept s t) : StepKept s t.tickBlocks :=
  (h.tickIf.tickIf.foldl (fun _ _ hu => hu.tickIf)).tickIf.tickIf

theorem tickWait (h : StepKept s t) {c : Cmd} : StepKept s (t.tickWait c) := by
  unfold State.tickWait
  split
  · exact h
  · extract_lets u1
    have hu1 : StepKept s u1 := h.addCnt
    exact either hu1.addCnt hu1

theorem tickCore (h : StepKept s t) {p : Place} : StepKept s (t.tickCore p) := by
  unfold State.tickCore
  split
  · exact h
  · exact either h.addCnt h.setCmd.addCnt

theorem tickYield (h : StepKept s t) {x : Ctx} : StepKept s (t.tickYield x) := by
  unfold State.tickYield
  split
  · exact either h.addCnt h
  · exact h

theorem tickAccounts (h : StepKept s t) : StepKept s t.tickAccounts :=
  either h (((h.foldl (fun _ _ hu => hu.tickWait)).foldl (fun _ _ hu => hu.tickCore)).foldl (fun _ _ hu => hu.tickYield))

theorem retrainsOver (h : StepKept s t) : StepKept s t.retrainsOver := h.foldl fun _ _ hu => hu.retrainEnd

theorem portSlotsOver (h : StepKept s t) : StepKept s t.portSlotsOver := h.foldl fun _ _ hu => hu.slotEnd

theorem droopSlotsOver (h : StepKept s t) : StepKept s t.droopSlotsOver := h.foldl fun _ _ hu => hu.droopSlotEnd

theorem takeReq (h : StepKept s t) {m tag : Nat} {w : CisFor} {u : State} (e : t.takeReq m tag = some (w, u)) :
    StepKept s u := by
  unfold State.takeReq at e
  dsimp only at e
  split at e
  · cases e
  · cases e
    exact h.setModule

theorem takeBlock (h : StepKept s t) {k : Nat} {u : State} (e : t.takeBlock = some (k, u)) : StepKept s u := by
  unfold State.takeBlock at e
  split at e
  · cases e
  · cases e
    exact h.same

theorem openWork (h : StepKept s t) {c : Cmd} : StepKept s (t.openWork c) := by
  unfold State.openWork
  split
  · rename_i _ _ _ _ _ _ _ u1_8 e1_9 e1_10 e1_11
    have hu1_8 := h.takeBlock e1_11
    split
    · exact h
    · split
      · exact h.lostInput
      · split
        · exact h.noEffect
        · extract_lets _ _ _ u1 u2
          have hu1 : StepKept s u1 := hu1_8.countRead.setObjCount
          have hu2 : StepKept s u2 := hu1.devWrite.addRefs
          exact hu2.stagedNow
  · exact h

theorem whWork (h : StepKept s t) {c : Cmd} : StepKept s (t.whWork c) := by
  unfold State.whWork
  split
  · exact h.openWork
  · exact h.forkWork
  · exact h.pruneWork
  · exact h.stagedNow
  · exact h

theorem enableIntr (h : StepKept s t) {before : State} {cls inst : Nat} : StepKept s (before.enableIntr t cls inst) :=
  either h.blockIntr h

theorem writeField (h : StepKept s t) {inst bank v : Nat} {f : Field} : StepKept s (t.writeField inst bank v f).1 := by
  unfold State.writeField
  extract_lets
  split
  · exact h
  · exact h
  · exact either h h.setFld
  · split
    · exact h
    · exact h.setFld
  · split
    · exact h
    · split
      · exact h
      · split
        · exact h
        · exact h.setFld
  · split
    · exact h
    · split
      · exact h.holdField
      · exact h.takeField

theorem wipeShared (h : StepKept s t) : StepKept s t.wipeShared := by
  have lost (vs : List Ver) : StepKept s (vs.foldl (fun u v => u.loseVer (fun home _ => decide (home = 1)) v) t) :=
    h.foldl fun _ _ hu => hu.loseVer
  exact (lost _).stores fun m => ⟨m.1, wf_filter _ m.2⟩

theorem sign (h : StepKept s t) {nonce : List Byte} : StepKept s (t.sign nonce).1 := by
  unfold State.sign
  extract_lets _ _ _ _ _ _ _ u1 u2 u3
  have hu1 : StepKept s u1 := h.same.addCnt
  have hu2 : StepKept s u2 := either hu1.setFld hu1
  have hu3 : StepKept s u3 := either hu2.setInt.raise hu2
  exact hu3.showIndex

theorem attestOp (h : StepKept s t) {nonce : List Byte} : StepKept s (t.attestOp nonce).1 := by
  unfold State.attestOp
  split
  · exact h
  · split
    · exact h.setFld
    · split
      · exact h
      · exact (either h h.reserve).sign

theorem returnStepDrops (h : StepKept s t) {c : Cmd} : StepKept s (t.returnStepDrops c).1 := by
  unfold State.returnStepDrops
  extract_lets u1
  have hu1 : StepKept s u1 := h.foldl fun _ _ hu => hu.setObjCount
  exact hu1.unstage

theorem publishStep (h : StepKept s t) {c : Cmd} : StepKept s (t.publishStep c) := by
  unfold State.publishStep
  extract_lets u1 _ u2 u3 u4 u5
  have hu1 : StepKept s u1.1 := h.returnStepDrops
  have hu2 : StepKept s u2 := by
    unfold u2
    refine hu1.foldl fun u x hu => ?_
    split
    · extract_lets
      exact hu.putImage.putBranch
    · exact hu
  have hu3 : StepKept s u3 := (hu2.foldl (fun _ _ hu => hu.nextEpoch)).nextEpoch
  have hu4 : StepKept s u4 := hu3.dropRefs
  have hu5 : StepKept s u5 := hu4.foldl fun _ _ hu => hu.publishGroupStep
  exact hu5.addCnt

theorem publishEffects (h : StepKept s t) {c : Cmd} : StepKept s (t.publishEffects c) := by
  unfold State.publishEffects
  extract_lets u1 _ u2 u3 u4
  have hu1 : StepKept s u1 := h.keepOld
  have hu2 : StepKept s u2 := hu1.foldl fun _ _ hu => either hu.devWrite hu
  have hu3 : StepKept s u3 := by
    unfold u3
    split
    · exact hu2.publishOpen
    · exact hu2.publishStep
    · exact hu2.publishFork
    · exact hu2.publishPrune
    · exact hu2.publishClose
    · exact hu2.publishAppend
    · exact hu2
  have hu4 : StepKept s u4 := hu3.unstage
  exact hu4.coverSource

theorem returnFreed (h : StepKept s t) {c : Cmd} {ps : List Nat} : StepKept s (t.returnFreed c ps).1 := by
  unfold State.returnFreed
  extract_lets
  exact (h.foldl (fun _ _ hu => hu.setObjCount)).unstage

theorem releaseLeft (h : StepKept s t) {c : Cmd} {os : List Obj} : StepKept s (t.releaseLeft c os).1 := by
  unfold State.releaseLeft
  extract_lets
  exact h.dropRefs

theorem closeBranch (h : StepKept s t) {c : Cmd} {tokens k : Nat} {x : HeadOut} :
    StepKept s (t.closeBranch c tokens k x).1 := by
  unfold State.closeBranch
  extract_lets
  split
  · exact h
  · extract_lets _ _ u1
    have hu1 : StepKept s u1 := h.devWrite
    exact hu1

theorem ringEnter (h : StepKept s t) {e : ErrRec} : StepKept s (t.ringEnter e).1 := by
  unfold State.ringEnter
  extract_lets _ _ _ _ _ _ u1 u2
  have hu1 : StepKept s u1 := h.same
  have hu2 : StepKept s u2 := hu1.setFld
  split
  · exact h.same.addCnt
  · exact either hu2.addCnt.setInt hu2

theorem tick (h : StepKept s t) : StepKept s t.tick := by
  have counted := h.tickAccounts.tickBlocks.tickBusy.tickClocks.tickCodewords
  unfold State.tick
  split
  · exact h
  · generalize t.tickAccounts.tickBlocks.tickBusy.tickClocks.tickCodewords = u at counted ⊢
    have later : StepKept s { u with tm.now := u.tm.now + 1 } := counted.same
    exact later.droopSlotsOver.portSlotsOver.retrainsOver

theorem cCmp (h : StepKept s t) {m tag status : Nat} : StepKept s (t.cCmp m tag status) := by
  unfold State.cCmp
  split
  · exact h
  · next w u e =>
    have hu := h.takeReq e
    refine cisDrained ?_
    dsimp only
    have hw : StepKept s (if status = 6 then u.cisWorn m else u) := either hu.cisWorn hu
    generalize (if status = 6 then u.cisWorn m else u) = v at hw ⊢
    split
    · split
      · exact hw.cisOpDone
      · exact hw.cisOpDone
      · exact hw.cisOpDone
      · exact hw.cisOpDone
      · exact hw
    · split
      · exact hw.commitData
      · exact hw.commitRecord
      · exact hw.cisFlush
      · exact hw.commitEnd
      · exact hw.formatFrom
      · exact hw.formatEnd
      · exact hw.setModule.cisOpDone
      · exact hw.cisOpDone
      · exact hw

theorem stageBytes (h : StepKept s t) {c : Cmd} {u : DescUse} {data : List Byte} :
    StepKept s (t.stageBytes c u data).1 := by
  unfold State.stageBytes
  split
  · exact h
  · exact h.homeWrite

theorem moveWork (h : StepKept s t) {c : Cmd} : StepKept s (t.moveWork c) := by
  unfold State.moveWork
  split
  · next src dst _ =>
    split
    · exact h
    · extract_lets d e u
      have hu : StepKept s u := h.countRead
      split
      · exact hu.lostInput
      · split
        · exact hu.noEffect
        · extract_lets out r
          have hr : StepKept s r.1 := hu.stageBytes
          exact either hu.noEffect hr.outputsDone
  · exact h

theorem inputArrived (h : StepKept s t) {c : Cmd} : StepKept s (t.inputArrived c) := by
  unfold State.inputArrived
  extract_lets u1
  have hu1 : StepKept s u1 := h.readCisterns
  split
  · exact hu1.moveWork
  · exact hu1.moveWork
  · exact either hu1.whWork hu1
  · exact either hu1.whWork hu1
  · exact either hu1.whWork hu1
  · exact hu1

theorem writeFields (h : StepKept s t) {cls inst off v : Nat} : StepKept s (t.writeFields cls inst off v) := by
  unfold State.writeFields
  extract_lets bank r
  have hr : StepKept s r.1 := by
    have written (l : List Field) (p : State × Bool) (hp : StepKept s p.1) :
        StepKept s (l.foldl (fun (a : State × Bool) f => let b := a.1.writeField inst bank v f; (b.1, a.2 || b.2)) p).1 := by
      induction l generalizing p with
      | nil => exact hp
      | cons f l ih => exact ih _ hp.writeField
    exact written _ _ h
  exact either hr.reject hr

theorem hdrWrite (h : StepKept s t) {cls inst off v : Nat} : StepKept s (t.hdrWrite cls inst off v) := by
  unfold State.hdrWrite
  split
  · extract_lets u1
    have hu1 : StepKept s u1 := h.writeFields.enableIntr
    exact either hu1.snap hu1
  · exact either h.pgErrFirstClearOp h
  · exact either h.pgApply h
  · exact h.writeFields

theorem coreWrite (h : StepKept s t) {inst off v : Nat} : StepKept s (t.coreWrite inst off v) := by
  unfold State.coreWrite
  extract_lets
  split
  · exact either h.coreTest h
  · exact either h.setCoreFld.setCoreFld h
  · exact h.writeFields

theorem addFence (h : StepKept s t) {q seq counter job mask gen : Nat} {reclaim : Bool} {u : State}
    (e : t.addFence q seq counter job mask gen reclaim = some u) : StepKept s u := by
  unfold State.addFence at e
  dsimp only at e
  split at e
  · cases e
  · cases e
    have fenced (l : List Fence) : StepKept s { t with tl.fences := l } := h.same
    exact either (fenced _).setCounter (fenced _)

theorem reclaim (h : StepKept s t) {l : SeqLayer} {j : Job} : StepKept s (t.reclaim l j) := by
  unfold State.reclaim
  extract_lets
  split
  · exact h
  · split
    · exact h.rerun
    · rename_i _ u4_2 e4_3
      have hu4_2 := h.addFence e4_3
      exact hu4_2.raiseGauges

theorem dropSaved (h : StepKept s t) {cl : Nat} : StepKept s (t.dropSaved cl) :=
  h.same.foldl (fun _ _ hu => hu.foldl (fun _ _ hu => hu.reclaim))

theorem winCfgWrite (h : StepKept s t) {inst off v : Nat} : StepKept s (t.winCfgWrite inst off v) :=
  either h h.writeFields

theorem winSizeWrite (h : StepKept s t) {inst off v : Nat} : StepKept s (t.winSizeWrite inst off v) :=
  either h (either h.writeFields h.reject)

theorem portEnable (h : StepKept s t) {p : Nat} : StepKept s (t.portEnable p) := by
  have drawn : StepKept s t.draw.2 := h.draw
  exact drawn.setFld.setPort

theorem askUpTo (h : StepKept s t) {fuel n : Nat} : StepKept s (State.askUpTo fuel t n) := by
  induction fuel generalizing t with
  | zero => exact h
  | succ fuel ih => exact either h (ih h.askRecord)

theorem newTail (h : StepKept s t) {n tail : Nat} : StepKept s (t.newTail n tail) := by
  unfold State.newTail
  extract_lets _ u1 _ u2
  have hu1 : StepKept s u1 := h.setQueue
  have hu2 : StepKept s u2 := hu1.same
  exact either hu2.askUpTo h

theorem doorbell (h : StepKept s t) {p : Pkt} : StepKept s (t.doorbell p) := by
  unfold State.doorbell
  extract_lets _ _ u1
  have hu1 : StepKept s u1 := h.applyField
  exact either h.dbDrop (either hu1.raise.setInt hu1.addSlot.newTail)

theorem lcReply (h : StepKept s t) {dst : Nat} {token : List Byte} : StepKept s (t.lcReply dst token).1 := by
  unfold State.lcReply
  extract_lets u1
  have hu1 : StepKept s u1 := h.lcRequestOp
  exact hu1

theorem vendorReply (h : StepKept s t) {code : Nat} {b : List Byte} : StepKept s (t.vendorReply code b).1 := by
  unfold State.vendorReply
  split
  · exact h
  · exact h
  · exact h.attestOp
  · exact h
  · exact h.lcReply
  · exact h
  · exact h.clearCountOp
  · exact h

theorem withKv (h : StepKept s t) {k : Kv} : StepKept s { t with kv := k } := h.same

theorem takePage (h : StepKept s t) {ctx p : Nat} {u : State} (e : t.takePage ctx = some (p, u)) : StepKept s u := by
  unfold State.takePage at e
  split at e
  · cases e
  · split at e
    · cases e
    · cases e
      refine writePageRecord (withKv (addCnt (setPageCount ?_)))
      have drawn : StepKept s { t with free := t.free + 1 } := h.same
      exact either drawn.devWrite.addCnt.addCnt drawn

theorem takePages (h : StepKept s t) {n ctx : Nat} : StepKept s (State.takePages n t ctx).2 := by
  induction n generalizing t with
  | zero => exact h
  | succ n ih =>
    unfold State.takePages
    split
    · exact h
    · next p u e => exact ih (h.takePage e)

theorem appendOne (h : StepKept s t) {c : Cmd} {n k : Nat} : StepKept s (t.appendOne c n k).1 := by
  unfold State.appendOne
  extract_lets _ _ _ u1 u2 u3
  have hu1 : StepKept s u1.2 := h.takePages
  have hu2 : StepKept s u2 := hu1.lowCheck
  have hu3 : StepKept s u3 := hu2.putSeq
  exact hu3

theorem retireAll (h : StepKept s t) {n : Nat} : StepKept s (State.retireAll n t) := by
  induction n generalizing t with
  | zero => exact h
  | succ n ih =>
    unfold State.retireAll
    split
    · exact h
    · exact ih h.setRec

theorem settleLog (h : StepKept s t) : StepKept s t.settleLog := h.retireAll.releaseOld.freeLog

theorem descriptorSwap (h : StepKept s t) {q seq : Nat} : StepKept s (t.descriptorSwap q seq) := by
  unfold State.descriptorSwap
  split
  · exact h
  · split
    · extract_lets u1 u2
      have hu1 : StepKept s u1 := h.publishEffects
      have hu2 : StepKept s u2 := hu1.complete
      exact hu2.settleLog
    · exact h

theorem stageBranch (h : StepKept s t) {c : Cmd} {tokens gi : Nat} {p : Prep} :
    StepKept s (t.stageBranch c tokens gi p).1 := by
  unfold State.stageBranch
  extract_lets
  split
  · exact h
  · rename_i _ _ u2_3 e2_4
    have hu2_3 := h.takeBlock e2_4
    extract_lets u1 u2 _ _ _ u3 u4
    have hu1 : StepKept s u1.1 := hu2_3.releaseLeft
    have hu2 : StepKept s u2 := hu1
    have hu3 : StepKept s u3.2 := hu2.takePages
    have hu4 : StepKept s u4 := hu3
    exact hu4

theorem askUnits (h : StepKept s t) {core a dest fuel len : Nat} {u1 : Bool} :
    StepKept s (t.askUnits core a dest u1 fuel len) := by
  induction fuel generalizing t a dest len with
  | zero => exact h
  | succ fuel ih => exact either h (ih h.setStack)

theorem fetchDev (h : StepKept s t) {core a len dest : Nat} {u1 : Bool} : StepKept s (t.fetchDev core a len dest u1) :=
  h.askUnits

theorem fetch (h : StepKept s t) {c : Cmd} {core : Nat} {u : DescUse} {off len dest : Nat} {u1 : Bool} :
    StepKept s (t.fetch c core u off len dest u1) :=
  either h.fetchDev ((either h.countRead (either h.addSlot h)).fillCore)

theorem fetchPiece (h : StepKept s t) {r' : ItemRun} {core base : Nat} {origin : List Nat} {x : Config.Piece} :
    StepKept s (t.fetchPiece r' core base origin x) := by
  unfold State.fetchPiece
  extract_lets
  split
  · exact h.fillCore
  · exact either h.addSlot.fillCore h.fetch
  · exact either h.addSlot.fillCore h.fetchDev
  · exact h

theorem giveBack (h : StepKept s t) {cl : Nat} {sl : SeqLayer} : StepKept s (t.giveBack cl sl) := by
  unfold State.giveBack
  extract_lets u1
  have hu1 : StepKept s u1 := h.foldl fun _ _ hu => hu.reclaim
  exact either hu1.setCluster hu1.putSeqLayer

theorem slotAnnounce (h : StepKept s t) {p : Nat} : StepKept s (t.slotAnnounce p) := by
  unfold State.slotAnnounce
  extract_lets _ u1 u2
  have hu1 : StepKept s u1.2 := h.draw
  have hu2 : StepKept s u2 := hu1
  exact either hu2.setPort.sendCtrl h

theorem withCmds (h : StepKept s t) {l : List Cmd} : StepKept s { t with cq.cmds := l } := h.same

theorem decideQueue (h : StepKept s t) {n : Nat} : StepKept s (t.decideQueue n) := by
  have taken (gone : List Nat) : StepKept s (if gone = [] then t else t.takeAfresh n gone) := either h h.takeAfresh
  unfold State.decideQueue
  dsimp only
  split
  · exact h
  · exact foldl (setQueue (withCmds (taken _))) (fun _ _ hu => hu.reexecute)

theorem resumeQueue (h : StepKept s t) {n : Nat} : StepKept s (t.resumeQueue n) := (either h.askUpTo h).pumpQueue

theorem resetDoneOp (h : StepKept s t) : StepKept s t.resetDoneOp := by
  unfold State.resetDoneOp
  split
  · exact h
  · split
    · exact h
    · extract_lets _ _ _ _ u1 u2 u3 u4 u5 u6 u7 u8
      have hu1 : StepKept s u1 := h.same
      have hu2 : StepKept s u2 := hu1.foldl fun _ _ hu => hu.setClk
      have hu3 : StepKept s u3 := hu2.foldl fun _ _ hu => hu.putBack
      have hu4 : StepKept s u4 := hu3.setFld.setFld
      have hu5 : StepKept s u5 := hu4.addCnt.setCnt
      have hu6 : StepKept s u6 := hu5.setInt
      have hu7 : StepKept s u7 := hu6.foldl fun _ _ hu => hu.decideQueue
      have hu8 : StepKept s u8 := hu7.foldl fun _ _ hu => either hu.ctxAbsent hu
      exact hu8.foldl fun _ _ hu => hu.resumeQueue

theorem enableKcl (h : StepKept s t) : StepKept s t.enableKcl := h.foldl fun _ _ hu => hu.portEnable

theorem readReg (h : StepKept s t) {r : Requester} {off size : Nat} {a : RegAns} (e : t.readReg r off size = some a) :
    StepKept s a.st := by
  unfold State.readReg at e
  dsimp only at e
  split at e
  · cases e
  · split at e
    · cases e
      exact h
    · split at e
      · cases e
        exact h.addCnt
      · split at e
        · cases e
        · cases e
          exact h.addCnt.readEffect

theorem regReadPkt (h : StepKept s t) {p : Pkt} {u : State} (e : t.regReadPkt p = some u) : StepKept s u := by
  obtain ⟨a, ha, rfl⟩ := Option.map_eq_some_iff.mp e
  exact (h.readReg ha).answerData

theorem cData (h : StepKept s t) {m tag status : Nat} {data : List Byte} : StepKept s (t.cData m tag status data) := by
  unfold State.cData
  split
  · exact h
  · next w u e =>
    have hu := h.takeReq e
    refine cisDrained ?_
    generalize u.reqCmd w = c
    have counted : StepKept s (if w = .ident then u else (u.addCnt C.CIS_CNT_READ 1 m).addSlot 0x22 m 0 data.length) :=
      either hu hu.addCnt.addSlot
    dsimp only
    generalize (if w = .ident then u else (u.addCnt C.CIS_CNT_READ 1 m).addSlot 0x22 m 0 data.length) = v at counted ⊢
    have worn : StepKept s (if status = 5 then v.cisMedia m c else v) := either counted.cisMedia counted
    generalize (if status = 5 then v.cisMedia m c else v) = v' at worn ⊢
    split
    · exact either worn.setModule worn.setModule.setCnt.cisKnown
    · exact either worn.setModule worn.setModule.cisKnown
    · exact either worn.setModule worn.setModule.cisScan
    · split
      · exact worn
      · exact either worn.lostInput worn.setCmd.inputArrived
    · split
      · exact worn
      · exact either worn.lostInput.cisNextCommit worn.catChecked
    · exact worn

theorem ownGoWrite (h : StepKept s t) {p : OwnPage} : StepKept s (t.ownGoWrite p) := by
  refine ownGo h fun u hu => ?_
  split
  · exact hu.grant
  · exact hu.revoke
  · exact hu.ownQuery

theorem cisGoWrite (h : StepKept s t) {m : Nat} : StepKept s (t.cisGoWrite m) := by
  refine cisGo h fun u hu => ?_
  split
  · exact hu.cisFormat
  · exact hu.cisRelease
  · exact hu.cisTrimOp
  · exact hu.cisOpDone

theorem minimalLink (h : StepKept s t) : StepKept s t.minimalLink := by
  unfold State.minimalLink
  dsimp only
  have up : StepKept s ((List.range 24).foldl (fun u p => u.setFld F.OP_STATUS.UP (b2n (t.minimalPort = some p)) p) t) :=
    h.foldl fun _ _ hu => hu.setFld
  split
  · exact up
  · exact (up.mapSlots.foldl fun _ _ hu => hu.moveTx).sendPort

theorem mailboxReply (h : StepKept s t) {m : List Byte} : StepKept s (t.mailboxReply m).1 := by
  unfold State.mailboxReply
  split
  · dsimp only
    split
    · exact h.vendorReply
    · exact h
  · exact h

/-- A fold over pairs of a state and another value keeps what each step keeps. -/
theorem foldl_fst {α β : Type} {f : State × β → α → State × β} (step : ∀ p x, StepKept s p.1 → StepKept s (f p x).1)
    {l : List α} {p : State × β} (h : StepKept s p.1) : StepKept s (l.foldl f p).1 := by
  induction l generalizing p with
  | nil => exact h
  | cons x r ih => exact ih (step p x h)

theorem startAppend (h : StepKept s t) {c : Cmd} : StepKept s (t.startAppend c).1 :=
  foldl_fst (fun _ _ hp => hp.appendOne) h

theorem fetchSpans (h : StepKept s t) {c : Cmd} {core : Nat} {u : DescUse} {u1 : Bool} {dest : Nat} {l : List Span} :
    StepKept s (t.fetchSpans c core u u1 dest l) := by
  induction l generalizing t dest with
  | nil => exact h
  | cons x r ih => exact ih (either h.fetch h.fillCore)

theorem onI3c (h :
    StepKept s t) {code : Nat} {op : State → State × Reply} (ho : ∀ u, StepKept s u → StepKept s (op u).1) :
    StepKept s (t.onI3c code op) :=
  either h (either (ho _ h.addCnt).emit h.addCnt.emit)

theorem withCq (h : StepKept s t) {q : Cq} : StepKept s { t with cq := q } := h.same

theorem withTl (h : StepKept s t) {k : Tl} : StepKept s { t with tl := k } := h.same

theorem emptyCluster (h : StepKept s t) {cl : Nat} : StepKept s (t.emptyCluster cl) := by
  have rerun : StepKept s (match (t.cluster cl).owner with | some (q, n) => t.rerun q n | none => t) := by
    split
    · exact h.rerun
    · exact h
  unfold State.emptyCluster
  extract_lets own a ls b x c d e f g k
  have freed : StepKept s b := foldl rerun fun _ _ hu => either hu.freeCore.dropReads hu
  have reclaimed : StepKept s d := freed.setCluster.foldl fun _ _ hu => hu.foldl fun _ _ hv => hv.reclaim
  have gone : StepKept s g := reclaimed.dropSaved.withCq
  exact foldl (either gone gone.idleNow) fun _ _ hu => hu.layersEnd

theorem startRun (h : StepKept s t) {c : Cmd} : StepKept s (t.startRun c) := by
  unfold State.startRun
  extract_lets _ _ gr _ u _ v _ _ w r x
  have drawn : StepKept s u := h.same
  have cleared : StepKept s v := by
    unfold v
    clear_value gr
    split
    · exact drawn.withTl
    · exact drawn
  have appended : StepKept s r.1 := cleared.clearCounters.startAppend
  have kept : StepKept s x := appended.setCmd
  exact either kept.outputsDone kept.requestFirst

theorem issueFill (h : StepKept s t) {r : ItemRun} {core i fill : Nat} : StepKept s (t.issueFill r core i fill) := by
  unfold State.issueFill
  refine either h.lostInput (either ?_ ?_)
  · split
    · exact h.fillMask
    · exact h
  · split
    · exact h
    · refine either ?_ ?_
      · split
        · exact either h.lostInput h.fillPage
        · exact h
      · split
        · exact h.foldl fun _ _ hu => hu.fetchSpans
        · exact h.foldl fun _ _ hu => hu.foldl fun _ _ hv => hv.fetchPiece

theorem zeroDone (h : StepKept s t) {p : OwnPage} : StepKept s (t.zeroDone p) := by
  unfold State.zeroDone
  split
  · exact h
  · next g _ =>
    dsimp only
    refine either h (either (h.foldl fun _ _ hu => hu.recallLine) (ownDone ?_))
    have zeroed : StepKept s ((t.mustZero p g.first g.count g.ctx).foldl (fun u x => u.zeroGranule p x) t) :=
      h.foldl fun _ _ hu => hu.zeroGranule
    generalize (t.mustZero p g.first g.count g.ctx).foldl (fun u x => u.zeroGranule p x) t = u at zeroed ⊢
    have done : StepKept s { u with mm.granting := u.mm.granting.erase g } := zeroed.same
    generalize { u with mm.granting := u.mm.granting.erase g } = v at done ⊢
    cases p
    · exact done.own.setFld.setInt
    · exact done.own.setFld

theorem withDark (h : StepKept s t) {x : Option Nat} : StepKept s { t with er.darkSince := x } := h.same

theorem portUp (h : StepKept s t) {p rtt : Nat} : StepKept s (t.portUp p rtt) := by
  unfold State.portUp
  extract_lets a _ b _ c d e
  have up : StepKept s b := h.setFld.setFld.setInt.setPort
  have lit : StepKept s c := up.withDark.measureRtt
  have credited : StepKept s d := lit.grantCredit.grantCredit.grantCredit
  exact (either up.grantCredit.cisAttach
    (either credited.minimalLink (credited.foldl fun _ _ hu => hu.handoverStart))).sendPort

theorem enterMinimal (h : StepKept s t) {kind part inst : Nat} : StepKept s (t.enterMinimal kind part inst) := by
  have cleared : StepKept s t.stopByReset.resetQueues.clearEnables := h.stopByReset.resetQueues.clearEnables
  unfold State.enterMinimal
  dsimp only
  generalize t.stopByReset.resetQueues.clearEnables = u at cleared ⊢
  generalize t.stopByReset.minStack = stack
  refine minimalLink (either (setInt ?_) ?_)
  all_goals
    refine setFld (setFld (setFld (setFld (setFld (setFld (setFld (setFld (setFld ?_))))))))
    exact cleared.stores fun hm => ⟨wf_filter _ hm.1, wf_filter _ hm.2⟩

theorem resetStart (h : StepKept s t) {recovery : Bool} {cause : Nat} : StepKept s (t.resetStart recovery cause) := by
  unfold State.resetStart
  extract_lets a _ b _ _ _ _ _ _ c d e f g i j _ _ k
  have stopped : StepKept s a := h.stopByReset.applyHeld
  have cleared : StepKept s b := stopped.same
  have started : StepKept s c := cleared.same
  have shown : StepKept s d := started.setFld.setFld.setFld
  have forced : StepKept s e := either shown.setFld shown
  have queues : StepKept s f := forced.resetQueues
  have enables : StepKept s g := either queues queues.clearEnables
  have cmds : StepKept s i := enables.foldl fun _ _ hu => hu.resetCmd
  have wiped : StepKept s j := cmds.abandonGrants.wipeClusters.wipeUnowned.wipeShared.rebuild
  have emptied : StepKept s k := by
    unfold k
    clear_value j
    exact wiped.same
  exact emptied.resetCtxs.foldl fun _ _ hu => hu.setClk

theorem stepStart (h : StepKept s t) {q seq : Nat} : StepKept s (t.stepStart q seq) := by
  unfold State.stepStart
  split
  · exact h
  · refine either (either h.askInputs ?_) h
    extract_lets r a c b _ _ _ _ d preps _ freed e before _ r' f c' x evs g _ _ c'' i
    have dropped : StepKept s b := h.returnStepDrops.setCmd
    have engaged : StepKept s d := dropped.foldl fun _ _ hu => either hu.setGroup hu
    have begun : StepKept s r'.1 := engaged.unhold.returnFreed
    have staged : StepKept s x.1 := foldl_fst (fun _ _ hp => hp.stageBranch) begun
    have set : StepKept s i := staged.lowCheck.addCnt.setCmd
    exact either engaged.holdCmd (either engaged.holdCmd (either set.requestFirst set).settle)

theorem stepClose (h : StepKept s t) {q seq : Nat} {heads : List HeadOut} : StepKept s (t.stepClose q seq heads) := by
  unfold State.stepClose
  split
  · exact h
  · refine either ?_ h
    extract_lets _ _ x _ c gs a _ _ c' b
    have closed : StepKept s x.1 := by
      refine foldl_fst (fun p k hp => ?_) h
      split
      · exact hp.closeBranch
      · exact hp
    have rows : StepKept s a := closed.foldl fun _ _ hu => hu.writeRows
    have set : StepKept s b := rows.setCmd
    exact either set.stagedNow set.settle

theorem resetRequest (h : StepKept s t) {recovery : Bool} {cause : Nat} :
    StepKept s (t.resetRequest recovery cause) := by
  unfold State.resetRequest
  split
  · split
    · extract_lets
      exact h.same.clearEnables
    · exact h
  · exact either h.resetStart h

theorem takeOut (h : StepKept s t) {cl : Nat} : StepKept s (t.takeOut cl) :=
  either h h.emptyCluster.setCluster.setFld.setFld

theorem clusterResetRequest (h : StepKept s t) {cl cause : Nat} : StepKept s (t.clusterResetRequest cl cause) := by
  unfold State.clusterResetRequest
  split
  · exact h
  · extract_lets u1 u2 u3
    have hu1 : StepKept s u1 := h.stopByReset.takeOut
    have hu2 : StepKept s u2 := hu1.applyHeld.testCores
    have hu3 : StepKept s u3 := hu2.setFld.setFld
    exact hu3.same

theorem rstCtrl (h : StepKept s t) {r' : Requester} {v : Nat} : StepKept s (t.rstCtrl r' v) := by
  unfold State.rstCtrl
  extract_lets u1 u2
  have hu1 : StepKept s u1 := either h.resetRequest h
  have hu2 : StepKept s u2 := either hu1.resetRequest hu1
  exact either hu2.clusterResetRequest hu2

theorem portDisable (h : StepKept s t) {p : Nat} : StepKept s (t.portDisable p) := by
  unfold State.portDisable
  extract_lets _ u1 u2 _ u3
  have hu1 : StepKept s u1 := h.setFld.setFld
  have hu2 : StepKept s u2 := hu1.foldl fun _ _ hu => hu.laneDark.laneDark
  have hu3 : StepKept s u3 := hu2.setPort
  exact either hu3 (either hu3.cisOffline (either hu3.minimalLink hu3.moveSlots))

theorem opCfgWrite (h : StepKept s t) {p v : Nat} : StepKept s (t.opCfgWrite p v) :=
  either h (either h.portEnable (either h.reject h.portDisable))

theorem mailboxServe (h : StepKept s t) : StepKept s t.mailboxServe := by
  unfold State.mailboxServe
  split
  · exact h
  · extract_lets u1 _ u2 _ u3
    have hu1 : StepKept s u1.1 := h.mailboxReply
    have hu2 : StepKept s u2 := hu1.addCnt
    have hu3 : StepKept s u3 := hu2.same
    exact hu3.setFld.hwr

theorem hrdDone (h : StepKept s t) {x : Hrd} {data : List Byte} : StepKept s (t.hrdDone x data) := by
  unfold State.hrdDone
  extract_lets _ u1
  have hu1 : StepKept s u1 := h.same
  split
  · exact hu1.recordArrived
  · exact either hu1 hu1.mailboxServe

theorem cmpDIn (h : StepKept s t) {p : Pkt} : StepKept s (t.cmpDIn p) := by
  unfold State.cmpDIn
  split
  · exact h.countIn.hrdDone
  · exact h

theorem begin (h : StepKept s t) {c : Cmd} : StepKept s (t.begin c) := by
  unfold State.begin
  extract_lets _ _ u1
  have hu1 : StepKept s u1 := h.setCmd
  split
  · exact hu1.lostInput
  · split
    · exact hu1.readCisterns.startRun
    · exact hu1.readCisterns.moveWork
    · exact hu1.readCisterns.moveWork
    · exact hu1.readCisterns
    · exact hu1.outputsDone

theorem commandStart (h : StepKept s t) {q seq : Nat} : StepKept s (t.commandStart q seq) := by
  unfold State.commandStart
  split
  · exact h
  · split
    · split
      · exact h.askInputs
      · split
        · exact h.holdCmd
        · extract_lets u1
          have hu1 : StepKept s u1 := h.unhold
          exact hu1.begin.settle
    · exact h

theorem pumpIn (h : StepKept s t) {core : Nat} {d : Nat × Nat} : StepKept s (t.pumpIn core d) := by
  unfold State.pumpIn
  split
  · split
    · extract_lets
      exact h.setCore.issueFill
    · exact h
  · exact h

theorem pump (h : StepKept s t) {core : Nat} : StepKept s (t.pump core) := by
  unfold State.pump
  split
  · exact h
  · exact h
  · extract_lets u1
    have hu1 : StepKept s u1 := h.foldl fun _ _ hu => hu.pumpOut
    exact hu1.foldl fun _ _ hu => hu.pumpIn

theorem beginItem (h : StepKept s t) {r' : ItemRun} {core job gen : Nat} :
    StepKept s (t.beginItem r' core job gen) := by
  unfold State.beginItem
  split
  · exact h
  · extract_lets _ _ _ _ _ u1 u2
    have hu1 : StepKept s u1 := h.setCore.issueWords
    have hu2 : StepKept s u2 := hu1.addCnt
    exact hu2.pump

theorem startItem (h : StepKept s t) {c : Cmd} {l : Layer} {p : Plan} {sl : SeqLayer} {j : Job} {core k : Nat} :
    StepKept s (t.startItem c l p sl j core k) := by
  unfold State.startItem
  split
  · exact h
  · exact h.beginItem

theorem dealItems (h : StepKept s t) {c : Cmd} {l : Layer} {p : Plan} {cl : Nat} :
    StepKept s (t.dealItems c l p cl) := by
  unfold State.dealItems
  split
  · exact h
  · refine h.foldl fun u x hu => ?_
    split
    · split
      · exact hu
      · split
        · exact hu
        · split
          · exact hu.putSeqLayer.startItem
          · exact either hu.issueWords hu
    · exact hu

theorem resumeCore (h : StepKept s t) {ctx : Nat} {sl : SeqLayer} {cl pos core : Nat} :
    StepKept s (t.resumeCore ctx sl cl pos core) := by
  unfold State.resumeCore
  extract_lets
  split
  · exact h.setCore
  · extract_lets u1
    have hu1 : StepKept s u1 := h.setCtx
    exact hu1.setCore.issueWords.pump

theorem removeCluster (h : StepKept s t) {cl : Nat} : StepKept s (t.removeCluster cl) := either h h.takeOut.raise

theorem clusterFault (h : StepKept s t) {cl : Nat} : StepKept s (t.clusterFault cl) := either h.removeCluster h

theorem dieLost (h : StepKept s t) {die : Nat} : StepKept s (t.dieLost die) :=
  either h (h.setFld.raise.foldl (fun _ _ hu => hu.removeCluster))

theorem portCheck (h : StepKept s t) {p rtt : Nat} : StepKept s (t.portCheck p rtt) := either h.portUp h

theorem laneLock (h : StepKept s t) {p : Nat} {rx : Bool} {w rtt : Nat} : StepKept s (t.laneLock p rx w rtt) :=
  either h.setLane.setInt.draw.sendCtrl.portCheck h

theorem portFail (h : StepKept s t) {p : Nat} : StepKept s (t.portFail p) := by
  unfold State.portFail
  split
  · exact h
  · extract_lets u1 u2 u3
    have hu1 : StepKept s u1 := h.setFld.setFld.setInt
    have hu2 : StepKept s u2 := hu1.raise
    have hu3 : StepKept s u3 := hu2.setInt
    exact either hu2.cisOffline (either hu3.minimalLink hu3.moveSlots)

theorem laserLoss (h : StepKept s t) {m : Nat} : StepKept s (t.laserLoss m) :=
  (h.foldl (fun _ _ hu => hu.foldl (fun _ _ hu => hu.laneDark))).foldl fun _ _ hu => hu.portFail

theorem bootMinimal (h : StepKept s t) {kind : Nat} : StepKept s (t.bootMinimal kind) := h.enableKcl.enterMinimal

theorem stageFail (h : StepKept s t) {code : Nat} : StepKept s (t.stageFail code) := by
  unfold State.stageFail
  split
  · exact h.showFails.bootMinimal
  · extract_lets u1 _ u2 _ u3
    have hu1 : StepKept s u1 := either h h.commitState
    have hu2 : StepKept s u2 := hu1.showFails
    have hu3 : StepKept s u3 := hu2.same
    exact hu3.setFld

theorem stageWork (h : StepKept s t) {n : Nat} {untrained : List (Fin 12 × Fin 64)} :
    StepKept s (t.stageWork n untrained) := by
  unfold State.stageWork
  split
  · exact h.lcApply.setFld.setFld.setFld
  · exact h.showFails.setFld
  · extract_lets _ u1
    have hu1 : StepKept s u1 := h.setFld
    exact either hu1.bootMinimal hu1.commitState.setFld
  · exact either h.loadFirmware.setFld h.stageFail
  · exact h.setFld
  · exact h.showIndex.setFld
  · exact h.setFld.setFld
  · extract_lets
    exact either h.stageFail ((h.foldl (fun _ _ hu => hu.retire)).setFld)
  · exact h.commitState.enableKcl.setFld
  · exact either h.setFld h
  · extract_lets _ u2 u3
    have hu2 : StepKept s u2 := h.same
    have hu3 : StepKept s u3 := hu2.setFld.setCnt
    exact either hu3.setFld.raise hu3
  · exact h

theorem bootStage (h : StepKept s t) {e : StageEnd} : StepKept s (t.bootStage e) := by
  unfold State.bootStage
  split
  · exact h
  · extract_lets
    split
    · extract_lets u1
      have hu1 : StepKept s u1 := h.stageWork
      exact hu1.same
    · exact either h.stageFail h

theorem stageTimeout (h : StepKept s t) : StepKept s t.stageTimeout := by
  unfold State.stageTimeout
  split
  · exact h
  · extract_lets
    split
    · exact h
    · exact either h.stageFail h

theorem blackReset (h : StepKept s t) {cause : Nat} : StepKept s (t.blackReset cause) := h.same.resetRequest

theorem blackArrives (h : StepKept s t) {e : ErrRec} : StepKept s (t.blackArrives e) := by
  unfold State.blackArrives
  split
  · extract_lets
    exact h.same
  · split
    · extract_lets
      exact h.same
    · split
      · exact h
      · split
        · extract_lets
          exact h.same
        · exact either h h.blackReset

theorem errActs (h : StepKept s t) {e : ErrRec} : StepKept s (t.errActs e) :=
  either h (either h.takeStop.blackArrives (either h.takeStop h))

theorem errorRecord (h : StepKept s t) : StepKept s t.errorRecord := by
  unfold State.errorRecord
  split
  · exact h
  · split
    · exact h
    · extract_lets _ u1 u2 _ u3 u4 u5 u6
      have hu1 : StepKept s u1 := h.same
      have hu2 : StepKept s u2.1 := hu1.countErr.ringEnter
      have hu3 : StepKept s u3 := hu2
      have hu4 : StepKept s u4 := either hu3 hu3.setInt
      have hu5 : StepKept s u5 := hu4.captureFirst
      have hu6 : StepKept s u6 := hu5.trace
      exact hu6.errActs

theorem blackActionOp (h : StepKept s t) : StepKept s t.blackActionOp := by
  unfold State.blackActionOp
  split
  · exact h
  · split
    · exact h
    · split
      · extract_lets
        exact h.same
      · split
        · exact h.enterMinimal
        · split
          · extract_lets
            exact h.same.watchCool
          · exact h.blackReset

theorem thermalHoldEndOp (h : StepKept s t) : StepKept s t.thermalHoldEndOp := by
  unfold State.thermalHoldEndOp
  split
  · exact h
  · exact either h.blackReset h

theorem startsOp (h : StepKept s t) {r : Requester} {cls inst off v : Nat} {u : State}
    (e : t.startsOp r cls inst off v = some u) : StepKept s u := by
  unfold State.startsOp at e
  split at e
  case h_12 =>
    obtain ⟨p, -, rfl⟩ := Option.map_eq_some_iff.mp e
    exact either h.ownGoWrite h
  case h_13 =>
    obtain ⟨p, -, rfl⟩ := Option.map_eq_some_iff.mp e
    exact either h.ownGoWrite h
  all_goals cases e
  · exact h.schedCfgWrite
  · exact h.ctxOpWrite
  · exact h.whCfgWrite
  · exact h.qOpWrite
  · exact h.kvpCfgWrite
  · exact either h.editGo h
  · exact h.limitWrite
  · exact h.rstCtrl
  · exact h.bootCtrl
  · exact h.secCtrl
  · exact either h.lcRequestOp h
  · exact h.winCfgWrite
  · exact h.winSizeWrite
  · exact either h.setFld.setFld h
  · exact h.cisCfgWrite
  · exact either h.cisGoWrite h
  · exact h.opCfgWrite
  · exact h.opCtrlWrite
  · exact either h.sendOp h
  · exact either h.mboxAckOp h
  · exact either h.errFirstClearOp h
  · exact h.errInjectOp
  · exact h.trcCfgWrite
  · exact h.markOp
  · exact h.stopCtrlWrite
  · exact either h.wfgGoOp h

theorem regPut (h : StepKept s t) {r' : Requester} {cls inst off v : Nat} :
    StepKept s (t.regPut r' cls inst off v) := by
  unfold State.regPut
  split
  · exact h.hdrWrite
  · split
    · exact h.coreWrite
    · split
      · rename_i _ u5_2 e5_3
        have hu5_2 := h.startsOp e5_3
        exact hu5_2
      · exact h.writeFields.enableIntr

theorem writeReg (h : StepKept s t) {r : Requester} {off size v : Nat} {a : RegAns}
    (e : t.writeReg r off size v = some a) : StepKept s a.st := by
  unfold State.writeReg at e
  dsimp only at e
  split at e
  · cases e
  · split at e
    · cases e
      exact h
    · split at e
      · cases e
        exact h.addCnt.lockWrite
      · split at e
        · cases e
          exact h.addCnt.lockAbort
        · split at e
          · cases e
            exact h.addCnt
          · cases e
            exact h.addCnt.regPut

theorem regWritePkt (h : StepKept s t) {p : Pkt} {u : State} (e : t.regWritePkt p = some u) : StepKept s u := by
  obtain ⟨a, ha, rfl⟩ := Option.map_eq_some_iff.mp e
  have written := h.writeReg ha
  exact (either written.countIn written).answer

theorem pktEffect (h : StepKept s t) {p : Pkt} {u : State} (e : t.pktEffect p = some u) : StepKept s u := by
  unfold State.pktEffect at e
  split at e
  · cases e
  · split at e
    · split at e
      · cases e
        exact h.cCmp
      · cases e
        exact h.cData
      · cases e
        exact h
    · split at e
      · split at e
        · cases e
          exact h.memAccess
        · split at e
          · exact h.regReadPkt e
          · cases e
            exact h.pktBad
      · split at e
        · cases e
          exact h.memAccess
        · split at e
          · exact h.regWritePkt e
          · cases e
            exact h.pktBad
      iterate 4
        · cases e
          exact either h.memAccess h.pktBad
      all_goals cases e
      · exact h.doorbell
      · exact h.push
      · exact h.cmpIn
      · exact h.cmpDIn
      · exact h.recallAck
      · exact h.recallData
      · exact h

theorem pktServe (h : StepKept s t) {p : Pkt} : StepKept s (t.pktServe p) := by
  unfold State.pktServe
  split
  · next u e => exact (h.pktEffect e).grantCredit
  · exact h.holdAccess

theorem registerRead (h : StepKept s t) {r : Requester} {off size : Nat} : StepKept s (t.registerRead r off size) := by
  unfold State.registerRead
  split
  · next a e => exact h.readReg e
  · exact h.holdAccess

theorem registerWrite (h : StepKept s t) {r : Requester} {off v : Nat} : StepKept s (t.registerWrite r off v) := by
  unfold State.registerWrite
  split
  · next a e => exact h.writeReg e
  · exact h.holdAccess

theorem mgmtRead (h : StepKept s t) {off size : Nat} : StepKept s (t.mgmtRead off size) := by
  unfold State.mgmtRead
  split
  · next a e => exact (h.readReg e).emit
  · exact h.holdAccess

theorem mgmtWrite (h : StepKept s t) {off size v : Nat} : StepKept s (t.mgmtWrite off size v) := by
  unfold State.mgmtWrite
  split
  · next a e => exact (h.writeReg e).emit
  · exact h.holdAccess

theorem goOn (h : StepKept s t) {cl q seq layer fuel : Nat} : StepKept s (t.goOn cl q seq layer fuel) := by
  induction fuel generalizing t with
  | zero => exact h
  | succ fuel ih =>
    unfold State.goOn
    split
    · split
      · exact h
      · refine either h ?_
        split
        · exact h.dealItems
        · exact ih h.beginJob
        · exact either (ih h.putSeqLayer) h.dealItems
    · exact h

theorem goOnHere (h : StepKept s t) {cl q seq layer : Nat} : StepKept s (t.goOnHere cl q seq layer) := h.goOn

theorem redeal (h : StepKept s t) {core : Nat} {keep : Bool} : StepKept s (t.redeal core keep) := by
  unfold State.redeal
  dsimp only
  split
  · exact h
  · next pl _ =>
    have freed : StepKept s (if keep then t.setCore core { (t.core core).freed with
        place := some { pl with item := none, due := [], outs := [] } } else t.freeCore core) :=
      either h.setCore h.freeCore
    generalize (if keep then t.setCore core { (t.core core).freed with
        place := some { pl with item := none, due := [], outs := [] } } else t.freeCore core) = u at freed ⊢
    split
    · exact freed
    · split
      · exact either freed.giveBack freed
      · refine either (either freed.giveBack freed) (either freed.giveBack ?_)
        split
        · exact freed.rerun
        · next v e => exact (freed.addFence e).putSeqLayer.raiseGauges.goOnHere

theorem clusterStoreUe (h : StepKept s t) {cl a reader : Nat} : StepKept s (t.clusterStoreUe cl a reader) := by
  unfold State.clusterStoreUe
  refine either h ?_
  extract_lets b x again homed c k d
  have seen : StepKept s c := h.raise.setCluster
  have served : StepKept s d := by
    unfold d
    clear_value c homed
    split
    · exact seen.rerun
    · split
      · exact either seen.dropReads.redeal seen
      · exact seen
  exact either served.removeCluster served

theorem withFree (h : StepKept s t) {n : Nat} : StepKept s { t with free := n } := h.same

theorem whCommandStart (h : StepKept s t) {q seq : Nat} : StepKept s (t.whCommandStart q seq) := by
  unfold State.whCommandStart
  split
  · exact h
  · refine either (either h.askInputs ?_) h
    split
    · exact h.holdCmd
    · next c _ _ =>
      extract_lets a c' b d e _ _ gr _ u _ v w _ c'' x
      have begun : StepKept s b := h.unhold.setCmd
      have locked : StepKept s e := begun.lockGroups.foldl fun _ _ hu => hu.trace
      have drawn : StepKept s u := locked.withFree
      have cleared : StepKept s v := by
        unfold v
        clear_value gr
        split
        · exact drawn.withTl
        · exact drawn
      have read : StepKept s x := cleared.clearCounters.setCmd.readCisterns
      refine either begun.lostInput ?_
      split
      · exact begun.whFail
      · exact read.whWork.settle

theorem recvPacket (h : StepKept s t) {p : Pkt} : StepKept s (t.recvPacket p) := either h.pktServe h

theorem kclRow (h : StepKept s t) {p : Pkt} {op : Nat} : StepKept s (t.kclRow p op) := either h.recvPacket h

theorem dispatchMessage (h : StepKept s t) {cl q seq layer : Nat} : StepKept s (t.dispatchMessage cl q seq layer) := by
  unfold State.dispatchMessage
  split
  · split
    · exact h
    · split
      · exact h
      · extract_lets _ u1 u2
        have hu1 : StepKept s u1 := either h h.applyField
        have hu2 : StepKept s u2 := hu1.foldl fun _ _ hu => hu.coreBoundary
        exact hu2.putSeqLayer.goOnHere
  · exact h

theorem resumeLayer (h : StepKept s t) {ctx cl : Nat} {sl : SeqLayer} : StepKept s (t.resumeLayer ctx cl sl) := by
  unfold State.resumeLayer
  split
  · exact h
  · split
    · exact h.wake
    · split
      · exact h
      · extract_lets _ _ u1 _ u2 u3 u4
        have hu1 : StepKept s u1 := h.setCluster
        have hu2 : StepKept s u2 := by
          unfold u2
          exact hu1.setCtx
        have hu3 : StepKept s u3 := by
          unfold u3
          refine hu2.foldl fun u x hu => ?_
          split
          · exact hu.resumeCore
          · exact hu
        have hu4 : StepKept s u4 := hu3.resumeTables
        exact hu4.ctxRuns.goOnHere

theorem resumeAll (h : StepKept s t) {ctx : Nat} : StepKept s (t.resumeAll ctx) :=
  h.foldl fun _ _ hu => hu.resumeLayer

theorem gotJob (h : StepKept s t) {cl : Nat} {l : SeqLayer} {j : Job} {reclaimed : Bool} :
    StepKept s (t.gotJob cl l j reclaimed) := by
  unfold State.gotJob
  extract_lets u1 u2 u3 _ u4
  have hu1 : StepKept s u1 := h.putSeqLayer
  have hu2 : StepKept s u2 := hu1.addCnt
  have hu3 : StepKept s u3 := either hu2.addCnt hu2
  have hu4 : StepKept s u4 := hu3.trace
  exact hu4.goOnHere

theorem claim (h : StepKept s t) {cl counter : Nat} : StepKept s (t.claim cl counter) := by
  unfold State.claim
  split
  · split
    · exact h
    · extract_lets
      split
      · extract_lets u1
        have hu1 : StepKept s u1 := h.same
        exact hu1.setCounter.gotJob
      · exact either h.setCounter.gotJob h.putSeqLayer.goOnHere
  · exact h

theorem itemLeaves (h : StepKept s t) {r' : ItemRun} {pl : Place} {sl : SeqLayer} {core : Nat} :
    StepKept s (t.itemLeaves r' pl sl core) := by
  unfold State.itemLeaves
  extract_lets _ _ _ _ u1 u2 u3 _ _ u4 u5
  have hu1 : StepKept s u1 := h.same
  have hu2 : StepKept s u2 := hu1.trace
  have hu3 : StepKept s u3 := by
    unfold u3
    split
    · exact hu2.putSeqLayer
    · exact hu2
  have hu4 : StepKept s u4 := hu3.setCore
  have hu5 : StepKept s u5 := either hu4.issueWords hu4
  exact hu5.goOnHere

theorem itemComplete (h : StepKept s t) {core : Nat} : StepKept s (t.itemComplete core) := by
  unfold State.itemComplete
  extract_lets
  split
  · split
    · split
      · exact h
      · extract_lets
        exact either h.lostInput (either (h.foldl (fun _ _ hu => either hu.askLines hu)) h.finishItem.putKvs.itemLeaves)
    · exact h
  · exact h

theorem serveHeld (h : StepKept s t) {x : HeldAccess} : StepKept s (t.serveHeld x) := by
  unfold State.serveHeld
  split
  · exact h.pktServe
  · exact either h.mgmtRead h.registerRead
  · exact either h.mgmtWrite h.registerWrite

theorem drain (h : StepKept s t) : StepKept s t.drain := h.same.foldl fun _ _ hu => hu.serveHeld

theorem redealReaders (h : StepKept s t) {w : WinReq} : StepKept s (t.redealReaders w) := by
  unfold State.redealReaders
  refine h.foldl fun u x hu => ?_
  split
  · exact either hu.dropReads.redeal hu
  · exact hu

theorem takePackets (h : StepKept s t) {fuel n : Nat} : StepKept s (State.takePackets fuel t n) := by
  induction fuel generalizing t with
  | zero => exact h
  | succ fuel ih =>
    unfold State.takePackets
    dsimp only
    split
    · exact h.setPort
    · split
      · exact h.setPort
      · exact ih (either h.setPort.recvPacket h.setPort)

theorem flitRelease (h : StepKept s t) {p typ : Nat} {slots : List W64} : StepKept s (t.flitRelease p typ slots) := by
  unfold State.flitRelease
  extract_lets _ u1
  have hu1 : StepKept s u1 := h.setPort.emit
  exact either hu1.setPort.takePackets (hu1.foldl (fun _ _ hu => hu.ctrlIn))

theorem flitIn (h : StepKept s t) {p : Nat} {b : List Byte} {decoded : Bool} : StepKept s (t.flitIn p b decoded) := by
  unfold State.flitIn
  split
  · exact h
  · split
    · exact h.flitDrop
    · extract_lets _ _ u1 u2
      have hu1 : StepKept s u1 := h.flitAck
      have hu2 : StepKept s u2 := hu1.addSlot
      exact either (either hu2.flitRelease (either hu2.flitDrop hu2)) hu1

theorem resetRow (h : StepKept s t) {r' : Requester} {v : Nat} : StepKept s (t.resetRow r' v) :=
  either h.rstCtrl.drain ((h.opWrite (fun _ hu => hu.rstCtrl)).drain)

theorem capturedOp (h : StepKept s t) : StepKept s t.capturedOp := either h.same.setCnt.setFld.setFld.setInt.drain h

theorem hdrRow (h : StepKept s t) {r' : Requester} {cls inst off v : Nat} : StepKept s (t.hdrRow r' cls inst off v) :=
  either h.registerWrite h

theorem coreFault (h : StepKept s t) {core cause well : Nat} : StepKept s (t.coreFault core cause well) := by
  unfold State.coreFault
  refine either h ?_
  extract_lets pl _ a b _ d e
  have raised : StepKept s b := h.setCoreFld.setCoreFld.raise
  have dealt : StepKept s d := raised.setCore.dropReads.redeal
  have tested : StepKept s e := dealt.setCoreFld.setCoreFld
  clear_value pl
  split
  · exact tested.layersEnd
  · exact tested

theorem offer (h : StepKept s t) {q seq ord : Nat} {p : Plan} {l : List Nat} : StepKept s (t.offer q seq ord p l) := by
  induction l generalizing t with
  | nil => exact h
  | cons cl rest ih =>
    unfold State.offer
    split
    · exact h
    · split
      · exact h
      · exact either h (either (ih h.placeOn) (ih h))

theorem placeLayer (h : StepKept s t) {q seq ord : Nat} : StepKept s (t.placeLayer q seq ord) := by
  unfold State.placeLayer
  split
  · exact h
  · split
    · exact h
    · exact either h (either h.emptyLayer
        (either h.offer (either h h.openLayer.offer.placedTrace.ctxRuns)))

theorem placementScan (h : StepKept s t) : StepKept s t.placementScan := by
  have scanned : StepKept s (t.scanOrder.foldl
      (fun u ctx => ((u.resumeAll ctx).ctxLayers ctx).foldl (fun u l => u.placeLayer l.1 l.2.1 l.2.2) (u.resumeAll ctx)) t) :=
    h.foldl fun _ _ hu => hu.resumeAll.foldl fun _ _ hv => hv.placeLayer
  exact either scanned.same h

end StepKept

/-- Every command answers a next state, and keeps the queue behind it, the fuses burnt and the canonical form. -/
theorem exec_next_kept (i : Instr) (s : State) : ∃ t, exec i s = .next t ∧ StepKept s t := by
  have h := StepKept.refl s
  cases i with
  | db | push | rdNc | rdS | rdM | wr | wb | evict | cmp | cmpD | rclAck | rclData =>
    exact ⟨_, rfl, h.kclRow⟩
  | run | move | checkpoint | reduce | barrier | openGroup | stepGroups | fork | prune | close =>
    exact ⟨_, rfl, h.takeRecord⟩
  | commandStart =>
    exact ⟨_, rfl, h.commandStart⟩
  | windowGrant =>
    exact ⟨_, rfl, h.windowGrant⟩
  | publish =>
    exact ⟨_, rfl, h.publish⟩
  | lineageSpaceFreed =>
    exact ⟨_, rfl, h.lineageSpaceFreed⟩
  | descriptorSwap =>
    exact ⟨_, rfl, h.descriptorSwap⟩
  | enable =>
    exact ⟨_, rfl, h.hostGives.opWrite fun _ hu => hu.enableOp⟩
  | disable =>
    exact ⟨_, rfl, h.opWrite fun _ hu => hu.disableOp⟩
  | resetSeq =>
    exact ⟨_, rfl, h.opWrite fun _ hu => hu.resetSeqOp⟩
  | whCommandStart =>
    exact ⟨_, rfl, h.whCommandStart⟩
  | stepStart =>
    exact ⟨_, rfl, h.stepStart⟩
  | stepClose =>
    exact ⟨_, rfl, h.stepClose⟩
  | holdResume =>
    exact ⟨_, rfl, h.holdResume⟩
  | rederiveDone =>
    exact ⟨_, rfl, h.rederiveDone⟩
  | countUpdate =>
    exact ⟨_, rfl, h.countUpdate⟩
  | holdingReturn =>
    exact ⟨_, rfl, h.holdingReturn⟩
  | seqCreate | seqDestroy | dropFront | evictEntry | setPolicy | sealTail =>
    exact ⟨_, rfl, h.editRow⟩
  | deferredEdit =>
    exact ⟨_, rfl, h.deferredEdit⟩
  | kvpCfgEnable =>
    exact ⟨_, rfl, h.opWrite fun _ hu => hu.kvpCfgWrite⟩
  | whCfgEnable =>
    exact ⟨_, rfl, h.opWrite fun _ hu => hu.whCfgWrite⟩
  | dispatchMessage =>
    exact ⟨_, rfl, h.dispatchMessage⟩
  | placementScan =>
    exact ⟨_, rfl, h.placementScan⟩
  | claim =>
    exact ⟨_, rfl, h.claim⟩
  | itemComplete =>
    exact ⟨_, rfl, h.itemComplete⟩
  | doneIncrement =>
    exact ⟨_, rfl, h.doneIncrement⟩
  | gaugeAdvance =>
    exact ⟨_, rfl, h.gaugeAdvance⟩
  | waitWake =>
    exact ⟨_, rfl, h.waitWake.pump⟩
  | array =>
    exact ⟨_, rfl, (h.runWord (fun _ _ hu => hu.of_arrayEff)).pump⟩
  | loadStat =>
    exact ⟨_, rfl, (h.runWord (fun _ _ hu => hu.of_loadStatEff)).pump⟩
  | drain =>
    exact ⟨_, rfl, (h.runWord (fun _ _ hu => hu.of_drainEff)).pump⟩
  | save40 =>
    exact ⟨_, rfl, (h.runWord (fun _ _ hu => hu.of_save40Eff)).pump⟩
  | restore40 =>
    exact ⟨_, rfl, (h.runWord (fun _ _ hu => hu.of_restore40Eff)).pump⟩
  | wait =>
    exact ⟨_, rfl, (h.runWord (fun _ _ hu => hu.of_waitEff)).pump⟩
  | yieldMark =>
    exact ⟨_, rfl, (h.runWord (fun _ _ hu => hu.of_yieldEff)).pump⟩
  | endWord =>
    exact ⟨_, rfl, (h.runWord (fun _ _ hu => hu.of_endEff)).pump⟩
  | moveRead =>
    exact ⟨_, rfl, (h.runWord (fun _ _ hu => hu.of_moveReadEff)).pump⟩
  | moveWrite =>
    exact ⟨_, rfl, (h.runWord (fun _ _ hu => hu.of_moveOutEff)).pump⟩
  | add32 | add64 | fadd32 | max32 | min32 | swap32 | swap64 | cas32 | cas64 =>
    exact ⟨_, rfl, (h.runWord (fun _ _ hu => hu.of_atomicEff)).pump⟩
  | fma | add | mul | max | min | select | vectorCmp | exp | ln | exp2 | log2 | sin2pi | cos2pi | tanh | sigmoid
  | sqrt | rcp | rsqrt =>
    exact ⟨_, rfl, (h.runWord (fun _ _ hu => hu.of_vecMap)).pump⟩
  | add40 =>
    exact ⟨_, rfl, (h.runWord (fun _ _ hu => hu.of_add40Eff)).pump⟩
  | add40w | gate40w =>
    exact ⟨_, rfl, (h.runWord (fun _ _ hu => hu.of_wellEff)).pump⟩
  | cvt =>
    exact ⟨_, rfl, (h.runWord (fun _ _ hu => hu.of_cvtEff)).pump⟩
  | sum | rmax | rmin =>
    exact ⟨_, rfl, (h.runWord (fun _ _ hu => hu.of_vecReduce)).pump⟩
  | topk =>
    exact ⟨_, rfl, (h.runWord (fun _ _ hu => hu.of_topkEff)).pump⟩
  | splitmix =>
    exact ⟨_, rfl, (h.runWord (fun _ _ hu => hu.of_splitmixEff)).pump⟩
  | fma40 =>
    exact ⟨_, rfl, (h.runWord (fun _ _ hu => hu.of_fma40Eff)).pump⟩
  | lscan40 =>
    exact ⟨_, rfl, (h.runWord (fun _ _ hu => hu.of_lscan40Eff)).pump⟩
  | coreFault =>
    exact ⟨_, rfl, h.coreFault⟩
  | coreTestStart =>
    exact ⟨_, rfl, h.opWrite fun _ hu => hu.coreTest⟩
  | selfTestDone =>
    exact ⟨_, rfl, h.selfTestDone⟩
  | clusterFault =>
    exact ⟨_, rfl, h.clusterFault⟩
  | dieLost =>
    exact ⟨_, rfl, h.dieLost⟩
  | clusterStoreUe =>
    exact ⟨_, rfl, h.clusterStoreUe⟩
  | cacheUe =>
    exact ⟨_, rfl, (h.cacheUe (fun _ hu => hu.resetRequest) (fun _ _ hu => hu.redealReaders)).drain⟩
  | hbmUe =>
    exact ⟨_, rfl, h.hbmUe⟩
  | unitRelease =>
    exact ⟨_, rfl, h.unitRelease⟩
  | retrain =>
    exact ⟨_, rfl, h.retrain⟩
  | retrainEnd =>
    exact ⟨_, rfl, h.retrainEnd⟩
  | temperatureRead =>
    exact ⟨_, rfl, h.temperatureRead⟩
  | refreshInterval =>
    exact ⟨_, rfl, h.refreshInterval⟩
  | grant =>
    exact ⟨_, rfl, h.ownRow fun _ hu => hu.grant⟩
  | revoke =>
    exact ⟨_, rfl, h.ownRow fun _ hu => hu.revoke⟩
  | query =>
    exact ⟨_, rfl, h.ownRow fun _ hu => hu.ownQuery⟩
  | zeroDone =>
    exact ⟨_, rfl, h.zeroDone⟩
  | revokeEffect =>
    exact ⟨_, rfl, h.revokeEffect⟩
  | reductionDone =>
    exact ⟨_, rfl, h.reductionDone⟩
  | laneTrain =>
    exact ⟨_, rfl, h.laneTrain⟩
  | laneLock =>
    exact ⟨_, rfl, h.laneLock⟩
  | lockTimeout =>
    exact ⟨_, rfl, h.lockTimeout⟩
  | laneDown =>
    exact ⟨_, rfl, h.laneDown⟩
  | lightLost =>
    exact ⟨_, rfl, h.laneDark⟩
  | laserModuleLoss =>
    exact ⟨_, rfl, h.laserLoss⟩
  | linkLost =>
    exact ⟨_, rfl, h.linkLost⟩
  | resetLanes | rejoin =>
    exact ⟨_, rfl, h.opWrite fun _ hu => hu.opCtrlWrite⟩
  | calibrationSlot =>
    exact ⟨_, rfl, h.slotBegin⟩
  | slotEnd =>
    exact ⟨_, rfl, h.slotEnd⟩
  | slotAnnounce =>
    exact ⟨_, rfl, h.slotAnnounce⟩
  | flit =>
    exact ⟨_, rfl, h.flitIn⟩
  | nak =>
    exact ⟨_, rfl, h.nakIn⟩
  | ack =>
    exact ⟨_, rfl, h.ackIn⟩
  | credit =>
    exact ⟨_, rfl, h.creditIn⟩
  | laneAdd | laneDrop =>
    exact ⟨_, rfl, h.laneRotate⟩
  | handover =>
    exact ⟨_, rfl, h.handover⟩
  | handoverDone =>
    exact ⟨_, rfl, h.handoverDone⟩
  | portFailed =>
    exact ⟨_, rfl, h.portFail⟩
  | cisternPortFailed =>
    exact ⟨_, rfl, .either h.portFail h⟩
  | recallTimeout =>
    exact ⟨_, rfl, h.recallTimeout⟩
  | stallWatch =>
    exact ⟨_, rfl, h.stallWatch⟩
  | cData | cCmp =>
    exact ⟨_, rfl, h.recvPacket⟩
  | cisCfgEnable =>
    exact ⟨_, rfl, h.opWrite fun _ hu => hu.cisCfgWrite⟩
  | format =>
    exact ⟨_, rfl, h.cisRow fun _ hu => hu.cisFormat⟩
  | release =>
    exact ⟨_, rfl, h.cisRow fun _ hu => hu.cisRelease⟩
  | trim =>
    exact ⟨_, rfl, h.cisRow fun _ hu => hu.cisTrimOp⟩
  | create =>
    exact ⟨_, rfl, h.opWrite fun _ hu => hu.createOp⟩
  | destroy =>
    exact ⟨_, rfl, h.opWrite fun _ hu => hu.destroyOp⟩
  | sliceEnd =>
    exact ⟨_, rfl, h.sliceEnd⟩
  | sliceOverrun =>
    exact ⟨_, rfl, h.sliceOverrun⟩
  | coreRelease =>
    exact ⟨_, rfl, h.coreRelease⟩
  | swapOut =>
    exact ⟨_, rfl, h.swapOut⟩
  | saveComplete =>
    exact ⟨_, rfl, h.saveComplete⟩
  | swapIn =>
    exact ⟨_, rfl, h.swapIn⟩
  | restoreComplete =>
    exact ⟨_, rfl, h.restoreComplete⟩
  | pwrOk =>
    exact ⟨_, rfl, h.pwrOk⟩
  | powerLoss =>
    exact ⟨_, rfl, h.afterPower⟩
  | refLost =>
    exact ⟨_, rfl, h.refLost⟩
  | pllUnlock =>
    exact ⟨_, rfl, h.pllUnlock⟩
  | powerRecompute =>
    exact ⟨_, rfl, h.powerRecompute⟩
  | droop =>
    exact ⟨_, rfl, h.droop⟩
  | droopCalibration =>
    exact ⟨_, rfl, h.droopCalibration⟩
  | dieTemperatureRead =>
    exact ⟨_, rfl, h.dieTemperatureRead⟩
  | park =>
    exact ⟨_, rfl, h.park⟩
  | pwrLimitWrite =>
    exact ⟨_, rfl, h.opWrite fun _ hu => hu.limitWrite⟩
  | warm | recovery | clusterReset =>
    exact ⟨_, rfl, h.resetRow⟩
  | resetDone =>
    exact ⟨_, rfl, h.resetDoneOp.blackAfterReset.drain⟩
  | clusterResetDone =>
    exact ⟨_, rfl, h.clusterResetDoneOp.drain⟩
  | bootStage =>
    exact ⟨_, rfl, h.bootStage⟩
  | stageTimeout =>
    exact ⟨_, rfl, h.stageTimeout⟩
  | bootCtrlClearCount =>
    exact ⟨_, rfl, h.opWrite fun _ hu => hu.clearCountOp⟩
  | setPrefer =>
    exact ⟨_, rfl, h.opWrite fun _ hu => hu.preferOp⟩
  | commitSvn =>
    exact ⟨_, rfl, h.opWrite fun _ hu => hu.commitSvnOp⟩
  | secCtrlRevoke =>
    exact ⟨_, rfl, h.opWrite fun _ hu => hu.revokeKeyOp⟩
  | lcGo =>
    exact ⟨_, rfl, h.opWrite fun _ hu => hu.lcRequestOp⟩
  | lcRequest =>
    exact ⟨_, rfl, h.onI3c fun _ hu => hu.lcReply⟩
  | getIdentity | getCert | getSignState =>
    exact ⟨_, rfl, h.onI3c fun _ hu => hu⟩
  | attest =>
    exact ⟨_, rfl, h.onI3c fun _ hu => hu.attestOp⟩
  | getBootCause =>
    exact ⟨_, rfl, h.getBootCause⟩
  | clearCount =>
    exact ⟨_, rfl, h.onI3c fun _ hu => hu.clearCountOp⟩
  | treeDone =>
    exact ⟨_, rfl, h.treeDone⟩
  | requestUpdate =>
    exact ⟨_, rfl, h.requestUpdateOp⟩
  | regRead =>
    exact ⟨_, rfl, h.regMessage fun _ hu => hu.mgmtRead⟩
  | regWrite =>
    exact ⟨_, rfl, h.regMessage fun _ hu => hu.mgmtWrite⟩
  | send =>
    exact ⟨_, rfl, h.opWrite fun _ hu => hu.sendOp⟩
  | mboxAck =>
    exact ⟨_, rfl, h.opWrite fun _ hu => hu.mboxAckOp⟩
  | setdasa =>
    exact ⟨_, rfl, h.setdasaOp⟩
  | errorRecord =>
    exact ⟨_, rfl, h.errorRecord.drain⟩
  | blackAction =>
    exact ⟨_, rfl, h.blackActionOp.drain⟩
  | thermalHoldEnd =>
    exact ⟨_, rfl, h.thermalHoldEndOp.drain⟩
  | errInject =>
    exact ⟨_, rfl, h.opWrite fun _ hu => hu.errInjectOp⟩
  | errFirstClear =>
    exact ⟨_, rfl, h.opWrite fun _ hu => hu.errFirstClearOp⟩
  | pgErrFirstClear =>
    exact ⟨_, rfl, .either (h.opWrite (fun _ hu => hu.pgErrFirstClearOp)) h⟩
  | sample =>
    exact ⟨_, rfl, h.sample⟩
  | throttleWindow =>
    exact ⟨_, rfl, h.throttleWindow⟩
  | mark =>
    exact ⟨_, rfl, h.opWrite fun _ hu => hu.markOp⟩
  | trcCfgEnable =>
    exact ⟨_, rfl, h.opWrite fun _ hu => hu.trcCfgWrite⟩
  | go =>
    exact ⟨_, rfl, h.opWrite fun _ hu => hu.goOp⟩
  | domainHalt =>
    exact ⟨_, rfl, h.domainHalt⟩
  | halted =>
    exact ⟨_, rfl, h.haltedOp⟩
  | captured =>
    exact ⟨_, rfl, h.capturedOp⟩
  | stopRelease =>
    exact ⟨_, rfl, h.opWrite fun _ hu => hu.stopReleaseOp⟩
  | domainResume =>
    exact ⟨_, rfl, h.domainResume⟩
  | released =>
    exact ⟨_, rfl, h.releasedOp.drain⟩
  | wfgGo =>
    exact ⟨_, rfl, h.opWrite fun _ hu => hu.wfgGoOp⟩
  | wfgDone =>
    exact ⟨_, rfl, h.wfgDoneOp⟩
  | snap | pgApply | take | give =>
    exact ⟨_, rfl, h.hdrRow⟩
  | registerWrite =>
    exact ⟨_, rfl, h.registerWrite⟩
  | vinLow =>
    exact ⟨_, rfl, h.vinLow⟩
  | ctrlBlock =>
    exact ⟨_, rfl, .either h.partLost h⟩
  | portDieLost =>
    exact ⟨_, rfl, h.portDieLost⟩
  | debugInstruction =>
    exact ⟨_, rfl, h.debugInstruction⟩
  | droopSlotEnd =>
    exact ⟨_, rfl, h.droopSlotEnd⟩
  | requestFirmwareData =>
    exact ⟨_, rfl, h.firmwareData⟩
  | stopCapData | seqStatus =>
    exact ⟨_, rfl, h.registerRead⟩

/-- Time that passes with an empty queue, and the command at the front of one that is not empty, keep the same. -/
theorem step_cases (s : State) :
    (s.pending = [] ∧ step s = .next s.tick ∧ StepKept s s.tick) ∨
      ∃ (c : Instr) (rest : List Instr) (t : State),
        s.pending = c :: rest ∧ step s = .next t ∧ StepKept { s with pending := rest } t := by
  cases hp : s.pending with
  | nil =>
    refine .inl ⟨rfl, ?_, (StepKept.refl s).tick⟩
    simp only [step, hp]
  | cons c rest =>
    obtain ⟨t, he, ht⟩ := exec_next_kept c { s with pending := rest }
    refine .inr ⟨c, rest, t, rfl, ?_, ht⟩
    simp only [step, hp, he]

/-- What a step keeps of the fuses and of the stores, whether or not a command stands in the queue. -/
theorem step_keeps {s t : State} (h : step s = .next t) :
    s.bt.fuses.Burn t.bt.fuses ∧ (s.mm.Canonical → t.mm.Canonical) := by
  rcases step_cases s with ⟨-, e, k⟩ | ⟨c, rest, u, -, e, k⟩
  all_goals
    cases e.symm.trans h
    exact ⟨k.fuses, k.memory⟩

/-- Settles O57: every command is made of updates that keep the canonical form (`StepKept`). -/
theorem memoryStaysCanonical : Obligations.MemoryStaysCanonical := by
  intro s t dev shared h
  exact (step_keeps h).2 ⟨dev, shared⟩

/-- Settles O59: every command is made of updates that leave the fuses or burn them (`StepKept`). -/
theorem fusesOnlyBurn : Obligations.FusesOnlyBurn := by
  intro s t h
  obtain ⟨burn, -⟩ := step_keeps h
  exact ⟨burn.svn, burn.revoked, burn.lc⟩

/-- Settles O60: every command is made of updates that leave the queue (`StepKept`). -/
theorem queueFirstInFirstOut : Obligations.QueueFirstInFirstOut := by
  intro s t c rest hp h
  rcases step_cases s with ⟨e, -, -⟩ | ⟨d, rest', u, hp', e, k⟩
  · cases hp.symm.trans e
  · cases e.symm.trans h
    cases hp.symm.trans hp'
    exact k.queue

/-- Settles O56: `step` by its definition, and no command stops (`exec_next_kept`). -/
theorem stepRunsFront : Obligations.StepRunsFront := by
  refine ⟨fun s c rest => rfl, fun s hp => ?_, fun s c => ?_⟩
  · simp only [step, hp]
  · obtain ⟨t, he, -⟩ := exec_next_kept c s
    exact ⟨t, he⟩

end Sys2Proof.Machine
end

section
/-! SUPPORT. What is sent leaves the registers and the calibration slots; the reset state, calibration slots and the mailbox
(R7, R339 to R341, R460, R555). -/

namespace Sys2Proof.Machine

/-! ## Fields and counters past what is sent -/

@[simp] theorem State.fld_setPort (s : State) (p : Nat) (x : Port) (f : Field) (i b : Nat) :
    (s.setPort p x).fld f i b = s.fld f i b := rfl
@[simp] theorem State.cnt_setPort (s : State) (p : Nat) (x : Port) (c : Cnt) (i b : Nat) :
    (s.setPort p x).cnt c i b = s.cnt c i b := rfl
@[simp] theorem State.port_setFld (s : State) (f : Field) (v i b p : Nat) : (s.setFld f v i b).port p = s.port p := rfl
@[simp] theorem State.port_addCnt (s : State) (c : Cnt) (v i b p : Nat) : (s.addCnt c v i b).port p = s.port p := rfl
@[simp] theorem State.port_addSlot (s : State) (cls inst n k p : Nat) : (s.addSlot cls inst n k).port p = s.port p := rfl
@[simp] theorem State.port_draw (s : State) (p : Nat) : s.draw.2.port p = s.port p := rfl

@[simp] theorem State.sendPort_fields (s : State) (p : Nat) : (s.sendPort p).rg.fields = s.rg.fields := by
  rw [State.sendPort_frame]

@[simp] theorem State.sendPort_cnts (s : State) (p : Nat) : (s.sendPort p).rg.cnts = s.rg.cnts := by
  rw [State.sendPort_frame]

@[simp] theorem State.fld_sendPort (s : State) (p : Nat) (f : Field) (i b : Nat) :
    (s.sendPort p).fld f i b = s.fld f i b := by
  simp [State.fld]

@[simp] theorem State.cnt_sendPort (s : State) (p : Nat) (c : Cnt) (i b : Nat) :
    (s.sendPort p).cnt c i b = s.cnt c i b := by
  simp [State.cnt]

@[simp] theorem State.fld_emit (s : State) (o : Out) (f : Field) (i b : Nat) : (s.emit o).fld f i b = s.fld f i b := by
  simp [State.fld]

@[simp] theorem State.cnt_emit (s : State) (o : Out) (c : Cnt) (i b : Nat) : (s.emit o).cnt c i b = s.cnt c i b := by
  simp [State.cnt]

/-- What is sent leaves the calibration slot of a port, and the slot announced. -/
theorem Port.sendAll_slot (fuel : Nat) (x : Port) :
    (Port.sendAll fuel x).slotUntil = x.slotUntil ∧ (Port.sendAll fuel x).announced = x.announced := by
  induction fuel generalizing x with
  | zero => exact ⟨rfl, rfl⟩
  | succ fuel ih =>
    unfold Port.sendAll
    split
    · next y e =>
      have sent : y.slotUntil = x.slotUntil ∧ y.announced = x.announced := by
        unfold Port.sendOne at e
        split at e
        · cases e
        · dsimp only at e
          split at e
          · cases e
          · cases e
            exact ⟨rfl, rfl⟩
      exact ⟨(ih y).1.trans sent.1, (ih y).2.trans sent.2⟩
    · exact ⟨rfl, rfl⟩

theorem State.sendPort_slot (s : State) (p q : Nat) :
    ((s.sendPort p).port q).slotUntil = (s.port q).slotUntil ∧ ((s.sendPort p).port q).announced = (s.port q).announced := by
  unfold State.sendPort
  split
  · by_cases e : q = p
    · subst e
      simpa using Port.sendAll_slot _ _
    · simp [State.port_setPort_ne _ _ _ _ e]
  · exact ⟨rfl, rfl⟩

theorem State.queued_slot (s : State) (p q : Nat) (l : List Out) :
    let t := (s.setPort p { s.port p with heldTx := l }).sendPort p
    (t.port q).slotUntil = (s.port q).slotUntil ∧ (t.port q).announced = (s.port q).announced := by
  have h := State.sendPort_slot (s.setPort p { s.port p with heldTx := l }) p q
  by_cases e : q = p
  · subst e
    simpa using h
  · simpa [State.port_setPort_ne _ _ _ _ e] using h

theorem State.emit_slot (s : State) (o : Out) (q : Nat) :
    ((s.emit o).port q).slotUntil = (s.port q).slotUntil ∧ ((s.emit o).port q).announced = (s.port q).announced := by
  unfold State.emit
  dsimp only
  split
  · exact State.queued_slot { s with hl.out := s.hl.out ++ [o] } _ q _
  · exact ⟨rfl, rfl⟩

/-! ## The reset state -/

/-- Settles O58: the reset state is the empty one, whose maps list nothing. -/
theorem resetState : Obligations.ResetState := by
  refine ⟨rfl, rfl, rfl, rfl, rfl, rfl, rfl, rfl, rfl, fun f i b => rfl, fun a => rfl⟩

/-! ## Calibration slots (R339 to R341) -/

theorem calibrationSlot_begins {s : State} {p : Fin 24} (powered : s.powered = true) (enabled : s.fld F.OP_CFG.ENABLE p = 1)
    (free : (s.port p).slotUntil = none) (late : 52 ≤ s.tm.now) (due : slotTime p (s.tm.now - 52) ≤ s.tm.now) :
    ∃ t, exec (.calibrationSlot p) s = .next t ∧ t.fld F.OP_STATUS.IN_SLOT p = 1 ∧ t.portSends p = false ∧
      (t.port p).slotUntil = some (s.tm.now + 1996) := by
  have begun : s.slotBegin p =
      (s.setPort p { s.port p with slotUntil := some (s.tm.now + 1996), announced := none }).setFld F.OP_STATUS.IN_SLOT 1 p := by
    simp [State.slotBegin, powered, enabled, free, late, due]
  refine ⟨_, rfl, ?_⟩
  rw [begun]
  simp [State.portSends, F.OP_STATUS.IN_SLOT]

theorem slotEnd_over {s : State} {p : Fin 24} {e : Nat} (slot : (s.port p).slotUntil = some e) (past : e < s.tm.now) :
    ∃ t, exec (.slotEnd p) s = .next t ∧ t.fld F.OP_STATUS.IN_SLOT p = 0 ∧ (t.port p).slotUntil = none ∧
      t.cnt C.OP_CNT_SLOTS p = (s.cnt C.OP_CNT_SLOTS p + 1) % 2 ^ 64 := by
  have ended : s.slotEnd p = (((s.setPort p { s.port p with slotUntil := none }).setFld F.OP_STATUS.IN_SLOT 0 p).addCnt
      C.OP_CNT_SLOTS 1 p).sendPort p := by
    simp [State.slotEnd, slot, past]
  refine ⟨_, rfl, ?_⟩
  rw [ended]
  simp [(State.sendPort_slot _ _ _).1]

theorem slotAnnounce_sends {s : State} {p : Fin 24} (up : s.fld F.OP_STATUS.UP p = 1) (fresh : (s.port p).announced = none)
    (free : (s.port p).slotUntil = none) (ahead : s.tm.now + 820 ≤ slotTime p s.tm.now) :
    ∃ t, exec (.slotAnnounce p) s = .next t ∧ (t.port p).announced = some (slotTime p s.tm.now) ∧
      (∃ x, .ctrl p.val 0x02 x ∈ t.hl.out) ∧ t.rg.fields = s.rg.fields := by
  have sent : s.slotAnnounce p = (s.draw.2.setPort p { s.port p with announced := some (slotTime p s.tm.now) }).sendCtrl p 0x02
      (s.draw.1.toNat % 256) := by
    simp [State.slotAnnounce, up, fresh, free, ahead]
  refine ⟨_, rfl, ?_⟩
  rw [sent]
  simp [State.sendCtrl, (State.emit_slot _ _ _).2]

/-- Settles O16: the beginning, the end and the announcement of a slot, each by its rule above. -/
theorem calibrationSlots : Obligations.CalibrationSlots := by
  intro s p
  exact ⟨calibrationSlot_begins, fun e => slotEnd_over, slotAnnounce_sends⟩

/-! ## The host mailbox (R555) -/

@[simp] theorem State.hrd_hrd (s : State) (a : Nat) (w : HrdFor) :
    (s.hrd a w).hl.hrd = s.hl.hrd ++ [⟨s.hl.nextTag, a, w⟩] := by
  rw [State.hrd_frame]

@[simp] theorem State.hrd_fields (s : State) (a : Nat) (w : HrdFor) : (s.hrd a w).rg.fields = s.rg.fields := by
  rw [State.hrd, State.emit_fields]

/-- The units of a request are asked for one by one; each is one read outstanding. -/
theorem State.mailboxReads (l : List Nat) (s : State) :
    let t := l.foldl (fun s i => s.hrd (s.mboxArea + 64 * i) .mailbox) s
    t.hl.hrd.length = s.hl.hrd.length + l.length ∧ t.rg.fields = s.rg.fields ∧ t.mg = s.mg ∧ t.mm = s.mm ∧ SameWork s t := by
  induction l generalizing s with
  | nil => exact ⟨rfl, rfl, rfl, rfl, rfl, rfl, rfl, rfl, rfl⟩
  | cons i l ih =>
    obtain ⟨reads, fields, mg, mm, cq, wh, kv, tl, sc⟩ := ih (s.hrd (s.mboxArea + 64 * i) .mailbox)
    refine ⟨?_, ?_, ?_, ?_, ?_, ?_, ?_, ?_, ?_⟩
    · simp only [State.hrd_hrd, List.length_append, List.length_cons, List.length_nil] at reads
      simp only [List.foldl_cons, List.length_cons]
      omega
    all_goals simp_all only [List.foldl_cons, State.hrd_fields, State.hrd_mg, State.hrd_mm, State.hrd_cq, State.hrd_wh,
      State.hrd_kv, State.hrd_tl, State.hrd_sc]

/-- What SEND asks for: the mailbox in use and idle, no response in it, and a length that it holds. -/
def State.SendTaken (s : State) (len : Nat) : Prop :=
  s.fld F.MG_CFG.MBOX_EN ≠ 0 ∧ s.fld F.MG_STATUS.MBOX_BUSY ≠ 1 ∧ s.fld F.MG_STATUS.RSP_READY ≠ 1 ∧ len ≠ 0 ∧ len ≤ 8192

theorem State.sendOp_taken {s : State} {len : Nat} (h : s.SendTaken len) :
    s.sendOp len = (List.range (ceilDiv len 64)).foldl (fun u i => u.hrd (u.mboxArea + 64 * i) .mailbox)
      { s.setFld F.MG_STATUS.MBOX_BUSY 1 with mg.reqLen := some len } := by
  obtain ⟨used, idle, free, some_, fits⟩ := h
  simp [State.sendOp, used, idle, free, some_, fits]

theorem State.sendOp_refused {s : State} {len : Nat} (h : ¬ s.SendTaken len) : s.sendOp len = s.reject 0x38 0 := by
  unfold State.sendOp
  rw [if_pos]
  unfold State.SendTaken at h
  omega

theorem send_taken {s : State} {r : Requester} {len : BitVec 14} (hw : Writable s 0x38 0 r) (ok : s.SendTaken len.toNat) :
    ∃ t, exec (.send r len) s = .next t ∧ t.fld F.MG_STATUS.MBOX_BUSY = 1 ∧ t.mg.reqLen = some len.toNat ∧
      t.hl.hrd.length = s.hl.hrd.length + ceilDiv len.toNat 64 ∧ FieldsBut s t [fieldKey F.MG_STATUS.MBOX_BUSY 0 0] ∧
      SameWork s t ∧ t.mm = s.mm := by
  let u : State := { (s.addCnt C.GL_CNT_REG_WRITES 1).setFld F.MG_STATUS.MBOX_BUSY 1 with mg.reqLen := some len.toNat }
  obtain ⟨reads, fields, mg, mm, same⟩ := State.mailboxReads (List.range (ceilDiv len.toNat 64)) u
  have sent : exec (.send r len) s = .next ((List.range (ceilDiv len.toNat 64)).foldl
      (fun v i => v.hrd (v.mboxArea + 64 * i) .mailbox) u) := by
    show Host.Outcome.next _ = _
    rw [hw.opWrite]
    exact congrArg _ (State.sendOp_taken (s := s.addCnt C.GL_CNT_REG_WRITES 1) ok)
  have busy : FieldsBut s u [fieldKey F.MG_STATUS.MBOX_BUSY 0 0] := (FieldsBut.refl s _).setFld (List.mem_singleton_self _)
  refine ⟨_, sent, ?_, by rw [mg], ?_, ?_, same, mm⟩
  · simp only [State.fld, fields]
    exact State.fld_setFld (s.addCnt C.GL_CNT_REG_WRITES 1) F.MG_STATUS.MBOX_BUSY 1 0 0
  · rwa [List.length_range] at reads
  · intro k hk d
    rw [fields]
    exact busy k hk d

theorem send_refused {s : State} {r : Requester} {len : BitVec 14} (hw : Writable s 0x38 0 r) (no : ¬ s.SendTaken len.toNat) :
    ∃ t, exec (.send r len) s = .next t ∧ t.fld (F.PG_STATUS.WRITE_REJECT 0x38) = 1 ∧ t.mg = s.mg ∧ t.hl = s.hl ∧
      FieldsBut s t [fieldKey (F.PG_STATUS.WRITE_REJECT 0x38) 0 0] ∧ SameWork s t ∧ t.mm = s.mm := by
  have sent : exec (.send r len) s = .next ((s.addCnt C.GL_CNT_REG_WRITES 1).reject 0x38 0) := by
    show Host.Outcome.next _ = _
    rw [hw.opWrite]
    exact congrArg _ (State.sendOp_refused (s := s.addCnt C.GL_CNT_REG_WRITES 1) no)
  refine ⟨_, sent, ?_, rfl, rfl, ?_, ⟨rfl, rfl, rfl, rfl, rfl⟩, rfl⟩
  · exact State.fld_setFld (s.addCnt C.GL_CNT_REG_WRITES 1) (F.PG_STATUS.WRITE_REJECT 0x38) 1 0 0
  · exact FieldsBut.setFld (t := s.addCnt C.GL_CNT_REG_WRITES 1) (fun _ _ _ => rfl) (List.mem_singleton_self _)

theorem mboxAck_frees {s : State} {r : Requester} (hw : Writable s 0x38 0 r) :
    ∃ t, exec (.mboxAck r) s = .next t ∧ t.fld F.MG_STATUS.RSP_READY = 0 ∧
      FieldsBut s t [fieldKey F.MG_STATUS.RSP_READY 0 0] ∧ OnlyRegs s t := by
  refine ⟨_, congrArg Host.Outcome.next (hw.opWrite _ _ _), State.fld_setFld _ _ _ _ _, ?_, rfl⟩
  exact FieldsBut.setFld (t := s.addCnt C.GL_CNT_REG_WRITES 1) (fun _ _ _ => rfl) (List.mem_singleton_self _)

/-- Settles O27: SEND taken, SEND refused, and ACK, each by its rule above. -/
theorem mailbox : Obligations.Mailbox := by
  intro s r len hw
  refine ⟨?_, mboxAck_frees hw⟩
  by_cases ok : s.SendTaken len.toNat
  · obtain ⟨t, sent, busy, length, reads, fields, same, mm⟩ := send_taken hw ok
    exact ⟨t, sent, fun _ => ⟨busy, length, reads, fields⟩, fun no => absurd ok no, same, mm⟩
  · obtain ⟨t, sent, rejected, mg, hl, fields, same, mm⟩ := send_refused hw ok
    exact ⟨t, sent, fun yes => absurd yes ok, fun _ => ⟨rejected, mg, hl, fields⟩, same, mm⟩

end Sys2Proof.Machine
end

section
/-! SUPPORT. The words of a core: what is left alone when one starts, what a store of a list of elements reads as, and the
elementwise and range operations (R83, R116 to R118, R581). -/

namespace Sys2Proof.Machine

/-! ## Nothing but one core -/

section
variable {s t u : State} {c : Nat}

theorem OnlyCore.refl (s : State) (c : Nat) : OnlyCore s s c := ⟨rfl, fun _ _ => rfl⟩

theorem OnlyCores.trans (h : OnlyCores s t) (h' : OnlyCores t u) : OnlyCores s u := by
  unfold OnlyCores at *
  rw [h', h]

theorem OnlyCore.trans (h : OnlyCore s t c) (h' : OnlyCore t u c) : OnlyCore s u c :=
  ⟨h.1.trans h'.1, fun k hk => (h'.2 k hk).trans (h.2 k hk)⟩

theorem OnlyCore.setCore (h : OnlyCore s t c) {x : Core} : OnlyCore s (t.setCore c x) c :=
  h.trans ⟨rfl, fun k hk => State.core_setCore_ne t c k x hk⟩

theorem OnlyCore.addSlot (h : OnlyCore s t c) {cls inst n k : Nat} : OnlyCore s (t.addSlot cls inst n k) c :=
  h.trans ⟨rfl, fun _ _ => rfl⟩

theorem OnlyCore.addCnt (h : OnlyCore s t c) {x : Cnt} {n i b : Nat} : OnlyCore s (t.addCnt x n i b) c :=
  h.trans ⟨rfl, fun _ _ => rfl⟩

theorem OnlyCore.addCoreCnt (h : OnlyCore s t c) {x : Cnt} {k n : Nat} : OnlyCore s (t.addCoreCnt x k n) c := h.addCnt
end

/-! ## A word taken off the queue -/

/-- The core whose queue has given up a word that starts. -/
def Core.wordTaken (k : Core) (w : QWord) (rest : List QWord) : Core :=
  { k.refill rest with written := Nat.lor (k.refill rest).written w.foot.ww, tags := k.tagsAfter w }

section
variable (s : State) (k : Core) (c : Nat) (w : QWord) (rest : List QWord)

@[simp] theorem Core.wordTaken_store : (k.wordTaken w rest).store = k.store := rfl
@[simp] theorem Core.wordTaken_wells : (k.wordTaken w rest).wells = k.wells := rfl
@[simp] theorem Core.wordTaken_lfsr : (k.wordTaken w rest).lfsr = k.lfsr := rfl
@[simp] theorem Core.wordTaken_place : (k.wordTaken w rest).place = k.place := rfl
@[simp] theorem Core.wordTaken_shadow : (k.wordTaken w rest).shadow = k.shadow := rfl
@[simp] theorem Core.wordTaken_active : (k.wordTaken w rest).active = k.active := rfl
@[simp] theorem Core.wordTaken_f32 (a : Nat) : (k.wordTaken w rest).f32 a = k.f32 a := rfl
@[simp] theorem Core.wordTaken_w40 (a : Nat) : (k.wordTaken w rest).w40 a = k.w40 a := rfl
@[simp] theorem Core.wordTaken_well (x r col : Nat) : (k.wordTaken w rest).well x r col = k.well x r col := rfl

@[simp] theorem State.core_addSlot (cls inst n v k : Nat) : (s.addSlot cls inst n v).core k = s.core k := rfl
@[simp] theorem State.core_addCnt (x : Cnt) (n i b k : Nat) : (s.addCnt x n i b).core k = s.core k := rfl
@[simp] theorem State.core_addCoreCnt (x : Cnt) (j n k : Nat) : (s.addCoreCnt x j n).core k = s.core k := rfl
@[simp] theorem State.coreFld_wordTaken (f : Field) (j : Nat) : (s.wordTaken c w rest).coreFld f j = s.coreFld f j := rfl

@[simp] theorem State.core_wordTaken : (s.wordTaken c w rest).core c = (s.core c).wordTaken w rest :=
  State.core_setCore s c _

theorem OnlyCore.wordTaken : OnlyCore s (s.wordTaken c w rest) c :=
  (OnlyCore.refl s c).setCore.addSlot.addSlot.addCnt
end

/-- Pumps that owe a core's item nothing stand still after an effect that leaves the core where it is placed. -/
theorem PumpsIdle.pump {s t : State} {c : Nat} (h : PumpsIdle s c) (hp : (t.core c).place = (s.core c).place) :
    t.pump c = t :=
  State.pump_idle (by unfold PumpsIdle; rw [hp]; exact h)

/-- A VECTOR word that can start has the effect of its operation, and the pumps go on. -/
theorem State.vector_starts {s : State} {c : Nat} {q : QWord} {v : VecWord} {rest : List QWord}
    (h : Starts s c 4 q rest) (hw : q.w = .vec v) {op : VecOp} (ho : v.op = op) (eff : State → QWord → State) :
    s.vector c op eff = .next ((eff (s.wordTaken c q rest) q).pump c) :=
  congrArg (fun t => Host.Outcome.next (State.pump t c)) (State.runWord_starts h (by simp [isVec, hw, ho]) eff)

/-- What a VECTOR word does that changes the store of its core alone, `m` being the store it leaves. -/
theorem vector_stores {s : State} {c : Fin 10240} {q : QWord} {v : VecWord} {rest : List QWord} (h : Starts s c 4 q rest)
    (hw : q.w = .vec v) {op : VecOp} (ho : v.op = op) {eff : State → QWord → State} {m : Mem}
    (core : (eff (s.wordTaken c q rest) q).core c = { (s.core c).wordTaken q rest with store := m })
    (only : OnlyCore (s.wordTaken c q rest) (eff (s.wordTaken c q rest) q) c) :
    ∃ t : State, s.vector c op eff = .next (t.pump c) ∧ (PumpsIdle s c → t.pump c = t) ∧ (t.core c).store = m ∧
      (t.core c).wells = (s.core c).wells ∧ (t.core c).lfsr = (s.core c).lfsr ∧ OnlyCore s t c := by
  refine ⟨_, State.vector_starts h hw ho eff, fun idle => idle.pump ?_, ?_⟩
  · rw [core]
    rfl
  · rw [core]
    exact ⟨rfl, rfl, rfl, (OnlyCore.wordTaken s c q rest).trans only⟩

/-! ## Stores of a list of elements -/

theorem rdBytes_append (m : Mem) (a n k : Nat) : rdBytes m a (n + k) = rdBytes m a n ++ rdBytes m (a + n) k := by
  induction n generalizing a with
  | zero => simp [rdBytes]
  | succ n ih => rw [Nat.add_right_comm, rdBytes, ih (a + 1), rdBytes, List.cons_append, Nat.add_right_comm a 1 n, Nat.add_assoc]

/-- The bytes in the middle of a list that is written, read back. -/
theorem rdBytes_wrBytes_mid (m : Mem) (a : Nat) (x y z : List Byte) :
    rdBytes (wrBytes m a (x ++ y ++ z)) (a + x.length) y.length = y := by
  have whole := rdBytes_wrBytes_self m a (x ++ y ++ z)
  rw [List.length_append, List.length_append, rdBytes_append, rdBytes_append] at whole
  have front := List.append_inj_left whole (by simp)
  exact List.append_inj_right front (by simp)

/-- Elements of `n` bytes each, laid one after the other. -/
theorem flatMap_length_const {α : Type} {l : List α} {g : α → List Byte} {n : Nat} (hg : ∀ x, (g x).length = n) :
    (l.flatMap g).length = n * l.length := by
  induction l with
  | nil => rfl
  | cons x l ih => simp [List.flatMap_cons, hg, ih, Nat.mul_add, Nat.add_comm]

/-- Element `i` of a list of elements of `n` bytes each, read back. -/
theorem rdBytes_wrBytes_flatMap (m : Mem) (a : Nat) {α : Type} {l : List α} {g : α → List Byte} {n : Nat}
    (hg : ∀ x, (g x).length = n) {i : Nat} (hi : i < l.length) :
    rdBytes (wrBytes m a (l.flatMap g)) (a + n * i) n = g l[i] := by
  have split : l.flatMap g = (l.take i).flatMap g ++ g l[i] ++ (l.drop (i + 1)).flatMap g := by
    rw [List.append_assoc, ← List.flatMap_cons, ← List.drop_eq_getElem_cons hi, ← List.flatMap_append,
      List.take_append_drop]
  have place : ((l.take i).flatMap g).length = n * i := by
    rw [flatMap_length_const hg, List.length_take, Nat.min_eq_left hi.le]
  rw [split, ← place]
  conv_lhs => rw [← hg l[i]]
  exact rdBytes_wrBytes_mid m a _ _ _

/-- A number of `n` bytes among those written, read back. -/
theorem leNat_wrBytes_flatMap (m : Mem) (a : Nat) {α : Type} {l : List α} {g : α → Nat} {n i : Nat} (hi : i < l.length) :
    leNat (rdBytes (wrBytes m a (l.flatMap fun x => toLE n (g x))) (a + n * i) n) = g l[i] % 2 ^ (8 * n) := by
  rw [rdBytes_wrBytes_flatMap m a (fun x => toLE_length n (g x)) hi, leNat_toLE]

/-! ## Elementwise operations (R83, R116, R118) -/

/-- The state that an elementwise operation leaves: the results at D. -/
theorem vecMap_vec (f : Nat → Nat → Nat → Nat) (c : Nat) (s : State) {q : QWord} {v : VecWord} (hw : q.w = .vec v) :
    vecMap f c s q = s.setCore c { s.core c with
      store := wrBytes (s.core c).store (v.d * 32) ((List.range (32 * v.len)).flatMap fun i => toLE 4
        (f ((s.core c).f32 (v.a * 32 + 4 * i)) ((s.core c).f32 (v.b * 32 + 4 * i)) ((s.core c).f32 (v.c * 32 + 4 * i)))) } := by
  unfold vecMap
  rw [hw]
  refine congrArg (fun l => s.setCore c { s.core c with store := wrBytes (s.core c).store (v.d * 32) l }) ?_
  refine List.flatMap_congr fun i hi => ?_
  simp [vecF32, List.getD_eq_getElem?_getD, List.mem_range.mp hi, Core.f32]

/-- The command of an elementwise operation applies its function. -/
theorem exec_elementwise {op : VecOp} {f : Nat → Nat → Nat → Nat} (hf : elementOf op = some f) (c : Fin 10240) (s : State) :
    exec (vecCommand op c) s = s.vector c op (vecMap f c) := by
  cases op <;> cases hf <;> rfl

theorem elementwise_result {s : State} {c : Fin 10240} {op : VecOp} {f : Nat → Nat → Nat → Nat} {q : QWord} {v : VecWord}
    {rest : List QWord} (hf : elementOf op = some f) (hw : q.w = .vec v) (ho : v.op = op) (h : Starts s c 4 q rest) :
    ∃ t : State, exec (vecCommand op c) s = .next (t.pump c) ∧ (PumpsIdle s c → t.pump c = t) ∧
      (∀ i, i < 32 * v.len → (t.core c).f32 (v.d * 32 + 4 * i) =
        f ((s.core c).f32 (v.a * 32 + 4 * i)) ((s.core c).f32 (v.b * 32 + 4 * i)) ((s.core c).f32 (v.c * 32 + 4 * i)) % 2 ^ 32) ∧
      (∀ x, x < v.d * 32 ∨ v.d * 32 + 128 * v.len ≤ x → rdByte (t.core c).store x = rdByte (s.core c).store x) ∧
      (t.core c).wells = (s.core c).wells ∧ (t.core c).lfsr = (s.core c).lfsr ∧ OnlyCore s t c := by
  rw [exec_elementwise hf]
  have effect := vecMap_vec f c (s.wordTaken c q rest) hw
  obtain ⟨t, ht, idle, store, wells, lfsr, only⟩ := vector_stores h hw ho (eff := vecMap f c)
    (by rw [effect, State.core_setCore, State.core_wordTaken]) (by rw [effect]; exact (OnlyCore.refl _ _).setCore)
  refine ⟨t, ht, idle, fun i hi => ?_, fun x hx => ?_, wells, lfsr, only⟩
  · rw [Core.f32, store, leNat_wrBytes_flatMap _ _ (by simpa using hi), List.getElem_range]
    simp
  · rw [store, rdByte_wrBytes_out]
    · simp
    · rw [flatMap_length_const fun i => toLE_length 4 _, List.length_range]
      omega

/-- Settles O1, by the rule above. -/
theorem vectorElementwise : Obligations.VectorElementwise := by
  intro s c op f q v rest
  exact elementwise_result

end Sys2Proof.Machine
end

section
/-! SUPPORT. The order of TOPK: the values of scores, their order, and the best pairs kept (R117). -/

namespace Sys2Proof.Machine

/-! ## The order of values -/

/-- The number that a finite value stands for. -/
def finValue (neg : Bool) (man : Nat) (exp : Int) : ℚ := (if neg then -(man : ℚ) else man) * 2 ^ exp

/-- Where a value stands among the scores: NaN below all, then minus infinity, the finite numbers, and infinity. -/
def Val.rank : Val → WithBot (WithBot (WithTop ℚ))
  | .nan => ⊥
  | .inf true => ((⊥ : WithBot (WithTop ℚ)) : WithBot (WithBot (WithTop ℚ)))
  | .inf false => (((⊤ : WithTop ℚ) : WithBot (WithTop ℚ)) : WithBot (WithBot (WithTop ℚ)))
  | .fin neg man exp => (((finValue neg man exp : WithTop ℚ) : WithBot (WithTop ℚ)) : WithBot (WithBot (WithTop ℚ)))

/-- The integer that a finite value is in units of a smaller power of 2. -/
theorem intAt_value (neg : Bool) (man : Nat) {exp unit : Int} (h : unit ≤ exp) :
    (intAt neg man exp unit : ℚ) * 2 ^ unit = finValue neg man exp := by
  have power : (2 : ℚ) ^ (exp - unit).toNat * 2 ^ unit = 2 ^ exp := by
    rw [← zpow_natCast, ← zpow_add₀ two_ne_zero, Int.toNat_of_nonneg (sub_nonneg.mpr h), sub_add_cancel]
  unfold intAt finValue
  rw [← power]
  cases neg
  · push_cast
    simp [mul_assoc]
  · push_cast
    simp [mul_assoc]

theorem Val.lt_iff_rank {a b : Val} (ha : a.isNan = false) (hb : b.isNan = false) : a.lt b = true ↔ a.rank < b.rank := by
  match a, b with
  | .inf true, .inf true => simp [Val.lt, Val.rank]
  | .inf true, .inf false => exact ⟨fun _ => WithBot.coe_lt_coe.mpr (WithBot.bot_lt_coe _), fun _ => rfl⟩
  | .inf false, .inf true => simp [Val.lt, Val.rank]
  | .inf false, .inf false => simp [Val.lt, Val.rank]
  | .inf true, .fin .. => simp [Val.lt, Val.rank]
  | .inf false, .fin .. => simp [Val.lt, Val.rank]
  | .fin .., .inf true => simp [Val.lt, Val.rank]
  | .fin .., .inf false =>
    exact ⟨fun _ => WithBot.coe_lt_coe.mpr (WithBot.coe_lt_coe.mpr (WithTop.coe_lt_top _)), fun _ => rfl⟩
  | .fin n m e, .fin n' m' e' =>
    have unit : (if e < e' then e else e') = min e e' := by
      split <;> omega
    simp only [Val.lt, Val.rank, unit, decide_eq_true_eq, WithBot.coe_lt_coe, WithTop.coe_lt_coe]
    rw [← intAt_value n m (min_le_left e e'), ← intAt_value n' m' (min_le_right e e'),
      mul_lt_mul_iff_left₀ (zpow_pos two_pos _), Int.cast_lt]

/-- A pair stands before another where its score is greater, or equal with the lower index. -/
theorem topBefore_iff (x i y j : Nat) :
    topBefore x i y j = true ↔ (ofF32 y).rank < (ofF32 x).rank ∨ ((ofF32 x).rank = (ofF32 y).rank ∧ i < j) := by
  unfold topBefore
  generalize ofF32 x = a
  generalize ofF32 y = b
  dsimp only
  rcases ha : a.isNan with _ | _
  · rcases hb : b.isNan with _ | _
    · simp only [Bool.false_eq_true, if_false]
      by_cases lt : b.lt a = true
      · simp [lt, (Val.lt_iff_rank hb ha).mp lt]
      · have nlt := mt (Val.lt_iff_rank hb ha).mpr lt
        by_cases gt : a.lt b = true
        · have g := (Val.lt_iff_rank ha hb).mp gt
          simp [lt, gt, nlt, g.ne]
        · have ngt := mt (Val.lt_iff_rank ha hb).mpr gt
          simp [lt, gt, le_antisymm (not_lt.mp nlt) (not_lt.mp ngt)]
    · have low : b.rank = ⊥ := by cases b <;> simp_all [Val.isNan, Val.rank]
      have high : a.rank ≠ ⊥ := by
        match a, ha with
        | .inf true, _ => simp [Val.rank]
        | .inf false, _ => simp [Val.rank]
        | .fin .., _ => simp [Val.rank]
      simp [low, bot_lt_iff_ne_bot.mpr high]
  · have low : a.rank = ⊥ := by cases a <;> simp_all [Val.isNan, Val.rank]
    have other : ⊥ = b.rank ↔ b.isNan = true := by
      match b with
      | .nan => simp [Val.isNan, Val.rank]
      | .inf true => simp [Val.isNan, Val.rank]
      | .inf false => simp [Val.isNan, Val.rank]
      | .fin .. => simp [Val.isNan, Val.rank]
    simp [low, other]

/-- A pair before a pair that is before a third is before the third. -/
theorem topBefore_trans {x i y j z k : Nat} (h : topBefore x i y j = true) (h' : topBefore y j z k = true) :
    topBefore x i z k = true := by
  rw [topBefore_iff] at *
  rcases h with h | ⟨e, h⟩ <;> rcases h' with h' | ⟨e', h'⟩
  · exact .inl (h'.trans h)
  · exact .inl (e' ▸ h)
  · exact .inl (e ▸ h')
  · exact .inr ⟨e.trans e', h.trans h'⟩

theorem topBefore_self (x i : Nat) : topBefore x i x i = false := by
  rw [Bool.eq_false_iff, ne_eq, topBefore_iff]
  simp

/-! ## The best pairs -/

@[simp] theorem length_topInsert (p : Nat × Nat) (t : List (Nat × Nat)) : (topInsert p t).length = t.length + 1 := by
  induction t with
  | nil => rfl
  | cons r t ih =>
    unfold topInsert
    split
    · rfl
    · simp [ih]

theorem mem_topInsert {p q : Nat × Nat} {t : List (Nat × Nat)} (h : q ∈ topInsert p t) : q = p ∨ q ∈ t := by
  induction t with
  | nil => exact .inl (List.mem_singleton.mp h)
  | cons r t ih =>
    unfold topInsert at h
    split at h
    · exact List.mem_cons.mp h
    · rcases List.mem_cons.mp h with h | h
      · exact .inr (h ▸ List.mem_cons_self)
      · exact (ih h).imp_right (List.mem_cons_of_mem r)

/-- The first pair after an insertion is the new one or the first before. -/
theorem head?_topInsert (p : Nat × Nat) (t : List (Nat × Nat)) :
    (topInsert p t).head? = some p ∧ (∀ r ∈ t.head?, topBefore p.1 p.2 r.1 r.2 = true) ∨
      (topInsert p t).head? = t.head? ∧ ∃ r ∈ t.head?, topBefore p.1 p.2 r.1 r.2 = false := by
  cases t with
  | nil => exact .inl ⟨rfl, by simp⟩
  | cons r t =>
    unfold topInsert
    split
    · next e => exact .inl ⟨rfl, by simpa using e⟩
    · next e => exact .inr ⟨rfl, r, by simp, by simpa using e⟩

/-- The best `k` of the first `m` scores. -/
def topOf (xs : List Nat) (k m : Nat) : List (Nat × Nat) :=
  (List.range m).foldl (fun t i => (topInsert (xs.getD i 0, i) t).take k) []

theorem topOf_succ (xs : List Nat) (k m : Nat) :
    topOf xs k (m + 1) = (topInsert (xs.getD m 0, m) (topOf xs k m)).take k := by
  simp [topOf, List.range_succ]

theorem length_topOf (xs : List Nat) (k m : Nat) : (topOf xs k m).length = min k m := by
  induction m with
  | zero => simp [topOf]
  | succ m ih =>
    rw [topOf_succ, List.length_take, length_topInsert, ih]
    omega

/-- Each pair kept is a score and its index. -/
theorem mem_topOf {xs : List Nat} {k m : Nat} {p : Nat × Nat} (h : p ∈ topOf xs k m) : p.2 < m ∧ p.1 = xs.getD p.2 0 := by
  induction m with
  | zero => cases h
  | succ m ih =>
    rw [topOf_succ] at h
    rcases mem_topInsert (List.mem_of_mem_take h) with rfl | h
    · exact ⟨Nat.lt_succ_self m, rfl⟩
    · exact ⟨(ih h).1.trans (Nat.lt_succ_self m), (ih h).2⟩

/-- No score stands before the first pair kept. -/
theorem head?_topOf {xs : List Nat} {k m : Nat} (hk : 1 ≤ k) {p : Nat × Nat} (h : (topOf xs k m).head? = some p) {i : Nat}
    (hi : i < m) : topBefore (xs.getD i 0) i p.1 p.2 = false := by
  induction m generalizing p with
  | zero => cases hi
  | succ m ih =>
    rw [topOf_succ, List.head?_take, if_neg (by omega)] at h
    rcases head?_topInsert (xs.getD m 0, m) (topOf xs k m) with ⟨e, first⟩ | ⟨e, r, hr, later⟩
    · cases e.symm.trans h
      rcases Nat.lt_succ_iff_lt_or_eq.mp hi with hi | rfl
      · cases ht : (topOf xs k m).head? with
        | none =>
          have empty := congrArg List.length (List.head?_eq_none_iff.mp ht)
          rw [length_topOf] at empty
          simp only [List.length_nil] at empty
          omega
        | some r =>
          refine Bool.eq_false_iff.mpr fun before => ?_
          exact Bool.eq_false_iff.mp (ih ht hi) (topBefore_trans before (first r (by simp [ht])))
      · exact topBefore_self _ _
    · rcases Nat.lt_succ_iff_lt_or_eq.mp hi with hi | rfl
      · exact ih (e.symm.trans h) hi
      · cases (Option.mem_def.mp hr).symm.trans (e.symm.trans h)
        exact later

end Sys2Proof.Machine
end

section
/-! SUPPORT. Range reductions, SPLITMIX and TOPK (R116, R117, R581). -/

namespace Sys2Proof.Machine

/-! ## Reductions (R116) -/

theorem vecReduce_vec (f : Nat → Nat → Nat) (c : Nat) (s : State) {q : QWord} {v : VecWord} (hw : q.w = .vec v) :
    vecReduce f c s q = s.setCore c { s.core c with
      store := wrBytes (s.core c).store (v.d * 32) (toLE 4 (reduceRange f (s.core c).store (v.a * 32) v.len)) } := by
  unfold vecReduce
  rw [hw]

theorem exec_reducer {op : VecOp} {f : Nat → Nat → Nat} (hf : reducerOf op = some f) (c : Fin 10240) (s : State) :
    exec (vecCommand op c) s = s.vector c op (vecReduce f c) := by
  cases op <;> cases hf <;> rfl

theorem reduction_result {s : State} {c : Fin 10240} {op : VecOp} {f : Nat → Nat → Nat} {q : QWord} {v : VecWord}
    {rest : List QWord} (hf : reducerOf op = some f) (hw : q.w = .vec v) (ho : v.op = op) (h : Starts s c 4 q rest) :
    ∃ t : State, exec (vecCommand op c) s = .next (t.pump c) ∧ (PumpsIdle s c → t.pump c = t) ∧
      (t.core c).f32 (v.d * 32) = reduceRange f (s.core c).store (v.a * 32) v.len % 2 ^ 32 ∧
      (∀ x, x < v.d * 32 ∨ v.d * 32 + 4 ≤ x → rdByte (t.core c).store x = rdByte (s.core c).store x) ∧
      (t.core c).wells = (s.core c).wells ∧ OnlyCore s t c := by
  rw [exec_reducer hf]
  have effect := vecReduce_vec f c (s.wordTaken c q rest) hw
  obtain ⟨t, ht, idle, store, wells, -, only⟩ := vector_stores h hw ho (eff := vecReduce f c)
    (by rw [effect, State.core_setCore, State.core_wordTaken]) (by rw [effect]; exact (OnlyCore.refl _ _).setCore)
  refine ⟨t, ht, idle, ?_, fun x hx => ?_, wells, only⟩
  · rw [Core.f32, store, leNat_wrBytes]
    simp
  · rw [store, rdByte_wrBytes_out (by simpa using hx)]
    simp

/-! ## SPLITMIX (R581) -/

/-- The lanes at an address, each stepped. -/
def splitLanes (m : Mem) (a n : Nat) : List (Nat × Nat) :=
  (List.range n).map fun i => splitmix64 (leNat (rdBytes m (a + 8 * i) 8))

theorem length_splitLanes (m : Mem) (a n : Nat) : (splitLanes m a n).length = n := by simp [splitLanes]

theorem splitmixEff_vec (c : Nat) (s : State) {q : QWord} {v : VecWord} (hw : q.w = .vec v) :
    splitmixEff c s q =
      let r := splitLanes (s.core c).store (v.a * 32) (16 * v.len)
      let stepped := wrBytes (s.core c).store (v.a * 32) (r.flatMap fun p => toLE 8 p.1)
      s.setCore c { s.core c with store := wrBytes stepped (v.d * 32) (r.flatMap fun p => toLE 8 p.2) } := by
  unfold splitmixEff
  rw [hw]
  rfl

theorem splitmix_result {s : State} {c : Fin 10240} {q : QWord} {v : VecWord} {rest : List QWord} (hw : q.w = .vec v)
    (ho : v.op = .splitmix) (h : Starts s c 4 q rest)
    (apart : v.a * 32 + 128 * v.len ≤ v.d * 32 ∨ v.d * 32 + 128 * v.len ≤ v.a * 32) :
    ∃ t : State, exec (.splitmix c) s = .next (t.pump c) ∧ (PumpsIdle s c → t.pump c = t) ∧
      (∀ i, i < 16 * v.len →
        let x := leNat (rdBytes (s.core c).store (v.a * 32 + 8 * i) 8)
        leNat (rdBytes (t.core c).store (v.a * 32 + 8 * i) 8) = (x + 0x9E3779B97F4A7C15) % 2 ^ 64 ∧
        leNat (rdBytes (t.core c).store (v.d * 32 + 8 * i) 8) = (splitmix64 x).2 % 2 ^ 64) ∧
      (∀ x, (x < v.a * 32 ∨ v.a * 32 + 128 * v.len ≤ x) → (x < v.d * 32 ∨ v.d * 32 + 128 * v.len ≤ x) →
        rdByte (t.core c).store x = rdByte (s.core c).store x) ∧
      (t.core c).wells = (s.core c).wells ∧ OnlyCore s t c := by
  have effect := splitmixEff_vec c (s.wordTaken c q rest) hw
  obtain ⟨t, ht, idle, store, wells, -, only⟩ := vector_stores h hw ho (eff := splitmixEff c)
    (by rw [effect, State.core_setCore, State.core_wordTaken]) (by rw [effect]; exact (OnlyCore.refl _ _).setCore)
  rw [Core.wordTaken_store] at store
  set r := splitLanes (s.core c).store (v.a * 32) (16 * v.len) with hr
  have length : r.length = 16 * v.len := length_splitLanes _ _ _
  have bytes (g : Nat × Nat → Nat) : (r.flatMap fun p => toLE 8 (g p)).length = 128 * v.len := by
    rw [flatMap_length_const fun p => toLE_length 8 (g p), length]
    omega
  refine ⟨t, ht, idle, fun i hi => ⟨?_, ?_⟩, fun x ha hd => ?_, wells, only⟩
  · rw [store, rdBytes_wrBytes_out _ _ _ _ _ (by rw [bytes]; omega), leNat_wrBytes_flatMap _ _ (by omega)]
    simp [hr, splitLanes, splitmix64]
  · rw [store, leNat_wrBytes_flatMap _ _ (by omega)]
    simp [hr, splitLanes]
  · rw [store, rdByte_wrBytes_out (by rw [bytes]; exact hd), rdByte_wrBytes_out (by rw [bytes]; exact ha)]

/-! ## TOPK (R117) -/

theorem topkEff_vec (c : Nat) (s : State) {q : QWord} {v : VecWord} (hw : q.w = .vec v) :
    topkEff c s q =
      let top := topOf (vecF32 (s.core c).store (v.a * 32) (32 * v.len)) v.aux (32 * v.len)
      let pairs := top.flatMap fun p => toLE 4 p.1 ++ toLE 4 p.2
      s.setCore c { s.core c with store := wrBytes (s.core c).store (v.d * 32) pairs } := by
  unfold topkEff
  rw [hw]
  simp [topOf, vecF32]

/-- The two words of a pair written at `a`. -/
theorem leNat_pair (m : Mem) (a : Nat) {l : List (Nat × Nat)} {j : Nat} (hj : j < l.length) :
    let w := wrBytes m a (l.flatMap fun p => toLE 4 p.1 ++ toLE 4 p.2)
    leNat (rdBytes w (a + 8 * j) 4) = l[j].1 % 2 ^ 32 ∧ leNat (rdBytes w (a + 8 * j + 4) 4) = l[j].2 % 2 ^ 32 := by
  have pair := rdBytes_wrBytes_flatMap m a (g := fun p : Nat × Nat => toLE 4 p.1 ++ toLE 4 p.2) (n := 8) (by simp) hj
  rw [show 8 = 4 + 4 from rfl, rdBytes_append] at pair
  have first := List.append_inj_left pair (by simp)
  have second := List.append_inj_right pair (by simp)
  intro w
  exact ⟨by rw [first, leNat_toLE], by rw [second, leNat_toLE]⟩

theorem leNat_lt (l : List Byte) : leNat l < 2 ^ (8 * l.length) := by
  induction l with
  | nil => simp [leNat]
  | cons b l ih =>
    have := b.isLt
    simp only [leNat, List.length_cons, Nat.mul_add, Nat.pow_add]
    omega

theorem vecF32_getD {m : Mem} {a n i : Nat} (hi : i < n) : (vecF32 m a n).getD i 0 = leNat (rdBytes m (a + 4 * i) 4) := by
  simp [vecF32, List.getD_eq_getElem?_getD, hi]

theorem topk_result {s : State} {c : Fin 10240} {q : QWord} {v : VecWord} {rest : List QWord} (hw : q.w = .vec v)
    (ho : v.op = .topk) (h : Starts s c 4 q rest) (one : 1 ≤ v.aux) (fits : v.aux ≤ 64) (long : 2 ≤ v.len)
    (short : v.len < 2 ^ 20) :
    ∃ t : State, exec (.topk c) s = .next (t.pump c) ∧ (PumpsIdle s c → t.pump c = t) ∧
      (∀ j, j < v.aux →
        let i := (t.core c).f32 (v.d * 32 + 8 * j + 4)
        i < 32 * v.len ∧ (t.core c).f32 (v.d * 32 + 8 * j) = (s.core c).f32 (v.a * 32 + 4 * i)) ∧
      (∀ i, i < 32 * v.len →
        topBefore ((s.core c).f32 (v.a * 32 + 4 * i)) i ((t.core c).f32 (v.d * 32)) ((t.core c).f32 (v.d * 32 + 4)) = false) ∧
      (∀ x, x < v.d * 32 ∨ v.d * 32 + 8 * v.aux ≤ x → rdByte (t.core c).store x = rdByte (s.core c).store x) ∧
      (t.core c).wells = (s.core c).wells ∧ OnlyCore s t c := by
  have effect := topkEff_vec c (s.wordTaken c q rest) hw
  obtain ⟨t, ht, idle, store, wells, -, only⟩ := vector_stores h hw ho (eff := topkEff c)
    (by rw [effect, State.core_setCore, State.core_wordTaken]) (by rw [effect]; exact (OnlyCore.refl _ _).setCore)
  rw [Core.wordTaken_store] at store
  set xs := vecF32 (s.core c).store (v.a * 32) (32 * v.len) with hxs
  set top := topOf xs v.aux (32 * v.len) with htop
  have length : top.length = v.aux := by
    rw [htop, length_topOf]
    omega
  have score {i : Nat} (hi : i < 32 * v.len) : xs.getD i 0 = (s.core c).f32 (v.a * 32 + 4 * i) := vecF32_getD hi
  have small (a : Nat) : (s.core c).f32 a % 2 ^ 32 = (s.core c).f32 a := by
    refine Nat.mod_eq_of_lt ?_
    have := leNat_lt (rdBytes (s.core c).store a 4)
    rwa [rdBytes_length] at this
  -- pair `j` as it is read back
  have pair {j : Nat} (hj : j < top.length) : (t.core c).f32 (v.d * 32 + 8 * j + 4) = top[j].2 ∧ top[j].2 < 32 * v.len ∧
      (t.core c).f32 (v.d * 32 + 8 * j) = (s.core c).f32 (v.a * 32 + 4 * top[j].2) := by
    obtain ⟨hi, he⟩ := mem_topOf (List.getElem_mem hj)
    obtain ⟨first, second⟩ := leNat_pair (s.core c).store (v.d * 32) hj
    unfold Core.f32
    rw [store, first, second, Nat.mod_eq_of_lt (by omega), he, score hi, small]
    exact ⟨rfl, hi, rfl⟩
  refine ⟨t, ht, idle, fun j hj => ?_, fun i hi => ?_, fun x hx => ?_, wells, only⟩
  · obtain ⟨hindex, hi, hscore⟩ := pair (j := j) (by omega)
    simpa only [hindex, hscore, and_true] using hi
  · have hj : 0 < top.length := by omega
    obtain ⟨hindex, h0, hscore⟩ := pair hj
    simp only [Nat.mul_zero, Nat.add_zero] at hindex hscore
    have first : top.head? = some top[0] := List.head?_eq_getElem? ▸ List.getElem?_eq_getElem hj
    rw [hindex, hscore, ← score hi, ← score h0, ← (mem_topOf (List.getElem_mem hj)).2]
    exact head?_topOf one first hi
  · rw [store, rdByte_wrBytes_out]
    rw [flatMap_length_const (n := 8) (by simp), length]
    exact hx

/-- Settles O2: the reductions, SPLITMIX and TOPK, each by its rule above. -/
theorem vectorRangeOperations : Obligations.VectorRangeOperations :=
  ⟨fun _ _ _ _ _ _ _ => reduction_result, fun _ _ _ _ _ => splitmix_result, fun _ _ _ _ _ => topk_result⟩

end Sys2Proof.Machine
end

section
/-! SUPPORT. The operations that give W40 elements, in the store or in a well (R91, R99, R119, R152, R157). -/

namespace Sys2Proof.Machine

/-! ## W40 elements in the store -/

/-- Element `i` of the W40 elements written, read back. -/
theorem w40_wrBytes_w40Bytes (m : Mem) (a : Nat) {l : List (W40 × Bool)} {i : Nat} (hi : i < l.length) :
    BitVec.ofNat 40 (leNat (rdBytes (wrBytes m a (w40Bytes l)) (a + 5 * i) 5)) = l[i].1 := by
  unfold w40Bytes
  rw [leNat_wrBytes_flatMap m a hi, Nat.mod_eq_of_lt (l[i].1.isLt.trans_le (by decide)), BitVec.ofNat_toNat,
    BitVec.setWidth_eq]

theorem length_w40Bytes (l : List (W40 × Bool)) : (w40Bytes l).length = 5 * l.length :=
  flatMap_length_const fun _ => toLE_length 5 _

/-- What a word does whose results are `n` W40 elements at D. -/
theorem vector_puts_w40 {s : State} {c : Fin 10240} {q : QWord} {v : VecWord} {rest : List QWord} (h : Starts s c 4 q rest)
    (hw : q.w = .vec v) {op : VecOp} (ho : v.op = op) {eff : State → QWord → State} (g : Nat → W40 × Bool)
    (effect : ∀ u : State, u = s.wordTaken c q rest → eff u q =
      (u.setCore c { u.core c with store := wrBytes (u.core c).store (v.d * 32) (w40Bytes ((List.range (32 * v.len)).map g)) }).addCoreCnt
        C.CORE_CNT_SAT c (sats ((List.range (32 * v.len)).map g))) :
    ∃ t : State, s.vector c op eff = .next (t.pump c) ∧ (PumpsIdle s c → t.pump c = t) ∧
      (∀ i, i < 32 * v.len → (t.core c).w40 (v.d * 32 + 5 * i) = (g i).1) ∧
      (∀ x, x < v.d * 32 ∨ v.d * 32 + 160 * v.len ≤ x → rdByte (t.core c).store x = rdByte (s.core c).store x) ∧
      (t.core c).wells = (s.core c).wells ∧ OnlyCore s t c := by
  have done := effect _ rfl
  obtain ⟨t, ht, idle, store, wells, -, only⟩ := vector_stores h hw ho (eff := eff)
    (by rw [done, State.core_addCoreCnt, State.core_setCore, State.core_wordTaken])
    (by rw [done]; exact (OnlyCore.refl _ _).setCore.addCoreCnt)
  refine ⟨t, ht, idle, fun i hi => ?_, fun x hx => ?_, wells, only⟩
  · rw [Core.w40, store, w40_wrBytes_w40Bytes _ _ (by simpa using hi)]
    simp
  · rw [store, rdByte_wrBytes_out]
    · simp
    · rw [length_w40Bytes, List.length_map, List.length_range]
      omega

theorem add40Eff_vec (c : Nat) (s : State) {q : QWord} {v : VecWord} (hw : q.w = .vec v) :
    let out := (List.range (32 * v.len)).map fun i => toW40 (s.coreFld F.CORE_CFG.W40_SAT c = 1)
      ((ofW40 ((s.core c).w40 (v.a * 32 + 5 * i))).add (ofW40 ((s.core c).w40 (v.b * 32 + 5 * i))))
    add40Eff c s q = (s.setCore c { s.core c with store := wrBytes (s.core c).store (v.d * 32) (w40Bytes out) }).addCoreCnt
      C.CORE_CNT_SAT c (sats out) := by
  unfold add40Eff
  rw [hw]

theorem fma40Eff_vec (c : Nat) (s : State) {q : QWord} {v : VecWord} (hw : q.w = .vec v) :
    let out := (List.range (32 * v.len)).map fun i => toW40 (s.coreFld F.CORE_CFG.W40_SAT c = 1)
      (((mixed (s.core c) (bit v.fmtA 0) (v.a * 32) i).mul (mixed (s.core c) (bit v.fmtA 1) (v.b * 32) i)).add
        (mixed (s.core c) (bit v.fmtA 2) (v.c * 32) i))
    fma40Eff c s q = (s.setCore c { s.core c with store := wrBytes (s.core c).store (v.d * 32) (w40Bytes out) }).addCoreCnt
      C.CORE_CNT_SAT c (sats out) := by
  unfold fma40Eff
  rw [hw]

@[simp] theorem mixed_wordTaken (k : Core) (w : QWord) (rest : List QWord) (wide : Bool) (a i : Nat) :
    mixed (k.wordTaken w rest) wide a i = mixed k wide a i := rfl

/-! ## Elements of a well -/

/-- Cells of a well have one key each. -/
theorem wellKey_inj {w x r r' o o' : Nat} (hr : r < 16) (ho : o < 16) (hr' : r' < 16) (ho' : o' < 16)
    (h : wellKey w r o = wellKey x r' o') : w = x ∧ r = r' ∧ o = o' := by
  unfold wellKey at h
  omega

theorem Core.well_setWell (k : Core) {w x r r' o o' : Nat} (hr : r < 16) (ho : o < 16) (hr' : r' < 16) (ho' : o' < 16)
    (v : W40) : (k.setWell w r o v).well x r' o' = if x = w ∧ r' = r ∧ o' = o then v else k.well x r' o' := by
  unfold Core.well Core.setWell
  rw [look_put]
  refine if_congr ⟨fun h => ?_, fun ⟨hx, hr, ho⟩ => by rw [hx, hr, ho]⟩ rfl rfl
  exact wellKey_inj hr' ho' hr ho h

theorem mem_cells16 {p : Nat × Nat} : p ∈ cells16 ↔ p.1 < 16 ∧ p.2 < 16 := by
  rcases p with ⟨r, o⟩
  simp [cells16]

/-- A pass over cells of a well, each of which takes its new value from its old one. -/
def mapCells (f : Nat → Nat → W40 → W40 × Bool) (k : Core) (w : Nat) (l : List (Nat × Nat)) : Core × Nat :=
  l.foldl (fun a p =>
    let r := f p.1 p.2 (k.well w p.1 p.2)
    (a.1.setWell w p.1 p.2 r.1, a.2 + b2n r.2)) (k, 0)

theorem wellMap_eq (f : Nat → Nat → W40 → W40 × Bool) (k : Core) (w : Nat) : wellMap f k w = mapCells f k w cells16 := rfl

theorem mapCells_append (f : Nat → Nat → W40 → W40 × Bool) (k : Core) (w : Nat) (l : List (Nat × Nat)) (p : Nat × Nat) :
    (mapCells f k w (l ++ [p])).1 = (mapCells f k w l).1.setWell w p.1 p.2 (f p.1 p.2 (k.well w p.1 p.2)).1 := by
  simp [mapCells]

theorem mapCells_core (f : Nat → Nat → W40 → W40 × Bool) (k : Core) (w : Nat) (l : List (Nat × Nat)) :
    (mapCells f k w l).1 = { k with wells := (mapCells f k w l).1.wells } := by
  induction l using List.reverseRecOn with
  | nil => rfl
  | append_singleton l p ih =>
    rw [mapCells_append]
    generalize (mapCells f k w l).1 = a at ih ⊢
    rw [ih]
    rfl

theorem mapCells_well (f : Nat → Nat → W40 → W40 × Bool) (k : Core) (w : Nat) {l : List (Nat × Nat)}
    (hl : ∀ p ∈ l, p.1 < 16 ∧ p.2 < 16) {x r o : Nat} (hr : r < 16) (ho : o < 16) :
    (mapCells f k w l).1.well x r o = if x = w ∧ (r, o) ∈ l then (f r o (k.well w r o)).1 else k.well x r o := by
  induction l using List.reverseRecOn with
  | nil => simp [mapCells]
  | append_singleton l p ih =>
    obtain ⟨hp, hp'⟩ := hl p (List.mem_append_right _ (List.mem_singleton_self p))
    rw [mapCells_append, Core.well_setWell _ hp hp' hr ho, ih fun q hq => hl q (List.mem_append_left _ hq)]
    rcases p with ⟨r', o'⟩
    by_cases e : x = w ∧ r = r' ∧ o = o'
    · obtain ⟨rfl, rfl, rfl⟩ := e
      simp
    · have other : (x = w ∧ (r, o) ∈ l ++ [(r', o')]) ↔ (x = w ∧ (r, o) ∈ l) := by
        simp only [List.mem_append, List.mem_singleton, Prod.mk.injEq]
        tauto
      simp only [e, if_false, other]

theorem wellMap_well (f : Nat → Nat → W40 → W40 × Bool) (k : Core) (w : Nat) {x r o : Nat} (hr : r < 16) (ho : o < 16) :
    (wellMap f k w).1.well x r o = if x = w then (f r o (k.well w r o)).1 else k.well x r o := by
  rw [wellMap_eq, mapCells_well f k w (fun p hp => mem_cells16.mp hp) hr ho]
  have inside : (r, o) ∈ cells16 := mem_cells16.mpr ⟨hr, ho⟩
  simp only [inside, and_true]

theorem wellMap_core (f : Nat → Nat → W40 → W40 × Bool) (k : Core) (w : Nat) :
    (wellMap f k w).1 = { k with wells := (wellMap f k w).1.wells } := by
  rw [wellMap_eq]
  exact mapCells_core f k w cells16

/-- What a word does that maps the elements of well D (R99). -/
theorem vector_maps_well {s : State} {c : Fin 10240} {q : QWord} {v : VecWord} {rest : List QWord} (h : Starts s c 4 q rest)
    (hw : q.w = .vec v) (hd : v.d < 24) {op : VecOp} (ho : v.op = op)
    (f : Bool → Core → VecWord → Nat → Nat → W40 → W40 × Bool)
    (taken : ∀ sat, f sat ((s.core c).wordTaken q rest) v = f sat (s.core c) v) :
    ∃ t : State, s.vector c op (wellEff f c) = .next (t.pump c) ∧ (PumpsIdle s c → t.pump c = t) ∧
      (∀ r o, r < 16 → o < 16 → (t.core c).well v.d r o =
        (f (s.coreFld F.CORE_CFG.W40_SAT c = 1) (s.core c) v r o ((s.core c).well v.d r o)).1) ∧
      (∀ w r o, w ≠ v.d → r < 16 → o < 16 → (t.core c).well w r o = (s.core c).well w r o) ∧
      (t.core c).store = (s.core c).store ∧ OnlyCore s t c := by
  let g := f (s.coreFld F.CORE_CFG.W40_SAT c = 1) (s.core c) v
  let k := (s.core c).wordTaken q rest
  have effect : wellEff f c (s.wordTaken c q rest) q =
      ((s.wordTaken c q rest).setCore c (wellMap g k v.d).1).addCoreCnt C.CORE_CNT_SAT c (wellMap g k v.d).2 := by
    unfold wellEff
    rw [hw]
    simp only [State.coreFld_wordTaken, State.core_wordTaken, taken, Nat.mod_eq_of_lt (show v.d < 32 by omega), g, k]
    rfl
  refine ⟨_, State.vector_starts h hw ho _, fun idle => idle.pump ?_, ?_⟩
  all_goals simp only [effect, State.core_addCoreCnt, State.core_setCore]
  · rw [wellMap_core]
    rfl
  · refine ⟨fun r o hr ho => ?_, fun w r o hne hr ho => ?_, ?_, ?_⟩
    · rw [wellMap_well g k v.d hr ho, if_pos rfl]
      rfl
    · rw [wellMap_well g k v.d hr ho, if_neg hne]
      rfl
    · rw [wellMap_core]
      rfl
    · exact (OnlyCore.wordTaken s c q rest).setCore.addCoreCnt

/-- Settles O3: ADD40 and FMA40 put one rounded result for each element, ADD40W and GATE40W map the elements of the well. -/
theorem vectorWideOperations : Obligations.VectorWideOperations := by
  refine ⟨fun s c q v rest hw h => ⟨fun ho => ?_, fun ho => ?_⟩,
    fun s c q v rest hw h hd => ⟨fun ho => ?_, fun ho => ?_⟩⟩
  · refine vector_puts_w40 h hw ho (eff := add40Eff c) _ fun u hu => ?_
    subst hu
    rw [add40Eff_vec c _ hw]
    simp only [State.core_wordTaken, State.coreFld_wordTaken]
    rfl
  · refine vector_puts_w40 h hw ho (eff := fma40Eff c) _ fun u hu => ?_
    subst hu
    rw [fma40Eff_vec c _ hw]
    simp only [State.core_wordTaken, State.coreFld_wordTaken]
    rfl
  · exact vector_maps_well h hw hd ho add40wFn fun sat => rfl
  · exact vector_maps_well h hw hd ho gate40wFn fun sat => rfl

end Sys2Proof.Machine
end

section
/-! SUPPORT. CVT and LSCAN40 (R112, R113, R153). -/

namespace Sys2Proof.Machine

/-! ## CVT (R112, R113) -/

/-- The elements converted without stochastic rounding, each with one rounding to nearest even, under its index. -/
theorem cvtElems_outs (k40 sat : Bool) (fmt : Nat) (acc : DrainAcc) (l : List Val) :
    (cvtElems k40 sat false fmt acc l).outs =
      acc.outs ++ l.mapIdx fun i x => (cvtTo k40 sat .rne fmt (acc.outs.length + i) x).1 := by
  induction l generalizing acc with
  | nil => simp [cvtElems]
  | cons x l ih =>
    unfold cvtElems
    simp only [ih, nextRnd, Bool.false_eq_true, if_false, List.mapIdx_cons, List.length_append, List.length_cons,
      List.length_nil, Nat.add_zero, List.append_assoc, List.cons_append, List.nil_append]
    simp only [Nat.add_assoc, Nat.add_comm 1]

theorem length_cvtElems (k40 sat stoch : Bool) (fmt : Nat) (acc : DrainAcc) (l : List Val) :
    (cvtElems k40 sat stoch fmt acc l).outs.length = acc.outs.length + l.length := by
  induction l generalizing acc with
  | nil => rfl
  | cons x l ih =>
    unfold cvtElems
    rw [ih]
    simp only [List.length_append, List.length_cons, List.length_nil]
    omega

theorem length_packNib (l : List Nat) : (packNib l).length = (l.length + 1) / 2 := by
  match l with
  | [] => rfl
  | [_] => simp [packNib]
  | _ :: _ :: r =>
    simp only [packNib, List.length_cons, length_packNib r]
    omega

/-- Elements of a format of whole bytes lie one after the other. -/
theorem fmtBytes_eq_mul {fmt : Nat} (h : fmt ≠ 4) (n : Nat) : fmtBytes fmt n = fmtBytes fmt 1 * n := by
  unfold fmtBytes
  split
  case h_5 => exact absurd rfl h
  all_goals omega

theorem length_cvtPack (fmt : Nat) (l : List Nat) : (cvtPack fmt l).length = fmtBytes fmt l.length := by
  unfold cvtPack
  split
  · next h =>
    subst h
    exact length_packNib l
  · next h => rw [flatMap_length_const fun v => toLE_length _ v, ← fmtBytes_eq_mul h]

/-- The conversion of a word's elements. -/
def State.converted (s : State) (c : Nat) (k : Core) (q : QWord) (v : VecWord) : DrainAcc :=
  cvtElems (s.coreFld F.CORE_CFG.W40_SAT c = 1) (s.coreFld F.CORE_CFG.NARROW_SAT c = 1) v.rnd v.fmtD
    { lanes := lfsrLoad k.cmdSeed (Config.cvtTile q.tile) } ((List.range (32 * v.len)).map (cvtRead k.store (v.a * 32) v.fmtA))

theorem cvtEff_vec (c : Nat) (s : State) {q : QWord} {v : VecWord} (hw : q.w = .vec v) :
    cvtEff c s q = (s.setCore c { s.core c with
        store := wrBytes (s.core c).store (v.d * 32) (cvtPack v.fmtD (s.converted c (s.core c) q v).outs)
        lfsr := if v.rnd then (s.converted c (s.core c) q v).lanes else (s.core c).lfsr }).addCoreCnt
      C.CORE_CNT_SAT c (s.converted c (s.core c) q v).sats := by
  unfold cvtEff
  rw [hw]
  rfl

theorem cvt_result {s : State} {c : Fin 10240} {q : QWord} {v : VecWord} {rest : List QWord} (hw : q.w = .vec v)
    (ho : v.op = .cvt) (h : Starts s c 4 q rest) :
    ∃ t : State, exec (.cvt c) s = .next (t.pump c) ∧ (PumpsIdle s c → t.pump c = t) ∧
      (v.rnd = false → (t.core c).lfsr = (s.core c).lfsr ∧ (v.fmtD ≠ 4 → ∀ i, i < 32 * v.len →
        leNat (rdBytes (t.core c).store (v.d * 32 + fmtBytes v.fmtD i) (fmtBytes v.fmtD 1)) =
          (cvtTo (s.coreFld F.CORE_CFG.W40_SAT c = 1) (s.coreFld F.CORE_CFG.NARROW_SAT c = 1) .rne v.fmtD i
            (cvtRead (s.core c).store (v.a * 32) v.fmtA i)).1 % 2 ^ (8 * fmtBytes v.fmtD 1))) ∧
      (∀ x, x < v.d * 32 ∨ v.d * 32 + fmtBytes v.fmtD (32 * v.len) ≤ x →
        rdByte (t.core c).store x = rdByte (s.core c).store x) ∧
      (t.core c).wells = (s.core c).wells ∧ OnlyCore s t c := by
  let k := (s.core c).wordTaken q rest
  let d := s.converted c k q v
  have effect : cvtEff c (s.wordTaken c q rest) q = ((s.wordTaken c q rest).setCore c { k with
      store := wrBytes k.store (v.d * 32) (cvtPack v.fmtD d.outs), lfsr := if v.rnd then d.lanes else k.lfsr }).addCoreCnt
        C.CORE_CNT_SAT c d.sats := by
    rw [cvtEff_vec c _ hw, State.core_wordTaken]
    rfl
  refine ⟨_, State.vector_starts h hw ho _, fun idle => idle.pump ?_, ?_⟩
  all_goals simp only [effect, State.core_addCoreCnt, State.core_setCore]
  · rfl
  · refine ⟨fun rne => ⟨by simp [rne, k], fun whole i hi => ?_⟩, fun x hx => ?_, rfl,
      (OnlyCore.wordTaken s c q rest).setCore.addCoreCnt⟩
    · have outs : d.outs = (List.range (32 * v.len)).mapIdx fun i _ =>
          (cvtTo (s.coreFld F.CORE_CFG.W40_SAT c = 1) (s.coreFld F.CORE_CFG.NARROW_SAT c = 1) .rne v.fmtD i
            (cvtRead k.store (v.a * 32) v.fmtA i)).1 := by
        simp only [d, State.converted, rne, cvtElems_outs]
        refine List.ext_getElem (by simp) fun i _ _ => ?_
        simp
      rw [cvtPack, if_neg whole, fmtBytes_eq_mul whole i, leNat_wrBytes_flatMap _ _ (by simpa [outs] using hi)]
      simp [outs, k]
    · refine rdByte_wrBytes_out ?_
      have length : d.outs.length = 32 * v.len := by
        simp [d, State.converted, length_cvtElems]
      rw [length_cvtPack, length]
      exact hx

/-! ## LSCAN40 (R153) -/

/-- Element `i` of a list of elements of `n` bytes each that stands amid other bytes, read back. -/
theorem rdBytes_wrBytes_flatMap_mid (m : Mem) (a : Nat) (x z : List Byte) {α : Type} {l : List α} {g : α → List Byte} {n : Nat}
    (hg : ∀ y, (g y).length = n) {i : Nat} (hi : i < l.length) :
    rdBytes (wrBytes m a (x ++ l.flatMap g ++ z)) (a + x.length + n * i) n = g l[i] := by
  have split : x ++ l.flatMap g ++ z = x ++ (l.take i).flatMap g ++ g l[i] ++ ((l.drop (i + 1)).flatMap g ++ z) := by
    conv_lhs => rw [← List.take_append_drop i l, List.drop_eq_getElem_cons hi]
    simp only [List.flatMap_append, List.flatMap_cons, List.append_assoc]
  have place : (x ++ (l.take i).flatMap g).length = x.length + n * i := by
    rw [List.length_append, flatMap_length_const hg, List.length_take, Nat.min_eq_left hi.le]
  rw [split, Nat.add_assoc, ← place]
  conv_lhs => rw [← hg l[i]]
  exact rdBytes_wrBytes_mid m a _ _ _

/-- The 16 channels of a chunk. -/
def scanChunk (sat : Bool) (k : Core) (v : VecWord) : List (Scan × List W40) :=
  let l := 2 ^ (v.aux % 16)
  (List.range 16).map fun h =>
    scanChannel sat (bit v.aux 4) (v.aux % 16) (k.w40 (v.c * 32 + 5 * h)) (k.w40 (v.c * 32 + 80 + 5 * h))
      ((List.range l).map fun n => (rdByte k.store (v.c * 32 + 160 + n / 8)).getLsbD (n % 8))
      ((List.range l).map fun n => mixed k (bit v.fmtA 0) (v.a * 32) (n * 16 + h))
      ((List.range l).map fun n => mixed k (bit v.fmtA 1) (v.b * 32) (n * 16 + h))

/-- One W40 element of each channel. -/
def scanRow (r : List (Scan × List W40)) (f : Scan × List W40 → W40) : List Byte := r.flatMap fun x => toLE 5 (f x).toNat

/-- What follows A and B of the last step: with APPLY the states of all steps, without it A and B of all steps. -/
def scanBody (r : List (Scan × List W40)) (apply : Bool) (l : Nat) : List Byte :=
  if apply then (List.range l).flatMap fun n => scanRow r fun x => x.2.getD n 0
  else ((List.range l).flatMap fun n => scanRow r fun x => x.1.a.getD n 0) ++
    (List.range l).flatMap fun n => scanRow r fun x => x.1.b.getD n 0

theorem length_scanRow (r : List (Scan × List W40)) (f : Scan × List W40 → W40) : (scanRow r f).length = 5 * r.length :=
  flatMap_length_const fun _ => toLE_length 5 _

theorem length_scanBody (r : List (Scan × List W40)) (apply : Bool) (l : Nat) :
    (scanBody r apply l).length = (if apply then 5 else 10) * r.length * l := by
  unfold scanBody
  cases apply
  · simp only [Bool.false_eq_true, if_false, List.length_append,
      flatMap_length_const fun n => length_scanRow r _, List.length_range]
    ring
  · simp only [if_true, flatMap_length_const fun n => length_scanRow r _, List.length_range]

/-- Channel `h` of a row written amid other bytes, read back. -/
theorem w40_scanRow (m : Mem) (a : Nat) (x z : List Byte) (r : List (Scan × List W40)) (f : Scan × List W40 → W40) {h : Nat}
    (hh : h < r.length) :
    BitVec.ofNat 40 (leNat (rdBytes (wrBytes m a (x ++ scanRow r f ++ z)) (a + x.length + 5 * h) 5)) = f r[h] := by
  unfold scanRow
  rw [rdBytes_wrBytes_flatMap_mid m a x z (fun y => toLE_length 5 _) hh, leNat_toLE,
    Nat.mod_eq_of_lt ((f r[h]).isLt.trans_le (by decide)), BitVec.ofNat_toNat, BitVec.setWidth_eq]

/-- All that a chunk of `l` steps puts at D. -/
def scanBytes (r : List (Scan × List W40)) (apply : Bool) (l : Nat) : List Byte :=
  scanRow r (fun x => x.1.a.getD (l - 1) 0) ++ scanRow r (fun x => x.1.b.getD (l - 1) 0) ++ scanBody r apply l

theorem lscan40Eff_vec (c : Nat) (s : State) {q : QWord} {v : VecWord} (hw : q.w = .vec v) {r : List (Scan × List W40)}
    (hr : scanChunk (s.coreFld F.CORE_CFG.W40_SAT c = 1) (s.core c) v = r) :
    lscan40Eff c s q = (s.setCore c { s.core c with
        store := wrBytes (s.core c).store (v.d * 32) (scanBytes r (bit v.aux 4) (2 ^ (v.aux % 16))) }).addCoreCnt
      C.CORE_CNT_SAT c (r.foldl (fun n x => n + x.1.n) 0) := by
  subst hr
  unfold lscan40Eff
  rw [hw]
  rfl

/-- Without marks and APPLY a chunk of two steps gives A1 x A0, and A1 x B0 + B1. -/
theorem scanChannel_two (sat : Bool) (sinit carry : W40) (a0 a1 b0 b1 : Val) :
    let r (y : Val) : W40 := (toW40 sat y).1
    let x := (scanChannel sat false 1 sinit carry [false, false] [a0, a1] [b0, b1]).1
    x.a.getD 1 0 = r ((ofW40 (r a1)).mul (ofW40 (r a0))) ∧
      x.b.getD 1 0 = r (((ofW40 (r a1)).mul (ofW40 (r b0))).add (ofW40 (r b1))) := by
  simp [scanChannel, scanLevel, List.range_succ]

@[simp] theorem scanChunk_wordTaken (sat : Bool) (k : Core) (w : QWord) (rest : List QWord) (v : VecWord) :
    scanChunk sat (k.wordTaken w rest) v = scanChunk sat k v := rfl

theorem lscan40_result {s : State} {c : Fin 10240} {q : QWord} {v : VecWord} {rest : List QWord} (hw : q.w = .vec v)
    (ho : v.op = .lscan40) (h : Starts s c 4 q rest) {r : List (Scan × List W40)}
    (hr : scanChunk (s.coreFld F.CORE_CFG.W40_SAT c = 1) (s.core c) v = r) {l : Nat} (hl : 2 ^ (v.aux % 16) = l) :
    ∃ t : State, exec (.lscan40 c) s = .next (t.pump c) ∧ (PumpsIdle s c → t.pump c = t) ∧
      (∀ h (hh : h < r.length), (t.core c).w40 (v.d * 32 + 5 * h) = r[h].1.a.getD (l - 1) 0 ∧
        (t.core c).w40 (v.d * 32 + 80 + 5 * h) = r[h].1.b.getD (l - 1) 0) ∧
      (∀ x, x < v.d * 32 ∨ v.d * 32 + 160 + (if bit v.aux 4 then 80 else 160) * l ≤ x →
        rdByte (t.core c).store x = rdByte (s.core c).store x) ∧
      (t.core c).wells = (s.core c).wells ∧ OnlyCore s t c := by
  have effect := lscan40Eff_vec c (s.wordTaken c q rest) hw (r := r)
    (by rw [State.core_wordTaken, State.coreFld_wordTaken, scanChunk_wordTaken, hr])
  obtain ⟨t, ht, idle, store, wells, -, only⟩ := vector_stores h hw ho (eff := lscan40Eff c)
    (by rw [effect, State.core_addCoreCnt, State.core_setCore, State.core_wordTaken])
    (by rw [effect]; exact (OnlyCore.refl _ _).setCore.addCoreCnt)
  rw [Core.wordTaken_store, scanBytes, hl] at store
  have channels : r.length = 16 := by simp [← hr, scanChunk]
  refine ⟨t, ht, idle, fun h hh => ⟨?_, ?_⟩, fun x hx => ?_, wells, only⟩
  · have first := w40_scanRow (s.core c).store (v.d * 32) [] (scanRow r (fun x => x.1.b.getD (l - 1) 0) ++ scanBody r (bit v.aux 4) l) r
      (fun x => x.1.a.getD (l - 1) 0) hh
    rw [Core.w40, store, List.append_assoc]
    exact first
  · have second := w40_scanRow (s.core c).store (v.d * 32) (scanRow r (fun x => x.1.a.getD (l - 1) 0)) (scanBody r (bit v.aux 4) l) r
      (fun x => x.1.b.getD (l - 1) 0) hh
    rw [length_scanRow, channels] at second
    rw [Core.w40, store]
    exact second
  · rw [store]
    refine rdByte_wrBytes_out ?_
    rw [List.length_append, List.length_append, length_scanRow, length_scanRow, length_scanBody, channels]
    cases hb : bit v.aux 4 <;> simp only [hb, Bool.false_eq_true, if_false, if_true] at hx ⊢ <;> omega

/-- Settles O4: the conversion, and the scan of a chunk, by their rules above. -/
theorem vectorConvertScan : Obligations.VectorConvertScan := by
  intro s c q v rest hw h k sat
  refine ⟨fun ho => cvt_result hw ho h, fun ho => ?_⟩
  intro l a b marks
  obtain ⟨t, ht, idle, last, frame, wells, only⟩ := lscan40_result hw ho h rfl rfl
  have channel {h : Nat} (hh : h < 16) : ∃ hr, (scanChunk sat k v)[h]'hr =
      scanChannel sat (bit v.aux 4) (v.aux % 16) (k.w40 (v.c * 32 + 5 * h)) (k.w40 (v.c * 32 + 80 + 5 * h)) marks
        ((List.range l).map (fun n => a n h)) ((List.range l).map (fun n => b n h)) := by
    refine ⟨by simpa [scanChunk] using hh, ?_⟩
    simp [scanChunk, a, b, marks, l]
  refine ⟨t, ht, idle, fun h hh => ?_, fun two m0 m1 h hh => ?_, frame, wells, only⟩
  · obtain ⟨hr, e⟩ := channel hh
    have row := last h hr
    rw [e] at row
    exact row
  · obtain ⟨hr, e⟩ := channel hh
    have row := last h hr
    rw [e] at row
    have unmarked : marks = [false, false] := by
      simpa [marks, l, two, List.range_succ] using And.intro m0 m1
    have steps (x : Nat → Nat → Val) : (List.range l).map (fun n => x n h) = [x 0 h, x 1 h] := by
      simp [l, two, List.range_succ]
    have last : 2 ^ (v.aux % 16) - 1 = 1 := by simp [two]
    rw [unmarked, steps, steps, last, two] at row
    exact ⟨row.1.trans (scanChannel_two sat _ _ _ _ _ _).1, row.2.trans (scanChannel_two sat _ _ _ _ _ _).2⟩

end Sys2Proof.Machine
end

section
/-! SUPPORT. ARRAY passes and the tiles that LOAD_STAT fills (R88, R89, R92, R93, R95). -/

namespace Sys2Proof.Machine

/-- A word that can start has its effect, and the pumps go on. -/
theorem State.coreWord_starts {s : State} {c kind : Nat} {sel : CoreWord → Bool} {q : QWord} {rest : List QWord}
    (h : Starts s c kind q rest) (hs : sel q.w = true) (eff : State → QWord → State) :
    s.coreWord c kind sel eff = .next ((eff (s.wordTaken c q rest) q).pump c) :=
  congrArg (fun t => Host.Outcome.next (State.pump t c)) (State.runWord_starts h hs eff)

/-! ## ARRAY (R88, R89, R92, R93) -/

/-- The columns of a well that a pass computes: 8 of the half named in the 16-bit class, else all. -/
def passCols (w : W64) : Nat := if class16 (wf w 46 43) then 8 else 16
def passFirst (w : W64) : Nat := if class16 (wf w 46 43) then 8 * wf w 52 52 else 0

/-- The cells of the destination well that a pass computes. -/
def passCells (w : W64) : List (Nat × Nat) :=
  (List.range 16).flatMap fun m => (List.range (passCols w)).map fun o => (m, passFirst w + o)

/-- The scale of row `m` of the moving operand. -/
def passScale (w : W64) (k : Core) (m : Nat) : Val :=
  if wf w 42 42 = 1 then mxElem (wf w 50 47) (rdByte k.store (wf w 21 10 * 32 + m)).toNat else .fin false 1 0

/-- One element of a pass: the exact sum of products onto the old value, or onto 0, rounded once. -/
def passElem (sat : Bool) (w : W64) (at_ : Nat → Nat) (k : Core) (m col : Nat) (old : W40) : W40 × Bool :=
  toW40 sat (dot (if wf w 54 54 = 1 then ofW40 old else .fin false 0 0)
    ((movingRow k.store (at_ m) (wf w 50 47)).map fun v => v.mul (passScale w k m))
    (statRow k.active (wf w 53 53 = 1) (wf w 46 43) (col - passFirst w)))

theorem bits_lt (n hi lo : Nat) : bits n hi lo < 2 ^ (hi + 1 - lo) := by
  unfold bits
  exact Nat.mod_lt _ (Nat.two_pow_pos _)

theorem mem_passCells {w : W64} {p : Nat × Nat} :
    p ∈ passCells w ↔ p.1 < 16 ∧ passFirst w ≤ p.2 ∧ p.2 < passFirst w + passCols w := by
  rcases p with ⟨r, o⟩
  simp only [passCells, List.mem_flatMap, List.mem_range, List.mem_map, Prod.mk.injEq]
  constructor
  · rintro ⟨m, hm, i, hi, rfl, rfl⟩
    omega
  · rintro ⟨hr, lo, hi⟩
    exact ⟨r, hr, o - passFirst w, by omega, rfl, by omega⟩

theorem passCells_inside (w : W64) : ∀ p ∈ passCells w, p.1 < 16 ∧ p.2 < 16 := by
  intro p hp
  obtain ⟨hr, -, ho⟩ := mem_passCells.mp hp
  have half : wf w 52 52 < 2 := bits_lt _ 52 52
  refine ⟨hr, ho.trans_le ?_⟩
  unfold passFirst passCols
  split <;> omega

theorem passOf_eq (sat : Bool) (w : W64) (at_ : Nat → Nat) (k : Core) :
    passOf sat w at_ k = (passCells w).map fun p =>
      (p.1, p.2, passElem sat w at_ k p.1 p.2 (k.well (wf w 59 55) p.1 p.2)) := by
  simp only [passOf, passCells, passElem, passScale, passCols, passFirst, List.map_flatMap, List.map_map, Function.comp_def,
    Nat.add_sub_cancel_left]

theorem mapCells_fst (f : Nat → Nat → W40 → W40 × Bool) (k : Core) (w : Nat) (l : List (Nat × Nat)) :
    (l.map fun p => (p.1, p.2, f p.1 p.2 (k.well w p.1 p.2))).foldl (fun a p => a.setWell w p.1 p.2.1 p.2.2.1) k =
      (mapCells f k w l).1 := by
  induction l using List.reverseRecOn with
  | nil => rfl
  | append_singleton l p ih => rw [List.map_append, List.foldl_append, ih, mapCells_append]; rfl

/-- The core that a pass begins with: SWAP makes the shadow tile the active one. -/
def Core.swapped (k : Core) (w : W64) : Core := if wf w 51 51 = 1 then { k with active := k.shadow } else k

theorem Core.swapped_eq (k : Core) (w : W64) :
    k.swapped w = { k with active := if wf w 51 51 = 1 then k.shadow else k.active } := by
  unfold Core.swapped
  split <;> rfl

theorem arrayEff_bits {c : Nat} {s : State} {q : QWord} {w : W64} (hw : q.w = .bits w) {sat : Bool} {k : Core}
    (hs : (s.coreFld F.CORE_CFG.W40_SAT c = 1 : Bool) = sat) (hk : (s.core c).swapped w = k) :
    ∃ n, arrayEff c s q =
      (((s.setCore c (mapCells (passElem sat w (movingAt w q) k) k (wf w 59 55) (passCells w)).1).addCoreCnt
        C.CORE_CNT_SAT c n).addCoreCnt C.CORE_CNT_PASSES c 1).addCoreCnt C.CORE_CNT_STALL c (Config.stallCycles c s.tm.now) := by
  subst hs hk
  unfold arrayEff
  rw [hw]
  simp only [passOf_eq, mapCells_fst]
  exact ⟨_, rfl⟩

theorem array_result {s : State} {c : Fin 10240} {q : QWord} {w : W64} {rest : List QWord} (hw : q.w = .bits w)
    (h : Starts s c 1 q rest) :
    let k := s.core c
    let act := if wf w 51 51 = 1 then k.shadow else k.active
    let dst := wf w 59 55
    ∃ t : State, exec (.array c) s = .next (t.pump c) ∧ (PumpsIdle s c → t.pump c = t) ∧
      (t.core c).active = act ∧ (t.core c).shadow = k.shadow ∧
      (∀ m o, m < 16 → o < passCols w → (t.core c).well dst m (passFirst w + o) =
        (toW40 (s.coreFld F.CORE_CFG.W40_SAT c = 1)
          (dot (if wf w 54 54 = 1 then ofW40 (k.well dst m (passFirst w + o)) else .fin false 0 0)
            ((movingRow k.store (movingAt w q m) (wf w 50 47)).map (fun v => v.mul (passScale w k m)))
            (statRow act (wf w 53 53 = 1) (wf w 46 43) o))).1) ∧
      (∀ x r o, x ≠ dst ∨ o < passFirst w ∨ passFirst w + passCols w ≤ o → r < 16 → o < 16 →
        (t.core c).well x r o = k.well x r o) ∧
      (t.core c).store = k.store ∧ OnlyCore s t c := by
  intro k act dst
  generalize hx : ((s.core c).wordTaken q rest).swapped w = x
  obtain ⟨n, effect⟩ := arrayEff_bits (s := s.wordTaken c q rest) hw (sat := s.coreFld F.CORE_CFG.W40_SAT c = 1) (k := x) rfl
    (by rw [State.core_wordTaken, hx])
  rw [Core.swapped_eq] at hx
  generalize hf : passElem (s.coreFld F.CORE_CFG.W40_SAT c = 1) w (movingAt w q) x = f at effect
  have core : (mapCells f x dst (passCells w)).1 = { x with wells := (mapCells f x dst (passCells w)).1.wells } :=
    mapCells_core _ _ _ _
  refine ⟨_, State.coreWord_starts h rfl _, fun idle => idle.pump ?_, ?_⟩
  all_goals simp only [effect, State.core_addCoreCnt, State.core_setCore]
  · rw [core, ← hx]
    rfl
  · refine ⟨?_, ?_, fun m o hm ho => ?_, fun y r o out hr ho => ?_, ?_, ?_⟩
    · rw [core, ← hx]
      rfl
    · rw [core, ← hx]
      rfl
    · have cell : (m, passFirst w + o) ∈ passCells w := mem_passCells.mpr ⟨hm, by omega, by omega⟩
      rw [mapCells_well f x dst (passCells_inside w) hm (passCells_inside w _ cell).2, if_pos ⟨rfl, cell⟩, ← hf, passElem,
        Nat.add_sub_cancel_left, ← hx]
      rfl
    · have cell : ¬ (y = dst ∧ (r, o) ∈ passCells w) := by
        rw [mem_passCells]
        omega
      rw [mapCells_well f x dst (passCells_inside w) hr ho, if_neg cell, ← hx]
      rfl
    · rw [core, ← hx]
      rfl
    · exact (OnlyCore.wordTaken s c q rest).setCore.addCoreCnt.addCoreCnt.addCoreCnt

/-! ## LOAD_STAT (R93, R95) -/

/-- Cells of a tile put in one by one: each holds what was put there. -/
theorem look_foldl_put (g : Nat → Nat → BitVec 16) {n : Nat} (hn : n ≤ 16) {i j : Nat} (hi : i < n) (hj : j < n) :
    look 0 ((List.range n).foldl (fun t k => (List.range n).foldl (fun t l => put 0 t (k * 16 + l) (g k l)) t) [])
      (i * 16 + j) = g i j := by
  -- one row, and then the rows
  have row (t : SMap (BitVec 16)) (k m x : Nat) :
      look 0 ((List.range m).foldl (fun t l => put 0 t (k * 16 + l) (g k l)) t) x =
        if k * 16 ≤ x ∧ x < k * 16 + m then g k (x - k * 16) else look 0 t x := by
    induction m with
    | zero => simp
    | succ m ih =>
      rw [List.range_succ, List.foldl_append, List.foldl_cons, List.foldl_nil, look_put, ih]
      by_cases e : x = k * 16 + m
      · subst e
        simp
      · simp only [e, if_false]
        exact if_congr (by omega) rfl rfl
  have rows (m : Nat) (hm : i < m) :
      look 0 ((List.range m).foldl (fun t k => (List.range n).foldl (fun t l => put 0 t (k * 16 + l) (g k l)) t) [])
        (i * 16 + j) = g i j := by
    induction m with
    | zero => cases hm
    | succ m ih =>
      rw [List.range_succ, List.foldl_append, List.foldl_cons, List.foldl_nil, row]
      rcases Nat.lt_succ_iff_lt_or_eq.mp hm with hm | rfl
      · rw [if_neg (by omega), ih hm]
      · rw [if_pos (by omega), Nat.add_sub_cancel_left]
  exact rows n hi

theorem loadStat_result {s : State} {c : Fin 10240} {q : QWord} {w : W64} {rest : List QWord} (hw : q.w = .bits w)
    (h : Starts s c 2 q rest) :
    let k := s.core c
    let at_ := wf w 59 48 * 32
    let st := wf w 47 40 * 16
    ∃ t : State, exec (.loadStat c) s = .next (t.pump c) ∧ (PumpsIdle s c → t.pump c = t) ∧
      (t.core c).shadow.fmt = wf w 39 36 ∧ (t.core c).shadow.mx = decide (wf w 35 35 = 1) ∧
      (wf w 35 35 = 1 → (t.core c).shadow.scales = rdBytes k.store (wf w 32 21 * 32) 16) ∧
      (class16 (wf w 39 36) = false → ∀ i j, i < 16 → j < 16 → look 0 (t.core c).shadow.cells (i * 16 + j) =
        (rdByte k.store (at_ + i * st + j)).setWidth 16) ∧
      (class16 (wf w 39 36) = true → ∀ i j, i < 8 → j < 8 → look 0 (t.core c).shadow.cells (i * 16 + j) =
        BitVec.ofNat 16 (leNat (rdBytes k.store
          (at_ + (8 * (wf w 34 33 / 2) + i) * st + 2 * (8 * (wf w 34 33 % 2) + j)) 2))) ∧
      (t.core c).active = k.active ∧ (t.core c).store = k.store ∧ (t.core c).wells = k.wells ∧ OnlyCore s t c := by
  intro k at_ st
  have effect : loadStatEff c (s.wordTaken c q rest) q =
      (s.wordTaken c q rest).setCore c { k.wordTaken q rest with shadow := loadStatTile w k.store } := by
    unfold loadStatEff
    rw [hw]
    simp only [State.core_wordTaken]
    rfl
  refine ⟨_, State.coreWord_starts h rfl _, fun idle => idle.pump ?_, ?_⟩
  all_goals simp only [effect, State.core_setCore]
  · rfl
  · refine ⟨rfl, rfl, fun mx => if_pos mx, fun narrow i j hi hj => ?_, fun wide i j hi hj => ?_, rfl, rfl, rfl,
      (OnlyCore.wordTaken s c q rest).setCore⟩
    · simp only [loadStatTile, narrow, Bool.false_eq_true, if_false]
      rw [look_foldl_put _ (by decide) hi hj]
      exact BitVec.ofNat_toNat _ _
    · simp only [loadStatTile, wide, if_true]
      exact look_foldl_put _ (by decide) hi hj

/-- Settles O5: a pass, and the tile loaded, by their rules above. -/
theorem arrayAndTiles : Obligations.ArrayAndTiles :=
  ⟨fun _ _ _ _ _ hw h => array_result hw h, fun _ _ _ _ _ hw h => loadStat_result hw h⟩

end Sys2Proof.Machine
end

section
/-! SUPPORT. Images of wells, and DRAIN (R102, R108, R109, R112, R133). -/

namespace Sys2Proof.Machine

/-! ## SAVE40 and RESTORE40 (R102) -/

/-- Where a list of elements of `n` bytes each stands in a store, element `i` is read at its place. -/
theorem rdBytes_flatMap_part {m : Mem} {a n : Nat} {α : Type} {l : List α} {g : α → List Byte}
    (hg : ∀ x, (g x).length = n) (h : rdBytes m a (n * l.length) = l.flatMap g) {i : Nat} (hi : i < l.length) :
    rdBytes m (a + n * i) n = g l[i] := by
  induction l generalizing a i with
  | nil => cases hi
  | cons x l ih =>
    rw [List.length_cons, Nat.mul_succ, Nat.add_comm, rdBytes_append, List.flatMap_cons] at h
    have first := List.append_inj_left h (by simp [hg])
    have rest := List.append_inj_right h (by simp [hg])
    cases i with
    | zero => exact first
    | succ i =>
      rw [Nat.mul_succ, Nat.add_comm (n * i) n, ← Nat.add_assoc]
      exact ih rest (Nat.lt_of_succ_lt_succ hi)

theorem cells16_getElem? : ∀ r o : Fin 16, cells16[r.val * 16 + o.val]? = some (r.val, o.val) := by
  decide +kernel

theorem length_cells16 : cells16.length = 256 := by decide +kernel

theorem length_image (k : Core) (w : Nat) : (k.image w).length = 1280 := by
  rw [Core.image, flatMap_length_const fun _ => toLE_length 5 _, length_cells16]

/-- Element (r, o) of the image of well `w` where that stands in a store. -/
theorem w40_of_image {m : Mem} {a : Nat} {k : Core} {w r o : Nat} (h : rdBytes m a 1280 = k.image w) (hr : r < 16)
    (ho : o < 16) : BitVec.ofNat 40 (leNat (rdBytes m (a + (r * 16 + o) * 5) 5)) = k.well w r o := by
  obtain ⟨hi, cell⟩ := List.getElem?_eq_some_iff.mp (cells16_getElem? ⟨r, hr⟩ ⟨o, ho⟩)
  have whole : rdBytes m a (5 * cells16.length) = k.image w := by rw [length_cells16]; exact h
  have element := rdBytes_flatMap_part (fun p : Nat × Nat => toLE_length 5 (k.well w p.1 p.2).toNat) whole hi
  rw [cell] at element
  rw [Nat.mul_comm, element, leNat_toLE, Nat.mod_eq_of_lt ((k.well w r o).isLt.trans_le (by decide)), BitVec.ofNat_toNat,
    BitVec.setWidth_eq]

theorem save40_result {s : State} {c : Fin 10240} {q : QWord} {m : BitVec 24} {a : Nat} {rest : List QWord}
    (hw : q.w = .save40 m a) (h : Starts s c 6 q rest) :
    let k := s.core c
    ∃ t : State, exec (.save40 c) s = .next (t.pump c) ∧ (PumpsIdle s c → t.pump c = t) ∧
      (∀ j x r o, (wellsOf m.toNat)[j]? = some x → r < 16 → o < 16 →
        (t.core c).w40 (a * 32 + 1280 * j + (r * 16 + o) * 5) = k.well x r o) ∧
      (∀ y, y < a * 32 ∨ a * 32 + 1280 * (wellsOf m.toNat).length ≤ y → rdByte (t.core c).store y = rdByte k.store y) ∧
      (t.core c).wells = k.wells ∧ OnlyCore s t c := by
  intro k
  have effect : save40Eff c (s.wordTaken c q rest) q = (s.wordTaken c q rest).setCore c { k.wordTaken q rest with
      store := wrBytes k.store (a * 32) ((wellsOf m.toNat).flatMap k.image) } := by
    unfold save40Eff
    rw [hw]
    simp only [State.core_wordTaken]
    rfl
  refine ⟨_, State.coreWord_starts h rfl _, fun idle => idle.pump ?_, ?_⟩
  all_goals simp only [effect, State.core_setCore]
  · rfl
  · refine ⟨fun j x r o hx hr ho => ?_, fun y hy => rdByte_wrBytes_out ?_, rfl, (OnlyCore.wordTaken s c q rest).setCore⟩
    · obtain ⟨hj, rfl⟩ := List.getElem?_eq_some_iff.mp hx
      exact w40_of_image (rdBytes_wrBytes_flatMap _ _ (length_image k) hj) hr ho
    · rwa [flatMap_length_const (length_image k)]

/-- A well loaded is a pass over its cells. -/
theorem Core.loadWell_eq (k : Core) (w a : Nat) :
    k.loadWell w a = (mapCells (fun r o _ => (k.w40 (a + (r * 16 + o) * 5), false)) k w cells16).1 := by
  unfold Core.loadWell
  generalize cells16 = l
  induction l using List.reverseRecOn with
  | nil => rfl
  | append_singleton l p ih =>
    rw [List.foldl_append, ih, mapCells_append, mapCells_core]
    rfl

theorem Core.loadWell_core (k : Core) (w a : Nat) : k.loadWell w a = { k with wells := (k.loadWell w a).wells } := by
  rw [Core.loadWell_eq]
  exact mapCells_core _ k w cells16

theorem Core.w40_loadWell (k : Core) (w a b : Nat) : (k.loadWell w a).w40 b = k.w40 b := by
  rw [Core.w40, Core.loadWell_core]
  rfl

theorem Core.loadWell_well (k : Core) (w a : Nat) {x r o : Nat} (hr : r < 16) (ho : o < 16) :
    (k.loadWell w a).well x r o = if x = w then k.w40 (a + (r * 16 + o) * 5) else k.well x r o := by
  have inside : (r, o) ∈ cells16 := mem_cells16.mpr ⟨hr, ho⟩
  rw [Core.loadWell_eq, mapCells_well _ k w (fun p hp => mem_cells16.mp hp) hr ho]
  simp only [inside, and_true]

theorem loadWells_cons (k : Core) (a w : Nat) (ws : List Nat) :
    loadWells k a (w :: ws) = loadWells (k.loadWell w a) (a + 1280) ws := by
  rw [loadWells.eq_def]

theorem loadWells_core (k : Core) (a : Nat) (ws : List Nat) : loadWells k a ws = { k with wells := (loadWells k a ws).wells } := by
  induction ws generalizing k a with
  | nil => rfl
  | cons w ws ih =>
    rw [loadWells_cons, ih, Core.loadWell_core]

theorem loadWells_well_out (k : Core) (a : Nat) {ws : List Nat} {x r o : Nat} (hx : x ∉ ws) (hr : r < 16) (ho : o < 16) :
    (loadWells k a ws).well x r o = k.well x r o := by
  induction ws generalizing k a with
  | nil => rfl
  | cons w ws ih =>
    rw [loadWells_cons, ih _ _ (List.not_mem_of_not_mem_cons hx), Core.loadWell_well _ _ _ hr ho,
      if_neg (List.ne_of_not_mem_cons hx)]

/-- Each well of a list without repetition is loaded from its own image. -/
theorem loadWells_well (k : Core) (a : Nat) {ws : List Nat} (nodup : ws.Nodup) {j x r o : Nat} (hx : ws[j]? = some x)
    (hr : r < 16) (ho : o < 16) : (loadWells k a ws).well x r o = k.w40 (a + 1280 * j + (r * 16 + o) * 5) := by
  induction ws generalizing k a j with
  | nil => cases hx
  | cons w ws ih =>
    obtain ⟨fresh, nodup⟩ := List.nodup_cons.mp nodup
    rw [loadWells_cons]
    cases j with
    | zero =>
      cases hx
      rw [loadWells_well_out _ _ fresh hr ho, Core.loadWell_well _ _ _ hr ho, if_pos rfl]
      rfl
    | succ j =>
      rw [ih _ _ nodup hx, Core.w40_loadWell, show a + 1280 + 1280 * j = a + 1280 * (j + 1) by omega]

theorem restore40_result {s : State} {c : Fin 10240} {q : QWord} {m : BitVec 24} {a : Nat} {rest : List QWord}
    (hw : q.w = .restore40 m a) (h : Starts s c 7 q rest) :
    let k := s.core c
    ∃ t : State, exec (.restore40 c) s = .next (t.pump c) ∧ (PumpsIdle s c → t.pump c = t) ∧
      (∀ j x r o, (wellsOf m.toNat)[j]? = some x → r < 16 → o < 16 →
        (t.core c).well x r o = k.w40 (a * 32 + 1280 * j + (r * 16 + o) * 5)) ∧
      (∀ y r o, m.getLsbD y = false → r < 16 → o < 16 → (t.core c).well y r o = k.well y r o) ∧
      (t.core c).store = k.store ∧ OnlyCore s t c := by
  intro k
  have effect : restore40Eff c (s.wordTaken c q rest) q =
      (s.wordTaken c q rest).setCore c (loadWells (k.wordTaken q rest) (a * 32) (wellsOf m.toNat)) := by
    unfold restore40Eff
    rw [hw]
    simp only [State.core_wordTaken]
    rfl
  refine ⟨_, State.coreWord_starts h rfl _, fun idle => idle.pump ?_, ?_⟩
  all_goals simp only [effect, State.core_setCore]
  · rw [loadWells_core]
    rfl
  · refine ⟨fun j x r o hx hr ho => ?_, fun y r o hy hr ho => ?_, ?_, (OnlyCore.wordTaken s c q rest).setCore⟩
    · exact loadWells_well _ _ (List.nodup_range.filter _) hx hr ho
    · refine loadWells_well_out _ _ (fun hm => ?_) hr ho
      have set := (List.mem_filter.mp hm).2
      simp_all [bit, BitVec.getLsbD, Nat.testBit_eq_decide_div_mod_eq]
    · rw [loadWells_core]
      rfl

end Sys2Proof.Machine
end

section
/-! SUPPORT. DRAIN: the rows it writes, and the wells it leaves (R108, R109, R112, R133). -/

namespace Sys2Proof.Machine

/-- Rows written at a stride that keeps them apart: each is read at its place. -/
theorem rdBytes_rows (m : Mem) (base st : Nat) {bytes : Nat → List Byte} {len : Nat} (length : ∀ r, (bytes r).length = len)
    (apart : len ≤ st) {n r : Nat} (hr : r < n) :
    rdBytes ((List.range n).foldl (fun m r => wrBytes m (base + r * st) (bytes r)) m) (base + r * st) len = bytes r := by
  induction n with
  | zero => cases hr
  | succ n ih =>
    rw [List.range_succ, List.foldl_append, List.foldl_cons, List.foldl_nil]
    rcases Nat.lt_succ_iff_lt_or_eq.mp hr with hr | rfl
    · have below : (r + 1) * st ≤ n * st := Nat.mul_le_mul_right st hr
      rw [Nat.succ_mul] at below
      rw [rdBytes_wrBytes_out _ _ _ _ _ (by omega), ih hr]
    · rw [← length r]
      exact rdBytes_wrBytes_self _ _ _

/-- The elements encoded without stochastic rounding, each with one rounding to nearest even. -/
theorem drainElems_outs (f : Fmt) (keep sat : Bool) (acc : DrainAcc) (l : List (Nat × Val)) :
    (drainElems f keep sat false acc l).outs =
      acc.outs ++ l.mapIdx fun i p => (drainEncode f keep .rne sat (acc.outs.length + i + 64 * p.1) p.2).1 := by
  induction l generalizing acc with
  | nil => simp [drainElems]
  | cons p l ih =>
    rcases p with ⟨lane, x⟩
    unfold drainElems
    simp only [ih, nextRnd, Bool.false_eq_true, if_false, List.mapIdx_cons, List.length_append, List.length_cons,
      List.length_nil, Nat.add_zero, List.append_assoc, List.cons_append, List.nil_append]
    simp only [Nat.add_assoc, Nat.add_comm 1]

theorem Val.scale_zero (x : Val) : x.scale 0 = x := by
  cases x with
  | fin n m e => simp [Val.scale]
  | inf n => rfl
  | nan => rfl

/-- A row of results without scale and stochastic rounding. -/
def drainedRow (k : Core) (compat sat : Bool) (w : W64) (r : Nat) : List Nat :=
  (List.range 16).map fun o => (drainEncode (outFmt (wf w 54 51)) (keepsNan w compat) .rne sat (65 * o)
    (drainVal k compat w (wf w 59 55) r o)).1

/-- A drain leaves all of its core but the store and the LFSR lanes; without scale and stochastic rounding it writes its
rows one after the other. -/
theorem drainEff_bits {c : Nat} {s : State} {q : QWord} {w : W64} (hw : q.w = .bits w) {k : Core} (hk : s.core c = k)
    {compat sat : Bool} (hc : (s.coreFld F.CORE_CFG.ELT_COMPAT c = 1 : Bool) = compat)
    (hs : (s.coreFld F.CORE_CFG.NARROW_SAT c = 1 : Bool) = sat) :
    ∃ mem lanes n, drainEff c s q = (s.setCore c { k with store := mem, lfsr := lanes }).addCoreCnt C.CORE_CNT_SAT c n ∧
      (wf w 49 48 = 0 → wf w 50 50 = 0 → mem = (List.range 16).foldl (fun m r =>
        wrBytes m (wf w 41 30 * 32 + r * (wf w 29 22 * 16)) (packFmt (outFmt (wf w 54 51)) (drainedRow k compat sat w r)))
          k.store) := by
  subst hk hc hs
  unfold drainEff
  rw [hw]
  refine ⟨_, _, _, rfl, fun plain rne => ?_⟩
  -- what one row writes does not depend on the rows before it
  have rows {β : Type} (one : Mem × β → Nat → Mem × β) (bytes : Nat → List Byte) (at_ : Nat → Nat)
      (step : ∀ a r, (one a r).1 = wrBytes a.1 (at_ r) (bytes r)) (l : List Nat) (a : Mem × β) :
      (l.foldl one a).1 = l.foldl (fun m r => wrBytes m (at_ r) (bytes r)) a.1 := by
    induction l generalizing a with
    | nil => rfl
    | cons r l ih => rw [List.foldl_cons, ih, step, List.foldl_cons]
  rw [if_neg (by omega)]
  refine rows _ _ _ (fun a r => ?_) _ _
  refine congrArg (fun l => wrBytes a.1 _ (packFmt _ l)) ?_
  simp only [plain, rne, Nat.zero_ne_one, decide_false, drainElems_outs, drainedRow]
  refine List.ext_getElem (by simp) fun i hi _ => ?_
  have small : i < 16 := by simpa using hi
  simp [List.getD_eq_getElem?_getD, small, Nat.mod_eq_of_lt small, Val.scale_zero]
  congr 2
  omega

/-- The formats of whole bytes. -/
theorem outFmt_width {n : Nat} (h : n < 4) : (outFmt n).width ≠ 4 ∧ 8 * ((outFmt n).width / 8) = (outFmt n).width := by
  have all : ∀ i : Fin 4, (outFmt i).width ≠ 4 ∧ 8 * ((outFmt i).width / 8) = (outFmt i).width := by decide
  exact all ⟨n, h⟩

theorem length_drainedRow (k : Core) (compat sat : Bool) (w : W64) (r : Nat) : (drainedRow k compat sat w r).length = 16 := by
  simp [drainedRow]

theorem drain_result {s : State} {c : Fin 10240} {q : QWord} {w : W64} {rest : List QWord} (hw : q.w = .bits w)
    (h : Starts s c 3 q rest) :
    let k := s.core c
    let compat : Bool := s.coreFld F.CORE_CFG.ELT_COMPAT c = 1
    let src := wf w 59 55
    let f := outFmt (wf w 54 51)
    let v (r o : Nat) : Val := drainVal k compat w src r o
    ∃ t : State, exec (.drain c) s = .next (t.pump c) ∧ (PumpsIdle s c → t.pump c = t) ∧
      (wf w 49 48 = 0 → wf w 50 50 = 0 → wf w 54 51 < 4 → 2 * f.width ≤ wf w 29 22 * 16 → ∀ r o, r < 16 → o < 16 →
        leNat (rdBytes (t.core c).store (wf w 41 30 * 32 + r * (wf w 29 22 * 16) + f.width / 8 * o) (f.width / 8)) =
          (drainEncode f (keepsNan w compat) .rne (s.coreFld F.CORE_CFG.NARROW_SAT c = 1) (65 * o) (v r o)).1 % 2 ^ f.width) ∧
      (wf w 47 44 = 0xF → wf w 43 42 = 0 → ∀ r o, v r o = ofW40 (k.well src r o)) ∧
      (t.core c).wells = k.wells ∧ OnlyCore s t c := by
  intro k compat src f v
  obtain ⟨mem, lanes, n, effect, plainly⟩ := drainEff_bits (s := s.wordTaken c q rest) hw (State.core_wordTaken s c q rest)
    (compat := compat) (sat := s.coreFld F.CORE_CFG.NARROW_SAT c = 1) rfl rfl
  refine ⟨_, State.coreWord_starts h rfl _, fun idle => idle.pump ?_, ?_⟩
  all_goals simp only [effect, State.core_addCoreCnt, State.core_setCore]
  · rfl
  · refine ⟨fun plain rne whole apart r o hr ho => ?_, fun same unbiased r o => ?_, rfl,
      (OnlyCore.wordTaken s c q rest).setCore.addCoreCnt⟩
    · obtain ⟨bytes, width⟩ := outFmt_width whole
      have row (i : Nat) : packFmt (outFmt (wf w 54 51))
          (drainedRow ((s.core c).wordTaken q rest) compat (s.coreFld F.CORE_CFG.NARROW_SAT c = 1) w i) =
          (drainedRow k compat (s.coreFld F.CORE_CFG.NARROW_SAT c = 1) w i).flatMap fun x => toLE (f.width / 8) x :=
        if_neg bytes
      have length (i : Nat) : ((drainedRow k compat (s.coreFld F.CORE_CFG.NARROW_SAT c = 1) w i).flatMap
          fun x => toLE (f.width / 8) x).length = 2 * f.width := by
        rw [flatMap_length_const fun x => toLE_length _ x, length_drainedRow]
        show f.width / 8 * 16 = 2 * f.width
        have : 8 * (f.width / 8) = f.width := width
        omega
      rw [plainly plain rne]
      simp only [row]
      have whole_row := rdBytes_rows ((s.core c).wordTaken q rest).store (wf w 41 30 * 32) (wf w 29 22 * 16) length apart hr
      have at_o : o < (drainedRow k compat (s.coreFld F.CORE_CFG.NARROW_SAT c = 1) w r).length := by
        rwa [length_drainedRow]
      have amount : f.width / 8 * (drainedRow k compat (s.coreFld F.CORE_CFG.NARROW_SAT c = 1) w r).length = 2 * f.width := by
        rw [← length r, flatMap_length_const fun x => toLE_length _ x]
      rw [← amount] at whole_row
      rw [rdBytes_flatMap_part (fun x => toLE_length (f.width / 8) x) whole_row at_o, leNat_toLE]
      simp only [drainedRow, List.getElem_map, List.getElem_range]
      rw [show 8 * (f.width / 8) = f.width from width]
    · simp [v, drainVal, same, unbiased]

/-- Settles O6: a drain, and the images of the wells of a mask, by their rules above. -/
theorem drainAndWellImages : Obligations.DrainAndWellImages :=
  ⟨fun _ _ _ _ _ hw h => drain_result hw h,
    fun _ _ _ _ _ _ => ⟨fun hw h => save40_result hw h, fun hw h => restore40_result hw h⟩⟩

end Sys2Proof.Machine
end

section
/-! SUPPORT. WAIT, YIELD and END words, and the wake of a waiting core (R104, R236, R261, R274, R425). -/

namespace Sys2Proof.Machine

/-! ## What the start of a word tells -/

theorem takeWord_kind {kind : Nat} {before l rest : List QWord} {q : QWord} (h : takeWord kind before l = some (q, rest)) :
    q.w.kind = kind := by
  induction l generalizing before with
  | nil => cases h
  | cons w l ih =>
    unfold takeWord at h
    split at h
    · next hk =>
      split at h
      · cases h
      · cases h
        exact hk
    · exact ih h

theorem Starts.kind {s : State} {c kind : Nat} {q : QWord} {rest : List QWord} (h : Starts s c kind q rest) :
    q.w.kind = kind :=
  takeWord_kind h.2.1

/-- A core that starts words neither waits nor saves. -/
theorem Starts.idle {s : State} {c kind : Nat} {q : QWord} {rest : List QWord} (h : Starts s c kind q rest) :
    (s.core c).waiting = none ∧ (s.core c).saving = none := by
  obtain ⟨runs, -⟩ := h
  simp only [State.coreRuns, Bool.and_eq_true, Option.isNone_iff_eq_none] at runs
  tauto

/-- A word of the sequencer writes no well. -/
theorem QWord.foot_ww {q : QWord} {w : W64} (hw : q.w = .bits w) (hk : 8 ≤ q.w.kind) : q.foot.ww = 0 := by
  have ww : q.foot.ww = q.w.foot.ww := by
    unfold QWord.foot
    split <;> rfl
  rw [ww, hw]
  rw [hw] at hk
  simp only [CoreWord.kind] at hk
  unfold CoreWord.foot
  dsimp only
  split <;> first | omega | rfl

@[simp] theorem Core.wordTaken_waiting (k : Core) (w : QWord) (rest : List QWord) : (k.wordTaken w rest).waiting = k.waiting := rfl
@[simp] theorem Core.wordTaken_saving (k : Core) (w : QWord) (rest : List QWord) : (k.wordTaken w rest).saving = k.saving := rfl

theorem Core.liveMask_wordTaken {k : Core} {q : QWord} {rest : List QWord} (h : q.foot.ww = 0) :
    (k.wordTaken q rest).liveMask = k.liveMask := by
  have written : (k.wordTaken q rest).written = k.written := by
    show Nat.lor k.written q.foot.ww = k.written
    rw [h]
    exact Nat.or_zero _
  unfold Core.liveMask
  rw [written]

/-- Whether a core is to yield depends on where it is placed alone. -/
theorem State.yieldPending_congr {s t : State} {c : Nat} (place : (t.core c).place = (s.core c).place) (cq : t.cq = s.cq)
    (sc : t.sc = s.sc) : t.yieldPending c = s.yieldPending c := by
  unfold State.yieldPending State.coreCtx State.cmd? State.ctx
  rw [place, cq, sc]

theorem State.yieldPending_wordTaken (s : State) (c : Nat) (q : QWord) (rest : List QWord) :
    (s.wordTaken c q rest).yieldPending c = s.yieldPending c :=
  State.yieldPending_congr (by simp) rfl rfl

theorem State.yieldPending_setCore {s : State} {c : Nat} {x : Core} (h : x.place = (s.core c).place) :
    (s.setCore c x).yieldPending c = s.yieldPending c :=
  State.yieldPending_congr (by rw [State.core_setCore, h]) rfl rfl

/-- A core under yield-pending is placed. -/
theorem State.placed_of_yieldPending {s : State} {c : Nat} (h : s.yieldPending c = true) :
    ∃ p, (s.core c).place = some p := by
  unfold State.yieldPending State.coreCtx at h
  split at h
  · next hc =>
    split at hc
    · next p hp => exact ⟨p, hp⟩
    · cases hc
  · cases h

/-- Pumps of a core that saves stand still. -/
theorem State.pump_saving {s : State} {c : Nat} {p : Place} {r : SavedCore} (hp : (s.core c).place = some p)
    (hr : (s.core c).saving = some r) : s.pump c = s := by
  unfold State.pump
  rw [hp, hr]

/-! ## A core that saves (R425) -/

/-- What is saved of a core: the wells of the mask, a range of its store, and the words still to run. -/
def State.saveRecord (s : State) (c : Nat) (p : Place) (point mask csAddr csLen : Nat) : SavedCore :=
  { q := p.q, seq := p.seq, cluster := c / 40, position := s.position c p, point := point, layer := p.layer, place := p
    mask := mask, wells := (s.core c).wells.filter (fun e => bit mask (e.1 / 256)), csAddr := csAddr, csLen := csLen
    bytes := (s.core c).store.filter (fun e => decide (csAddr * 32 ≤ e.1) && decide (e.1 < (csAddr + csLen) * 32))
    queue := (s.core c).queue ++ (s.core c).issue, waiting := (s.core c).waiting, tags := (s.core c).tags }

theorem State.yieldCore_placed {s : State} {c : Nat} {p : Place} (hp : (s.core c).place = some p)
    (point mask csAddr csLen : Nat) :
    s.yieldCore c point mask csAddr csLen =
      s.setCore c { s.core c with saving := some (s.saveRecord c p point mask csAddr csLen) } := by
  unfold State.yieldCore
  simp only [hp]
  rfl

/-! ## WAIT (R104, R236, R261) -/

section
variable {s : State} {c : Fin 10240} {q : QWord} {w : W64} {rest : List QWord}

/-- What a WAIT word waits for. -/
def State.waitOf (s : State) (w : W64) (q : QWord) : Waiting :=
  { counter := wf w 59 59 = 1, index := q.at_, target := wf w 46 23, since := s.tm.now }

theorem wait_met (hw : q.w = .bits w) (h : Starts s c 8 q rest) (met : s.waitMet (s.waitOf w q) = true) :
    ∃ t : State, exec (.wait c) s = .next (t.pump c) ∧ (PumpsIdle s c → t.pump c = t) ∧ (t.core c).waiting = none ∧
      (t.core c).store = (s.core c).store ∧ (t.core c).wells = (s.core c).wells ∧ OnlyCore s t c := by
  have effect : waitEff c (s.wordTaken c q rest) q = s.wordTaken c q rest := by
    unfold waitEff
    rw [hw]
    exact if_pos met
  refine ⟨_, State.coreWord_starts h rfl _, fun idle => idle.pump ?_, ?_⟩
  all_goals rw [effect, State.core_wordTaken]
  · rfl
  · exact ⟨h.idle.1, rfl, rfl, OnlyCore.wordTaken s c q rest⟩

theorem waitEff_unmet (hw : q.w = .bits w) (met : s.waitMet (s.waitOf w q) = false) :
    waitEff c s q = (s.setCore c { s.core c with waiting := some (s.waitOf w q) }).yieldAtWait c := by
  unfold waitEff
  rw [hw]
  exact if_neg (by rw [Bool.not_eq_true]; exact met)

theorem wait_unmet (hw : q.w = .bits w) (h : Starts s c 8 q rest) (met : s.waitMet (s.waitOf w q) = false)
    (stays : s.yieldPending c = false) :
    ∃ t : State, exec (.wait c) s = .next (t.pump c) ∧ (PumpsIdle s c → t.pump c = t) ∧
      (t.core c).waiting = some (s.waitOf w q) ∧ (t.core c).saving = none ∧ (t.core c).store = (s.core c).store ∧
      (t.core c).wells = (s.core c).wells ∧ OnlyCore s t c := by
  have effect : waitEff c (s.wordTaken c q rest) q =
      (s.wordTaken c q rest).setCore c { (s.core c).wordTaken q rest with waiting := some (s.waitOf w q) } := by
    rw [waitEff_unmet (s := s.wordTaken c q rest) hw met, State.core_wordTaken, State.yieldAtWait, if_neg]
    · rfl
    · rintro ⟨-, -, pending⟩
      rw [State.yieldPending_setCore (by rw [State.core_wordTaken]), State.yieldPending_wordTaken, stays] at pending
      cases pending
  refine ⟨_, State.coreWord_starts h rfl _, fun idle => idle.pump ?_, ?_⟩
  all_goals rw [effect, State.core_setCore]
  · rfl
  · exact ⟨rfl, h.idle.2, rfl, rfl, (OnlyCore.wordTaken s c q rest).setCore⟩

theorem wait_yields (hw : q.w = .bits w) (h : Starts s c 8 q rest) (met : s.waitMet (s.waitOf w q) = false)
    (yields : s.yieldPending c = true) :
    ∃ t r, exec (.wait c) s = .next t ∧ (t.core c).waiting = some (s.waitOf w q) ∧ (t.core c).saving = some r ∧ r.point = 1 ∧
      r.mask = (s.core c).liveMask ∧ r.csAddr = 0 ∧ r.csLen = 3072 ∧
      r.wells = (s.core c).wells.filter (fun e => bit r.mask (e.1 / 256)) ∧ OnlyCore s t c := by
  obtain ⟨p, hp⟩ := State.placed_of_yieldPending yields
  let k : Core := { (s.core c).wordTaken q rest with waiting := some (s.waitOf w q) }
  let u := (s.wordTaken c q rest).setCore c k
  have core : u.core c = k := State.core_setCore _ _ _
  have pending : u.yieldPending c = true := by
    rw [State.yieldPending_setCore (by rw [State.core_wordTaken]), State.yieldPending_wordTaken, yields]
  have mask : (u.core c).liveMask = (s.core c).liveMask := by
    rw [core]
    exact Core.liveMask_wordTaken (QWord.foot_ww hw (by rw [h.kind]))
  have effect : waitEff c (s.wordTaken c q rest) q =
      u.setCore c { u.core c with saving := some (u.saveRecord c p 1 (u.core c).liveMask 0 3072) } := by
    rw [waitEff_unmet (s := s.wordTaken c q rest) hw met, State.core_wordTaken]
    show u.yieldAtWait c = _
    rw [State.yieldAtWait, if_pos ⟨by rw [core]; rfl, by rw [core]; simp [k, h.idle.2], pending⟩,
      State.yieldCore_placed (by rw [core]; exact hp)]
  have ran : exec (.wait c) s = .next (waitEff c (s.wordTaken c q rest) q) := by
    rw [← State.pump_saving (s := waitEff c (s.wordTaken c q rest) q) (c := c) (p := p) (by rw [effect, State.core_setCore, core]; exact hp)
      (by rw [effect, State.core_setCore])]
    exact State.coreWord_starts h rfl _
  refine ⟨_, _, ran, ?_, by rw [effect, State.core_setCore], rfl, mask, rfl, rfl, ?_, ?_⟩
  · rw [effect, State.core_setCore, core]
  · show (u.core c).wells.filter _ = _
    rw [core]
    rfl
  · rw [effect]
    exact (OnlyCore.wordTaken s c q rest).setCore.setCore

/-! ## YIELD and END (R425) -/

theorem yield_passes (hw : q.w = .bits w) (h : Starts s c 14 q rest) (stays : s.yieldPending c = false) :
    ∃ t : State, exec (.yieldMark c) s = .next (t.pump c) ∧ (PumpsIdle s c → t.pump c = t) ∧ (t.core c).saving = none ∧
      (t.core c).wells = (s.core c).wells ∧ (t.core c).store = (s.core c).store ∧ OnlyCore s t c := by
  have effect : yieldEff c (s.wordTaken c q rest) q = s.wordTaken c q rest := by
    unfold yieldEff
    rw [hw]
    exact if_neg (by rw [State.yieldPending_wordTaken, stays]; decide)
  refine ⟨_, State.coreWord_starts h rfl _, fun idle => idle.pump ?_, ?_⟩
  all_goals rw [effect, State.core_wordTaken]
  · rfl
  · exact ⟨h.idle.2, rfl, rfl, OnlyCore.wordTaken s c q rest⟩

theorem yield_saves (hw : q.w = .bits w) (h : Starts s c 14 q rest) (yields : s.yieldPending c = true) :
    ∃ t r, exec (.yieldMark c) s = .next t ∧ (t.core c).saving = some r ∧ r.point = 0 ∧ r.mask = wf w 59 36 ∧
      r.csAddr = wf w 35 24 ∧ r.csLen = wf w 23 12 ∧
      r.wells = (s.core c).wells.filter (fun e => bit r.mask (e.1 / 256)) ∧
      r.bytes = (s.core c).store.filter
        (fun e => decide (wf w 35 24 * 32 ≤ e.1) && decide (e.1 < (wf w 35 24 + wf w 23 12) * 32)) ∧ OnlyCore s t c := by
  obtain ⟨p, hp⟩ := State.placed_of_yieldPending yields
  have placed : ((s.wordTaken c q rest).core c).place = some p := by rw [State.core_wordTaken]; exact hp
  have effect : yieldEff c (s.wordTaken c q rest) q = (s.wordTaken c q rest).setCore c { (s.core c).wordTaken q rest with
      saving := some ((s.wordTaken c q rest).saveRecord c p 0 (wf w 59 36) (wf w 35 24) (wf w 23 12)) } := by
    unfold yieldEff
    rw [hw]
    simp only [State.yieldPending_wordTaken, yields, if_true, State.yieldCore_placed placed, State.core_wordTaken]
  have ran : exec (.yieldMark c) s = .next (yieldEff c (s.wordTaken c q rest) q) := by
    rw [← State.pump_saving (s := yieldEff c (s.wordTaken c q rest) q) (c := c) (p := p) (by rw [effect, State.core_setCore]; exact hp)
      (by rw [effect, State.core_setCore])]
    exact State.coreWord_starts h rfl _
  refine ⟨_, _, ran, by rw [effect, State.core_setCore], rfl, rfl, rfl, rfl, ?_, ?_, ?_⟩
  · simp [State.saveRecord]
  · simp [State.saveRecord]
  · rw [effect]
    exact (OnlyCore.wordTaken s c q rest).setCore

theorem end_ends (h : Starts s c 15 q rest) :
    ∃ t : State, exec (.endWord c) s = .next (t.pump c) ∧ (PumpsIdle s c → t.pump c = t) ∧ (t.core c).ended = true ∧
      (t.core c).wells = (s.core c).wells ∧ (t.core c).store = (s.core c).store ∧ OnlyCore s t c := by
  refine ⟨_, State.coreWord_starts h rfl _, fun idle => idle.pump ?_, ?_⟩
  all_goals simp only [endEff, State.core_setCore, State.core_wordTaken]
  · rfl
  · exact ⟨trivial, rfl, rfl, (OnlyCore.wordTaken s c q rest).setCore⟩

/-! ## The wake (R236) -/

theorem waitWake_wakes {x : Waiting} (waits : (s.core c).waiting = some x) (met : s.waitMet x = true)
    (rests : (s.core c).saving = none) (runs : s.runs (c / 40) = true) :
    ∃ t : State, exec (.waitWake c) s = .next (t.pump c) ∧ (PumpsIdle s c → t.pump c = t) ∧ (t.core c).waiting = none ∧
      t.rg = s.rg ∧ (t.core c).store = (s.core c).store ∧ (t.core c).wells = (s.core c).wells ∧ OnlyCore s t c := by
  have woken : s.waitWake c = s.setCore c { s.core c with waiting := none } := by
    simp [State.waitWake, waits, met, rests, runs]
  refine ⟨s.waitWake c, rfl, fun idle => idle.pump ?_, ?_⟩
  all_goals rw [woken, State.core_setCore]
  exact ⟨rfl, rfl, rfl, rfl, (OnlyCore.refl s c).setCore⟩
end

/-- Settles O7: WAIT met, unmet and unmet under yield-pending, YIELD with and without it, END, and the wake. -/
theorem sequencerWords : Obligations.SequencerWords := by
  intro s c q w rest hw x
  exact ⟨wait_met hw, wait_unmet hw, wait_yields hw, yield_passes hw, yield_saves hw, end_ends, waitWake_wakes⟩

end Sys2Proof.Machine
end

section
/-! SUPPORT. MOVE READ and MOVE WRITE of a ring neighbour or the cluster, and the atomic operations of the shared cache
(R122, R146, R233, R272, R287, R293). -/

namespace Sys2Proof.Machine

/-! ## MOVE READ and MOVE WRITE (R122, R146, R233, R287) -/

theorem neighbour_ne (c : Nat) (target : Nat) : neighbour c target ≠ c := by
  unfold neighbour
  split <;> omega

theorem rdBytes_getD (m : Mem) (a : Nat) {n i : Nat} (hi : i < n) : (rdBytes m a n).getD i 0 = rdByte m (a + i) := by
  induction n generalizing a i with
  | zero => omega
  | succ n ih =>
    cases i with
    | zero => rfl
    | succ i =>
      rw [rdBytes, List.getD_cons_succ, ih (a + 1) (by omega)]
      congr 1
      omega

/-- A read of as many bytes as were written answers them one by one. -/
theorem rdByte_wrBytes_rdBytes {m m' : Mem} {a b n i : Nat} (hi : i < n) :
    rdByte (wrBytes m a (rdBytes m' b n)) (a + i) = rdByte m' (b + i) := by
  rw [rdByte_wrBytes, if_pos ⟨Nat.le_add_right .., by rw [rdBytes_length]; omega⟩, Nat.add_sub_cancel_left,
    rdBytes_getD _ _ hi]

/-- The state after the advance of a write is sent, where it has one. -/
def State.advanced (s : State) (c : Nat) (q : QWord) (w : W64) : State :=
  if wf w 10 10 = 1 then s.sendAdvance c q else s

section
variable {s : State} {c : Fin 10240} {q : QWord} {w : W64} {rest : List QWord}

theorem State.advanced_eq : s.advanced c q w = { s with tl.traffic := (s.advanced c q w).tl.traffic } := by
  unfold State.advanced State.sendAdvance
  split
  · split <;> rfl
  · rfl

theorem State.advanced_traffic {p : Place} (adv : wf w 10 10 = 1) (hp : (s.core c).place = some p) :
    (s.advanced c q w).tl.traffic = s.tl.traffic ++
      [{ q := p.q, seq := p.seq, cl := c.val / 40, counter := p.counter, job := p.job
         item := p.item.getD 0 % ((s.counter p.counter).items + 1), gen := p.gen, gauge := some (q.at_, q.gval) }] := by
  unfold State.advanced State.sendAdvance
  rw [if_pos adv, hp]

/-- Pumps that owe the item nothing have no row to store before an advance. -/
theorem PumpsIdle.storeBefore {n step : Nat} (h : PumpsIdle s n) : s.storeBefore n step = s := by
  unfold State.storeBefore
  split
  · next p _ hp =>
    obtain ⟨-, outs⟩ := h p hp
    rw [outs]
    rfl
  · rfl

theorem PumpsIdle.wordTaken (h : PumpsIdle s c) : PumpsIdle (s.wordTaken c q rest) c := by
  unfold PumpsIdle
  rw [State.core_wordTaken]
  exact h

/-- What the target of a move holds before it. -/
def State.farStore (s : State) (c : Nat) (w : W64) : Mem :=
  if wf w 57 56 = 2 then (s.cluster (c / 40)).store else (s.core (neighbour c (wf w 57 56))).store

/-- Where in the target the units of a move lie. -/
def moveRemote (w : W64) : Nat := if wf w 57 56 = 2 then wf w 43 28 * 32 else wf w 39 28 * 32

theorem State.core_wordTaken_ne {k : Nat} (h : k ≠ c) : (s.wordTaken c q rest).core k = s.core k :=
  State.core_setCore_ne s c k _ h

theorem State.farStore_wordTaken : (s.wordTaken c q rest).farStore c w = s.farStore c w := by
  unfold State.farStore
  split
  · rfl
  · exact congrArg Core.store (State.core_setCore_ne s c _ _ (neighbour_ne c _))

/-- A move into the core: the units of its target enter its store. -/
theorem moveReadEff_eq (hw : q.w = .bits w) : ∃ n, moveReadEff c s q = (s.setCore c { s.core c with
    store := wrBytes (s.core c).store (wf w 55 44 * 32) (rdBytes (s.farStore c w) (moveRemote w) (64 * wf w 27 16)) }).addSlot
      0x11 (c / 40) n (64 * wf w 27 16) := by
  unfold moveReadEff State.farStore moveRemote
  rw [hw]
  dsimp only
  split
  · exact ⟨2, rfl⟩
  · exact ⟨0, rfl⟩

theorem move_reads (hw : q.w = .bits w) (h : Starts s c 5 q rest) (hr : wf w 59 58 = 0) :
    ∃ t : State, exec (.moveRead c) s = .next (t.pump c) ∧ (PumpsIdle s c → t.pump c = t) ∧
      (∀ i, i < 64 * wf w 27 16 →
        rdByte (t.core c).store (wf w 55 44 * 32 + i) = rdByte (s.farStore c w) (moveRemote w + i)) ∧
      (∀ y, y < wf w 55 44 * 32 ∨ wf w 55 44 * 32 + 64 * wf w 27 16 ≤ y →
        rdByte (t.core c).store y = rdByte (s.core c).store y) ∧
      (t.core c).wells = (s.core c).wells ∧ OnlyCore s t c := by
  obtain ⟨n, effect⟩ := moveReadEff_eq (s := s.wordTaken c q rest) (c := c) hw
  rw [State.farStore_wordTaken] at effect
  refine ⟨_, State.coreWord_starts h (by simp [isMove, hw, hr]) _, fun idle => idle.pump ?_, ?_⟩
  all_goals rw [effect, State.core_addSlot, State.core_setCore, State.core_wordTaken]
  · rfl
  · exact ⟨fun i hi => rdByte_wrBytes_rdBytes hi, fun y hy => rdByte_wrBytes_out (by rw [rdBytes_length]; exact hy), rfl,
      (OnlyCore.wordTaken s c q rest).setCore.addSlot⟩

/-- The bytes that a write moves. -/
def State.moved (s : State) (c : Nat) (w : W64) : List Byte :=
  rdBytes (s.core c).store (wf w 55 44 * 32) (64 * wf w 27 16)

theorem moveWriteEff_cluster (hw : q.w = .bits w) (far : wf w 57 56 = 2) :
    moveWriteEff c s q = ((s.advanced c q w).setCluster (c / 40) { s.cluster (c / 40) with
      store := wrBytes (s.cluster (c / 40)).store (wf w 43 28 * 32) (s.moved c w) }).addSlot
        0x11 (c / 40) 3 (64 * wf w 27 16) := by
  have cluster : (s.advanced c q w).cluster (c / 40) = s.cluster (c / 40) := by rw [State.advanced_eq]; rfl
  rw [← cluster]
  unfold moveWriteEff
  rw [hw]
  dsimp only
  rw [if_pos far]
  rfl

theorem moveWriteEff_neighbour (hw : q.w = .bits w) (far : wf w 57 56 ≠ 2) :
    moveWriteEff c s q = ((s.advanced c q w).setCore (neighbour c (wf w 57 56)) { s.core (neighbour c (wf w 57 56)) with
      store := wrBytes (s.core (neighbour c (wf w 57 56))).store (wf w 39 28 * 32) (s.moved c w)
      tags := if wf w 11 11 = 1 then Nat.lor (s.core (neighbour c (wf w 57 56))).tags (2 ^ wf w 15 12)
        else (s.core (neighbour c (wf w 57 56))).tags }).addSlot 0x11 (c / 40) 1 (64 * wf w 27 16) := by
  have core : (s.advanced c q w).core (neighbour c (wf w 57 56)) = s.core (neighbour c (wf w 57 56)) := by
    rw [State.advanced_eq]; rfl
  rw [← core]
  unfold moveWriteEff
  rw [hw]
  dsimp only
  rw [if_neg far]
  rfl

theorem State.moved_wordTaken : (s.wordTaken c q rest).moved c w = s.moved c w := by
  unfold State.moved
  rw [State.core_wordTaken]
  rfl

theorem State.advanced_wordTaken {t : State} (ht : t = (s.wordTaken c q rest).advanced c q w) :
    (wf w 10 10 = 0 → t.tl.traffic = s.tl.traffic) ∧
    (∀ p, wf w 10 10 = 1 → (s.core c).place = some p → t.tl.traffic = s.tl.traffic ++
      [{ q := p.q, seq := p.seq, cl := c.val / 40, counter := p.counter, job := p.job
         item := p.item.getD 0 % ((s.counter p.counter).items + 1), gen := p.gen, gauge := some (q.at_, q.gval) }]) := by
  subst ht
  constructor
  · intro none
    unfold State.advanced
    rw [if_neg (by omega)]
    rfl
  · intro p adv hp
    exact State.advanced_traffic adv (by rw [State.core_wordTaken]; exact hp)

/-- A MOVE WRITE that owes no row before it leaves: its effect is the write's alone. -/
theorem moveOutEff_eq (hw : q.w = .bits w) (h : wf w 10 10 = 0 ∨ PumpsIdle s c) : moveOutEff c s q = moveWriteEff c s q := by
  unfold moveOutEff
  split
  · next adv =>
    obtain none | idle := h
    · simp [CoreWord.advances, hw, none] at adv
    · rw [idle.storeBefore]
  · rfl

theorem move_writes (hw : q.w = .bits w) (h : Starts s c 5 q rest) (hr : wf w 59 58 = 1)
    (owes : wf w 10 10 = 0 ∨ PumpsIdle s c) :
    ∃ t : State, exec (.moveWrite c) s = .next (t.pump c) ∧ (PumpsIdle s c → t.pump c = t) ∧
      (∀ i, i < 64 * wf w 27 16 →
        rdByte (t.farStore c w) (moveRemote w + i) = rdByte (s.core c).store (wf w 55 44 * 32 + i)) ∧
      (∀ y, y < moveRemote w ∨ moveRemote w + 64 * wf w 27 16 ≤ y → rdByte (t.farStore c w) y = rdByte (s.farStore c w) y) ∧
      (t.core c).store = (s.core c).store ∧ (t.core c).wells = (s.core c).wells ∧
      (∀ k, k ≠ c.val → k ≠ neighbour c (wf w 57 56) ∨ wf w 57 56 = 2 → t.core k = s.core k) ∧
      (wf w 57 56 < 2 → t.tl.clusters = s.tl.clusters ∧ t.core (neighbour c (wf w 57 56)) =
        { s.core (neighbour c (wf w 57 56)) with
          store := (t.core (neighbour c (wf w 57 56))).store
          tags := if wf w 11 11 = 1 then Nat.lor (s.core (neighbour c (wf w 57 56))).tags (2 ^ wf w 15 12)
            else (s.core (neighbour c (wf w 57 56))).tags }) ∧
      (wf w 57 56 = 2 → (∀ d, d ≠ c.val / 40 → t.cluster d = s.cluster d) ∧
        t.cluster (c.val / 40) = { s.cluster (c.val / 40) with store := (t.cluster (c.val / 40)).store }) ∧
      (wf w 10 10 = 0 → t.tl.traffic = s.tl.traffic) ∧
      (∀ p, wf w 10 10 = 1 → (s.core c).place = some p → t.tl.traffic = s.tl.traffic ++
        [{ q := p.q, seq := p.seq, cl := c.val / 40, counter := p.counter, job := p.job
           item := p.item.getD 0 % ((s.counter p.counter).items + 1), gen := p.gen, gauge := some (q.at_, q.gval) }]) ∧
      t = { s with
        rg := { s.rg with cnts := t.rg.cnts, slots := t.rg.slots }
        tl := { s.tl with cores := t.tl.cores, clusters := t.tl.clusters, traffic := t.tl.traffic } } := by
  have starts := State.coreWord_starts h (sel := isMove 1) (by simp [isMove, hw, hr]) (moveOutEff c)
  rw [moveOutEff_eq hw (owes.imp_right PumpsIdle.wordTaken)] at starts
  generalize hu : (s.wordTaken c q rest).advanced c q w = u
  obtain ⟨quiet, sends⟩ := State.advanced_wordTaken hu.symm
  have same : u = { s.wordTaken c q rest with tl.traffic := u.tl.traffic } := by rw [← hu]; exact State.advanced_eq
  have own : u.core c = (s.core c).wordTaken q rest := by rw [same]; exact State.core_wordTaken s c q rest
  have others : ∀ k, k ≠ c.val → u.core k = s.core k := by
    intro k hk
    rw [same]
    exact State.core_setCore_ne s c k _ hk
  have frame : u = { s with
      rg := { s.rg with cnts := u.rg.cnts, slots := u.rg.slots }
      tl := { s.tl with cores := u.tl.cores, traffic := u.tl.traffic } } := by rw [same]; rfl
  have nb := neighbour_ne c (wf w 57 56)
  obtain far | far := eq_or_ne (wf w 57 56) 2
  · rw [moveWriteEff_cluster hw far, hu, State.moved_wordTaken] at starts
    generalize ht : (u.setCluster (c / 40) _).addSlot 0x11 (c / 40) 3 (64 * wf w 27 16) = t at starts
    have cores : ∀ k, t.core k = u.core k := fun k => by rw [← ht]; rfl
    have stored : t.cluster (c.val / 40) = { s.cluster (c.val / 40) with
        store := wrBytes (s.cluster (c / 40)).store (wf w 43 28 * 32) (s.moved c w) } := by
      rw [← ht]
      exact State.cluster_setCluster u _ _
    have remote : moveRemote w = wf w 43 28 * 32 := if_pos far
    have there : t.farStore c w = wrBytes (s.farStore c w) (moveRemote w) (s.moved c w) := by
      rw [State.farStore, State.farStore, if_pos far, if_pos far, stored, remote]
    refine ⟨t, starts, fun idle => idle.pump (by rw [cores, own]; rfl), fun i hi => ?_, fun y hy => ?_, by rw [cores, own]; rfl,
      by rw [cores, own]; rfl, fun k hk _ => (cores k).trans (others k hk), fun near => absurd far (by omega),
      fun _ => ⟨fun d hd => ?_, by rw [stored]⟩, fun none => ?_, fun p adv hp => ?_, ?_⟩
    · rw [there]
      exact rdByte_wrBytes_rdBytes hi
    · rw [there]
      exact rdByte_wrBytes_out (by rw [State.moved, rdBytes_length]; exact hy)
    · rw [← ht]
      exact (State.cluster_setCluster_ne u _ d _ hd).trans (by rw [same]; rfl)
    · rw [← ht]
      exact quiet none
    · rw [← ht]
      exact sends p adv hp
    · rw [← ht, frame]
      rfl
  · rw [moveWriteEff_neighbour hw far, hu, State.moved_wordTaken] at starts
    generalize ht : (u.setCore (neighbour c (wf w 57 56)) _).addSlot 0x11 (c / 40) 1 (64 * wf w 27 16) = t at starts
    rw [State.core_wordTaken_ne nb] at ht
    have stored := State.core_setCore u (neighbour c (wf w 57 56)) { s.core (neighbour c (wf w 57 56)) with
      store := wrBytes (s.core (neighbour c (wf w 57 56))).store (wf w 39 28 * 32) (s.moved c w)
      tags := if wf w 11 11 = 1 then Nat.lor (s.core (neighbour c (wf w 57 56))).tags (2 ^ wf w 15 12)
        else (s.core (neighbour c (wf w 57 56))).tags }
    have mine : t.core c = (s.core c).wordTaken q rest := by
      rw [← own, ← ht]
      exact State.core_setCore_ne u _ c _ nb.symm
    have remote : moveRemote w = wf w 39 28 * 32 := if_neg far
    have there : t.farStore c w = wrBytes (s.farStore c w) (moveRemote w) (s.moved c w) := by
      rw [State.farStore, State.farStore, if_neg far, if_neg far, remote, ← ht]
      exact congrArg Core.store stored
    refine ⟨t, starts, fun idle => idle.pump (by rw [mine]; rfl), fun i hi => ?_, fun y hy => ?_, by rw [mine]; rfl,
      by rw [mine]; rfl, fun k hk apart => ?_, fun _ => ⟨?_, ?_⟩, fun here => absurd here far, fun none => ?_,
      fun p adv hp => ?_, ?_⟩
    · rw [there]
      exact rdByte_wrBytes_rdBytes hi
    · rw [there]
      exact rdByte_wrBytes_out (by rw [State.moved, rdBytes_length]; exact hy)
    · rw [← ht]
      exact (State.core_setCore_ne u _ k _ (apart.resolve_right far)).trans (others k hk)
    · rw [← ht, frame]
      rfl
    · rw [← ht, State.core_addSlot, stored]
    · rw [← ht]
      exact quiet none
    · rw [← ht]
      exact sends p adv hp
    · rw [← ht, frame]
      rfl
end

/-- Settles O8: a read copies the target's units into the core's store, a write copies them out, sets the tag it names and
sends its advance. -/
theorem neighbourMoves : Obligations.NeighbourMoves := by
  intro s c q w rest hw h near
  exact ⟨move_reads hw h, fun hr _ => ⟨_, State.coreWord_starts h (by simp [isMove, hw, hr]) _⟩, move_writes hw h⟩

end Sys2Proof.Machine
end

section
/-! SUPPORT. The atomic operations of the shared cache (R272, R293). -/

namespace Sys2Proof.Machine

section
variable {s : State} {c : Fin 10240} {q : QWord} {w : W64} {rest : List QWord}

theorem exec_atomic (aop : Fin 9) (c : Fin 10240) (s : State) :
    exec (atomicCommand aop c) s = s.coreWord c 5 (isAtomic aop) (atomicEff c) := by
  match aop with
  | 0 | 1 | 2 | 3 | 4 | 5 | 6 | 7 | 8 => rfl

theorem State.coreFenced_wordTaken : (s.wordTaken c q rest).coreFenced c = s.coreFenced c := by
  unfold State.coreFenced
  rw [State.core_wordTaken]
  rfl

/-- Where in the shared cache the element of an atomic lies. -/
def atomicAt (q : QWord) (w : W64) : Nat := q.at_ + atomicSize (wf w 19 16) * wf w 43 28

/-- The value that an atomic leaves. -/
def State.atomicNew (s : State) (c : Nat) (q : QWord) (w : W64) : Nat :=
  atomicVal (wf w 19 16) (leNat (rdBytes s.mm.shared (atomicAt q w) (atomicSize (wf w 19 16))))
    (leNat (rdBytes (s.core c).store (wf w 55 44 * 32) (atomicSize (wf w 19 16))))
    (leNat (rdBytes (s.core c).store (wf w 55 44 * 32 + atomicSize (wf w 19 16)) (atomicSize (wf w 19 16))))

/-- The state after an atomic: `new` in the `n` bytes of the shared cache at `a`, what stood there in the core's store at
`loc`. -/
def State.atomicDone (s : State) (c loc a n new : Nat) : State :=
  let old := leNat (rdBytes s.mm.shared a n)
  let store := wrBytes (s.core c).store loc (toLE n old)
  let u : State := { s with mm.shared := wrBytes s.mm.shared a (toLE n new) }
  (((u.setCore c { s.core c with store := store }).addCnt C.PDIE_CNT_ATOMICS 1 (sliceOf a)).addSlot 0x20 (sliceOf a) 0
    n).addSlot 0x20 (sliceOf a) 1 n

section
variable (s : State) (c loc a n new : Nat)

theorem State.atomicDone_core : (s.atomicDone c loc a n new).core c = { s.core c with
    store := wrBytes (s.core c).store loc (toLE n (leNat (rdBytes s.mm.shared a n))) } :=
  State.core_setCore _ _ _

theorem State.atomicDone_core_ne {k : Nat} (h : k ≠ c) : (s.atomicDone c loc a n new).core k = s.core k :=
  State.core_setCore_ne _ _ _ _ h

theorem State.atomicDone_frame : s.atomicDone c loc a n new = { s with
    rg := { s.rg with cnts := (s.atomicDone c loc a n new).rg.cnts, slots := (s.atomicDone c loc a n new).rg.slots }
    tl := { s.tl with cores := (s.atomicDone c loc a n new).tl.cores }
    mm := { s.mm with shared := (s.atomicDone c loc a n new).mm.shared } } := rfl
end

theorem atomicEff_passed (hw : q.w = .bits w) (passes : s.coreFenced c = false) : atomicEff c s q =
    s.atomicDone c (wf w 55 44 * 32) (atomicAt q w) (atomicSize (wf w 19 16)) (s.atomicNew c q w) := by
  unfold atomicEff
  rw [hw]
  dsimp only
  rw [passes]
  rfl

theorem atomicEff_fenced (hw : q.w = .bits w) (fenced : s.coreFenced c = true) :
    atomicEff c s q = s.discardFenced (sliceOf (atomicAt q w)) (some (c / 40)) := by
  unfold atomicEff
  rw [hw]
  exact if_pos fenced

theorem atomic_passes {aop : Fin 9} (hw : q.w = .bits w) (h : Starts s c 5 q rest) (kind : wf w 59 58 = 2)
    (hop : wf w 19 16 = aop.val) (passes : s.coreFenced c = false) :
    ∃ t : State, exec (atomicCommand aop c) s = .next (t.pump c) ∧ (PumpsIdle s c → t.pump c = t) ∧
      leNat (rdBytes t.mm.shared (atomicAt q w) (atomicSize aop)) = s.atomicNew c q w % 2 ^ (8 * atomicSize aop) ∧
      (∀ y, y < atomicAt q w ∨ atomicAt q w + atomicSize aop ≤ y → rdByte t.mm.shared y = rdByte s.mm.shared y) ∧
      leNat (rdBytes (t.core c).store (wf w 55 44 * 32) (atomicSize aop)) =
        leNat (rdBytes s.mm.shared (atomicAt q w) (atomicSize aop)) ∧
      (∀ y, y < wf w 55 44 * 32 ∨ wf w 55 44 * 32 + atomicSize aop ≤ y →
        rdByte (t.core c).store y = rdByte (s.core c).store y) ∧
      (t.core c).wells = (s.core c).wells ∧ (∀ k, k ≠ c.val → t.core k = s.core k) ∧
      t = { s with
        rg := { s.rg with cnts := t.rg.cnts, slots := t.rg.slots }
        tl := { s.tl with cores := t.tl.cores }, mm := { s.mm with shared := t.mm.shared } } := by
  have ran := exec_atomic aop c s
  rw [State.coreWord_starts h (by simp [isAtomic, hw, kind, hop]),
    atomicEff_passed hw (State.coreFenced_wordTaken.trans passes)] at ran
  have new : (s.wordTaken c q rest).atomicNew c q w = s.atomicNew c q w := by
    unfold State.atomicNew
    rw [State.core_wordTaken]
    rfl
  rw [new, hop] at ran
  generalize ht : (s.wordTaken c q rest).atomicDone c (wf w 55 44 * 32) (atomicAt q w) (atomicSize aop) (s.atomicNew c q w) = t
    at ran
  have core : t.core c = { (s.core c).wordTaken q rest with
      store := wrBytes (s.core c).store (wf w 55 44 * 32)
        (toLE (atomicSize aop) (leNat (rdBytes s.mm.shared (atomicAt q w) (atomicSize aop)))) } := by
    rw [← ht, State.atomicDone_core, State.core_wordTaken]
    rfl
  have shared : t.mm.shared = wrBytes s.mm.shared (atomicAt q w) (toLE (atomicSize aop) (s.atomicNew c q w)) := by
    rw [← ht]
    rfl
  refine ⟨t, ran, fun idle => idle.pump (by rw [core]; rfl), ?_, fun y hy => ?_, ?_, fun y hy => ?_, ?_, fun k hk => ?_, ?_⟩
  · rw [shared]
    exact leNat_wrBytes _ _ _ _
  · rw [shared]
    exact rdByte_wrBytes_out (by rw [toLE_length]; exact hy)
  · rw [core, leNat_wrBytes]
    exact Nat.mod_eq_of_lt ((leNat_lt _).trans_eq (by rw [rdBytes_length]))
  · rw [core]
    exact rdByte_wrBytes_out (by rw [toLE_length]; exact hy)
  · rw [core]
    rfl
  · rw [← ht, State.atomicDone_core_ne _ _ _ _ _ _ hk]
    exact State.core_wordTaken_ne hk
  · rw [← ht, State.atomicDone_frame]
    rfl

/-- Counters at different offsets of a page are different counters, whatever the page. -/
theorem cntKey_ne {c d : Cnt} (h : d.off % 4096 ≠ c.off % 4096) (i b j k : Nat) : cntKey d j k ≠ cntKey c i b := by
  unfold cntKey
  omega

/-- A word that is taken counts on SEQ_CNT_WORDS alone. -/
theorem State.cnt_wordTaken {k : Cnt} (h : k.off % 4096 ≠ C.SEQ_CNT_WORDS.off % 4096) (i : Nat) :
    (s.wordTaken c q rest).cnt k i = s.cnt k i :=
  State.cnt_addCnt_ne _ _ _ _ _ _ _ _ (cntKey_ne h _ _ _ _)

/-- An atomic of a core on a fenced item is discarded, counted and logged grey (R272). -/
theorem atomic_fenced {aop : Fin 9} (hw : q.w = .bits w) (h : Starts s c 5 q rest) (kind : wf w 59 58 = 2)
    (hop : wf w 19 16 = aop.val) (fenced : s.coreFenced c = true) :
    ∃ t : State, exec (atomicCommand aop c) s = .next (t.pump c) ∧ t.mm = s.mm ∧ (t.core c).store = (s.core c).store ∧
      t.cnt C.PDIE_CNT_FENCED (sliceOf (atomicAt q w)) = (s.cnt C.PDIE_CNT_FENCED (sliceOf (atomicAt q w)) + 1) % 2 ^ 64 ∧
      Raised s t 0x2003 0 (sliceOf (atomicAt q w)) ∧ t.fld F.SEQ_STATUS.FENCED (c / 40) = 1 ∧
      ∀ k, k ≠ c.val → t.core k = s.core k := by
  have ran := exec_atomic aop c s
  rw [State.coreWord_starts h (by simp [isAtomic, hw, kind, hop]),
    atomicEff_fenced hw (State.coreFenced_wordTaken.trans fenced)] at ran
  refine ⟨_, ran, rfl, ?_, ?_, State.raise_raised _ _ _ _ _ _ _ _ _, ?_, fun k hk => State.core_wordTaken_ne hk⟩
  · show ((s.wordTaken c q rest).core c).store = _
    rw [State.core_wordTaken]
    rfl
  · simp only [State.discardFenced, State.cnt_setFld, State.cnt_raise, State.cnt_addCnt]
    rw [State.cnt_wordTaken (by decide)]
  · exact State.fld_setFld _ _ _ _ _
end

/-- Settles O9: an atomic not fenced puts the new value in the shared cache and the old one in the core's store; a fenced
one is discarded. -/
theorem atomics : Obligations.Atomics := by
  intro s c aop q w rest hw h kind hop
  have passes := atomic_passes hw h kind hop
  have drops := atomic_fenced hw h kind hop
  unfold State.atomicNew at passes
  unfold atomicAt at passes drops
  rw [hop] at passes drops
  exact ⟨passes, drops⟩

end Sys2Proof.Machine
end

section
/-! SUPPORT. Packets of the host link that are served at once, and the host's writes and reads of device memory
(R348, R349, R352, R353). -/

namespace Sys2Proof.Machine

/-! ## What is sent -/

theorem State.emit_hl (s : State) (o : Out) : (s.emit o).hl = { s.hl with out := s.hl.out ++ [o] } := by
  rw [State.emit_frame]

@[simp] theorem State.emit_filter (s : State) (o : Out) : (s.emit o).hl.filter = s.hl.filter := by rw [State.emit_hl]
@[simp] theorem State.emit_recalls (s : State) (o : Out) : (s.emit o).hl.recalls = s.hl.recalls := by rw [State.emit_hl]
@[simp] theorem State.emit_hrd (s : State) (o : Out) : (s.emit o).hl.hrd = s.hl.hrd := by rw [State.emit_hl]
@[simp] theorem State.emit_hwr (s : State) (o : Out) : (s.emit o).hl.hwr = s.hl.hwr := by rw [State.emit_hl]
@[simp] theorem State.emit_ringCache (s : State) (o : Out) : (s.emit o).hl.ringCache = s.hl.ringCache := by rw [State.emit_hl]
@[simp] theorem State.emit_held? (s : State) (o : Out) (l : Nat) : (s.emit o).held? l = s.held? l := by simp [State.held?]

/-! ## Packets that are served at once -/

section
variable {s : State} {p : Pkt}

/-- A packet of the host link that does not wait has its effect, and its credit returns. -/
theorem Serving.kclRow {op : Nat} (h : Serving s p) {t : State} (effect : s.pktEffect { p with op := op } = some t) :
    s.kclRow p op = t.emit (.ctrl p.port 0x01 (inClass op + (2 + tailSlots { p with op := op }) * 2 ^ 24)) := by
  obtain ⟨port, up, -, -⟩ := h
  unfold State.kclRow State.recvPacket State.pktServe
  rw [if_pos port, if_pos ⟨by show p.port < 24; omega, up⟩, effect]
  rfl

/-- A live device holds no packet. -/
theorem Serving.free (h : Serving s p) (op : Nat) : s.pktHeld { p with op := op } = false := by
  obtain ⟨-, -, live, quiet⟩ := h
  simp [State.pktHeld, live, quiet]

theorem Serving.near (h : Serving s p) : ¬ 8 ≤ p.port := by
  obtain ⟨port, -⟩ := h
  omega

/-- An access of the device memory window is served at once. -/
theorem Serving.memEffect (h : Serving s p) (win : p.win = 0) {op : Nat} (hop : op ∈ [1, 2, 3, 4, 5, 6]) :
    s.pktEffect { p with op := op } = some (s.memAccess { p with op := op }) := by
  unfold State.pktEffect
  rw [h.free op]
  simp only [List.mem_cons, List.not_mem_nil, or_false] at hop
  obtain rfl | rfl | rfl | rfl | rfl | rfl := hop <;> simp [h.near, win]
end

/-! ## Writes of the host (R349, R352, R353) -/

@[simp] theorem State.held?_dropLine_self (s : State) (l : Nat) : (s.dropLine l).held? l = none := by
  simp [State.held?, State.dropLine, List.find?_filter]

theorem State.held?_dropLine_none {s : State} {l k : Nat} (h : s.held? l = none) : (s.dropLine k).held? l = none := by
  unfold State.held? at h ⊢
  rw [List.find?_eq_none] at h ⊢
  intro x hx
  exact h x (List.mem_filter.mp hx).1

theorem State.held?_dropLines {l : List Nat} {u : Nat} (s : State) (h : u ∈ l ∨ s.held? u = none) :
    (l.foldl State.dropLine s).held? u = none := by
  induction l generalizing s with
  | nil => exact h.resolve_left (List.not_mem_nil)
  | cons k l ih =>
    apply ih
    by_cases e : u = k
    · exact .inr (by rw [e]; exact State.held?_dropLine_self s k)
    · exact h.imp (fun m => (List.mem_cons.mp m).resolve_left e) State.held?_dropLine_none

/-- Lines given up are all that changes. -/
theorem State.dropLines_eq (l : List Nat) (s : State) :
    l.foldl State.dropLine s = { s with hl.filter := (l.foldl State.dropLine s).hl.filter } := by
  induction l generalizing s with
  | nil => rfl
  | cons k l ih =>
    rw [List.foldl_cons, ih]
    rfl

/-- Bytes put in device memory, and the poison that a packet brings. -/
def State.hostPut (s : State) (p : Pkt) (a : Nat) (data : List Byte) (n : Nat) : State :=
  if p.poison then (s.devPut a data).setPoison a n else s.devPut a data

section
variable (s : State) (p : Pkt) (a : Nat) (data : List Byte) (n : Nat)

@[simp] theorem State.hostPut_dev : (s.hostPut p a data n).mm.dev = wrBytes s.mm.dev a data := by
  unfold State.hostPut
  split <;> rfl

@[simp] theorem State.hostPut_hl : (s.hostPut p a data n).hl = s.hl := by
  unfold State.hostPut
  split <;> rfl

@[simp] theorem State.hostPut_fields : (s.hostPut p a data n).rg.fields = s.rg.fields := by
  unfold State.hostPut
  split <;> rfl
end

theorem pktPayload_length (p : Pkt) : (pktPayload p).length = p.len := by simp [pktPayload]

theorem State.memWrite_eq (s : State) (p : Pkt) : ∃ u : State, s.memWrite p = u.emit (.cmp p.port p.tag 0) ∧
    u.mm.dev = wrBytes s.mm.dev p.addr (s.writeImage p) ∧ (∀ l ∈ units64 p.addr p.len, u.held? l = none) ∧
    u.rg.fields = s.rg.fields := by
  have image : ((units64 p.addr p.len).foldl State.dropLine s).writeImage p = s.writeImage p := by
    rw [State.dropLines_eq]
    rfl
  refine ⟨((((units64 p.addr p.len).foldl State.dropLine s).hostPut p p.addr (s.writeImage p) p.len).countIn p), ?_, ?_, ?_, ?_⟩
  · unfold State.memWrite State.hostPut
    simp only [image]
    rfl
  · show (State.hostPut _ _ _ _ _).mm.dev = _
    rw [State.hostPut_dev, State.dropLines_eq]
  · intro l hl
    show List.find? _ (State.hostPut _ _ _ _ _).hl.filter = none
    rw [State.hostPut_hl]
    exact State.held?_dropLines s (.inl hl)
  · show (State.hostPut _ _ _ _ _).rg.fields = _
    rw [State.hostPut_fields, State.dropLines_eq]

theorem State.memBack_eq {s : State} {p : Pkt} (held : (s.held? (p.addr / 64)).isSome = true) :
    ∃ u : State, s.memBack p = u.emit (.cmp p.port p.tag 0) ∧ u.mm.dev = wrBytes s.mm.dev p.addr (pktPayload p) ∧
      u.held? (p.addr / 64) = none ∧ u.rg.fields = s.rg.fields := by
  refine ⟨((s.dropLine (p.addr / 64)).hostPut p p.addr (pktPayload p) 64).countIn p, ?_, ?_, ?_, ?_⟩
  · unfold State.memBack State.hostPut
    rw [if_pos held]
    rfl
  · exact State.hostPut_dev _ _ _ _ _
  · show List.find? _ (State.hostPut _ _ _ _ _).hl.filter = none
    rw [State.hostPut_hl]
    exact State.held?_dropLine_self s _
  · exact State.hostPut_fields _ _ _ _ _

section
variable {s : State} {p : Pkt} (h : Serving s p) (win : p.win = 0) (reach : s.windowReaches p.addr = true)
include h win reach

theorem wr_writes (size : pktSized { p with op := 4 } = true) :
    ∃ t, exec (.wr p) s = .next t ∧ t.mm.dev = wrBytes s.mm.dev p.addr (s.writeImage p) ∧
      (∀ l ∈ units64 p.addr p.len, t.held? l = none) ∧ .cmp p.port p.tag 0 ∈ t.hl.out ∧ t.rg.fields = s.rg.fields := by
  obtain ⟨u, done, dev, held, fields⟩ := State.memWrite_eq s { p with op := 4 }
  have effect : s.pktEffect { p with op := 4 } = some (u.emit (.cmp p.port p.tag 0)) := by
    rw [h.memEffect win (by simp), State.memAccess]
    simp [size, reach, done]
  refine ⟨_, congrArg Host.Outcome.next (h.kclRow effect), ?_, fun l hl => ?_, ?_, ?_⟩
  · rw [State.emit_mm, State.emit_mm]
    exact dev
  · simpa using held l hl
  · simp
  · simpa using fields

theorem wb_writes (size : p.len = 64 ∧ p.addr % 64 = 0) (held : (s.held? (p.addr / 64)).isSome = true) :
    ∃ t, exec (.wb p) s = .next t ∧ t.mm.dev = wrBytes s.mm.dev p.addr (pktPayload p) ∧
      t.held? (p.addr / 64) = none ∧ .cmp p.port p.tag 0 ∈ t.hl.out ∧ t.rg.fields = s.rg.fields := by
  obtain ⟨u, done, dev, gone, fields⟩ := State.memBack_eq (p := { p with op := 5 }) held
  have effect : s.pktEffect { p with op := 5 } = some (u.emit (.cmp p.port p.tag 0)) := by
    have size : pktSized { p with op := 5 } = true := by simp [pktSized, size]
    rw [h.memEffect win (by simp), State.memAccess]
    simp [size, reach, done]
  refine ⟨_, congrArg Host.Outcome.next (h.kclRow effect), ?_, ?_, ?_, ?_⟩
  · rw [State.emit_mm, State.emit_mm]
    exact dev
  · simpa using gone
  · simp
  · simpa using fields

theorem evict_drops (size : p.addr % 64 = 0) :
    ∃ t, exec (.evict p) s = .next t ∧ t.held? (p.addr / 64) = none ∧ t.mm = s.mm ∧ t.rg.fields = s.rg.fields := by
  have effect : s.pktEffect { p with op := 6 } = some (s.dropLine (p.addr / 64)) := by
    rw [h.memEffect win (by simp), State.memAccess]
    simp [pktSized, size, reach]
  refine ⟨_, congrArg Host.Outcome.next (h.kclRow effect), ?_, ?_, ?_⟩
  · simp
  · simp [State.dropLine]
  · simp [State.dropLine]
end

theorem sized.pktSized {p : Pkt} (h : sized p) {op : Nat} (hop : op = 1 ∨ op = 4) : pktSized { p with op := op } = true := by
  obtain ⟨len, aligned⟩ := h
  obtain rfl | rfl := hop <;> simpa [Sys2Proof.Machine.pktSized, aligned, or_assoc] using len

/-- Settles O10: WR and masked WR put their image, WB the line it gives up, and EVICT gives a line up. -/
theorem hostWrites : Obligations.HostWrites := by
  intro s p h win reach
  refine ⟨fun size plain => ?_, fun len aligned masked => ?_, fun len aligned held => ?_, evict_drops h win reach⟩
  · obtain ⟨t, ran, dev, gone, sent, fields⟩ := wr_writes h win reach (size.pktSized (.inr rfl))
    have image : s.writeImage p = pktPayload p := by simp [State.writeImage, plain]
    rw [image] at dev
    refine ⟨t, ran, ?_, fun a ha => ?_, gone, sent, fields⟩
    · rw [State.devRead, dev]
      conv_lhs => rw [← pktPayload_length p]
      exact rdBytes_wrBytes_self _ _ _
    · rw [dev]
      exact rdByte_wrBytes_out (by rw [pktPayload_length]; exact ha)
  · obtain ⟨t, ran, dev, -, sent, fields⟩ := wr_writes h win reach (p := p) (by simp [pktSized, len, aligned])
    have image : s.writeImage p = (List.range 64).map fun i =>
        if bit p.mask i then (pktPayload p).getD i 0 else rdByte s.mm.dev (p.addr + i) := by
      simp [State.writeImage, masked, len]
    refine ⟨t, ran, fun i hi => ?_, fun a ha => ?_, sent, fields⟩
    · rw [dev, image, rdByte_wrBytes, if_pos (by simp; omega)]
      simp [hi]
    · rw [dev, image]
      exact rdByte_wrBytes_out (by simpa using ha)
  · obtain ⟨t, ran, dev, gone, sent, fields⟩ := wb_writes h win reach ⟨len, aligned⟩ held
    refine ⟨t, ran, ?_, fun a ha => ?_, gone, sent, fields⟩
    · rw [State.devRead, dev, ← len]
      conv_lhs => rw [← pktPayload_length p]
      exact rdBytes_wrBytes_self _ _ _
    · rw [dev]
      exact rdByte_wrBytes_out (by rw [pktPayload_length, len]; exact ha)

end Sys2Proof.Machine
end

section
/-! SUPPORT. The host's reads of device memory, and its misaligned accesses (R348, R349, R352, R353). -/

namespace Sys2Proof.Machine

/-! ## The filter (R352) -/

/-- A line granted is held, in the state asked for. -/
theorem State.held?_grantLine (s : State) (l : Nat) (m : Bool) :
    (s.grantLine l m).held? l = some { line := l, modified := m } := by
  unfold State.grantLine
  split
  · next held =>
    obtain ⟨x, hx⟩ := Option.isSome_iff_exists.mp held
    have line : x.line = l := by simpa using List.find?_some hx
    have same : ((fun h : HeldLine => h.line == l) ∘ fun h => if h.line = l then { h with modified := m } else h) =
        fun h => h.line == l := by
      funext h
      simp only [Function.comp_apply]
      split <;> rfl
    show List.find? _ (s.hl.filter.map _) = _
    rw [List.find?_map, same]
    show Option.map _ (s.held? l) = _
    rw [hx]
    simp [line]
  · next held =>
    have none : s.hl.filter.find? (fun h => h.line == l) = none := by simpa [State.held?] using held
    simp [State.held?, none]

@[simp] theorem State.grantLine_out (s : State) (l : Nat) (m : Bool) : (s.grantLine l m).hl.out = s.hl.out := by
  unfold State.grantLine
  split <;> rfl
@[simp] theorem State.grantLine_mm (s : State) (l : Nat) (m : Bool) : (s.grantLine l m).mm = s.mm := by
  unfold State.grantLine
  split <;> rfl
@[simp] theorem State.grantLine_rg (s : State) (l : Nat) (m : Bool) : (s.grantLine l m).rg = s.rg := by
  unfold State.grantLine
  split <;> rfl

/-! ## Reads (R348, R349) -/

@[simp] theorem State.answerData_hl (s : State) (p : Pkt) (st : Nat) (data : List Byte) :
    (s.answerData p st data).hl = { s.hl with out := s.hl.out ++ [.cmpD p.port p.tag st data] } :=
  State.emit_hl s _
@[simp] theorem State.answerData_mm (s : State) (p : Pkt) (st : Nat) (data : List Byte) :
    (s.answerData p st data).mm = s.mm := State.emit_mm s _
@[simp] theorem State.answerData_fields (s : State) (p : Pkt) (st : Nat) (data : List Byte) :
    (s.answerData p st data).rg.fields = s.rg.fields := State.emit_fields s _
@[simp] theorem State.pins_hl (s : State) (a n : Nat) (w : Bool) : (s.pins a w n).hl = s.hl := rfl
@[simp] theorem State.pins_mm (s : State) (a n : Nat) (w : Bool) : (s.pins a w n).mm = s.mm := rfl
@[simp] theorem State.pins_fields (s : State) (a n : Nat) (w : Bool) : (s.pins a w n).rg.fields = s.rg.fields := rfl

section
variable {s : State} {p : Pkt}

theorem rdNc_reads (h : Serving s p) (win : p.win = 0) (reach : s.windowReaches p.addr = true)
    (idle : (units64 p.addr p.len).filter s.lineBusy = []) (size : sized p) :
    ∃ t, exec (.rdNc p) s = .next t ∧
      .cmpD p.port p.tag (if s.poisoned p.addr p.len then 3 else 0) (s.hostView p.addr p.len) ∈ t.hl.out ∧ t.mm = s.mm ∧
      t.hl.filter = s.hl.filter ∧ t.rg.fields = s.rg.fields := by
  have effect : s.pktEffect { p with op := 1 } = some (s.readAnswer { p with op := 1 }) := by
    rw [h.memEffect win (by simp), State.memAccess]
    simp [size.pktSized, reach, State.memRead, idle]
  refine ⟨_, congrArg Host.Outcome.next (h.kclRow effect), ?_, ?_, ?_, ?_⟩ <;> simp [State.readAnswer]

/-- A read that asks to hold its line is answered, and holds it (R352). -/
theorem State.memRead_grants {op : Nat} (idle : (units64 p.addr p.len).filter s.lineBusy = []) (hop : op ≠ 1)
    (room : s.filterFull (p.addr / 64) = none) :
    s.memRead { p with op := op } = (s.readAnswer { p with op := op }).grantLine (p.addr / 64) (op = 3) := by
  simp [State.memRead, idle, hop, room]

theorem rdHold_reads {op : Nat} (h : Serving s p) (win : p.win = 0) (reach : s.windowReaches p.addr = true)
    (idle : (units64 p.addr p.len).filter s.lineBusy = []) (len : p.len = 64) (aligned : p.addr % 64 = 0)
    (room : s.filterFull (p.addr / 64) = none) (hop : op = 2 ∨ op = 3) :
    .cmpD p.port p.tag (if s.poisoned p.addr p.len then 3 else 0) (s.hostView p.addr p.len) ∈ (s.kclRow p op).hl.out ∧
      (s.kclRow p op).mm = s.mm ∧ (s.kclRow p op).held? (p.addr / 64) = some { line := p.addr / 64, modified := op = 3 } ∧
      (s.kclRow p op).rg.fields = s.rg.fields := by
  have size : pktSized { p with op := op } = true := by obtain rfl | rfl := hop <;> simp [pktSized, len, aligned]
  have effect : s.pktEffect { p with op := op } =
      some ((s.readAnswer { p with op := op }).grantLine (p.addr / 64) (op = 3)) := by
    rw [← State.memRead_grants idle (by omega) room, h.memEffect win (by simp; omega), State.memAccess, size]
    obtain rfl | rfl := hop <;> simp [reach]
  rw [h.kclRow effect]
  refine ⟨?_, ?_, ?_, ?_⟩ <;> simp [State.held?_grantLine, State.readAnswer]

/-! ## Misaligned accesses (R349) -/

theorem misaligned_write {op : Nat} (h : Serving s p) (win : p.win = 0) (len : p.len = 64) (odd : p.addr % 64 ≠ 0)
    (hop : op = 4 ∨ op = 5) : .cmp p.port p.tag 1 ∈ (s.kclRow p op).hl.out ∧ (s.kclRow p op).mm = s.mm := by
  have effect : s.pktEffect { p with op := op } = some (s.emit (.cmp p.port p.tag 1)) := by
    rw [h.memEffect win (by simp; omega), State.memAccess]
    obtain rfl | rfl := hop <;> simp [pktSized, len, odd, State.answer]
  rw [h.kclRow effect]
  simp

theorem misaligned_read {op : Nat} (h : Serving s p) (win : p.win = 0) (len : p.len = 64) (odd : p.addr % 64 ≠ 0)
    (hop : op ∈ [1, 2, 3]) : .cmpD p.port p.tag 1 [] ∈ (s.kclRow p op).hl.out ∧ (s.kclRow p op).mm = s.mm ∧
      (s.kclRow p op).hl.filter = s.hl.filter := by
  simp only [List.mem_cons, List.not_mem_nil, or_false] at hop
  have effect : s.pktEffect { p with op := op } = some (s.answerData p 1 []) := by
    rw [h.memEffect win (by simp; omega), State.memAccess]
    obtain rfl | rfl | rfl := hop <;> simp [pktSized, len, odd, State.answerData]
  rw [h.kclRow effect]
  simp
end

/-- Settles O11: a read is answered with the data as they stand, one that asks to hold its line holds it, and a misaligned
access completes with UR. -/
theorem hostReads : Obligations.HostReads := by
  refine ⟨fun s p h win reach idle => ⟨rdNc_reads h win reach idle, fun len aligned room => ?_⟩, fun s p h win len odd => ?_⟩
  · exact ⟨⟨_, rfl, rdHold_reads h win reach idle len aligned room (.inl rfl)⟩,
      ⟨_, rfl, rdHold_reads h win reach idle len aligned room (.inr rfl)⟩⟩
  · obtain ⟨answered, same, -⟩ := misaligned_read h win len odd (op := 1) (by simp)
    exact ⟨⟨_, rfl, misaligned_write h win len odd (.inl rfl)⟩, ⟨_, rfl, misaligned_write h win len odd (.inr rfl)⟩,
      ⟨_, rfl, answered, same⟩, ⟨_, rfl, misaligned_read h win len odd (by simp)⟩,
      ⟨_, rfl, misaligned_read h win len odd (by simp)⟩⟩

end Sys2Proof.Machine
end

section
/-! SUPPORT. Doorbells and pushed records (R358, R359, R382). -/

namespace Sys2Proof.Machine

/-- A shadowed value put in force changes registers alone. -/
theorem State.applyField_frame (s : State) (f : Field) (i b : Nat) :
    s.applyField f i b = { s with rg.fields := (s.applyField f i b).rg.fields, rg.held := (s.applyField f i b).rg.held } := by
  unfold State.applyField
  split <;> rfl

/-- A record that no pushed one answers is asked of host memory. -/
theorem State.askRecord_missed {s : State} {n seq : Nat} (h : ∀ e ∈ s.hl.ringCache, e.q ≠ n) :
    s.askRecord n seq = ((s.setQueue n { s.queue n with asked := seqAfter seq 1 }).addCnt C.HL_CNT_PUSH_MISSED 1).hrd
      ((s.queue n).sq + 64 * (s.queue n).slotOf seq) (.record n seq) := by
  have none : s.hl.ringCache.find? (fun e => e.q == n && e.slot == (s.queue n).slotOf seq) = none := by
    rw [List.find?_eq_none]
    intro e he
    simp [h e he]
  unfold State.askRecord
  dsimp only
  rw [none]

@[simp] theorem State.hrd_queue (s : State) (a : Nat) (w : HrdFor) (n : Nat) : (s.hrd a w).queue n = s.queue n := by
  simp [State.queue]
theorem State.hrd_out (s : State) (a : Nat) (w : HrdFor) : (s.hrd a w).hl.out = s.hl.out ++ [.hrd s.hl.nextTag a] :=
  State.emit_out _ _
theorem State.hrd_asked (s : State) (a : Nat) (w : HrdFor) : (s.hrd a w).hl.hrd = s.hl.hrd ++ [⟨s.hl.nextTag, a, w⟩] :=
  State.emit_hrd _ _
@[simp] theorem State.queue_addCnt (s : State) (c : Cnt) (v i b n : Nat) : (s.addCnt c v i b).queue n = s.queue n := rfl
@[simp] theorem State.queue_emit (s : State) (o : Out) (n : Nat) : (s.emit o).queue n = s.queue n := by simp [State.queue]

/-- A queue whose tail is one past what is asked: the next record is asked, and nothing more. -/
theorem State.askUpTo_one {s : State} {n fuel : Nat} (behind : (s.queue n).asked ≠ (s.queue n).tail)
    (next : ((s.askRecord n (s.queue n).asked).queue n).asked = ((s.askRecord n (s.queue n).asked).queue n).tail) :
    State.askUpTo (fuel + 1) s n = s.askRecord n (s.queue n).asked := by
  rw [State.askUpTo, if_neg behind]
  cases fuel with
  | zero => rfl
  | succ fuel => exact if_pos next

section
variable {s : State} {p : Pkt}

theorem Serving.doorbell (h : Serving s p) : s.pktEffect { p with op := 7 } = some (s.doorbell { p with op := 7 }) := by
  unfold State.pktEffect
  rw [h.free 7]
  simp [h.near]

theorem Serving.push (h : Serving s p) : s.pktEffect { p with op := 8 } = some (s.push { p with op := 8 }) := by
  unfold State.pktEffect
  rw [h.free 8]
  simp [h.near]

/-- A tail one past the queue's, for which a slot's record is asked. -/
theorem State.newTail_one {n tail : Nat} (ht : tail = seqAfter (s.queue n).tail 1) (asked : (s.queue n).asked = (s.queue n).tail)
    (fits : seqAhead tail (s.queue n).oldest ≤ (s.queue n).size)
    (ahead : seqAhead (s.queue n).tail (s.queue n).oldest < seqAhead tail (s.queue n).oldest)
    (fresh : ∀ e ∈ s.hl.ringCache, e.q ≠ n) :
    ∃ u : State, s.newTail n tail = u.hrd ((s.queue n).sq + 64 * (s.queue n).slotOf (s.queue n).tail) (.record n (s.queue n).tail) ∧
      (u.queue n).tail = tail ∧ (u.queue n).asked = tail ∧ u.hl = s.hl ∧ u.mm = s.mm := by
  let x : State := { s.setQueue n { s.queue n with tail := tail } with cq.arrivals := s.cq.arrivals ++ [(n, tail)] }
  let q : Queue := { s.queue n with tail := tail }
  have queue : x.queue n = q := look_put_self _ _ _ _
  obtain ⟨k, size⟩ : ∃ k, (s.queue n).size = k + 1 := Nat.exists_eq_add_one.mpr (Nat.two_pow_pos _)
  have one : x.askRecord n (s.queue n).tail =
      ((x.setQueue n { q with asked := seqAfter (s.queue n).tail 1 }).addCnt C.HL_CNT_PUSH_MISSED 1).hrd
        (q.sq + 64 * q.slotOf (s.queue n).tail) (.record n (s.queue n).tail) := by
    rw [State.askRecord_missed (s := x) fresh, queue]
  have moved : s.newTail n tail = x.askRecord n (s.queue n).tail := by
    have differs : (s.queue n).tail ≠ tail := fun e => by
      rw [← e] at ahead
      omega
    unfold State.newTail
    rw [if_pos ⟨fits, ahead⟩, size]
    show State.askUpTo (k + 1) x n = _
    have behind : (x.queue n).asked = (s.queue n).tail := by rw [queue]; exact asked
    rw [← behind]
    refine State.askUpTo_one ?_ ?_
    · rw [behind, queue]
      exact differs
    · rw [behind, one]
      simp [q, ht]
  refine ⟨(x.setQueue n { q with asked := seqAfter (s.queue n).tail 1 }).addCnt C.HL_CNT_PUSH_MISSED 1, moved.trans one, ?_, ?_,
    rfl, rfl⟩
  · simp [q]
  · simp [ht]

/-- A doorbell that covers its word rings the queue that it names (R358). -/
theorem doorbell_rings (aligned : p.addr % 16 = 0) (len : 4 ≤ p.len) (plain : p.masked = false)
    (enabled : (s.queue (p.addr / 16)).enabled = true) (named : p.addr / 16 < 4096)
    (fits : seqAhead (field p.data 0 4) (s.queue (p.addr / 16)).oldest ≤ (s.queue (p.addr / 16)).size) :
    ∃ u : State, s.doorbell p = u.newTail (p.addr / 16) (field p.data 0 4) ∧ u.hl = s.hl ∧ u.cq = s.cq ∧ u.mm = s.mm := by
  have same : (s.applyField F.HL_CFG.PUSH_EN).queue (p.addr / 16) = s.queue (p.addr / 16) := by
    rw [State.applyField_frame]
    rfl
  refine ⟨(s.applyField F.HL_CFG.PUSH_EN).addSlot 0x31 0 0 p.len, ?_, ?_, ?_, ?_⟩
  · simp [State.doorbell, aligned, len, plain, enabled, same, named.not_ge, fits.not_gt]
  all_goals
    rw [State.applyField_frame]
    rfl

theorem db_taken (h : Serving s p) (aligned : p.addr % 16 = 0) (len : 4 ≤ p.len) (plain : p.masked = false)
    (enabled : (s.queue (p.addr / 16)).enabled = true) (named : p.addr / 16 < 4096)
    (asked : (s.queue (p.addr / 16)).asked = (s.queue (p.addr / 16)).tail)
    (one : field p.data 0 4 = seqAfter (s.queue (p.addr / 16)).tail 1)
    (fits : seqAhead (seqAfter (s.queue (p.addr / 16)).tail 1) (s.queue (p.addr / 16)).oldest ≤ (s.queue (p.addr / 16)).size)
    (ahead : seqAhead (s.queue (p.addr / 16)).tail (s.queue (p.addr / 16)).oldest <
      seqAhead (seqAfter (s.queue (p.addr / 16)).tail 1) (s.queue (p.addr / 16)).oldest)
    (fresh : ∀ e ∈ s.hl.ringCache, e.q ≠ p.addr / 16) {a : Nat}
    (ha : (s.queue (p.addr / 16)).sq + 64 * (s.queue (p.addr / 16)).slotOf (s.queue (p.addr / 16)).tail = a) :
    ∃ t, exec (.db p) s = .next t ∧ (t.queue (p.addr / 16)).tail = seqAfter (s.queue (p.addr / 16)).tail 1 ∧
      (t.queue (p.addr / 16)).asked = seqAfter (s.queue (p.addr / 16)).tail 1 ∧ .hrd s.hl.nextTag a ∈ t.hl.out ∧
      t.hl.hrd = s.hl.hrd ++
        [{ tag := s.hl.nextTag, addr := a, what := .record (p.addr / 16) (s.queue (p.addr / 16)).tail }] ∧
      t.mm = s.mm := by
  obtain ⟨v, rings, vhl, vcq, vmm⟩ := doorbell_rings (p := { p with op := 7 }) aligned len plain enabled named (by rw [← one] at fits; exact fits)
  have queue : v.queue (p.addr / 16) = s.queue (p.addr / 16) := by rw [State.queue, vcq]; rfl
  rw [← queue] at asked fits ahead ha ⊢
  obtain ⟨u, moved, tail, now, uhl, umm⟩ := State.newTail_one (s := v) rfl asked fits ahead (by rw [vhl]; exact fresh)
  have effect := h.doorbell.trans (congrArg some rings)
  rw [show field ({ p with op := 7 } : Pkt).data 0 4 = seqAfter (v.queue (p.addr / 16)).tail 1 by rw [queue]; exact one] at effect
  rw [moved, ha] at effect
  refine ⟨_, congrArg Host.Outcome.next (h.kclRow effect), ?_, ?_, ?_, ?_, ?_⟩
  · simpa using tail
  · simpa using now
  · simp [State.hrd_out, uhl, vhl]
  · simp [State.hrd_asked, uhl, vhl]
  · simp [umm, vmm]

theorem db_dropped (h : Serving s p) (bad : p.addr % 16 ≠ 0 ∨ p.len < 4 ∨ (s.queue (p.addr / 16)).enabled = false) :
    ∃ t, exec (.db p) s = .next t ∧ t.cnt C.HL_CNT_DB_DROPPED = (s.cnt C.HL_CNT_DB_DROPPED + 1) % 2 ^ 64 ∧
      (∃ e ∈ t.er.collector, e.code = 0x3101 ∧ e.sev = 0) ∧ t.cq = s.cq ∧ t.mm = s.mm := by
  have drops : s.doorbell { p with op := 7 } = s.dbDrop := by
    obtain odd | short | off := bad
    · simp [State.doorbell, odd]
    · simp [State.doorbell, short]
    · simp [State.doorbell, off]
  have effect := h.doorbell.trans (congrArg some drops)
  obtain ⟨e, he, code, sev, -⟩ := State.raise_raised (s.addCnt C.HL_CNT_DB_DROPPED 1) 0x3101 0 0 0 0xFFFF 0xFFFF 0 0
  refine ⟨_, congrArg Host.Outcome.next (h.kclRow effect), ?_, ⟨e, ?_, code, sev⟩, ?_, ?_⟩
  · simp [State.dbDrop]
  · rw [State.emit_er]
    exact he
  · simp [State.dbDrop]
  · simp [State.dbDrop]

theorem push_enters (h : Serving s p) (on : s.fld F.HL_CFG.PUSH_EN = 1) :
    ∃ t, exec (.push p) s = .next t ∧ { q := p.aux, slot := p.addr, rec_ := p.data } ∈ t.hl.ringCache ∧
      (s.hl.ringCache.length ≤ 8192 → t.hl.ringCache.length ≤ 8192) ∧ t.cq = s.cq ∧ t.mm = s.mm := by
  refine ⟨_, congrArg Host.Outcome.next (h.kclRow h.push), ?_, fun room => ?_, ?_, ?_⟩
  · simp [State.push, on]
  · have kept := List.length_filter_le (fun e : RingEntry => !(e.q == p.aux && e.slot == p.addr)) s.hl.ringCache
    simp only [State.emit_ringCache, State.push, on, if_true]
    simp only [State.addSlot_hl, List.length_append, List.length_cons, List.length_nil]
    split
    · omega
    · rw [List.length_drop]
      omega
  · simp [State.push, on]
  · simp [State.push, on]
end

/-- Settles O12: a doorbell of one more slot asks for its record, one that does not cover its word or names no enabled queue
is dropped, and a pushed record enters the ring cache. -/
theorem doorbellPush : Obligations.DoorbellPush := by
  intro s p h
  refine ⟨?_, db_dropped h, push_enters h⟩
  intro aligned len plain enabled named asked one fits ahead fresh
  exact db_taken h aligned len plain enabled named asked one fits ahead fresh rfl

end Sys2Proof.Machine
end

section
/-! SUPPORT. Completions that answer the device: of its reads and writes of host memory, and of its requests to the cistern
modules (R31, R351, R366, R378). -/

namespace Sys2Proof.Machine

/-! ## Completions of the host -/

section
variable {s : State} {p : Pkt}

theorem Serving.cmp (h : Serving s p) : s.pktEffect { p with op := 0x21 } = some (s.cmpIn { p with op := 0x21 }) := by
  unfold State.pktEffect
  rw [h.free 0x21]
  simp [h.near]

theorem Serving.cmpD (h : Serving s p) : s.pktEffect { p with op := 0x22 } = some (s.cmpDIn { p with op := 0x22 }) := by
  unfold State.pktEffect
  rw [h.free 0x22]
  simp [h.near]

/-- The last write of a journal entry marks its command (R31). -/
theorem State.hwrDone_journal {h : Hwr} {q n : Nat} {c : Cmd} (what : h.what = .journal q n)
    (last : (s.hl.hwr.erase h).any (fun g => g.what == h.what) = false) (hc : s.cmd? q n = some c) :
    ∃ u : State, s.hwrDone h = u.setCmd { c with journalled := true } ∧ u.hl.hwr = s.hl.hwr.erase h ∧ u.cq = s.cq ∧
      u.mm = s.mm ∧ u.rg = s.rg := by
  refine ⟨{ s with hl.hwr := s.hl.hwr.erase h, hl.hostMem := hostPuts s.hl.hostMem h.addr h.data }, ?_, rfl, rfl, rfl, rfl⟩
  unfold State.hwrDone
  dsimp only
  rw [last, what]
  show (match s.cmd? q n with | some c => _ | none => _) = _
  rw [hc]

theorem cmp_journals (h : Serving s p) {w : Hwr} {q n : Nat} {c : Cmd}
    (found : s.hl.hwr.find? (fun h => h.tag == p.tag) = some w) (what : w.what = .journal q n)
    (last : (s.hl.hwr.erase w).any (fun g => g.what == w.what) = false) (hc : s.cmd? q n = some c) :
    ∃ t, exec (.cmp p) s = .next t ∧ t.hl.hwr = s.hl.hwr.erase w ∧ t.cmd? q n = some { c with journalled := true } ∧
      t.mm = s.mm ∧ t.rg.fields = s.rg.fields := by
  obtain ⟨u, done, hwr, cq, mm, rg⟩ := State.hwrDone_journal what last hc
  obtain ⟨rfl, rfl⟩ := s.cmd?_key _ _ c hc
  have effect : s.pktEffect { p with op := 0x21 } = some (u.setCmd { c with journalled := true }) := by
    rw [h.cmp, State.cmpIn, ← done]
    simp only [found]
  have marked : (u.setCmd { c with journalled := true }).cmd? c.q c.seq = some { c with journalled := true } :=
    State.cmd?_setCmd u { c with journalled := true } c (by unfold State.cmd?; rw [cq]; exact hc)
  refine ⟨_, congrArg Host.Outcome.next (h.kclRow effect), ?_, ?_, ?_, ?_⟩
  · simpa using hwr
  · unfold State.cmd? at marked ⊢
    rw [State.emit_cq]
    exact marked
  · simpa using mm
  · simp [rg]

theorem cmpD_takes (h : Serving s p) {w : Hrd} {n seq : Nat} (found : s.hl.hrd.find? (fun h => h.tag == p.tag) = some w)
    (what : w.what = .record n seq) (enabled : (s.queue n).enabled = true)
    (asked : seqAhead seq (s.queue n).next < seqAhead (s.queue n).asked (s.queue n).next) :
    ∃ t, exec (.cmpD p) s = .next t ∧ t.hl.hrd = s.hl.hrd.erase w ∧
      (t.queue n).inHand = (s.queue n).inHand ++ [(seq, (p.data ++ List.replicate 64 0).take 64)] ∧ t.mm = s.mm ∧
      t.rg.fields = s.rg.fields := by
  let data := (p.data ++ List.replicate 64 0).take 64
  let v : State := { s.countIn p with hl.hrd := s.hl.hrd.erase w, hl.hostMem := hostPuts s.hl.hostMem w.addr data }
  have arrived : v.recordArrived n seq data = v.setQueue n { s.queue n with inHand := (s.queue n).inHand ++ [(seq, data)] } :=
    if_pos ⟨enabled, asked⟩
  have effect : s.pktEffect { p with op := 0x22 } = some (v.recordArrived n seq data) := by
    rw [h.cmpD, State.cmpDIn]
    simp only [found, State.hrdDone, what]
    rfl
  rw [arrived] at effect
  refine ⟨_, congrArg Host.Outcome.next (h.kclRow effect), ?_, ?_, ?_, ?_⟩ <;> simp [v, data, State.countIn]
end

/-! ## Completions of a cistern module (R366, R378) -/

/-- A packet of a cistern port that does not wait has its effect, and its credit returns. -/
theorem State.recvPacket_cistern {s : State} {m : Fin 16} {p : Pkt} (up : s.fld F.OP_STATUS.UP (m + 8) = 1)
    (live : s.stopState = 0) (port : p.port = m + 8) {t : State}
    (effect : p.op = 0x51 ∧ s.cCmp m p.tag p.status = t ∨ p.op = 0x52 ∧ s.cData m p.tag p.status p.data = t) :
    s.recvPacket p = t.emit (.ctrl p.port 0x01 (inClass p.op + (2 + tailSlots p) * 2 ^ 24)) := by
  have near : ¬ p.port < 8 := by omega
  have free : s.pktHeld p = false := by simp [State.pktHeld, live, near]
  have served : s.pktEffect p = some t := by
    unfold State.pktEffect
    rw [free, if_neg (by decide), if_pos (by omega), port, Nat.add_sub_cancel]
    obtain ⟨op, rfl⟩ | ⟨op, rfl⟩ := effect <;> simp [op]
  unfold State.recvPacket State.pktServe
  rw [if_pos ⟨by omega, by rw [port]; exact up⟩, served]
  rfl

section
variable {s : State} {m tag : Nat} {r : CisReq}

/-- A module whose enable is not being cleared waits for no request to end. -/
theorem State.cisDrained_kept (h : (s.module m).clearing = false) : s.cisDrained m = s := by
  unfold State.cisDrained
  simp [h]

/-- The module once a request of it is answered. -/
def State.reqTaken (s : State) (m : Nat) (r : CisReq) : State :=
  s.setModule m { s.module m with reqs := (s.module m).reqs.erase r }

theorem State.takeReq_found (found : (s.module m).reqs.find? (fun r => r.tag = tag) = some r) :
    s.takeReq m tag = some (r.what, s.reqTaken m r) := by
  unfold State.takeReq
  simp only [found]
  rfl

/-- The module past what is sent, shown and counted. -/
@[simp] theorem State.module_emit (s : State) (o : Out) (m : Nat) : (s.emit o).module m = s.module m := by simp [State.module]
@[simp] theorem State.module_setInt (s : State) (f : Field) (i m : Nat) : (s.setInt f i).module m = s.module m := by
  simp [State.module]
@[simp] theorem State.module_setFld (s : State) (f : Field) (v i b m : Nat) : (s.setFld f v i b).module m = s.module m := rfl
@[simp] theorem State.module_setCnt (s : State) (c : Cnt) (v i b m : Nat) : (s.setCnt c v i b).module m = s.module m := rfl

/-- A module whose label is not read yet is not known. -/
theorem State.cisKnown_bare (bare : (s.module m).label = []) : s.cisKnown m = s := by
  unfold State.cisKnown
  simp [bare]

theorem State.cData_ident {data : List Byte} (found : (s.module m).reqs.find? (fun r => r.tag = tag) = some r)
    (what : r.what = .ident) (kept : (s.module m).clearing = false) (bare : (s.module m).label = []) :
    s.cData m tag 0 data = ((s.reqTaken m r).setModule m { (s.reqTaken m r).module m with
      ident := data, worn := bit (field data 0x25 1) 1 }).setCnt C.CIS_CAPACITY (field data 8 8) m := by
  unfold State.cData
  rw [State.takeReq_found found, what]
  simp only [reduceIte, reduceCtorEq]
  rw [if_neg (by rw [State.reqTaken, State.module_setModule, kept]; decide)]
  rw [State.cisKnown_bare (by simpa [State.reqTaken] using bare)]
  exact State.cisDrained_kept (by simpa [State.reqTaken] using kept)

theorem State.cCmp_trim (found : (s.module m).reqs.find? (fun r => r.tag = tag) = some r)
    (what : r.what = .trim) (kept : (s.module m).clearing = false) :
    s.cCmp m tag 0 = (s.reqTaken m r).cisOpDone m 0 := by
  unfold State.cCmp
  rw [State.takeReq_found found, what]
  exact State.cisDrained_kept (by simpa [State.cisOpDone, State.reqTaken] using kept)

theorem cisOpDone_fields (t : State) (result : Nat) : (t.cisOpDone m result).fld F.CIS_OP_STATUS.BUSY m = 0 ∧
    (t.cisOpDone m result).fld F.CIS_OP_STATUS.RESULT m = result % 2 ^ F.CIS_OP_STATUS.RESULT.width ∧
    (t.cisOpDone m result).fld F.CIS_INT_STATUS.OP_DONE m = 1 := by
  unfold State.cisOpDone
  refine ⟨?_, ?_, ?_⟩
  · rw [State.fld_setInt_other _ (by decide), State.fld_setFld_other _ (by decide)]
    simp
  · rw [State.fld_setInt_other _ (by decide)]
    simp
  · rw [State.fld_setInt]
    rfl
end

/-- Settles O13: a journal's completion marks its command, a record read is put in hand, a module's identity gives the
capacity, and a trim that is answered ends the operation. -/
theorem answersToTheDevice : Obligations.AnswersToTheDevice := by
  refine ⟨fun s p h => ⟨fun w q n c => cmp_journals h, fun w n seq => cmpD_takes h⟩,
    fun s m tag r up live found kept => ⟨fun data _ what bare => ?_, fun what => ?_⟩⟩
  · have effect := State.recvPacket_cistern (p := { op := 0x52, port := m + 8, tag := tag, len := data.length, data := data }) up live
      rfl (.inr ⟨rfl, State.cData_ident found what kept bare⟩)
    refine ⟨_, congrArg Host.Outcome.next effect, ?_, ?_, ?_, ?_, ?_⟩ <;> simp [State.reqTaken]
  · have effect := State.recvPacket_cistern (p := { op := 0x51, port := m + 8, tag := tag }) up live
      rfl (.inl ⟨rfl, State.cCmp_trim found what kept⟩)
    obtain ⟨busy, result, done⟩ := cisOpDone_fields (m := m) (s.reqTaken m r) 0
    refine ⟨_, congrArg Host.Outcome.next effect, ?_, ?_, ?_, ?_, ?_⟩
    · simpa using busy
    · simpa using result
    · simpa using done
    · simp [State.cisOpDone, State.reqTaken]
    · simp [State.cisOpDone, State.reqTaken]


end Sys2Proof.Machine
end

section
/-! SUPPORT. What sending leaves of a port: all but its queue, its retry buffer, its next SEQ and its credits (R344 to R347). -/

namespace Sys2Proof.Machine

/-- A port that has sent, and nothing else. -/
def Port.Sent (x y : Port) : Prop :=
  y = { x with heldTx := y.heldTx, retry := y.retry, txNext := y.txNext, credits := y.credits }

theorem Port.Sent.refl (x : Port) : x.Sent x := rfl

theorem Port.Sent.trans {x y z : Port} (h : x.Sent y) (h' : y.Sent z) : x.Sent z := by
  unfold Port.Sent at *
  rw [h', h]

theorem Port.Sent.queue (x : Port) (l : List Out) : x.Sent { x with heldTx := l } := rfl

theorem Port.sendOne_sent {x y : Port} (h : x.sendOne = some y) : x.Sent y := by
  unfold Port.sendOne at h
  split at h
  · cases h
  · dsimp only at h
    split at h
    · cases h
    · cases h
      rfl

theorem Port.sendAll_sent (fuel : Nat) (x : Port) : x.Sent (Port.sendAll fuel x) := by
  induction fuel generalizing x with
  | zero => exact Port.Sent.refl x
  | succ fuel ih =>
    unfold Port.sendAll
    split
    · next y sent => exact (Port.sendOne_sent sent).trans (ih y)
    · exact Port.Sent.refl x

theorem State.setPort_sent {s : State} {p : Nat} {x : Port} (h : (s.port p).Sent x) (q : Nat) :
    (s.port q).Sent ((s.setPort p x).port q) := by
  by_cases e : q = p
  · subst e
    rwa [State.port_setPort]
  · rw [State.port_setPort_ne _ _ _ _ e]
    exact Port.Sent.refl _

theorem State.sendPort_sent (s : State) (p q : Nat) : (s.port q).Sent ((s.sendPort p).port q) := by
  unfold State.sendPort
  split
  · exact State.setPort_sent (Port.sendAll_sent _ _) q
  · exact Port.Sent.refl _

/-- A packet sent leaves of every port all but what sending changes. -/
theorem State.emit_sent (s : State) (o : Out) (q : Nat) : (s.port q).Sent ((s.emit o).port q) := by
  unfold State.emit
  dsimp only
  split
  · next p _ =>
    refine Port.Sent.trans ?_ (State.sendPort_sent _ p q)
    exact State.setPort_sent (s := { s with hl.out := s.hl.out ++ [o] }) (Port.Sent.queue _ _) q
  · exact Port.Sent.refl _

theorem State.setInt_sent (s : State) (f : Field) (i q : Nat) : (s.port q).Sent ((s.setInt f i).port q) := by
  unfold State.setInt
  dsimp only
  split
  · exact State.emit_sent (s.setFld f 1 i) _ q
  · exact Port.Sent.refl _

/-- What sending leaves, field by field. -/
structure Port.Kept (x y : Port) : Prop where
  tx : y.tx = x.tx
  rx : y.rx = x.rx
  everUp : y.everUp = x.everUp
  slotUntil : y.slotUntil = x.slotUntil
  rxNext : y.rxNext = x.rxNext
  nakSent : y.nakSent = x.nakSent
  partialIn : y.partialIn = x.partialIn
  partialSince : y.partialSince = x.partialSince
  stalled : y.stalled = x.stalled
  handing : y.handing = x.handing

theorem Port.Sent.kept {x y : Port} (h : x.Sent y) : x.Kept y := by
  rw [show y = _ from h]
  exact ⟨rfl, rfl, rfl, rfl, rfl, rfl, rfl, rfl, rfl, rfl⟩

end Sys2Proof.Machine
end

section
/-! SUPPORT. Answers to recalls that nothing waits for, their time-out, and the stall watch (R353, R354, R356, R362). -/

namespace Sys2Proof.Machine

/-! ## Recalls -/

/-- A recall that nothing waits for ends with the line given up. -/
theorem State.recallDone_idle {s : State} {r : Recall} (h : r.waits = []) :
    s.recallDone r = ({ s with hl.recalls := s.hl.recalls.erase r } : State).dropLine r.line := by
  unfold State.recallDone
  rw [h]
  rfl

section
variable {s : State} {p : Pkt} {r : Recall}

theorem Serving.rclAck (h : Serving s p) : s.pktEffect { p with op := 0x23 } = some (s.recallAck p.tag) := by
  unfold State.pktEffect
  rw [h.free 0x23]
  simp [h.near]

theorem Serving.rclData (h : Serving s p) : s.pktEffect { p with op := 0x24 } = some (s.recallData { p with op := 0x24 }) := by
  unfold State.pktEffect
  rw [h.free 0x24]
  simp [h.near]

theorem rclAck_ends (h : Serving s p) (idle : r.waits = []) (found : s.hl.recalls.find? (fun r => r.tag == p.tag) = some r) :
    ∃ t, exec (.rclAck p) s = .next t ∧ t.hl.recalls = s.hl.recalls.erase r ∧ t.held? r.line = none ∧ t.mm = s.mm := by
  have effect := h.rclAck
  rw [State.recallAck, found] at effect
  dsimp only at effect
  rw [State.recallDone_idle idle] at effect
  refine ⟨_, congrArg Host.Outcome.next (h.kclRow effect), ?_, ?_, ?_⟩
  · simp [State.dropLine]
  · simp
  · simp [State.dropLine]

theorem rclData_writes (h : Serving s p) (idle : r.waits = []) (found : s.hl.recalls.find? (fun r => r.tag == p.tag) = some r) :
    ∃ t, exec (.rclData p) s = .next t ∧ t.hl.recalls = s.hl.recalls.erase r ∧ t.held? r.line = none ∧
      t.devRead (r.line * 64) 64 = (p.data ++ List.replicate 64 0).take 64 ∧
      (∀ a, a < r.line * 64 ∨ r.line * 64 + 64 ≤ a → rdByte t.mm.dev a = rdByte s.mm.dev a) := by
  let data := (p.data ++ List.replicate 64 0).take 64
  have length : data.length = 64 := by simp [data]
  let u := (s.hostPut p (r.line * 64) data 64).countIn p
  have effect : s.pktEffect { p with op := 0x24 } = some (u.recallDone r) := by
    rw [h.rclData, State.recallData]
    simp only [found]
    rfl
  have hl : u.hl = s.hl := State.hostPut_hl s p _ data 64
  have dev : u.mm.dev = wrBytes s.mm.dev (r.line * 64) data := State.hostPut_dev s p _ data 64
  rw [State.recallDone_idle idle, hl] at effect
  refine ⟨_, congrArg Host.Outcome.next (h.kclRow effect), ?_, ?_, ?_, fun a ha => ?_⟩
  · simp [State.dropLine]
  · simp
  · rw [State.devRead, State.emit_mm]
    show rdBytes u.mm.dev _ _ = data
    rw [dev, ← length]
    exact rdBytes_wrBytes_self _ _ _
  · rw [State.emit_mm]
    show rdByte u.mm.dev a = _
    rw [dev]
    exact rdByte_wrBytes_out (by rw [length]; exact ha)

/-- One whole line lies in its unit alone. -/
theorem units64_line (line : Nat) : units64 (line * 64) 64 = [line] := by
  simp [units64, ceilDiv]

theorem State.poisoned_setPoison (s : State) (line : Nat) : (s.setPoison (line * 64) 64).poisoned (line * 64) 64 = true := by
  unfold State.poisoned State.setPoison
  rw [units64_line]
  by_cases h : line ∈ s.mm.poison <;> simp [h]

theorem recallTimeout_poisons {line : BitVec 40} (idle : r.waits = [])
    (found : s.hl.recalls.find? (fun r => r.line == line.toNat) = some r) (live : s.stopState = 0)
    (late : r.at_ + 1000000 ≤ s.tm.now) :
    ∃ t, exec (.recallTimeout line) s = .next t ∧ t.hl.recalls = s.hl.recalls.erase r ∧ t.held? line.toNat = none ∧
      t.poisoned (line.toNat * 64) 64 = true ∧ (∃ e ∈ t.er.collector, e.code = 0x3103 ∧ e.sev = 2) ∧
      t.mm.dev = s.mm.dev := by
  have named : r.line = line.toNat := by simpa using List.find?_some found
  let u := ((s.setInt F.HL_INT_STATUS.RECALL_TIMEOUT).raise 0x3103 2 0 0 0xFFFF 0xFFFF 0 (memDetail (line.toNat * 64))).setPoison
    (line.toNat * 64) 64
  have timed : s.recallTimeout line.toNat = u.recallDone r := by
    unfold State.recallTimeout
    rw [found]
    exact if_neg (by omega)
  have recalls : u.hl.recalls = s.hl.recalls := by
    show (s.setInt _).hl.recalls = _
    rw [State.setInt_frame]
    rfl
  obtain ⟨e, he, code, sev, -⟩ := State.raise_raised (s.setInt F.HL_INT_STATUS.RECALL_TIMEOUT) 0x3103 2 0 0 0xFFFF 0xFFFF 0
    (memDetail (line.toNat * 64))
  rw [State.recallDone_idle idle, recalls] at timed
  refine ⟨_, congrArg Host.Outcome.next timed, rfl, ?_, ?_, ⟨e, he, code, sev⟩, ?_⟩
  · rw [named]
    exact State.held?_dropLine_self _ _
  · exact State.poisoned_setPoison _ _
  · show u.mm.dev = _
    simp [u, State.setPoison]

/-! ## The stall watch (R362) -/

theorem stallWatch_stalls {p : Fin 8} {e : Nat} (waits : (s.port p).partialSince = some e) (first : (s.port p).stalled = false)
    (live : s.stopState = 0) (late : e + Nat.max 1 (s.fld F.HL_STALL_WATCH.MS) * 1000000 < s.tm.now) :
    ∃ t, exec (.stallWatch p) s = .next t ∧ (t.port p).stalled = true ∧ (t.port p).partialIn = (s.port p).partialIn ∧
      t.fld F.HL_INT_STATUS.STALL = 1 ∧ t.cnt C.HL_CNT_STALLS = (s.cnt C.HL_CNT_STALLS + 1) % 2 ^ 64 ∧
      ∃ e ∈ t.er.collector, e.code = 0x3102 ∧ e.sev = 0 := by
  have stalls : s.stallWatch p = (((s.setPort p { s.port p with stalled := true }).addCnt C.HL_CNT_STALLS 1).setInt
      F.HL_INT_STATUS.STALL).raise 0x3102 0 0 p := by
    unfold State.stallWatch
    simp only [waits]
    exact if_pos ⟨live, first, late⟩
  have kept := (State.setInt_sent ((s.setPort p { s.port p with stalled := true }).addCnt C.HL_CNT_STALLS 1)
    F.HL_INT_STATUS.STALL 0 p).kept
  simp only [State.port_addCnt, State.port_setPort] at kept
  refine ⟨_, congrArg Host.Outcome.next stalls, kept.stalled, kept.partialIn, ?_, ?_, ?_⟩
  · rw [State.fld_raise, State.fld_setInt]
    rfl
  · simp
  · obtain ⟨e, he, code, sev, -⟩ := State.raise_raised (((s.setPort p { s.port p with stalled := true }).addCnt
      C.HL_CNT_STALLS 1).setInt F.HL_INT_STATUS.STALL) 0x3102 0 0 p 0xFFFF 0xFFFF 0 0
    exact ⟨e, he, code, sev⟩
end

/-- Settles O14: an answer to a recall and its time-out end the hold of the line, and a packet that waits too long is shown
stalled. -/
theorem recallsAndStalls : Obligations.RecallsAndStalls := by
  refine ⟨fun s p r idle => ⟨fun h found => ⟨rclAck_ends h idle found, rclData_writes h idle found⟩,
    fun line found => recallTimeout_poisons idle found⟩, fun s p e => stallWatch_stalls⟩

end Sys2Proof.Machine
end

section
/-! SUPPORT. The states of a lane (R337, R343). -/

namespace Sys2Proof.Machine

/-! ## A lane of a port -/

theorem Port.lane_setLane (x : Port) (rx : Bool) (w : Nat) (l : Lane) : (x.setLane rx w l).lane rx w = l := by
  cases rx <;> exact look_put_self _ _ _ _

@[simp] theorem State.lane_setLane (s : State) (p : Nat) (rx : Bool) (w : Nat) (l : Lane) :
    (s.setLane p rx w l).lane p rx w = l := by
  rw [State.lane, State.setLane, State.port_setPort, Port.lane_setLane]

@[simp] theorem State.setLane_rg (s : State) (p : Nat) (rx : Bool) (w : Nat) (l : Lane) :
    (s.setLane p rx w l).rg = s.rg := rfl

/-- What sending leaves of a port, its lanes are part of. -/
theorem Port.Kept.lane {x y : Port} (h : x.Kept y) (rx : Bool) (w : Nat) : y.lane rx w = x.lane rx w := by
  unfold Port.lane
  rw [h.rx, h.tx]

@[simp] theorem State.lane_emit (s : State) (o : Out) (p : Nat) (rx : Bool) (w : Nat) : (s.emit o).lane p rx w = s.lane p rx w :=
  (s.emit_sent o p).kept.lane rx w
@[simp] theorem State.lane_setInt (s : State) (f : Field) (i p : Nat) (rx : Bool) (w : Nat) :
    (s.setInt f i).lane p rx w = s.lane p rx w :=
  (s.setInt_sent f i p).kept.lane rx w
@[simp] theorem State.lane_draw (s : State) (p : Nat) (rx : Bool) (w : Nat) : s.draw.2.lane p rx w = s.lane p rx w := rfl
@[simp] theorem State.lane_raise (s : State) (code sev inst unit ctx q cmd detail p : Nat) (rx : Bool) (w : Nat) :
    (s.raise code sev inst unit ctx q cmd detail).lane p rx w = s.lane p rx w := rfl
@[simp] theorem State.fld_setLane (s : State) (p : Nat) (rx : Bool) (w : Nat) (l : Lane) (f : Field) (i b : Nat) :
    (s.setLane p rx w l).fld f i b = s.fld f i b := rfl
@[simp] theorem State.fld_draw (s : State) (f : Field) (i b : Nat) : s.draw.2.fld f i b = s.fld f i b := rfl

/-! ## From dark to lit and back (R337) -/

section
variable {s : State} {p : Fin 24} {rx : Bool} {w : Fin 8}

theorem laneTrain_dims (used : s.laneUsed p w = true) (enabled : s.fld F.OP_CFG.ENABLE p = 1) (dark : (s.lane p rx w).st = .dark) :
    ∃ t, exec (.laneTrain p rx w true) s = .next t ∧ (t.lane p rx w).st = .dim ∧ (t.lane p rx w).since = s.tm.now ∧
      t.rg = s.rg := by
  have trained : s.laneTrain p rx w true = s.setLane p rx w { st := .dim, since := s.tm.now, light := true } :=
    if_pos ⟨used, enabled, dark, by simp⟩
  refine ⟨_, congrArg Host.Outcome.next trained, ?_, ?_, rfl⟩ <;> simp

theorem laneLock_lights {rtt : BitVec 16} (used : s.laneUsed p w = true) (up : s.fld F.OP_STATUS.UP p = 1)
    (dim : (s.lane p rx w).st = .dim) (held : (s.lane p rx w).since + 1000000 ≤ s.tm.now) :
    ∃ t, exec (.laneLock p rx w rtt) s = .next t ∧ (t.lane p rx w).st = .lit ∧ (t.lane p rx w).rot = true ∧
      t.fld F.OP_INT_STATUS.LANE_UP p = 1 := by
  let u := (s.setLane p rx w { s.lane p rx w with st := .lit, since := s.tm.now, rot := true }).setInt F.OP_INT_STATUS.LANE_UP p
  let v := u.draw.2.sendCtrl p 0x03 (laneUnit rx w + u.draw.1.toNat % 256 * 2 ^ 8)
  have still : v.fld F.OP_STATUS.UP p = 1 := by
    simp only [v, u, State.sendCtrl, State.fld_emit, State.fld_draw]
    rw [State.fld_setInt_other _ (by decide), State.fld_setLane, up]
  have locked : s.laneLock p rx w rtt.toNat = v.portCheck p rtt.toNat := by
    unfold State.laneLock
    exact if_pos ⟨dim, held, used⟩
  rw [State.portCheck, if_neg (by rw [still]; simp)] at locked
  refine ⟨_, congrArg Host.Outcome.next locked, ?_, ?_, ?_⟩ <;> simp [v, u, State.sendCtrl]
  decide

theorem lockTimeout_fails (dim : (s.lane p rx w).st = .dim) (late : (s.lane p rx w).since + 50000000 ≤ s.tm.now) :
    ∃ t, exec (.lockTimeout p rx w) s = .next t ∧ (t.lane p rx w).st = .failed ∧
      (∃ e ∈ t.er.collector, e.code = 0x3001 ∧ e.inst = p.val) ∧ t.rg = s.rg := by
  have failed : s.lockTimeout p rx w =
      (s.setLane p rx w { s.lane p rx w with st := .failed }).raise 0x3001 1 p (laneUnit rx w) := if_pos ⟨dim, late⟩
  obtain ⟨e, he, code, -, inst, -⟩ := State.raise_raised (s.setLane p rx w { s.lane p rx w with st := .failed }) 0x3001 1 p
    (laneUnit rx w) 0xFFFF 0xFFFF 0 0
  exact ⟨_, congrArg Host.Outcome.next failed, by simp, ⟨e, he, code, inst⟩, rfl⟩

/-- Moves of a lane out of LIT within the last second. -/
def Lane.recent (l : Lane) (now : Nat) : List Nat := l.moves.filter fun t => decide (now < t + 1000000000)

theorem laneDown_leaves (lit : (s.lane p rx w).st = .lit) :
    ∃ t, exec (.laneDown p rx w) s = .next t ∧ (t.lane p rx w).rot = false ∧
      (t.lane p rx w).st = (if ((s.lane p rx w).recent s.tm.now).length < 2 then .dim else .failed) ∧
      t.fld F.OP_INT_STATUS.LANE_DOWN p = 1 := by
  let moves := (s.lane p rx w).recent s.tm.now ++ [s.tm.now]
  let third := decide (3 ≤ moves.length)
  let u := s.setLane p rx w
    { s.lane p rx w with st := if third then .failed else .dim, since := s.tm.now, moves := moves, rot := false }
  have left : s.laneDown p rx w = ((u.setInt F.OP_INT_STATUS.LANE_DOWN p).sendCtrl p 0x04 (laneUnit rx w)).raise
      (if third then 0x3001 else 0x3002) 1 p (laneUnit rx w) := if_pos lit
  refine ⟨_, congrArg Host.Outcome.next left, ?_, ?_, ?_⟩
  · simp [u, State.sendCtrl]
  · simp only [State.sendCtrl, State.lane_raise, State.lane_emit, State.lane_setInt, u, State.lane_setLane, third, moves]
    by_cases few : ((s.lane p rx w).recent s.tm.now).length < 2
    · simp [few, show ¬ 2 ≤ ((s.lane p rx w).recent s.tm.now).length by omega]
    · simp [few, show 2 ≤ ((s.lane p rx w).recent s.tm.now).length by omega]
  · simp [State.sendCtrl]
    decide

theorem State.laneDark_lane (s : State) (p : Nat) (rx : Bool) (w : Nat) (light : Bool) :
    (s.laneDark p rx w light).lane p rx w = { (s.lane p rx w).darken with light := light } := by
  unfold State.laneDark
  dsimp only
  split <;> simp

theorem lightLost_darkens (works : (s.lane p rx w).st ≠ .failed) :
    ∃ t, exec (.lightLost p rx w) s = .next t ∧ (t.lane p rx w).st = .dark ∧ (t.lane p rx w).light = false ∧
      (t.lane p rx w).rot = false := by
  refine ⟨_, rfl, ?_⟩
  rw [State.laneDark_lane]
  simp [Lane.darken, works]
end

/-- Settles O15: a lane in use trains, locks, times out, leaves LIT, loses its light and enters or leaves the rotation. -/
theorem laneStates : Obligations.LaneStates := by
  intro s p rx w
  refine ⟨laneTrain_dims, fun rtt => laneLock_lights, lockTimeout_fails, laneDown_leaves, lightLost_darkens,
    fun cw lit => ⟨_, rfl, ?_, rfl⟩, ⟨_, rfl, ?_, ?_, rfl⟩⟩
  all_goals simp only [State.laneRotate, State.lane_setLane]
  · simp [lit]
  · rfl

end Sys2Proof.Machine
end

section
/-! SUPPORT. The flit layer of a port that has nothing to send (R344 to R347). -/

namespace Sys2Proof.Machine

/-! ## A port with nothing to send -/

theorem State.sendPort_empty {s : State} {p : Nat} (h : (s.port p).heldTx = []) (q : Nat) :
    (s.sendPort p).port q = s.port q := by
  unfold State.sendPort
  split
  · rw [h]
    show (s.setPort p (s.port p)).port q = s.port q
    by_cases e : q = p
    · subst e
      exact State.port_setPort s _ _
    · exact State.port_setPort_ne s _ _ _ e
  · rfl

/-- An acknowledgement and a replay are sent by the flit layer itself: they wait on no port. -/
theorem State.port_emit_ackFlit (s : State) (p n : Nat) (b : Bool) (q : Nat) : (s.emit (.ackFlit p n b)).port q = s.port q := rfl

section
variable {s : State} {p : Fin 24} (empty : (s.port p).heldTx = [])
include empty

theorem State.ackIn_port (a : Nat) :
    (s.ackIn p a).port p = { s.port p with retry := flitsAfter a (s.port p).retry } := by
  unfold State.ackIn
  rw [State.sendPort_empty (by rw [State.port_setPort]; exact empty), State.port_setPort]

theorem ack_ends (a : BitVec 12) :
    ∃ t, exec (.ack p a) s = .next t ∧ (t.port p).retry = flitsAfter a.toNat (s.port p).retry ∧
      t.hl.out = s.hl.out ∧ t.rg.fields = s.rg.fields := by
  refine ⟨_, rfl, by rw [State.ackIn_port empty], ?_, ?_⟩
  · unfold State.ackIn
    rw [State.sendPort_hl]
    rfl
  · unfold State.ackIn
    rw [State.sendPort_fields]
    rfl

theorem credit_adds (k : Fin 3) (n : Nat) :
    ∃ t, exec (.credit p k n) s = .next t ∧
      (t.port p).credits = (s.port p).credits.set k ((s.port p).credits.getD k 0 + n) ∧ t.hl.out = s.hl.out ∧
      t.rg.fields = s.rg.fields := by
  refine ⟨_, rfl, ?_, ?_, ?_⟩
  · unfold State.creditIn
    rw [State.sendPort_empty (by rw [State.port_setPort]; exact empty), State.port_setPort]
  · unfold State.creditIn
    rw [State.sendPort_hl]
    rfl
  · unfold State.creditIn
    rw [State.sendPort_fields]
    rfl
end

/-! ## NAK (R344) -/

/-- Flits sent again, in order. -/
def State.replayAll (s : State) (p : Nat) (l : List Flit) : State := l.foldl (fun s f => s.emit (.replay p f.seq)) s

theorem State.replayAll_out (s : State) (p : Nat) (l : List Flit) :
    (s.replayAll p l).hl.out = s.hl.out ++ l.map fun f => .replay p f.seq := by
  induction l generalizing s with
  | nil => simp [State.replayAll]
  | cons f l ih =>
    show ((s.emit _).replayAll p l).hl.out = _
    rw [ih, State.emit_out]
    simp

theorem State.replayAll_cnt (s : State) (p : Nat) (l : List Flit) (c : Cnt) (i : Nat) :
    (s.replayAll p l).cnt c i = s.cnt c i := by
  induction l generalizing s with
  | nil => rfl
  | cons f l ih =>
    show ((s.emit _).replayAll p l).cnt c i = _
    rw [ih, State.cnt_emit]

theorem State.replayAll_port (s : State) (p : Nat) (l : List Flit) (q : Nat) : (s.replayAll p l).port q = s.port q := by
  induction l generalizing s with
  | nil => rfl
  | cons f l ih =>
    show ((s.emit _).replayAll p l).port q = _
    rw [ih]
    rfl

theorem nak_replays {s : State} {p : Fin 24} (empty : (s.port p).heldTx = []) (a : BitVec 12) :
    ∃ t, exec (.nak p a) s = .next t ∧ (t.port p).retry = flitsAfter a.toNat (s.port p).retry ∧
      (∀ f ∈ flitsAfter a.toNat (s.port p).retry, .replay p.val f.seq ∈ t.hl.out) ∧
      t.cnt C.OP_CNT_REPLAY p = (s.cnt C.OP_CNT_REPLAY p + (flitsAfter a.toNat (s.port p).retry).length) % 2 ^ 64 := by
  let l := flitsAfter a.toNat (s.port p).retry
  have kept : ((s.ackIn p a.toNat).port p).retry = l := by rw [State.ackIn_port empty]
  have replayed : s.nakIn p a.toNat =
      (((s.ackIn p a.toNat).replayAll p l).addCnt C.OP_CNT_REPLAY l.length p).addSlot 0x30 p 1 (128 * l.length) := by
    rw [← kept]
    rfl
  refine ⟨_, congrArg Host.Outcome.next replayed, ?_, fun f hf => ?_, ?_⟩
  · simp only [State.port_addSlot, State.port_addCnt, State.replayAll_port]
    exact kept
  · show Out.replay p.val f.seq ∈ ((s.ackIn p a.toNat).replayAll p l).hl.out
    rw [State.replayAll_out]
    exact List.mem_append_right _ (List.mem_map_of_mem hf)
  · rw [State.cnt_addSlot, State.cnt_addCnt, State.replayAll_cnt]
    congr 2
    simp [State.ackIn]

/-! ## Flits received (R344 to R346) -/

section
variable {s : State} {p : Fin 24} {b : List Byte}

theorem flit_bad (up : s.fld F.OP_STATUS.UP p = 1) (whole : b.length = 128) (first : (s.port p).nakSent = false) :
    ∃ t, exec (.flit p b false) s = .next t ∧ .ackFlit p.val (((s.port p).rxNext + 4095) % 4096) true ∈ t.hl.out ∧
      (t.port p).rxNext = (s.port p).rxNext ∧ t.cnt C.OP_CNT_CRC p = (s.cnt C.OP_CNT_CRC p + 1) % 2 ^ 64 ∧
      t.rg.fields = s.rg.fields := by
  have dropped : s.flitIn p b false = ((s.addCnt C.OP_CNT_CRC 1 p).setPort p { s.port p with nakSent := true }).emit
      (.ackFlit p (((s.port p).rxNext + 4095) % 4096) true) := by
    simp [State.flitIn, up, whole, State.flitDrop, first]
  refine ⟨_, congrArg Host.Outcome.next dropped, ?_, ?_, ?_, ?_⟩
  · simp
  · rw [State.port_emit_ackFlit, State.port_setPort]
  · simp
  · simp

/-- Slots that are all zero name no link control message. -/
theorem State.ctrlIn_zeros (s : State) (p : Nat) {l : List W64} (h : ∀ w ∈ l, w = 0) :
    l.foldl (fun s w => s.ctrlIn p w) s = s := by
  induction l with
  | nil => rfl
  | cons w l ih =>
    rw [List.foldl_cons, h w (by simp)]
    exact ih fun x hx => h x (by simp [hx])

theorem flit_control (up : s.fld F.OP_STATUS.UP p = 1) (whole : b.length = 128)
    (sound : (crc32 (b.take 124)).toNat = field b 124 4) (hdr : field b 0 4 = (s.port p).rxNext + 2 * 2 ^ 12)
    (seq : (s.port p).rxNext < 4096) (zeros : ∀ i, i < 15 → field b (4 + 8 * i) 8 = 0) :
    ∃ t, exec (.flit p b true) s = .next t ∧ .ackFlit p.val (s.port p).rxNext false ∈ t.hl.out ∧
      (t.port p).rxNext = ((s.port p).rxNext + 1) % 4096 ∧ t.rg.fields = s.rg.fields := by
  let slots := (List.range 15).map fun i => BitVec.ofNat 64 (field b (4 + 8 * i) 8)
  let u := s.addSlot 0x30 p 0 128
  have quiet : s.flitAck p (field b 0 4) = s := by
    have nak : bit (field b 0 4) 29 = false := by
      unfold bit
      rw [hdr, decide_eq_false_iff_not]
      omega
    have ack : bit (field b 0 4) 28 = false := by
      unfold bit
      rw [hdr, decide_eq_false_iff_not]
      omega
    simp [State.flitAck, nak, ack]
  have typ : bits (field b 0 4) 15 12 = 2 := by
    rw [hdr]
    unfold bits
    omega
  have next : (field b 0 4 % 4096 + 4096 - (u.port p).rxNext) % 4096 = 0 := by
    rw [State.port_addSlot, hdr]
    omega
  have released : s.flitIn p b true = u.flitRelease p 2 slots := by
    unfold State.flitIn
    rw [if_neg (by rw [up, whole]; decide), if_neg (by simp [sound])]
    simp only [quiet, typ]
    rw [if_pos (.inr trivial), if_pos next]
  have acked : u.flitRelease p 2 slots = (u.setPort p { s.port p with rxNext := ((s.port p).rxNext + 1) % 4096, nakSent := false }).emit
      (.ackFlit p (s.port p).rxNext false) := by
    unfold State.flitRelease
    rw [if_neg (by decide), State.ctrlIn_zeros]
    · rfl
    · intro w hw
      obtain ⟨i, hi, rfl⟩ := List.mem_map.mp hw
      rw [zeros i (List.mem_range.mp hi)]
      rfl
  refine ⟨_, congrArg Host.Outcome.next (released.trans acked), ?_, ?_, ?_⟩
  · simp [u]
  · rw [State.port_emit_ackFlit, State.port_setPort]
  · simp [u]
end

/-- Settles O17: ACK and NAK end the keeping of flits, NAK replays the rest, CREDIT adds slots, a bad flit is answered by a
NAK and an in-order control flit by an ACK. -/
theorem flitLayer : Obligations.FlitLayer := by
  intro s p empty
  exact ⟨ack_ends empty, nak_replays empty, credit_adds empty, fun b => flit_bad, fun b => flit_control⟩

end Sys2Proof.Machine
end

section
/-! SUPPORT. What the engine's work leaves: the time, the boot unit, the errors detected so far, the ports but for what they
send, every register but those that work shows itself in, and of cores and clusters what takes them out of use. -/

-- The rules below are many and small: checked one after another they need few threads.
set_option Elab.async false

namespace Sys2Proof.Machine

/-- A map whose values are changed, looked up. -/
theorem look_map_snd {α : Type} {d : α} (g : α → α) (hg : g d = d) (m : SMap α) (k : Nat) :
    look d (m.map fun e => (e.1, g e.2)) k = g (look d m k) := by
  induction m with
  | nil => exact hg.symm
  | cons e r ih =>
    simp only [List.map_cons, look]
    split
    · rfl
    · exact ih

/-! ## The relation -/

/-- The fields of one page in which work shows itself: holds, edits, slices, the trace and the global stop. -/
def workFields : List Nat :=
  [F.WH_INT_STATUS.REDERIVE_START, F.WH_INT_STATUS.HOLD, F.WH_INT_STATUS.HISTORY_FULL, F.KVP_INT_STATUS.HOLD,
    F.KVP_INT_STATUS.LOW, F.KVP_INT_STATUS.EDIT_DONE, F.PDIE_WIN_CFG.DEPTH, F.SCHED_SLICE.US, F.STOP_STATUS.CAUSE,
    F.STOP_STATUS.PARTIAL, F.STOP_STATUS.REFUSED, F.STOP_STATUS.STATE, F.TRC_STATUS.FULL, F.TRC_STATUS.TRIGGERED,
    F.TRC_INT_STATUS.DROPPED, F.TRC_INT_STATUS.FULL, F.TRC_INT_STATUS.TRIGGER].map fun f => fieldKey f 0 0

/-- The place of a field in its page, whatever the page and the bank. -/
def fieldSlot (k : Nat) : Nat := k % 262144

/-- The fields in which work shows itself on the page of any cistern module or cluster. -/
def workSlots : List Nat :=
  [F.CIS_INT_STATUS.OFFLINE, F.CIS_OP_STATUS.BUSY, F.CIS_OP_STATUS.RESULT, F.CIS_INT_STATUS.OP_DONE,
    F.SEQ_STATUS.FENCED].map fun f => fieldSlot (fieldKey f 0 0)

/-- Is a field one in which work shows itself. -/
def workKey (k : Nat) : Bool := workFields.contains k || workSlots.contains (fieldSlot k)

theorem fieldSlot_fieldKey (f : Field) (i b : Nat) : fieldSlot (fieldKey f i b) = fieldSlot (fieldKey f 0 0) := by
  unfold fieldSlot fieldKey
  omega

theorem workKey_inst {f : Field} (h : workSlots.contains (fieldSlot (fieldKey f 0 0)) = true) (i b : Nat) :
    workKey (fieldKey f i b) = true := by
  rw [workKey, fieldSlot_fieldKey f i b, h, Bool.or_true]

/-- A core at work: not taken out of use or brought back, and placed only where it was. -/
structure Core.Working (x y : Core) : Prop where
  out : y.out = x.out
  place : x.place = none → y.place = none

/-- A cluster at work: not taken out of use or brought back, and with no layer more. -/
structure Cluster.Working (x y : Cluster) : Prop where
  removed : y.removed = x.removed
  lastUe : y.lastUe = x.lastUe
  droop : y.droopUntil = x.droopUntil
  layers : y.layers.length ≤ x.layers.length

theorem Core.Working.refl (x : Core) : x.Working x := ⟨rfl, id⟩
theorem Core.Working.trans {x y z : Core} (h : x.Working y) (h' : y.Working z) : x.Working z :=
  ⟨h'.out.trans h.out, fun e => h'.place (h.place e)⟩
theorem Core.Working.placed {x y : Core} {p : Place} (out : y.out = x.out) (h : x.place = some p) : x.Working y :=
  ⟨out, fun e => by rw [h] at e; cases e⟩
theorem Cluster.Working.refl (x : Cluster) : x.Working x := ⟨rfl, rfl, rfl, le_rfl⟩
theorem Cluster.Working.trans {x y z : Cluster} (h : x.Working y) (h' : y.Working z) : x.Working z :=
  ⟨h'.removed.trans h.removed, h'.lastUe.trans h.lastUe, h'.droop.trans h.droop, h'.layers.trans h.layers⟩

/-- From `s` to `t` the engine has worked, and nothing else has happened. -/
structure WorkKept (s t : State) : Prop where
  time : t.tm = s.tm
  boot : t.bt = s.bt
  errors : ∀ e ∈ s.er.collector, e ∈ t.er.collector
  ports : ∀ q, (s.port q).Sent (t.port q)
  fields : ∀ k, workKey k = false → ∀ d, look d t.rg.fields k = look d s.rg.fields k
  cores : ∀ k, (s.core k).Working (t.core k)
  clusters : ∀ k, (s.cluster k).Working (t.cluster k)
  resets : t.rs = s.rs
  held : t.st.held = s.st.held
  queues : ∀ q, (t.queue q).enabled = (s.queue q).enabled
  alarms : t.er.black = s.er.black ∧ t.er.hold = s.er.hold ∧ t.er.coolSince = s.er.coolSince ∧ t.er.blackLater = s.er.blackLater

namespace WorkKept

/-! The relation holds of a state and itself, and each rule below carries it over one more update of the later state. -/

theorem refl (s : State) : WorkKept s s :=
  ⟨rfl, rfl, fun _ h => h, fun _ => .refl _, fun _ _ _ => rfl, fun _ => .refl _, fun _ => .refl _, rfl, rfl, fun _ => rfl, rfl, rfl, rfl, rfl⟩

theorem trans {s t u : State} (h : WorkKept s t) (h' : WorkKept t u) : WorkKept s u :=
  ⟨h'.time.trans h.time, h'.boot.trans h.boot, fun e he => h'.errors e (h.errors e he), fun q => (h.ports q).trans (h'.ports q),
    fun k hk d => (h'.fields k hk d).trans (h.fields k hk d), fun k => (h.cores k).trans (h'.cores k),
    fun k => (h.clusters k).trans (h'.clusters k), h'.resets.trans h.resets, h'.held.trans h.held,
    fun q => (h'.queues q).trans (h.queues q), h'.alarms.1.trans h.alarms.1, h'.alarms.2.1.trans h.alarms.2.1,
    h'.alarms.2.2.1.trans h.alarms.2.2.1, h'.alarms.2.2.2.trans h.alarms.2.2.2⟩

variable {s t : State}

/-- An update of other parts of the state. -/
theorem same (h : WorkKept s t) {u : State} (time : u.tm = t.tm := by rfl) (boot : u.bt = t.bt := by rfl)
    (errors : u.er = t.er := by rfl) (ports : u.op = t.op := by rfl) (fields : u.rg.fields = t.rg.fields := by rfl)
    (cores : u.tl.cores = t.tl.cores := by rfl) (clusters : u.tl.clusters = t.tl.clusters := by rfl)
    (resets : u.rs = t.rs := by rfl) (held : u.st.held = t.st.held := by rfl) (queues : u.cq.queues = t.cq.queues := by rfl) :
    WorkKept s u := by
  refine h.trans ⟨time, boot, fun e he => errors ▸ he, fun q => ?_, fun k _ d => by rw [fields], fun k => ?_, fun k => ?_,
    resets, held, fun q => by rw [State.queue, queues]; rfl, by rw [errors], by rw [errors], by rw [errors], by rw [errors]⟩
  · have port : u.port q = t.port q := by rw [State.port, ports]; rfl
    rw [port]
    exact .refl _
  · have core : u.core k = t.core k := by rw [State.core, cores]; rfl
    rw [core]
    exact .refl _
  · have cluster : u.cluster k = t.cluster k := by rw [State.cluster, clusters]; rfl
    rw [cluster]
    exact .refl _

theorem setFld (h : WorkKept s t) {f : Field} {v inst bank : Nat}
    (hk : workKey (fieldKey f inst bank) = true := by decide) :
    WorkKept s (t.setFld f v inst bank) :=
  h.trans ⟨rfl, rfl, fun _ he => he, fun _ => .refl _, fun k hn d => look_put_other _ _ (fun e => by rw [e, hk] at hn; cases hn),
    fun _ => .refl _, fun _ => .refl _, rfl, rfl, fun _ => rfl, rfl, rfl, rfl, rfl⟩

theorem setCore (h : WorkKept s t) {n : Nat} {x : Core} (works : (t.core n).Working x := by exact ⟨rfl, id⟩) :
    WorkKept s (t.setCore n x) := by
  refine h.trans ⟨rfl, rfl, fun _ he => he, fun _ => .refl _, fun _ _ _ => rfl, fun k => ?_, fun _ => .refl _, rfl, rfl, fun _ => rfl, rfl, rfl, rfl, rfl⟩
  by_cases e : k = n
  · subst e
    rwa [State.core_setCore]
  · rw [State.core_setCore_ne _ _ _ _ e]
    exact .refl _

theorem setCluster (h : WorkKept s t) {n : Nat} {x : Cluster}
    (works : (t.cluster n).Working x := by exact ⟨rfl, rfl, rfl, le_rfl⟩) :
    WorkKept s (t.setCluster n x) := by
  refine h.trans ⟨rfl, rfl, fun _ he => he, fun _ => .refl _, fun _ _ _ => rfl, fun _ => .refl _, fun k => ?_, rfl, rfl, fun _ => rfl, rfl, rfl, rfl, rfl⟩
  by_cases e : k = n
  · subst e
    rwa [State.cluster_setCluster]
  · rw [State.cluster_setCluster_ne _ _ _ _ e]
    exact .refl _

theorem raise (h : WorkKept s t) {code sev inst unit ctx q cmd detail : Nat} :
    WorkKept s (t.raise code sev inst unit ctx q cmd detail) :=
  h.trans ⟨rfl, rfl, fun _ he => List.mem_append_left _ he, fun _ => .refl _, fun _ _ _ => rfl, fun _ => .refl _, fun _ => .refl _,
    rfl, rfl, fun _ => rfl, rfl, rfl, rfl, rfl⟩

theorem emit (h : WorkKept s t) {o : Out} : WorkKept s (t.emit o) := by
  refine h.trans ⟨State.emit_tm t o, State.emit_bt t o, fun e he => ?_, State.emit_sent t o, fun k _ d => ?_, fun k => ?_, fun k => ?_,
    State.emit_rs t o, by rw [State.emit_st], fun q => by rw [State.queue, State.emit_cq]; rfl,
    by rw [State.emit_er], by rw [State.emit_er], by rw [State.emit_er], by rw [State.emit_er]⟩
  · rw [State.emit_er]
    exact he
  · rw [State.emit_fields]
  · simp only [State.core, State.emit_tl]
    exact .refl _
  · simp only [State.cluster, State.emit_tl]
    exact .refl _

theorem either {c : Prop} [Decidable c] {a b : State} (ha : WorkKept s a) (hb : WorkKept s b) :
    WorkKept s (if c then a else b) := by
  split
  · exact ha
  · exact hb

theorem foldl (h : WorkKept s t) {α : Type} {f : State → α → State}
    (step : ∀ u x, WorkKept s u → WorkKept s (f u x)) {l : List α} : WorkKept s (l.foldl f t) := by
  induction l generalizing t with
  | nil => exact h
  | cons x r ih => exact ih (step t x h)

theorem setInt (h : WorkKept s t) {f : Field} {inst : Nat}
    (hk : workKey (fieldKey f inst 0) = true := by decide) :
    WorkKept s (t.setInt f inst) := by
  unfold State.setInt
  extract_lets _ u1
  have hu1 : WorkKept s u1 := h.setFld hk
  exact either hu1.emit.same hu1

theorem setModule (h : WorkKept s t) {n : Nat} {x : Module} : WorkKept s (t.setModule n x) := h.same

theorem addSlot (h : WorkKept s t) {cls inst n k : Nat} : WorkKept s (t.addSlot cls inst n k) := h.same

theorem cisOpDone (h : WorkKept s t) {m result : Nat} : WorkKept s (t.cisOpDone m result) :=
  ((h.setFld (workKey_inst (by decide) _ _)).setFld (workKey_inst (by decide) _ _)).setInt (workKey_inst (by decide) _ _)

theorem cisReq (h : WorkKept s t) {m : Nat} {what : CisFor} {o : Nat → Out} : WorkKept s (t.cisReq m what o) :=
  h.setModule.emit

theorem setCnt (h : WorkKept s t) {c : Cnt} {v inst bank : Nat} : WorkKept s (t.setCnt c v inst bank) := h.same

theorem addCnt (h : WorkKept s t) {c : Cnt} {n inst bank : Nat} : WorkKept s (t.addCnt c n inst bank) := h.setCnt

theorem recallLine (h : WorkKept s t) {line : Nat} {w : List RecallWait} : WorkKept s (t.recall line w) :=
  either h.same h.same.emit.addCnt

theorem pins (h : WorkKept s t) {a : Nat} {write : Bool} {n : Nat} : WorkKept s (t.pins a write n) := h.addSlot

theorem devPut (h : WorkKept s t) {a : Nat} {data : List Byte} : WorkKept s (t.devPut a data) :=
  h.same

theorem devWriteLine (h : WorkKept s t) {a : Nat} {data : List Byte} : WorkKept s (t.devWriteLine a data) :=
  either h.recallLine h.devPut

theorem devWrite (h : WorkKept s t) {a : Nat} {data : List Byte} : WorkKept s (t.devWrite a data) :=
  h.foldl fun _ _ hu => hu.devWriteLine

theorem traceStore (h : WorkKept s t) {r : TraceRec} : WorkKept s (t.traceStore r) := by
  refine t.traceStore_cases r _ h.addCnt.setInt h.setFld.setInt.addCnt.setInt (fun a n => ?_)
  have stored : WorkKept s (((t.devWrite a (r.bytes t.tm.now)).addCnt C.TRC_WR 32).addCnt C.TRC_CNT_RECORDS 1) :=
    h.devWrite.addCnt.addCnt
  exact stored.same

theorem traceOwed (h : WorkKept s t) : WorkKept s t.traceOwed := either h.traceStore.same h

theorem traceDrop (h : WorkKept s t) : WorkKept s t.traceDrop := by
  have shown : WorkKept s ((t.addCnt C.TRC_CNT_DROPPED 1).setInt F.TRC_INT_STATUS.DROPPED) := h.addCnt.setInt
  exact shown.same

theorem traceBudgeted (h : WorkKept s t) {r' : TraceRec} : WorkKept s (t.traceBudgeted r') := by
  unfold State.traceBudgeted
  extract_lets u1
  have hu1 : WorkKept s u1 := h.traceOwed
  exact either hu1.traceDrop hu1.traceStore

theorem takeStop (h : WorkKept s t) {cause : Nat} : WorkKept s (t.takeStop cause) := by
  unfold State.takeStop
  split
  · exact h.setFld
  · extract_lets u1 u2
    have hu1 : WorkKept s u1 := h.setFld.setFld.setFld
    have hu2 : WorkKept s u2 := hu1.setFld.setCnt
    exact hu2.same

theorem traceTrigger (h : WorkKept s t) {r' : TraceRec} : WorkKept s (t.traceTrigger r') := by
  unfold State.traceTrigger
  split
  · extract_lets u1
    have hu1 : WorkKept s u1 := h.setFld.setInt
    exact either hu1.takeStop hu1
  · exact h

theorem trace (h : WorkKept s t) {r' : TraceRec} : WorkKept s (t.trace r') := either h.traceTrigger.traceBudgeted h

theorem setCtx (h : WorkKept s t) {n : Nat} {x : Ctx} : WorkKept s (t.setCtx n x) := h.same

theorem ctxTo (h : WorkKept s t) {ctx : Nat} {st : CtxSt} : WorkKept s (t.ctxTo ctx st) := h.setCtx

theorem yieldEnds (h : WorkKept s t) {ctx : Nat} : WorkKept s (t.yieldEnds ctx) := by
  unfold State.yieldEnds
  extract_lets _ u1
  have hu1 : WorkKept s u1 := h.trace
  exact either (either hu1.ctxTo hu1.ctxTo) h

theorem ctxAbsent (h : WorkKept s t) {ctx : Nat} : WorkKept s (t.ctxAbsent ctx) := h.setCtx

theorem settle (h : WorkKept s t) {ctx : Nat} : WorkKept s (t.settle ctx) := by
  unfold State.settle
  extract_lets u1
  have hu1 : WorkKept s u1 := h.yieldEnds
  split
  · exact either hu1 hu1.ctxAbsent
  · split
    · exact either hu1.ctxTo hu1
    · exact either (either hu1.ctxTo hu1.ctxTo) hu1
    · exact either hu1 hu1.ctxTo
    · exact either hu1 hu1.ctxTo
    · exact hu1

theorem setCmd (h : WorkKept s t) {c : Cmd} : WorkKept s (t.setCmd c) := h.same

theorem cisRead (h : WorkKept s t) {m block : Nat} {what : CisFor} : WorkKept s (t.cisRead m block what) := h.cisReq

theorem commitNext (h : WorkKept s t) {c : Cmd} : WorkKept s (t.commitNext c) := by
  unfold State.commitNext
  split
  · exact h.setCmd.settle
  · split
    · exact h
    · extract_lets
      exact either h h.cisRead

theorem freeCore (h : WorkKept s t) {c : Nat} : WorkKept s (t.freeCore c) := h.setCore ⟨rfl, fun _ => rfl⟩

theorem setClk (h : WorkKept s t) {n : Nat} {x : Clk} : WorkKept s (t.setClk n x) := h.same

theorem idleNow (h : WorkKept s t) {cl : Nat} : WorkKept s (t.idleNow cl) := either h.setClk h

theorem mapClusters (h : WorkKept s t) {q seq : Nat} : WorkKept s { t with tl.clusters := t.tl.clusters.map (fun e =>
      (e.1, { e.2 with
        layers := e.2.layers.filter (fun l => !(l.q == q && l.seq == seq))
        owner := if e.2.owner = some (q, seq) then none else e.2.owner })) } := by
  refine h.trans ⟨rfl, rfl, fun _ he => he, fun _ => .refl _, fun _ _ _ => rfl, fun _ => .refl _, fun k => ?_, rfl, rfl, fun _ => rfl, rfl, rfl, rfl, rfl⟩
  unfold State.cluster
  dsimp only
  rw [look_map_snd (d := ({} : Cluster)) (fun x => { x with
    layers := x.layers.filter (fun l => !(l.q == q && l.seq == seq))
    owner := if x.owner = some (q, seq) then none else x.owner }) (by simp)]
  exact ⟨rfl, rfl, rfl, List.length_filter_le _ _⟩

theorem clearClusters (h : WorkKept s t) {q seq : Nat} : WorkKept s (t.clearClusters q seq) :=
  (h.mapClusters (q := q) (seq := seq)).foldl fun _ _ hu => hu.idleNow

theorem releaseWork (h : WorkKept s t) {q seq : Nat} : WorkKept s (t.releaseWork q seq) :=
  (h.foldl (fun _ _ hu => hu.freeCore)).clearClusters.same

theorem setPageCount (h : WorkKept s t) {p n : Nat} : WorkKept s (t.setPageCount p n) := h.same

theorem setObjCount (h : WorkKept s t) {o : Obj} {n : Nat} : WorkKept s (t.setObjCount o n) := by
  unfold State.setObjCount
  split
  · exact h.setPageCount
  · extract_lets
    exact h.same

theorem writePageRecord (h : WorkKept s t) {p : Nat} : WorkKept s (t.writePageRecord p) := h.devWrite

theorem unstage (h : WorkKept s t) {os : List Obj} : WorkKept s (t.unstage os) := by
  unfold State.unstage
  refine h.foldl fun u x hu => ?_
  split
  · extract_lets _ u1 u2
    have hu1 : WorkKept s u1 := hu.same
    have hu2 : WorkKept s u2 := either hu1.addCnt hu1
    exact hu2.writePageRecord
  · extract_lets
    exact hu.same

theorem hold (h : WorkKept s t) {tag : Nat} {o : Obj} : WorkKept s (t.hold tag o) := either h.same h.same

theorem applyRef (h : WorkKept s t) {u : RefUpd} : WorkKept s (t.applyRef u) := by
  unfold State.applyRef
  extract_lets _ _ u1
  have hu1 : WorkKept s u1 := h.setObjCount
  exact either hu1.hold hu1

theorem setSeq (h : WorkKept s t) {n : Nat} {q : Seq} : WorkKept s (t.setSeq n q) := h.same

theorem putSeq (h : WorkKept s t) {n : Nat} {q : Seq} : WorkKept s (t.putSeq n q) := h.setSeq.devWrite

theorem queueRef (h : WorkKept s t) {u : RefUpd} : WorkKept s (t.queueRef u) := h.same

theorem dropRefs (h : WorkKept s t) {tag : Nat} {os : List Obj} : WorkKept s (t.dropRefs tag os) :=
  h.foldl fun _ _ hu => hu.queueRef

theorem swapImage (h : WorkKept s t) {n : Nat} {q : Seq} {im : Image} {gone : List Nat} :
    WorkKept s (t.swapImage n q im gone) :=
  h.devWrite.putSeq.dropRefs

theorem nextEpoch (h : WorkKept s t) : WorkKept s t.nextEpoch := h.same.setCnt

theorem newImage (h : WorkKept s t) {n : Nat} {q : Seq} {im : Image} {gone : List Nat} :
    WorkKept s (t.newImage n q im gone) :=
  h.nextEpoch.swapImage

theorem sealTail (h : WorkKept s t) {n : Nat} : WorkKept s (t.sealTail n) := either h.newImage h

theorem endAppend (h : WorkKept s t) {c : Cmd} : WorkKept s (t.endAppend c) :=
  h.foldl fun _ _ hu => either hu.putSeq.sealTail hu

theorem unrelease (h : WorkKept s t) {os : List Obj} : WorkKept s (t.unrelease os) :=
  h.foldl fun _ _ hu => hu.applyRef.same

theorem discard (h : WorkKept s t) {c : Cmd} : WorkKept s (t.discard c) :=
  have unstaged := (h.releaseWork.foldl fun _ _ hu => hu.setObjCount).unstage
  (unstaged.foldl fun _ _ hu => hu.applyRef).unrelease.endAppend.addCnt.setCnt.setCmd

theorem disengage (h : WorkKept s t) {c : Cmd} : WorkKept s (t.disengage c) := h.same

theorem unlockGroups (h : WorkKept s t) {q seq : Nat} : WorkKept s (t.unlockGroups q seq) := h.same

theorem draw (h : WorkKept s t) : WorkKept s t.draw.2 := h.same

theorem dropCmd (h : WorkKept s t) {q seq : Nat} : WorkKept s (t.dropCmd q seq) := h.same

theorem setQueue (h : WorkKept s t) {q : Nat} {x : Queue} (on : x.enabled = (t.queue q).enabled := by rfl) :
    WorkKept s (t.setQueue q x) := by
  refine h.trans ⟨rfl, rfl, fun _ he => he, fun _ => .refl _, fun _ _ _ => rfl, fun _ => .refl _, fun _ => .refl _, rfl, rfl, fun k => ?_, rfl, rfl, rfl, rfl⟩
  by_cases e : k = q
  · subst e
    rw [State.queue_setQueue]
    exact on
  · rw [State.queue_setQueue_ne _ _ _ _ e]

theorem hwr1 (h : WorkKept s t) {what : HwrFor} {p : Nat × List Byte} : WorkKept s (t.hwr1 what p) :=
  h.same.emit.addSlot

theorem hwr (h : WorkKept s t) {addr : Nat} {data : List Byte} {what : HwrFor} : WorkKept s (t.hwr addr data what) :=
  h.foldl fun _ _ hu => hu.hwr1

theorem pumpQueue (h : WorkKept s t) {n : Nat} : WorkKept s (t.pumpQueue n) := by
  unfold State.pumpQueue
  extract_lets _ u1
  have hu1 : WorkKept s u1 := h.setQueue
  split
  · exact h
  · split
    · exact h
    · exact hu1.hwr

theorem due (h : WorkKept s t) {n : Nat} {d : Done} : WorkKept s (t.due n d) := h.setQueue.pumpQueue

theorem complete (h : WorkKept s t) {c : Cmd} {status result : Nat} : WorkKept s (t.complete c status result) := by
  unfold State.complete
  extract_lets u1 _ u2 u3 u4 u5 u6 u7
  have hu1 : WorkKept s u1 := h.releaseWork.unlockGroups
  have hu2 : WorkKept s u2 := hu1.draw
  have hu3 : WorkKept s u3 := hu2.dropCmd
  have hu4 : WorkKept s u4 := either hu3.addCnt.addCnt hu3.addCnt
  have hu5 : WorkKept s u5 := either hu4.addCnt hu4
  have hu6 : WorkKept s u6 := hu5.trace
  have hu7 : WorkKept s u7 := hu6.due
  exact hu7.settle

theorem noEffect (h : WorkKept s t) {c : Cmd} {status : Nat} : WorkKept s (t.noEffect c status) := by
  unfold State.noEffect
  extract_lets _ u1
  have hu1 : WorkKept s u1 := h.disengage.discard
  split
  · exact hu1.complete
  · exact hu1

theorem lostInput (h : WorkKept s t) {c : Cmd} : WorkKept s (t.lostInput c) := h.raise.noEffect

theorem countRead (h : WorkKept s t) {home a n : Nat} : WorkKept s (t.countRead home a n) := by
  unfold State.countRead
  split
  · exact h.pins
  · exact h.addSlot
  · exact h

theorem homeWrite (h : WorkKept s t) {home a : Nat} {data : List Byte} : WorkKept s (t.homeWrite home a data) := by
  unfold State.homeWrite
  split
  · exact h.devWrite
  · exact h.same
  · exact h

theorem outputsDone (h : WorkKept s t) {c : Cmd} : WorkKept s (t.outputsDone c) := h.setCmd.commitNext

theorem applyField (h : WorkKept s t) {f : Field} {inst bank : Nat}
    (hk : workKey (fieldKey f inst bank) = true := by decide) : WorkKept s (t.applyField f inst bank) := by
  unfold State.applyField
  split
  · exact h
  · extract_lets u1
    have hu1 : WorkKept s u1 := h.setFld hk
    exact hu1.same

theorem setGroup (h : WorkKept s t) {g : Nat} {x : Group} : WorkKept s (t.setGroup g x) := h.same

theorem remadeAt (h : WorkKept s t) {r' : Nat × Nat × Nat} : WorkKept s (t.remadeAt r') := either h.same h.same

theorem remade (h : WorkKept s t) {v : Ver} : WorkKept s (t.remade v) := h.remadeAt

theorem loseVer (h : WorkKept s t) {hit : Nat → Nat → Bool} {v : Ver} : WorkKept s (t.loseVer hit v) :=
  either (either h.remade.addCnt h.remade) h.same.raise

theorem rerun (h : WorkKept s t) {q seq : Nat} : WorkKept s (t.rerun q seq) := by
  unfold State.rerun
  split
  · exact h.discard.settle
  · exact h

theorem dropReads (h : WorkKept s t) {core : Nat} : WorkKept s (t.dropReads core) := h.same

theorem setCounter (h : WorkKept s t) {n : Nat} {x : Counter} : WorkKept s (t.setCounter n x) := h.same

theorem raiseGauges (h : WorkKept s t) {l : SeqLayer} {job gen : Nat} {ks : List Nat} :
    WorkKept s (t.raiseGauges l job gen ks) := by
  unfold State.raiseGauges
  split
  · exact h
  · split
    · exact h
    · extract_lets
      split
      · exact h
      · refine h.foldl fun u x hu => ?_
        extract_lets
        exact hu.same

theorem requestWindow (h : WorkKept s t) {c : Cmd} {l : Layer} : WorkKept s (t.requestWindow c l) := either h h.same

theorem requestNext (h : WorkKept s t) {c : Cmd} : WorkKept s (t.requestNext c) := by
  unfold State.requestNext
  split
  · exact h.requestWindow
  · exact h

theorem layersEnd (h : WorkKept s t) {q seq : Nat} : WorkKept s (t.layersEnd q seq) := by
  unfold State.layersEnd
  split
  · exact h
  · split
    · exact h
    · extract_lets _ _ u1 u2
      have hu1 : WorkKept s u1 := h.setCmd
      have hu2 : WorkKept s u2 := hu1.foldl fun _ _ hu => hu.requestNext
      exact either hu2.outputsDone hu2.settle

theorem holdCmd (h : WorkKept s t) {c : Cmd} {x : Hold} : WorkKept s (t.holdCmd c x) := by
  unfold State.holdCmd
  extract_lets _ u1 u2 u3
  have hu1 : WorkKept s u1 := h.setCmd
  have hu2 : WorkKept s u2 := hu1.trace
  have hu3 : WorkKept s u3 := either hu1 (either (either hu2.setInt hu2.setInt.raise) hu2)
  exact hu3.settle

theorem cisOffline (h : WorkKept s t) {m : Nat} : WorkKept s (t.cisOffline m) := by
  unfold State.cisOffline
  extract_lets _ _ u1 u2 u3
  have hu1 : WorkKept s u1 := h.setModule.setInt (workKey_inst (by decide) _ _)
  have hu2 : WorkKept s u2 := hu1.raise
  have hu3 : WorkKept s u3 := either hu2.cisOpDone hu2
  split
  · exact h
  · refine hu3.foldl fun u x hu => ?_
    split
    · split
      · exact hu.discard.holdCmd
      · exact hu
    · exact hu

theorem issueWords (h : WorkKept s t) {core : Nat} {ws : List QWord} : WorkKept s (t.issueWords core ws) :=
  h.setCore.addCnt

theorem discardFenced (h : WorkKept s t) {p : Nat} {cl : Option Nat} : WorkKept s (t.discardFenced p cl) := by
  unfold State.discardFenced
  extract_lets u1
  have hu1 : WorkKept s u1 := h.addCnt.raise
  split
  · exact hu1.setFld (workKey_inst (by decide) _ _)
  · exact hu1

theorem tensorWrite (h : WorkKept s t) {c : Cmd} {cl : Nat} {u : DescUse} {off : Nat} {data : List Byte} :
    WorkKept s (t.tensorWrite c cl u off data) := by
  unfold State.tensorWrite
  extract_lets
  split
  · exact h.setCluster.addSlot
  · split
    · exact h.setCmd
    · exact h
  · exact h.homeWrite

theorem itemWrite (h : WorkKept s t) {c : Cmd} {core : Nat} {u : DescUse} {off : Nat} {data : List Byte} :
    WorkKept s (t.itemWrite c core u off data) :=
  either h.discardFenced h.tensorWrite

theorem elemWrite (h : WorkKept s t) {c : Cmd} {core : Nat} {u : DescUse} {off w v : Nat} :
    WorkKept s (t.elemWrite c core u off w v) :=
  either h.itemWrite h.itemWrite

theorem storeTile (h : WorkKept s t) {c : Cmd} {core : Nat} {x : List Byte} {u : DescUse} {d : Desc}
    {base stride ch x' y n : Nat} :
    WorkKept s (t.storeTile c core x u d base stride ch x' y n) := by
  unfold State.storeTile
  extract_lets
  refine h.foldl fun u x hu => ?_
  split
  · exact hu
  · extract_lets
    exact hu.elemWrite

theorem storePiece (h : WorkKept s t) {r' : ItemRun} {core base : Nat} {x : Config.Piece} :
    WorkKept s (t.storePiece r' core base x) := by
  unfold State.storePiece
  extract_lets _ _ u1
  have hu1 : WorkKept s u1 := h.addSlot
  split
  · exact either hu1.itemWrite hu1
  · exact either (either hu1.discardFenced hu1.homeWrite) hu1

theorem storeFill (h : WorkKept s t) {r' : ItemRun} {core i fill upto : Nat} :
    WorkKept s (t.storeFill r' core i fill upto) := by
  unfold State.storeFill
  split
  · exact h
  · extract_lets
    split
    · exact h.foldl fun _ _ hu => hu.storeTile
    · exact h.foldl (fun _ _ hu => hu.foldl (fun _ _ hu => hu.storePiece))

theorem pumpOut (h : WorkKept s t) {core : Nat} {d : Nat × Nat} : WorkKept s (t.pumpOut core d) := by
  unfold State.pumpOut
  split
  · next hp =>
    split
    · extract_lets
      refine storeFill (setCore h ?_)
      exact .placed rfl hp
    · exact h
  · exact h

theorem fillCore (h : WorkKept s t) {core dest : Nat} {data : List Byte} : WorkKept s (t.fillCore core dest data) :=
  h.setCore.addSlot

theorem fillMask (h : WorkKept s t) {r' : ItemRun} {core b : Nat} {g : KeyPage} :
    WorkKept s (t.fillMask r' core b g) := by
  unfold State.fillMask
  split
  · extract_lets
    exact h.fillCore.fillCore
  · exact h

theorem fillPage (h : WorkKept s t) {r' : ItemRun} {core dest : Nat} {g : KeyPage} :
    WorkKept s (t.fillPage r' core dest g) :=
  (either h.countRead h).fillCore

theorem setStack (h : WorkKept s t) {n : Nat} {x : Stack} : WorkKept s (t.setStack n x) := h.same

theorem putSeqLayer (h : WorkKept s t) {cl : Nat} {l : SeqLayer} : WorkKept s (t.putSeqLayer cl l) :=
  h.setCluster ⟨rfl, rfl, rfl, (List.length_map _).le⟩

theorem beginJob (h : WorkKept s t) {c : Cmd} {l : Layer} {p : Plan} {cl : Nat} {sl : SeqLayer} {j : Job}
    {rest : List Job} :
    WorkKept s (t.beginJob c l p cl sl j rest) := by
  unfold State.beginJob
  extract_lets _ _ _ _ _ _ _ u1
  have hu1 : WorkKept s u1 := h.putSeqLayer
  exact hu1.same.addCnt

theorem wake (h : WorkKept s t) {cl : Nat} : WorkKept s (t.wake cl) := either h.setClk h

theorem startSlice (h : WorkKept s t) {ctx : Nat} : WorkKept s (t.startSlice ctx) := h.applyField.setCtx

theorem ctxRuns (h : WorkKept s t) {ctx : Nat} : WorkKept s (t.ctxRuns ctx) := either h.ctxTo.startSlice h

theorem placedTrace (h : WorkKept s t) {c : Cmd} {ord : Nat} : WorkKept s (t.placedTrace c ord) := by
  unfold State.placedTrace
  split
  · exact h
  · split
    · exact h
    · extract_lets _ _ u1
      have hu1 : WorkKept s u1 := either h.trace h
      exact either h hu1.trace

theorem waitRederive (h : WorkKept s t) {c : Cmd} : WorkKept s (t.waitRederive c) := by
  unfold State.waitRederive
  extract_lets u1
  have hu1 : WorkKept s u1 := h.discard
  split
  · exact hu1.holdCmd
  · exact hu1

theorem loseCmds (h : WorkKept s t) {hit : Nat → Nat → Bool} : WorkKept s (t.loseCmds hit) :=
  h.foldl fun _ _ hu => either hu.waitRederive (either hu.discard hu)

theorem lose (h : WorkKept s t) {hit : Nat → Nat → Bool} : WorkKept s (t.lose hit) :=
  (h.foldl (fun _ _ hu => hu.loseVer)).loseCmds

theorem groupLost (h : WorkKept s t) {g : Nat} : WorkKept s (t.groupLost g) := by
  unfold State.groupLost
  extract_lets _ u1 _ u2
  have hu1 : WorkKept s u1 := by
    unfold u1
    split
    · split
      · exact either h.waitRederive h
      · exact h
    · exact h
  have hu2 : WorkKept s u2 := hu1.setGroup
  exact hu2.setInt.raise

theorem groupsLost (h : WorkKept s t) {hit : Nat → Nat → Bool} : WorkKept s (t.groupsLost hit) :=
  h.foldl fun _ _ hu => either hu.groupLost hu

theorem addFence (h : WorkKept s t) {q seq counter job mask gen : Nat} {reclaim : Bool} {u : State}
    (e : t.addFence q seq counter job mask gen reclaim = some u) : WorkKept s u := by
  unfold State.addFence at e
  dsimp only at e
  split at e
  · cases e
  · cases e
    have fenced (l : List Fence) : WorkKept s { t with tl.fences := l } := h.same
    exact either (fenced _).setCounter (fenced _)

theorem reclaim (h : WorkKept s t) {l : SeqLayer} {j : Job} : WorkKept s (t.reclaim l j) := by
  unfold State.reclaim
  extract_lets
  split
  · exact h
  · split
    · exact h.rerun
    · rename_i _ u4_2 e4_3
      have hu4_2 := h.addFence e4_3
      exact hu4_2.raiseGauges

theorem dropSaved (h : WorkKept s t) {cl : Nat} : WorkKept s (t.dropSaved cl) :=
  h.same.foldl (fun _ _ hu => hu.foldl (fun _ _ hu => hu.reclaim))

theorem askUnits (h : WorkKept s t) {core a dest fuel len : Nat} {u1 : Bool} :
    WorkKept s (t.askUnits core a dest u1 fuel len) := by
  induction fuel generalizing t a dest len with
  | zero => exact h
  | succ fuel ih => exact either h (ih h.setStack)

theorem fetchDev (h : WorkKept s t) {core a len dest : Nat} {u1 : Bool} : WorkKept s (t.fetchDev core a len dest u1) :=
  h.askUnits

theorem fetch (h : WorkKept s t) {c : Cmd} {core : Nat} {u : DescUse} {off len dest : Nat} {u1 : Bool} :
    WorkKept s (t.fetch c core u off len dest u1) :=
  either h.fetchDev ((either h.countRead (either h.addSlot h)).fillCore)

theorem fetchPiece (h : WorkKept s t) {r' : ItemRun} {core base : Nat} {origin : List Nat} {x : Config.Piece} :
    WorkKept s (t.fetchPiece r' core base origin x) := by
  unfold State.fetchPiece
  extract_lets
  split
  · exact h.fillCore
  · exact either h.addSlot.fillCore h.fetch
  · exact either h.addSlot.fillCore h.fetchDev
  · exact h

theorem giveBack (h : WorkKept s t) {cl : Nat} {sl : SeqLayer} : WorkKept s (t.giveBack cl sl) := by
  unfold State.giveBack
  extract_lets u1
  have hu1 : WorkKept s u1 := h.foldl fun _ _ hu => hu.reclaim
  exact either (hu1.setCluster ⟨rfl, rfl, rfl, List.length_filter_le _ _⟩) hu1.putSeqLayer

theorem fetchSpans (h : WorkKept s t) {c : Cmd} {core : Nat} {u : DescUse} {u1 : Bool} {dest : Nat} {l : List Span} :
    WorkKept s (t.fetchSpans c core u u1 dest l) := by
  induction l generalizing t dest with
  | nil => exact h
  | cons x r ih => exact ih (either h.fetch h.fillCore)

theorem issueFill (h : WorkKept s t) {r : ItemRun} {core i fill : Nat} : WorkKept s (t.issueFill r core i fill) := by
  unfold State.issueFill
  refine either h.lostInput (either ?_ ?_)
  · split
    · exact h.fillMask
    · exact h
  · split
    · exact h
    · refine either ?_ ?_
      · split
        · exact either h.lostInput h.fillPage
        · exact h
      · split
        · exact h.foldl fun _ _ hu => hu.fetchSpans
        · exact h.foldl fun _ _ hu => hu.foldl fun _ _ hv => hv.fetchPiece

theorem pumpIn (h : WorkKept s t) {core : Nat} {d : Nat × Nat} : WorkKept s (t.pumpIn core d) := by
  unfold State.pumpIn
  split
  · next hp =>
    split
    · extract_lets
      refine issueFill (setCore h ?_)
      exact .placed rfl hp
    · exact h
  · exact h

theorem pump (h : WorkKept s t) {core : Nat} : WorkKept s (t.pump core) := by
  unfold State.pump
  split
  · exact h
  · exact h
  · extract_lets u1
    have hu1 : WorkKept s u1 := h.foldl fun _ _ hu => hu.pumpOut
    exact hu1.foldl fun _ _ hu => hu.pumpIn

theorem beginItem (h : WorkKept s t) {r' : ItemRun} {core job gen : Nat} :
    WorkKept s (t.beginItem r' core job gen) := by
  unfold State.beginItem
  split
  · exact h
  · next hp =>
    extract_lets _ _ _ _ _ u1 u2
    have hu1 : WorkKept s u1 := by
      refine issueWords (setCore h ?_)
      exact .placed rfl hp
    have hu2 : WorkKept s u2 := hu1.addCnt
    exact hu2.pump

theorem startItem (h : WorkKept s t) {c : Cmd} {l : Layer} {p : Plan} {sl : SeqLayer} {j : Job} {core k : Nat} :
    WorkKept s (t.startItem c l p sl j core k) := by
  unfold State.startItem
  split
  · exact h
  · exact h.beginItem

theorem dealItems (h : WorkKept s t) {c : Cmd} {l : Layer} {p : Plan} {cl : Nat} :
    WorkKept s (t.dealItems c l p cl) := by
  unfold State.dealItems
  split
  · exact h
  · refine h.foldl fun u x hu => ?_
    split
    · split
      · exact hu
      · split
        · exact hu
        · split
          · exact hu.putSeqLayer.startItem
          · exact either hu.issueWords hu
    · exact hu

theorem goOn (h : WorkKept s t) {cl q seq layer fuel : Nat} : WorkKept s (t.goOn cl q seq layer fuel) := by
  induction fuel generalizing t with
  | zero => exact h
  | succ fuel ih =>
    unfold State.goOn
    split
    · split
      · exact h
      · refine either h ?_
        split
        · exact h.dealItems
        · exact ih h.beginJob
        · exact either (ih h.putSeqLayer) h.dealItems
    · exact h

theorem goOnHere (h : WorkKept s t) {cl q seq layer : Nat} : WorkKept s (t.goOnHere cl q seq layer) := h.goOn

theorem redeal (h : WorkKept s t) {core : Nat} {keep : Bool} : WorkKept s (t.redeal core keep) := by
  unfold State.redeal
  dsimp only
  split
  · exact h
  · next pl hp =>
    have freed : WorkKept s (if keep then t.setCore core { (t.core core).freed with
        place := some { pl with item := none, due := [], outs := [] } } else t.freeCore core) :=
      either (setCore h (.placed rfl hp)) h.freeCore
    generalize (if keep then t.setCore core { (t.core core).freed with
        place := some { pl with item := none, due := [], outs := [] } } else t.freeCore core) = u at freed ⊢
    split
    · exact freed
    · split
      · exact either freed.giveBack freed
      · refine either (either freed.giveBack freed) (either freed.giveBack ?_)
        split
        · exact freed.rerun
        · next v e => exact (freed.addFence e).putSeqLayer.raiseGauges.goOnHere

end WorkKept

end Sys2Proof.Machine
end

section
/-! SUPPORT. The failure of a port and the hand-over of its slots, the loss of light and of the link
(R20, R336, R337, R361, R367). -/

namespace Sys2Proof.Machine

/-! ## Fields of other pages -/

theorem fieldKey_ne {f g : Field} (h : fieldSlot (fieldKey g 0 0) ≠ fieldSlot (fieldKey f 0 0)) (i b j c : Nat) :
    fieldKey g j c ≠ fieldKey f i b := fun e =>
  h (by rw [← fieldSlot_fieldKey g j c, e, fieldSlot_fieldKey])

/-- A field at another place of its page reads as before, whatever the page. -/
theorem State.fld_setFld_slot (s : State) {f g : Field} (h : fieldSlot (fieldKey g 0 0) ≠ fieldSlot (fieldKey f 0 0))
    (v i b j c : Nat) : (s.setFld f v i b).fld g j c = s.fld g j c :=
  State.fld_setFld_ne _ _ _ _ _ _ _ _ (fieldKey_ne h _ _ _ _)

theorem State.fld_setInt_slot (s : State) {f g : Field} (h : fieldSlot (fieldKey g 0 0) ≠ fieldSlot (fieldKey f 0 0))
    (i j c : Nat) : (s.setInt f i).fld g j c = s.fld g j c := by
  rw [← s.fld_setFld_slot h 1 i 0]
  simp only [State.fld, State.setInt_fields]

/-- The same field of another page reads as before. -/
theorem State.fld_setFld_inst (s : State) (f : Field) (v : Nat) {i j : Nat} (h : j ≠ i) :
    (s.setFld f v i).fld f j = s.fld f j :=
  State.fld_setFld_ne _ _ _ _ _ _ _ _ (by rw [fieldKey_inst f j, fieldKey_inst f i]; omega)

/-- A field in which work does not show itself on any page. -/
theorem workKey_false {f : Field} (slot : workSlots.contains (fieldSlot (fieldKey f 0 0)) = false)
    (page : ∀ g ∈ workFields, g < fieldKey f 0 0 ∨ fieldSlot g ≠ fieldSlot (fieldKey f 0 0)) (i b : Nat) :
    workKey (fieldKey f i b) = false := by
  have other : fieldKey f i b ∉ workFields := by
    intro h
    obtain below | apart := page _ h
    · unfold fieldKey at below
      omega
    · exact apart (fieldSlot_fieldKey f i b)
  rw [workKey, fieldSlot_fieldKey f i b, slot, Bool.or_false]
  simpa using other

/-! ## Lanes of a port -/

theorem State.lane_setLane_ne (s : State) {p q w v : Nat} {rx ry : Bool} (l : Lane) (h : ¬ (q = p ∧ ry = rx ∧ v = w)) :
    (s.setLane p rx w l).lane q ry v = s.lane q ry v := by
  unfold State.setLane State.lane
  by_cases e : q = p
  · subst e
    rw [State.port_setPort]
    unfold Port.setLane Port.lane
    cases rx <;> cases ry <;> simp only [Bool.false_eq_true, if_true, if_false]
    all_goals exact look_put_ne _ _ _ (by simpa using h)
  · rw [State.port_setPort_ne _ _ _ _ e]

theorem State.lane_setPort_kept (s : State) {p : Nat} {x : Port} (tx : x.tx = (s.port p).tx) (rx : x.rx = (s.port p).rx)
    (q : Nat) (b : Bool) (w : Nat) : (s.setPort p x).lane q b w = s.lane q b w := by
  unfold State.lane Port.lane
  by_cases e : q = p
  · subst e
    rw [State.port_setPort, tx, rx]
  · rw [State.port_setPort_ne _ _ _ _ e]

@[simp] theorem State.lane_setFld (s : State) (f : Field) (v i b p : Nat) (rx : Bool) (w : Nat) :
    (s.setFld f v i b).lane p rx w = s.lane p rx w := rfl
@[simp] theorem State.lane_addCnt (s : State) (c : Cnt) (v i b p : Nat) (rx : Bool) (w : Nat) :
    (s.addCnt c v i b).lane p rx w = s.lane p rx w := rfl

/-! ## The failure of a port (R361, R367) -/

/-- From `s` to `t` no time has passed, no lane has changed and no error detected is lost. -/
structure LightKept (s t : State) : Prop where
  time : t.tm = s.tm
  lanes : ∀ p rx w, t.lane p rx w = s.lane p rx w
  errors : ∀ e ∈ s.er.collector, e ∈ t.er.collector

theorem LightKept.refl (s : State) : LightKept s s := ⟨rfl, fun _ _ _ => rfl, fun _ h => h⟩

theorem LightKept.trans {s t u : State} (h : LightKept s t) (h' : LightKept t u) : LightKept s u :=
  ⟨h'.time.trans h.time, fun p rx w => (h'.lanes p rx w).trans (h.lanes p rx w), fun e he => h'.errors e (h.errors e he)⟩

theorem WorkKept.light {s t : State} (h : WorkKept s t) : LightKept s t :=
  ⟨h.time, fun p rx w => (h.ports p).kept.lane rx w, h.errors⟩

/-- A field in which work does not show itself. -/
theorem WorkKept.fld {s t : State} (h : WorkKept s t) {f : Field} {i b : Nat} (hk : workKey (fieldKey f i b) = false) :
    t.fld f i b = s.fld f i b := h.fields _ hk _

theorem Raised.mono {s t u : State} {code sev inst : Nat} (h : Raised s t code sev inst)
    (kept : ∀ e ∈ t.er.collector, e ∈ u.er.collector) : Raised s u code sev inst := by
  obtain ⟨e, he, rest⟩ := h
  exact ⟨e, kept e he, rest⟩

/-- The start of a hand-over leaves the lanes and tells the partner. -/
theorem State.handoverStart_light (s : State) (p live : Nat) : LightKept s (s.handoverStart p live) := by
  refine ⟨?_, fun q rx w => ?_, fun e he => ?_⟩
  · simp [State.handoverStart, State.sendCtrl]
  · rw [State.handoverStart, State.sendCtrl, State.lane_emit, State.lane_setFld]
    refine State.lane_setPort_kept s ?_ ?_ q rx w <;> rfl
  · rw [State.handoverStart, State.sendCtrl, State.emit_er]
    exact he

theorem State.handoverStart_er (s : State) (p live : Nat) : (s.handoverStart p live).er = s.er := by
  rw [State.handoverStart, State.sendCtrl, State.emit_er]
  rfl

theorem State.handoverStart_fld (s : State) (p live : Nat) {f : Field} {i : Nat}
    (h : fieldKey f i 0 ≠ fieldKey F.HL_STATUS.HANDOVER 0 0) : (s.handoverStart p live).fld f i = s.fld f i := by
  rw [State.handoverStart, State.sendCtrl, State.fld_emit, State.fld_setFld_ne _ _ _ _ _ _ _ _ h]
  rfl

theorem State.handoverStart_shown (s : State) (p live : Nat) : (s.handoverStart p live).fld F.HL_STATUS.HANDOVER = 1 := by
  rw [State.handoverStart, State.sendCtrl, State.fld_emit, State.fld_setFld]
  rfl

theorem State.handoverStart_handing (s : State) (p live : Nat) : ((s.handoverStart p live).port p).handing = true := by
  rw [State.handoverStart, State.sendCtrl, ((State.emit_sent _ _ p).kept).handing, State.port_setFld, State.port_setPort]

theorem State.linkDark_light (s : State) : LightKept s s.linkDark := by
  unfold State.linkDark
  split
  · exact .refl s
  · exact ⟨rfl, fun _ _ _ => rfl, fun e he => List.mem_append_left _ he⟩

theorem State.linkDark_fields (s : State) : s.linkDark.rg.fields = s.rg.fields := by
  unfold State.linkDark
  split <;> rfl

/-- The port as it is first shown failed. -/
def State.portDownShown (s : State) (p : Nat) : State :=
  (((s.setFld F.OP_STATUS.UP 0 p).setFld F.OP_STATUS.FAILED 1 p).setInt F.OP_INT_STATUS.PORT_DOWN p).raise 0x3003 1 p

section
variable (s : State) (p : Nat)

theorem State.portDownShown_light : LightKept s (s.portDownShown p) := by
  refine ⟨?_, fun q rx w => ?_, fun e he => ?_⟩
  · simp [State.portDownShown]
  · simp [State.portDownShown]
  · refine List.mem_append_left _ ?_
    rw [State.setInt_er]
    exact he

theorem State.portDownShown_raised : Raised s (s.portDownShown p) 0x3003 1 p := by
  obtain ⟨e, he, code, sev, inst, time⟩ := State.raise_raised
    (((s.setFld F.OP_STATUS.UP 0 p).setFld F.OP_STATUS.FAILED 1 p).setInt F.OP_INT_STATUS.PORT_DOWN p) 0x3003 1 p 0 0xFFFF 0xFFFF 0 0
  exact ⟨e, he, code, sev, inst, time.trans (by rw [State.setInt_tm]; rfl)⟩

theorem State.portDownShown_up (q : Nat) :
    (s.portDownShown p).fld F.OP_STATUS.UP q = if q = p then 0 else s.fld F.OP_STATUS.UP q := by
  rw [State.portDownShown, State.fld_raise, State.fld_setInt_slot _ (by decide), State.fld_setFld_slot _ (by decide)]
  split
  · next e => rw [e, State.fld_setFld]; rfl
  · next e => rw [State.fld_setFld_inst _ _ _ e]

theorem State.portDownShown_failed (q : Nat) :
    (s.portDownShown p).fld F.OP_STATUS.FAILED q = if q = p then 1 else s.fld F.OP_STATUS.FAILED q := by
  rw [State.portDownShown, State.fld_raise, State.fld_setInt_slot _ (by decide)]
  split
  · next e => rw [e, State.fld_setFld]; rfl
  · next e => rw [State.fld_setFld_inst _ _ _ e, State.fld_setFld_slot _ (by decide)]
end

/-- What the failure of a port leaves: nothing of a lane, an error or the time. Its page shows it failed. -/
structure PortFailed (s t : State) (p : Nat) : Prop where
  light : LightKept s t
  up : ∀ q, q < 24 → t.fld F.OP_STATUS.UP q = if q = p then 0 else s.fld F.OP_STATUS.UP q
  failed : ∀ q, q < 24 → t.fld F.OP_STATUS.FAILED q = if q = p then 1 else s.fld F.OP_STATUS.FAILED q
  raised : Raised s t 0x3003 1 p

/-- What follows the showing of a failure, where it leaves the lanes and the port's status. -/
theorem PortFailed.of {s t : State} {p : Nat} (h : LightKept (s.portDownShown p) t)
    (fields : ∀ f ∈ [F.OP_STATUS.UP, F.OP_STATUS.FAILED], ∀ q, q < 24 → t.fld f q = (s.portDownShown p).fld f q) : PortFailed s t p where
  light := (s.portDownShown_light p).trans h
  up q hq := (fields _ (by simp) q hq).trans (s.portDownShown_up p q)
  failed q hq := (fields _ (by simp) q hq).trans (s.portDownShown_failed p q)
  raised := (s.portDownShown_raised p).mono h.errors

theorem State.portFail_cistern {s : State} {p : Nat} (far : 8 ≤ p) (up : s.fld F.OP_STATUS.UP p ≠ 0) :
    s.portFail p = (s.portDownShown p).cisOffline (p - 8) := by
  unfold State.portFail
  rw [if_neg up]
  exact if_pos far

theorem State.portFail_host {s : State} {p : Nat} (near : p < 8) (up : s.fld F.OP_STATUS.UP p ≠ 0)
    (live : s.tm.power ≠ .minimal) :
    s.portFail p = ((s.portDownShown p).setInt F.HL_INT_STATUS.PORT_LOST).moveSlots p := by
  unfold State.portFail
  rw [if_neg up]
  dsimp only
  rw [if_neg (by omega), if_neg (by simpa using live)]
  rfl

theorem portFail_cistern_fails {s : State} {p : Nat} (far : 8 ≤ p) (up : s.fld F.OP_STATUS.UP p ≠ 0) :
    PortFailed s (s.portFail p) p := by
  rw [State.portFail_cistern far up]
  have worked : WorkKept (s.portDownShown p) ((s.portDownShown p).cisOffline (p - 8)) := (WorkKept.refl _).cisOffline
  refine .of worked.light fun f hf q _ => worked.fld ?_
  simp only [List.mem_cons, List.not_mem_nil, or_false] at hf
  obtain rfl | rfl := hf <;> exact workKey_false (by decide) (by decide) _ _

theorem State.moveSlots_light (s : State) (p : Nat) : LightKept s (s.moveSlots p) := by
  unfold State.moveSlots
  split
  · exact s.linkDark_light
  · exact s.handoverStart_light _ _

theorem State.moveSlots_fld (s : State) (p : Nat) {f : Field} {i : Nat}
    (h : fieldKey f i 0 ≠ fieldKey F.HL_STATUS.HANDOVER 0 0) :
    (s.moveSlots p).fld f i = s.fld f i := by
  unfold State.moveSlots
  split
  · simp only [State.fld, State.linkDark_fields]
  · exact s.handoverStart_fld _ _ h

theorem portFail_host_fails {s : State} {p : Nat} (near : p < 8) (up : s.fld F.OP_STATUS.UP p ≠ 0)
    (live : s.tm.power ≠ .minimal) : PortFailed s (s.portFail p) p := by
  rw [State.portFail_host near up live]
  have shown : LightKept (s.portDownShown p) ((s.portDownShown p).setInt F.HL_INT_STATUS.PORT_LOST) :=
    ⟨State.setInt_tm _ _ _, fun q rx w => State.lane_setInt _ _ _ _ _ _, fun e he => by rw [State.setInt_er]; exact he⟩
  refine .of (shown.trans (State.moveSlots_light _ _)) fun f hf q hq => ?_
  simp only [List.mem_cons, List.not_mem_nil, or_false] at hf
  have apart : fieldKey f q 0 ≠ fieldKey F.HL_STATUS.HANDOVER 0 0 := by
    obtain rfl | rfl := hf <;> (simp only [fieldKey, F.OP_STATUS.UP, F.OP_STATUS.FAILED, F.HL_STATUS.HANDOVER]; omega)
  rw [State.moveSlots_fld _ _ apart]
  obtain rfl | rfl := hf <;> rw [State.fld_setInt_slot _ (by decide)]

end Sys2Proof.Machine
end

section
/-! SUPPORT. The failure of a host port and the hand-over of its slots, step by step (R361). -/

namespace Sys2Proof.Machine

section
variable {s : State} {p : Fin 8} {q : Nat}

/-! ## The failure begins the hand-over -/

theorem portFailed_hands (up : s.fld F.OP_STATUS.UP p = 1) (live : s.tm.power ≠ .minimal)
    (other : ∃ q < 8, q ≠ p.val ∧ s.fld F.OP_STATUS.UP q = 1) :
    ∃ t, exec (.portFailed p) s = .next t ∧ t.fld F.OP_STATUS.UP p = 0 ∧ t.fld F.OP_STATUS.FAILED p = 1 ∧
      t.fld F.HL_STATUS.HANDOVER = 1 ∧ (t.port p).handing = true ∧ t.fld F.HL_INT_STATUS.PORT_LOST = 1 ∧
      ∃ e ∈ t.er.collector, e.code = 0x3003 ∧ e.inst = p.val := by
  have fails := portFail_host_fails p.isLt (by rw [up]; decide) live
  have begun := State.portFail_host p.isLt (by rw [up]; decide) live
  obtain ⟨q, hq, apart, alive⟩ := other
  let u := (s.portDownShown p).setInt F.HL_INT_STATUS.PORT_LOST
  have some_live : q ∈ u.livePorts := by
    refine List.mem_filter.mpr ⟨List.mem_range.mpr hq, ?_⟩
    rw [State.fld_setInt_slot _ (by decide), State.portDownShown_up, if_neg apart, alive]
    rfl
  obtain ⟨r, rs, lives⟩ := List.exists_cons_of_ne_nil (List.ne_nil_of_mem some_live)
  have moved : u.moveSlots p = u.handoverStart p r := by
    unfold State.moveSlots
    rw [lives]
  obtain ⟨e, he, code, -, inst, -⟩ := fails.raised
  refine ⟨_, rfl, ?_, ?_, ?_, ?_, ?_, e, he, code, inst⟩
  · rw [fails.up p (by omega), if_pos rfl]
  · rw [fails.failed p (by omega), if_pos rfl]
  · rw [begun, moved, State.handoverStart_shown]
  · rw [begun, moved, State.handoverStart_handing]
  · rw [begun, moved, State.handoverStart_fld _ _ _ (by decide), State.fld_setInt]
    rfl

/-! ## HANDOVER and HANDOVER_DONE -/

theorem nextLive_spec (h : s.nextLive p = some q) : q < 8 ∧ s.fld F.OP_STATUS.UP q = 1 := by
  unfold State.nextLive at h
  have live := List.find?_some h
  obtain ⟨i, -, rfl⟩ := List.mem_map.mp (List.mem_of_find?_eq_some h)
  exact ⟨Nat.mod_lt _ (by decide), by simpa using live⟩

/-- A live port is another than the one that is down. -/
theorem nextLive_ne (h : s.nextLive p = some q) (down : s.fld F.OP_STATUS.UP p = 0) : q ≠ p.val := by
  rintro rfl
  have := (nextLive_spec h).2
  omega

theorem State.sendPort_port_ne (s : State) {p q : Nat} (h : p ≠ q) : (s.sendPort q).port p = s.port p := by
  unfold State.sendPort
  split
  · exact State.port_setPort_ne _ _ _ _ h
  · rfl

/-- A link control message leaves every other port. -/
theorem State.emit_ctrl_port_ne (s : State) {p q : Nat} (c w : Nat) (h : p ≠ q) : (s.emit (.ctrl q c w)).port p = s.port p := by
  show ((({ s with hl.out := s.hl.out ++ [Out.ctrl q c w] } : State).setPort q _).sendPort q).port p = s.port p
  rw [State.sendPort_port_ne _ h, State.port_setPort_ne _ _ _ _ h]
  rfl

/-- What waits on one port moves to another, which sends; the one it leaves has nothing to send. -/
theorem State.moveTx_port {s : State} {p q : Nat} (first : List Out) (h : p ≠ q) :
    (s.moveTx p q first).port p = { s.port p with heldTx := [] } := by
  unfold State.moveTx
  dsimp only
  rw [State.sendPort_port_ne _ h, State.port_setPort_ne _ _ _ _ h, State.port_setPort]

@[simp] theorem State.moveTx_fields (s : State) (p q : Nat) (first : List Out) :
    (s.moveTx p q first).rg.fields = s.rg.fields := by
  rw [State.moveTx, State.sendPort_fields]
  rfl

theorem handover_replays (handing : (s.port p).handing = true) (down : s.fld F.OP_STATUS.UP p = 0) (live : s.nextLive p = some q)
    (a : BitVec 12) :
    ∃ t, exec (.handover p a) s = .next t ∧ (t.port p).retry = [] ∧ .ctrl q 0x06 p.val ∈ t.hl.out ∧
      t.rg.fields = s.rg.fields := by
  let again := flitsAfter a.toNat (s.port p).retry
  let u := (s.setPort p { s.port p with retry := [] }).addCnt C.OP_CNT_REPLAY again.length p
  have replayed : s.handover p a.toNat = (u.moveTx p q (replayOuts again)).sendCtrl q 0x06 p := by
    simp [State.handover, handing, live, down, u, again]
  refine ⟨_, congrArg Host.Outcome.next replayed, ?_, ?_, ?_⟩
  · have apart := (nextLive_ne live down).symm
    rw [State.sendCtrl, State.emit_ctrl_port_ne _ _ _ apart, State.moveTx_port _ apart]
    simp [u]
  · simp [State.sendCtrl]
  · rw [State.sendCtrl, State.emit_fields, State.moveTx_fields]
    rfl

/-! ## The map of slots (R361) -/

theorem State.physPort_lt (s : State) (i : Nat) : s.physPort i < 8 :=
  (bits_lt _ _ _).trans_eq (by rw [show 3 * i + 2 + 1 - 3 * i = 3 by omega]; rfl)

/-- The number whose digits base 8 are `a 0 … a (n - 1)`. -/
def octets (a : Nat → Nat) (n : Nat) : Nat := (List.range n).foldl (fun n i => n + a i * 2 ^ (3 * i)) 0

theorem octets_succ (a : Nat → Nat) (n : Nat) : octets a (n + 1) = octets a n + a n * 2 ^ (3 * n) := by
  rw [octets, List.range_succ, List.foldl_append]
  rfl

theorem octets_lt {a : Nat → Nat} (h : ∀ i, a i < 8) (n : Nat) : octets a n < 2 ^ (3 * n) := by
  induction n with
  | zero => exact Nat.one_pos
  | succ n ih =>
    have := Nat.mul_le_mul_right (2 ^ (3 * n)) (Nat.le_of_lt_succ (h n))
    rw [octets_succ, Nat.mul_succ, Nat.pow_add]
    omega

/-- The digits of `octets`. -/
theorem octets_digit {a : Nat → Nat} (h : ∀ i, a i < 8) {i n : Nat} (hi : i < n) : octets a n / 2 ^ (3 * i) % 8 = a i := by
  induction n with
  | zero => omega
  | succ n ih =>
    rw [octets_succ]
    obtain rfl | below : i = n ∨ i < n := by omega
    · rw [Nat.add_mul_div_right _ _ (by positivity), Nat.div_eq_of_lt (octets_lt h i), Nat.zero_add, Nat.mod_eq_of_lt (h i)]
    · have split : a n * 2 ^ (3 * n) = 8 * (a n * 2 ^ (3 * (n - i - 1))) * 2 ^ (3 * i) := by
        rw [show 3 * n = 3 * (n - i - 1) + 3 + 3 * i by omega, Nat.pow_add, Nat.pow_add]
        ring
      rw [split, Nat.add_mul_div_right _ _ (by positivity), Nat.add_mul_mod_self_left, ih below]

theorem State.physPort_mapSlots (s : State) (l : List Nat) {q i : Nat} (hq : q < 8) (hi : i < 8) :
    (s.mapSlots l q).physPort i = if l.contains i then q else s.physPort i := by
  unfold State.physPort State.mapSlots
  rw [State.fld_setFld]
  have small : ∀ i, (if l.contains i then q else s.physPort i) < 8 := fun i => by split; exacts [hq, s.physPort_lt i]
  have width : 2 ^ F.HL_PORTMAP.MAP.width = 2 ^ (3 * 8) := rfl
  have digit := octets_digit small hi
  rw [← Nat.mod_eq_of_lt (octets_lt small 8), ← width] at digit
  rw [bits, show 3 * i + 2 + 1 - 3 * i = 3 by omega]
  exact digit

theorem handoverDone_maps (handing : (s.port p).handing = true) (down : s.fld F.OP_STATUS.UP p = 0) (live : s.nextLive p = some q) :
    ∃ t, exec (.handoverDone p) s = .next t ∧ (t.port p).handing = false ∧
      (∀ i, i < 8 → t.physPort i = if s.physPort i = p.val then q else s.physPort i) ∧
      t.fld F.HL_INT_STATUS.HANDOVER_DONE = 1 ∧
      t.cnt C.HL_CNT_HANDOVERS = (s.cnt C.HL_CNT_HANDOVERS + 1) % 2 ^ 64 := by
  let u := (s.setPort p { s.port p with handing := false }).mapSlots (s.slotsOn p) q
  let v := u.moveTx p q []
  let w := v.setFld F.HL_STATUS.HANDOVER (b2n ((List.range 8).any (fun i => (v.port i).handing)))
  have ended : s.handoverDone p = (w.addCnt C.HL_CNT_HANDOVERS 1).setInt F.HL_INT_STATUS.HANDOVER_DONE := by
    unfold State.handoverDone
    simp only [handing, down, live, Bool.not_true, Bool.false_eq_true, if_false, Nat.zero_ne_one]
    rfl
  have apart := (nextLive_ne live down).symm
  have ownPort : v.port p = { s.port p with handing := false, heldTx := [] } := by
    simp only [v, State.moveTx_port _ apart, u, State.mapSlots, State.port_setFld, State.port_setPort]
  refine ⟨_, congrArg Host.Outcome.next ended, ?_, fun i hi => ?_, ?_, ?_⟩
  · rw [(State.setInt_sent _ _ _ p).kept.handing]
    simp only [w, State.port_addCnt, State.port_setFld, ownPort]
  · have mapped := State.physPort_mapSlots (s.setPort p { s.port p with handing := false }) (s.slotsOn p) (nextLive_spec live).1 hi
    have on : (s.slotsOn p).contains i = decide (s.physPort i = p.val) := by
      rw [State.slotsOn, Bool.eq_iff_iff]
      simp [hi]
    rw [on] at mapped
    simp only [decide_eq_true_eq] at mapped
    rw [State.physPort] at mapped ⊢
    rw [State.fld_setInt_slot _ (by decide), State.fld_addCnt, State.fld_setFld_slot _ (by decide)]
    have same : v.fld F.HL_PORTMAP.MAP = u.fld F.HL_PORTMAP.MAP := by simp only [State.fld, v, State.moveTx_fields]
    rw [same]
    exact mapped
  · rw [State.fld_setInt]
    rfl
  · rw [State.cnt_setInt, State.cnt_addCnt, State.cnt_setFld]
    congr 2
    simp [v, State.moveTx, u, State.mapSlots]

/-! ## REJOIN -/

theorem rejoin_hands {r : Requester} (hw : Writable s 0x30 p r) (up : s.fld F.OP_STATUS.UP p = 1)
    (rests : (s.port p).handing = false) (live : s.tm.power ≠ .minimal) (away : s.physPort p ≠ p.val) :
    ∃ t, exec (.rejoin r (p.castLE (by decide))) s = .next t ∧ t.fld F.HL_STATUS.HANDOVER = 1 ∧
      (t.port p).handing = true := by
  let u := s.addCnt C.GL_CNT_REG_WRITES 1
  have upHere : u.fld F.OP_STATUS.UP p = 1 := up
  have restsHere : (u.port p).handing = false := rests
  have some_live : p.val ∈ u.livePorts := List.mem_filter.mpr ⟨List.mem_range.mpr p.isLt, by rw [upHere]; rfl⟩
  obtain ⟨q, qs, lives⟩ := List.exists_cons_of_ne_nil (List.ne_nil_of_mem some_live)
  have begun : u.opCtrlWrite p 2 = u.handoverStart p q := by
    calc u.opCtrlWrite p 2 = u.rejoin p := rfl
      _ = u.handoverStart p q := by
        unfold State.rejoin
        rw [lives]
        exact if_pos ⟨p.isLt, upHere, by rw [restsHere]; rfl, live, away⟩
  have ran := (hw.opWrite 0x114 2 (fun s => s.opCtrlWrite p 2)).trans begun
  exact ⟨_, congrArg Host.Outcome.next ran, State.handoverStart_shown _ _ _, State.handoverStart_handing _ _ _⟩
end

end Sys2Proof.Machine
end

section
/-! SUPPORT. The reset of a port's lanes, the loss of a laser module and of the link (R20, R336, R337). -/

namespace Sys2Proof.Machine

/-! ## RESET_LANES (R337) -/

theorem Port.lane_setLane_ne (x : Port) {w v : Nat} {rx ry : Bool} (l : Lane) (h : ¬ (ry = rx ∧ v = w)) :
    (x.setLane rx w l).lane ry v = x.lane ry v := by
  unfold Port.setLane Port.lane
  cases rx <;> cases ry <;> simp only [Bool.false_eq_true, if_true, if_false]
  all_goals exact look_put_ne _ _ _ (by simpa using h)

/-- Both lanes of one number, changed by `f`. -/
def Port.mapLane (x : Port) (f : Lane → Lane) (w : Nat) : Port :=
  (x.setLane false w (f (x.lane false w))).setLane true w (f (x.lane true w))

theorem Port.lane_mapLane (x : Port) (f : Lane → Lane) (w : Nat) (rx : Bool) (v : Nat) :
    (x.mapLane f w).lane rx v = if v = w then f (x.lane rx v) else x.lane rx v := by
  unfold Port.mapLane
  by_cases e : v = w
  · subst e
    rw [if_pos rfl]
    cases rx
    · rw [Port.lane_setLane_ne _ _ (by simp), Port.lane_setLane]
    · rw [Port.lane_setLane]
  · rw [if_neg e, Port.lane_setLane_ne _ _ (by simp [e]), Port.lane_setLane_ne _ _ (by simp [e])]

theorem Port.lane_foldl_mapLane (f : Lane → Lane) (l : List Nat) (once : l.Nodup) (x : Port) (rx : Bool) (v : Nat) :
    (l.foldl (fun x w => x.mapLane f w) x).lane rx v = if v ∈ l then f (x.lane rx v) else x.lane rx v := by
  induction l generalizing x with
  | nil => rfl
  | cons w l ih =>
    obtain ⟨fresh, once⟩ := List.nodup_cons.mp once
    rw [List.foldl_cons, ih once, Port.lane_mapLane]
    by_cases e : v = w
    · subst e
      simp [fresh]
    · simp [e]

theorem resetLanes_unfails {s : State} {r : Requester} {p : Fin 24} (hw : Writable s 0x30 p r) :
    ∃ t, exec (.resetLanes r p) s = .next t ∧ ∀ rx w, w < 8 →
      (t.lane p rx w).st = (if (s.lane p rx w).st = .failed then .dark else (s.lane p rx w).st) := by
  have ran : s.opWrite r 0x30 p 0x114 1 (fun s => s.opCtrlWrite p 1) = (s.addCnt C.GL_CNT_REG_WRITES 1).resetLanes p :=
    hw.opWrite 0x114 1 fun s => s.opCtrlWrite p 1
  refine ⟨_, congrArg Host.Outcome.next ran, fun rx w hw => ?_⟩
  have lane : ((s.addCnt C.GL_CNT_REG_WRITES 1).resetLanes p).lane p rx w = (s.lane p rx w).unfail := by
    unfold State.resetLanes State.lane
    rw [State.port_setPort]
    refine (Port.lane_foldl_mapLane Lane.unfail (List.range 8) List.nodup_range _ rx w).trans ?_
    rw [if_pos (List.mem_range.mpr hw)]
    rfl
  rw [lane, Lane.unfail]
  split <;> rfl

/-! ## Light lost -/

/-- The lane is without light and out of use. -/
def State.Unlit (s : State) (p w : Nat) : Prop := (s.lane p false w).light = false ∧ (s.lane p false w).st ≠ .lit

theorem Lane.darken_st_ne (l : Lane) : l.darken.st ≠ .lit := by
  unfold Lane.darken
  split
  · next failed => rw [failed]; decide
  · exact nofun

theorem State.laneDark_unlit (s : State) (p w : Nat) : (s.laneDark p false w false).Unlit p w := by
  have lane : (s.laneDark p false w false).lane p false w = { (s.lane p false w).darken with light := false } := by
    unfold State.laneDark
    dsimp only
    split <;> simp
  rw [State.Unlit, lane]
  exact ⟨rfl, Lane.darken_st_ne _⟩

theorem State.laneDark_unlit_kept {s : State} {q v : Nat} (h : s.Unlit q v) (p w : Nat) : (s.laneDark p false w false).Unlit q v := by
  by_cases e : q = p ∧ v = w
  · obtain ⟨rfl, rfl⟩ := e
    exact s.laneDark_unlit q v
  · have same : (s.laneDark p false w false).lane q false v = s.lane q false v := by
      unfold State.laneDark
      dsimp only
      split
      · rw [State.lane_setInt, State.lane_setLane_ne _ _ (by simpa using e)]
      · rw [State.lane_setLane_ne _ _ (by simpa using e)]
    rw [State.Unlit, same]
    exact h

/-- What the loss of light on lanes leaves. -/
structure Darkened (s t : State) : Prop where
  time : t.tm = s.tm
  errors : t.er = s.er
  up : ∀ p, t.fld F.OP_STATUS.UP p = s.fld F.OP_STATUS.UP p
  unlit : ∀ p w, s.Unlit p w → t.Unlit p w

theorem Darkened.trans {s t u : State} (h : Darkened s t) (h' : Darkened t u) : Darkened s u :=
  ⟨h'.time.trans h.time, h'.errors.trans h.errors, fun p => (h'.up p).trans (h.up p), fun p w x => h'.unlit p w (h.unlit p w x)⟩

theorem State.laneDark_darkened (s : State) (p w : Nat) : Darkened s (s.laneDark p false w false) := by
  refine ⟨?_, ?_, fun q => ?_, fun q v h => State.laneDark_unlit_kept h p w⟩ <;> unfold State.laneDark <;> dsimp only <;> split
  · exact State.setInt_tm _ _ _
  · rfl
  · exact State.setInt_er _ _ _
  · rfl
  · exact State.fld_setInt_slot _ (by decide) _ _ _
  · rfl

theorem foldl_laneDark (p : Nat) (l : List Nat) (s : State) :
    Darkened s (l.foldl (fun s w => s.laneDark p false w false) s) ∧
      ∀ w ∈ l, (l.foldl (fun s w => s.laneDark p false w false) s).Unlit p w := by
  induction l generalizing s with
  | nil => exact ⟨⟨rfl, rfl, fun _ => rfl, fun _ _ h => h⟩, by simp⟩
  | cons w l ih =>
    obtain ⟨kept, unlit⟩ := ih (s.laneDark p false w false)
    refine ⟨(s.laneDark_darkened p w).trans kept, fun v hv => ?_⟩
    obtain rfl | hv := List.mem_cons.mp hv
    · exact kept.unlit _ _ (s.laneDark_unlit p v)
    · exact unlit v hv

/-- The lanes of the ports whose light is lost. -/
def State.portsDark (s : State) (l : List Nat) : State :=
  l.foldl (fun s p => (List.range 8).foldl (fun s w => s.laneDark p false w false) s) s

theorem State.portsDark_cons (s : State) (p : Nat) (l : List Nat) :
    s.portsDark (p :: l) = ((List.range 8).foldl (fun s w => s.laneDark p false w false) s).portsDark l := List.foldl_cons ..

theorem State.portsDark_unlit (l : List Nat) (s : State) :
    Darkened s (s.portsDark l) ∧ ∀ p ∈ l, ∀ w < 8, (s.portsDark l).Unlit p w := by
  induction l generalizing s with
  | nil => exact ⟨⟨rfl, rfl, fun _ => rfl, fun _ _ h => h⟩, by simp⟩
  | cons q l ih =>
    obtain ⟨first, unlitHere⟩ := foldl_laneDark q (List.range 8) s
    obtain ⟨kept, unlit⟩ := ih ((List.range 8).foldl (fun s w => s.laneDark q false w false) s)
    rw [State.portsDark_cons]
    refine ⟨first.trans kept, fun p hp w hw => ?_⟩
    obtain rfl | hp := List.mem_cons.mp hp
    · exact kept.unlit _ _ (unlitHere w (List.mem_range.mpr hw))
    · exact unlit p hp w hw

/-! ## The failures of a module's ports -/

/-- What the failures of the ports of `l` come to. -/
structure PortsFailed (s t : State) (l : List Nat) : Prop where
  light : LightKept s t
  up : ∀ q, q < 24 → t.fld F.OP_STATUS.UP q = if q ∈ l then 0 else s.fld F.OP_STATUS.UP q
  failed : ∀ q, q < 24 → t.fld F.OP_STATUS.FAILED q =
    if q ∈ l ∧ s.fld F.OP_STATUS.UP q ≠ 0 then 1 else s.fld F.OP_STATUS.FAILED q
  raised : ∀ q ∈ l, q < 24 → s.fld F.OP_STATUS.UP q ≠ 0 → Raised s t 0x3003 1 q

theorem State.portFail_down {s : State} {p : Nat} (down : s.fld F.OP_STATUS.UP p = 0) : s.portFail p = s := if_pos down

theorem PortsFailed.nil (s : State) : PortsFailed s s [] := ⟨.refl s, by simp, by simp, by simp⟩

/-- A port that is down already fails no more. -/
theorem PortsFailed.down {s t : State} {p : Nat} {l : List Nat} (h : PortsFailed s t l) (down : s.fld F.OP_STATUS.UP p = 0) :
    PortsFailed s t (p :: l) where
  light := h.light
  up q hq := by
    rw [h.up q hq]
    by_cases e : q = p
    · subst e
      simp [down]
    · simp [e]
  failed q hq := by
    rw [h.failed q hq]
    by_cases e : q = p
    · subst e
      simp [down]
    · simp [e]
  raised q hq lt up := by
    obtain rfl | hq := List.mem_cons.mp hq
    · exact absurd down up
    · exact h.raised q hq lt up

theorem PortFailed.cons {s t u : State} {p : Nat} {l : List Nat} (h : PortFailed s t p) (h' : PortsFailed t u l)
    (was : s.fld F.OP_STATUS.UP p ≠ 0) : PortsFailed s u (p :: l) where
  light := h.light.trans h'.light
  up q hq := by
    rw [h'.up q hq, h.up q hq]
    by_cases e : q = p <;> simp [e]
  failed q hq := by
    rw [h'.failed q hq, h.failed q hq, h.up q hq]
    by_cases e : q = p
    · subst e
      simp [was]
    · simp [e]
  raised q hq lt up := by
    by_cases e : q = p
    · subst e
      exact h.raised.mono h'.light.errors
    · obtain ⟨x, hx, code, sev, inst, time⟩ :=
        h'.raised q ((List.mem_cons.mp hq).resolve_left e) lt (by rw [h.up q lt, if_neg e]; exact up)
      exact ⟨x, hx, code, sev, inst, by rw [time, h.light.time]⟩

/-- The failures of a list of ports, where each of them, at this time, is one `PortFailed`. -/
theorem foldl_portFail (l : List Nat) (s : State)
    (each : ∀ u : State, u.tm = s.tm → ∀ p ∈ l, u.fld F.OP_STATUS.UP p ≠ 0 → PortFailed u (u.portFail p) p) :
    PortsFailed s (l.foldl State.portFail s) l := by
  induction l generalizing s with
  | nil => exact .nil s
  | cons p l ih =>
    rw [List.foldl_cons]
    by_cases down : s.fld F.OP_STATUS.UP p = 0
    · rw [State.portFail_down down]
      exact (ih s fun u hu q hq => each u hu q (List.mem_cons_of_mem _ hq)).down down
    · have first := each s rfl p List.mem_cons_self down
      exact first.cons (ih _ fun u hu q hq => each u (hu.trans first.light.time) q (List.mem_cons_of_mem _ hq)) down

/-! ## The link is dark when its last port fails -/

theorem State.linkDark_since (s : State) (now : s.er.darkSince = none ∨ s.er.darkSince = some s.tm.now) :
    s.linkDark.er.darkSince = some s.tm.now := by
  unfold State.linkDark
  obtain h | h := now
  · rw [if_neg (by simp [h])]
    rfl
  · rw [if_pos (by simp [h]), h]

/-- The host's link after the failure of one of its ports that was up. -/
theorem portFail_host_since {s : State} {p : Nat} (near : p < 8) (up : s.fld F.OP_STATUS.UP p ≠ 0) (live : s.tm.power ≠ .minimal) :
    (s.portFail p).er.darkSince = s.er.darkSince ∧ (∃ q < 8, q ≠ p ∧ s.fld F.OP_STATUS.UP q = 1) ∨
      ((s.er.darkSince = none ∨ s.er.darkSince = some s.tm.now) → (s.portFail p).er.darkSince = some s.tm.now) := by
  rw [State.portFail_host near up live]
  let u := (s.portDownShown p).setInt F.HL_INT_STATUS.PORT_LOST
  have time : u.tm = s.tm := (State.setInt_tm _ _ _).trans (s.portDownShown_light p).time
  have since : u.er.darkSince = s.er.darkSince := by
    simp only [u, State.setInt_er, State.portDownShown, State.raise]
    rfl
  show (u.moveSlots p).er.darkSince = _ ∧ _ ∨ (_ → (u.moveSlots p).er.darkSince = _)
  unfold State.moveSlots
  split
  · refine .inr fun now => ?_
    rw [State.linkDark_since u (by rw [since, time]; exact now), time]
  · next q qs lives =>
    have live : q ∈ u.livePorts := by rw [lives]; exact List.mem_cons_self
    obtain ⟨hq, upq⟩ := List.mem_filter.mp live
    rw [State.fld_setInt_slot _ (by decide), State.portDownShown_up] at upq
    refine .inl ⟨by rw [State.handoverStart_er, since], q, List.mem_range.mp hq, ?_⟩
    by_cases e : q = p <;> simp_all

theorem foldl_portFail_since (l : List Nat) (s : State) (near : ∀ p ∈ l, p < 8) (live : s.tm.power ≠ .minimal)
    (all : ∀ p < 8, s.fld F.OP_STATUS.UP p = 1 → p ∈ l)
    (now : (s.er.darkSince = none ∧ ∃ p < 8, s.fld F.OP_STATUS.UP p = 1) ∨ s.er.darkSince = some s.tm.now) :
    (l.foldl State.portFail s).er.darkSince = some s.tm.now := by
  induction l generalizing s with
  | nil =>
    obtain ⟨-, p, hp, up⟩ | now := now
    · exact absurd (all p hp up) List.not_mem_nil
    · exact now
  | cons p l ih =>
    have near' : ∀ q ∈ l, q < 8 := fun q hq => near q (List.mem_cons_of_mem _ hq)
    have hp := near p List.mem_cons_self
    rw [List.foldl_cons]
    by_cases down : s.fld F.OP_STATUS.UP p = 0
    · rw [State.portFail_down down]
      refine ih s near' live (fun q hq up => ?_) now
      obtain rfl | h := List.mem_cons.mp (all q hq up)
      · omega
      · exact h
    · have fails := portFail_host_fails hp down live
      have time := fails.light.time
      rw [← time]
      refine ih _ near' (by rw [time]; exact live) (fun q hq up => ?_) ?_
      · rw [fails.up q (by omega)] at up
        split at up
        · omega
        · next e => exact (List.mem_cons.mp (all q hq up)).resolve_left e
      · obtain ⟨since, q, hq, other, up⟩ | dark := portFail_host_since hp down live
        · rw [since, time]
          exact now.imp_left fun h => ⟨h.1, q, hq, by rw [fails.up q (by omega), if_neg other]; exact up⟩
        · rw [time]
          exact .inr (dark (now.imp_left And.left))

/-! ## The clauses -/

/-- The ports that a laser module feeds. -/
def modulePorts (m : Nat) : List Nat := (List.range 8).map (m * 8 + ·)

theorem mem_modulePorts {m p : Nat} : p ∈ modulePorts m ↔ 8 * m ≤ p ∧ p < 8 * m + 8 := by
  simp only [modulePorts, List.mem_map, List.mem_range]
  refine ⟨?_, fun h => ⟨p - 8 * m, by omega, by omega⟩⟩
  rintro ⟨i, hi, rfl⟩
  omega

/-- The loss of a laser module: its ports' light, then the ports. -/
theorem State.laserLoss_eq (s : State) (m : Nat) :
    s.laserLoss m = (modulePorts m).foldl State.portFail (s.portsDark (modulePorts m)) := rfl

@[simp] theorem State.module_raise (s : State) (code sev inst unit ctx q cmd detail m : Nat) :
    (s.raise code sev inst unit ctx q cmd detail).module m = s.module m := rfl

theorem cisternPortFailed_fails {s : State} {p : Fin 24} (far : 8 ≤ p.val) (up : s.fld F.OP_STATUS.UP p = 1)
    (idle : (s.module (p - 8)).st ≠ 4) :
    ∃ t, exec (.cisternPortFailed p) s = .next t ∧ t.fld F.OP_STATUS.UP p = 0 ∧ t.fld F.OP_STATUS.FAILED p = 1 ∧
      t.module (p - 8) = s.module (p - 8) ∧ ∃ e ∈ t.er.collector, e.code = 0x3003 ∧ e.inst = p.val := by
  have was : s.fld F.OP_STATUS.UP p ≠ 0 := by rw [up]; decide
  have fails := portFail_cistern_fails far was
  have same : (s.portDownShown p).module (p - 8) = s.module (p - 8) := by
    simp only [State.portDownShown, State.module_raise, State.module_setInt, State.module_setFld]
  have ran : s.portFail p = s.portDownShown p := by
    rw [State.portFail_cistern far was]
    exact if_pos (by rw [same]; exact idle)
  obtain ⟨e, he, code, -, inst, -⟩ := fails.raised
  refine ⟨s.portFail p, congrArg Host.Outcome.next (if_pos far), ?_, ?_, ?_, e, he, code, inst⟩
  · rw [fails.up p p.isLt, if_pos rfl]
  · rw [fails.failed p p.isLt, if_pos rfl]
  · rw [ran, same]

theorem laserModuleLoss_host {s : State} (live : s.tm.power ≠ .minimal) (up : ∃ p < 8, s.fld F.OP_STATUS.UP p = 1)
    (light : s.er.darkSince = none) :
    ∃ t, exec (.laserModuleLoss 0) s = .next t ∧ (∀ p, p < 8 → t.fld F.OP_STATUS.UP p = 0) ∧
      (∀ p w, p < 8 → w < 8 → (t.lane p false w).light = false ∧ (t.lane p false w).st ≠ .lit) ∧
      t.er.darkSince = some s.tm.now := by
  have mem : ∀ p, p ∈ modulePorts 0 ↔ p < 8 := fun p => mem_modulePorts.trans (by omega)
  obtain ⟨dark, unlit⟩ := State.portsDark_unlit (modulePorts 0) s
  have ran := s.laserLoss_eq 0
  generalize s.portsDark (modulePorts 0) = u at dark unlit ran
  have liveThen : u.tm.power ≠ .minimal := by rw [dark.time]; exact live
  have fails := foldl_portFail (modulePorts 0) u fun v hv p hp up =>
    portFail_host_fails ((mem p).mp hp) up (by rw [hv]; exact liveThen)
  have since := foldl_portFail_since (modulePorts 0) u (fun p => (mem p).mp) liveThen (fun p hp _ => (mem p).mpr hp)
    (.inl ⟨by rw [dark.errors]; exact light, up.imp fun p h => ⟨h.1, by rw [dark.up]; exact h.2⟩⟩)
  rw [← ran] at fails since
  refine ⟨s.laserLoss 0, rfl, fun p hp => ?_, fun p w hp hw => ?_, by rw [since, dark.time]⟩
  · rw [fails.up p (by omega), if_pos ((mem p).mpr hp)]
  · rw [fails.light.lanes]
    exact unlit p ((mem p).mpr hp) w hw

theorem laserModuleLoss_cisterns {s : State} {m : Fin 3} (far : 1 ≤ m.val) :
    ∃ t, exec (.laserModuleLoss m) s = .next t ∧
      ∀ p, 8 * m.val ≤ p → p < 8 * m.val + 8 → t.fld F.OP_STATUS.UP p = 0 ∧
        (s.fld F.OP_STATUS.UP p ≠ 0 → t.fld F.OP_STATUS.FAILED p = 1 ∧ Raised s t 0x3003 1 p) ∧
        ∀ w, w < 8 → (t.lane p false w).light = false ∧ (t.lane p false w).st ≠ .lit := by
  obtain ⟨dark, unlit⟩ := State.portsDark_unlit (modulePorts m) s
  have ran := s.laserLoss_eq m
  generalize s.portsDark (modulePorts m) = u at dark unlit ran
  have fails := foldl_portFail (modulePorts m) u fun v _ p hp up =>
    portFail_cistern_fails (by have := mem_modulePorts.mp hp; omega) up
  rw [← ran] at fails
  refine ⟨s.laserLoss m, rfl, fun p lo hi => ?_⟩
  have hp := mem_modulePorts.mpr ⟨lo, hi⟩
  have lt : p < 24 := by omega
  refine ⟨by rw [fails.up p lt, if_pos hp], fun up => ?_, fun w hw => ?_⟩
  · rw [← dark.up] at up
    obtain ⟨e, he, code, sev, inst, time⟩ := fails.raised p hp lt up
    exact ⟨by rw [fails.failed p lt, if_pos ⟨hp, up⟩], e, he, code, sev, inst, by rw [time, dark.time]⟩
  · rw [fails.light.lanes]
    exact unlit p hp w hw

theorem linkLost_stops {s : State} {e : Nat} (dark : s.er.darkSince = some e) (long : e + 10000000000 ≤ s.tm.now) :
    ∃ t, exec .linkLost s = .next t ∧ t.er.darkSince = none ∧ t.rg = s.rg ∧
      ∃ e ∈ t.er.collector, e.code = 0x3105 ∧ e.sev = 3 := by
  have lost : s.linkLost = ({ s with er.darkSince := none } : State).raise 0x3105 3 := by
    unfold State.linkLost
    rw [dark]
    exact if_pos long
  obtain ⟨e, he, code, sev, -, -⟩ :=
    State.raise_raised ({ s with er.darkSince := none } : State) 0x3105 3 0 0 0xFFFF 0xFFFF 0 0
  exact ⟨_, congrArg Host.Outcome.next lost, rfl, rfl, e, he, code, sev⟩

/-- Settles O18, clause by clause; the laser modules by induction over their ports. -/
theorem portsAndLight : Obligations.PortsAndLight :=
  ⟨fun _ _ _ => ⟨portFailed_hands, fun a handing down live => handover_replays handing down live a, handoverDone_maps,
      fun _ => rejoin_hands⟩,
   fun _ => ⟨fun _ _ => resetLanes_unfails, fun _ => cisternPortFailed_fails, laserModuleLoss_host,
      fun _ => laserModuleLoss_cisterns, fun _ => linkLost_stops⟩⟩

end Sys2Proof.Machine
end

section
/-! SUPPORT. The power limit, supplies, droop, parking and the die temperatures (R450 to R455, R503). -/

namespace Sys2Proof.Machine

/-! ## Signals: registers, packets sent and errors raised -/

namespace OnlySignals
variable {s t u : State}

theorem refl (s : State) : OnlySignals s s := rfl

theorem trans (h : OnlySignals s t) (h' : OnlySignals t u) : OnlySignals s u :=
  Eq.trans h' (congrArg (fun x : State =>
    { x with rg := u.rg, hl.out := u.hl.out, op := u.op, er.collector := u.er.collector, er.thermN := u.er.thermN }) h)

theorem setFld (h : OnlySignals s t) {f : Field} {v i b : Nat} : OnlySignals s (t.setFld f v i b) := h.trans rfl
theorem addCnt (h : OnlySignals s t) {c : Cnt} {v i b : Nat} : OnlySignals s (t.addCnt c v i b) := h.trans rfl
theorem raise (h : OnlySignals s t) {code sev inst unit ctx q cmd detail : Nat} :
    OnlySignals s (t.raise code sev inst unit ctx q cmd detail) := h.trans rfl

theorem setInt (h : OnlySignals s t) {f : Field} {i : Nat} : OnlySignals s (t.setInt f i) := by
  refine h.trans ?_
  have frame := t.setInt_frame f i
  generalize t.setInt f i = u at frame
  unfold OnlySignals
  rw [frame]
  rfl

end OnlySignals

theorem FieldsBut.addCnt {s t : State} {keys : List Nat} (h : FieldsBut s t keys) {c : Cnt} {n i b : Nat} :
    FieldsBut s (t.addCnt c n i b) keys := h

/-! ## A step for each of a list's keys -/

/-- A fold of steps, each of which changes what is kept under its own key. -/
theorem foldl_each {α : Type} {g : State → Nat → State} {get : State → Nat → α} {f : Nat → α → α} (inv : State → Prop)
    (kept : ∀ s k, inv s → inv (g s k)) (self : ∀ s k, inv s → get (g s k) k = f k (get s k))
    (others : ∀ s k m, m ≠ k → get (g s k) m = get s m) {l : List Nat} (once : l.Nodup) {s : State} (start : inv s) (m : Nat) :
    get (l.foldl g s) m = if m ∈ l then f m (get s m) else get s m := by
  induction l generalizing s with
  | nil => rfl
  | cons k l ih =>
    obtain ⟨fresh, once⟩ := List.nodup_cons.mp once
    rw [List.foldl_cons, ih once (kept s k start)]
    by_cases e : m = k
    · subst e
      simp [fresh, self s m start]
    · simp [e, others s k m e]

/-! ## Supplies and parking -/

section
variable {s : State} {cl : Fin 256}

theorem pwrLimitWrite_sets {r : Requester} {v : W32} (hw : Writable s 0x09 0 r) :
    ∃ t, exec (.pwrLimitWrite r v) s = .next t ∧ t.fld F.PWR_LIMIT.WATTS = v.toNat % 4096 ∧
      t.pw.limitAt = s.tm.now ∧ FieldsBut s t [fieldKey F.PWR_LIMIT.WATTS 0 0] ∧
      t = { s with rg := t.rg, pw.limitAt := t.pw.limitAt } := by
  refine ⟨_, congrArg Host.Outcome.next (hw.opWrite 0x100 v.toNat _), ?_, rfl, ?_, rfl⟩
  · rw [State.limitWrite]
    exact (State.fld_setFld _ _ _ _ _).trans (Nat.mod_mod _ 4096)
  · exact (FieldsBut.refl s _).addCnt.setFld (by simp)

theorem vinLow_reports {mv : BitVec 16} (powered : s.powered = true) :
    ∃ t, exec (.vinLow mv) s = .next t ∧ t.fld F.PWR_VIN.MV = mv.toNat ∧ t.fld F.PWR_INT_STATUS.VIN_LOW = 1 ∧
      Raised s t 0x0904 1 0 ∧ FieldsBut s t [fieldKey F.PWR_VIN.MV 0 0, fieldKey F.PWR_INT_STATUS.VIN_LOW 0 0] ∧
      OnlySignals s t := by
  have ran : s.vinLow mv.toNat = ((s.setFld F.PWR_VIN.MV mv.toNat).setInt F.PWR_INT_STATUS.VIN_LOW).raise 0x0904 1 :=
    if_neg (by simp [powered])
  refine ⟨_, congrArg Host.Outcome.next ran, ?_, ?_, ?_, ?_, (OnlySignals.refl s).setFld.setInt.raise⟩
  · rw [State.fld_raise, State.fld_setInt_other _ (by decide), State.fld_setFld]
    exact Nat.mod_eq_of_lt mv.isLt
  · rw [State.fld_raise, State.fld_setInt]
    rfl
  · obtain ⟨e, he, code, sev, inst, time⟩ := State.raise_raised
      ((s.setFld F.PWR_VIN.MV mv.toNat).setInt F.PWR_INT_STATUS.VIN_LOW) 0x0904 1 0 0 0xFFFF 0xFFFF 0 0
    exact ⟨e, he, code, sev, inst, time.trans (by rw [State.setInt_tm]; rfl)⟩
  · exact (((FieldsBut.refl s _).setFld (by simp)).setInt (by simp)).raise

theorem droop_stretches (active : s.tm.power = .active) (running : s.domHalted cl = false) (awake : (s.clk cl).parked = false) :
    ∃ t, exec (.droop cl) s = .next t ∧ t.fld F.CLK_INT_STATUS.STRETCH = 1 ∧
      t.cnt C.CLK_CNT_STRETCH 0 cl = (s.cnt C.CLK_CNT_STRETCH 0 cl + (Config.freeValue s.free).toNat) % 2 ^ 64 ∧
      FieldsBut s t [fieldKey F.CLK_INT_STATUS.STRETCH 0 0] ∧ OnlySignals { s with free := s.free + 1 } t := by
  have ran : s.droop cl =
      (s.draw.2.addCnt C.CLK_CNT_STRETCH (Config.freeValue s.free).toNat 0 cl).setInt F.CLK_INT_STATUS.STRETCH :=
    if_neg (by simp [active, running, awake])
  refine ⟨_, congrArg Host.Outcome.next ran, ?_, ?_, ?_, (OnlySignals.refl _).addCnt.setInt⟩
  · rw [State.fld_setInt]
    rfl
  · rw [State.cnt_setInt, State.cnt_addCnt]
    rfl
  · refine FieldsBut.setInt ?_ (List.mem_singleton_self _)
    exact FieldsBut.refl s _

theorem droopCalibration_begins (active : s.tm.power = .active) (running : s.stopState = 0)
    (slot : s.tm.now % 64000000 = cl * 250000) :
    ∃ t, exec (.droopCalibration cl) s = .next t ∧ (t.cluster cl).droopUntil = some (s.tm.now + 2000) ∧
      (∀ k, k / 40 = cl.val → t.coreRuns k = false) ∧ (∀ d, d ≠ cl.val → t.cluster d = s.cluster d) ∧
      t = { s with tl.clusters := t.tl.clusters } := by
  have ran : s.droopCalibration cl = s.setCluster cl { s.cluster cl with droopUntil := some (s.tm.now + 2000) } :=
    if_neg (by simp [active, running, slot])
  refine ⟨_, congrArg Host.Outcome.next ran, by rw [State.cluster_setCluster], fun k hk => ?_,
    fun d hd => State.cluster_setCluster_ne _ _ _ _ hd, rfl⟩
  simp [State.coreRuns, hk]

theorem droopSlotEnd_ends {e : Nat} (slot : (s.cluster cl).droopUntil = some e) :
    ∃ t, exec (.droopSlotEnd cl) s = .next t ∧ (t.cluster cl).droopUntil = none ∧
      t.cnt C.CLK_CNT_DROOP_CAL 0 cl = (s.cnt C.CLK_CNT_DROOP_CAL 0 cl + 1) % 2 ^ 64 ∧ t.rg.fields = s.rg.fields ∧
      t = { s with rg := t.rg, tl.clusters := t.tl.clusters } := by
  have ran : s.droopSlotEnd cl =
      (s.setCluster cl { s.cluster cl with droopUntil := none }).addCnt C.CLK_CNT_DROOP_CAL 1 0 cl := by
    unfold State.droopSlotEnd
    simp only [slot]
  refine ⟨_, congrArg Host.Outcome.next ran, ?_, State.cnt_addCnt _ _ _ _ _, rfl, rfl⟩
  exact congrArg Cluster.droopUntil (State.cluster_setCluster s cl _)

theorem State.clk_addCnt (s : State) (c : Cnt) (v i b n : Nat) : (s.addCnt c v i b).clk n = s.clk n := rfl

theorem park_parks (active : s.tm.power = .active) (running : s.domHalted cl = false) (allowed : s.fld F.PWR_CFG.PARK ≠ 0)
    (awake : (s.clk cl).parked = false) (idle : (s.cluster cl).layers = []) (long : (s.clk cl).idleSince + s.parkDelay ≤ s.tm.now) :
    ∃ t, exec (.park cl) s = .next t ∧ (t.clk cl).parked = true ∧ (t.clk cl).point = (s.clk cl).point ∧
      t.cnt C.PWR_CNT_PARKS = (s.cnt C.PWR_CNT_PARKS + 1) % 2 ^ 64 ∧ t.rg.fields = s.rg.fields ∧
      t = { s with rg := t.rg, pw.clk := t.pw.clk } := by
  have ran : s.park cl = (s.setClk cl { s.clk cl with parked := true }).addCnt C.PWR_CNT_PARKS 1 :=
    if_neg (by simp [active, running, allowed, awake, idle, long])
  have parked := State.clk_setClk s cl { s.clk cl with parked := true }
  refine ⟨_, congrArg Host.Outcome.next ran, ?_, ?_, State.cnt_addCnt _ _ _ _ _, rfl, rfl⟩ <;> rw [State.clk_addCnt, parked]
end

/-! ## The die temperatures (R454, R503) -/

theorem hottest_lt (l : List Byte) : hottest l < 256 := by
  unfold hottest
  generalize hn : (0 : Nat) = n
  have small : n < 256 := by omega
  clear hn
  induction l generalizing n with
  | nil => exact small
  | cons b l ih => exact ih (Nat.max n b.toNat) (Nat.max_lt.mpr ⟨small, b.isLt⟩)

/-- Only errors are raised from `s` to `t`, and none detected before is lost. -/
structure OnlyErrors (s t : State) : Prop where
  kept : ∀ e ∈ s.er.collector, e ∈ t.er.collector
  frame : t = { s with er.collector := t.er.collector, er.thermN := t.er.thermN }

theorem OnlyErrors.refl (s : State) : OnlyErrors s s := ⟨fun _ h => h, rfl⟩

theorem OnlyErrors.trans {s t u : State} (h : OnlyErrors s t) (h' : OnlyErrors t u) : OnlyErrors s u :=
  ⟨fun e he => h'.kept e (h.kept e he), Eq.trans h'.frame (congrArg (fun x : State =>
    { x with er.collector := u.er.collector, er.thermN := u.er.thermN }) h.frame)⟩

theorem State.raise_only (s : State) (code sev inst unit ctx q cmd detail : Nat) :
    OnlyErrors s (s.raise code sev inst unit ctx q cmd detail) := ⟨fun _ h => List.mem_append_left _ h, rfl⟩

/-- One error for each element of a list that shows it. -/
theorem foldl_raise {β : Type} (p : β → Prop) [DecidablePred p] (code sev : Nat) (inst unit detail : β → Nat) (l : List β)
    (s : State) :
    OnlyErrors s (l.foldl (fun s b => if p b then s.raise code sev (inst b) (unit b) 0xFFFF 0xFFFF 0 (detail b) else s) s) ∧
      ∀ b ∈ l, p b → Raised s
        (l.foldl (fun s b => if p b then s.raise code sev (inst b) (unit b) 0xFFFF 0xFFFF 0 (detail b) else s) s)
        code sev (inst b) := by
  induction l generalizing s with
  | nil => exact ⟨.refl s, by simp⟩
  | cons c l ih =>
    rw [List.foldl_cons]
    by_cases hc : p c
    · simp only [if_pos hc]
      obtain ⟨only, raised⟩ := ih (s.raise code sev (inst c) (unit c) 0xFFFF 0xFFFF 0 (detail c))
      refine ⟨(State.raise_only ..).trans only, fun b hb pb => ?_⟩
      obtain rfl | hb := List.mem_cons.mp hb
      · exact (State.raise_raised ..).mono only.kept
      · exact raised b hb pb
    · simp only [if_neg hc]
      obtain ⟨only, raised⟩ := ih s
      refine ⟨only, fun b hb pb => raised b ((List.mem_cons.mp hb).resolve_left ?_) pb⟩
      rintro rfl
      exact hc pb

/-- The overheats reported: compute, port and control dies, then the photonic dies. -/
theorem State.overheats_raised (s : State) (compute port : List Byte) (control : Byte) (photonic : List Byte) :
    OnlyErrors s (s.overheats compute port control.toNat photonic) ∧
      (∀ b, b ∈ compute ++ port ++ [control] → 110 ≤ b.toNat →
        Raised s (s.overheats compute port control.toNat photonic) 0x0903 3 0) ∧
      ∀ q, q < 4 → 90 ≤ dieTemp photonic q → Raised s (s.overheats compute port control.toNat photonic) 0x3004 3 (6 * q) := by
  obtain ⟨dies, diesRaised⟩ := foldl_raise (fun b : Byte => 110 ≤ b.toNat) 0x0903 3 (fun _ => 0) (fun _ => 0) BitVec.toNat
    (compute ++ port ++ [control]) s
  let u := (compute ++ port ++ [control]).foldl
    (fun s (b : Byte) => if 110 ≤ b.toNat then s.raise 0x0903 3 0 0 0xFFFF 0xFFFF 0 b.toNat else s) s
  obtain ⟨light, lightRaised⟩ := foldl_raise (fun q => 90 ≤ dieTemp photonic q) 0x3004 3 (fun q => 6 * q) (fun q => q)
    (dieTemp photonic) (List.range 4) u
  have ran : s.overheats compute port control.toNat photonic = (List.range 4).foldl (fun s q =>
      if 90 ≤ dieTemp photonic q then s.raise 0x3004 3 (6 * q) q 0xFFFF 0xFFFF 0 (dieTemp photonic q) else s) u := by
    unfold State.overheats
    rw [BitVec.ofNat_toNat, BitVec.setWidth_eq]
  have only : OnlyErrors s u := dies
  have time : u.tm = s.tm := by rw [only.frame]
  rw [ran]
  refine ⟨dies.trans light, fun b hb hot => (diesRaised b hb hot).mono light.kept, fun q hq hot => ?_⟩
  obtain ⟨e, he, code, sev, inst, at_⟩ := lightRaised q (List.mem_range.mpr hq) hot
  exact ⟨e, he, code, sev, inst, by rw [at_, time]⟩

/-- The registers of the temperatures. -/
def State.tempsShown (s : State) (compute port : List Byte) (control : Nat) (photonic : List Byte) : State :=
  let s := ((s.setFld F.PWR_TEMP.COMPUTE (hottest compute)).setFld F.PWR_TEMP.PORT (hottest port)).setFld
    F.PWR_TEMP.CONTROL control
  let s := s.setFld F.PWR_TEMP.PHOTONIC (hottest photonic)
  (List.range 16).foldl (fun s d => s.setFld F.CD_STATUS.TEMP (dieTemp compute d) d) s

/-- The registers show the temperatures read. -/
structure TempsShown (t : State) (compute port : List Byte) (control : Byte) (photonic : List Byte) : Prop where
  atCompute : t.fld F.PWR_TEMP.COMPUTE = hottest compute
  atPort : t.fld F.PWR_TEMP.PORT = hottest port
  atControl : t.fld F.PWR_TEMP.CONTROL = control.toNat
  atPhotonic : t.fld F.PWR_TEMP.PHOTONIC = hottest photonic
  dies : ∀ d, d < 16 → t.fld F.CD_STATUS.TEMP d = dieTemp compute d

/-- The fields of the temperatures. -/
def tempFields : List Field :=
  [F.PWR_TEMP.COMPUTE, F.PWR_TEMP.PORT, F.PWR_TEMP.CONTROL, F.PWR_TEMP.PHOTONIC, F.CD_STATUS.TEMP]

theorem TempsShown.of {t u : State} {compute port : List Byte} {control : Byte} {photonic : List Byte}
    (h : TempsShown t compute port control photonic) (same : ∀ f ∈ tempFields, ∀ i, u.fld f i = t.fld f i) :
    TempsShown u compute port control photonic where
  atCompute := (same _ (by simp [tempFields]) _).trans h.atCompute
  atPort := (same _ (by simp [tempFields]) _).trans h.atPort
  atControl := (same _ (by simp [tempFields]) _).trans h.atControl
  atPhotonic := (same _ (by simp [tempFields]) _).trans h.atPhotonic
  dies d hd := (same _ (by simp [tempFields]) _).trans (h.dies d hd)

theorem foldl_setFld_fld {f g : Field} (h : fieldSlot (fieldKey g 0 0) ≠ fieldSlot (fieldKey f 0 0)) (v : Nat → Nat) (l : List Nat)
    (s : State) (i b : Nat) : (l.foldl (fun s d => s.setFld f (v d) d) s).fld g i b = s.fld g i b := by
  induction l generalizing s with
  | nil => rfl
  | cons d l ih => rw [List.foldl_cons, ih, State.fld_setFld_slot _ h]

theorem foldl_setFld_only (f : Field) (v : Nat → Nat) (l : List Nat) (s : State) :
    OnlyRegs s (l.foldl (fun s d => s.setFld f (v d) d) s) := by
  induction l generalizing s with
  | nil => rfl
  | cons d l ih =>
    rw [List.foldl_cons]
    exact Eq.trans (ih _) rfl

section
variable (s : State) (compute port : List Byte) (control : Byte) (photonic : List Byte)

theorem State.tempsShown_only : OnlyRegs s (s.tempsShown compute port control.toNat photonic) :=
  Eq.trans (foldl_setFld_only _ _ _ _) rfl

theorem State.tempsShown_fld : TempsShown (s.tempsShown compute port control.toNat photonic) compute port control photonic := by
  have small : ∀ l, hottest l % 256 = hottest l := fun l => Nat.mod_eq_of_lt (hottest_lt l)
  unfold State.tempsShown
  refine ⟨?_, ?_, ?_, ?_, fun d hd => ?_⟩
  · rw [foldl_setFld_fld (by decide), State.fld_setFld_other _ (by decide), State.fld_setFld_other _ (by decide),
      State.fld_setFld_other _ (by decide), State.fld_setFld]
    exact small compute
  · rw [foldl_setFld_fld (by decide), State.fld_setFld_other _ (by decide), State.fld_setFld_other _ (by decide), State.fld_setFld]
    exact small port
  · rw [foldl_setFld_fld (by decide), State.fld_setFld_other _ (by decide), State.fld_setFld]
    exact Nat.mod_eq_of_lt control.isLt
  · rw [foldl_setFld_fld (by decide), State.fld_setFld]
    exact small photonic
  · refine (foldl_each (get := fun s d => s.fld F.CD_STATUS.TEMP d) (f := fun d _ => dieTemp compute d) (fun _ => True)
      (fun _ _ _ => trivial) (fun s k _ => ?_) (fun s k m h => State.fld_setFld_inst _ _ _ h) List.nodup_range trivial d).trans
      (if_pos (List.mem_range.mpr hd))
    exact (State.fld_setFld _ _ _ _ _).trans (Nat.mod_eq_of_lt (BitVec.isLt _))
end

theorem allClusters_nodup : allClusters.Nodup := by
  unfold allClusters
  exact List.nodup_range

theorem mem_allClusters {cl : Nat} : cl ∈ allClusters ↔ cl < 256 := by
  unfold allClusters
  exact List.mem_range

theorem State.throttleCluster_clk_ne (s : State) {k m : Nat} (h : m ≠ k) : (s.throttleCluster k).clk m = s.clk m :=
  State.clk_setClk_ne _ _ _ _ h

/-- The throttle of every cluster after the die temperatures. -/
theorem foldl_throttleCluster (s : State) {cl : Nat} (h : cl < 256) :
    (allClusters.foldl State.throttleCluster s).clk cl = { s.clk cl with
      throttle := if s.pw.hotAll || s.pw.hotDies.contains (cl / 16)
        then Nat.max (s.clk cl).throttle (26 - ((s.clk cl).point - 1)) else 0 } := by
  refine (foldl_each (g := State.throttleCluster) (get := State.clk)
    (f := fun cl x => { x with throttle :=
      if s.pw.hotAll || s.pw.hotDies.contains (cl / 16) then Nat.max x.throttle (26 - (x.point - 1)) else 0 })
    (fun t => t.pw.hotAll = s.pw.hotAll ∧ t.pw.hotDies = s.pw.hotDies) (fun t k h => h) (fun t k h => ?_)
    (fun t k m h => State.throttleCluster_clk_ne t h) allClusters_nodup ⟨rfl, rfl⟩ cl).trans (if_pos (mem_allClusters.mpr h))
  obtain ⟨all, dies⟩ := h
  unfold State.throttleCluster
  rw [State.clk_setClk, all, dies]

theorem foldl_throttleCluster_only (l : List Nat) (s : State) :
    l.foldl State.throttleCluster s = { s with pw.clk := (l.foldl State.throttleCluster s).pw.clk } := by
  induction l generalizing s with
  | nil => rfl
  | cons d l ih =>
    rw [List.foldl_cons]
    exact Eq.trans (ih _) rfl

/-- The state with the temperatures read. -/
def State.tempsTaken (s : State) (compute port : List Byte) (control : Nat) (photonic : List Byte) : State :=
  { s with
    pw.compute := compute, pw.port := port, pw.control := BitVec.ofNat 8 control, pw.photonic := photonic
    pw.hotDies := s.hotDiesAt compute, pw.hotAll := decide (100 ≤ hottest port) || decide (100 ≤ control) }

/-- The state once the temperatures are shown and the clusters are throttled. -/
def State.throttled (s : State) (compute port : List Byte) (control : Nat) (photonic : List Byte) : State :=
  (allClusters.foldl State.throttleCluster
      ((s.tempsTaken compute port control photonic).tempsShown compute port control photonic)).powerState
    (s.fld F.PWR_STATUS.STATE = 1)

/-- The interrupt and the error of a throttle that begins. -/
def State.throttleShown (s : State) (fresh : Bool) : State :=
  if fresh then (s.setInt F.PWR_INT_STATUS.THERMAL).raise 0x0902 1 else s

theorem State.dieTemperatureRead_eq {s : State} (powered : s.powered = true) (compute port : List Byte) (control : Nat)
    (photonic : List Byte) :
    ∃ fresh, s.dieTemperatureRead compute port control photonic =
      (((s.throttled compute port control photonic).throttleShown fresh).overheats compute port control photonic).watchCool :=
  ⟨_, if_neg (by simp [powered])⟩

theorem State.throttleShown_signals (s : State) (fresh : Bool) : OnlySignals s (s.throttleShown fresh) := by
  unfold State.throttleShown
  split
  · exact (OnlySignals.refl s).setInt.raise
  · rfl

theorem State.throttleShown_fld (s : State) (fresh : Bool) {f : Field}
    (h : fieldSlot (fieldKey f 0 0) ≠ fieldSlot (fieldKey F.PWR_INT_STATUS.THERMAL 0 0)) (i b : Nat) :
    (s.throttleShown fresh).fld f i b = s.fld f i b := by
  unfold State.throttleShown
  split
  · rw [State.fld_raise, State.fld_setInt_slot _ h]
  · rfl

theorem State.watchCool_only (s : State) : s.watchCool = { s with er.coolSince := s.watchCool.er.coolSince } := by
  unfold State.watchCool
  split <;> rfl

/-- What the throttle of the clusters leaves and shows. -/
structure Throttled (s t : State) (compute port : List Byte) (control : Byte) (photonic : List Byte) : Prop where
  frame : t = { s with rg := t.rg, pw := t.pw }
  dies : t.pw.hotDies = s.hotDiesAt compute
  clocks : ∀ cl, cl < 256 → t.clk cl = { s.clk cl with
    throttle := if t.pw.hotAll || t.pw.hotDies.contains (cl / 16)
      then Nat.max (s.clk cl).throttle (26 - ((s.clk cl).point - 1)) else 0 }
  temps : TempsShown t compute port control photonic

theorem State.throttled_throttles (s : State) (compute port : List Byte) (control : Byte) (photonic : List Byte) :
    Throttled s (s.throttled compute port control.toNat photonic) compute port control photonic := by
  unfold State.throttled
  have taken : s.tempsTaken compute port control.toNat photonic = { s with
    pw := (s.tempsTaken compute port control.toNat photonic).pw } := rfl
  have dieList : (s.tempsTaken compute port control.toNat photonic).pw.hotDies = s.hotDiesAt compute := rfl
  have clkList : (s.tempsTaken compute port control.toNat photonic).pw.clk = s.pw.clk := rfl
  generalize s.tempsTaken compute port control.toNat photonic = u at taken dieList clkList
  have shown := u.tempsShown_fld compute port control photonic
  have regs := u.tempsShown_only compute port control photonic
  generalize u.tempsShown compute port control.toNat photonic = v at shown regs
  have clocks := foldl_throttleCluster_only allClusters v
  have each := @foldl_throttleCluster v
  generalize allClusters.foldl State.throttleCluster v = w at clocks each
  have pw : v.pw = u.pw := by rw [regs]
  have all : w.pw.hotAll = u.pw.hotAll := by rw [clocks, pw]
  have dies : w.pw.hotDies = u.pw.hotDies := by rw [clocks, pw]
  refine ⟨?_, dies.trans dieList, fun cl h => ?_, shown.of fun f hf i => ?_⟩
  · show { w with rg := (w.powerState _).rg } = _
    rw [clocks, regs, taken]
    rfl
  · show w.clk cl = { s.clk cl with
      throttle := if w.pw.hotAll || w.pw.hotDies.contains (cl / 16)
        then Nat.max (s.clk cl).throttle (26 - ((s.clk cl).point - 1)) else 0 }
    have clk : v.clk cl = s.clk cl := by
      show look _ v.pw.clk cl = _
      rw [pw, clkList]
      rfl
    rw [each h, all, dies, pw, clk]
  · have slot : fieldSlot (fieldKey f 0 0) ≠ fieldSlot (fieldKey F.PWR_STATUS.STATE 0 0) := by
      revert f
      decide
    rw [State.powerState, State.fld_setFld_slot _ slot, clocks]
    rfl

theorem mem_hotDiesAt {s : State} {compute : List Byte} {d : Nat} (h : d < 16) :
    d ∈ s.hotDiesAt compute ↔ 100 ≤ dieTemp compute d ∨ (d ∈ s.pw.hotDies ∧ 98 < dieTemp compute d) := by
  simp [State.hotDiesAt, h]

theorem dieTemperatureRead_shows {s : State} {compute port : List Byte} {control : Byte} {photonic : List Byte}
    (powered : s.powered = true) :
    ∃ t, exec (.dieTemperatureRead compute port control photonic) s = .next t ∧
      t.fld F.PWR_TEMP.COMPUTE = hottest compute ∧ t.fld F.PWR_TEMP.PORT = hottest port ∧
      t.fld F.PWR_TEMP.CONTROL = control.toNat ∧ t.fld F.PWR_TEMP.PHOTONIC = hottest photonic ∧
      (∀ d, d < 16 → t.fld F.CD_STATUS.TEMP d = dieTemp compute d) ∧
      (∀ d, d < 16 → (d ∈ t.pw.hotDies ↔ 100 ≤ dieTemp compute d ∨ (d ∈ s.pw.hotDies ∧ 98 < dieTemp compute d))) ∧
      (∀ cl, cl < 256 → (t.clk cl).point = (s.clk cl).point ∧
        (t.clk cl).throttle = if t.pw.hotAll ∨ cl / 16 ∈ t.pw.hotDies
          then Nat.max (s.clk cl).throttle (26 - ((s.clk cl).point - 1)) else 0) ∧
      (∀ b, b ∈ compute ++ port ++ [control] → 110 ≤ b.toNat → Raised s t 0x0903 3 0) ∧
      (∀ q, q < 4 → 90 ≤ dieTemp photonic q → Raised s t 0x3004 3 (6 * q)) ∧
      SameWork s t ∧ t.mm = s.mm ∧ t.bt = s.bt ∧ t.tm = s.tm := by
  obtain ⟨fresh, ran⟩ := State.dieTemperatureRead_eq powered compute port control.toNat photonic
  have throttled := s.throttled_throttles compute port control photonic
  generalize s.throttled compute port control.toNat photonic = u at ran throttled
  have signals := u.throttleShown_signals fresh
  have shown := fun f => @State.throttleShown_fld u fresh f
  generalize u.throttleShown fresh = v at ran signals shown
  obtain ⟨errors, hot, light⟩ := v.overheats_raised compute port control photonic
  generalize v.overheats compute port control.toNat photonic = w at ran errors hot light
  have cool := w.watchCool_only
  have time : v.tm = s.tm := by rw [signals, throttled.frame]
  have whole : s.dieTemperatureRead compute port control.toNat photonic = { s with
      rg := v.rg, pw := u.pw, hl.out := v.hl.out, op := v.op
      er := { w.er with coolSince := w.watchCool.er.coolSince } } := by
    rw [ran, cool, errors.frame, signals, throttled.frame]
  have temps : TempsShown v compute port control photonic :=
    throttled.temps.of fun f hf i => shown f (by revert f; decide) i 0
  obtain ⟨atCompute, atPort, atControl, atPhotonic, atDies⟩ := temps
  refine ⟨_, congrArg Host.Outcome.next whole, atCompute, atPort, atControl, atPhotonic, atDies, fun d hd => ?_,
    fun cl hcl => ?_, fun b hb h => ?_, fun q hq h => ?_, ⟨rfl, rfl, rfl, rfl, rfl⟩, rfl, rfl, rfl⟩
  · exact (congrArg (d ∈ ·) throttled.dies).to_iff.trans (mem_hotDiesAt hd)
  · have clock := throttled.clocks cl hcl
    have point := congrArg Clk.point clock
    have throttle := congrArg Clk.throttle clock
    simp only [Bool.or_eq_true, List.contains_iff_mem] at throttle
    exact ⟨point, throttle⟩
  · obtain ⟨e, he, code, sev, inst, at_⟩ := hot b hb h
    exact ⟨e, he, code, sev, inst, at_.trans (congrArg Tm.now time)⟩
  · obtain ⟨e, he, code, sev, inst, at_⟩ := light q hq h
    exact ⟨e, he, code, sev, inst, at_.trans (congrArg Tm.now time)⟩

/-- Settles O20: each command by its guard, the temperatures by the folds over the dies and clusters. -/
theorem suppliesAndTemperatures : Obligations.SuppliesAndTemperatures :=
  ⟨fun _ _ => ⟨fun _ _ => pwrLimitWrite_sets, fun _ => vinLow_reports, droop_stretches, droopCalibration_begins,
      fun _ => droopSlotEnd_ends, park_parks⟩,
   fun _ _ _ _ _ => dieTemperatureRead_shows⟩

end Sys2Proof.Machine
end

section
/-! SUPPORT. Messages of the management port (R348, R490, R543, R544, R554, R556). -/

namespace Sys2Proof.Machine

/-- An answer to the management port goes out, and nothing else changes. -/
theorem State.emit_mgmt (s : State) (code status : Nat) (d : List Byte) :
    s.emit (.mgmt code status d) = { s with hl.out := s.hl.out ++ [.mgmt code status d] } := rfl

/-! ## Messages over I3C that read (R490, R556) -/

section
variable {s : State}

theorem State.mgmtServes_on (serves : s.mgmtServes = true) : ¬ (s.tm.power = .off ∨ s.tm.power = .halted) := by
  unfold State.mgmtServes at serves
  rintro (h | h) <;> simp [h] at serves

theorem getIdentity_answers (serves : s.mgmtServes = true) :
    ∃ t, exec .getIdentity s = .next t ∧ t.hl.out = s.hl.out ++ [.mgmt 1 0 identityReply.data] ∧
      t.rg.fields = s.rg.fields ∧ t = { s with rg := t.rg, hl.out := t.hl.out } :=
  ⟨_, congrArg Host.Outcome.next (State.onI3c_served 1 _ serves), rfl, rfl, rfl⟩

theorem getCert_answers (serves : s.mgmtServes = true) (off len : Nat) :
    ∃ t, exec (.getCert off len) s = .next t ∧
      t.hl.out = s.hl.out ++ [if len ≤ 1024 ∧ off + len ≤ 1600
        then .mgmt 2 0 ((List.range len).map (fun i => Config.certificate (off + i))) else .mgmt 2 5 []] ∧
      t.rg.fields = s.rg.fields ∧ t = { s with rg := t.rg, hl.out := t.hl.out } := by
  refine ⟨_, congrArg Host.Outcome.next (State.onI3c_served 2 _ serves), ?_, rfl, rfl⟩
  rw [State.emit_mgmt]
  by_cases h : len ≤ 1024 ∧ off + len ≤ 1600
  · rw [certReply, if_neg (by omega), if_pos h]
    rfl
  · rw [certReply, if_pos (by omega), if_neg h]
    rfl

theorem getBootCause_answers (serves : s.mgmtServes = true) :
    ∃ t, exec .getBootCause s = .next t ∧ t.hl.out = s.hl.out ++ [.mgmt 4 0 (toLE 4 (s.word 0x0C 0 0x100) ++
        toLE 4 (s.word 0x0C 0 0x104) ++ toLE 4 (s.word 0x0C 0 0x108))] ∧
      t.rg.fields = s.rg.fields ∧ t = { s with rg := t.rg, hl.out := t.hl.out } := by
  have ran : s.getBootCause = (s.addCnt C.MG_CNT_I3C_MSGS 1).emit (.mgmt 4 0 s.bootCauseReply.data) :=
    if_neg fun off => State.mgmtServes_on serves (.inl off)
  exact ⟨_, congrArg Host.Outcome.next ran, rfl, rfl, rfl⟩

theorem getSignState_answers (serves : s.mgmtServes = true) :
    ∃ t, exec .getSignState s = .next t ∧
      t.hl.out = s.hl.out ++ [.mgmt 6 0 (toLE 8 (s.bt.sign.next.getD s.nextBlock) ++ toLE 8 s.indicesLeft)] ∧
      t.rg.fields = s.rg.fields ∧ t = { s with rg := t.rg, hl.out := t.hl.out } :=
  ⟨_, congrArg Host.Outcome.next (State.onI3c_served 6 _ serves), rfl, rfl, rfl⟩

theorem clearCount_clears (serves : s.mgmtServes = true) :
    ∃ t, exec .clearCount s = .next t ∧ t.hl.out = s.hl.out ++ [.mgmt 7 0 []] ∧ t.failCount = 0 ∧
      t.preferred = s.preferred ∧ t.bt.fuses = s.bt.fuses ∧ t.rg.fields = s.rg.fields :=
  ⟨_, congrArg Host.Outcome.next (State.onI3c_served 7 _ serves), rfl,
    State.commitState_count_failCount _ _, State.commitState_count_preferred _ _, rfl, rfl⟩

/-! ## REG_READ and REG_WRITE (R543, R544, R554) -/

/-- The state with the message counted. -/
def State.regCounted (s : State) : State := (s.addCnt C.MG_CNT_I3C_MSGS 1).addCnt C.MG_CNT_REG 1

section
variable {off size : Nat} (on : s.tm.power ≠ .off) (awake : s.tm.power ≠ .halted)
include on awake

theorem State.regMessage_runs (op : State → State) : s.regMessage op = op s.regCounted := if_neg (by simp [on, awake])

omit on awake in
/-- A read that the window serves, outside a stop. -/
theorem State.readReg_served {r : Requester} (running : s.stopState = 0) (served : s.regServed off size = true)
    (free : s.accessWaits (offCls off) (offInst off) r = false) :
    s.readReg r off size = some { st := (s.addCnt C.GL_CNT_REG_READS 1).readEffect off, value := s.regValue off size } := by
  simp [State.readReg, running, served, free]

omit on awake in
theorem State.readReg_unserved {r : Requester} (running : s.stopState = 0) (unserved : s.regServed off size = false) :
    s.readReg r off size = some { st := s, status := 1 } := by
  simp [State.readReg, running, unserved]

omit on awake in
theorem State.readEffect_only (s : State) (off : Nat) : OnlyRegs s (s.readEffect off) := by
  unfold State.readEffect
  dsimp only
  split
  · rfl
  · split <;> rfl

theorem regRead_answers (running : s.stopState = 0) (served : s.regServed off size = true)
    (free : s.accessWaits (offCls off) (offInst off) .mgmt = false) :
    ∃ t, exec (.regRead off size) s = .next t ∧
      t.hl.out = s.hl.out ++ [.mgmt 0x10 0 (toLE size (s.regCounted.regValue off size))] ∧
      t = { s with rg := t.rg, hl.out := t.hl.out } := by
  let u := (s.regCounted.addCnt C.GL_CNT_REG_READS 1).readEffect off
  have effect : u = { s with rg := u.rg } := State.readEffect_only _ _
  have ran : s.regMessage (fun s => s.mgmtRead off size) = u.emit (.mgmt 0x10 0 (toLE size (s.regCounted.regValue off size))) := by
    rw [State.regMessage_runs on awake, State.mgmtRead, State.readReg_served (s := s.regCounted) running served free]
    rfl
  refine ⟨_, congrArg Host.Outcome.next ran, ?_, ?_⟩ <;> rw [State.emit_mgmt, effect]

theorem regRead_unserved (running : s.stopState = 0) (unserved : s.regServed off size = false) :
    ∃ t, exec (.regRead off size) s = .next t ∧ t.hl.out = s.hl.out ++ [.mgmt 0x10 5 []] ∧
      t.rg.fields = s.rg.fields ∧ t = { s with rg := t.rg, hl.out := t.hl.out } := by
  have ran : s.regMessage (fun s => s.mgmtRead off size) = s.regCounted.emit (.mgmt 0x10 5 []) := by
    rw [State.regMessage_runs on awake, State.mgmtRead, State.readReg_unserved (s := s.regCounted) running unserved]
    rfl
  exact ⟨_, congrArg Host.Outcome.next ran, rfl, rfl, rfl⟩

theorem regWrite_unserved {v : W64} (unserved : s.regServed off size = false)
    (free : s.accessWaits (offCls off) (offInst off) .mgmt = false) :
    ∃ t, exec (.regWrite off size v) s = .next t ∧ t.hl.out = s.hl.out ++ [.mgmt 0x11 5 []] ∧
      t.rg.fields = s.rg.fields ∧ t = { s with rg := t.rg, hl.out := t.hl.out } := by
  have answer : s.regCounted.writeReg .mgmt off size v.toNat = some { st := s.regCounted, status := 1 } := by
    have unserved' : s.regCounted.regServed off size = false := unserved
    have free' : s.regCounted.accessWaits (offCls off) (offInst off) .mgmt = false := free
    simp [State.writeReg, unserved', free']
  have ran : s.regMessage (fun s => s.mgmtWrite off size v.toNat) = s.regCounted.emit (.mgmt 0x11 5 []) := by
    rw [State.regMessage_runs on awake, State.mgmtWrite, answer]
    rfl
  exact ⟨_, congrArg Host.Outcome.next ran, rfl, rfl, rfl⟩

omit on awake in
/-- A write of a page that another requester has locked. -/
theorem State.writeReg_locked {r : Requester} {v : Nat} (served : s.regServed off size = true)
    (free : s.accessWaits (offCls off) (offInst off) r = false) (locked : s.lockedFor (offCls off) (offInst off) r = true)
    (other : offReg off ≠ 0x024) :
    s.writeReg r off size v =
      some { st := (s.addCnt C.GL_CNT_REG_WRITES 1).lockAbort (offCls off) (offInst off), status := 2 } := by
  have locked' : (s.addCnt C.GL_CNT_REG_WRITES 1).lockedFor (offCls off) (offInst off) r = true := locked
  simp [State.writeReg, served, free, locked', other]

theorem regWrite_locked {v : W64} (served : s.regServed off size = true)
    (free : s.accessWaits (offCls off) (offInst off) .mgmt = false)
    (locked : s.lockedFor (offCls off) (offInst off) .mgmt = true) (other : offReg off ≠ 0x024) :
    ∃ t, exec (.regWrite off size v) s = .next t ∧ t.hl.out = s.hl.out ++ [.mgmt 0x11 3 []] ∧
      t.fld (F.PG_STATUS.LOCK_ABORT (offCls off)) (offInst off) = 1 ∧
      FieldsBut s t [fieldKey (F.PG_STATUS.LOCK_ABORT (offCls off)) (offInst off) 0] ∧
      t = { s with rg := t.rg, hl.out := t.hl.out } := by
  let u := (s.regCounted.addCnt C.GL_CNT_REG_WRITES 1).lockAbort (offCls off) (offInst off)
  have ran : s.regMessage (fun s => s.mgmtWrite off size v.toNat) = u.emit (.mgmt 0x11 3 []) := by
    rw [State.regMessage_runs on awake, State.mgmtWrite, State.writeReg_locked (s := s.regCounted) served free locked other]
    rfl
  refine ⟨_, congrArg Host.Outcome.next ran, rfl, ?_, ?_, rfl⟩
  · exact State.fld_setFld (s.regCounted.addCnt C.GL_CNT_REG_WRITES 1) (F.PG_STATUS.LOCK_ABORT (offCls off)) 1 (offInst off) 0
  · exact (FieldsBut.refl s _).setFld (List.mem_singleton_self _)

theorem regWrite_word {v : W32} (served : s.regServed off 4 = true)
    (free : s.accessWaits (offCls off) (offInst off) .mgmt = false)
    (mine : s.lockedFor (offCls off) (offInst off) .mgmt = false) :
    ∃ t, exec (.registerWrite .mgmt off v) s.regCounted = .next t ∧
      exec (.regWrite off 4 (v.setWidth 64)) s = .next (t.emit (.mgmt 0x11 0 [])) := by
  have same : (v.setWidth 64).toNat = v.toNat := by
    have := v.isLt
    simp only [BitVec.toNat_setWidth]
    omega
  have taken : ∃ t, s.regCounted.writeReg .mgmt off 4 v.toNat = some { st := t } := by
    have served' : s.regCounted.regServed off 4 = true := served
    have free' : s.regCounted.accessWaits (offCls off) (offInst off) .mgmt = false := free
    have mine' : (s.regCounted.addCnt C.GL_CNT_REG_WRITES 1).lockedFor (offCls off) (offInst off) .mgmt = false := mine
    unfold State.writeReg
    simp only [free', served', mine', Bool.not_true, Bool.false_eq_true, if_false]
    split
    · exact ⟨_, rfl⟩
    · split <;> exact ⟨_, rfl⟩
  obtain ⟨t, written⟩ := taken
  refine ⟨t, congrArg Host.Outcome.next ?_, congrArg Host.Outcome.next ?_⟩
  · rw [State.registerWrite, written]
  · rw [State.regMessage_runs on awake, State.mgmtWrite, same, written]
    rfl

theorem regWrite_long {v : W64} (served : s.regServed off 8 = true)
    (free : s.accessWaits (offCls off) (offInst off) .mgmt = false)
    (mine : s.lockedFor (offCls off) (offInst off) .mgmt = false) :
    ∃ t, exec (.regWrite off 8 v) s = .next t ∧ t.hl.out = s.hl.out ++ [.mgmt 0x11 0 []] ∧
      t.rg.fields = s.rg.fields ∧ t = { s with rg := t.rg, hl.out := t.hl.out } := by
  obtain ⟨aligned, counter⟩ : off % 8 = 0 ∧ cntHere (offCls off) (offReg off) = true := by
    simp only [State.regServed, Bool.and_eq_true, Bool.or_eq_true, decide_eq_true_eq] at served
    obtain ⟨-, ⟨four, -⟩ | ⟨⟨-, aligned⟩, here⟩⟩ := served
    · omega
    · exact ⟨aligned, here⟩
  have whole : offReg off / 8 * 8 = offReg off := by
    unfold offReg
    omega
  have other : offReg off ≠ 0x024 := by omega
  have written : s.regCounted.writeReg .mgmt off 8 v.toNat = some { st := s.regCounted.addCnt C.GL_CNT_REG_WRITES 1 } := by
    have served' : s.regCounted.regServed off 8 = true := served
    have free' : s.regCounted.accessWaits (offCls off) (offInst off) .mgmt = false := free
    have mine' : (s.regCounted.addCnt C.GL_CNT_REG_WRITES 1).lockedFor (offCls off) (offInst off) .mgmt = false := mine
    simp [State.writeReg, served', free', mine', whole, counter, other]
  have ran : s.regMessage (fun s => s.mgmtWrite off 8 v.toNat) =
      (s.regCounted.addCnt C.GL_CNT_REG_WRITES 1).emit (.mgmt 0x11 0 []) := by
    rw [State.regMessage_runs on awake, State.mgmtWrite, written]
    rfl
  exact ⟨_, congrArg Host.Outcome.next ran, rfl, rfl, rfl⟩
end

theorem setdasa_keeps {addr : BitVec 7} (on : s.tm.power ≠ .off) :
    ∃ t, exec (.setdasa addr) s = .next t ∧ t.fld F.MG_STATUS.DYN_VALID = 1 ∧ t.fld F.MG_STATUS.DYN_ADDR = addr.toNat ∧
      t.fld F.MG_INT_STATUS.ATTACHED = 1 ∧
      FieldsBut s t [fieldKey F.MG_STATUS.DYN_VALID 0 0, fieldKey F.MG_STATUS.DYN_ADDR 0 0,
        fieldKey F.MG_INT_STATUS.ATTACHED 0 0] ∧ OnlySignals s t := by
  have ran : s.setdasaOp addr.toNat =
      ((s.setFld F.MG_STATUS.DYN_VALID 1).setFld F.MG_STATUS.DYN_ADDR addr.toNat).setInt F.MG_INT_STATUS.ATTACHED := if_neg on
  refine ⟨_, congrArg Host.Outcome.next ran, ?_, ?_, ?_, ?_, (OnlySignals.refl s).setFld.setFld.setInt⟩
  · rw [State.fld_setInt_other _ (by decide), State.fld_setFld_other _ (by decide), State.fld_setFld]
    rfl
  · rw [State.fld_setInt_other _ (by decide), State.fld_setFld]
    exact Nat.mod_eq_of_lt addr.isLt
  · rw [State.fld_setInt]
    rfl
  · exact (((FieldsBut.refl s _).setFld (by simp)).setFld (by simp)).setInt (by simp)
end

/-- Settles O25, each message by what answers it. -/
theorem managementMessages : Obligations.ManagementMessages :=
  ⟨fun _ serves => ⟨getIdentity_answers serves, getCert_answers serves, getBootCause_answers serves,
      getSignState_answers serves, clearCount_clears serves⟩,
   fun _ => ⟨fun _ _ on awake running =>
      ⟨fun served free => ⟨regRead_answers on awake running served free, fun _ => regWrite_locked on awake served free⟩,
       fun _ => regWrite_word on awake, fun _ => regWrite_long on awake,
       fun unserved free => ⟨regRead_unserved on awake running unserved, fun _ => regWrite_unserved on awake unserved free⟩⟩,
    fun _ => setdasa_keeps⟩⟩

end Sys2Proof.Machine
end

section
/-! SUPPORT. The global stop (R516 to R520): what a trace record leaves of it, and the six commands. -/

namespace Sys2Proof.Machine

/-! ## What a trace record that stops nothing leaves of the stop page (class 0x43) -/

/-- From `s` to `t` the record of the stop and its page are kept. -/
structure StopKept (s t : State) : Prop where
  st : t.st = s.st
  fields : ∀ k, k / 2 ^ 38 = 0x43 → ∀ d, look d t.rg.fields k = look d s.rg.fields k
  cnts : ∀ k, k / 2 ^ 32 = 0x43 → look 0 t.rg.cnts k = look 0 s.rg.cnts k

namespace StopKept

theorem refl (s : State) : StopKept s s := ⟨rfl, fun _ _ _ => rfl, fun _ _ => rfl⟩

theorem trans {s t u : State} (h : StopKept s t) (h' : StopKept t u) : StopKept s u where
  st := h'.st.trans h.st
  fields k hk d := (h'.fields k hk d).trans (h.fields k hk d)
  cnts k hk := (h'.cnts k hk).trans (h.cnts k hk)

variable {s t : State}

theorem same (h : StopKept s t) {u : State} (st : u.st = t.st := by rfl) (fields : u.rg.fields = t.rg.fields := by rfl)
    (cnts : u.rg.cnts = t.rg.cnts := by rfl) : StopKept s u :=
  h.trans ⟨st, fun _ _ _ => by rw [fields], fun _ _ => by rw [cnts]⟩

theorem setFld (h : StopKept s t) {f : Field} {v i b : Nat} (hk : fieldKey f i b / 2 ^ 38 ≠ 0x43) : StopKept s (t.setFld f v i b) :=
  h.trans ⟨rfl, fun _ hp _ => look_put_other _ _ (fun e => hk (e ▸ hp)), fun _ _ => rfl⟩

theorem addCnt (h : StopKept s t) {c : Cnt} {n i b : Nat} (hk : cntKey c i b / 2 ^ 32 ≠ 0x43) : StopKept s (t.addCnt c n i b) :=
  h.trans ⟨rfl, fun _ _ _ => rfl, fun _ hp => look_put_ne _ _ _ (fun e => hk (e ▸ hp))⟩

theorem setInt (h : StopKept s t) {f : Field} {i : Nat} (hk : fieldKey f i 0 / 2 ^ 38 ≠ 0x43) : StopKept s (t.setInt f i) :=
  (h.setFld (v := 1) hk).same (by simp) (State.setInt_fields t f i) (by rw [State.setInt_frame])

theorem recallLine (h : StopKept s t) (line : Nat) (w : List RecallWait) : StopKept s (t.recall line w) := by
  unfold State.recall
  split
  · exact h.same
  · refine addCnt ?_ (by decide)
    exact h.same (by simp) (by simp) (by simp)

theorem devWriteLine (h : StopKept s t) (a : Nat) (d : List Byte) : StopKept s (t.devWriteLine a d) := by
  unfold State.devWriteLine
  split
  · exact h.recallLine _ _
  · exact h.same

theorem devWrite (h : StopKept s t) (a : Nat) (d : List Byte) : StopKept s (t.devWrite a d) := by
  unfold State.devWrite
  generalize units64 a d.length = l
  induction l generalizing t with
  | nil => exact h
  | cons x r ih => exact ih (h.devWriteLine _ _)

theorem traceStore (h : StopKept s t) (r : TraceRec) : StopKept s (t.traceStore r) := by
  refine t.traceStore_cases r _ ?_ ?_ (fun a n => ?_)
  · exact (h.addCnt (by decide)).setInt (by decide)
  · exact (((h.setFld (by decide)).setInt (by decide)).addCnt (by decide)).setInt (by decide)
  · have stored : StopKept s (((t.devWrite a (r.bytes t.tm.now)).addCnt C.TRC_WR 32).addCnt C.TRC_CNT_RECORDS 1) :=
      ((h.devWrite _ _).addCnt (by decide)).addCnt (by decide)
    exact stored.same

theorem traceBudgeted (h : StopKept s t) (r : TraceRec) : StopKept s (t.traceBudgeted r) := by
  have owed : StopKept s t.traceOwed := by
    unfold State.traceOwed
    split
    · exact (h.traceStore _).same
    · exact h
  unfold State.traceBudgeted
  dsimp only
  split
  · have counted : StopKept s ((t.traceOwed.addCnt C.TRC_CNT_DROPPED 1).setInt F.TRC_INT_STATUS.DROPPED) :=
      (owed.addCnt (by decide)).setInt (by decide)
    exact counted.same
  · exact owed.traceStore r

/-- A record of a trace whose trigger does not stop the device. -/
theorem trace (h : StopKept s t) (r : TraceRec) (off : t.fld F.TRC_TRIG.STOP = 0) : StopKept s (t.trace r) := by
  unfold State.trace
  split
  · refine traceBudgeted ?_ r
    have fires : StopKept s ((t.setFld F.TRC_STATUS.TRIGGERED 1).setInt F.TRC_INT_STATUS.TRIGGER) :=
      (h.setFld (by decide)).setInt (by decide)
    have stays : ((t.setFld F.TRC_STATUS.TRIGGERED 1).setInt F.TRC_INT_STATUS.TRIGGER).fld F.TRC_TRIG.STOP = 0 := by
      rw [State.fld_setInt_other _ (by decide), State.fld_setFld_other _ (by decide), off]
    unfold State.traceTrigger
    dsimp only
    split
    · rw [if_neg (by rw [stays]; decide)]
      exact fires
    · exact h
  · exact h

theorem fld (h : StopKept s t) {f : Field} (hk : fieldKey f 0 0 / 2 ^ 38 = 0x43) : t.fld f = s.fld f := h.fields _ hk _
theorem cnt (h : StopKept s t) {c : Cnt} (hk : cntKey c 0 0 / 2 ^ 32 = 0x43) : t.cnt c = s.cnt c := h.cnts _ hk

end StopKept

/-- No access is held: none is served. -/
theorem State.drain_of_none {s : State} (none : s.st.held = []) : s.drain = s := by
  unfold State.drain
  rw [none]
  show { s with st.held := [] } = s
  rw [← none]

/-! ## Triggers (R516, R517) -/

section
variable {s : State}

/-- A trigger taken. -/
theorem State.takeStop_taken (cause : Nat) (running : s.stopState = 0) (quiet : s.rs.run = none) (small : cause < 16) :
    let t := s.takeStop cause
    t.stopState = 1 ∧ t.fld F.STOP_STATUS.CAUSE = cause ∧ t.st.cut = s.tm.now + Nat.max 1000 (s.fld F.STOP_CFG.LEAD) ∧
      t.cnt C.STOP_TARGET = t.st.cut % 2 ^ 64 ∧ t.st.halted = [] := by
  have free : ¬ (s.stopState ≠ 0 ∨ s.rs.run.isSome) := by simp [running, quiet]
  let u := ((s.setFld F.STOP_STATUS.STATE 1).setFld F.STOP_STATUS.CAUSE cause).setFld F.STOP_STATUS.REFUSED 0
  let v := (u.setFld F.STOP_STATUS.PARTIAL 0).setCnt C.STOP_TARGET (u.tm.now + u.stopLead)
  have lead : u.stopLead = Nat.max 1000 (s.fld F.STOP_CFG.LEAD) := by
    simp only [State.stopLead, u]
    rw [State.fld_setFld_other _ (by decide), State.fld_setFld_other _ (by decide), State.fld_setFld_other _ (by decide)]
  have leadAfter : v.stopLead = Nat.max 1000 (s.fld F.STOP_CFG.LEAD) := by
    rw [← lead]
    simp only [State.stopLead, v]
    rw [State.fld_setCnt, State.fld_setFld_other _ (by decide)]
  have taken : s.takeStop cause = { v with
      st.trigger := s.tm.now, st.cut := s.tm.now + v.stopLead, st.halted := [], st.resumed := [] } := if_neg free
  intro t
  have ht : t = _ := taken
  have cut : t.st.cut = s.tm.now + Nat.max 1000 (s.fld F.STOP_CFG.LEAD) := by rw [ht, ← leadAfter]
  refine ⟨?_, ?_, cut, ?_, by rw [ht]⟩
  · have state : v.fld F.STOP_STATUS.STATE = 1 := by
      rw [State.fld_setCnt, State.fld_setFld_other _ (by decide), State.fld_setFld_other _ (by decide),
        State.fld_setFld_other _ (by decide), State.fld_setFld]
      rfl
    rw [ht]
    exact state
  · have shown : v.fld F.STOP_STATUS.CAUSE = cause := by
      rw [State.fld_setCnt, State.fld_setFld_other _ (by decide), State.fld_setFld_other _ (by decide), State.fld_setFld]
      exact Nat.mod_eq_of_lt small
    rw [ht]
    exact shown
  · have target : v.cnt C.STOP_TARGET = (s.tm.now + Nat.max 1000 (s.fld F.STOP_CFG.LEAD)) % 2 ^ 64 := by
      rw [State.cnt_setCnt, lead]
      rfl
    rw [cut, ht]
    exact target

theorem State.goOp_client {r : Requester} (client : r ≠ .firmware) : s.goOp r = s.takeStop 1 := if_neg client

theorem go_arms {r : Requester} (client : r ≠ .firmware) (hw : Writable s 0x43 0 r) (running : s.stopState = 0)
    (quiet : s.rs.run = none) :
    ∃ t, exec (.go r) s = .next t ∧ t.stopState = 1 ∧ t.fld F.STOP_STATUS.CAUSE = 1 ∧
      t.st.cut = s.tm.now + Nat.max 1000 (s.fld F.STOP_CFG.LEAD) ∧ t.cnt C.STOP_TARGET = t.st.cut % 2 ^ 64 ∧
      t.st.halted = [] ∧ SameWork s t ∧ t.mm = s.mm := by
  let u := s.addCnt C.GL_CNT_REG_WRITES 1
  have ran : s.opWrite r 0x43 0 0x104 1 (fun s => s.goOp r) = u.takeStop 1 := (hw.opWrite _ _ _).trans (State.goOp_client client)
  obtain ⟨state, cause, cut, target, halted⟩ := State.takeStop_taken (s := u) 1 running quiet (by decide)
  exact ⟨_, congrArg Host.Outcome.next ran, state, cause, cut, target, halted,
    ⟨State.takeStop_cq u 1, State.takeStop_wh u 1, State.takeStop_kv u 1, State.takeStop_tl u 1, State.takeStop_sc u 1⟩,
    State.takeStop_mm u 1⟩

theorem go_refused {r : Requester} (client : r ≠ .firmware) (hw : Writable s 0x43 0 r)
    (busy : s.stopState ≠ 0 ∨ s.rs.run ≠ none) :
    ∃ t, exec (.go r) s = .next t ∧ t.stopState = s.stopState ∧ t.fld F.STOP_STATUS.REFUSED = 1 ∧ OnlyRegs s t := by
  let u := s.addCnt C.GL_CNT_REG_WRITES 1
  have ran : s.opWrite r 0x43 0 0x104 1 (fun s => s.goOp r) = u.setFld F.STOP_STATUS.REFUSED 1 :=
    ((hw.opWrite _ _ _).trans (State.goOp_client client)).trans
      (State.takeStop_refused u 1 (busy.imp_right Option.isSome_iff_ne_none.mpr))
  refine ⟨_, congrArg Host.Outcome.next ran, ?_, ?_, rfl⟩
  · exact State.fld_setFld_other _ (by decide)
  · exact State.fld_setFld _ _ _ _ _

theorem debugInstruction_arms (offered : s.lcState = 0 ∨ s.lcState = 3) (running : s.stopState = 0) (quiet : s.rs.run = none) :
    ∃ t, exec .debugInstruction s = .next t ∧ t.stopState = 1 ∧ t.fld F.STOP_STATUS.CAUSE = 5 ∧
      t.st.cut = s.tm.now + Nat.max 1000 (s.fld F.STOP_CFG.LEAD) ∧ SameWork s t ∧ t.mm = s.mm := by
  obtain ⟨state, cause, cut, -, -⟩ := State.takeStop_taken 5 running quiet (by decide)
  exact ⟨_, congrArg Host.Outcome.next (if_pos offered), state, cause, cut, ⟨s.takeStop_cq 5, s.takeStop_wh 5, s.takeStop_kv 5, s.takeStop_tl 5, s.takeStop_sc 5⟩,
    s.takeStop_mm 5⟩

/-! ## Halt and capture (R517, R518) -/

theorem domainHalt_halts {d : Fin 315} (armed : s.stopState = 1) (due : s.st.cut ≤ s.tm.now) (runs : s.domHaltedOnce d = false)
    (fresh : s.st.resumed = []) :
    ∃ t, exec (.domainHalt d) s = .next t ∧ t.domHalted d = true ∧ t = { s with st.halted := t.st.halted } := by
  have ran : s.domainHalt d = { s with st.halted := s.st.halted ++ [(d.val, s.tm.now)] } :=
    if_pos ⟨armed, due, by simp [runs]⟩
  exact ⟨_, congrArg Host.Outcome.next ran, by simp [State.domHalted, fresh], rfl⟩

theorem halted_stops (untriggered : s.fld F.TRC_TRIG.STOP = 0) (armed : s.stopState = 1) (due : s.st.cut + 810 ≤ s.tm.now)
    (all : allDomains.all s.domHaltedOnce = true) :
    ∃ t, exec .halted s = .next t ∧ t.stopState = 2 ∧ t.fld F.STOP_INT_STATUS.HALTED = 1 ∧ Raised s t 0x4301 0 0 ∧
      t.cnt C.STOP_CNT_STOPS = (s.cnt C.STOP_CNT_STOPS + 1) % 2 ^ 64 ∧ SameWork s t := by
  let u := ((s.setFld F.STOP_STATUS.STATE 2).addCnt C.STOP_CNT_STOPS 1).setInt F.STOP_INT_STATUS.HALTED
  let r : TraceRec := { type := 0xE, flags := 1, arg0 := u.fld F.STOP_STATUS.CAUSE, arg1 := u.cnt C.STOP_TARGET }
  have ran : s.haltedOp = (u.trace r).raise 0x4301 0 := if_pos ⟨armed, due, all⟩
  have still : u.fld F.TRC_TRIG.STOP = 0 := by
    rw [State.fld_setInt_other _ (by decide), State.fld_addCnt, State.fld_setFld_other _ (by decide), untriggered]
  have kept := (StopKept.refl u).trace r still
  obtain ⟨e, he, code, sev, inst, time⟩ := State.raise_raised (u.trace r) 0x4301 0 0 0 0xFFFF 0xFFFF 0 0
  refine ⟨_, congrArg Host.Outcome.next ran, ?_, ?_, ⟨e, he, code, sev, inst, ?_⟩, ?_, ?_⟩
  · rw [State.stopState, State.fld_raise, kept.fld (by decide), State.fld_setInt_other _ (by decide), State.fld_addCnt,
      State.fld_setFld]
    rfl
  · rw [State.fld_raise, kept.fld (by decide), State.fld_setInt]
    rfl
  · rw [time, State.trace_tm, State.setInt_tm]
    rfl
  · rw [State.cnt_raise, kept.cnt (by decide), State.cnt_setInt, State.cnt_addCnt, State.cnt_setFld]
  · refine ⟨?_, ?_, ?_, ?_, ?_⟩
    · exact (State.trace_cq u r).trans (State.setInt_cq _ _ _)
    · exact (State.trace_wh u r).trans (State.setInt_wh _ _ _)
    · exact (State.trace_kv u r).trans (State.setInt_kv _ _ _)
    · exact (State.trace_tl u r).trans (State.setInt_tl _ _ _)
    · exact (State.trace_sc u r).trans (State.setInt_sc _ _ _)

/-- The bytes of a list, kept by their place where they are not zero. -/
def sparse (b : List Byte) : Mem := (b.zipIdx.filter (fun x => x.1 ≠ 0)).map (fun x => (x.2, x.1))

theorem rdByte_sparse_from (b : List Byte) (n i : Nat) :
    rdByte (((b.zipIdx n).filter (fun x => x.1 ≠ 0)).map (fun x => (x.2, x.1))) i = if n ≤ i then b.getD (i - n) 0 else 0 := by
  induction b generalizing n with
  | nil => simp [rdByte, look]
  | cons x b ih =>
    have step := ih (n + 1)
    simp only [rdByte] at step ⊢
    by_cases zero : x = 0
    · simp only [List.zipIdx_cons, List.filter_cons, zero, ne_eq, not_true_eq_false, decide_false, Bool.false_eq_true, if_false]
      simp only [ne_eq] at step
      rw [step]
      obtain below | rfl | above : i < n ∨ n = i ∨ n < i := by omega
      · rw [if_neg (by omega), if_neg (by omega)]
      · simp
      · rw [if_pos (by omega), if_pos (by omega), show i - n = (i - (n + 1)) + 1 by omega]
        rfl
    · simp only [List.zipIdx_cons, List.filter_cons, ne_eq, zero, not_false_eq_true, decide_true, if_true, List.map_cons, look]
      simp only [ne_eq] at step
      rw [step]
      obtain below | rfl | above : i < n ∨ n = i ∨ n < i := by omega
      · rw [if_neg (by omega), if_neg (by omega), if_neg (by omega)]
      · simp
      · rw [if_neg (by omega), if_pos (by omega), if_pos (by omega), show i - n = (i - (n + 1)) + 1 by omega]
        rfl

theorem rdByte_sparse (b : List Byte) (i : Nat) : rdByte (sparse b) i = b.getD i 0 :=
  (rdByte_sparse_from b 0 i).trans (if_pos (Nat.zero_le i))

theorem captured_captures (free : s.st.held = []) (halted : s.stopState = 2) :
    ∃ t, exec .captured s = .next t ∧ t.stopState = 3 ∧ t.fld F.STOP_INT_STATUS.CAPTURED = 1 ∧
      t.cnt C.STOP_CAP_LEN = (s.captureBytes.take (2 ^ 23)).length % 2 ^ 64 ∧
      (∀ i, i < 2 ^ 23 → rdByte t.st.capture i = (s.captureBytes).getD i 0) ∧ SameWork s t ∧ t.mm = s.mm := by
  let b := s.captureBytes.take (2 ^ 23)
  let u := ((({ s with st.capture := sparse b } : State).setCnt C.STOP_CAP_LEN b.length).setFld F.STOP_STATUS.PARTIAL 0).setFld
    F.STOP_STATUS.STATE 3
  have ran : s.capturedOp = u.setInt F.STOP_INT_STATUS.CAPTURED := by
    refine (if_pos halted).trans (State.drain_of_none ?_)
    rw [State.setInt_st]
    exact free
  refine ⟨_, congrArg Host.Outcome.next ran, ?_, ?_, ?_, fun i hi => ?_, ⟨?_, ?_, ?_, ?_, ?_⟩, State.setInt_mm _ _ _⟩
  · rw [State.stopState, State.fld_setInt_other _ (by decide), State.fld_setFld]
    rfl
  · rw [State.fld_setInt]
    rfl
  · rw [State.cnt_setInt, State.cnt_setFld, State.cnt_setFld, State.cnt_setCnt]
  · rw [State.setInt_st]
    refine (rdByte_sparse b i).trans ?_
    simp only [b, List.getD_eq_getElem?_getD, List.getElem?_take_of_lt hi]
  · exact State.setInt_cq _ _ _
  · exact State.setInt_wh _ _ _
  · exact State.setInt_kv _ _ _
  · exact State.setInt_tl _ _ _
  · exact State.setInt_sc _ _ _

/-! ## Release (R520) -/

theorem stopRelease_releases {r : Requester} (hw : Writable s 0x43 0 r) (captured : s.stopState = 3) :
    ∃ t, exec (.stopRelease r) s = .next t ∧ t.stopState = 4 ∧
      t.cnt C.STOP_TARGET = (s.tm.now + Nat.max 1000 (s.fld F.STOP_CFG.LEAD)) % 2 ^ 64 ∧
      FieldsBut s t [fieldKey F.STOP_STATUS.STATE 0 0] ∧ OnlyRegs s t := by
  let u := s.addCnt C.GL_CNT_REG_WRITES 1
  have captured' : u.stopState = 3 := captured
  have ran : s.opWrite r 0x43 0 0x104 2 State.stopReleaseOp =
      (u.setFld F.STOP_STATUS.STATE 4).setCnt C.STOP_TARGET (u.tm.now + u.stopLead) := by
    rw [hw.opWrite, State.stopReleaseOp, if_pos captured']
  refine ⟨_, congrArg Host.Outcome.next ran, ?_, State.cnt_setCnt _ _ _ _ _, ?_, rfl⟩
  · rw [State.stopState, State.fld_setCnt, State.fld_setFld]
    rfl
  · exact (FieldsBut.refl s _).setFld (List.mem_singleton_self _)

theorem domainResume_resumes {d : Fin 315} (released : s.stopState = 4) (due : s.cnt C.STOP_TARGET ≤ s.tm.now)
    (halted : s.domHaltedOnce d = true) (fresh : s.st.resumed.contains d.val = false) :
    ∃ t, exec (.domainResume d) s = .next t ∧ t.domHalted d = false ∧ t = { s with st.resumed := t.st.resumed } := by
  have ran : s.domainResume d = { s with st.resumed := s.st.resumed ++ [d.val] } :=
    if_pos ⟨released, due, halted, by simpa using fresh⟩
  exact ⟨_, congrArg Host.Outcome.next ran, by simp [State.domHalted], rfl⟩

theorem released_runs (free : s.st.held = []) (untriggered : s.fld F.TRC_TRIG.STOP = 0) (released : s.stopState = 4)
    (due : s.cnt C.STOP_TARGET + 810 ≤ s.tm.now) (all : allDomains.all (fun d => s.st.resumed.contains d) = true) :
    ∃ t, exec .released s = .next t ∧ t.stopState = 0 ∧ t.fld F.STOP_INT_STATUS.RELEASED = 1 ∧ t.st.halted = [] ∧
      t.cnt C.STOP_CNT_NS = (s.cnt C.STOP_CNT_NS + (s.cnt C.STOP_TARGET - s.st.cut)) % 2 ^ 64 ∧ t.tl = s.tl ∧ t.cq = s.cq := by
  let d := s.cnt C.STOP_TARGET - s.st.cut
  let u := s.setFld F.STOP_STATUS.STATE 0
  let v := (({ u with st.halted := [], st.resumed := [] } : State).addCnt C.STOP_CNT_NS d).stopShift d
  let r : TraceRec := { type := 0xE, flags := 2, arg0 := v.fld F.STOP_STATUS.CAUSE, arg1 := v.cnt C.STOP_TARGET }
  have ended : s.stopOver (s.cnt C.STOP_TARGET) = v.trace r := by
    unfold State.stopOver
    simp only [released]
    rfl
  have still : v.fld F.TRC_TRIG.STOP = 0 :=
    (State.fld_setFld_other (f := F.STOP_STATUS.STATE) (v := 0) (i := 0) s (by decide)).trans untriggered
  have kept := (StopKept.refl v).trace r still
  have ran : s.releasedOp.drain = (v.trace r).setInt F.STOP_INT_STATUS.RELEASED := by
    have op : s.releasedOp = (v.trace r).setInt F.STOP_INT_STATUS.RELEASED := by
      rw [← ended]
      exact if_pos ⟨released, due, all⟩
    rw [op]
    refine State.drain_of_none ?_
    rw [State.setInt_st, kept.st]
    exact free
  refine ⟨_, congrArg Host.Outcome.next ran, ?_, ?_, ?_, ?_, ?_, ?_⟩
  · rw [State.stopState, State.fld_setInt_other _ (by decide), kept.fld (by decide)]
    exact State.fld_setFld s F.STOP_STATUS.STATE 0 0 0
  · rw [State.fld_setInt]
    rfl
  · rw [State.setInt_st, kept.st]
    rfl
  · rw [State.cnt_setInt, kept.cnt (by decide)]
    exact State.cnt_addCnt ({ u with st.halted := [], st.resumed := [] } : State) C.STOP_CNT_NS d 0 0
  · rw [State.setInt_tl, State.trace_tl]
    rfl
  · rw [State.setInt_cq, State.trace_cq]
    rfl
end

/-- Settles O32, each command by its guard. -/
theorem globalStop : Obligations.GlobalStop :=
  ⟨fun _ => ⟨fun _ client hw => ⟨go_arms client hw, go_refused client hw⟩, debugInstruction_arms⟩,
   fun _ free untriggered => ⟨fun _ => domainHalt_halts, halted_stops untriggered, captured_captures free,
     fun _ => stopRelease_releases, fun _ => domainResume_resumes, released_runs free untriggered⟩⟩

end Sys2Proof.Machine
end

section
/-! SUPPORT. Wait-for reports (R522 to R524): what they read of the register window. -/

namespace Sys2Proof.Machine

/-! ## What the wait-for graph reads of the register window -/

/-- The register window `r` shows the pools as that of `s` does. -/
structure PoolsSeen (s : State) (r : Regs) : Prop where
  enabled : ({ s with rg := r } : State).fld F.KVP_CFG.ENABLE = s.fld F.KVP_CFG.ENABLE
  regions : ∀ i < 12, ({ s with rg := r } : State).fld F.KVP_REG_COUNT.N 0 i = s.fld F.KVP_REG_COUNT.N 0 i
  blocks : ({ s with rg := r } : State).fld F.WH_SP_COUNT.N = s.fld F.WH_SP_COUNT.N
  area : ({ s with rg := r } : State).fld F.WFG_SIZE.PAGES = s.fld F.WFG_SIZE.PAGES

theorem State.evictN_rg (s : State) (r : Regs) (keep layer n : Nat) (im : Image) (gone : List Nat) :
    ({ s with rg := r } : State).evictN keep layer n im gone = s.evictN keep layer n im gone := by
  induction n generalizing im gone with
  | zero => rfl
  | succ n ih =>
    have choice : ({ s with rg := r } : State).evictChoice im keep layer = s.evictChoice im keep layer := rfl
    unfold State.evictN
    rw [choice]
    split
    · rfl
    · exact ih _ _

theorem State.prepEvict_rg (s : State) (r : Regs) (c : Cmd) (tokens : Nat) (p : Prep) :
    ({ s with rg := r } : State).prepEvict c tokens p = s.prepEvict c tokens p := by
  have evicts : ({ s with rg := r } : State).evictN = s.evictN := by
    funext keep layer n im gone
    exact s.evictN_rg r keep layer n im gone
  unfold State.prepEvict
  rw [evicts]
  rfl

theorem State.planStep_rg (s : State) (r : Regs) (c : Cmd) (tokens avail : Nat) (l : List Nat) :
    ({ s with rg := r } : State).planStep c tokens avail l = s.planStep c tokens avail l := by
  have evicts : ({ s with rg := r } : State).prepEvict c tokens = s.prepEvict c tokens := funext (s.prepEvict_rg r c tokens)
  induction l generalizing avail with
  | nil => rfl
  | cons g l ih =>
    unfold State.planStep
    simp only [ih, evicts]
    rfl

namespace PoolsSeen
variable {s : State} {r : Regs} (h : PoolsSeen s r)
include h

theorem pageTotal : ({ s with rg := r } : State).pageTotal = s.pageTotal := by
  unfold State.pageTotal State.regionStart
  refine List.foldl_ext _ _ _ fun n i hi => ?_
  exact congrArg (n + ·) (h.regions i (List.mem_range.mp hi))

theorem kvpFree : ({ s with rg := r } : State).kvpFree = s.kvpFree := by
  unfold State.kvpFree State.pagesFree
  rw [h.enabled, h.pageTotal]
  rfl

theorem sbFreeList : ({ s with rg := r } : State).sbFreeList = s.sbFreeList := by
  unfold State.sbFreeList State.sbTotal
  rw [h.blocks]
  rfl

theorem pagesShort (c : Cmd) : ({ s with rg := r } : State).pagesShort c = s.pagesShort c := by
  unfold State.pagesShort
  simp only [h.kvpFree, State.planStep_rg]
  rfl

theorem poolEdges (c : Cmd) : ({ s with rg := r } : State).poolEdges c = s.poolEdges c := by
  unfold State.poolEdges
  rw [h.pagesShort]

theorem wfgEdges : ({ s with rg := r } : State).wfgEdges = s.wfgEdges := by
  have pool : ({ s with rg := r } : State).poolEdges = s.poolEdges := funext h.poolEdges
  unfold State.wfgEdges
  rw [pool]
  rfl

theorem nodeBytes : ({ s with rg := r } : State).nodeBytes = s.nodeBytes := by
  funext n
  unfold State.nodeBytes State.nodeValue
  rw [h.kvpFree, h.sbFreeList]
  rfl

theorem wfgSnapshot : ({ s with rg := r } : State).wfgSnapshot = s.wfgSnapshot := by
  unfold State.wfgSnapshot
  rw [h.wfgEdges]
  rfl

theorem wfgReport (live : Bool) : ({ s with rg := r } : State).wfgReport live = s.wfgReport live := by
  unfold State.wfgReport
  rw [h.wfgEdges, h.nodeBytes, h.area]
  rfl

end PoolsSeen

/-! ## The commands -/

@[simp] theorem State.hwr_fields (s : State) (a : Nat) (d : List Byte) (w : HwrFor) : (s.hwr a d w).rg.fields = s.rg.fields := by
  rw [State.hwr_frame]

theorem State.hwr_work (s : State) (a : Nat) (d : List Byte) (w : HwrFor) : SameWork s (s.hwr a d w) ∧ (s.hwr a d w).st = s.st := by
  rw [State.hwr_frame]
  exact ⟨⟨rfl, rfl, rfl, rfl, rfl⟩, rfl⟩

/-- A report written to host memory: what its page shows. -/
theorem State.wfgWrite_shows (s : State) (live : Bool) :
    (s.wfgWrite live).fld F.WFG_STATUS.TRUNCATED = b2n (s.wfgReport live).2.2 ∧ (s.wfgWrite live).st.wfgAt = none ∧
      (s.wfgWrite live).fld F.WFG_STATUS.BUSY = s.fld F.WFG_STATUS.BUSY ∧
      (s.wfgWrite live).fld F.WFG_STATUS.CUT = s.fld F.WFG_STATUS.CUT ∧ SameWork s (s.wfgWrite live) := by
  let u := (s.setFld F.WFG_STATUS.TRUNCATED (b2n (s.wfgReport live).2.2)).setFld F.WFG_STATUS.CYCLES (s.wfgReport live).2.1
  let v : State := { u with st.wfgAt := none, st.wfgSnap := [] }
  have ran : s.wfgWrite live = v.hwr (v.fld F.WFG_BASE_LO.BASE * 4096 + v.fld F.WFG_BASE_HI.BASE * 2 ^ 32) (s.wfgReport live).1
      .report := rfl
  have fields : ∀ f : Field, (s.wfgWrite live).fld f = u.fld f := fun f => by
    rw [ran]
    simp only [State.fld, State.hwr_fields]
    rfl
  obtain ⟨work, st⟩ := v.hwr_work (v.fld F.WFG_BASE_LO.BASE * 4096 + v.fld F.WFG_BASE_HI.BASE * 2 ^ 32) (s.wfgReport live).1 .report
  refine ⟨?_, ?_, ?_, ?_, ?_⟩
  · rw [fields, State.fld_setFld_other _ (by decide), State.fld_setFld]
    cases (s.wfgReport live).2.2 <;> rfl
  · rw [ran, st]
  · rw [fields, State.fld_setFld_other _ (by decide), State.fld_setFld_other _ (by decide)]
  · rw [fields, State.fld_setFld_other _ (by decide), State.fld_setFld_other _ (by decide)]
  · rw [ran]
    exact work

/-- The page once a report is asked for. -/
def State.wfgAsked (s : State) (cut : Bool) : State :=
  (((s.addCnt C.GL_CNT_REG_WRITES 1).setFld F.WFG_STATUS.BUSY 1).setFld F.WFG_STATUS.DONE 0).setFld F.WFG_STATUS.CUT (b2n cut)

section
variable {s : State}

theorem State.wfgAsked_status (s : State) (cut : Bool) :
    (s.wfgAsked cut).fld F.WFG_STATUS.BUSY = 1 ∧ (s.wfgAsked cut).fld F.WFG_STATUS.DONE = 0 ∧
      (s.wfgAsked cut).fld F.WFG_STATUS.CUT = b2n cut := by
  unfold State.wfgAsked
  refine ⟨?_, ?_, ?_⟩
  · rw [State.fld_setFld_other _ (by decide), State.fld_setFld_other _ (by decide), State.fld_setFld]
    rfl
  · rw [State.fld_setFld_other _ (by decide), State.fld_setFld]
    rfl
  · rw [State.fld_setFld]
    cases cut <;> rfl

theorem State.wfgAsked_pools (s : State) (cut : Bool) : PoolsSeen s (s.wfgAsked cut).rg := by
  have fld : ∀ (f : Field) b, fieldKey f 0 b ∉ [F.WFG_STATUS.BUSY, F.WFG_STATUS.DONE, F.WFG_STATUS.CUT].map
      (fun g => fieldKey g 0 0) → (s.wfgAsked cut).fld f 0 b = s.fld f 0 b := by
    intro f b h
    simp only [List.map_cons, List.map_nil, List.mem_cons, List.not_mem_nil, or_false, not_or] at h
    obtain ⟨busy, done, shown⟩ := h
    unfold State.wfgAsked
    rw [State.fld_setFld_ne _ _ _ _ _ _ _ _ shown, State.fld_setFld_ne _ _ _ _ _ _ _ _ done,
      State.fld_setFld_ne _ _ _ _ _ _ _ _ busy, State.fld_addCnt]
  exact ⟨fld _ _ (by decide), fun i hi => fld _ _ (by revert i; decide), fld _ _ (by decide), fld _ _ (by decide)⟩

theorem State.wfgGoOp_eq {r : Requester} (hw : Writable s 0x43 0 r) (idle : s.fld F.WFG_STATUS.BUSY = 0) {cut : Bool}
    (state : decide (s.stopState = 3) = cut) :
    s.opWrite r 0x43 0 0x110 1 State.wfgGoOp =
      if cut then (s.wfgAsked cut).wfgWrite false
      else { s.wfgAsked cut with st.wfgAt := some s.tm.now, st.wfgSnap := (s.wfgAsked cut).wfgSnapshot } := by
  subst state
  rw [hw.opWrite]
  refine (if_neg ?_).trans ?_
  · rw [State.fld_addCnt, idle]
    decide
  · by_cases h : s.stopState = 3
    · have h' : (s.addCnt C.GL_CNT_REG_WRITES 1).stopState = 3 := h
      simp only [h, h', if_true, decide_true]
      rfl
    · have h' : ¬ (s.addCnt C.GL_CNT_REG_WRITES 1).stopState = 3 := h
      simp only [h, h', if_false, decide_false, Bool.false_eq_true]
      rfl

theorem wfgGo_snaps {r : Requester} (hw : Writable s 0x43 0 r) (idle : s.fld F.WFG_STATUS.BUSY = 0) (live : s.stopState ≠ 3) :
    ∃ t, exec (.wfgGo r) s = .next t ∧ t.fld F.WFG_STATUS.BUSY = 1 ∧ t.fld F.WFG_STATUS.DONE = 0 ∧
      t.fld F.WFG_STATUS.CUT = 0 ∧ t.st.wfgAt = some s.tm.now ∧ t.st.wfgSnap = s.wfgSnapshot ∧ SameWork s t ∧ t.hl = s.hl := by
  have ran := State.wfgGoOp_eq hw idle (decide_eq_false live)
  obtain ⟨busy, done, cut⟩ := s.wfgAsked_status false
  have snap : (s.wfgAsked false).wfgSnapshot = s.wfgSnapshot := (s.wfgAsked_pools false).wfgSnapshot
  exact ⟨_, congrArg Host.Outcome.next ran, busy, done, cut, rfl, snap, ⟨rfl, rfl, rfl, rfl, rfl⟩, rfl⟩

theorem wfgGo_writes {r : Requester} (hw : Writable s 0x43 0 r) (idle : s.fld F.WFG_STATUS.BUSY = 0) (captured : s.stopState = 3) :
    ∃ t, exec (.wfgGo r) s = .next t ∧ t.fld F.WFG_STATUS.BUSY = 1 ∧ t.fld F.WFG_STATUS.CUT = 1 ∧ t.st.wfgAt = none ∧
      t.fld F.WFG_STATUS.TRUNCATED = b2n (s.wfgReport false).2.2 ∧ SameWork s t := by
  have ran := State.wfgGoOp_eq hw idle (decide_eq_true captured)
  obtain ⟨busy, -, cut⟩ := s.wfgAsked_status true
  have report : (s.wfgAsked true).wfgReport false = s.wfgReport false := (s.wfgAsked_pools true).wfgReport false
  obtain ⟨truncated, at_, busy', cut', work⟩ := (s.wfgAsked true).wfgWrite_shows false
  exact ⟨_, congrArg Host.Outcome.next ran, busy'.trans busy, cut'.trans cut, at_, by rw [← report]; exact truncated, work⟩

theorem wfgDone_writes {e : Nat} (busy : s.fld F.WFG_STATUS.BUSY = 1) (asked : s.st.wfgAt = some e) (due : e + 1000000 ≤ s.tm.now)
    (runs : s.domHalted 312 = false) :
    ∃ t, exec .wfgDone s = .next t ∧ t.fld F.WFG_STATUS.BUSY = 1 ∧ t.st.wfgAt = none ∧
      t.fld F.WFG_STATUS.TRUNCATED = b2n (s.wfgReport true).2.2 ∧ SameWork s t := by
  have ran : s.wfgDoneOp = s.wfgWrite true := by
    unfold State.wfgDoneOp
    rw [if_neg (by rw [busy]; decide), asked]
    exact if_pos ⟨due, by simp [runs]⟩
  obtain ⟨truncated, at_, busy', -, work⟩ := s.wfgWrite_shows true
  exact ⟨_, congrArg Host.Outcome.next ran, busy'.trans busy, at_, truncated, work⟩

theorem wfgDone_ends (busy : s.fld F.WFG_STATUS.BUSY = 1) (written : s.st.wfgAt = none)
    (acked : s.hl.hwr.any (fun h => h.what == HwrFor.report) = false) :
    ∃ t, exec .wfgDone s = .next t ∧ t.fld F.WFG_STATUS.BUSY = 0 ∧ t.fld F.WFG_STATUS.DONE = 1 ∧
      t.fld F.STOP_INT_STATUS.WFG_DONE = 1 ∧ t.cnt C.WFG_CNT_REPORTS = (s.cnt C.WFG_CNT_REPORTS + 1) % 2 ^ 64 ∧
      SameWork s t ∧ t.mm = s.mm := by
  let u := (s.setFld F.WFG_STATUS.BUSY 0).setFld F.WFG_STATUS.DONE 1
  have ran : s.wfgDoneOp = (u.addCnt C.WFG_CNT_REPORTS 1).setInt F.STOP_INT_STATUS.WFG_DONE := by
    unfold State.wfgDoneOp
    rw [if_neg (by rw [busy]; decide), written]
    exact if_neg (by simp [acked])
  refine ⟨_, congrArg Host.Outcome.next ran, ?_, ?_, ?_, ?_, ⟨?_, ?_, ?_, ?_, ?_⟩, State.setInt_mm _ _ _⟩
  · rw [State.fld_setInt_other _ (by decide), State.fld_addCnt, State.fld_setFld_other _ (by decide), State.fld_setFld]
    rfl
  · rw [State.fld_setInt_other _ (by decide), State.fld_addCnt, State.fld_setFld]
    rfl
  · rw [State.fld_setInt]
    rfl
  · rw [State.cnt_setInt, State.cnt_addCnt, State.cnt_setFld, State.cnt_setFld]
  · exact State.setInt_cq _ _ _
  · exact State.setInt_wh _ _ _
  · exact State.setInt_kv _ _ _
  · exact State.setInt_tl _ _ _
  · exact State.setInt_sc _ _ _
end

/-- Settles O33, each command by its guard; a report asked for reads nothing that asking changes. -/
theorem waitForReports : Obligations.WaitForReports :=
  fun _ => ⟨fun _ => wfgGo_snaps, fun _ => wfgGo_writes, fun _ => wfgDone_writes, wfgDone_ends⟩

end Sys2Proof.Machine
end

section
/-! SUPPORT. DONE increments and gauge advances (R234, R272), and what the end of a layer leaves. -/

namespace Sys2Proof.Machine

/-! ## What the end of layers leaves -/

/-- From `s` to `t` commands, contexts and requests have moved on: nothing of the tiling, the pools and the wellhead. -/
def MovedOn (s t : State) : Prop :=
  t = { s with rg := t.rg, hl := t.hl, op := t.op, cq := t.cq, mm := t.mm, ci := t.ci, sc := t.sc, tr := t.tr, st := t.st }

namespace MovedOn

theorem refl (s : State) : MovedOn s s := rfl

theorem trans {s t u : State} (h : MovedOn s t) (h' : MovedOn t u) : MovedOn s u :=
  Eq.trans h' (congrArg (fun x : State =>
    { x with rg := u.rg, hl := u.hl, op := u.op, cq := u.cq, mm := u.mm, ci := u.ci, sc := u.sc, tr := u.tr, st := u.st }) h)

variable {s t : State}

/-- An update of those parts alone. -/
theorem same (h : MovedOn s t) {u : State} (e : MovedOn t u := by rfl) : MovedOn s u := h.trans e

theorem either {c : Prop} [Decidable c] {a b : State} (ha : MovedOn s a) (hb : MovedOn s b) : MovedOn s (if c then a else b) := by
  split
  · exact ha
  · exact hb

theorem foldl (h : MovedOn s t) {α : Type} {f : State → α → State} (step : ∀ u x, MovedOn s u → MovedOn s (f u x)) {l : List α} :
    MovedOn s (l.foldl f t) := by
  induction l generalizing t with
  | nil => exact h
  | cons x r ih => exact ih (step t x h)

theorem emit (h : MovedOn s t) {o : Out} : MovedOn s (t.emit o) := by
  refine h.trans ?_
  unfold MovedOn
  rw [State.emit_frame]

theorem trace (h : MovedOn s t) {r : TraceRec} : MovedOn s (t.trace r) := by
  have frame := t.trace_frame r
  unfold State.Traced at frame
  refine h.trans ?_
  unfold MovedOn
  rw [frame]

theorem setCmd (h : MovedOn s t) {c : Cmd} : MovedOn s (t.setCmd c) := h.same
theorem setCtx (h : MovedOn s t) {n : Nat} {x : Ctx} : MovedOn s (t.setCtx n x) := h.same
theorem ctxTo (h : MovedOn s t) {n : Nat} {x : CtxSt} : MovedOn s (t.ctxTo n x) := h.setCtx

theorem yieldEnds (h : MovedOn s t) {ctx : Nat} : MovedOn s (t.yieldEnds ctx) := either (either h.trace.ctxTo h.trace.ctxTo) h

theorem settle (h : MovedOn s t) {ctx : Nat} : MovedOn s (t.settle ctx) := by
  unfold State.settle
  extract_lets u
  have hu : MovedOn s u := h.yieldEnds
  split
  · exact either hu hu.setCtx
  · split
    · exact either hu.ctxTo hu
    · exact either (either hu.ctxTo hu.ctxTo) hu
    · exact either hu hu.ctxTo
    · exact either hu hu.ctxTo
    · exact hu

theorem cisRead (h : MovedOn s t) {m b : Nat} {w : CisFor} : MovedOn s (t.cisRead m b w) := by
  have asked : MovedOn s (t.setModule m { t.module m with
      reqs := (t.module m).reqs ++ [⟨(t.module m).nextTag, w⟩], nextTag := ((t.module m).nextTag + 1) % 4096 }) := h.same
  exact asked.emit (o := .cRead m (t.module m).nextTag b 1)

theorem commitNext (h : MovedOn s t) {c : Cmd} : MovedOn s (t.commitNext c) := by
  unfold State.commitNext
  split
  · exact h.setCmd.settle
  · split
    · exact h
    · exact either h h.cisRead

theorem outputsDone (h : MovedOn s t) {c : Cmd} : MovedOn s (t.outputsDone c) := h.setCmd.commitNext

theorem requestNext (h : MovedOn s t) {c : Cmd} : MovedOn s (t.requestNext c) := by
  unfold State.requestNext
  split
  · exact either h h.same
  · exact h

theorem layersEnd (h : MovedOn s t) {q seq : Nat} : MovedOn s (t.layersEnd q seq) := by
  unfold State.layersEnd
  split
  · exact h
  · split
    · exact h
    · exact either (h.setCmd.foldl fun _ _ hu => hu.requestNext).outputsDone (h.setCmd.foldl fun _ _ hu => hu.requestNext).settle

end MovedOn

/-! ## A DONE increment -/

section
variable {s : State} {u : Traffic}

/-- The state without an increment or advance under way. -/
def State.arrived (s : State) (u : Traffic) : State := { s with tl.traffic := s.tl.traffic.erase u }

/-- A DONE increment that no fence holds back. -/
theorem State.doneIncrement_counts {cl n job item gen : Nat}
    (found : s.tl.traffic.find? (fun t => t.gauge.isNone && t.cl == cl && t.counter == n && t.job == job &&
      t.item == item && t.gen == gen) = some u) (runs : s.runs (272 + n / 256) = true) (valid : s.stale u = false) :
    MovedOn ((s.arrived u).setCounter n { s.counter n with done := (s.counter n).done + 1 }) (s.doneIncrement cl n job item gen) := by
  have valid' : (s.arrived u).stale u = false := valid
  unfold State.doneIncrement
  rw [found]
  simp only [runs, Bool.not_true, Bool.false_eq_true, if_false]
  split
  · next stale => exact absurd stale (ne_true_of_eq_false valid')
  · refine MovedOn.layersEnd ?_
    split
    · split
      · exact (MovedOn.refl _).same
      · exact .refl _
    · exact .refl _

theorem State.doneIncrement_stale {cl n job item gen : Nat}
    (found : s.tl.traffic.find? (fun t => t.gauge.isNone && t.cl == cl && t.counter == n && t.job == job &&
      t.item == item && t.gen == gen) = some u) (runs : s.runs (272 + n / 256) = true) (stale : s.stale u = true) :
    s.doneIncrement cl n job item gen = (s.arrived u).discardFenced (n / 256) (some cl) := by
  have stale' : (s.arrived u).stale u = true := stale
  unfold State.doneIncrement
  rw [found]
  simp only [runs, Bool.not_true, Bool.false_eq_true, if_false]
  exact if_pos stale'

/-- What the discard of a fenced increment or advance shows. -/
theorem State.discardFenced_shows (s : State) (p cl : Nat) :
    (s.discardFenced p (some cl)).fld F.SEQ_STATUS.FENCED cl = 1 ∧
      (s.discardFenced p (some cl)).cnt C.PDIE_CNT_FENCED p = (s.cnt C.PDIE_CNT_FENCED p + 1) % 2 ^ 64 ∧
      Raised s (s.discardFenced p (some cl)) 0x2003 0 p ∧ (s.discardFenced p (some cl)).tl = s.tl ∧
      (s.discardFenced p (some cl)).cq = s.cq ∧ (s.discardFenced p (some cl)).mm = s.mm := by
  refine ⟨State.fld_setFld _ _ _ _ _, ?_, ?_, rfl, rfl, rfl⟩
  · simp only [State.discardFenced, State.cnt_setFld, State.cnt_raise, State.cnt_addCnt]
  · exact State.raise_raised _ _ _ _ _ _ _ _ _

theorem doneIncrement_arrives {cl : Fin 256} {n : Fin 1024} {job item gen : Nat}
    (found : s.tl.traffic.find? (fun t => t.gauge.isNone && t.cl == cl.val && t.counter == n.val && t.job == job &&
      t.item == item && t.gen == gen) = some u) (runs : s.runs (272 + n / 256) = true) :
    (s.stale u = false → ∃ t, exec (.doneIncrement cl n job item gen) s = .next t ∧
      (t.counter n).done = (s.counter n).done + 1 ∧ (t.counter n).next = (s.counter n).next ∧
      (∀ m, m ≠ n.val → t.counter m = s.counter m) ∧ t.tl.gauges = s.tl.gauges ∧ t.tm = s.tm) ∧
    (s.stale u = true → ∃ t, exec (.doneIncrement cl n job item gen) s = .next t ∧
      t.tl = { s.tl with traffic := s.tl.traffic.erase u } ∧ t.fld F.SEQ_STATUS.FENCED cl = 1 ∧
      t.cnt C.PDIE_CNT_FENCED (n / 256) = (s.cnt C.PDIE_CNT_FENCED (n / 256) + 1) % 2 ^ 64 ∧
      Raised s t 0x2003 0 (n / 256) ∧ t.cq = s.cq ∧ t.mm = s.mm) := by
  refine ⟨fun valid => ?_, fun stale => ?_⟩
  · have moved := State.doneIncrement_counts found runs valid
    refine ⟨_, rfl, ?_⟩
    generalize s.doneIncrement cl n job item gen = t at moved
    have tiles : t.tl = ((s.arrived u).setCounter n { s.counter n with done := (s.counter n).done + 1 }).tl := by rw [moved]
    have here : t.counter n = { s.counter n with done := (s.counter n).done + 1 } := by
      rw [State.counter, tiles]
      exact look_put_self _ _ _ _
    refine ⟨by rw [here], by rw [here], fun m apart => ?_, by rw [tiles]; rfl, by rw [moved]; rfl⟩
    rw [State.counter, tiles]
    exact look_put_ne _ _ _ apart
  · have ran := State.doneIncrement_stale found runs stale
    obtain ⟨fenced, counted, raised, tl, cq, mm⟩ := (s.arrived u).discardFenced_shows (n / 256) cl
    exact ⟨_, congrArg Host.Outcome.next ran, tl, fenced, counted, raised, cq, mm⟩

/-! ## A gauge advance -/

theorem gaugeAdvance_arrives {g : Fin 65536} {v : BitVec 24} {gen : Byte} {n : Fin 1024} {job item : Nat}
    (found : s.tl.traffic.find? (fun t => t.gauge = some (g.val, v.toNat) && t.counter == n.val && t.job == job &&
      t.item == item && t.gen == gen.toNat) = some u) (runs : s.runs (272 + g / 16384) = true) :
    (s.stale u = false → (s.gauge g).gen ≤ gen.toNat →
      ∃ t, exec (.gaugeAdvance g v gen n job item) s = .next t ∧
        t.gauge g = { value := Nat.max (s.gauge g).value v.toNat, gen := gen.toNat } ∧
        (∀ m, m ≠ g.val → t.gauge m = s.gauge m) ∧ t = { s with tl.traffic := t.tl.traffic, tl.gauges := t.tl.gauges }) ∧
    (s.stale u = false → gen.toNat < (s.gauge g).gen →
      ∃ t, exec (.gaugeAdvance g v gen n job item) s = .next t ∧ t = { s with tl.traffic := s.tl.traffic.erase u }) ∧
    (s.stale u = true → ∃ t, exec (.gaugeAdvance g v gen n job item) s = .next t ∧
      t.tl = { s.tl with traffic := s.tl.traffic.erase u } ∧ Raised s t 0x2003 0 (g / 16384)) := by
  have ran : s.gaugeAdvance g v.toNat gen.toNat n job item =
      if s.stale u then (s.arrived u).discardFenced (g / 16384) (some u.cl)
      else if gen.toNat < (s.gauge g).gen then s.arrived u
      else { s.arrived u with tl.gauges := put {} s.tl.gauges g { value := Nat.max (s.gauge g).value v.toNat, gen := gen.toNat } } := by
    unfold State.gaugeAdvance
    rw [found]
    simp only [runs, Bool.not_true, Bool.false_eq_true, if_false]
    rfl
  refine ⟨fun valid newer => ?_, fun valid older => ?_, fun stale => ?_⟩
  · rw [valid, if_neg (by decide), if_neg (by omega)] at ran
    exact ⟨_, congrArg Host.Outcome.next ran, look_put_self _ _ _ _, fun m apart => look_put_ne _ _ _ apart, rfl⟩
  · rw [valid, if_neg (by decide), if_pos older] at ran
    exact ⟨_, congrArg Host.Outcome.next ran, rfl⟩
  · rw [if_pos stale] at ran
    obtain ⟨-, -, raised, tl, -, -⟩ := (s.arrived u).discardFenced_shows (g / 16384) u.cl
    exact ⟨_, congrArg Host.Outcome.next ran, tl, raised⟩
end

/-- Settles O39, by the fence's and the generation's test. -/
theorem trafficArrives : Obligations.TrafficArrives :=
  fun _ _ => ⟨fun _ _ _ _ _ => doneIncrement_arrives, fun _ _ _ _ _ _ => gaugeAdvance_arrives⟩

end Sys2Proof.Machine
end

section
/-! SUPPORT. The contexts' operations (R412, R413). -/

namespace Sys2Proof.Machine

@[simp] theorem State.ctx_setCtx_self (s : State) (n : Nat) (x : Ctx) : (s.setCtx n x).ctx n = x := look_put_self _ _ _ _

theorem State.ctx_setCtx_other (s : State) {n m : Nat} (x : Ctx) (h : m ≠ n) : (s.setCtx n x).ctx m = s.ctx m :=
  look_put_ne _ _ _ h

section
variable {s : State} {r : Requester}

theorem create_creates (hw : Writable s 0x01 0 r) :
    ∃ t, exec (.create r) s = .next t ∧ (t.ctx (s.fld F.SCHED_CTX_SEL.CONTEXT)).exist = true ∧
      t.fld F.SCHED_CTX_OP.RESULT = (if (s.ctx (s.fld F.SCHED_CTX_SEL.CONTEXT)).exist then 2 else 0) ∧
      (∀ m, m ≠ s.fld F.SCHED_CTX_SEL.CONTEXT → t.ctx m = s.ctx m) ∧
      FieldsBut s t [fieldKey F.SCHED_CTX_OP.RESULT 0 0] ∧ t = { s with rg := t.rg, sc.ctxs := t.sc.ctxs } := by
  let n := s.fld F.SCHED_CTX_SEL.CONTEXT
  let u := s.addCnt C.GL_CNT_REG_WRITES 1
  have ran : s.opWrite r 0x01 0 0x128 1 State.createOp =
      if (s.ctx n).exist then u.ctxResult 2 else (u.setCtx n { s.ctx n with exist := true }).ctxResult 0 := hw.opWrite _ _ _
  by_cases there : (s.ctx n).exist = true
  · rw [if_pos there] at ran
    refine ⟨_, congrArg Host.Outcome.next ran, there, ?_, fun _ _ => rfl,
      (FieldsBut.refl s _).setFld (List.mem_singleton_self _), rfl⟩
    rw [if_pos there]
    exact State.fld_setFld _ _ _ _ _
  · rw [if_neg there] at ran
    refine ⟨_, congrArg Host.Outcome.next ran, ?_, ?_, fun m apart => State.ctx_setCtx_other u _ apart,
      (FieldsBut.refl s _).setFld (List.mem_singleton_self _), rfl⟩
    · exact congrArg Ctx.exist (u.ctx_setCtx_self n { s.ctx n with exist := true })
    · rw [if_neg there]
      exact State.fld_setFld _ _ _ _ _

/-- DESTROY by its three tests. -/
theorem State.destroyOp_eq (hw : Writable s 0x01 0 r) :
    s.opWrite r 0x01 0 0x128 2 State.destroyOp =
      if !(s.ctx (s.fld F.SCHED_CTX_SEL.CONTEXT)).exist then (s.addCnt C.GL_CNT_REG_WRITES 1).ctxResult 3
      else if s.cq.queues.any (fun q => q.2.enabled && q.2.ctx = s.fld F.SCHED_CTX_SEL.CONTEXT) ∨
        !(s.cmdsOf (s.fld F.SCHED_CTX_SEL.CONTEXT)).isEmpty then (s.addCnt C.GL_CNT_REG_WRITES 1).ctxResult 1
      else ((s.addCnt C.GL_CNT_REG_WRITES 1).destroyContext (s.fld F.SCHED_CTX_SEL.CONTEXT)).ctxResult 0 := hw.opWrite _ _ _

theorem destroy_absent (hw : Writable s 0x01 0 r) (absent : (s.ctx (s.fld F.SCHED_CTX_SEL.CONTEXT)).exist = false) :
    ∃ t, exec (.destroy r) s = .next t ∧ t.fld F.SCHED_CTX_OP.RESULT = 3 ∧
      FieldsBut s t [fieldKey F.SCHED_CTX_OP.RESULT 0 0] ∧ OnlyRegs s t := by
  have ran := State.destroyOp_eq hw
  rw [absent, Bool.not_false, if_pos rfl] at ran
  exact ⟨_, congrArg Host.Outcome.next ran, State.fld_setFld _ _ _ _ _,
    (FieldsBut.refl s _).setFld (List.mem_singleton_self _), rfl⟩

theorem destroy_inUse (hw : Writable s 0x01 0 r) (there : (s.ctx (s.fld F.SCHED_CTX_SEL.CONTEXT)).exist = true)
    (inUse : s.cq.queues.any (fun q => q.2.enabled && q.2.ctx = s.fld F.SCHED_CTX_SEL.CONTEXT) = true ∨
      s.cmdsOf (s.fld F.SCHED_CTX_SEL.CONTEXT) ≠ []) :
    ∃ t, exec (.destroy r) s = .next t ∧ t.fld F.SCHED_CTX_OP.RESULT = 1 ∧
      FieldsBut s t [fieldKey F.SCHED_CTX_OP.RESULT 0 0] ∧ OnlyRegs s t := by
  have ran := State.destroyOp_eq hw
  rw [there, Bool.not_true, if_neg (by decide), if_pos (inUse.imp_right fun h => by simpa using h)] at ran
  exact ⟨_, congrArg Host.Outcome.next ran, State.fld_setFld _ _ _ _ _,
    (FieldsBut.refl s _).setFld (List.mem_singleton_self _), rfl⟩

/-! ## A context destroyed owns nothing -/

theorem look_mem {α : Type} {d : α} {m : SMap α} {k : Nat} (h : look d m k ≠ d) : (k, look d m k) ∈ m := by
  induction m with
  | nil => exact absurd rfl h
  | cons e m ih =>
    obtain ⟨j, w⟩ := e
    unfold look at h ⊢
    split
    · next same => rw [same]; exact List.mem_cons_self
    · next apart =>
      rw [if_neg apart] at h
      exact List.mem_cons_of_mem _ (ih h)

theorem State.ownerOf_disown (ks : List Nat) (s : State) (k : Nat) :
    look 0xFFFE (s.disown ks).mm.owners k = if k ∈ ks then 0xFFFE else look 0xFFFE s.mm.owners k := by
  unfold State.disown
  induction ks generalizing s with
  | nil => rfl
  | cons j ks ih =>
    rw [List.foldl_cons, ih]
    by_cases here : k ∈ ks
    · rw [if_pos here, if_pos (List.mem_cons_of_mem _ here)]
    · rw [if_neg here]
      by_cases same : k = j
      · subst same
        rw [if_pos List.mem_cons_self]
        exact look_put_self _ _ _ _
      · rw [if_neg (by simp [same, here])]
        exact look_put_ne _ _ _ same

/-- With its granules disowned a context owns none. -/
theorem State.disown_owners (s : State) {n : Nat} (real : n < 4096) (k : Nat) :
    look 0xFFFE (s.disown ((s.mm.owners.filter (fun o => o.2 = n)).map (·.1))).mm.owners k ≠ n := by
  rw [State.ownerOf_disown]
  split
  · omega
  · next other =>
    intro owned
    have mem : (k, n) ∈ s.mm.owners := owned ▸ look_mem (by rw [owned]; omega)
    exact other (List.mem_map.mpr ⟨(k, n), List.mem_filter.mpr ⟨mem, by simp⟩, rfl⟩)

/-- The module `m` disowned, where the context `n` owns it. -/
def State.disownModule (n : Nat) (s : State) (m : Nat) : State :=
  if s.fld F.CIS_OWNER.CONTEXT m = n then s.setFld F.CIS_OWNER.CONTEXT 0xFFFE m else s

/-- The modules that the context `n` owns, disowned. -/
def State.disownModules (s : State) (n : Nat) : State := (List.range 16).foldl (State.disownModule n) s

theorem State.disownModules_fld (s : State) (n m : Nat) :
    (s.disownModules n).fld F.CIS_OWNER.CONTEXT m =
      if m ∈ List.range 16 then (if s.fld F.CIS_OWNER.CONTEXT m = n then 0xFFFE else s.fld F.CIS_OWNER.CONTEXT m)
      else s.fld F.CIS_OWNER.CONTEXT m := by
  unfold State.disownModules
  refine foldl_each (g := State.disownModule n) (get := fun s m => s.fld F.CIS_OWNER.CONTEXT m)
    (f := fun _ x => if x = n then 0xFFFE else x) (fun _ => True) (fun _ _ _ => trivial) (fun s k _ => ?_) (fun s k m apart => ?_)
    List.nodup_range trivial m
  · unfold State.disownModule
    split
    · rw [State.fld_setFld]
      rfl
    · rfl
  · unfold State.disownModule
    split
    · exact State.fld_setFld_inst _ _ _ apart
    · rfl

theorem State.disownModules_mm (s : State) (n : Nat) : (s.disownModules n).mm = s.mm := by
  unfold State.disownModules
  generalize List.range 16 = l
  induction l generalizing s with
  | nil => rfl
  | cons m l ih =>
    rw [List.foldl_cons, ih]
    unfold State.disownModule
    split <;> rfl

/-- What becomes of a context destroyed: past its groups and sequences, its granules and modules, and the context itself. -/
theorem State.destroyContext_eq (s : State) (n : Nat) :
    ∃ u : State, s.destroyContext n =
      ((u.disown ((u.mm.owners.filter (fun o => o.2 = n)).map (·.1))).disownModules n).setCtx n {} := by
  unfold State.destroyContext State.disownModules
  exact ⟨_, rfl⟩

theorem destroy_destroys (hw : Writable s 0x01 0 r) (there : (s.ctx (s.fld F.SCHED_CTX_SEL.CONTEXT)).exist = true)
    (unserved : s.cq.queues.any (fun q => q.2.enabled && q.2.ctx = s.fld F.SCHED_CTX_SEL.CONTEXT) = false)
    (idle : s.cmdsOf (s.fld F.SCHED_CTX_SEL.CONTEXT) = []) (real : s.fld F.SCHED_CTX_SEL.CONTEXT < 4096) :
    ∃ t, exec (.destroy r) s = .next t ∧ t.fld F.SCHED_CTX_OP.RESULT = 0 ∧ t.ctx (s.fld F.SCHED_CTX_SEL.CONTEXT) = {} ∧
      (∀ k, look 0xFFFE t.mm.owners k ≠ s.fld F.SCHED_CTX_SEL.CONTEXT) ∧
      (∀ m, m < 16 → t.fld F.CIS_OWNER.CONTEXT m ≠ s.fld F.SCHED_CTX_SEL.CONTEXT) := by
  have ran := State.destroyOp_eq hw
  generalize s.fld F.SCHED_CTX_SEL.CONTEXT = n at ran there unserved idle real ⊢
  rw [there, Bool.not_true, if_neg (by decide), if_neg (by simp [unserved, idle])] at ran
  obtain ⟨u, gone⟩ := (s.addCnt C.GL_CNT_REG_WRITES 1).destroyContext_eq n
  rw [gone] at ran
  have granules := u.disown_owners real
  generalize u.disown ((u.mm.owners.filter (fun o => o.2 = n)).map (·.1)) = v at granules ran
  have same := v.disownModules_mm n
  have owner := v.disownModules_fld n
  generalize v.disownModules n = w at ran same owner
  refine ⟨_, congrArg Host.Outcome.next ran, State.fld_setFld _ _ _ _ _, State.ctx_setCtx_self w n {}, fun k => ?_, fun m hm => ?_⟩
  · show look 0xFFFE w.mm.owners k ≠ n
    rw [same]
    exact granules k
  · rw [State.ctxResult, State.fld_setFld_slot _ (by decide)]
    show w.fld F.CIS_OWNER.CONTEXT m ≠ n
    rw [owner, if_pos (List.mem_range.mpr hm)]
    split <;> omega
end

/-- Settles O40, by the tests of the two operations. -/
theorem contexts : Obligations.Contexts :=
  fun _ _ hw => ⟨create_creates hw, destroy_absent hw, destroy_inUse hw, destroy_destroys hw⟩

end Sys2Proof.Machine
end

section
/-! SUPPORT. The ownership pages: GRANT, REVOKE, QUERY and their effects (R310 to R313). -/

namespace Sys2Proof.Machine

/-! ## Fields of an ownership page -/

/-- The classes with an ownership page. -/
theorem ownCls_cases (p : OwnPage) : ownCls p = 0x20 ∨ ownCls p = 0x21 := by
  cases p
  · exact .inr rfl
  · exact .inl rfl

/-- Two fields of an ownership page. -/
theorem State.own_fld_setFld (s : State) {f g : Nat → Field} (apart : ∀ c, c = 0x20 ∨ c = 0x21 → fieldKey (g c) 0 0 ≠ fieldKey (f c) 0 0)
    (p : OwnPage) (v : Nat) : (s.setFld (f (ownCls p)) v (ownInst p)).fld (g (ownCls p)) (ownInst p) = s.fld (g (ownCls p)) (ownInst p) :=
  State.fld_setFld_other s (apart _ (ownCls_cases p))

theorem State.ownInt_fld (s : State) (p : OwnPage) {g : Nat → Field}
    (stack : fieldKey (g 0x21) 0 0 ≠ fieldKey F.HBMC_INT_STATUS.OWN_DONE 0 0)
    (slice : fieldKey (g 0x20) 0 0 ≠ fieldKey F.PDIE_INT_STATUS.OWN_DONE 0 0) :
    (s.ownInt p).fld (g (ownCls p)) (ownInst p) = s.fld (g (ownCls p)) (ownInst p) := by
  cases p
  · exact State.fld_setInt_other s stack
  · exact State.fld_setInt_other s slice

/-- From `s` to `t` an operation of an ownership page has answered: nothing of the work and the memory. -/
def OwnAnswered (s t : State) : Prop := t.mm = s.mm ∧ SameWork s t

theorem State.ownInt_answered (s : State) (p : OwnPage) : OwnAnswered s (s.ownInt p) := by
  unfold State.ownInt
  split
  all_goals exact ⟨State.setInt_mm _ _ _, State.setInt_cq _ _ _, State.setInt_wh _ _ _, State.setInt_kv _ _ _, State.setInt_tl _ _ _,
    State.setInt_sc _ _ _⟩

section
variable (s : State) (p : OwnPage)

theorem State.ownDone_answered (result : Nat) : OwnAnswered s (s.ownDone p result) := by
  unfold State.ownDone
  exact State.ownInt_answered _ _

theorem State.ownDone_result {result : Nat} (small : result < 16) :
    (s.ownDone p result).fld (F.OWN_STATUS.RESULT (ownCls p)) (ownInst p) = result := by
  rw [State.ownDone, State.ownInt_fld (g := F.OWN_STATUS.RESULT) _ _ (by decide) (by decide), State.fld_setFld]
  exact Nat.mod_eq_of_lt small

theorem State.ownDone_busy (result : Nat) : (s.ownDone p result).fld (F.OWN_STATUS.BUSY (ownCls p)) (ownInst p) = 0 := by
  rw [State.ownDone, State.ownInt_fld (g := F.OWN_STATUS.BUSY) _ _ (by decide) (by decide),
    State.own_fld_setFld (f := F.OWN_STATUS.RESULT) (g := F.OWN_STATUS.BUSY) _ (by rintro c (rfl | rfl) <;> decide), State.fld_setFld]
  rfl

theorem State.ownDone_deferred (result : Nat) :
    (s.ownDone p result).fld (F.OWN_STATUS.DEFERRED (ownCls p)) (ownInst p) =
      s.fld (F.OWN_STATUS.DEFERRED (ownCls p)) (ownInst p) := by
  rw [State.ownDone, State.ownInt_fld (g := F.OWN_STATUS.DEFERRED) _ _ (by decide) (by decide),
    State.own_fld_setFld (f := F.OWN_STATUS.RESULT) (g := F.OWN_STATUS.DEFERRED) _ (by rintro c (rfl | rfl) <;> decide),
    State.own_fld_setFld (f := F.OWN_STATUS.BUSY) (g := F.OWN_STATUS.DEFERRED) _ (by rintro c (rfl | rfl) <;> decide)]

theorem State.ownDone_zeroing (result : Nat) :
    (s.ownDone p result).fld (F.OWN_STATUS.ZEROING (ownCls p)) (ownInst p) =
      s.fld (F.OWN_STATUS.ZEROING (ownCls p)) (ownInst p) := by
  rw [State.ownDone, State.ownInt_fld (g := F.OWN_STATUS.ZEROING) _ _ (by decide) (by decide),
    State.own_fld_setFld (f := F.OWN_STATUS.RESULT) (g := F.OWN_STATUS.ZEROING) _ (by rintro c (rfl | rfl) <;> decide),
    State.own_fld_setFld (f := F.OWN_STATUS.BUSY) (g := F.OWN_STATUS.ZEROING) _ (by rintro c (rfl | rfl) <;> decide)]

theorem State.ownDone_ctx (result : Nat) : (s.ownDone p result).ownCtx p = s.ownCtx p := by
  rw [State.ownCtx]
  rw [State.ownDone, State.ownInt_fld (g := F.OWN_CTX.CONTEXT) _ _ (by decide) (by decide),
    State.own_fld_setFld (f := F.OWN_STATUS.RESULT) (g := F.OWN_CTX.CONTEXT) _ (by rintro c (rfl | rfl) <;> decide),
    State.own_fld_setFld (f := F.OWN_STATUS.BUSY) (g := F.OWN_CTX.CONTEXT) _ (by rintro c (rfl | rfl) <;> decide)]
  rfl

variable {s p} {r : Requester}

/-- An operation written to a page that is idle. -/
theorem State.ownRow_runs (hw : Writable s (ownCls p) (ownInst p) r) {code : Nat} (op : State → State)
    (held : s.fld (F.OWN_OP.OP (ownCls p)) (ownInst p) = code) (some : code ≠ 0)
    (idle : s.fld (F.OWN_STATUS.BUSY (ownCls p)) (ownInst p) ≠ 1) :
    s.ownRow r p code op = op (s.addCnt C.GL_CNT_REG_WRITES 1) := by
  have held' : (s.addCnt C.GL_CNT_REG_WRITES 1).fld (F.OWN_OP.OP (ownCls p)) (ownInst p) ≠ 0 := by
    rw [State.fld_addCnt, held]
    exact some
  have idle' : (s.addCnt C.GL_CNT_REG_WRITES 1).fld (F.OWN_STATUS.BUSY (ownCls p)) (ownInst p) ≠ 1 := idle
  rw [State.ownRow, if_pos held, hw.opWrite, State.ownGo]
  rw [if_neg idle', if_neg held']
end

/-! ## Owners of granules -/

theorem State.ownerOf_own (ks : List Nat) (ctx : Nat) (s : State) (k : Nat) :
    (s.own ks ctx).ownerOf k = if k ∈ ks then ctx else s.ownerOf k := by
  unfold State.own State.ownerOf
  induction ks generalizing s with
  | nil => rfl
  | cons j ks ih =>
    rw [List.foldl_cons, ih]
    by_cases here : k ∈ ks
    · rw [if_pos here, if_pos (List.mem_cons_of_mem _ here)]
    · rw [if_neg here]
      by_cases same : k = j
      · subst same
        rw [if_pos List.mem_cons_self]
        exact look_put_self _ _ _ _
      · exact (look_put_ne _ _ _ same).trans (if_neg fun h => (List.mem_cons.mp h).elim same here).symm

theorem State.own_frame (ks : List Nat) (ctx : Nat) (s : State) :
    s.own ks ctx = { s with mm.owners := (s.own ks ctx).mm.owners, mm.prevOwners := (s.own ks ctx).mm.prevOwners } := by
  unfold State.own
  induction ks generalizing s with
  | nil => rfl
  | cons j ks ih =>
    rw [List.foldl_cons]
    exact Eq.trans (ih _) rfl

theorem State.disown_frame (ks : List Nat) (s : State) : s.disown ks = { s with mm.owners := (s.disown ks).mm.owners } := by
  unfold State.disown
  induction ks generalizing s with
  | nil => rfl
  | cons j ks ih =>
    rw [List.foldl_cons]
    exact Eq.trans (ih _) rfl

/-! ## GRANT -/

section
variable {s : State} {r : Requester} {p : OwnPage}

theorem grant_bad (hw : Writable s (ownCls p) (ownInst p) r) (held : s.fld (F.OWN_OP.OP (ownCls p)) (ownInst p) = 1)
    (idle : s.fld (F.OWN_STATUS.BUSY (ownCls p)) (ownInst p) ≠ 1) (bad : s.ownBad p (s.ownN p) = true) :
    ∃ t, exec (.grant r p) s = .next t ∧ t.fld (F.OWN_STATUS.RESULT (ownCls p)) (ownInst p) = 1 ∧ t.mm = s.mm ∧ SameWork s t := by
  let u := s.addCnt C.GL_CNT_REG_WRITES 1
  have ran : s.ownRow r p 1 (fun s => s.grant p) = u.ownDone p 1 :=
    (State.ownRow_runs hw _ held (by decide) idle).trans (if_pos bad)
  exact ⟨_, congrArg Host.Outcome.next ran, u.ownDone_result p (by decide), u.ownDone_answered p 1⟩

theorem grant_inUse (hw : Writable s (ownCls p) (ownInst p) r) (held : s.fld (F.OWN_OP.OP (ownCls p)) (ownInst p) = 1)
    (idle : s.fld (F.OWN_STATUS.BUSY (ownCls p)) (ownInst p) ≠ 1) (good : s.ownBad p (s.ownN p) = false)
    (owned : ∃ k ∈ ownKeys p (s.ownFirst p) (s.ownN p), s.ownerOf k ≠ 0xFFFE) :
    ∃ t, exec (.grant r p) s = .next t ∧ t.fld (F.OWN_STATUS.RESULT (ownCls p)) (ownInst p) = 2 ∧ t.mm = s.mm ∧ SameWork s t := by
  let u := s.addCnt C.GL_CNT_REG_WRITES 1
  have good' : ¬ u.ownBad p (u.ownN p) = true := ne_true_of_eq_false good
  have some : (ownKeys p (u.ownFirst p) (u.ownN p)).any (fun k => u.ownerOf k ≠ 0xFFFE) = true := by
    obtain ⟨k, hk, hn⟩ := owned
    exact List.any_eq_true.mpr ⟨k, hk, decide_eq_true hn⟩
  have ran : s.ownRow r p 1 (fun s => s.grant p) = u.ownDone p 2 :=
    (State.ownRow_runs hw _ held (by decide) idle).trans ((if_neg good').trans (if_pos some))
  exact ⟨_, congrArg Host.Outcome.next ran, u.ownDone_result p (by decide), u.ownDone_answered p 2⟩

/-- The granules of a grant are free. -/
theorem State.grant_free (free : ∀ k ∈ ownKeys p (s.ownFirst p) (s.ownN p), s.ownerOf k = 0xFFFE) :
    ¬ (ownKeys p (s.ownFirst p) (s.ownN p)).any (fun k => s.ownerOf k ≠ 0xFFFE) = true := by
  rw [List.any_eq_true]
  rintro ⟨k, hk, hn⟩
  exact of_decide_eq_true hn (free k hk)

theorem grant_done (hw : Writable s (ownCls p) (ownInst p) r) (held : s.fld (F.OWN_OP.OP (ownCls p)) (ownInst p) = 1)
    (idle : s.fld (F.OWN_STATUS.BUSY (ownCls p)) (ownInst p) ≠ 1) (good : s.ownBad p (s.ownN p) = false)
    (free : ∀ k ∈ ownKeys p (s.ownFirst p) (s.ownN p), s.ownerOf k = 0xFFFE)
    (zero : s.mustZero p (s.ownFirst p) (s.ownN p) (s.ownCtx p) = []) :
    ∃ t, exec (.grant r p) s = .next t ∧ t.fld (F.OWN_STATUS.RESULT (ownCls p)) (ownInst p) = 0 ∧
      t.fld (F.OWN_STATUS.BUSY (ownCls p)) (ownInst p) = 0 ∧
      (∀ k ∈ ownKeys p (s.ownFirst p) (s.ownN p), t.ownerOf k = s.ownCtx p) ∧
      (∀ k, k ∉ ownKeys p (s.ownFirst p) (s.ownN p) → t.ownerOf k = s.ownerOf k) ∧ t.mm.dev = s.mm.dev ∧ SameWork s t := by
  let u := s.addCnt C.GL_CNT_REG_WRITES 1
  have good' : ¬ u.ownBad p (u.ownN p) = true := ne_true_of_eq_false good
  have free' : ¬ (ownKeys p (u.ownFirst p) (u.ownN p)).any (fun k => u.ownerOf k ≠ 0xFFFE) = true := State.grant_free free
  have zero' : (u.mustZero p (u.ownFirst p) (u.ownN p) (u.ownCtx p)).isEmpty = true := List.isEmpty_iff.mpr zero
  have ran : s.ownRow r p 1 (fun s => s.grant p) = (u.own (ownKeys p (s.ownFirst p) (s.ownN p)) (s.ownCtx p)).ownDone p 0 :=
    (State.ownRow_runs hw _ held (by decide) idle).trans ((if_neg good').trans ((if_neg free').trans (if_pos zero')))
  have owners := fun k => State.ownerOf_own (ownKeys p (s.ownFirst p) (s.ownN p)) (s.ownCtx p) u k
  have frame := State.own_frame (ownKeys p (s.ownFirst p) (s.ownN p)) (s.ownCtx p) u
  generalize u.own (ownKeys p (s.ownFirst p) (s.ownN p)) (s.ownCtx p) = v at ran owners frame
  obtain ⟨mem, work⟩ := v.ownDone_answered p 0
  have kept : SameWork s v := by rw [frame]; exact ⟨rfl, rfl, rfl, rfl, rfl⟩
  obtain ⟨cq, wh, kv, tl, sc⟩ := work
  obtain ⟨cq', wh', kv', tl', sc'⟩ := kept
  refine ⟨_, congrArg Host.Outcome.next ran, v.ownDone_result p (by decide), v.ownDone_busy p 0, fun k hk => ?_, fun k hk => ?_, ?_,
    cq.trans cq', wh.trans wh', kv.trans kv', tl.trans tl', sc.trans sc'⟩
  · rw [State.ownerOf, mem]
    exact (owners k).trans (if_pos hk)
  · rw [State.ownerOf, mem]
    exact (owners k).trans (if_neg hk)
  · rw [mem, frame]
    rfl

/-- The state once a grant waits for its zeroing. -/
def State.grantWaits (s : State) (p : OwnPage) (g : Granting) : State :=
  (({ s with mm.granting := s.mm.granting ++ [g] } : State).setFld (F.OWN_STATUS.BUSY (ownCls p)) 1 (ownInst p)).setFld
    (F.OWN_STATUS.ZEROING (ownCls p)) 1 (ownInst p)

theorem grant_zeroes (hw : Writable s (ownCls p) (ownInst p) r) (held : s.fld (F.OWN_OP.OP (ownCls p)) (ownInst p) = 1)
    (idle : s.fld (F.OWN_STATUS.BUSY (ownCls p)) (ownInst p) ≠ 1) (good : s.ownBad p (s.ownN p) = false)
    (free : ∀ k ∈ ownKeys p (s.ownFirst p) (s.ownN p), s.ownerOf k = 0xFFFE)
    (zero : s.mustZero p (s.ownFirst p) (s.ownN p) (s.ownCtx p) ≠ []) :
    ∃ t, exec (.grant r p) s = .next t ∧ t.fld (F.OWN_STATUS.BUSY (ownCls p)) (ownInst p) = 1 ∧
      t.fld (F.OWN_STATUS.ZEROING (ownCls p)) (ownInst p) = 1 ∧ t.mm.owners = s.mm.owners ∧ t.mm.granting = s.mm.granting ++
        [{ page := ownCode p, first := s.ownFirst p, count := s.ownN p, ctx := s.ownCtx p }] ∧ SameWork s t := by
  let u := s.addCnt C.GL_CNT_REG_WRITES 1
  let g : Granting := { page := ownCode p, first := s.ownFirst p, count := s.ownN p, ctx := s.ownCtx p }
  have good' : ¬ u.ownBad p (u.ownN p) = true := ne_true_of_eq_false good
  have free' : ¬ (ownKeys p (u.ownFirst p) (u.ownN p)).any (fun k => u.ownerOf k ≠ 0xFFFE) = true := State.grant_free free
  have zero' : ¬ (u.mustZero p (u.ownFirst p) (u.ownN p) (u.ownCtx p)).isEmpty = true := fun h => zero (List.isEmpty_iff.mp h)
  have ran : ∃ v, s.ownRow r p 1 (fun s => s.grant p) = v.grantWaits p g ∧ v.mm = s.mm ∧ SameWork s v := by
    have first := (State.ownRow_runs hw (fun s => s.grant p) held (by decide) idle).trans
      ((if_neg good').trans ((if_neg free').trans (if_neg zero')))
    rw [first]
    cases p with
    | stack i =>
      refine ⟨u.applyField F.HBMC_CFG.ZERO_SHARE i, rfl, ?_, ?_⟩
      · rw [State.applyField_frame]
        rfl
      · rw [State.applyField_frame]
        exact ⟨rfl, rfl, rfl, rfl, rfl⟩
    | slice i => exact ⟨u, rfl, rfl, rfl, rfl, rfl, rfl, rfl⟩
  obtain ⟨v, ran, mem, work⟩ := ran
  refine ⟨_, congrArg Host.Outcome.next ran, ?_, ?_, ?_, ?_, work⟩
  · exact (State.own_fld_setFld (f := F.OWN_STATUS.ZEROING) (g := F.OWN_STATUS.BUSY) _ (by rintro c (rfl | rfl) <;> decide) p 1).trans
      (State.fld_setFld _ _ _ _ _)
  · exact State.fld_setFld _ _ _ _ _
  · show v.mm.owners = _
    rw [mem]
  · show v.mm.granting ++ [g] = _
    rw [mem]
end

/-- Settles O46, by the four ends of a grant. -/
theorem grants : Obligations.Grants :=
  fun _ _ _ hw held idle => ⟨grant_bad hw held idle, grant_inUse hw held idle, grant_done hw held idle, grant_zeroes hw held idle⟩

end Sys2Proof.Machine
end

section
/-! SUPPORT. The end of a zero-fill, REVOKE and QUERY (R310 to R313). -/

namespace Sys2Proof.Machine

/-! ## REVOKE and QUERY -/

section
variable {s : State} {r : Requester} {p : OwnPage}

theorem revoke_foreign (hw : Writable s (ownCls p) (ownInst p) r) (held : s.fld (F.OWN_OP.OP (ownCls p)) (ownInst p) = 2)
    (idle : s.fld (F.OWN_STATUS.BUSY (ownCls p)) (ownInst p) ≠ 1) (good : s.ownBad p (s.ownN p) = false)
    (foreign : ∃ k ∈ ownKeys p (s.ownFirst p) (s.ownN p), s.ownerOf k ≠ s.ownCtx p) :
    ∃ t, exec (.revoke r p) s = .next t ∧ t.fld (F.OWN_STATUS.RESULT (ownCls p)) (ownInst p) = 3 ∧ t.mm = s.mm ∧ SameWork s t := by
  let u := s.addCnt C.GL_CNT_REG_WRITES 1
  have good' : ¬ u.ownBad p (u.ownN p) = true := ne_true_of_eq_false good
  have some : (ownKeys p (u.ownFirst p) (u.ownN p)).any (fun k => u.ownerOf k ≠ u.ownCtx p) = true := by
    obtain ⟨k, hk, hn⟩ := foreign
    exact List.any_eq_true.mpr ⟨k, hk, decide_eq_true hn⟩
  have ran : s.ownRow r p 2 (fun s => s.revoke p) = u.ownDone p 3 :=
    (State.ownRow_runs hw _ held (by decide) idle).trans ((if_neg good').trans (if_pos some))
  exact ⟨_, congrArg Host.Outcome.next ran, u.ownDone_result p (by decide), u.ownDone_answered p 3⟩

/-- A REVOKE of granules that the context owns. -/
theorem State.revoke_own (hw : Writable s (ownCls p) (ownInst p) r) (held : s.fld (F.OWN_OP.OP (ownCls p)) (ownInst p) = 2)
    (idle : s.fld (F.OWN_STATUS.BUSY (ownCls p)) (ownInst p) ≠ 1) (good : s.ownBad p (s.ownN p) = false)
    (own : ∀ k ∈ ownKeys p (s.ownFirst p) (s.ownN p), s.ownerOf k = s.ownCtx p) :
    s.ownRow r p 2 (fun s => s.revoke p) =
      if s.inUse (ownKeys p (s.ownFirst p) (s.ownN p)) then
        (({ s.addCnt C.GL_CNT_REG_WRITES 1 with mm.revokes := s.mm.revokes ++
          [{ page := ownCode p, first := s.ownFirst p, count := s.ownN p, ctx := s.ownCtx p }] } : State).setFld
            (F.OWN_STATUS.DEFERRED (ownCls p)) 1 (ownInst p)).ownDone p 0
      else ((s.addCnt C.GL_CNT_REG_WRITES 1).disown (ownKeys p (s.ownFirst p) (s.ownN p))).ownDone p 0 := by
  let u := s.addCnt C.GL_CNT_REG_WRITES 1
  have good' : ¬ u.ownBad p (u.ownN p) = true := ne_true_of_eq_false good
  have none : ¬ (ownKeys p (u.ownFirst p) (u.ownN p)).any (fun k => u.ownerOf k ≠ u.ownCtx p) = true := by
    rw [List.any_eq_true]
    rintro ⟨k, hk, hn⟩
    exact of_decide_eq_true hn (own k hk)
  exact (State.ownRow_runs hw _ held (by decide) idle).trans ((if_neg good').trans (if_neg none))

theorem revoke_deferred (hw : Writable s (ownCls p) (ownInst p) r) (held : s.fld (F.OWN_OP.OP (ownCls p)) (ownInst p) = 2)
    (idle : s.fld (F.OWN_STATUS.BUSY (ownCls p)) (ownInst p) ≠ 1) (good : s.ownBad p (s.ownN p) = false)
    (own : ∀ k ∈ ownKeys p (s.ownFirst p) (s.ownN p), s.ownerOf k = s.ownCtx p)
    (used : s.inUse (ownKeys p (s.ownFirst p) (s.ownN p)) = true) :
    ∃ t, exec (.revoke r p) s = .next t ∧ t.fld (F.OWN_STATUS.RESULT (ownCls p)) (ownInst p) = 0 ∧
      t.fld (F.OWN_STATUS.DEFERRED (ownCls p)) (ownInst p) = 1 ∧ t.mm.owners = s.mm.owners ∧ SameWork s t := by
  have ran := State.revoke_own hw held idle good own
  rw [if_pos used] at ran
  obtain ⟨mem, work⟩ := State.ownDone_answered (({ s.addCnt C.GL_CNT_REG_WRITES 1 with mm.revokes := s.mm.revokes ++
    [{ page := ownCode p, first := s.ownFirst p, count := s.ownN p, ctx := s.ownCtx p }] } : State).setFld
      (F.OWN_STATUS.DEFERRED (ownCls p)) 1 (ownInst p)) p 0
  refine ⟨_, congrArg Host.Outcome.next ran, State.ownDone_result _ p (by decide), ?_, ?_, work⟩
  · rw [State.ownDone_deferred, State.fld_setFld]
    rfl
  · rw [mem]
    rfl

theorem revoke_revokes (hw : Writable s (ownCls p) (ownInst p) r) (held : s.fld (F.OWN_OP.OP (ownCls p)) (ownInst p) = 2)
    (idle : s.fld (F.OWN_STATUS.BUSY (ownCls p)) (ownInst p) ≠ 1) (good : s.ownBad p (s.ownN p) = false)
    (own : ∀ k ∈ ownKeys p (s.ownFirst p) (s.ownN p), s.ownerOf k = s.ownCtx p)
    (unused : s.inUse (ownKeys p (s.ownFirst p) (s.ownN p)) = false) :
    ∃ t, exec (.revoke r p) s = .next t ∧ t.fld (F.OWN_STATUS.RESULT (ownCls p)) (ownInst p) = 0 ∧
      (∀ k ∈ ownKeys p (s.ownFirst p) (s.ownN p), t.ownerOf k = 0xFFFE) ∧
      (∀ k, k ∉ ownKeys p (s.ownFirst p) (s.ownN p) → t.ownerOf k = s.ownerOf k) ∧ t.mm.dev = s.mm.dev ∧ SameWork s t := by
  have ran := State.revoke_own hw held idle good own
  rw [if_neg (ne_true_of_eq_false unused)] at ran
  have owners := State.ownerOf_disown (ownKeys p (s.ownFirst p) (s.ownN p)) (s.addCnt C.GL_CNT_REG_WRITES 1)
  have frame := State.disown_frame (ownKeys p (s.ownFirst p) (s.ownN p)) (s.addCnt C.GL_CNT_REG_WRITES 1)
  generalize (s.addCnt C.GL_CNT_REG_WRITES 1).disown (ownKeys p (s.ownFirst p) (s.ownN p)) = v at ran owners frame
  obtain ⟨mem, cq, wh, kv, tl, sc⟩ := v.ownDone_answered p 0
  have kept : SameWork s v := by rw [frame]; exact ⟨rfl, rfl, rfl, rfl, rfl⟩
  obtain ⟨cq', wh', kv', tl', sc'⟩ := kept
  refine ⟨_, congrArg Host.Outcome.next ran, v.ownDone_result p (by decide), fun k hk => ?_, fun k hk => ?_, ?_,
    cq.trans cq', wh.trans wh', kv.trans kv', tl.trans tl', sc.trans sc'⟩
  · rw [State.ownerOf, mem]
    exact (owners k).trans (if_pos hk)
  · rw [State.ownerOf, mem]
    exact (owners k).trans (if_neg hk)
  · rw [mem, frame]
    rfl

theorem query_tells (hw : Writable s (ownCls p) (ownInst p) r) (held : s.fld (F.OWN_OP.OP (ownCls p)) (ownInst p) = 3)
    (idle : s.fld (F.OWN_STATUS.BUSY (ownCls p)) (ownInst p) ≠ 1) (good : s.ownBad p 1 = false)
    (real : s.ownerOf (ownKey p (s.ownFirst p)) < 2 ^ 16) :
    ∃ t, exec (.query r p) s = .next t ∧ t.ownCtx p = s.ownerOf (ownKey p (s.ownFirst p)) ∧
      t.fld (F.OWN_STATUS.RESULT (ownCls p)) (ownInst p) = 0 ∧ t.mm = s.mm ∧ SameWork s t := by
  let u := (s.addCnt C.GL_CNT_REG_WRITES 1).setFld (F.OWN_CTX.CONTEXT (ownCls p)) (s.ownerOf (ownKey p (s.ownFirst p))) (ownInst p)
  have good' : ¬ (s.addCnt C.GL_CNT_REG_WRITES 1).ownBad p 1 = true := ne_true_of_eq_false good
  have ran : s.ownRow r p 3 (fun s => s.ownQuery p) = u.ownDone p 0 :=
    (State.ownRow_runs hw _ held (by decide) idle).trans (if_neg good')
  refine ⟨_, congrArg Host.Outcome.next ran, ?_, u.ownDone_result p (by decide), u.ownDone_answered p 0⟩
  rw [State.ownDone_ctx, State.ownCtx, State.fld_setFld]
  exact Nat.mod_eq_of_lt real

/-! ## The effect of a deferred REVOKE (R312) -/

/-- The granules of each REVOKE of a list disowned. -/
def State.disownAll (s : State) (p : OwnPage) (gs : List Granting) : State :=
  gs.foldl (fun s g => s.disown (ownKeys p g.first g.count)) s

theorem State.disownAll_frame (p : OwnPage) (gs : List Granting) (s : State) :
    s.disownAll p gs = { s with mm.owners := (s.disownAll p gs).mm.owners } := by
  unfold State.disownAll
  induction gs generalizing s with
  | nil => rfl
  | cons g gs ih =>
    rw [List.foldl_cons]
    refine Eq.trans (ih _) ?_
    rw [State.disown_frame]

theorem State.disownAll_owner (p : OwnPage) (gs : List Granting) (s : State) {k : Nat}
    (named : s.ownerOf k = 0xFFFE ∨ ∃ g ∈ gs, k ∈ ownKeys p g.first g.count) : (s.disownAll p gs).ownerOf k = 0xFFFE := by
  unfold State.disownAll
  induction gs generalizing s with
  | nil =>
    obtain free | ⟨g, hg, -⟩ := named
    · exact free
    · exact absurd hg List.not_mem_nil
  | cons g gs ih =>
    rw [List.foldl_cons]
    refine ih _ ?_
    have owner := State.ownerOf_disown (ownKeys p g.first g.count) s k
    by_cases here : k ∈ ownKeys p g.first g.count
    · exact .inl (owner.trans (if_pos here))
    · rw [if_neg here] at owner
      refine named.imp owner.trans fun ⟨x, hx, hk⟩ => ⟨x, (List.mem_cons.mp hx).resolve_left ?_, hk⟩
      rintro rfl
      exact here hk

/-- A REVOKE of the page whose granules no command names. -/
def State.revokeFree (s : State) (p : OwnPage) (g : Granting) : Bool :=
  g.page == ownCode p && !s.inUse (ownKeys p g.first g.count)

/-- The page once the effects of `gs` are shown. -/
def State.revokeShown (s : State) (p : OwnPage) (gs : List Granting) : State :=
  let rest := s.mm.revokes.filter (fun g => !gs.contains g)
  (({ s with mm.revokes := rest } : State).setFld (F.OWN_STATUS.DEFERRED (ownCls p))
    (b2n (rest.any (fun g => g.page == ownCode p))) (ownInst p)).ownInt p

theorem State.revokeEffect_eq {g : Granting} (waits : g ∈ s.mm.revokes) (free : s.revokeFree p g = true) :
    s.revokeEffect p = (s.disownAll p (s.mm.revokes.filter (s.revokeFree p))).revokeShown p (s.mm.revokes.filter (s.revokeFree p)) := by
  obtain ⟨x, xs, some⟩ := List.exists_cons_of_ne_nil (List.ne_nil_of_mem (List.mem_filter.mpr ⟨waits, free⟩))
  have some' : s.mm.revokes.filter (fun g => g.page == ownCode p && !s.inUse (ownKeys p g.first g.count)) = x :: xs := some
  unfold State.revokeEffect
  dsimp only
  rw [some', some]
  rfl

theorem revokeEffect_revokes {g : Granting} (waits : g ∈ s.mm.revokes) (page : g.page = ownCode p)
    (unused : s.inUse (ownKeys p g.first g.count) = false) :
    ∃ t, exec (.revokeEffect p) s = .next t ∧ g ∉ t.mm.revokes ∧
      (∀ k ∈ ownKeys p g.first g.count, t.ownerOf k = 0xFFFE) ∧
      t.fld (F.OWN_STATUS.DEFERRED (ownCls p)) (ownInst p) = b2n (t.mm.revokes.any (fun g => g.page == ownCode p)) ∧
      t.mm.dev = s.mm.dev ∧ SameWork s t := by
  have free : s.revokeFree p g = true := by simp [State.revokeFree, page, unused]
  have ran := State.revokeEffect_eq waits free
  have mem : g ∈ s.mm.revokes.filter (s.revokeFree p) := List.mem_filter.mpr ⟨waits, free⟩
  generalize s.mm.revokes.filter (s.revokeFree p) = gs at ran mem
  have owner := fun k (hk : k ∈ ownKeys p g.first g.count) => State.disownAll_owner p gs s (.inr ⟨g, mem, hk⟩)
  have frame := State.disownAll_frame p gs s
  generalize s.disownAll p gs = v at ran owner frame
  have kept : SameWork s v ∧ v.mm.dev = s.mm.dev := by rw [frame]; exact ⟨⟨rfl, rfl, rfl, rfl, rfl⟩, rfl⟩
  obtain ⟨⟨cq', wh', kv', tl', sc'⟩, dev⟩ := kept
  obtain ⟨mm, cq, wh, kv, tl, sc⟩ := State.ownInt_answered (({ v with mm.revokes := v.mm.revokes.filter (fun g => !gs.contains g) } : State).setFld
    (F.OWN_STATUS.DEFERRED (ownCls p)) (b2n ((v.mm.revokes.filter (fun g => !gs.contains g)).any (fun g => g.page == ownCode p)))
    (ownInst p)) p
  have memory : (v.revokeShown p gs).mm = { v.mm with revokes := v.mm.revokes.filter (fun g => !gs.contains g) } := mm
  refine ⟨_, congrArg Host.Outcome.next ran, ?_, fun k hk => ?_, ?_, ?_, cq.trans cq', wh.trans wh', kv.trans kv', tl.trans tl',
    sc.trans sc'⟩
  · rw [memory]
    exact fun h => by simpa [mem] using (List.mem_filter.mp h).2
  · rw [State.ownerOf, memory]
    exact owner k hk
  · rw [memory, State.revokeShown, State.ownInt_fld (g := F.OWN_STATUS.DEFERRED) _ _ (by decide) (by decide), State.fld_setFld]
    cases (v.mm.revokes.filter (fun g => !gs.contains g)).any (fun g => g.page == ownCode p) <;> rfl
  · rw [memory]
    exact dev
end

/-! ## The end of a zero-fill (R311, R313) -/

theorem look_filter {α : Type} (d : α) (m : SMap α) (f : Nat → Bool) (k : Nat) :
    look d (m.filter (fun c => f c.1)) k = if f k then look d m k else d := by
  induction m with
  | nil => simp [look]
  | cons e m ih =>
    obtain ⟨j, w⟩ := e
    by_cases hj : f j = true
    · simp only [List.filter_cons, hj, if_true]
      unfold look
      by_cases same : j = k
      · subst same
        rw [if_pos rfl, if_pos rfl, if_pos hj]
      · rw [if_neg same, if_neg same, ih]
    · simp only [List.filter_cons, hj, Bool.false_eq_true, if_false]
      rw [ih]
      by_cases same : j = k
      · subst same
        rw [if_neg hj, if_neg hj]
      · conv_rhs => unfold look
        rw [if_neg same]

theorem State.rdByte_devZero (s : State) (a n b : Nat) :
    rdByte (s.devZero a n).mm.dev b = if a ≤ b ∧ b < a + n then 0 else rdByte s.mm.dev b := by
  have filtered : rdByte (s.devZero a n).mm.dev b = if (decide (b < a) || decide (a + n ≤ b)) then rdByte s.mm.dev b else 0 :=
    look_filter 0 s.mm.dev (fun k => decide (k < a) || decide (a + n ≤ k)) b
  rw [filtered]
  by_cases inside : a ≤ b ∧ b < a + n
  · rw [if_pos inside, if_neg (by simp; omega)]
  · rw [if_neg inside, if_pos (by simp; omega)]

/-- Granules of a stack zeroed. -/
def State.zeroGranules (s : State) (i : Fin 12) (gs : List Nat) : State := gs.foldl (fun s x => s.zeroGranule (.stack i) x) s

theorem State.zeroGranules_dev (i : Fin 12) (gs : List Nat) (s : State) (b : Nat) :
    ((∃ x ∈ gs, granuleAddr i x ≤ b ∧ b < granuleAddr i x + 2 ^ 21) → rdByte (s.zeroGranules i gs).mm.dev b = 0) ∧
      ((∀ x ∈ gs, b < granuleAddr i x ∨ granuleAddr i x + 2 ^ 21 ≤ b) → rdByte (s.zeroGranules i gs).mm.dev b = rdByte s.mm.dev b) := by
  have general : ∀ s : State, rdByte (s.zeroGranules i gs).mm.dev b =
      if ∃ x ∈ gs, granuleAddr i x ≤ b ∧ b < granuleAddr i x + 2 ^ 21 then 0 else rdByte s.mm.dev b := by
    unfold State.zeroGranules
    induction gs with
    | nil => simp
    | cons x gs ih =>
      intro s
      rw [List.foldl_cons, ih]
      have first := s.rdByte_devZero (granuleAddr i x) (2 ^ 21) b
      by_cases later : ∃ x ∈ gs, granuleAddr i x ≤ b ∧ b < granuleAddr i x + 2 ^ 21
      · rw [if_pos later, if_pos (later.imp fun y h => ⟨List.mem_cons_of_mem _ h.1, h.2⟩)]
      · rw [if_neg later]
        refine first.trans ?_
        by_cases here : granuleAddr i x ≤ b ∧ b < granuleAddr i x + 2 ^ 21
        · rw [if_pos here, if_pos ⟨x, List.mem_cons_self, here⟩]
        · rw [if_neg here, if_neg]
          rintro ⟨y, hy, inside⟩
          obtain rfl | hy := List.mem_cons.mp hy
          · exact here inside
          · exact later ⟨y, hy, inside⟩
  refine ⟨fun zeroed => by rw [general, if_pos zeroed], fun apart => ?_⟩
  rw [general, if_neg]
  rintro ⟨x, hx, lo, hi⟩
  have := apart x hx
  omega

theorem State.zeroGranules_frame (i : Fin 12) (gs : List Nat) (s : State) :
    SameWork s (s.zeroGranules i gs) ∧ (s.zeroGranules i gs).mm.granting = s.mm.granting := by
  unfold State.zeroGranules
  induction gs generalizing s with
  | nil => exact ⟨⟨rfl, rfl, rfl, rfl, rfl⟩, rfl⟩
  | cons x gs ih =>
    rw [List.foldl_cons]
    obtain ⟨⟨cq, wh, kv, tl, sc⟩, granting⟩ := ih (s.zeroGranule (.stack i) x)
    exact ⟨⟨cq, wh, kv, tl, sc⟩, granting⟩

/-- The granules of a grant, and that their zeroing has ended. -/
def State.zeroShown (s : State) (i : Fin 12) (g : Granting) : State :=
  ((({ s with mm.granting := s.mm.granting.erase g } : State).own (ownKeys (.stack i) g.first g.count) g.ctx).setFld
    (F.OWN_STATUS.ZEROING 0x21) 0 i).setInt F.HBMC_INT_STATUS.ZERO_DONE i

/-- The end of an operation of a stack's page. -/
theorem State.ownDone_stack (s : State) (i : Fin 12) (result : Nat) :
    s.ownDone (.stack i) result = ((s.setFld (F.OWN_STATUS.BUSY 0x21) 0 i).setFld (F.OWN_STATUS.RESULT 0x21) result i).setInt
      F.HBMC_INT_STATUS.OWN_DONE i := rfl

theorem State.zeroDone_eq {s : State} {i : Fin 12} {g : Granting} (found : s.mm.granting.find? (fun g => g.page == i.val) = some g)
    (on : s.tm.power ≠ .off) (none : s.heldIn (.stack i) (s.mustZero (.stack i) g.first g.count g.ctx) = []) :
    s.zeroDone (.stack i) =
      ((s.zeroGranules i (s.mustZero (.stack i) g.first g.count g.ctx)).zeroShown i g).ownDone (.stack i) 0 := by
  have found' : s.mm.granting.find? (fun g => g.page == ownCode (.stack i)) = some g := found
  unfold State.zeroDone
  rw [found']
  dsimp only
  rw [if_neg on, if_neg (by simp [none])]
  rfl

theorem zeroDone_zeroes {s : State} {i : Fin 12} {g : Granting} (found : s.mm.granting.find? (fun g => g.page == i.val) = some g)
    (on : s.tm.power ≠ .off) (none : s.heldIn (.stack i) (s.mustZero (.stack i) g.first g.count g.ctx) = []) :
    ∃ t, exec (.zeroDone (.stack i)) s = .next t ∧
      (∀ x ∈ s.mustZero (.stack i) g.first g.count g.ctx, ∀ k, k < 2 ^ 21 → rdByte t.mm.dev (granuleAddr i x + k) = 0) ∧
      (∀ a, (∀ x ∈ s.mustZero (.stack i) g.first g.count g.ctx, a < granuleAddr i x ∨ granuleAddr i x + 2 ^ 21 ≤ a) →
        rdByte t.mm.dev a = rdByte s.mm.dev a) ∧
      (∀ k ∈ ownKeys (.stack i) g.first g.count, t.ownerOf k = g.ctx) ∧
      t.fld (F.OWN_STATUS.BUSY 0x21) i = 0 ∧ t.fld (F.OWN_STATUS.ZEROING 0x21) i = 0 ∧
      t.fld (F.OWN_STATUS.RESULT 0x21) i = 0 ∧ t.fld F.HBMC_INT_STATUS.ZERO_DONE i = 1 ∧
      t.fld F.HBMC_INT_STATUS.OWN_DONE i = 1 ∧ t.mm.granting = s.mm.granting.erase g ∧ SameWork s t := by
  have ran := State.zeroDone_eq found on none
  generalize s.mustZero (.stack i) g.first g.count g.ctx = gs at ran
  have dev := State.zeroGranules_dev i gs s
  obtain ⟨⟨cq, wh, kv, tl, sc⟩, granting⟩ := State.zeroGranules_frame i gs s
  generalize s.zeroGranules i gs = u at ran dev cq wh kv tl sc granting
  let v : State := { u with mm.granting := u.mm.granting.erase g }
  have owners := State.ownerOf_own (ownKeys (.stack i) g.first g.count) g.ctx v
  have frame := State.own_frame (ownKeys (.stack i) g.first g.count) g.ctx v
  have shown : u.zeroShown i g = (((v.own (ownKeys (.stack i) g.first g.count) g.ctx).setFld
    (F.OWN_STATUS.ZEROING 0x21) 0 i).setInt F.HBMC_INT_STATUS.ZERO_DONE i) := rfl
  generalize v.own (ownKeys (.stack i) g.first g.count) g.ctx = w at owners frame shown
  rw [shown] at ran
  let x := (w.setFld (F.OWN_STATUS.ZEROING 0x21) 0 i).setInt F.HBMC_INT_STATUS.ZERO_DONE i
  obtain ⟨mm, cq', wh', kv', tl', sc'⟩ := x.ownDone_answered (.stack i) 0
  have mem : (x.ownDone (.stack i) 0).mm = w.mm := mm.trans (State.setInt_mm _ _ _)
  have memDev : w.mm.dev = u.mm.dev := by rw [frame]
  have memGranting : w.mm.granting = u.mm.granting.erase g := by rw [frame]
  have kept : SameWork u w := by rw [frame]; exact ⟨rfl, rfl, rfl, rfl, rfl⟩
  obtain ⟨cq₂, wh₂, kv₂, tl₂, sc₂⟩ := kept
  refine ⟨_, congrArg Host.Outcome.next ran, fun y hy k hk => ?_, fun a apart => ?_, fun k hk => ?_, ?_, ?_, ?_, ?_, ?_, ?_, ?_, ?_, ?_, ?_, ?_⟩
  · rw [mem, memDev]
    exact (dev _).1 ⟨y, hy, by omega, by omega⟩
  · rw [mem, memDev]
    exact (dev a).2 apart
  · rw [State.ownerOf, mem]
    exact (owners k).trans (if_pos hk)
  · exact x.ownDone_busy (.stack i) 0
  · refine (x.ownDone_zeroing (.stack i) 0).trans ?_
    exact (State.fld_setInt_other (g := F.OWN_STATUS.ZEROING 0x21) _ (by decide)).trans
      (State.fld_setFld w (F.OWN_STATUS.ZEROING 0x21) 0 i 0)
  · exact x.ownDone_result (.stack i) (by decide)
  · rw [State.ownDone_stack, State.fld_setInt_other _ (by decide), State.fld_setFld_other _ (by decide),
      State.fld_setFld_other _ (by decide)]
    exact State.fld_setInt _ _ _
  · exact State.fld_setInt _ _ _
  · rw [mem, memGranting, granting]
  · exact cq'.trans ((State.setInt_cq _ _ _).trans (cq₂.trans cq))
  · exact wh'.trans ((State.setInt_wh _ _ _).trans (wh₂.trans wh))
  · exact kv'.trans ((State.setInt_kv _ _ _).trans (kv₂.trans kv))
  · exact tl'.trans ((State.setInt_tl _ _ _).trans (tl₂.trans tl))
  · exact sc'.trans ((State.setInt_sc _ _ _).trans (sc₂.trans sc))

/-- Settles O47: the zero-fill by its granules, REVOKE and QUERY by their tests. -/
theorem zeroingAndRevokes : Obligations.ZeroingAndRevokes :=
  ⟨fun _ _ _ => zeroDone_zeroes,
   fun _ _ => ⟨fun _ hw idle => ⟨fun held good => ⟨revoke_foreign hw held idle good, revoke_deferred hw held idle good,
      revoke_revokes hw held idle good⟩, fun held => query_tells hw held idle⟩, fun _ => revokeEffect_revokes⟩⟩

end Sys2Proof.Machine
end

section
/-! SUPPORT. ENABLE, DISABLE and RESET_SEQ of the selected queue (R379, R412, R550, R551). -/

namespace Sys2Proof.Machine

/-- What the delivery of a queue's completions leaves. -/
structure Pumped (s t : State) (n : Nat) : Prop where
  fields : t.rg.fields = s.rg.fields
  mm : t.mm = s.mm
  sc : t.sc = s.sc
  cmds : t.cq.cmds = s.cq.cmds
  others : ∀ m, m ≠ n → t.queue m = s.queue m
  own : ∃ w, t.queue n = { s.queue n with writing := w }

theorem State.pumpQueue_pumped (s : State) (n : Nat) : Pumped s (s.pumpQueue n) n := by
  have unchanged : Pumped s s n := ⟨rfl, rfl, rfl, rfl, fun _ _ => rfl, _, rfl⟩
  unfold State.pumpQueue
  dsimp only
  split
  · exact unchanged
  · split
    · exact unchanged
    · have own := look_put_self (α := Queue) {} s.cq.queues n { s.queue n with writing := true }
      refine ⟨by rw [State.hwr_fields]; rfl, by rw [State.hwr_mm]; rfl, by rw [State.hwr_sc]; rfl, by rw [State.hwr_cq]; rfl,
        fun m apart => ?_, true, ?_⟩
      · rw [State.queue, State.hwr_cq]
        exact look_put_ne _ _ _ apart
      · rw [State.queue, State.hwr_cq]
        exact own

/-- A queue enabled: it keeps its position where it has one and the device is not in minimal mode. -/
theorem State.enableQueue_enables (s : State) (n : Nat) (desc : List Byte) :
    let t := s.enableQueue n desc
    t.rg.fields = s.rg.fields ∧ t.mm = s.mm ∧ t.sc = s.sc ∧ t.cq.cmds = s.cq.cmds ∧ (∀ m, m ≠ n → t.queue m = s.queue m) ∧
      (t.queue n).enabled = true ∧ (t.queue n).draining = false ∧ (t.queue n).desc = desc ∧
      ∀ p, (s.queue n).position = some p → s.tm.power ≠ .minimal →
        (t.queue n).position = some p ∧ (t.queue n).tail = p.2 ∧ (t.queue n).asked = p.2 := by
  intro t
  have ht : t = s.enableQueue n desc := rfl
  unfold State.enableQueue at ht
  extract_lets fresh _ q start nx old u at ht
  obtain ⟨fields, mm, sc, cmds, others, w, own⟩ := u.pumpQueue_pumped n
  rw [← ht] at fields mm sc cmds others own
  have here : u.queue n = _ := look_put_self (α := Queue) {} s.cq.queues n _
  rw [here] at own
  refine ⟨fields, mm, sc, cmds, fun m apart => (others m apart).trans (look_put_ne _ _ _ apart), by rw [own], by rw [own],
    by rw [own], fun p position live => ?_⟩
  have start_eq : start = (p, []) := by
    have here : q.position = some p := position
    simp only [start]
    split
    · next p' at_ =>
      obtain rfl : p' = p := Option.some.inj (at_.symm.trans here)
      rw [if_neg live]
    · next at_ => exact absurd (at_.symm.trans here) nofun
  have fresh_eq : fresh = false := by simp [fresh, position, live]
  have nx_eq : nx = p.2 := by simp only [nx, start_eq]
  have old_eq : old = p.1 := by simp [old, fresh_eq, start_eq]
  exact ⟨by rw [own]; show some (old, nx) = _; rw [nx_eq, old_eq], by rw [own]; exact nx_eq, by rw [own]; exact nx_eq⟩

section
variable {s : State} {r : Requester}

/-- A result shown, and nothing else but registers and host memory. -/
theorem enable_answers {host : List (Nat × Byte)} {n : Nat} {desc : List Byte} {code v : Nat} {q : Queue}
    (is : code = v) (small : v < 8) (failed : v ≠ 0) :
    let t := ((s.hostGives host).addCnt C.GL_CNT_REG_WRITES 1).setFld F.Q_OP.RESULT v
    t.fld F.Q_OP.RESULT = code ∧ t.mm = s.mm ∧ t.cq.cmds = s.cq.cmds ∧
      FieldsBut s t [fieldKey F.Q_OP.RESULT 0 0] ∧ (∀ m, m ≠ n → t.queue m = s.queue m) ∧
      (code ≠ 0 → t = { s with rg := t.rg, hl.hostMem := t.hl.hostMem }) ∧
      (code = 0 → (t.queue n).enabled = true ∧ (t.queue n).draining = false ∧ (t.queue n).desc = desc ∧
        (t.ctx (field desc 0x1C 2)).client.isSome = true ∧
        ∀ p, q.position = some p → s.tm.power ≠ .minimal →
          (t.queue n).position = some p ∧ (t.queue n).tail = p.2 ∧ (t.queue n).asked = p.2) := by
  subst is
  refine ⟨(State.fld_setFld _ _ _ _ _).trans (Nat.mod_eq_of_lt small), rfl, rfl,
    (FieldsBut.refl s _).setFld (List.mem_singleton_self _), fun _ _ => rfl, fun _ => rfl, fun none => absurd none failed⟩

theorem enable_enables (hw : Writable s 0x03 0 r) (host : List (Nat × Byte)) :
    let n := s.fld F.Q_SEL.QUEUE
    let q := s.queue n
    let desc := (s.hostGives host).hostBytes (s.fld F.Q_TABLE_HI.BASE * 2 ^ 32 + s.fld F.Q_TABLE_LO.BASE * 4096 + 64 * n) 64
    let code : Nat := if q.enabled ∨ q.draining then 4 else if badQueueDesc desc then 1
      else if !(s.ctx (field desc 0x1C 2)).exist then 2 else if s.clientClash desc then 3 else 0
    ∃ t, exec (.enable r host) s = .next t ∧ t.fld F.Q_OP.RESULT = code ∧ t.mm = s.mm ∧ t.cq.cmds = s.cq.cmds ∧
      FieldsBut s t [fieldKey F.Q_OP.RESULT 0 0] ∧ (∀ m, m ≠ n → t.queue m = s.queue m) ∧
      (code ≠ 0 → t = { s with rg := t.rg, hl.hostMem := t.hl.hostMem }) ∧
      (code = 0 → (t.queue n).enabled = true ∧ (t.queue n).draining = false ∧ (t.queue n).desc = desc ∧
        (t.ctx (field desc 0x1C 2)).client.isSome = true ∧
        ∀ p, q.position = some p → s.tm.power ≠ .minimal →
          (t.queue n).position = some p ∧ (t.queue n).tail = p.2 ∧ (t.queue n).asked = p.2) := by
  intro n q desc code
  let u := (s.hostGives host).addCnt C.GL_CNT_REG_WRITES 1
  have served : Writable (s.hostGives host) 0x03 0 r := hw
  let x := s.ctx (field desc 0x1C 2)
  let v := u.setCtx (field desc 0x1C 2) { x with client := some (x.client.getD (field desc 0x1A 2)) }
  have ran : (s.hostGives host).opWrite r 0x03 0 0x10C 1 State.enableOp =
      if q.enabled ∨ q.draining then u.setFld F.Q_OP.RESULT 4
      else if badQueueDesc desc then u.setFld F.Q_OP.RESULT 1
      else if !x.exist then u.setFld F.Q_OP.RESULT 2
      else if s.clientClash desc then u.setFld F.Q_OP.RESULT 3
      else (v.enableQueue n desc).setFld F.Q_OP.RESULT 0 := served.opWrite _ _ _
  have shown : code = if q.enabled ∨ q.draining then 4 else if badQueueDesc desc then 1
      else if !x.exist then 2 else if s.clientClash desc then 3 else 0 := rfl
  clear_value code
  by_cases busy : q.enabled = true ∨ q.draining = true
  · rw [if_pos busy] at ran shown
    exact ⟨_, congrArg Host.Outcome.next ran, enable_answers shown (by decide) (by decide)⟩
  rw [if_neg busy] at ran shown
  by_cases bad : badQueueDesc desc = true
  · rw [if_pos bad] at ran shown
    exact ⟨_, congrArg Host.Outcome.next ran, enable_answers shown (by decide) (by decide)⟩
  rw [if_neg bad] at ran shown
  by_cases absent : (!x.exist) = true
  · rw [if_pos absent] at ran shown
    exact ⟨_, congrArg Host.Outcome.next ran, enable_answers shown (by decide) (by decide)⟩
  rw [if_neg absent] at ran shown
  by_cases clash : s.clientClash desc = true
  · rw [if_pos clash] at ran shown
    exact ⟨_, congrArg Host.Outcome.next ran, enable_answers shown (by decide) (by decide)⟩
  rw [if_neg clash] at ran shown
  obtain ⟨fields, mm, sc, cmds, others, enabled, draining, described, position⟩ := v.enableQueue_enables n desc
  have client : (v.ctx (field desc 0x1C 2)).client.isSome = true := by rw [State.ctx_setCtx_self]; rfl
  generalize v.enableQueue n desc = w at ran fields mm sc cmds others enabled draining described position
  refine ⟨_, congrArg Host.Outcome.next ran, (State.fld_setFld _ _ _ _ _).trans shown.symm, mm, cmds, ?_, others,
    fun some => absurd shown some, fun _ => ⟨enabled, draining, described, ?_, position⟩⟩
  · have kept : FieldsBut s w [fieldKey F.Q_OP.RESULT 0 0] := fun _ _ _ => by rw [fields]; rfl
    exact kept.setFld (List.mem_singleton_self _)
  · show (w.ctx (field desc 0x1C 2)).client.isSome = true
    rw [State.ctx, sc]
    exact client

theorem disable_drains (hw : Writable s 0x03 0 r) :
    let n := s.fld F.Q_SEL.QUEUE
    let q := s.queue n
    ∃ t, exec (.disable r) s = .next t ∧ t.fld F.Q_OP.RESULT = 0 ∧ FieldsBut s t [fieldKey F.Q_OP.RESULT 0 0] ∧
      t = { s with rg := t.rg, cq := t.cq } ∧ t.cq.cmds = s.cq.cmds ∧ (∀ m, m ≠ n → t.queue m = s.queue m) ∧
      (q.enabled = false → t.cq = s.cq) ∧
      (q.enabled = true → t.queue n = { q with
        enabled := false, inHand := [], tail := q.next, asked := q.next
        draining := !(s.cq.cmds.all (fun c => c.q ≠ n) && q.done.isEmpty) }) := by
  intro n q
  let u := (s.addCnt C.GL_CNT_REG_WRITES 1).setFld F.Q_OP.RESULT 0
  let x : Queue := { q with enabled := false, draining := true, inHand := [], tail := q.next, asked := q.next }
  let w := u.setQueue n x
  let v : State := { w with cq.arrivals := w.cq.arrivals.filter (fun a => a.1 != n) }
  have ran : s.opWrite r 0x03 0 0x10C 2 State.disableOp = if q.enabled then v.drainCheck n else u := hw.opWrite _ _ _
  have shown : u.fld F.Q_OP.RESULT = 0 := State.fld_setFld _ _ _ _ _
  have kept : FieldsBut s u [fieldKey F.Q_OP.RESULT 0 0] := (FieldsBut.refl s _).addCnt.setFld (List.mem_singleton_self _)
  by_cases enabled : q.enabled = true
  · rw [if_pos enabled] at ran
    have own : v.queue n = x := look_put_self _ _ _ _
    have others : ∀ m, m ≠ n → v.queue m = s.queue m := fun m apart => look_put_ne _ _ _ apart
    by_cases idle : s.cq.cmds.all (fun c => c.q ≠ n) = true ∧ q.done = []
    · have drained : v.drainCheck n = v.setQueue n { x with draining := false } := by
        unfold State.drainCheck
        rw [own]
        exact if_pos ⟨rfl, idle.1, idle.2⟩
      rw [drained] at ran
      refine ⟨_, congrArg Host.Outcome.next ran, shown, kept, rfl, rfl, fun m apart => ?_, fun h => absurd enabled (by simp [h]),
        fun _ => ?_⟩
      · exact (look_put_ne _ _ _ apart).trans (others m apart)
      · refine (look_put_self _ _ _ _).trans ?_
        rw [idle.1, idle.2]
        rfl
    · have drains : v.drainCheck n = v := by
        unfold State.drainCheck
        rw [own]
        exact if_neg fun h => idle h.2
      rw [drains] at ran
      refine ⟨_, congrArg Host.Outcome.next ran, shown, kept, rfl, rfl, others, fun h => absurd enabled (by simp [h]), fun _ => ?_⟩
      have some : (s.cq.cmds.all (fun c => c.q ≠ n) && q.done.isEmpty) = false := by
        rw [Bool.eq_false_iff]
        intro h
        obtain ⟨all, none⟩ := Bool.and_eq_true_iff.mp h
        exact idle ⟨all, List.isEmpty_iff.mp none⟩
      rw [own, some]
      rfl
  · rw [if_neg enabled] at ran
    exact ⟨_, congrArg Host.Outcome.next ran, shown, kept, rfl, rfl, fun _ _ => rfl, fun _ => rfl, fun h => absurd h enabled⟩

theorem resetSeq_resets (hw : Writable s 0x03 0 r) :
    let n := s.fld F.Q_SEL.QUEUE
    let q := s.queue n
    ∃ t, exec (.resetSeq r) s = .next t ∧ FieldsBut s t [fieldKey F.Q_OP.RESULT 0 0] ∧
      (q.enabled = true ∨ q.draining = true → t.fld F.Q_OP.RESULT = 4 ∧ OnlyRegs s t) ∧
      (q.enabled = false → q.draining = false → t.fld F.Q_OP.RESULT = 0 ∧
        t = { s with rg := t.rg, cq.queues := t.cq.queues } ∧ t.queue n = { q with position := none, done := [] } ∧
        ∀ m, m ≠ n → t.queue m = s.queue m) := by
  intro n q
  let u := s.addCnt C.GL_CNT_REG_WRITES 1
  have ran : s.opWrite r 0x03 0 0x10C 3 State.resetSeqOp =
      if q.enabled ∨ q.draining then u.setFld F.Q_OP.RESULT 4
      else (u.setQueue n { q with position := none, done := [] }).setFld F.Q_OP.RESULT 0 := hw.opWrite _ _ _
  have kept : ∀ v, FieldsBut s (u.setFld F.Q_OP.RESULT v) [fieldKey F.Q_OP.RESULT 0 0] := fun _ =>
    (FieldsBut.refl s _).addCnt.setFld (List.mem_singleton_self _)
  by_cases busy : q.enabled = true ∨ q.draining = true
  · rw [if_pos busy] at ran
    refine ⟨_, congrArg Host.Outcome.next ran, kept 4, fun _ => ⟨State.fld_setFld _ _ _ _ _, rfl⟩, fun enabled draining => ?_⟩
    simp [enabled, draining] at busy
  · rw [if_neg busy] at ran
    exact ⟨_, congrArg Host.Outcome.next ran, kept 0, fun h => absurd h busy, fun _ _ => ⟨State.fld_setFld _ _ _ _ _, rfl,
      look_put_self _ _ _ _, fun _ apart => look_put_ne _ _ _ apart⟩⟩
end

/-- Settles O48, by the tests of each operation in their order. -/
theorem queueOperations : Obligations.QueueOperations :=
  fun _ _ hw => ⟨enable_enables hw, disable_drains hw, resetSeq_resets hw⟩

end Sys2Proof.Machine
end

section
/-! SUPPORT. The enables of the pools, the wellhead and the cisterns, and the cisterns' operations (R181, R289, R290, R308,
R366, R372, R373, R378). -/

namespace Sys2Proof.Machine

/-! ## A write refused -/

theorem State.reject_rejects (s : State) (cls inst : Nat) :
    (s.reject cls inst).fld (F.PG_STATUS.WRITE_REJECT cls) inst = 1 ∧
      FieldsBut s (s.reject cls inst) [fieldKey (F.PG_STATUS.WRITE_REJECT cls) inst 0] ∧ OnlyRegs s (s.reject cls inst) :=
  ⟨State.fld_setFld s (F.PG_STATUS.WRITE_REJECT cls) 1 inst 0, (FieldsBut.refl s _).setFld (List.mem_singleton_self _), rfl⟩

theorem FieldsBut.fld {s t : State} {keys : List Nat} (h : FieldsBut s t keys) {f : Field} {i b : Nat} (hk : fieldKey f i b ∉ keys) :
    t.fld f i b = s.fld f i b := h _ hk _

/-! ## KVP_CFG and WH_CFG -/

/-- A counter tells nothing of the regions of pages. -/
theorem State.regionsOk_addCnt (s : State) (c : Cnt) (n i b : Nat) : (s.addCnt c n i b).regionsOk = s.regionsOk := by
  have base : (s.addCnt c n i b).regionBase = s.regionBase := rfl
  have count : (s.addCnt c n i b).regionCount = s.regionCount := rfl
  have total : (s.addCnt c n i b).pageTotal = s.pageTotal := rfl
  have size : (s.addCnt c n i b).pageSize = s.pageSize := rfl
  unfold State.regionsOk
  rw [base, count, total, size]

/-- The size of the system area follows the blocks enabled, in registers of its own. -/
theorem State.resizeSys_only (s : State) (kvp wh : Bool) :
    OnlyRegs s (s.resizeSys kvp wh) ∧
      ∀ (f : Field), (∀ p < 4, fieldKey f 0 0 ≠ fieldKey F.PDIE_SYS.SIZE p 0) → (s.resizeSys kvp wh).fld f = s.fld f := by
  unfold State.resizeSys
  have pages : ∀ p ∈ List.range 4, p < 4 := fun p => List.mem_range.mp
  generalize List.range 4 = l at pages
  induction l generalizing s with
  | nil => exact ⟨rfl, fun _ _ => rfl⟩
  | cons p l ih =>
    rw [List.foldl_cons]
    obtain ⟨only, kept⟩ := ih (s.setFld F.PDIE_SYS.SIZE (s.sysSize kvp wh p) p) fun q hq => pages q (List.mem_cons_of_mem _ hq)
    exact ⟨Eq.trans only rfl, fun f h => (kept f h).trans
      (s.fld_setFld_ne _ _ _ _ _ _ _ (h p (pages p List.mem_cons_self)))⟩

section
variable {s : State} {r : Requester} {v : W32}

/-- The pools without a page in use. -/
def State.poolsEmptied (s : State) : State := { s with kv.pgCount := [], kv.pgStaged := [], kv.rotor := 0 }

theorem State.fld_poolsEmptied (s : State) (f : Field) (i b : Nat) : s.poolsEmptied.fld f i b = s.fld f i b := rfl

/-- The write of KVP_CFG's enable bit, the page size left. -/
theorem State.kvpCfgWrite_eq (hw : Writable s 0x04 0 r) (size : bits v.toNat 3 1 = s.fld F.KVP_CFG.PSIZE)
    (changes : v.toNat % 2 ≠ s.fld F.KVP_CFG.ENABLE) :
    s.opWrite r 0x04 0 0x100 v.toNat (fun s => s.kvpCfgWrite v.toNat) =
      if v.toNat % 2 = 1 then
        if s.regionsOk && s.kvpAreasOk && s.sysOk true (s.fld F.WH_CFG.ENABLE = 1) then
          (((s.addCnt C.GL_CNT_REG_WRITES 1).setFld F.KVP_CFG.ENABLE 1).resizeSys true (s.fld F.WH_CFG.ENABLE = 1)).poolsEmptied
        else (s.addCnt C.GL_CNT_REG_WRITES 1).reject 0x04 0
      else if s.kvpClears then (s.addCnt C.GL_CNT_REG_WRITES 1).setFld F.KVP_CFG.ENABLE 0
      else (s.addCnt C.GL_CNT_REG_WRITES 1).reject 0x04 0 := by
  rw [hw.opWrite]
  unfold State.kvpCfgWrite
  dsimp only
  rw [State.fld_addCnt, State.fld_addCnt, if_neg changes, if_pos size, State.regionsOk_addCnt]
  rfl

theorem kvpCfgEnable_answers (hw : Writable s 0x04 0 r) (size : bits v.toNat 3 1 = s.fld F.KVP_CFG.PSIZE)
    (changes : v.toNat % 2 ≠ s.fld F.KVP_CFG.ENABLE) :
    let ok : Bool := if v.toNat % 2 = 1
      then s.regionsOk && s.kvpAreasOk && s.sysOk true (s.fld F.WH_CFG.ENABLE = 1) else s.kvpClears
    ∃ t, exec (.kvpCfgEnable r v) s = .next t ∧
      (ok = true → t.fld F.KVP_CFG.ENABLE = v.toNat % 2 ∧ (v.toNat % 2 = 1 → t.kv.pgCount = [] ∧ t.kv.pgStaged = [])) ∧
      (ok = false → t.fld F.KVP_CFG.ENABLE = s.fld F.KVP_CFG.ENABLE ∧ t.fld (F.PG_STATUS.WRITE_REJECT 0x04) = 1 ∧
        FieldsBut s t [fieldKey (F.PG_STATUS.WRITE_REJECT 0x04) 0 0]) ∧ t = { s with rg := t.rg, kv := t.kv } := by
  have ran := State.kvpCfgWrite_eq hw size changes
  let u := s.addCnt C.GL_CNT_REG_WRITES 1
  obtain ⟨rejected, but, -⟩ := u.reject_rejects 0x04 0
  have refuse : s.opWrite r 0x04 0 0x100 v.toNat (fun s => s.kvpCfgWrite v.toNat) = u.reject 0x04 0 →
      ∃ t, exec (.kvpCfgEnable r v) s = .next t ∧ (t.fld F.KVP_CFG.ENABLE = s.fld F.KVP_CFG.ENABLE ∧
        t.fld (F.PG_STATUS.WRITE_REJECT 0x04) = 1 ∧ FieldsBut s t [fieldKey (F.PG_STATUS.WRITE_REJECT 0x04) 0 0]) ∧
        t = { s with rg := t.rg, kv := t.kv } := fun ran =>
    ⟨_, congrArg Host.Outcome.next ran, ⟨but.fld (by decide), rejected, but⟩, rfl⟩
  by_cases on : v.toNat % 2 = 1
  · rw [if_pos on] at ran ⊢
    cases fits : (s.regionsOk && s.kvpAreasOk && s.sysOk true (s.fld F.WH_CFG.ENABLE = 1)) with
    | false =>
      rw [fits, if_neg (by decide)] at ran
      obtain ⟨t, done, shown, frame⟩ := refuse ran
      exact ⟨t, done, nofun, fun _ => shown, frame⟩
    | true =>
      rw [fits, if_pos rfl] at ran
      obtain ⟨regs, kept⟩ := (u.setFld F.KVP_CFG.ENABLE 1).resizeSys_only true (s.fld F.WH_CFG.ENABLE = 1)
      have shown := (kept F.KVP_CFG.ENABLE (by decide)).trans (State.fld_setFld _ _ _ _ _)
      generalize (u.setFld F.KVP_CFG.ENABLE 1).resizeSys true (s.fld F.WH_CFG.ENABLE = 1) = w at ran regs shown
      refine ⟨_, congrArg Host.Outcome.next ran, fun _ => ⟨?_, fun _ => ⟨rfl, rfl⟩⟩, nofun, ?_⟩
      · rw [State.fld_poolsEmptied]
        exact shown.trans on.symm
      · rw [regs]
        rfl
  · rw [if_neg on] at ran ⊢
    cases clear : s.kvpClears with
    | false =>
      rw [clear, if_neg (by decide)] at ran
      obtain ⟨t, done, shown, frame⟩ := refuse ran
      exact ⟨t, done, nofun, fun _ => shown, frame⟩
    | true =>
      rw [clear, if_pos rfl] at ran
      refine ⟨_, congrArg Host.Outcome.next ran, fun _ => ⟨?_, fun h => absurd h on⟩, nofun, rfl⟩
      rw [State.fld_setFld]
      exact (by omega : v.toNat % 2 = 0).symm

theorem whCfgEnable_answers (hw : Writable s 0x02 0 r) (changes : v.toNat % 2 ≠ s.fld F.WH_CFG.ENABLE) :
    let ok : Bool := !s.whBusy && (v.toNat % 2 = 0 || (s.whAreasOk && s.sysOk (s.fld F.KVP_CFG.ENABLE = 1) true))
    ∃ t, exec (.whCfgEnable r v) s = .next t ∧
      (ok = true → t.fld F.WH_CFG.ENABLE = v.toNat % 2) ∧
      (ok = false → t.fld F.WH_CFG.ENABLE = s.fld F.WH_CFG.ENABLE ∧ t.fld (F.PG_STATUS.WRITE_REJECT 0x02) = 1 ∧
        FieldsBut s t [fieldKey (F.PG_STATUS.WRITE_REJECT 0x02) 0 0]) ∧ OnlyRegs s t := by
  intro ok
  let u := s.addCnt C.GL_CNT_REG_WRITES 1
  have ran : s.opWrite r 0x02 0 0x100 v.toNat (fun s => s.whCfgWrite v.toNat) =
      if s.whBusy then u.reject 0x02 0
      else if v.toNat % 2 = 1 then
        if s.whAreasOk && s.sysOk (s.fld F.KVP_CFG.ENABLE = 1) true then
          (u.setFld F.WH_CFG.ENABLE 1).resizeSys (s.fld F.KVP_CFG.ENABLE = 1) true
        else u.reject 0x02 0
      else u.setFld F.WH_CFG.ENABLE 0 := by
    have changes' : ¬ v.toNat % 2 = u.fld F.WH_CFG.ENABLE := changes
    rw [hw.opWrite]
    unfold State.whCfgWrite
    dsimp only
    rw [if_neg changes']
    rfl
  obtain ⟨rejected, but, only⟩ := u.reject_rejects 0x02 0
  have refuse : s.opWrite r 0x02 0 0x100 v.toNat (fun s => s.whCfgWrite v.toNat) = u.reject 0x02 0 → ok = false →
      ∃ t, exec (.whCfgEnable r v) s = .next t ∧
      (ok = true → t.fld F.WH_CFG.ENABLE = v.toNat % 2) ∧
      (ok = false → t.fld F.WH_CFG.ENABLE = s.fld F.WH_CFG.ENABLE ∧ t.fld (F.PG_STATUS.WRITE_REJECT 0x02) = 1 ∧
        FieldsBut s t [fieldKey (F.PG_STATUS.WRITE_REJECT 0x02) 0 0]) ∧ OnlyRegs s t := fun ran no =>
    ⟨_, congrArg Host.Outcome.next ran, fun yes => absurd yes (ne_true_of_eq_false no),
      fun _ => ⟨but.fld (by decide), rejected, but⟩, rfl⟩
  by_cases busy : s.whBusy = true
  · rw [if_pos busy] at ran
    exact refuse ran (by simp [ok, busy])
  rw [if_neg busy] at ran
  by_cases on : v.toNat % 2 = 1
  · rw [if_pos on] at ran
    by_cases fits : (s.whAreasOk && s.sysOk (s.fld F.KVP_CFG.ENABLE = 1) true) = true
    · rw [if_pos fits] at ran
      obtain ⟨regs, kept⟩ := (u.setFld F.WH_CFG.ENABLE 1).resizeSys_only (s.fld F.KVP_CFG.ENABLE = 1) true
      have shown : ((u.setFld F.WH_CFG.ENABLE 1).resizeSys (s.fld F.KVP_CFG.ENABLE = 1) true).fld F.WH_CFG.ENABLE = 1 :=
        (kept _ (by decide)).trans (State.fld_setFld _ _ _ _ _)
      have yes : ok = true := by simp only [ok, Bool.not_eq_true] at busy ⊢; rw [busy, fits]; simp
      refine ⟨_, congrArg Host.Outcome.next ran, fun _ => shown.trans on.symm, fun no => absurd yes (ne_true_of_eq_false no),
        Eq.trans regs rfl⟩
    · rw [if_neg fits] at ran
      exact refuse ran (by simp only [ok]; rw [Bool.eq_false_iff.mpr fits]; simp [on])
  · rw [if_neg on] at ran
    have yes : ok = true := by simp only [ok, Bool.not_eq_true] at busy ⊢; rw [busy]; simp; omega
    refine ⟨_, congrArg Host.Outcome.next ran, fun _ => ?_, fun no => absurd yes (ne_true_of_eq_false no), rfl⟩
    rw [State.fld_setFld]
    exact (by omega : v.toNat % 2 = 0).symm
end

/-! ## CIS_CFG (R366) -/

section
variable {s : State} {r : Requester} {m : Fin 16} {v : W32}

@[simp] theorem State.module_addCnt (s : State) (c : Cnt) (n i b m : Nat) : (s.addCnt c n i b).module m = s.module m := rfl
@[simp] theorem State.module_addSlot (s : State) (cls i n k m : Nat) : (s.addSlot cls i n k).module m = s.module m := rfl

/-- A request to a module: it is outstanding there, and no other module changes. -/
theorem State.module_cisReq (s : State) (m : Nat) (w : CisFor) (o : Nat → Out) (k : Nat) :
    (s.cisReq m w o).module k = if k = m then { s.module m with
      reqs := (s.module m).reqs ++ [⟨(s.module m).nextTag, w⟩], nextTag := ((s.module m).nextTag + 1) % 4096 } else s.module k := by
  unfold State.cisReq
  rw [State.module_emit]
  split
  · next same => rw [same, State.module_setModule]
  · next apart => rw [State.module_setModule_ne _ _ _ _ apart]

/-- It shows nothing in the register window. -/
@[simp] theorem State.cisReq_fields (s : State) (m : Nat) (w : CisFor) (o : Nat → Out) : (s.cisReq m w o).rg.fields = s.rg.fields := by
  unfold State.cisReq
  rw [State.emit_fields]
  rfl

theorem State.cisAttach_fields (s : State) (m : Nat) : (s.cisAttach m).rg.fields = s.rg.fields := by
  unfold State.cisAttach
  dsimp only
  split
  · simp only [State.cisRead, State.cisReq_fields]
    rfl
  · rfl

theorem State.module_cisAttach_ne (s : State) {m k : Nat} (apart : k ≠ m) : (s.cisAttach m).module k = s.module k := by
  unfold State.cisAttach
  dsimp only
  split
  · simp only [State.cisRead, State.module_cisReq, if_neg apart]
    exact State.module_setModule_ne _ _ _ _ apart
  · rfl

theorem State.module_cisAttach {s : State} {m : Nat} (enabled : s.fld F.CIS_CFG.ENABLE m = 1) (st : (s.module m).st = 0)
    (clear : (s.module m).clearing = false) (lit : s.portLit (m + 8) = true) :
    ((s.cisAttach m).module m).st = 1 ∧ ((s.cisAttach m).module m).reqs.length = (s.module m).reqs.length + 2 := by
  have attached : s.cisAttach m = _ := if_pos ⟨enabled, .inl st, by simp [clear], lit⟩
  rw [attached]
  simp [State.cisRead, State.module_cisReq]

theorem State.cisDrained_fields (s : State) (m : Nat) : (s.cisDrained m).rg.fields = s.rg.fields := by
  unfold State.cisDrained
  dsimp only
  split
  · rw [State.cisAttach_fields]
    rfl
  · rfl

theorem State.module_cisDrained_ne (s : State) {m k : Nat} (apart : k ≠ m) : (s.cisDrained m).module k = s.module k := by
  unfold State.cisDrained
  dsimp only
  split
  · rw [State.module_cisAttach_ne _ apart, State.module_setModule_ne _ _ _ _ apart]
  · rfl

theorem cisCfgEnable_answers (hw : Writable s 0x22 m r) (changes : v.toNat % 2 ≠ s.fld F.CIS_CFG.ENABLE m) :
    ∃ t, exec (.cisCfgEnable r m v) s = .next t ∧
      (s.cisBusy m = true → t.fld F.CIS_CFG.ENABLE m = s.fld F.CIS_CFG.ENABLE m ∧
        t.fld (F.PG_STATUS.WRITE_REJECT 0x22) m = 1 ∧ OnlyRegs s t) ∧
      (s.cisBusy m = false → t.fld F.CIS_CFG.ENABLE m = v.toNat % 2 ∧
        (v.toNat % 2 = 1 → (s.module m).st = 0 → (s.module m).clearing = false → s.portLit (m + 8) = true →
          (t.module m).st = 1 ∧ (t.module m).reqs.length = (s.module m).reqs.length + 2) ∧
        (v.toNat % 2 = 0 → (s.module m).reqs = [] → (t.module m).st = 0) ∧
        (v.toNat % 2 = 0 → (s.module m).reqs ≠ [] → (t.module m).clearing = true ∧ (t.module m).reqs = (s.module m).reqs)) ∧
      ∀ k, k ≠ m.val → t.module k = s.module k := by
  let u := s.addCnt C.GL_CNT_REG_WRITES 1
  let w := u.setFld F.CIS_CFG.ENABLE v.toNat m
  let x := w.setModule m { s.module m with clearing := true }
  have ran : s.opWrite r 0x22 m 0x100 v.toNat (fun s => s.cisCfgWrite m v.toNat) =
      if s.cisBusy m then u.reject 0x22 m
      else if v.toNat % 2 = 1 then w.cisAttach m else x.cisDrained m := by
    rw [hw.opWrite]
    exact if_neg changes
  have shown : w.fld F.CIS_CFG.ENABLE m = v.toNat % 2 := State.fld_setFld _ _ _ _ _
  by_cases busy : s.cisBusy m = true
  · rw [if_pos busy] at ran
    obtain ⟨rejected, but, -⟩ := u.reject_rejects 0x22 m
    have kept : (u.reject 0x22 m).fld F.CIS_CFG.ENABLE m = s.fld F.CIS_CFG.ENABLE m := State.fld_setFld_other u (by decide)
    exact ⟨_, congrArg Host.Outcome.next ran, fun _ => ⟨kept, rejected, rfl⟩, fun h => absurd busy (by simp [h]), fun _ _ => rfl⟩
  rw [if_neg busy] at ran
  by_cases on : v.toNat % 2 = 1
  · rw [if_pos on] at ran
    refine ⟨_, congrArg Host.Outcome.next ran, fun h => absurd h busy, fun _ => ⟨?_, fun _ st clear lit => ?_, fun off => by omega, fun off => by omega⟩,
      fun k apart => State.module_cisAttach_ne w apart⟩
    · rw [← shown]
      simp only [State.fld, State.cisAttach_fields]
    · exact State.module_cisAttach (shown.trans on) st clear lit
  · rw [if_neg on] at ran
    have here : x.module m = { s.module m with clearing := true } := State.module_setModule _ _ _
    refine ⟨_, congrArg Host.Outcome.next ran, fun h => absurd h busy, fun _ => ⟨?_, fun h => absurd h on, fun off none => ?_, fun off some => ?_⟩,
      fun k apart => ?_⟩
    · rw [← shown]
      simp only [State.fld, State.cisDrained_fields]
      rfl
    · have drained : x.cisDrained m = (x.setModule m { nextTag := (x.module m).nextTag }).cisAttach m := by
        unfold State.cisDrained
        dsimp only
        rw [if_pos (by rw [here]; exact ⟨rfl, none⟩)]
      have detached : (x.setModule m { nextTag := (x.module m).nextTag }).cisAttach m = x.setModule m { nextTag := (x.module m).nextTag } := by
        refine if_neg fun h => ?_
        have enabled : v.toNat % 2 = 1 := shown.symm.trans h.1
        omega
      rw [drained, detached, State.module_setModule]
    · have stays : x.cisDrained m = x := by
        unfold State.cisDrained
        dsimp only
        rw [if_neg (by rw [here]; exact fun h => some h.2)]
      rw [stays, here]
      exact ⟨rfl, rfl⟩
    · rw [State.module_cisDrained_ne _ apart]
      exact State.module_setModule_ne _ _ _ _ apart
end

/-! ## FORMAT, RELEASE and TRIM (R372, R373, R378) -/

/-- How an operation of a module ends or begins: refused with its code, or under way with one request more. -/
def CisAnswered (s t : State) (m : Fin 16) (code : Nat) : Prop :=
  (code ≠ 0 → t.fld F.CIS_OP_STATUS.RESULT m = code ∧ t.fld F.CIS_OP_STATUS.BUSY m = 0 ∧
    t.fld F.CIS_INT_STATUS.OP_DONE m = 1 ∧ t.ci = s.ci) ∧
  (code = 0 → t.fld F.CIS_OP_STATUS.BUSY m = 1 ∧ (t.module m).reqs.length = (s.module m).reqs.length + 1 ∧
    (t.module m).st = (s.module m).st ∧ (t.module m).cat = (s.module m).cat) ∧
  (∀ k, k ≠ m.val → t.module k = s.module k) ∧ t.mm = s.mm ∧ SameWork s t

section
variable {s : State} {r : Requester} {m : Fin 16}

/-- An operation written to a module with nothing under way. -/
theorem State.cisRow_runs (hw : Writable s 0x22 m r) (idle : s.fld F.CIS_OP_STATUS.BUSY m ≠ 1) {code : Nat}
    (held : s.fld F.CIS_OP.OP m = code) (op : State → State) :
    s.cisRow r m code op = op (s.addCnt C.GL_CNT_REG_WRITES 1) := by
  have idle' : ¬ (s.addCnt C.GL_CNT_REG_WRITES 1).fld F.CIS_OP_STATUS.BUSY m = 1 := idle
  rw [State.cisRow, if_pos held, hw.opWrite, State.cisGo, if_neg idle']

theorem cisOpDone_answers {code v : Nat} (is : code = v) (some : v ≠ 0) (small : v < 16) :
    CisAnswered s ((s.addCnt C.GL_CNT_REG_WRITES 1).cisOpDone m v) m code := by
  subst is
  obtain ⟨busy, result, done⟩ := cisOpDone_fields (m := m) (s.addCnt C.GL_CNT_REG_WRITES 1) code
  refine ⟨fun _ => ⟨result.trans (Nat.mod_eq_of_lt small), busy, done, ?_⟩, fun none => absurd none some, fun k _ => ?_, ?_,
    ?_, ?_, ?_, ?_, ?_⟩
  · exact State.setInt_ci _ _ _
  · rw [State.cisOpDone, State.module_setInt]
    rfl
  · exact State.setInt_mm _ _ _
  · exact State.setInt_cq _ _ _
  · exact State.setInt_wh _ _ _
  · exact State.setInt_kv _ _ _
  · exact State.setInt_tl _ _ _
  · exact State.setInt_sc _ _ _

theorem State.cisReq_work (s : State) (m : Nat) (w : CisFor) (o : Nat → Out) :
    (s.cisReq m w o).mm = s.mm ∧ SameWork s (s.cisReq m w o) := by
  unfold State.cisReq
  exact ⟨State.emit_mm _ _, State.emit_cq _ _, State.emit_wh _ _, State.emit_kv _ _, State.emit_tl _ _, State.emit_sc _ _⟩

/-- The operation shown under way. -/
def State.cisBegun (s : State) (m : Nat) : State := (s.addCnt C.GL_CNT_REG_WRITES 1).setFld F.CIS_OP_STATUS.BUSY 1 m

theorem cisTrim_answers {code : Nat} (is : code = 0) (block n : Nat) (w : CisFor) :
    CisAnswered s ((s.cisBegun m).cisTrim m block n w) m code := by
  subst is
  obtain ⟨mm, work⟩ := (s.cisBegun m).cisReq_work m w (fun t => .cTrim m t block n)
  have modules := (s.cisBegun m).module_cisReq m w (fun t => .cTrim m t block n)
  refine ⟨fun some => absurd rfl some, fun _ => ⟨?_, ?_, ?_, ?_⟩, fun k apart => ?_, mm, work⟩
  · have shown : (s.cisBegun m).fld F.CIS_OP_STATUS.BUSY m = 1 := State.fld_setFld _ _ _ _ _
    rw [← shown]
    simp only [State.fld, State.cisTrim, State.cisReq_fields]
  · rw [State.cisTrim, modules, if_pos rfl]
    exact List.length_append
  · rw [State.cisTrim, modules, if_pos rfl]
    rfl
  · rw [State.cisTrim, modules, if_pos rfl]
    rfl
  · rw [State.cisTrim, modules, if_neg apart]
    rfl

theorem State.cisWrite_label (s : State) (m : Nat) (b : List Byte) :
    (s.cisWrite m 0 b .formatLabel).rg.fields = s.rg.fields ∧
    (s.cisWrite m 0 b .formatLabel).mm = s.mm ∧ SameWork s (s.cisWrite m 0 b .formatLabel) ∧
    (∀ k, k ≠ m → (s.cisWrite m 0 b .formatLabel).module k = s.module k) ∧
    ((s.cisWrite m 0 b .formatLabel).module m).reqs.length = (s.module m).reqs.length + 1 ∧
    ((s.cisWrite m 0 b .formatLabel).module m).st = (s.module m).st ∧
    ((s.cisWrite m 0 b .formatLabel).module m).cat = (s.module m).cat := by
  unfold State.cisWrite
  generalize (s.module m).epoch = e
  obtain ⟨mm, work⟩ := s.cisReq_work m .formatLabel (fun t => .cWrite m t 0 (cipherOut e 0 b))
  have modules := s.module_cisReq m .formatLabel (fun t => .cWrite m t 0 (cipherOut e 0 b))
  have fields := s.cisReq_fields m .formatLabel (fun t => .cWrite m t 0 (cipherOut e 0 b))
  dsimp only
  generalize s.cisReq m .formatLabel (fun t => .cWrite m t 0 (cipherOut e 0 b)) = w at mm work modules fields ⊢
  have own : w.module m = _ := (modules m).trans (if_pos rfl)
  refine ⟨fields, mm, work, fun k apart => ?_, ?_, ?_, ?_⟩
  · rw [State.module_addSlot, State.module_addCnt, modules, if_neg apart]
  · rw [State.module_addSlot, State.module_addCnt, own]
    exact List.length_append
  · rw [State.module_addSlot, State.module_addCnt, own]
  · rw [State.module_addSlot, State.module_addCnt, own]

theorem formatFrom_answers {code : Nat} (is : code = 0) : CisAnswered s ((s.cisBegun m).formatFrom m 0) m code := by
  unfold State.formatFrom
  dsimp only
  split
  · exact cisTrim_answers is _ _ _
  · subst is
    generalize (s.cisBegun m).newLabel _ _ = b
    have here := State.module_setModule (s.cisBegun m) m { (s.cisBegun m).module m with label := b }
    have apart := fun k => State.module_setModule_ne (s.cisBegun m) m k { (s.cisBegun m).module m with label := b }
    have busy : ((s.cisBegun m).setModule m { (s.cisBegun m).module m with label := b }).fld F.CIS_OP_STATUS.BUSY m = 1 :=
      State.fld_setFld _ _ _ _ _
    have mm' : ((s.cisBegun m).setModule m { (s.cisBegun m).module m with label := b }).mm = s.mm := rfl
    have work' : SameWork s ((s.cisBegun m).setModule m { (s.cisBegun m).module m with label := b }) := ⟨rfl, rfl, rfl, rfl, rfl⟩
    generalize (s.cisBegun m).setModule m { (s.cisBegun m).module m with label := b } = u at here apart busy mm' work' ⊢
    obtain ⟨fields, mm, work, others, reqs, st, cat⟩ := u.cisWrite_label m b
    rw [here] at reqs st cat
    refine ⟨fun some => absurd rfl some, fun _ => ⟨?_, reqs, st, cat⟩, fun k away => (others k away).trans (apart k away),
      mm.trans mm', ?_⟩
    · rw [← busy]
      simp only [State.fld, fields]
    · obtain ⟨cq, wh, kv, tl, sc⟩ := work
      obtain ⟨cq', wh', kv', tl', sc'⟩ := work'
      exact ⟨cq.trans cq', wh.trans wh', kv.trans kv', tl.trans tl', sc.trans sc'⟩

theorem format_answers (hw : Writable s 0x22 m r) (idle : s.fld F.CIS_OP_STATUS.BUSY m ≠ 1) (held : s.fld F.CIS_OP.OP m = 1) :
    ∃ t, exec (.format r m) s = .next t ∧ CisAnswered s t m
      (if (s.module m).st ≠ 2 ∧ (s.module m).st ≠ 3 ∧ (s.module m).st ≠ 4 then 2 else if s.cisNamed m || s.coverOn m then 4 else 0) := by
  let u := s.addCnt C.GL_CNT_REG_WRITES 1
  have ran : s.cisRow r m 1 (fun s => s.cisFormat m) =
      if !((s.module m).st = 2 || (s.module m).st = 3 || (s.module m).st = 4) then u.cisOpDone m 2
      else if s.cisNamed m || s.coverOn m then u.cisOpDone m 4 else (s.cisBegun m).formatFrom m 0 :=
    State.cisRow_runs hw idle held _
  refine ⟨_, congrArg Host.Outcome.next ran, ?_⟩
  by_cases state : (s.module m).st ≠ 2 ∧ (s.module m).st ≠ 3 ∧ (s.module m).st ≠ 4
  · rw [if_pos state, if_pos (by simpa [not_or, and_assoc] using state)]
    exact cisOpDone_answers rfl (by decide) (by decide)
  · rw [if_neg state, if_neg (by simpa [not_or, and_assoc] using state)]
    split
    · exact cisOpDone_answers rfl (by decide) (by decide)
    · exact formatFrom_answers rfl

theorem release_answers (hw : Writable s 0x22 m r) (idle : s.fld F.CIS_OP_STATUS.BUSY m ≠ 1) (held : s.fld F.CIS_OP.OP m = 2) :
    ∃ t, exec (.release r m) s = .next t ∧ CisAnswered s t m
      (if (s.module m).st ≠ 4 then 2 else if (s.module m).cat.all (fun c => c.seq ≠ s.relSeq m) then 3
        else if s.blocksNamed m (catBlock (s.relSeq m)) 1 || s.coverOf m (s.relSeq m) then 4 else 0) := by
  let u := s.addCnt C.GL_CNT_REG_WRITES 1
  have ran : s.cisRow r m 2 (fun s => s.cisRelease m) =
      if (s.module m).st ≠ 4 then u.cisOpDone m 2
      else if !(s.module m).cat.any (fun c => c.seq = s.relSeq m) then u.cisOpDone m 3
      else if s.blocksNamed m (catBlock (s.relSeq m)) 1 || s.coverOf m (s.relSeq m) then u.cisOpDone m 4
      else (s.cisBegun m).cisTrim m (catBlock (s.relSeq m)) 1 (.releaseTrim (s.relSeq m)) := State.cisRow_runs hw idle held _
  have absent : (!(s.module m).cat.any (fun c => c.seq = s.relSeq m)) = (s.module m).cat.all (fun c => c.seq ≠ s.relSeq m) := by
    rw [List.not_any_eq_all_not]
    simp
  rw [absent] at ran
  refine ⟨_, congrArg Host.Outcome.next ran, ?_⟩
  split
  · exact cisOpDone_answers rfl (by decide) (by decide)
  · split
    · exact cisOpDone_answers rfl (by decide) (by decide)
    · split
      · exact cisOpDone_answers rfl (by decide) (by decide)
      · exact cisTrim_answers rfl _ _ _

theorem trim_answers (hw : Writable s 0x22 m r) (idle : s.fld F.CIS_OP_STATUS.BUSY m ≠ 1) (held : s.fld F.CIS_OP.OP m = 3) :
    let b := s.fld F.CIS_ARG0.VALUE m + s.fld F.CIS_ARG1.VALUE m % 8 * 2 ^ 32
    let n := s.fld F.CIS_ARG2.BLOCKS m
    ∃ t, exec (.trim r m) s = .next t ∧ CisAnswered s t m
      (if (s.module m).st ≠ 4 then 2 else if n = 0 ∨ b < 2 ^ 20 ∨ s.cnt C.CIS_CAPACITY m < b + n then 3
        else if s.blocksNamed m b n then 4 else 0) := by
  intro b n
  let u := s.addCnt C.GL_CNT_REG_WRITES 1
  have capacity : u.cnt C.CIS_CAPACITY m = s.cnt C.CIS_CAPACITY m :=
    State.cnt_addCnt_ne _ _ _ _ _ _ _ _ (cntKey_ne (by decide) _ _ _ _)
  have ran : s.cisRow r m 3 (fun s => s.cisTrimOp m) =
      if (s.module m).st ≠ 4 then u.cisOpDone m 2
      else if n = 0 ∨ b < 2 ^ 20 ∨ s.cnt C.CIS_CAPACITY m < b + n then u.cisOpDone m 3
      else if s.blocksNamed m b n then u.cisOpDone m 4
      else (s.cisBegun m).cisTrim m b n .trim := by
    rw [State.cisRow_runs hw idle held, ← capacity]
    rfl
  refine ⟨_, congrArg Host.Outcome.next ran, ?_⟩
  split
  · exact cisOpDone_answers rfl (by decide) (by decide)
  · split
    · exact cisOpDone_answers rfl (by decide) (by decide)
    · split
      · exact cisOpDone_answers rfl (by decide) (by decide)
      · exact cisTrim_answers rfl _ _ _
end

/-- Settles O55: the enables by their conditions, the cisterns' operations by their tests in order. -/
theorem enablesAndCisterns : Obligations.EnablesAndCisterns :=
  ⟨fun _ _ _ => ⟨kvpCfgEnable_answers, whCfgEnable_answers, fun _ => cisCfgEnable_answers⟩,
   fun _ _ _ hw idle => ⟨format_answers hw idle, release_answers hw idle, trim_answers hw idle⟩⟩

end Sys2Proof.Machine
end

section
/-! SUPPORT. Injected errors, first errors cleared, faults of parts (O30), and cores and clusters lost (O36). -/

namespace Sys2Proof.Machine

/-! ## Clusters taken out of placement (R271) -/

namespace WorkKept
variable {s t : State}

theorem emptyCluster (h : WorkKept s t) {cl : Nat} : WorkKept s (t.emptyCluster cl) := by
  unfold State.emptyCluster
  extract_lets own u1 ls u2 x u3 u4 u5 _ u6 u7
  have hu1 : WorkKept s u1 := by
    unfold u1 own
    split
    · exact h.rerun
    · exact h
  have hu2 : WorkKept s u2 := hu1.foldl fun _ _ hu => either (dropReads (freeCore hu)) hu
  clear_value u2
  have hu3 : WorkKept s u3 := hu2.setCluster ⟨rfl, rfl, rfl, Nat.zero_le _⟩
  clear_value u3
  have hu4 : WorkKept s u4 := hu3.foldl fun _ _ hu => hu.foldl fun _ _ hu => hu.reclaim
  have hu5 : WorkKept s u5 := hu4.dropSaved
  clear_value u5
  have hu6 : WorkKept s u6 := hu5.same
  have hu7 : WorkKept s u7 := either hu6 hu6.idleNow
  exact hu7.foldl fun _ _ hu => hu.layersEnd

/-- Dealt again, a core that keeps nothing is free from the start on. -/
theorem redeal_freed {core : Nat} (h : WorkKept s (t.freeCore core)) {p : Place} (placed : (t.core core).place = some p) :
    WorkKept s (t.redeal core false) := by
  unfold State.redeal
  simp only [placed, Bool.false_eq_true, if_false]
  generalize t.freeCore core = u at h ⊢
  split
  · exact h
  · split
    · exact either h.giveBack h
    · refine either (either h.giveBack h) (either h.giveBack ?_)
      split
      · exact h.rerun
      · next v e => exact (h.addFence e).putSeqLayer.raiseGauges.goOnHere
end WorkKept

/-- Clusters leave placement from `s` to `t`; whatever else is kept is as work leaves it. -/
structure TakenOut (s t : State) : Prop where
  time : t.tm = s.tm
  boot : t.bt = s.bt
  errors : ∀ e ∈ s.er.collector, e ∈ t.er.collector
  removed : ∀ k, (s.cluster k).removed = true → (t.cluster k).removed = true
  lastUe : ∀ k, (t.cluster k).lastUe = (s.cluster k).lastUe
  fields : ∀ k, workKey k = false → fieldSlot k ≠ fieldSlot (fieldKey F.CLS_STATUS.IN_PLACEMENT 0 0) →
    fieldSlot k ≠ fieldSlot (fieldKey F.CD_STATUS.PLACED 0 0) → ∀ d, look d t.rg.fields k = look d s.rg.fields k
  resets : t.rs = s.rs
  held : t.st.held = s.st.held

theorem TakenOut.refl (s : State) : TakenOut s s :=
  ⟨rfl, rfl, fun _ h => h, fun _ h => h, fun _ => rfl, fun _ _ _ _ _ => rfl, rfl, rfl⟩

theorem TakenOut.trans {s t u : State} (h : TakenOut s t) (h' : TakenOut t u) : TakenOut s u :=
  ⟨h'.time.trans h.time, h'.boot.trans h.boot, fun e he => h'.errors e (h.errors e he),
   fun k hk => h'.removed k (h.removed k hk), fun k => (h'.lastUe k).trans (h.lastUe k),
   fun k a b c d => (h'.fields k a b c d).trans (h.fields k a b c d), h'.resets.trans h.resets, h'.held.trans h.held⟩

theorem WorkKept.takenOut {s t : State} (h : WorkKept s t) : TakenOut s t :=
  ⟨h.time, h.boot, h.errors, fun k hk => (h.clusters k).removed.trans hk, fun k => (h.clusters k).lastUe,
   fun k work _ _ d => h.fields k work d, h.resets, h.held⟩

theorem State.setCluster_takenOut (s : State) (cl : Nat) :
    TakenOut s (s.setCluster cl { s.cluster cl with removed := true }) := by
  refine ⟨rfl, rfl, fun _ h => h, fun k hk => ?_, fun k => ?_, fun _ _ _ _ _ => rfl, rfl, rfl⟩
  · by_cases e : k = cl
    · subst e
      rw [State.cluster_setCluster]
    · rwa [State.cluster_setCluster_ne _ _ _ _ e]
  · by_cases e : k = cl
    · subst e
      rw [State.cluster_setCluster]
    · rw [State.cluster_setCluster_ne _ _ _ _ e]

theorem State.setFld_takenOut (s : State) (f : Field) (v i b : Nat)
    (h : fieldSlot (fieldKey f 0 0) = fieldSlot (fieldKey F.CLS_STATUS.IN_PLACEMENT 0 0) ∨
      fieldSlot (fieldKey f 0 0) = fieldSlot (fieldKey F.CD_STATUS.PLACED 0 0)) : TakenOut s (s.setFld f v i b) := by
  refine ⟨rfl, rfl, fun _ h => h, fun _ h => h, fun _ => rfl, fun k _ out placed d => look_put_other _ _ fun e => ?_, rfl, rfl⟩
  rw [e, fieldSlot_fieldKey] at out placed
  exact h.elim out placed

section
variable {s : State} {cl : Nat}

theorem State.takeOut_takenOut (within : (s.cluster cl).removed = false) :
    TakenOut s (s.takeOut cl) ∧ ((s.takeOut cl).cluster cl).removed = true ∧
      (s.takeOut cl).fld F.CLS_STATUS.IN_PLACEMENT cl = 0 := by
  have work : WorkKept s (s.emptyCluster cl) := (WorkKept.refl s).emptyCluster
  unfold State.takeOut
  simp only [within, Bool.false_eq_true, if_false]
  generalize s.emptyCluster cl = u at work ⊢
  have gone := u.setCluster_takenOut cl
  have here : (u.setCluster cl { u.cluster cl with removed := true }).cluster cl = { u.cluster cl with removed := true } :=
    State.cluster_setCluster _ _ _
  generalize u.setCluster cl { u.cluster cl with removed := true } = v at gone here ⊢
  have shown : (v.setFld F.CLS_STATUS.IN_PLACEMENT 0 cl).fld F.CLS_STATUS.IN_PLACEMENT cl = 0 := State.fld_setFld _ _ _ _ _
  have hidden := v.setFld_takenOut F.CLS_STATUS.IN_PLACEMENT 0 cl 0 (Or.inl rfl)
  have here' : (v.setFld F.CLS_STATUS.IN_PLACEMENT 0 cl).cluster cl = { u.cluster cl with removed := true } := here
  generalize v.setFld F.CLS_STATUS.IN_PLACEMENT 0 cl = w at shown hidden here' ⊢
  refine ⟨work.takenOut.trans (gone.trans (hidden.trans (w.setFld_takenOut _ _ _ _ (Or.inr rfl)))), ?_, ?_⟩
  · exact congrArg Cluster.removed here'
  · rw [State.fld_setFld_slot _ (by decide)]
    exact shown

theorem State.removeCluster_takenOut (s : State) (cl : Nat) :
    TakenOut s (s.removeCluster cl) ∧ ((s.removeCluster cl).cluster cl).removed = true := by
  unfold State.removeCluster
  split
  · next out => exact ⟨.refl s, out⟩
  · next within =>
    obtain ⟨taken, removed, _⟩ := State.takeOut_takenOut (Bool.eq_false_iff.mpr within)
    exact ⟨taken.trans (((WorkKept.refl _).raise).takenOut), removed⟩

end

/-! ## Injection, clears and faults of parts (R271, R478, R503, R507, R525, R533) -/

section
variable {s : State} {r : Requester}

theorem errInject_reaches (hw : Writable s 0x40 0 r) {v : W32} (sev : v.toNat / 65536 % 4 ≠ 3) (alive : s.lcState ≠ 4) :
    ∃ t, exec (.errInject r v) s = .next t ∧
      (∃ e ∈ t.er.collector, e.code = v.toNat % 65536 ∧ e.sev = v.toNat / 65536 % 4 ∧ e.injected = true ∧ e.time = s.tm.now) ∧
      t.rg.fields = s.rg.fields ∧ t = { s with rg := t.rg, er.collector := t.er.collector } := by
  have ran : (s.addCnt C.GL_CNT_REG_WRITES 1).errInjectOp v.toNat =
      { s.addCnt C.GL_CNT_REG_WRITES 1 with er.collector := s.er.collector ++
        [{ time := s.tm.now, code := v.toNat % 65536, sev := v.toNat / 65536 % 4, afterCut := s.halted, injected := true }] } :=
    if_neg (not_or.mpr ⟨alive, sev⟩)
  exact ⟨_, congrArg Host.Outcome.next ((hw.opWrite _ _ _).trans ran),
    ⟨_, List.mem_append_right _ (List.mem_singleton_self _), rfl, rfl, rfl, rfl⟩, rfl, rfl⟩

theorem errInject_ignored (hw : Writable s 0x40 0 r) {v : W32} (no : v.toNat / 65536 % 4 = 3 ∨ s.lcState = 4) :
    ∃ t, exec (.errInject r v) s = .next t ∧ t.rg.fields = s.rg.fields ∧ OnlyRegs s t := by
  have ran : (s.addCnt C.GL_CNT_REG_WRITES 1).errInjectOp v.toNat = s.addCnt C.GL_CNT_REG_WRITES 1 := if_pos no.symm
  exact ⟨_, congrArg Host.Outcome.next ((hw.opWrite _ _ _).trans ran), rfl, rfl⟩

theorem errFirstClear_clears (hw : Writable s 0x40 0 r) :
    ∃ t, exec (.errFirstClear r) s = .next t ∧ t.er.first = none ∧ t.fld F.ERR_STATUS.FIRST_VALID = 0 ∧
      FieldsBut s t [fieldKey F.ERR_STATUS.FIRST_VALID 0 0] ∧ t = { s with rg := t.rg, er.first := none } := by
  refine ⟨_, congrArg Host.Outcome.next (hw.opWrite _ _ _), rfl, ?_, ?_, rfl⟩
  · exact State.fld_setFld _ _ _ _ _
  · exact FieldsBut.setFld (FieldsBut.refl s _) (List.mem_singleton_self _)

theorem pgErrFirstClear_clears {cls inst : Nat} (pg : pageExists cls inst = true) (hw : Writable s cls inst r) :
    ∃ t, exec (.pgErrFirstClear r cls inst) s = .next t ∧ t.fld (F.PG_ERR_FIRST.VALID cls) inst = 0 ∧
      t.fld (F.PG_ERR_FIRST.CODE cls) inst = 0 ∧ t.fld (F.PG_ERR_FIRST.SEV cls) inst = 0 ∧
      t.fld (F.PG_ERR_FIRST.SLOT cls) inst = 0 ∧
      FieldsBut s t [fieldKey (F.PG_ERR_FIRST.VALID cls) inst 0, fieldKey (F.PG_ERR_FIRST.CODE cls) inst 0,
        fieldKey (F.PG_ERR_FIRST.SEV cls) inst 0, fieldKey (F.PG_ERR_FIRST.SLOT cls) inst 0] ∧ OnlyRegs s t := by
  have ran : exec (.pgErrFirstClear r cls inst) s = .next ((s.addCnt C.GL_CNT_REG_WRITES 1).pgErrFirstClearOp cls inst) :=
    congrArg Host.Outcome.next ((if_pos pg).trans (hw.opWrite _ _ _))
  have zero : ∀ (u : State) (f : Field), (u.setFld f 0 inst).fld f inst = 0 := fun u f => by
    rw [State.fld_setFld, Nat.zero_mod]
  refine ⟨_, ran, zero _ _, ?_, ?_, ?_, ?_, rfl⟩ <;> unfold State.pgErrFirstClearOp
  · rw [State.fld_setFld_other _ (by simp [fieldKey, F.PG_ERR_FIRST.CODE, F.PG_ERR_FIRST.VALID]),
      State.fld_setFld_other _ (by simp [fieldKey, F.PG_ERR_FIRST.CODE, F.PG_ERR_FIRST.SLOT]),
      State.fld_setFld_other _ (by simp [fieldKey, F.PG_ERR_FIRST.CODE, F.PG_ERR_FIRST.SEV])]
    exact zero _ _
  · rw [State.fld_setFld_other _ (by simp [fieldKey, F.PG_ERR_FIRST.SEV, F.PG_ERR_FIRST.VALID]),
      State.fld_setFld_other _ (by simp [fieldKey, F.PG_ERR_FIRST.SEV, F.PG_ERR_FIRST.SLOT])]
    exact zero _ _
  · rw [State.fld_setFld_other _ (by simp [fieldKey, F.PG_ERR_FIRST.SLOT, F.PG_ERR_FIRST.VALID])]
    exact zero _ _
  · exact ((((FieldsBut.refl s _).addCnt.setFld (by simp)).setFld (by simp)).setFld (by simp)).setFld (by simp)

theorem ctrlBlock_reports {block : Byte} (powered : s.powered = true) : ∃ t, exec (.ctrlBlock block) s = .next t ∧
    (∃ e ∈ t.er.collector, e.code = 0x0001 ∧ e.sev = 3 ∧ e.part = block.toNat ∧ e.time = s.tm.now) ∧
    t = { s with er.collector := t.er.collector } :=
  ⟨_, congrArg Host.Outcome.next (if_pos powered),
    ⟨_, List.mem_append_right _ (List.mem_singleton_self _), rfl, rfl, rfl, rfl⟩, rfl⟩

theorem portDieLost_reports {p : Fin 4} (powered : s.powered = true) (there : s.mm.diesLost.contains p.val = false) :
    ∃ t, exec (.portDieLost p) s = .next t ∧
      p.val ∈ t.mm.diesLost ∧ (∃ e ∈ t.er.collector, e.code = 0x0002 ∧ e.sev = 3 ∧ e.part = p.val) ∧
      t = { s with er.collector := t.er.collector, mm.diesLost := t.mm.diesLost } := by
  have ran : s.portDieLost p = ({ s with mm.diesLost := s.mm.diesLost ++ [p.val] } : State).partLost 0x0002 p :=
    if_neg (by simp only [powered, there, Bool.not_true, Bool.false_eq_true, or_self, not_false_eq_true])
  exact ⟨_, congrArg Host.Outcome.next ran, List.mem_append_right _ (List.mem_singleton_self _),
    ⟨_, List.mem_append_right _ (List.mem_singleton_self _), rfl, rfl, rfl⟩, rfl⟩

theorem clusterFault_removes {cl : Fin 256} (active : s.tm.power = .active) (within : (s.cluster cl).removed = false) :
    ∃ t, exec (.clusterFault cl) s = .next t ∧
      (t.cluster cl).removed = true ∧ t.fld F.CLS_STATUS.IN_PLACEMENT cl = 0 ∧ Raised s t 0x1121 2 cl ∧
      (∀ k, k / 40 = cl.val → t.coreRuns k = false) ∧ t.bt = s.bt ∧ t.tm = s.tm := by
  obtain ⟨taken, removed, shown⟩ := State.takeOut_takenOut within
  have ran : s.clusterFault cl = (s.takeOut cl).raise 0x1121 2 cl :=
    (if_pos active).trans (if_neg (by rw [within]; exact Bool.false_ne_true))
  obtain ⟨e, he, code, sev, inst, time⟩ := State.raise_raised (s.takeOut cl) 0x1121 2 cl 0 0xFFFF 0xFFFF 0 0
  refine ⟨_, congrArg Host.Outcome.next ran, removed, shown,
    ⟨e, he, code, sev, inst, time.trans (congrArg Tm.now taken.time)⟩, fun k hk => ?_, taken.boot, taken.time⟩
  have out : (((s.takeOut cl).raise 0x1121 2 cl).cluster cl).removed = true := removed
  simp [State.coreRuns, hk, out]
end

/-- Settles O30: each report by its one list of errors, a cluster's fault by what taking it out leaves. -/
theorem errorRegistersAndPartFaults : Obligations.ErrorRegistersAndPartFaults :=
  ⟨fun _ _ => ⟨fun hw => ⟨fun _ => errInject_reaches hw, fun _ => errInject_ignored hw, errFirstClear_clears hw⟩,
     fun _ _ => pgErrFirstClear_clears⟩,
   fun _ => ⟨fun _ => ctrlBlock_reports, fun _ => portDieLost_reports, fun _ => clusterFault_removes⟩⟩

end Sys2Proof.Machine
end

section
/-! SUPPORT. Faults and tests of cores, the loss of a compute die, a poisoned cluster store (R125 to R127, R270, R271, R285):
a core's registers are told apart by their place in the core's row of its cluster's page. -/

namespace Sys2Proof.Machine

/-! ## A core's registers -/

theorem fieldKey_core (f : Field) (k i : Nat) : fieldKey (f.core k) i 0 = fieldKey f i 0 + 4096 * k := by
  unfold fieldKey Field.core
  dsimp only
  omega

@[simp] theorem State.coreFld_setCoreFld (s : State) (f : Field) (c v : Nat) :
    (s.setCoreFld f c v).coreFld f c = v % 2 ^ f.width := State.fld_setFld _ _ _ _ _

theorem State.coreFld_setCoreFld_other (s : State) {f g : Field} (c v : Nat) (h : fieldKey g 0 0 ≠ fieldKey f 0 0) :
    (s.setCoreFld f c v).coreFld g c = s.coreFld g c := by
  refine State.fld_setFld_ne _ _ _ _ _ _ _ _ ?_
  rw [fieldKey_core, fieldKey_core, fieldKey_inst g, fieldKey_inst f]
  omega

/-- The registers of a core that tell its faults and tests are none in which work shows itself. -/
theorem coreKey_idle {f : Field} (within : f = F.CORE_FAULT.CAUSE ∨ f = F.CORE_FAULT.WELL ∨ f = F.CORE_STATUS.TESTING ∨
    f = F.CORE_TEST.DONE) (c i : Nat) : workKey (fieldKey (f.core (c % 40)) i 0) = false := by
  have row : ∀ k : Fin 40, ∀ g ∈ [F.CORE_FAULT.CAUSE, F.CORE_FAULT.WELL, F.CORE_STATUS.TESTING, F.CORE_TEST.DONE],
      workSlots.contains (fieldSlot (fieldKey (g.core k) 0 0)) = false ∧
      ∀ w ∈ workFields, w < fieldKey (g.core k) 0 0 ∨ fieldSlot w ≠ fieldSlot (fieldKey (g.core k) 0 0) := by decide
  obtain ⟨slot, page⟩ := row ⟨c % 40, Nat.mod_lt _ (by decide)⟩ f (by simpa using within)
  exact workKey_false slot page i 0

theorem WorkKept.coreFld {s t : State} (h : WorkKept s t) {f : Field} (within : f = F.CORE_FAULT.CAUSE ∨
    f = F.CORE_FAULT.WELL ∨ f = F.CORE_STATUS.TESTING ∨ f = F.CORE_TEST.DONE) (c : Nat) : t.coreFld f c = s.coreFld f c :=
  h.fields _ (coreKey_idle within c _) _

/-! ## Faults and tests of a core -/

section
variable {s : State} {c : Fin 10240}

/-- What a core's fault leaves before its work is dealt again. -/
def State.coreStopped (s : State) (core cause well ctx q seq : Nat) : State :=
  let s := (s.setCoreFld F.CORE_FAULT.CAUSE core cause).setCoreFld F.CORE_FAULT.WELL core well
  let s := s.raise (0x1100 + cause) 2 (core / 40) (core % 40) ctx q seq
  (s.setCore core { s.core core with out := true }).dropReads core

theorem State.coreStopped_stops (s : State) (core cause well ctx q seq : Nat) :
    let t := s.coreStopped core cause well ctx q seq
    t.coreFld F.CORE_FAULT.CAUSE core = cause % 256 ∧ t.coreFld F.CORE_FAULT.WELL core = well % 32 ∧
      (t.core core).out = true ∧ (t.core core).place = (s.core core).place ∧ Raised s t (0x1100 + cause) 2 (core / 40) ∧
      t.tm = s.tm := by
  intro t
  have core_t : t.core core = { s.core core with out := true } := State.core_setCore _ _ _
  refine ⟨?_, State.coreFld_setCoreFld _ _ _ _, congrArg Core.out core_t, (congrArg Core.place core_t).trans rfl,
    ⟨_, List.mem_append_right _ (List.mem_singleton_self _), rfl, rfl, rfl, rfl⟩, rfl⟩
  have cause_u := (s.setCoreFld F.CORE_FAULT.CAUSE core cause).coreFld_setCoreFld_other (f := F.CORE_FAULT.WELL)
    (g := F.CORE_FAULT.CAUSE) core well (by decide)
  exact cause_u.trans (State.coreFld_setCoreFld _ _ _ _)

/-- Dealt again without its place, a core that is out stays out and has none. -/
theorem State.redeal_out (s : State) (core : Nat) (out : (s.core core).out = true) :
    WorkKept s (s.redeal core false) ∧ ((s.redeal core false).core core).out = true ∧
      ((s.redeal core false).core core).place = none := by
  have work : WorkKept s (s.redeal core false) := (WorkKept.refl s).redeal
  refine ⟨work, (work.cores core).out.trans out, ?_⟩
  cases placed : (s.core core).place with
  | none => exact (work.cores core).place placed
  | some p =>
    have freed : WorkKept (s.freeCore core) (s.redeal core false) := (WorkKept.refl _).redeal_freed placed
    have none : ((s.freeCore core).core core).place = none := congrArg Core.place (State.core_setCore _ _ _)
    exact (freed.cores core).place none

theorem coreFault_takesOut {cause : Fin 7} {well : Fin 24} (some : cause ≠ 0) (runs : s.runs (c / 40) = true)
    (within : (s.core c).out = false) (here : (s.cluster (c / 40)).removed = false) :
    ∃ t, exec (.coreFault c cause well) s = .next t ∧ t.coreFld F.CORE_FAULT.CAUSE c = cause.val ∧
      t.coreFld F.CORE_FAULT.WELL c = (if cause.val = 2 then well.val else 0) ∧ (t.core c).out = true ∧
      (t.core c).place = none ∧ t.coreFld F.CORE_STATUS.TESTING c = 1 ∧ t.coreFld F.CORE_TEST.DONE c = 0 ∧
      Raised s t (0x1100 + cause) 2 (c / 40) ∧ t.coreRuns c = false ∧ t.tm = s.tm := by
  have guard : ¬ (cause.val = 0 ∨ (!s.runs (c / 40)) = true ∨ (s.core c).out = true ∨ (s.cluster (c / 40)).removed = true) := by
    simp only [runs, within, here, Bool.not_true, Bool.false_eq_true, or_self, or_false]
    exact fun e => some (Fin.ext e)
  obtain ⟨u, ran, hu⟩ : ∃ u, exec (.coreFault c cause well) s = .next u ∧ ∃ ctx q seq, WorkKept
      ((((s.coreStopped c cause (if cause.val = 2 then well.val else 0) ctx q seq).redeal c false).setCoreFld
        F.CORE_STATUS.TESTING c 1).setCoreFld F.CORE_TEST.DONE c 0) u := by
    refine ⟨_, congrArg Host.Outcome.next (if_neg guard), ?_⟩
    dsimp only
    generalize (if cause.val = 2 then well.val else 0) = v
    split
    · exact ⟨_, _, _, (WorkKept.refl _).layersEnd⟩
    · exact ⟨_, _, _, WorkKept.refl _⟩
  obtain ⟨ctx, q, seq, after⟩ := hu
  obtain ⟨cause_v, well_v, out_v, _, raised_v, time_v⟩ :=
    s.coreStopped_stops c cause (if cause.val = 2 then well.val else 0) ctx q seq
  generalize s.coreStopped c cause (if cause.val = 2 then well.val else 0) ctx q seq = v at after cause_v well_v out_v raised_v time_v
  obtain ⟨work, out_w, place_w⟩ := v.redeal_out c out_v
  generalize v.redeal c false = w at after work out_w place_w
  have out_u : (u.core c).out = true := (after.cores c).out.trans out_w
  have place_u : (u.core c).place = none := (after.cores c).place place_w
  refine ⟨u, ran, ?_, ?_, out_u, place_u, ?_, ?_, ?_, ?_, ?_⟩
  · rw [after.coreFld (by simp), State.coreFld_setCoreFld_other _ _ _ (by decide), State.coreFld_setCoreFld_other _ _ _ (by decide),
      work.coreFld (by simp), cause_v]
    omega
  · rw [after.coreFld (by simp), State.coreFld_setCoreFld_other _ _ _ (by decide), State.coreFld_setCoreFld_other _ _ _ (by decide),
      work.coreFld (by simp), well_v]
    split <;> omega
  · rw [after.coreFld (by simp), State.coreFld_setCoreFld_other _ _ _ (by decide), State.coreFld_setCoreFld]
    rfl
  · rw [after.coreFld (by simp), State.coreFld_setCoreFld]
    rfl
  · exact raised_v.mono fun e he => after.errors e (work.errors e he)
  · simp [State.coreRuns, out_u]
  · exact after.time.trans (work.time.trans time_v)

theorem coreBusy_iff (s : State) (c : Nat) :
    s.coreBusy c = false ↔ (s.core c).queue = [] ∧ ∀ p, (s.core c).place = some p → p.item = none := by
  unfold State.coreBusy
  cases h : (s.core c).place <;> simp [h]

theorem coreTestStart_tests {r : Requester} (hw : Writable s 0x11 (c / 40) r) :
    let free := (s.core c).queue = [] ∧ (∀ p, (s.core c).place = some p → p.item = none) ∧
      s.coreFld F.CORE_CFG.PLACE c ≠ 1 ∧ s.coreFld F.CORE_STATUS.TESTING c ≠ 1
    ∃ t, exec (.coreTestStart r c) s = .next t ∧
      (free → t.coreFld F.CORE_STATUS.TESTING c = 1 ∧ t.coreFld F.CORE_TEST.DONE c = 0) ∧
      (¬ free → t.fld (F.PG_STATUS.WRITE_REJECT 0x11) (c / 40) = 1 ∧
        t.coreFld F.CORE_STATUS.TESTING c = s.coreFld F.CORE_STATUS.TESTING c) ∧ OnlyRegs s t := by
  intro free
  let u := s.addCnt C.GL_CNT_REG_WRITES 1
  have ran : exec (.coreTestStart r c) s = .next (u.coreTest c) := congrArg Host.Outcome.next (hw.opWrite _ _ _)
  have tests : free ↔ ¬ (u.coreBusy c ∨ u.coreFld F.CORE_CFG.PLACE c = 1 ∨ u.coreFld F.CORE_STATUS.TESTING c = 1) := by
    have busy := coreBusy_iff s c
    have idle : s.coreBusy c = false ↔ ¬ u.coreBusy c = true := Bool.eq_false_iff
    rw [not_or, not_or, ← idle, busy, and_assoc]
    exact Iff.rfl
  by_cases isFree : free
  · have begun : u.coreTest c = (u.setCoreFld F.CORE_STATUS.TESTING c 1).setCoreFld F.CORE_TEST.DONE c 0 := if_neg (tests.mp isFree)
    refine ⟨_, ran.trans (congrArg Host.Outcome.next begun), fun _ => ⟨?_, State.coreFld_setCoreFld _ _ _ _⟩,
      fun h => absurd isFree h, rfl⟩
    rw [State.coreFld_setCoreFld_other _ _ _ (by decide)]
    exact State.coreFld_setCoreFld _ _ _ _
  · have refused : u.coreTest c = u.reject 0x11 (c / 40) := if_pos (not_not.mp (mt tests.mpr isFree))
    refine ⟨_, ran.trans (congrArg Host.Outcome.next refused), fun h => absurd h isFree, fun _ => ⟨State.fld_setFld _ _ _ _ _, ?_⟩, rfl⟩
    have apart : fieldKey (F.CORE_STATUS.TESTING.core (c % 40)) (c / 40) 0 ≠ fieldKey (F.PG_STATUS.WRITE_REJECT 0x11) (c / 40) 0 := by
      rw [fieldKey_core]
      simp only [fieldKey, F.CORE_STATUS.TESTING, F.PG_STATUS.WRITE_REJECT]
      omega
    exact State.fld_setFld_ne _ _ _ _ _ _ _ _ apart

/-- What a test that ended shows. -/
def State.tested (s : State) (core pass unit : Nat) : State :=
  (((s.setCoreFld F.CORE_STATUS.TESTING core 0).setCoreFld F.CORE_TEST.DONE core 1).setCoreFld F.CORE_TEST.PASS core
    pass).setCoreFld F.CORE_TEST.FAIL_UNIT core unit

theorem State.tested_shows (s : State) (core pass unit : Nat) :
    let t := s.tested core pass unit
    t.coreFld F.CORE_STATUS.TESTING core = 0 ∧ t.coreFld F.CORE_TEST.DONE core = 1 ∧
      t.coreFld F.CORE_TEST.PASS core = pass % 2 ∧ t.coreFld F.CORE_TEST.FAIL_UNIT core = unit % 8 ∧
      t.coreFld F.CORE_STATUS.OFFLINE core = s.coreFld F.CORE_STATUS.OFFLINE core ∧
      t.coreFld F.CORE_FAULT.CAUSE core = s.coreFld F.CORE_FAULT.CAUSE core ∧ OnlyRegs s t := by
  intro t
  refine ⟨?_, ?_, ?_, State.coreFld_setCoreFld _ _ _ _, ?_, ?_, rfl⟩ <;> unfold t State.tested
  · rw [State.coreFld_setCoreFld_other _ _ _ (by decide), State.coreFld_setCoreFld_other _ _ _ (by decide),
      State.coreFld_setCoreFld_other _ _ _ (by decide), State.coreFld_setCoreFld]
    rfl
  · rw [State.coreFld_setCoreFld_other _ _ _ (by decide), State.coreFld_setCoreFld_other _ _ _ (by decide),
      State.coreFld_setCoreFld]
    rfl
  · rw [State.coreFld_setCoreFld_other _ _ _ (by decide), State.coreFld_setCoreFld]
    rfl
  · rw [State.coreFld_setCoreFld_other _ _ _ (by decide), State.coreFld_setCoreFld_other _ _ _ (by decide),
      State.coreFld_setCoreFld_other _ _ _ (by decide), State.coreFld_setCoreFld_other _ _ _ (by decide)]
  · rw [State.coreFld_setCoreFld_other _ _ _ (by decide), State.coreFld_setCoreFld_other _ _ _ (by decide),
      State.coreFld_setCoreFld_other _ _ _ (by decide), State.coreFld_setCoreFld_other _ _ _ (by decide)]

/-- What a failed test shows besides. -/
def State.testFailed (s : State) (core : Nat) : State :=
  let s := (s.setCoreFld F.CORE_FAULT.CAUSE core 5).setCoreFld F.CORE_FAULT.WELL core 0
  ((s.setCoreFld F.CORE_STATUS.OFFLINE core 1).raise 0x1105 2 (core / 40) (core % 40)).raise 0x1111 1 (core / 40) (core % 40)

theorem State.testFailed_shows (s : State) (core : Nat) :
    let t := s.testFailed core
    t.coreFld F.CORE_STATUS.OFFLINE core = 1 ∧ t.coreFld F.CORE_FAULT.CAUSE core = 5 ∧
      Raised s t 0x1105 2 (core / 40) ∧ Raised s t 0x1111 1 (core / 40) ∧
      (∀ f, fieldKey f 0 0 ≠ fieldKey F.CORE_STATUS.OFFLINE 0 0 → fieldKey f 0 0 ≠ fieldKey F.CORE_FAULT.WELL 0 0 →
        fieldKey f 0 0 ≠ fieldKey F.CORE_FAULT.CAUSE 0 0 → t.coreFld f core = s.coreFld f core) ∧
      t.tl = s.tl ∧ t.cq = s.cq ∧ t.mm = s.mm := by
  intro t
  refine ⟨?_, ?_, ⟨_, List.mem_append_left _ (List.mem_append_right _ (List.mem_singleton_self _)), rfl, rfl, rfl, rfl⟩,
    ⟨_, List.mem_append_right _ (List.mem_singleton_self _), rfl, rfl, rfl, rfl⟩, fun f offline well cause => ?_, rfl, rfl, rfl⟩
  · exact State.coreFld_setCoreFld _ _ _ _
  · have shown := ((s.setCoreFld F.CORE_FAULT.CAUSE core 5).setCoreFld F.CORE_FAULT.WELL core 0).coreFld_setCoreFld_other
      (f := F.CORE_STATUS.OFFLINE) (g := F.CORE_FAULT.CAUSE) core 1 (by decide)
    refine shown.trans ?_
    rw [State.coreFld_setCoreFld_other _ _ _ (by decide), State.coreFld_setCoreFld]
    rfl
  · have shown := ((s.setCoreFld F.CORE_FAULT.CAUSE core 5).setCoreFld F.CORE_FAULT.WELL core 0).coreFld_setCoreFld_other
      (f := F.CORE_STATUS.OFFLINE) (g := f) core 1 offline
    refine shown.trans ?_
    rw [State.coreFld_setCoreFld_other _ _ _ well, State.coreFld_setCoreFld_other _ _ _ cause]

theorem selfTestDone_ends {pass : Bool} {u : Fin 7} (tests : s.coreFld F.CORE_STATUS.TESTING c ≠ 0 ∨
      ((s.core c).out = true ∧ s.coreFld F.CORE_STATUS.OFFLINE c = 0) ∨ s.resetTests (c / 40) = true) :
    ∃ t, exec (.selfTestDone c pass u) s = .next t ∧ t.coreFld F.CORE_STATUS.TESTING c = 0 ∧
      t.coreFld F.CORE_TEST.DONE c = 1 ∧ t.coreFld F.CORE_TEST.PASS c = b2n pass ∧
      t.coreFld F.CORE_TEST.FAIL_UNIT c = (if pass then 0 else u.val) ∧
      t.core c = { s.core c with out := !pass } ∧
      (pass = true → t.coreFld F.CORE_STATUS.OFFLINE c = s.coreFld F.CORE_STATUS.OFFLINE c ∧
        t.coreFld F.CORE_FAULT.CAUSE c = s.coreFld F.CORE_FAULT.CAUSE c) ∧
      (pass = false → t.coreFld F.CORE_STATUS.OFFLINE c = 1 ∧ t.coreFld F.CORE_FAULT.CAUSE c = 5 ∧
        Raised s t 0x1105 2 (c / 40) ∧ Raised s t 0x1111 1 (c / 40)) ∧
      (∀ k, k ≠ c.val → t.core k = s.core k) ∧ t.cq = s.cq ∧ t.mm = s.mm := by
  have guard : ¬ (s.coreFld F.CORE_STATUS.TESTING c = 0 ∧
      (!((s.core c).out && decide (s.coreFld F.CORE_STATUS.OFFLINE c = 0))) = true ∧ (!s.resetTests (c / 40)) = true) := by
    rintro ⟨idle, within, quiet⟩
    obtain testing | ⟨out, offline⟩ | reset := tests
    · exact testing idle
    · simp [out, offline] at within
    · simp [reset] at quiet
  cases pass with
  | true =>
    obtain ⟨testing, done, passed, unit, offline, cause, frame⟩ := s.tested_shows c 1 0
    have ran : s.selfTestDone c true u = (s.tested c 1 0).setCore c { (s.tested c 1 0).core c with out := false } := if_neg guard
    generalize s.tested c 1 0 = v at *
    have core : v.core c = s.core c := by rw [frame]; rfl
    rw [core] at ran
    refine ⟨_, congrArg Host.Outcome.next ran, testing, done, passed, unit, State.core_setCore _ _ _,
      fun _ => ⟨offline, cause⟩, fun no => (nomatch no), fun k hk => ?_, ?_, ?_⟩
    · rw [State.core_setCore_ne _ _ _ _ hk, frame]
      rfl
    · exact (congrArg State.cq frame : _)
    · exact (congrArg State.mm frame : _)
  | false =>
    obtain ⟨testing, done, passed, unit, offline, cause, frame⟩ := s.tested_shows c 0 u
    have ran : s.selfTestDone c false u =
        ((s.tested c 0 u).setCore c { (s.tested c 0 u).core c with out := true }).testFailed c := if_neg guard
    generalize s.tested c 0 u = v at *
    have core : v.core c = s.core c := by rw [frame]; rfl
    rw [core] at ran
    obtain ⟨offline', cause', tested', failed', others, tiling, queue, memory⟩ :=
      (v.setCore c { s.core c with out := true }).testFailed_shows c
    generalize (v.setCore c { s.core c with out := true }).testFailed c = w at *
    have cores : ∀ k, w.core k = (v.setCore c { s.core c with out := true }).core k := fun k => by
      simp only [State.core, tiling]
    have now : v.tm = s.tm := (congrArg State.tm frame : _)
    refine ⟨_, congrArg Host.Outcome.next ran, (others _ (by decide) (by decide) (by decide)).trans testing,
      (others _ (by decide) (by decide) (by decide)).trans done, (others _ (by decide) (by decide) (by decide)).trans passed,
      ((others _ (by decide) (by decide) (by decide)).trans unit).trans (Nat.mod_eq_of_lt (by omega)),
      (cores c).trans (State.core_setCore _ _ _), fun no => (nomatch no),
      fun _ => ⟨offline', cause', ?_, ?_⟩, fun k hk => ?_, ?_, ?_⟩
    · obtain ⟨e, he, code, sev, inst, time⟩ := tested'
      exact ⟨e, he, code, sev, inst, time.trans (congrArg Tm.now now)⟩
    · obtain ⟨e, he, code, sev, inst, time⟩ := failed'
      exact ⟨e, he, code, sev, inst, time.trans (congrArg Tm.now now)⟩
    · rw [cores, State.core_setCore_ne _ _ _ _ hk, frame]
      rfl
    · exact queue.trans (congrArg State.cq frame : _)
    · exact memory.trans (congrArg State.mm frame : _)
end

/-! ## The loss of a die, and a poisoned cluster store (R271, R285) -/

section
variable {s : State}

theorem foldl_removeCluster (s : State) (l : List Nat) (g : Nat → Nat) :
    TakenOut s (l.foldl (fun s i => s.removeCluster (g i)) s) ∧
      ∀ i ∈ l, ((l.foldl (fun s i => s.removeCluster (g i)) s).cluster (g i)).removed = true := by
  induction l generalizing s with
  | nil => exact ⟨.refl s, fun _ h => absurd h List.not_mem_nil⟩
  | cons a l ih =>
    obtain ⟨first, out⟩ := s.removeCluster_takenOut (g a)
    obtain ⟨rest, outs⟩ := ih (s.removeCluster (g a))
    refine ⟨first.trans rest, fun i hi => ?_⟩
    obtain rfl | hi := List.mem_cons.mp hi
    · exact rest.removed _ out
    · exact outs i hi

theorem dieLost_removes {die : Fin 16} (active : s.tm.power = .active) (there : s.fld F.CD_STATUS.REMOVED die ≠ 1) :
    ∃ t, exec (.dieLost die) s = .next t ∧ t.fld F.CD_STATUS.REMOVED die = 1 ∧ Raised s t 0x1001 2 die ∧
      (∀ i, i < 16 → (t.cluster (die * 16 + i)).removed = true) ∧ t.tm = s.tm ∧ t.bt = s.bt := by
  let u := (s.setFld F.CD_STATUS.REMOVED 1 die).raise 0x1001 2 die
  have ran : s.dieLost die = (List.range 16).foldl (fun s i => s.removeCluster (die * 16 + i)) u :=
    if_neg (not_or.mpr ⟨not_not.mpr active, there⟩)
  obtain ⟨taken, out⟩ := foldl_removeCluster u (List.range 16) (fun i => die * 16 + i)
  have raised : Raised s u 0x1001 2 die := ⟨_, List.mem_append_right _ (List.mem_singleton_self _), rfl, rfl, rfl, rfl⟩
  refine ⟨_, congrArg Host.Outcome.next ran, ?_, raised.mono taken.errors, fun i hi => out i (List.mem_range.mpr hi),
    taken.time, taken.boot⟩
  have shown : u.fld F.CD_STATUS.REMOVED die = 1 := State.fld_setFld _ _ _ _ _
  have idle : workKey (fieldKey F.CD_STATUS.REMOVED die 0) = false := workKey_false (by decide) (by decide) _ _
  rw [← shown]
  exact taken.fields _ idle (by rw [fieldSlot_fieldKey]; decide) (by rw [fieldSlot_fieldKey]; decide) _

theorem clusterStoreUe_reports {cl : Fin 256} {a : Fin 2097152} {k : Fin 40} (active : s.tm.power = .active)
    (within : (s.cluster cl).removed = false) :
    ∃ t, exec (.clusterStoreUe cl a k) s = .next t ∧ Raised s t 0x1122 2 cl ∧
      (t.cluster cl).lastUe = some s.tm.now ∧
      (∀ e, (s.cluster cl).lastUe = some e → s.tm.now < e + 1000000000 → (t.cluster cl).removed = true) ∧
      ((∀ e, (s.cluster cl).lastUe = some e → e + 1000000000 ≤ s.tm.now) → (t.cluster cl).removed = false) ∧ t.tm = s.tm := by
  have guard : ¬ (s.tm.power ≠ .active ∨ (s.cluster cl).removed = true) := by simp [active, within]
  obtain ⟨again, w, ran, seen, work⟩ : ∃ (again : Bool) (w : State),
      exec (.clusterStoreUe cl a k) s = .next (if again then w.removeCluster cl else w) ∧
      (again = true ↔ ∃ e, (s.cluster cl).lastUe = some e ∧ s.tm.now < e + 1000000000) ∧
      WorkKept ((s.raise 0x1122 2 cl (k.val % 40) 0xFFFF 0xFFFF 0 (memDetail a)).setCluster cl
        { s.cluster cl with lastUe := some s.tm.now }) w := by
    refine ⟨_, _, congrArg Host.Outcome.next (if_neg guard), ?_, ?_⟩
    · have kept : (s.raise 0x1122 2 cl (k.val % 40) 0xFFFF 0xFFFF 0 (memDetail a)).cluster cl = s.cluster cl := rfl
      have now : (s.raise 0x1122 2 cl (k.val % 40) 0xFFFF 0xFFFF 0 (memDetail a)).tm = s.tm := rfl
      rw [kept, now]
      cases (s.cluster cl).lastUe <;> simp
    · dsimp only
      split
      · exact (WorkKept.refl _).rerun
      · split
        · exact (WorkKept.refl _).dropReads.redeal.either (WorkKept.refl _)
        · exact WorkKept.refl _
  have here : ((s.raise 0x1122 2 cl (k.val % 40) 0xFFFF 0xFFFF 0 (memDetail a)).setCluster cl
      { s.cluster cl with lastUe := some s.tm.now }).cluster cl = { s.cluster cl with lastUe := some s.tm.now } :=
    State.cluster_setCluster _ _ _
  have raised : Raised s ((s.raise 0x1122 2 cl (k.val % 40) 0xFFFF 0xFFFF 0 (memDetail a)).setCluster cl
      { s.cluster cl with lastUe := some s.tm.now }) 0x1122 2 cl := State.raise_raised _ _ _ _ _ _ _ _ _
  have time : ((s.raise 0x1122 2 cl (k.val % 40) 0xFFFF 0xFFFF 0 (memDetail a)).setCluster cl
      { s.cluster cl with lastUe := some s.tm.now }).tm = s.tm := rfl
  generalize (s.raise 0x1122 2 cl (k.val % 40) 0xFFFF 0xFFFF 0 (memDetail a)).setCluster cl
      { s.cluster cl with lastUe := some s.tm.now } = v at work here raised time
  have last : (w.cluster cl).lastUe = some s.tm.now := (work.clusters cl).lastUe.trans (congrArg Cluster.lastUe here)
  cases again with
  | true =>
    obtain ⟨taken, out⟩ := w.removeCluster_takenOut cl
    refine ⟨_, ran, (raised.mono work.errors).mono taken.errors, (taken.lastUe cl).trans last, fun _ _ _ => out,
      fun late => ?_, taken.time.trans (work.time.trans time)⟩
    obtain ⟨e, he, soon⟩ := seen.mp rfl
    exact absurd (late e he) (by omega)
  | false =>
    refine ⟨_, ran, raised.mono work.errors, last, fun e he soon => ?_, fun _ => ?_, work.time.trans time⟩
    · exact absurd (seen.mpr ⟨e, he, soon⟩) Bool.false_ne_true
    · exact (work.clusters cl).removed.trans ((congrArg Cluster.removed here).trans within)
end

/-- Settles O36: each loss by its rule above, and what the work dealt again keeps. -/
theorem coreAndClusterLosses : Obligations.CoreAndClusterLosses :=
  ⟨fun _ _ => ⟨fun _ _ some runs within here => coreFault_takesOut some runs within here,
     fun _ => coreTestStart_tests, fun _ _ => selfTestDone_ends⟩,
   fun _ active => ⟨fun _ => dieLost_removes active, fun _ _ _ => clusterStoreUe_reports active⟩⟩

end Sys2Proof.Machine
end

section
/-! SUPPORT. Sources of the clocks and the operating points of a recomputation (R444, R448, R449, R452, R453). -/

namespace Sys2Proof.Machine

/-! ## References and PLLs -/

section
variable {s : State}

theorem refLost_first (powered : s.powered = true) :
    ∃ t, exec (.refLost 0) s = .next t ∧ t.fld F.CLK_STATUS.REF0_OK = 0 ∧ t.fld F.CLK_INT_STATUS.REF_LOST = 1 ∧
      Raised s t 0x0801 3 0 ∧
      FieldsBut s t [fieldKey F.CLK_STATUS.REF0_OK 0 0, fieldKey F.CLK_INT_STATUS.REF_LOST 0 0] ∧ OnlySignals s t := by
  have ran : s.refLost 0 = ((s.setFld F.CLK_STATUS.REF0_OK 0).setInt F.CLK_INT_STATUS.REF_LOST).raise 0x0801 3 :=
    if_neg (by simp [powered])
  refine ⟨_, congrArg Host.Outcome.next ran, ?_, ?_, ?_, ?_, (OnlySignals.refl s).setFld.setInt.raise⟩
  · rw [State.fld_raise, State.fld_setInt_other _ (by decide), State.fld_setFld]
    rfl
  · rw [State.fld_raise, State.fld_setInt]
    rfl
  · exact ⟨_, List.mem_append_right _ (List.mem_singleton_self _), rfl, rfl, rfl, by rw [State.setInt_tm]; rfl⟩
  · exact (((FieldsBut.refl s _).setFld (by simp)).setInt (by simp)).raise

theorem refLost_second (powered : s.powered = true) :
    ∃ t, exec (.refLost 1) s = .next t ∧ t.fld F.CLK_STATUS.REF1_OK = 0 ∧ t.fld F.CLK_STATUS.TB_UNSYNC = 1 ∧
      t.fld F.CLK_INT_STATUS.REF_LOST = 1 ∧ Raised s t 0x0801 3 0 ∧
      FieldsBut s t [fieldKey F.CLK_STATUS.REF1_OK 0 0, fieldKey F.CLK_STATUS.TB_UNSYNC 0 0,
        fieldKey F.CLK_INT_STATUS.REF_LOST 0 0] ∧ OnlySignals s t := by
  have ran : s.refLost 1 =
      (((s.setFld F.CLK_STATUS.REF1_OK 0).setFld F.CLK_STATUS.TB_UNSYNC 1).setInt F.CLK_INT_STATUS.REF_LOST).raise 0x0801 3 :=
    if_neg (by simp [powered])
  refine ⟨_, congrArg Host.Outcome.next ran, ?_, ?_, ?_, ?_, ?_, (OnlySignals.refl s).setFld.setFld.setInt.raise⟩
  · rw [State.fld_raise, State.fld_setInt_other _ (by decide), State.fld_setFld_other _ (by decide), State.fld_setFld]
    rfl
  · rw [State.fld_raise, State.fld_setInt_other _ (by decide), State.fld_setFld]
    rfl
  · rw [State.fld_raise, State.fld_setInt]
    rfl
  · exact ⟨_, List.mem_append_right _ (List.mem_singleton_self _), rfl, rfl, rfl, by rw [State.setInt_tm]; rfl⟩
  · exact ((((FieldsBut.refl s _).setFld (by simp)).setFld (by simp)).setInt (by simp)).raise

theorem pllUnlock_reports (powered : s.powered = true) :
    ∃ t, exec .pllUnlock s = .next t ∧ t.fld F.CLK_STATUS.PLL_LOCKED = 0 ∧ t.fld F.CLK_INT_STATUS.REF_LOST = 1 ∧
      Raised s t 0x0802 3 0 ∧
      FieldsBut s t [fieldKey F.CLK_STATUS.PLL_LOCKED 0 0, fieldKey F.CLK_INT_STATUS.REF_LOST 0 0] ∧ OnlySignals s t := by
  have ran : s.pllUnlock = ((s.setFld F.CLK_STATUS.PLL_LOCKED 0).setInt F.CLK_INT_STATUS.REF_LOST).raise 0x0802 3 :=
    if_neg (by simp [powered])
  refine ⟨_, congrArg Host.Outcome.next ran, ?_, ?_, ?_, ?_, (OnlySignals.refl s).setFld.setInt.raise⟩
  · rw [State.fld_raise, State.fld_setInt_other _ (by decide), State.fld_setFld]
    rfl
  · rw [State.fld_raise, State.fld_setInt]
    rfl
  · exact ⟨_, List.mem_append_right _ (List.mem_singleton_self _), rfl, rfl, rfl, by rw [State.setInt_tm]; rfl⟩
  · exact (((FieldsBut.refl s _).setFld (by simp)).setInt (by simp)).raise
end

/-! ## Moves of a cluster's point -/

/-- Points move from `s` to `t`, and the trace tells of it; nothing else happens. -/
def PointsMoved (s t : State) : Prop :=
  t = { s with hl := t.hl, op := t.op, mm := t.mm, rg := t.rg, tr := t.tr, st := t.st, pw := { s.pw with clk := t.pw.clk } }

theorem PointsMoved.refl (s : State) : PointsMoved s s := rfl

theorem PointsMoved.trans {s t u : State} (h : PointsMoved s t) (h' : PointsMoved t u) : PointsMoved s u := by
  unfold PointsMoved at *
  rw [h', h]

theorem State.trace_running (s : State) (r : TraceRec) {d : Nat} (h : s.domHalted d = false) : (s.trace r).domHalted d = false := by
  have budgeted : ∀ u : State, u.domHalted d = false → (u.traceBudgeted r).domHalted d = false := fun u hu => by
    rw [State.domHalted, ((StopKept.refl u).traceBudgeted r).st]
    exact hu
  unfold State.trace
  split
  · refine budgeted _ ?_
    unfold State.traceTrigger
    split
    · have fired : ((s.setFld F.TRC_STATUS.TRIGGERED 1).setInt F.TRC_INT_STATUS.TRIGGER).domHalted d = false := by
        rw [State.domHalted, State.setInt_st]
        exact h
      generalize (s.setFld F.TRC_STATUS.TRIGGERED 1).setInt F.TRC_INT_STATUS.TRIGGER = u at fired ⊢
      dsimp only
      split
      · unfold State.takeStop
        split
        · exact fired
        · rfl
      · exact fired
    · exact h
  · exact h

/-- May a cluster's point move again (R449). -/
def Clk.movable (x : Clk) (now : Nat) : Bool :=
  match x.changed with | none => true | some e => decide (e + 10000 ≤ now)

/-- The point one move nearer to a target (R449). -/
def Clk.nearer (x : Clk) (target : Nat) : Nat :=
  if x.point < target then Nat.min target (x.point + 4) else Nat.max target (x.point - 4)

theorem State.movePoint_eq (s : State) (cl target : Nat) :
    s.movePoint cl target =
      if (s.clk cl).point = target ∨ (!(s.clk cl).movable s.tm.now) = true then s
      else ((s.setClk cl { s.clk cl with point := (s.clk cl).nearer target, changed := some s.tm.now }).addCnt
        C.CLK_CNT_POINT_CHANGES 1 0 cl).trace { type := 0xA, arg0 := cl, arg1 := (s.clk cl).nearer target } := rfl

theorem Clk.nearer_self (x : Clk) : x.nearer x.point = x.point := by
  unfold Clk.nearer
  rw [if_neg (Nat.lt_irrefl _)]
  exact Nat.max_eq_left (Nat.sub_le _ _)

theorem State.movePoint_points (s : State) (cl target : Nat) :
    ((s.movePoint cl target).clk cl).point =
      if (s.clk cl).movable s.tm.now then (s.clk cl).nearer target else (s.clk cl).point := by
  rw [State.movePoint_eq]
  split
  · next stays =>
    obtain same | held := stays
    · rw [← same, Clk.nearer_self, ite_self]
    · rw [if_neg (by simpa using held)]
  · next moves =>
    rw [if_pos (by simpa using (not_or.mp moves).2)]
    simp only [State.clk, State.trace_pw]
    exact congrArg Clk.point (State.clk_setClk s cl _)

theorem State.movePoint_others (s : State) (cl target : Nat) {k : Nat} (h : k ≠ cl) : (s.movePoint cl target).clk k = s.clk k := by
  rw [State.movePoint_eq]
  split
  · rfl
  · simp only [State.clk, State.trace_pw]
    exact State.clk_setClk_ne s cl _ _ h

theorem PointsMoved.trace {s t : State} (h : PointsMoved s t) (r : TraceRec) : PointsMoved s (t.trace r) := by
  have frame := t.trace_frame r
  unfold State.Traced at frame
  refine h.trans ?_
  unfold PointsMoved
  rw [frame]

theorem State.movePoint_moves (s : State) (cl target : Nat) : PointsMoved s (s.movePoint cl target) := by
  rw [State.movePoint_eq]
  split
  · exact .refl s
  · have shown : ∀ x, PointsMoved s ((s.setClk cl x).addCnt C.CLK_CNT_POINT_CHANGES 1 0 cl) := fun _ => rfl
    exact (shown _).trace _

theorem State.movePoint_work (s : State) (cl target : Nat) : WorkKept s (s.movePoint cl target) := by
  rw [State.movePoint_eq]
  exact .either (.refl s) (WorkKept.refl s).setClk.addCnt.trace

theorem State.movePoint_running (s : State) (cl target : Nat) {d : Nat} (h : s.domHalted d = false) :
    (s.movePoint cl target).domHalted d = false := by
  rw [State.movePoint_eq]
  split
  · exact h
  · exact State.trace_running _ _ h

/-- One cluster's share of a recomputation. -/
def State.moveCluster (busy : List Nat) (common : Nat) (s : State) (c : Nat) : State :=
  if s.domHalted c then s else s.movePoint c (if busy.contains c then Nat.min common (s.pointCap c) else 0)

theorem State.moveCluster_kept (busy : List Nat) (common : Nat) (s : State) (c : Nat) :
    WorkKept s (s.moveCluster busy common c) ∧ PointsMoved s (s.moveCluster busy common c) ∧
    (∀ k, k ≠ c → (s.moveCluster busy common c).clk k = s.clk k) ∧
    (∀ d, s.domHalted d = false → (s.moveCluster busy common c).domHalted d = false) := by
  unfold State.moveCluster
  split
  · exact ⟨.refl s, .refl s, fun _ _ => rfl, fun _ h => h⟩
  · exact ⟨s.movePoint_work _ _, s.movePoint_moves _ _, fun _ h => s.movePoint_others _ _ h, fun _ h => s.movePoint_running _ _ h⟩

theorem WorkKept.pointCap {s t : State} (h : WorkKept s t) {cl : Nat} (same : t.clk cl = s.clk cl) : t.pointCap cl = s.pointCap cl := by
  have limit : t.fld F.CLK_CL_MAX.POINT 0 cl = s.fld F.CLK_CL_MAX.POINT 0 cl :=
    h.fields _ (workKey_false (by decide) (by decide) _ _) _
  rw [State.pointCap, limit, same]
  rfl

theorem foldl_moveCluster (busy : List Nat) (common : Nat) {l : List Nat} (once : l.Nodup) (s : State) :
    WorkKept s (l.foldl (State.moveCluster busy common) s) ∧ PointsMoved s (l.foldl (State.moveCluster busy common) s) ∧
    ∀ cl, s.domHalted cl = false → ((l.foldl (State.moveCluster busy common) s).clk cl).point =
      if cl ∈ l ∧ (s.clk cl).movable s.tm.now = true
      then (s.clk cl).nearer (if busy.contains cl then Nat.min common (s.pointCap cl) else 0) else (s.clk cl).point := by
  induction l generalizing s with
  | nil => exact ⟨.refl s, .refl s, fun cl _ => by simp⟩
  | cons c l ih =>
    obtain ⟨fresh, once⟩ := List.nodup_cons.mp once
    obtain ⟨work, moves, others, running⟩ := s.moveCluster_kept busy common c
    obtain ⟨work', moves', points⟩ := ih once (s.moveCluster busy common c)
    refine ⟨work.trans work', moves.trans moves', fun cl up => ?_⟩
    rw [List.foldl_cons, points cl (running cl up)]
    by_cases e : cl = c
    · subst e
      rw [if_neg (fun h => fresh h.1)]
      have own : s.moveCluster busy common cl = s.movePoint cl (if busy.contains cl then Nat.min common (s.pointCap cl) else 0) :=
        if_neg (by rw [up]; exact Bool.false_ne_true)
      rw [own, State.movePoint_points]
      simp
    · have same := others cl e
      rw [work.pointCap same, same, work.time]
      simp [e]

/-! ## The recomputation -/

section
variable {s : State}

/-- The held fields in force, and what the clusters are to run at. -/
def State.pointsAsked (s : State) (common : Nat) : State :=
  let s := (s.applyField F.PWR_CFG.PARK).applyField F.PWR_CFG.PARK_DELAY
  { s with pw.limiting := s.busyClusters.any (fun c => decide (common < s.pointCap c)) }

/-- The recomputation shown, with the measurements it rests on. -/
def State.pointsShown (s : State) (common watts mv : Nat) (gated : Bool) : State :=
  ((s.setFld F.PWR_STATUS.POINT common).powerMeasure watts mv).powerState gated

theorem powerRecompute_runs (active : s.tm.power = .active) (due : s.tm.now % 10000 = 0) (mean mv fit : Nat) :
    let watts := s.inputMean mean
    let best := s.fitWithin watts fit
    let common := if best = 27 then 0 else best
    let u := s.pointsAsked common
    let v := (allClusters.foldl (State.moveCluster u.busyClusters common) u).pointsShown common watts mv (best = 27)
    s.powerRecompute mean mv fit =
      if best = 27 ∧ ¬ u.fld F.PWR_STATUS.STATE = 1 then (v.setInt F.PWR_INT_STATUS.LIMITED).raise 0x0901 0 else v := by
  intro watts best common u v
  have powered : ¬ ((!s.powered) = true ∨ s.tm.now % 10000 ≠ 0) := by simp [State.powered, active, due]
  have active' : u.tm.power = .active := by
    have same : u.tm = s.tm := by
      change ((s.applyField F.PWR_CFG.PARK).applyField F.PWR_CFG.PARK_DELAY).tm = s.tm
      rw [State.applyField_frame, State.applyField_frame s]
    rw [same, active]
  refine (if_neg powered).trans ?_
  have moved : (if u.tm.power = .active then allClusters.foldl (State.moveCluster u.busyClusters common) u else u) =
      allClusters.foldl (State.moveCluster u.busyClusters common) u := if_pos active'
  unfold v
  rw [← moved]
  rfl

theorem State.pointsAsked_only (s : State) (common : Nat) :
    (s.pointsAsked common) = { s with rg := (s.pointsAsked common).rg, pw.limiting := (s.pointsAsked common).pw.limiting } := by
  unfold State.pointsAsked
  dsimp only
  rw [State.applyField_frame, State.applyField_frame s]

theorem State.pointsAsked_fields (s : State) (common : Nat) :
    FieldsBut s (s.pointsAsked common) [fieldKey F.PWR_CFG.PARK 0 0, fieldKey F.PWR_CFG.PARK_DELAY 0 0] := by
  have applied : ∀ (u : State) (f : Field), f = F.PWR_CFG.PARK ∨ f = F.PWR_CFG.PARK_DELAY →
      FieldsBut s u [fieldKey F.PWR_CFG.PARK 0 0, fieldKey F.PWR_CFG.PARK_DELAY 0 0] →
      FieldsBut s (u.applyField f) [fieldKey F.PWR_CFG.PARK 0 0, fieldKey F.PWR_CFG.PARK_DELAY 0 0] := by
    intro u f hf h
    unfold State.applyField
    split
    · exact h
    · exact h.setFld (by obtain rfl | rfl := hf <;> simp)
  exact applied _ _ (Or.inr rfl) (applied _ _ (Or.inl rfl) (.refl s _))

theorem State.fld_powerState {s : State} {gated : Bool} (active : s.tm.power = .active) :
    (s.powerState gated).fld F.PWR_STATUS.STATE = (if gated then 1 else if s.pw.hotAll || s.pw.hotDies ≠ [] then 2 else 0) := by
  unfold State.powerState
  rw [State.fld_setFld, if_neg (by rw [active]; decide)]
  split
  · rfl
  · split <;> rfl

theorem State.pointsShown_shows (s : State) {common watts mv : Nat} {gated : Bool} (active : s.tm.power = .active)
    (small : common < 32) (power : watts < 65536) (volts : mv < 65536) :
    let t := s.pointsShown common watts mv gated
    t.fld F.PWR_STATUS.POINT = common ∧ t.fld F.PWR_INPUT.WATTS = watts ∧ t.fld F.PWR_VIN.MV = mv ∧
      t.fld F.PWR_STATUS.STATE = (if gated then 1 else if s.pw.hotAll || s.pw.hotDies ≠ [] then 2 else 0) ∧
      t.pw.clk = s.pw.clk ∧ t = { s with rg := t.rg, pw := t.pw } := by
  intro t
  refine ⟨?_, ?_, ?_, ?_, rfl, rfl⟩ <;> unfold t State.pointsShown
  · unfold State.powerState State.powerMeasure
    dsimp only
    rw [State.fld_setFld_other _ (by decide), State.fld_setFld_other _ (by decide), State.fld_addCnt,
      State.fld_setFld_other _ (by decide), State.fld_setFld_other _ (by decide)]
    exact (State.fld_setFld _ _ _ _ _).trans (Nat.mod_eq_of_lt small)
  · unfold State.powerState State.powerMeasure
    dsimp only
    rw [State.fld_setFld_other _ (by decide), State.fld_setFld_other _ (by decide), State.fld_addCnt,
      State.fld_setFld_other _ (by decide), State.fld_setFld]
    exact Nat.mod_eq_of_lt power
  · unfold State.powerState State.powerMeasure
    dsimp only
    rw [State.fld_setFld_other _ (by decide), State.fld_setFld_other _ (by decide), State.fld_addCnt, State.fld_setFld]
    exact Nat.mod_eq_of_lt volts
  · exact State.fld_powerState (by exact active)

theorem fitWithin_spec (s : State) {mean fit : Nat} (h : fit ≤ 27) :
    s.fitWithin mean fit ≤ 27 ∧
    (powerLimit (s.fld F.PWR_LIMIT.WATTS) < mean → s.fitWithin mean fit = 27 ∨
      s.fitWithin mean fit < s.fld F.PWR_STATUS.POINT) ∧
    (mean ≤ powerLimit (s.fld F.PWR_LIMIT.WATTS) → s.fitWithin mean fit = fit) := by
  unfold State.fitWithin
  dsimp only
  split
  · split
    · exact ⟨le_rfl, fun _ => Or.inl rfl, fun _ => by omega⟩
    · have low : Nat.min fit (s.fld F.PWR_STATUS.POINT - 1) ≤ fit := Nat.min_le_left _ _
      have less : Nat.min fit (s.fld F.PWR_STATUS.POINT - 1) ≤ s.fld F.PWR_STATUS.POINT - 1 := Nat.min_le_right _ _
      exact ⟨by omega, fun _ => Or.inr (by omega), fun _ => by omega⟩
  · exact ⟨h, fun _ => by omega, fun _ => rfl⟩

theorem inputMean_le (s : State) (mean : Nat) : s.inputMean mean ≤ 2400 := by
  have bound : s.inputMean mean ≤ if s.pw.limitAt + 1000000 ≤ s.tm.now then powerLimit (s.fld F.PWR_LIMIT.WATTS) else 2400 :=
    Nat.min_le_right _ _
  have limit : powerLimit (s.fld F.PWR_LIMIT.WATTS) ≤ 2400 := Nat.max_le.mpr ⟨by decide, Nat.min_le_left _ _⟩
  split at bound <;> omega

theorem mem_busyClusters {s : State} {cl : Nat} (h : cl < 256) :
    s.busyClusters.contains cl = true ↔ (s.cluster cl).layers ≠ [] := by
  simp [State.busyClusters, mem_allClusters, h]

theorem powerRecompute_sets {watts mv : BitVec 16} {fit : Fin 28} (active : s.tm.power = .active) (due : s.tm.now % 10000 = 0) :
    let mean := s.inputMean watts.toNat
    let best := s.fitWithin mean fit
    let common := if best = 27 then 0 else best
    ∃ t, exec (.powerRecompute watts mv fit) s = .next t ∧ mean ≤ 2400 ∧
      (powerLimit (s.fld F.PWR_LIMIT.WATTS) < mean → best = 27 ∨ common < s.fld F.PWR_STATUS.POINT) ∧
      (mean ≤ powerLimit (s.fld F.PWR_LIMIT.WATTS) → best = fit.val) ∧
      t.fld F.PWR_STATUS.POINT = common ∧ t.fld F.PWR_INPUT.WATTS = mean ∧ t.fld F.PWR_VIN.MV = mv.toNat ∧
      t.fld F.PWR_STATUS.STATE = (if best = 27 then 1 else if s.pw.hotAll || s.pw.hotDies ≠ [] then 2 else 0) ∧
      (∀ cl, cl < 256 → s.domHalted cl = false →
        (t.clk cl).point = if (s.clk cl).movable s.tm.now then
          (s.clk cl).nearer (if (s.cluster cl).layers = [] then 0 else Nat.min common (s.pointCap cl)) else (s.clk cl).point) ∧
      (best = 27 → s.fld F.PWR_STATUS.STATE ≠ 1 →
        t.fld F.PWR_INT_STATUS.LIMITED = 1 ∧ Raised s t 0x0901 0 0) ∧
      SameWork s t ∧ t.bt = s.bt ∧ t.tm = s.tm := by
  intro mean best common
  have ran := powerRecompute_runs active due watts.toNat mv.toNat fit
  have small : mean ≤ 2400 := inputMean_le s _
  obtain ⟨top, above, below⟩ := fitWithin_spec s (mean := mean) (fit := fit) (by omega)
  have asked := s.pointsAsked_only common
  have shown := s.pointsAsked_fields common
  have low : common < 32 := by
    unfold common
    split <;> omega
  dsimp only at ran
  generalize s.pointsAsked common = u at asked shown ran
  obtain ⟨work, moves, points⟩ := foldl_moveCluster u.busyClusters common allClusters_nodup u
  generalize allClusters.foldl (State.moveCluster u.busyClusters common) u = w at work moves points ran
  have power_w : w.tm = s.tm := work.time.trans (congrArg State.tm asked : _)
  have hot : w.pw.hotAll = s.pw.hotAll ∧ w.pw.hotDies = s.pw.hotDies := by
    unfold PointsMoved at moves
    rw [moves, asked]
    exact ⟨rfl, rfl⟩
  have same_w : SameWork s w ∧ w.bt = s.bt := by
    unfold PointsMoved at moves
    rw [moves, asked]
    exact ⟨⟨rfl, rfl, rfl, rfl, rfl⟩, rfl⟩
  obtain ⟨point, input, volts, mode, clocks, frame⟩ := w.pointsShown_shows (gated := decide (best = 27)) (by rw [power_w, active]) low
    (show mean < 65536 by omega) mv.isLt
  generalize w.pointsShown common mean mv.toNat (decide (best = 27)) = v at point input volts mode clocks frame ran
  have same_v : SameWork s v ∧ v.bt = s.bt ∧ v.tm = s.tm := by
    obtain ⟨⟨cq, wh, kv, tl, sc⟩, bt⟩ := same_w
    rw [frame]
    exact ⟨⟨cq, wh, kv, tl, sc⟩, bt, power_w⟩
  rw [hot.1, hot.2] at mode
  simp only [decide_eq_true_eq] at mode
  have targets : ∀ cl, cl < 256 → s.domHalted cl = false → (v.clk cl).point =
      if (s.clk cl).movable s.tm.now then
        (s.clk cl).nearer (if (s.cluster cl).layers = [] then 0 else Nat.min common (s.pointCap cl)) else (s.clk cl).point := by
    intro cl hcl up
    have clk : u.clk cl = s.clk cl := by
      rw [asked]
      rfl
    have now : u.tm = s.tm := (congrArg State.tm asked : _)
    have cluster : u.cluster cl = s.cluster cl := by
      rw [asked]
      rfl
    have cap : u.pointCap cl = s.pointCap cl := by
      rw [State.pointCap, State.pointCap, shown.fld (by simp [fieldKey, F.CLK_CL_MAX.POINT, F.PWR_CFG.PARK, F.PWR_CFG.PARK_DELAY]; omega), clk]
    have up' : u.domHalted cl = false := by
      rw [asked]
      exact up
    have known := points cl up'
    have busy := mem_busyClusters (s := u) hcl
    rw [cluster] at busy
    rw [State.clk, clocks]
    refine known.trans ?_
    rw [clk, now, cap]
    simp only [mem_allClusters.mpr hcl, true_and, busy, ne_eq, ite_not]
  have state_u : u.fld F.PWR_STATUS.STATE = s.fld F.PWR_STATUS.STATE := shown.fld (by decide)
  rw [state_u] at ran
  refine ⟨_, congrArg Host.Outcome.next ran, small, fun h => ?_, below, ?_⟩
  · obtain gated | less := above h
    · exact Or.inl gated
    · refine Or.inr ?_
      unfold common
      split <;> omega
  by_cases limited : best = 27 ∧ ¬ s.fld F.PWR_STATUS.STATE = 1
  · rw [if_pos limited]
    obtain ⟨⟨cq, wh, kv, tl, sc⟩, bt, tm⟩ := same_v
    refine ⟨?_, ?_, ?_, ?_, fun cl hcl up => ?_, fun _ _ => ⟨?_, ?_⟩, ⟨?_, ?_, ?_, ?_, ?_⟩, ?_, ?_⟩
    · rw [State.fld_raise, State.fld_setInt_other _ (by decide), point]
    · rw [State.fld_raise, State.fld_setInt_other _ (by decide), input]
    · rw [State.fld_raise, State.fld_setInt_other _ (by decide), volts]
    · rw [State.fld_raise, State.fld_setInt_other _ (by decide), mode]
    · rw [← targets cl hcl up]
      exact congrArg (fun p : Pw => (look {} p.clk cl).point) (State.setInt_pw _ _ _)
    · rw [State.fld_raise, State.fld_setInt]
      rfl
    · exact ⟨_, List.mem_append_right _ (List.mem_singleton_self _), rfl, rfl, rfl, (congrArg Tm.now ((State.setInt_tm _ _ _).trans tm) : _)⟩
    · exact (State.setInt_cq _ _ _).trans cq
    · exact (State.setInt_wh _ _ _).trans wh
    · exact (State.setInt_kv _ _ _).trans kv
    · exact (State.setInt_tl _ _ _).trans tl
    · exact (State.setInt_sc _ _ _).trans sc
    · exact (State.setInt_bt _ _ _).trans bt
    · exact (State.setInt_tm _ _ _).trans tm
  · rw [if_neg limited]
    exact ⟨point, input, volts, mode, targets, fun gated before => absurd ⟨gated, before⟩ limited, same_v⟩
end

/-- Settles O19: the lost sources by what they show, a recomputation by the moves of its clusters one after another. -/
theorem clocksAndPoints : Obligations.ClocksAndPoints :=
  ⟨fun _ powered => ⟨refLost_first powered, refLost_second powered, pllUnlock_reports powered⟩,
   fun _ _ _ _ active due => powerRecompute_sets active due⟩

end Sys2Proof.Machine
end

section
/-! SUPPORT. Accesses of the register window in a page that the map lists, and the header's operations (R528 to R545). -/

namespace Sys2Proof.Machine

/-! ## Pages of the map -/

theorem pageExists_listed {cls inst : Nat} (h : pageExists cls inst = true) : ∃ p ∈ pageClasses, p.1 = cls ∧ inst < p.2.1 := by
  unfold pageExists instancesOf at h
  cases found : pageClasses.find? (fun p => p.1 == cls) with
  | none => simp [found] at h
  | some p =>
    rw [found] at h
    exact ⟨p, List.mem_of_find?_eq_some found, by simpa using List.find?_some found, by simpa using h⟩

theorem pageExists_inst {cls inst : Nat} (h : pageExists cls inst = true) : inst < 256 := by
  obtain ⟨p, hp, -, small⟩ := pageExists_listed h
  have bound : ∀ p ∈ pageClasses, p.2.1 ≤ 256 := by decide
  exact Nat.lt_of_lt_of_le small (bound p hp)

/-- Below 0x28 no page has a counter. -/
theorem cntHere_low {cls inst : Nat} (h : pageExists cls inst = true) {off : Nat} (low : off < 0x28) : cntHere cls off = false := by
  obtain ⟨p, hp, rfl, -⟩ := pageExists_listed h
  have above : ∀ p ∈ pageClasses, ∀ c ∈ classCnts p.1, 0x28 ≤ c.off := by decide
  have none : (classCnts p.1).any (fun c => c.off == off) = false := by
    rw [List.any_eq_false]
    intro c hc
    have := above p hp c hc
    simp
    omega
  unfold cntHere
  rw [none]
  simp
  omega

section
variable {s : State} {r : Requester} {cls inst off : Nat}

theorem offCls_regAddr (hi : inst < 256) (ho : off < 4096) : offCls (regAddr cls inst off) = cls := by
  unfold offCls regAddr
  omega
theorem offInst_regAddr (hi : inst < 256) (ho : off < 4096) : offInst (regAddr cls inst off) = inst := by
  unfold offInst regAddr
  omega
theorem offReg_regAddr (ho : off < 4096) : offReg (regAddr cls inst off) = off := by
  unfold offReg regAddr
  omega

theorem State.regServed_word (pg : pageExists cls inst = true) (on : s.pagePowered cls inst = true) (ho : off < 4096) (aligned : off % 4 = 0) :
    s.regServed (regAddr cls inst off) 4 = true := by
  have four : regAddr cls inst off % 4 = 0 := by
    unfold regAddr
    omega
  simp [State.regServed, offCls_regAddr (pageExists_inst pg) ho, offInst_regAddr (pageExists_inst pg) ho, pg, on, four]

/-- A write of a register of 32 bits that is neither the lock's nor held back by it. -/
theorem State.registerWrite_put (pg : pageExists cls inst = true) (hw : Writable s cls inst r) (ho : off < 4096)
    (aligned : off % 4 = 0) (other : off ≠ 0x024) (word : cntHere cls (off / 8 * 8) = false) (v : Nat) :
    s.registerWrite r (regAddr cls inst off) v = (s.addCnt C.GL_CNT_REG_WRITES 1).regPut r cls inst off v := by
  obtain ⟨on, free, mine⟩ := hw
  have served := State.regServed_word pg on ho aligned
  have mine' : (s.addCnt C.GL_CNT_REG_WRITES 1).lockedFor cls inst r = false := mine
  simp [State.registerWrite, State.writeReg, offCls_regAddr (pageExists_inst pg) ho, offInst_regAddr (pageExists_inst pg) ho,
    offReg_regAddr ho, served, free, mine', other, word]

/-- A write of the lock's register, which no lock holds back. -/
theorem State.registerWrite_lock (pg : pageExists cls inst = true) (on : s.pagePowered cls inst = true)
    (free : s.accessWaits cls inst r = false) (v : Nat) :
    s.registerWrite r (regAddr cls inst 0x024) v = (s.addCnt C.GL_CNT_REG_WRITES 1).lockWrite cls inst r v := by
  have served := State.regServed_word (off := 0x024) pg on (by decide) rfl
  simp [State.registerWrite, State.writeReg, offCls_regAddr (pageExists_inst pg) (by decide : (0x024 : Nat) < 4096),
    offInst_regAddr (pageExists_inst pg) (by decide : (0x024 : Nat) < 4096), offReg_regAddr (by decide : (0x024 : Nat) < 4096),
    served, free]

theorem State.hdrRow_put (pg : pageExists cls inst = true) (hw : Writable s cls inst r) (low : off < 0x024)
    (aligned : off % 4 = 0) (v : Nat) :
    s.hdrRow r cls inst off v = (s.addCnt C.GL_CNT_REG_WRITES 1).hdrWrite cls inst off v := by
  have word : cntHere cls (off / 8 * 8) = false := cntHere_low pg (by omega)
  rw [State.hdrRow, if_pos pg, State.registerWrite_put pg hw (by omega) aligned (by omega) word, State.regPut,
    if_pos (by omega)]

/-! ## SNAP and APPLY (R536, R541) -/

theorem foldl_snap (s : State) (cls inst : Nat) (l : List Nat) (once : l.Nodup) :
    let t := l.foldl (fun (s : State) n => { s with rg.snaps := put 0 s.rg.snaps (slotKey cls inst n) (s.slot cls inst n) }) s
    t = { s with rg.snaps := t.rg.snaps } ∧
      (∀ n ∈ l, look 0 t.rg.snaps (slotKey cls inst n) = s.slot cls inst n) ∧
      ∀ n, n ∉ l → look 0 t.rg.snaps (slotKey cls inst n) = look 0 s.rg.snaps (slotKey cls inst n) := by
  induction l generalizing s with
  | nil => exact ⟨rfl, fun _ h => absurd h List.not_mem_nil, fun _ _ => rfl⟩
  | cons m l ih =>
    obtain ⟨fresh, once⟩ := List.nodup_cons.mp once
    obtain ⟨frame, taken, left⟩ := ih { s with rg.snaps := put 0 s.rg.snaps (slotKey cls inst m) (s.slot cls inst m) } once
    refine ⟨frame, fun n hn => ?_, fun n hn => ?_⟩
    · obtain rfl | hn := List.mem_cons.mp hn
      · exact (left n fresh).trans (look_put_self _ _ _ _)
      · exact taken n hn
    · obtain ⟨apart, hn⟩ := not_or.mp (mt List.mem_cons.mpr hn)
      refine (left n hn).trans (look_put_ne _ _ _ ?_)
      unfold slotKey
      omega

theorem State.snap_takes (s : State) (cls inst : Nat) :
    (∀ n, n < 12 → look 0 (s.snap cls inst).rg.snaps (slotKey cls inst n) = s.slot cls inst n) ∧
      (s.snap cls inst).cnt ⟨cls, 0x28⟩ inst = s.tm.now % 2 ^ 64 ∧ OnlyRegs s (s.snap cls inst) := by
  obtain ⟨frame, taken, -⟩ := foldl_snap s cls inst (List.range 12) List.nodup_range
  unfold State.snap
  dsimp only at frame taken ⊢
  generalize (List.range 12).foldl _ s = u at frame taken ⊢
  refine ⟨fun n hn => taken n (List.mem_range.mpr hn), ?_, ?_⟩
  · have now : u.tm = s.tm := (congrArg State.tm frame : _)
    rw [State.cnt_setCnt, now]
  · rw [frame]
    rfl

/-- A write that sets no enable and not INT_MASTER raises no interrupt. -/
theorem State.enableIntr_quiet {before after : State}
    (master : before.fld (F.PG_CTRL.INT_MASTER cls) inst = 0 → after.fld (F.PG_CTRL.INT_MASTER cls) inst ≠ 1)
    (enables : ∀ st e, intRegs cls = some (st, e) → ∀ f ∈ fieldsAt cls e, after.fld f inst = before.fld f inst) :
    before.enableIntr after cls inst = after := by
  unfold State.enableIntr
  refine if_neg fun h => ?_
  obtain ⟨gained, shown, -⟩ := h
  simp only [Bool.or_eq_true, Bool.and_eq_true, decide_eq_true_eq] at gained
  obtain ⟨zero, one⟩ | more := gained
  · exact master zero one
  · refine more ?_
    split
    · next st e found =>
      have same : (fieldsAt cls e).foldl (fun n f => n + after.fld f inst * 2 ^ f.lo) 0 =
          (fieldsAt cls e).foldl (fun n f => n + before.fld f inst * 2 ^ f.lo) 0 :=
        List.foldl_ext _ _ _ fun n f hf => by rw [enables st e found f hf]
      rw [same]
      exact Nat.or_self _
    · rfl

/-- No enable of an interrupt lies where INT_MASTER does. -/
theorem intRegs_apart (pg : pageExists cls inst = true) {st e : Nat} (found : intRegs cls = some (st, e)) {f : Field}
    (hf : f ∈ fieldsAt cls e) : fieldSlot (fieldKey f 0 0) ≠ 512 := by
  obtain ⟨p, hp, rfl, -⟩ := pageExists_listed pg
  have apart : ∀ p ∈ pageClasses, (match intRegs p.1 with
      | some r => (fieldsAt p.1 r.2).all (fun f => fieldSlot (fieldKey f 0 0) != 512) | none => true) = true := by decide
  have here := apart p hp
  rw [found] at here
  simpa using List.all_eq_true.mp here f hf

/-- Writing INT_MASTER as it stands leaves every other register, and raises nothing. -/
theorem State.hdrWrite_snap (pg : pageExists cls inst = true) (u : State) :
    ∃ x, u.hdrWrite cls inst 0x008 (2 + u.fld (F.PG_CTRL.INT_MASTER cls) inst % 2) =
      (u.setFld (F.PG_CTRL.INT_MASTER cls) x inst).snap cls inst := by
  generalize hx : u.fld (F.PG_CTRL.INT_MASTER cls) inst % 2 = x
  have part : (F.PG_CTRL.INT_MASTER cls).part (2 + x) = x := by
    have notMask : F.PG_CTRL.INT_MASTER cls ≠ F.TRC_TYPES.MASK := fun e => absurd (congrArg Field.off e) (by simp [F.PG_CTRL.INT_MASTER, F.TRC_TYPES.MASK])
    have notAddr : F.PG_CTRL.INT_MASTER cls ≠ F.STOP_CAP_ADDR.OFFSET := fun e => absurd (congrArg Field.off e) (by simp [F.PG_CTRL.INT_MASTER, F.STOP_CAP_ADDR.OFFSET])
    rw [Field.part, if_neg notMask, if_neg notAddr]
    show (2 + x) / 1 % 2 = x
    omega
  have bank : u.bankAt cls 0x008 = 0 := by
    unfold State.bankAt
    rw [if_neg (by simp [F.KVP_REG_BASE.BASE, F.KVP_REG_COUNT.N]), if_neg (by simp [F.CLK_CL_MAX.POINT, C.CLK_CNT_CYCLES]),
      if_neg (by simp [C.CL_CNT_EXEC_NS])]
  have written : u.writeFields cls inst 0x008 (2 + x) = u.setFld (F.PG_CTRL.INT_MASTER cls) x inst := by
    have fields : fieldsAt cls 0x008 = [F.PG_CTRL.INT_MASTER cls, F.PG_CTRL.SNAP cls] := rfl
    unfold State.writeFields
    rw [fields, bank]
    show (u.writeField inst 0 (2 + x) (F.PG_CTRL.INT_MASTER cls)).1 = _
    show u.setFld (F.PG_CTRL.INT_MASTER cls) ((F.PG_CTRL.INT_MASTER cls).part (2 + x)) inst 0 = _
    rw [part]
  have quiet : u.enableIntr (u.setFld (F.PG_CTRL.INT_MASTER cls) x inst) cls inst = u.setFld (F.PG_CTRL.INT_MASTER cls) x inst := by
    refine State.enableIntr_quiet (fun zero one => ?_) fun st e found f hf => ?_
    · rw [zero] at hx
      rw [State.fld_setFld, ← hx] at one
      exact absurd one (by simp)
    · refine State.fld_setFld_slot _ ?_ _ _ _ _ _
      have here : fieldSlot (fieldKey (F.PG_CTRL.INT_MASTER cls) 0 0) = 512 := by
        simp only [fieldSlot, fieldKey, F.PG_CTRL.INT_MASTER]
        omega
      rw [here]
      exact intRegs_apart pg found hf
  have asks : bit (2 + x) 1 = true := by
    have : x = 0 ∨ x = 1 := by omega
    obtain rfl | rfl := this <;> rfl
  refine ⟨x, ?_⟩
  unfold State.hdrWrite
  simp only [written, quiet, asks, if_true]

theorem snap_row (pg : pageExists cls inst = true) (hw : Writable s cls inst r) :
    ∃ t, exec (.snap r cls inst) s = .next t ∧
      (∀ n, n < 12 → look 0 t.rg.snaps (slotKey cls inst n) = s.slot cls inst n) ∧
      t.cnt ⟨cls, 0x28⟩ inst = s.tm.now % 2 ^ 64 ∧ SameWork s t ∧ t.mm = s.mm := by
  obtain ⟨x, written⟩ := State.hdrWrite_snap pg (s.addCnt C.GL_CNT_REG_WRITES 1)
  have ran : s.hdrRow r cls inst 0x008 (2 + s.fld (F.PG_CTRL.INT_MASTER cls) inst % 2) =
      (((s.addCnt C.GL_CNT_REG_WRITES 1).setFld (F.PG_CTRL.INT_MASTER cls) x inst).snap cls inst) :=
    (State.hdrRow_put pg hw (by decide) rfl _).trans written
  obtain ⟨taken, time, frame⟩ := ((s.addCnt C.GL_CNT_REG_WRITES 1).setFld (F.PG_CTRL.INT_MASTER cls) x inst).snap_takes cls inst
  refine ⟨_, congrArg Host.Outcome.next ran, taken, time, ?_, ?_⟩ <;> rw [frame]
  · exact ⟨rfl, rfl, rfl, rfl, rfl⟩
  · rfl

/-- The parts of a key are those it is made of. -/
theorem keyParts_fieldKey {f : Field} {b : Nat} (hi : inst < 256) (hb : b < 4096) (ho : f.off < 4096) (hl : f.lo < 64) :
    keyParts (fieldKey f inst b) = { cls := f.cls, inst := inst, bank := b, off := f.off, lo := f.lo } := by
  unfold keyParts fieldKey
  simp only [KeyParts.mk.injEq]
  omega

theorem State.applyField_held (s : State) {f : Field} {b v : Nat} (held : look 0 s.rg.held (fieldKey f inst b) = v + 1) :
    (s.applyField f inst b).fld f inst b = v % 2 ^ f.width ∧ look 0 (s.applyField f inst b).rg.held (fieldKey f inst b) = 0 := by
  have ran : s.applyField f inst b = { s.setFld f v inst b with rg.held := put 0 s.rg.held (fieldKey f inst b) 0 } := by
    unfold State.applyField
    rw [held]
    rfl
  rw [ran]
  exact ⟨State.fld_setFld _ _ _ _ _, look_put_self _ _ _ _⟩

theorem State.applyField_not_held (s : State) {f : Field} {i b : Nat} (none : look 0 s.rg.held (fieldKey f i b) = 0) :
    s.applyField f i b = s := by
  unfold State.applyField
  rw [none]

theorem State.applyField_others (s : State) {f g : Field} {i b j c : Nat} (apart : fieldKey g j c ≠ fieldKey f i b) :
    (s.applyField f i b).fld g j c = s.fld g j c ∧
      look 0 (s.applyField f i b).rg.held (fieldKey g j c) = look 0 s.rg.held (fieldKey g j c) := by
  unfold State.applyField
  split
  · exact ⟨rfl, rfl⟩
  · exact ⟨State.fld_setFld_ne _ _ _ _ _ _ _ _ apart, look_put_ne _ _ _ apart⟩

/-- One held key's share of an APPLY. -/
def State.applyKey (cls inst : Nat) (s : State) (k : Nat) : State :=
  match (fieldsAt (keyParts k).cls (keyParts k).off).find? (fun f => f.lo == (keyParts k).lo) with
  | some f => if (decide ((keyParts k).cls = cls) && decide ((keyParts k).inst = inst)) = true
    then s.applyField f (keyParts k).inst (keyParts k).bank else s
  | none => s

theorem State.pgApply_eq (s : State) (cls inst : Nat) :
    s.pgApply cls inst = (s.rg.held.map (·.1)).foldl (State.applyKey cls inst) s := rfl

theorem State.applyKey_frame (s : State) (k : Nat) :
    s.applyKey cls inst k = { s with rg := (s.applyKey cls inst k).rg } := by
  unfold State.applyKey
  split
  · split
    · rw [State.applyField_frame]
    · rfl
  · rfl

theorem fieldsAt_off {f : Field} (h : f ∈ fieldsAt cls off) : f.off = off := by
  unfold fieldsAt at h
  split at h
  · simpa using (List.mem_filter.mp h).2
  · split at h
    · obtain ⟨g, -, rfl⟩ := List.mem_map.mp h
      rfl
    · simpa using (List.mem_filter.mp h).2

/-- A key other than the field's leaves the field and what it holds. -/
theorem State.applyKey_others (s : State) {f : Field} {b k : Nat} (hi : inst < 256) (hb : b < 4096) (ho : f.off < 4096)
    (hl : f.lo < 64) (apart : k ≠ fieldKey f inst b) :
    (s.applyKey f.cls inst k).fld f inst b = s.fld f inst b ∧
      look 0 (s.applyKey f.cls inst k).rg.held (fieldKey f inst b) = look 0 s.rg.held (fieldKey f inst b) := by
  unfold State.applyKey
  split
  · next g found =>
    split
    · next selected =>
      obtain ⟨cls_k, inst_k⟩ : (keyParts k).cls = f.cls ∧ (keyParts k).inst = inst := by simpa using selected
      have off_g : g.off = (keyParts k).off := fieldsAt_off (List.mem_of_find?_eq_some found)
      have lo_g : g.lo = (keyParts k).lo := by simpa using List.find?_some found
      refine s.applyField_others fun same => apart ?_
      unfold fieldKey at same ⊢
      unfold keyParts at cls_k inst_k off_g lo_g same
      dsimp only at cls_k inst_k off_g lo_g same
      omega
    · exact ⟨rfl, rfl⟩
  · exact ⟨rfl, rfl⟩

/-- The field's own key, with nothing else at its place, puts what it holds in force. -/
theorem State.applyKey_own (s : State) {f : Field} {b : Nat} (hi : inst < 256) (hb : b < 4096) (ho : f.off < 4096)
    (hl : f.lo < 64) (there : f ∈ fieldsAt f.cls f.off) (alone : ∀ g ∈ fieldsAt f.cls f.off, g.lo = f.lo → g = f) :
    s.applyKey f.cls inst (fieldKey f inst b) = s.applyField f inst b := by
  have found : (fieldsAt f.cls f.off).find? (fun g => g.lo == f.lo) = some f := by
    cases h : (fieldsAt f.cls f.off).find? (fun g => g.lo == f.lo) with
    | none => exact absurd (List.find?_eq_none.mp h f there) (by simp)
    | some g => rw [alone g (List.mem_of_find?_eq_some h) (by simpa using List.find?_some h)]
  unfold State.applyKey
  simp only [keyParts_fieldKey hi hb ho hl, found, decide_true, Bool.and_self, if_true]

theorem foldl_applyKey_frame (s : State) (l : List Nat) :
    l.foldl (State.applyKey cls inst) s = { s with rg := (l.foldl (State.applyKey cls inst) s).rg } := by
  induction l generalizing s with
  | nil => rfl
  | cons k l ih =>
    rw [List.foldl_cons]
    refine (ih _).trans ?_
    rw [s.applyKey_frame k]

/-- Past the field's own key nothing is held for it, and it stays. -/
theorem foldl_applyKey (s : State) {f : Field} {b : Nat} (hi : inst < 256) (hb : b < 4096) (ho : f.off < 4096)
    (hl : f.lo < 64) (there : f ∈ fieldsAt f.cls f.off) (alone : ∀ g ∈ fieldsAt f.cls f.off, g.lo = f.lo → g = f) (l : List Nat) :
    (look 0 s.rg.held (fieldKey f inst b) = 0 → (l.foldl (State.applyKey f.cls inst) s).fld f inst b = s.fld f inst b) ∧
    (∀ v, look 0 s.rg.held (fieldKey f inst b) = v + 1 → fieldKey f inst b ∈ l →
      (l.foldl (State.applyKey f.cls inst) s).fld f inst b = v % 2 ^ f.width) := by
  induction l generalizing s with
  | nil => exact ⟨fun _ => rfl, fun _ _ h => absurd h List.not_mem_nil⟩
  | cons k l ih =>
    obtain ⟨settled, pending⟩ := ih (s.applyKey f.cls inst k)
    by_cases e : k = fieldKey f inst b
    · subst e
      rw [State.applyKey_own s hi hb ho hl there alone] at settled pending
      simp only [List.foldl_cons, State.applyKey_own s hi hb ho hl there alone]
      refine ⟨fun none => ?_, fun v held _ => ?_⟩
      · rw [State.applyField_not_held s none] at settled ⊢
        exact settled none
      · obtain ⟨value, gone⟩ := s.applyField_held held
        exact (settled gone).trans value
    · obtain ⟨value, held⟩ := s.applyKey_others hi hb ho hl e
      rw [held, value] at settled
      rw [held] at pending
      refine ⟨settled, fun v hv hk => pending v hv ?_⟩
      exact (List.mem_cons.mp hk).resolve_left fun h => e h.symm

theorem pgApply_row (pg : pageExists cls inst = true) (hw : Writable s cls inst r) :
    ∃ t, exec (.pgApply r cls inst) s = .next t ∧
      (∀ f ∈ fieldsAt cls f.off, f.cls = cls → (∀ g ∈ fieldsAt cls f.off, g.lo = f.lo → g = f) → f.off < 4096 → f.lo < 64 →
        ∀ b, b < 4096 → ∀ v, look 0 s.rg.held (fieldKey f inst b) = v + 1 → t.fld f inst b = v % 2 ^ f.width) ∧
      SameWork s t ∧ t.mm = s.mm := by
  have ran : s.hdrRow r cls inst 0x01C 1 = (s.addCnt C.GL_CNT_REG_WRITES 1).pgApply cls inst :=
    (State.hdrRow_put pg hw (by decide) rfl _).trans rfl
  have frame := foldl_applyKey_frame (cls := cls) (inst := inst) (s.addCnt C.GL_CNT_REG_WRITES 1) (s.rg.held.map (·.1))
  refine ⟨_, congrArg Host.Outcome.next (ran.trans (State.pgApply_eq _ _ _)), fun f there same alone ho hl b hb v held => ?_, ?_, ?_⟩
  · subst same
    have listed : fieldKey f inst b ∈ s.rg.held.map (·.1) := by
      have mem := look_mem (d := 0) (m := s.rg.held) (k := fieldKey f inst b) (by rw [held]; omega)
      exact List.mem_map.mpr ⟨_, mem, rfl⟩
    exact (foldl_applyKey (s.addCnt C.GL_CNT_REG_WRITES 1) (pageExists_inst pg) hb ho hl there alone _).2 v held listed
  · refine (?_ : SameWork s ((s.rg.held.map (·.1)).foldl (State.applyKey cls inst) (s.addCnt C.GL_CNT_REG_WRITES 1)))
    rw [frame]
    exact ⟨rfl, rfl, rfl, rfl, rfl⟩
  · exact (congrArg State.mm frame : _)

/-! ## The lock (R545) -/

theorem requesterCode_small (r : Requester) : requesterCode r % 4 = requesterCode r := by cases r <;> rfl

theorem take_row (pg : pageExists cls inst = true) (on : s.pagePowered cls inst = true) (free : s.accessWaits cls inst r = false) :
    ∃ t, exec (.take r cls inst) s = .next t ∧
      t.fld (F.PG_LOCK.HOLDER cls) inst = (if s.fld (F.PG_LOCK.HOLDER cls) inst = 0 then requesterCode r
        else s.fld (F.PG_LOCK.HOLDER cls) inst) ∧
      FieldsBut s t [fieldKey (F.PG_LOCK.HOLDER cls) inst 0] ∧ OnlyRegs s t := by
  have ran : s.hdrRow r cls inst 0x024 16 = (s.addCnt C.GL_CNT_REG_WRITES 1).takeLock cls inst r :=
    (if_pos pg).trans (State.registerWrite_lock pg on free _)
  refine ⟨_, congrArg Host.Outcome.next ran, ?_⟩
  unfold State.takeLock
  by_cases none : s.fld (F.PG_LOCK.HOLDER cls) inst = 0
  · rw [if_pos none, if_pos (by exact none)]
    exact ⟨(State.fld_setFld _ _ _ _ _).trans (requesterCode_small r),
      (FieldsBut.refl s _).addCnt.setFld (List.mem_singleton_self _), rfl⟩
  · rw [if_neg none, if_neg (by exact none)]
    exact ⟨rfl, (FieldsBut.refl s _).addCnt, rfl⟩

theorem give_row (pg : pageExists cls inst = true) (on : s.pagePowered cls inst = true) (free : s.accessWaits cls inst r = false) :
    ∃ t, exec (.give r cls inst) s = .next t ∧
      (s.fld (F.PG_LOCK.HOLDER cls) inst = requesterCode r ∨ r = .firmware → t.fld (F.PG_LOCK.HOLDER cls) inst = 0) ∧
      (s.fld (F.PG_LOCK.HOLDER cls) inst ≠ requesterCode r → r = .host →
        t.fld (F.PG_LOCK.HOLDER cls) inst = s.fld (F.PG_LOCK.HOLDER cls) inst) ∧
      FieldsBut s t [fieldKey (F.PG_LOCK.HOLDER cls) inst 0] ∧ OnlyRegs s t := by
  let u := s.addCnt C.GL_CNT_REG_WRITES 1
  have ran : s.hdrRow r cls inst 0x024 32 = u.giveLock cls inst r := (if_pos pg).trans (State.registerWrite_lock pg on free _)
  refine ⟨_, congrArg Host.Outcome.next ran, ?_⟩
  unfold State.giveLock
  dsimp only
  split
  · next gives =>
    refine ⟨fun _ => State.fld_setFld _ _ _ _ _, fun other host => ?_,
      (FieldsBut.refl s _).addCnt.setFld (List.mem_singleton_self _), rfl⟩
    obtain mine | firm | ⟨mgmt, -⟩ := gives
    · exact absurd mine other
    · rw [host] at firm
      cases firm
    · rw [host] at mgmt
      cases mgmt
  · next keeps =>
    obtain ⟨other, keeps⟩ := not_or.mp keeps
    obtain ⟨notFirm, -⟩ := not_or.mp keeps
    exact ⟨fun h => absurd h (not_or.mpr ⟨other, notFirm⟩), fun _ _ => rfl, (FieldsBut.refl s _).addCnt, rfl⟩

/-! ## The two reads with an effect (R519, R544) -/

theorem stopCapData_reads (on : s.pagePowered 0x43 0 = true) (free : s.accessWaits 0x43 0 r = false) :
    ∃ t, exec (.stopCapData r) s = .next t ∧
      t.fld F.STOP_CAP_ADDR.OFFSET = (s.fld F.STOP_CAP_ADDR.OFFSET / 8 * 8 + 8) % 2 ^ 23 ∧ OnlyRegs s t := by
  have served : s.regServed (regAddr 0x43 0 C.STOP_CAP_DATA.off) 8 = true := by
    unfold State.regServed
    have place : offCls (regAddr 0x43 0 C.STOP_CAP_DATA.off) = 0x43 ∧ offInst (regAddr 0x43 0 C.STOP_CAP_DATA.off) = 0 := by decide
    have word : (pageExists 0x43 0 && ((8 = 4 && regAddr 0x43 0 C.STOP_CAP_DATA.off % 4 = 0) ||
        (8 = 8 && regAddr 0x43 0 C.STOP_CAP_DATA.off % 8 = 0 && cntHere 0x43 (offReg (regAddr 0x43 0 C.STOP_CAP_DATA.off))))) = true := by
      decide
    rw [place.1, place.2, on]
    exact word
  have ran : s.registerRead r (regAddr 0x43 0 C.STOP_CAP_DATA.off) 8 =
      (s.addCnt C.GL_CNT_REG_READS 1).setFld F.STOP_CAP_ADDR.OFFSET
        ((s.fld F.STOP_CAP_ADDR.OFFSET / 8 * 8 + 8) % 2 ^ 23) := by
    have place : offCls (regAddr 0x43 0 C.STOP_CAP_DATA.off) = 0x43 ∧ offInst (regAddr 0x43 0 C.STOP_CAP_DATA.off) = 0 := by decide
    unfold State.registerRead State.readReg
    dsimp only
    rw [place.1, place.2, served, free]
    simp only [debugPage]
    simp
    rfl
  refine ⟨_, congrArg Host.Outcome.next ran, ?_, rfl⟩
  exact (State.fld_setFld _ _ _ _ _).trans (Nat.mod_mod _ (2 ^ 23))

theorem seqStatus_reads {cl : Fin 256} (on : s.pagePowered 0x11 cl = true) (free : s.accessWaits 0x11 cl r = false)
    (running : s.stopState = 0) :
    ∃ t, exec (.seqStatus r cl) s = .next t ∧ t.fld F.SEQ_STATUS.FENCED cl = 0 ∧
      FieldsBut s t [fieldKey F.SEQ_STATUS.FENCED cl 0] ∧ OnlyRegs s t := by
  have pg : pageExists 0x11 cl = true := decide_eq_true cl.isLt
  have small : F.SEQ_STATUS.FENCED.off < 4096 := by decide
  have served := State.regServed_word (off := F.SEQ_STATUS.FENCED.off) pg on small rfl
  have free' : s.accessWaits (offCls (regAddr 0x11 cl F.SEQ_STATUS.FENCED.off)) (offInst (regAddr 0x11 cl F.SEQ_STATUS.FENCED.off)) r = false := by
    rw [offCls_regAddr cl.isLt small, offInst_regAddr cl.isLt small]
    exact free
  have effect : (s.addCnt C.GL_CNT_REG_READS 1).readEffect (regAddr 0x11 cl F.SEQ_STATUS.FENCED.off) =
      (s.addCnt C.GL_CNT_REG_READS 1).setFld F.SEQ_STATUS.FENCED 0 cl := by
    unfold State.readEffect
    rw [offCls_regAddr cl.isLt small, offInst_regAddr cl.isLt small, offReg_regAddr small]
    rfl
  have ran : s.registerRead r (regAddr 0x11 cl F.SEQ_STATUS.FENCED.off) 4 =
      (s.addCnt C.GL_CNT_REG_READS 1).setFld F.SEQ_STATUS.FENCED 0 cl := by
    rw [State.registerRead, State.readReg_served running served free', ← effect]
  refine ⟨_, congrArg Host.Outcome.next ran, State.fld_setFld _ _ _ _ _, ?_, rfl⟩
  exact (FieldsBut.refl s _).addCnt.setFld (List.mem_singleton_self _)
end

/-- Settles O35: each operation by the write or read that it is. -/
theorem headerOperations : Obligations.HeaderOperations :=
  fun _ _ _ _ pg => ⟨fun hw => ⟨snap_row pg hw, pgApply_row pg hw⟩, fun on free => ⟨take_row pg on free, give_row pg on free⟩,
    stopCapData_reads, fun _ => seqStatus_reads⟩

end Sys2Proof.Machine
end

section
/-! SUPPORT. Writes of a register of one field (R17, R539, R540, R574). -/

namespace Sys2Proof.Machine

section
variable {s u : State} {f : Field} {inst b v : Nat}

theorem Field.part_lt (f : Field) (v : Nat) : f.part v < 2 ^ f.width := by
  have small : v / 2 ^ f.lo % 2 ^ f.width < 2 ^ f.width := Nat.mod_lt _ (Nat.two_pow_pos _)
  unfold Field.part
  dsimp only
  split
  · omega
  · split
    · omega
    · exact small

/-- A register of one field written: the field by its kind, and WRITE_REJECT where it is refused. -/
theorem State.writeFields_one (u : State) {cls off : Nat} (alone : fieldsAt cls off = [f]) (inst v : Nat) :
    u.writeFields cls inst off v =
      if (u.writeField inst (u.bankAt cls off) v f).2 then (u.writeField inst (u.bankAt cls off) v f).1.reject cls inst
      else (u.writeField inst (u.bankAt cls off) v f).1 := by
  unfold State.writeFields
  rw [alone]
  simp

/-- The interrupt that an enable may raise leaves the fields, what is held, memory and work. -/
theorem State.enableIntr_frame (before after : State) (cls inst : Nat) :
    (before.enableIntr after cls inst).rg.fields = after.rg.fields ∧ (before.enableIntr after cls inst).rg.held = after.rg.held ∧
      (before.enableIntr after cls inst).mm = after.mm ∧ SameWork after (before.enableIntr after cls inst) := by
  have raised : (after.blockIntr cls inst).rg.fields = after.rg.fields ∧ (after.blockIntr cls inst).rg.held = after.rg.held ∧
      (after.blockIntr cls inst).mm = after.mm ∧ SameWork after (after.blockIntr cls inst) := by
    unfold State.blockIntr State.intr
    have held : ∀ o : Out, (after.emit o).rg.held = after.rg.held := fun o => by rw [State.emit_frame]
    exact ⟨State.emit_fields _ _, held _, State.emit_mm _ _, State.emit_cq _ _, State.emit_wh _ _, State.emit_kv _ _,
      State.emit_tl _ _, State.emit_sc _ _⟩
  have either : before.enableIntr after cls inst = after.blockIntr cls inst ∨ before.enableIntr after cls inst = after := by
    unfold State.enableIntr
    exact ite_eq_or_eq _ _ _
  obtain same | same := either <;> rw [same]
  · exact raised
  · exact ⟨rfl, rfl, rfl, rfl, rfl, rfl, rfl, rfl⟩

/-- How one field takes its part `x` of a write: the state it leaves, and whether it refuses. -/
def FieldTakes (s : State) (f : Field) (inst b x : Nat) (busy : Bool) (t : State) (refused : Bool) : Prop :=
  (f.acc = .ro → t.rg.fields = s.rg.fields ∧ refused = false) ∧
  (f.acc = .rwl ∨ f.acc = .rws ∨ f.acc = .rwb → f.rsv.contains x = true → t.fld f inst b = s.fld f inst b ∧ refused = true) ∧
  (f.acc = .rwl → f.rsv.contains x = false → t.fld f inst b = x) ∧
  (f.acc = .rws → f.rsv.contains x = false → x ≠ s.fld f inst b →
    (busy = false → t.fld f inst b = x) ∧ (busy = true → t.fld f inst b = s.fld f inst b ∧ refused = true)) ∧
  (f.acc = .rwb → f.rsv.contains x = false →
    t.fldShown f inst b = x ∧ (busy = false → t.fld f inst b = x) ∧ (busy = true → t.fld f inst b = s.fld f inst b)) ∧
  (f.acc = .w1c → t.fld f inst b = (if x = 0 then s.fld f inst b
    else Nat.xor (s.fld f inst b) (Nat.land (s.fld f inst b) x) % 2 ^ f.width)) ∧
  FieldsBut s t [fieldKey f inst b] ∧ OnlyRegs s t

theorem State.writeField_takes (s : State) (f : Field) (inst b v : Nat) :
    FieldTakes s f inst b (f.part v) (s.blockBusy f.cls inst f.blk f.off) (s.writeField inst b v f).1 (s.writeField inst b v f).2 := by
  have fits : f.part v % 2 ^ f.width = f.part v := Nat.mod_eq_of_lt (f.part_lt v)
  have set : ∀ x, FieldsBut s (s.setFld f x inst b) [fieldKey f inst b] := fun x =>
    (FieldsBut.refl s _).setFld (List.mem_singleton_self _)
  have value : (s.setFld f (f.part v) inst b).fld f inst b = f.part v := (State.fld_setFld _ _ _ _ _).trans fits
  unfold FieldTakes State.writeField
  generalize f.part v = x at fits value ⊢
  dsimp only
  cases kind : f.acc <;> simp only [reduceCtorEq, false_implies, true_and, or_false, false_or, true_implies, and_true]
  case ro => exact ⟨.refl s _, rfl⟩
  case wo => exact ⟨.refl s _, rfl⟩
  case w1c =>
    split
    · exact ⟨rfl, .refl s _, rfl⟩
    · exact ⟨State.fld_setFld _ _ _ _ _, set _, rfl⟩
  case rwl =>
    by_cases bad : f.rsv.contains x = true
    · rw [if_pos bad]
      exact ⟨fun _ => ⟨rfl, rfl⟩, fun ok => absurd ok (by rw [bad]; decide), .refl s _, rfl⟩
    · rw [if_neg bad]
      exact ⟨fun h => absurd h bad, fun _ => value, set _, rfl⟩
  case rws =>
    by_cases bad : f.rsv.contains x = true
    · rw [if_pos bad]
      exact ⟨fun _ => ⟨rfl, rfl⟩, fun ok => absurd ok (by rw [bad]; decide), .refl s _, rfl⟩
    · rw [if_neg bad]
      by_cases same : x = s.fld f inst b
      · rw [if_pos same]
        exact ⟨fun h => absurd h bad, fun _ h => absurd same h, .refl s _, rfl⟩
      · rw [if_neg same]
        cases s.blockBusy f.cls inst f.blk f.off with
        | true => exact ⟨fun h => absurd h bad, fun _ _ => ⟨fun h => (nomatch h), fun _ => ⟨rfl, rfl⟩⟩, .refl s _, rfl⟩
        | false => exact ⟨fun h => absurd h bad, fun _ _ => ⟨fun _ => value, fun h => (nomatch h)⟩, set _, rfl⟩
  case rwb =>
    by_cases bad : f.rsv.contains x = true
    · rw [if_pos bad]
      exact ⟨fun _ => ⟨rfl, rfl⟩, fun ok => absurd ok (by rw [bad]; decide), .refl s _, rfl⟩
    · rw [if_neg bad]
      cases s.blockBusy f.cls inst f.blk f.off with
      | true =>
        have shown : (s.holdField f inst b x).fldShown f inst b = x := by
          have held : look 0 (s.holdField f inst b x).rg.held (fieldKey f inst b) = x + 1 := look_put_self _ _ _ _
          rw [State.fldShown, held]
        exact ⟨fun h => absurd h bad, fun _ => ⟨shown, fun h => (nomatch h), fun _ => rfl⟩, .refl s _, rfl⟩
      | false =>
        have shown : (s.takeField f inst b x).fldShown f inst b = x := by
          have held : look 0 (s.takeField f inst b x).rg.held (fieldKey f inst b) = 0 := look_put_self _ _ _ _
          rw [State.fldShown, held]
          exact value
        exact ⟨fun h => absurd h bad, fun _ => ⟨shown, fun _ => value, fun h => (nomatch h)⟩, set _, rfl⟩

theorem fieldsAt_lo {cls off : Nat} (pg : pageExists cls inst = true) (block : 0x100 ≤ off) (small : off < 0x400)
    (there : f ∈ fieldsAt cls off) : f.lo < 64 := by
  obtain ⟨p, hp, rfl, -⟩ := pageExists_listed pg
  have low : ∀ p ∈ pageClasses, ∀ g ∈ blockFields p.1, g.lo < 64 := by decide
  unfold fieldsAt at there
  rw [if_neg (by omega), if_neg (by omega)] at there
  exact low p hp f (List.mem_filter.mp there).1

/-- WRITE_REJECT lies in the header. -/
theorem writeReject_apart (i b : Nat) (block : 0x100 ≤ f.off) (small : f.off < 0x400) (lo : f.lo < 64) :
    fieldKey f inst b ≠ fieldKey (F.PG_STATUS.WRITE_REJECT f.cls) i 0 := by
  simp only [fieldKey, F.PG_STATUS.WRITE_REJECT]
  omega

theorem registerWrite_writes {r : Requester} {w : W32} (there : f ∈ fieldsAt f.cls f.off) (alone : fieldsAt f.cls f.off = [f])
    (block : 0x100 ≤ f.off) (small : f.off < 0x400) (aligned : f.off % 4 = 0) (word : cntHere f.cls (f.off / 8 * 8) = false)
    (pg : pageExists f.cls inst = true) (hw : Writable s f.cls inst r)
    (plain : ∀ u : State, (u.startsOp r f.cls inst f.off w.toNat).isNone = true) :
    let x := f.part w.toNat
    let b := s.bankAt f.cls f.off
    let busy := s.blockBusy f.cls inst f.blk f.off
    ∃ t, exec (.registerWrite r (regAddr f.cls inst f.off) w) s = .next t ∧
      (f.acc = .ro → t.rg.fields = s.rg.fields) ∧
      (f.acc = .rwl ∨ f.acc = .rws ∨ f.acc = .rwb → f.rsv.contains x = true → t.fld f inst b = s.fld f inst b ∧
        t.fld (F.PG_STATUS.WRITE_REJECT f.cls) inst = 1) ∧
      (f.acc = .rwl → f.rsv.contains x = false → t.fld f inst b = x) ∧
      (f.acc = .rws → f.rsv.contains x = false → x ≠ s.fld f inst b →
        (busy = false → t.fld f inst b = x) ∧
        (busy = true → t.fld f inst b = s.fld f inst b ∧ t.fld (F.PG_STATUS.WRITE_REJECT f.cls) inst = 1)) ∧
      (f.acc = .rwb → f.rsv.contains x = false →
        t.fldShown f inst b = x ∧ (busy = false → t.fld f inst b = x) ∧
        (busy = true → t.fld f inst b = s.fld f inst b)) ∧
      (f.acc = .w1c → t.fld f inst b = (if x = 0 then s.fld f inst b
        else Nat.xor (s.fld f inst b) (Nat.land (s.fld f inst b) x) % 2 ^ f.width)) ∧
      FieldsBut s t [fieldKey f inst b, fieldKey (F.PG_STATUS.WRITE_REJECT f.cls) inst 0] ∧ SameWork s t ∧ t.mm = s.mm := by
  intro x b busy
  let u := s.addCnt C.GL_CNT_REG_WRITES 1
  have ran : s.registerWrite r (regAddr f.cls inst f.off) w.toNat =
      u.enableIntr (u.writeFields f.cls inst f.off w.toNat) f.cls inst := by
    rw [State.registerWrite_put pg hw (by omega) aligned (by omega) word, State.regPut, if_neg (by omega), if_neg (by omega),
      Option.isNone_iff_eq_none.mp (plain u)]
  have lo := fieldsAt_lo pg block small there
  have takes := u.writeField_takes f inst b w.toNat
  have written : u.writeFields f.cls inst f.off w.toNat =
      if (u.writeField inst b w.toNat f).2 then (u.writeField inst b w.toNat f).1.reject f.cls inst
      else (u.writeField inst b w.toNat f).1 := u.writeFields_one alone inst w.toNat
  obtain ⟨fields, held, memory, work⟩ := u.enableIntr_frame (u.writeFields f.cls inst f.off w.toNat) f.cls inst
  rw [← ran] at fields held memory work
  refine ⟨_, rfl, ?_⟩
  clear ran
  generalize s.registerWrite r (regAddr f.cls inst f.off) w.toNat = t at fields held memory work ⊢
  generalize u.writeFields f.cls inst f.off w.toNat = y at written fields held memory work
  generalize (u.writeField inst b w.toNat f).1 = z at takes written
  generalize (u.writeField inst b w.toNat f).2 = refused at takes written
  obtain ⟨ro, bad, live, static_, shadowed, status, others, frame⟩ := takes
  have value : t.fld f inst b = z.fld f inst b := by
    rw [State.fld, fields, written]
    split
    · exact State.fld_setFld_ne _ _ _ _ _ _ _ _ (writeReject_apart inst b block small lo)
    · rfl
  have shown : t.fldShown f inst b = z.fldShown f inst b := by
    have same : look 0 t.rg.held (fieldKey f inst b) = look 0 z.rg.held (fieldKey f inst b) := by
      rw [held, written]
      split <;> rfl
    unfold State.fldShown
    rw [same, value]
  have rejected : refused = true → t.fld (F.PG_STATUS.WRITE_REJECT f.cls) inst = 1 := fun h => by
    rw [State.fld, fields, written, if_pos h]
    exact State.fld_setFld _ _ _ _ _
  have memory_z : y.mm = s.mm ∧ SameWork s y := by
    rw [written]
    split <;> rw [frame] <;> exact ⟨rfl, rfl, rfl, rfl, rfl, rfl⟩
  refine ⟨fun h => ?_, fun h taken => ?_, fun h taken => ?_, fun h taken new => ?_,
    fun h taken => ?_, fun h => ?_, ?_, ?_, memory.trans memory_z.1⟩
  · obtain ⟨same, none⟩ := ro h
    rw [fields, written, if_neg (by rw [none]; decide), same]
    rfl
  · exact (bad h taken).imp value.trans rejected
  · exact value.trans (live h taken)
  · obtain ⟨idle, held'⟩ := static_ h taken new
    exact ⟨fun e => value.trans (idle e), fun e => (held' e).imp value.trans rejected⟩
  · obtain ⟨all, idle, kept⟩ := shadowed h taken
    exact ⟨shown.trans all, fun e => value.trans (idle e), fun e => value.trans (kept e)⟩
  · exact value.trans (status h)
  · intro k hk d
    obtain ⟨own, reject⟩ : k ≠ fieldKey f inst b ∧ k ≠ fieldKey (F.PG_STATUS.WRITE_REJECT f.cls) inst 0 := by simpa using hk
    rw [fields, written]
    refine Eq.trans ?_ (others k (by simpa using own) d)
    split
    · exact look_put_other _ _ reject
    · rfl
  · obtain ⟨cq, wh, kv, tl, sc⟩ := work
    obtain ⟨cq', wh', kv', tl', sc'⟩ := memory_z.2
    exact ⟨cq.trans cq', wh.trans wh', kv.trans kv', tl.trans tl', sc.trans sc'⟩
end

/-- Settles O34: the field by its kind, then the refusal and the interrupt that the write may raise. -/
theorem registerWrites : Obligations.RegisterWrites :=
  fun _ _ _ _ _ there alone block small aligned word pg hw plain =>
    registerWrite_writes there alone block small aligned word pg hw plain

end Sys2Proof.Machine
end

section
/-! SUPPORT. Unit reads of HBM released to their cores (R299, R300, R353, R407). -/

namespace Sys2Proof.Machine

section
variable {s : State} {i : Fin 12} {pc : Fin 64} {r : UnitRead}

@[simp] theorem UnitRead.deliver_length (r : UnitRead) (d : List Byte) : (r.deliver d).length = d.length := by
  unfold UnitRead.deliver
  split
  · exact List.length_map _
  · rfl

/-- The recall of one line, where the host holds it modified. -/
def State.recallHeld (w : List RecallWait) (s : State) (u : Nat) : State :=
  match s.held? u with
  | some h => if h.modified then s.recall u w else s
  | none => s

/-- What a recall leaves, and that what is recalled stays so. -/
theorem State.recall_recalls (s : State) (u : Nat) (w : List RecallWait) :
    (s.recall u w).hl.recalls.any (fun x => x.line == u) = true ∧
      ∀ l, s.hl.recalls.any (fun x => x.line == l) = true → (s.recall u w).hl.recalls.any (fun x => x.line == l) = true := by
  have maps : ∀ l, (s.hl.recalls.map (fun r => if r.line == u then { r with waits := r.waits ++ w } else r)).any
      (fun x => x.line == l) = s.hl.recalls.any (fun x => x.line == l) := by
    intro l
    rw [List.any_map]
    congr 1
    funext x
    dsimp only [Function.comp]
    split <;> rfl
  unfold State.recall
  split
  · next there => exact ⟨(maps u).trans there, fun l h => (maps l).trans h⟩
  · dsimp only
    generalize hv : ({ s with
      hl.recalls := s.hl.recalls ++ [{ line := u, tag := s.hl.nextTag, at_ := s.tm.now, waits := w }]
      hl.nextTag := (s.hl.nextTag + 1) % 4096 } : State) = v
    have recalls : ((v.emit (.recall u s.hl.nextTag)).addCnt C.HL_CNT_RECALLS 1).hl.recalls =
        s.hl.recalls ++ [{ line := u, tag := s.hl.nextTag, at_ := s.tm.now, waits := w }] := by
      show (v.emit (.recall u s.hl.nextTag)).hl.recalls = _
      rw [State.emit_frame, ← hv]
    rw [recalls]
    exact ⟨by simp, fun l h => by rw [List.any_append, h, Bool.true_or]⟩

theorem State.recallHeld_leaves (w : List RecallWait) (s : State) (u : Nat) :
    (s.recallHeld w u).hl.filter = s.hl.filter ∧ (s.recallHeld w u).tl = s.tl ∧ (s.recallHeld w u).mm = s.mm ∧
      (s.recallHeld w u).cq = s.cq ∧
      (∀ l, s.hl.recalls.any (fun x => x.line == l) = true → (s.recallHeld w u).hl.recalls.any (fun x => x.line == l) = true) := by
  unfold State.recallHeld
  split
  · split
    · exact ⟨by rw [State.recall_frame], State.recall_tl _ _ _, State.recall_mm _ _ _, State.recall_cq _ _ _,
        (s.recall_recalls u w).2⟩
    · exact ⟨rfl, rfl, rfl, rfl, fun _ h => h⟩
  · exact ⟨rfl, rfl, rfl, rfl, fun _ h => h⟩

theorem foldl_recallHeld (w : List RecallWait) (l : List Nat) (s : State) :
    (l.foldl (State.recallHeld w) s).tl = s.tl ∧ (l.foldl (State.recallHeld w) s).mm = s.mm ∧
      (l.foldl (State.recallHeld w) s).cq = s.cq ∧
      (∀ k, s.hl.recalls.any (fun x => x.line == k) = true →
        (l.foldl (State.recallHeld w) s).hl.recalls.any (fun x => x.line == k) = true) ∧
      ∀ u ∈ l, ∀ h, s.held? u = some h → h.modified = true →
        (l.foldl (State.recallHeld w) s).hl.recalls.any (fun x => x.line == u) = true := by
  induction l generalizing s with
  | nil => exact ⟨rfl, rfl, rfl, fun _ h => h, fun _ h => absurd h List.not_mem_nil⟩
  | cons a l ih =>
    obtain ⟨filter, tiling, memory, queues, stay⟩ := s.recallHeld_leaves w a
    obtain ⟨tiling', memory', queues', stay', recalled⟩ := ih (s.recallHeld w a)
    refine ⟨tiling'.trans tiling, memory'.trans memory, queues'.trans queues, fun k h => stay' k (stay k h), fun u hu h held dirty => ?_⟩
    obtain rfl | hu := List.mem_cons.mp hu
    · refine stay' u ?_
      have ran : s.recallHeld w u = s.recall u w := by
        unfold State.recallHeld
        rw [held]
        exact if_pos dirty
      rw [ran]
      exact (s.recall_recalls u w).1
    · refine recalled u hu h ?_ dirty
      unfold State.held?
      rw [filter]
      exact held

theorem unitRelease_delivers (steady : s.retraining i pc = false) (active : s.tm.power = .active) (on : (s.stack i).offline = false)
    (oldest : (s.stack i).reads.find? (fun r => r.pc = pc.val) = some r) (readable : s.readable r.addr r.len = true)
    (clean : s.poisoned r.addr r.len = false) :
    ∃ t, exec (.unitRelease i pc) s = .next t ∧
      rdBytes (t.core r.core).store r.dest r.len = r.deliver (s.devRead r.addr r.len) ∧
      (∀ a, a < r.dest ∨ r.dest + r.len ≤ a → rdByte (t.core r.core).store a = rdByte (s.core r.core).store a) ∧
      (t.core r.core).wells = (s.core r.core).wells ∧ (∀ k, k ≠ r.core → t.core k = s.core k) ∧
      (t.stack i).reads = (s.stack i).reads.erase r ∧ t.mm.dev = s.mm.dev ∧ t.rg.fields = s.rg.fields ∧ t.cq = s.cq := by
  let u := s.setStack i { s.stack i with reads := (s.stack i).reads.erase r }
  let d := r.deliver (s.devRead r.addr r.len)
  have length : d.length = r.len := by simp [d, State.devRead]
  have ran : s.unitRelease i pc = ((u.setCore r.core { s.core r.core with store := wrBytes (s.core r.core).store r.dest d }).pins
      r.addr false r.len).addSlot 0x11 (r.core / 40) 1 r.len := by
    unfold State.unitRelease
    dsimp only
    rw [if_neg (by simp [steady, active, on]), oldest]
    dsimp only
    rw [if_neg (by simp [readable]), if_neg (by rw [State.poisoned] at clean ⊢; exact Bool.eq_false_iff.mp clean)]
    rfl
  have core := State.core_setCore u r.core { s.core r.core with store := wrBytes (s.core r.core).store r.dest d }
  have stored : _ = wrBytes (s.core r.core).store r.dest d := congrArg Core.store core
  refine ⟨_, congrArg Host.Outcome.next ran, ?_, fun a out => ?_, ?_, fun k hk => ?_, ?_, rfl, rfl, rfl⟩
  · have bytes := congrArg (fun m => rdBytes m r.dest r.len) stored
    have self := rdBytes_wrBytes_self (s.core r.core).store r.dest d
    rw [length] at self
    exact bytes.trans self
  · have byte := congrArg (fun m => rdByte m a) stored
    exact byte.trans (rdByte_wrBytes_out (by rw [length]; exact out))
  · have wells := congrArg Core.wells core
    exact wells
  · exact State.core_setCore_ne u _ _ _ hk
  · exact congrArg Stack.reads (State.stack_setStack s i _)

theorem unitRelease_recalls (steady : s.retraining i pc = false) (active : s.tm.power = .active) (on : (s.stack i).offline = false)
    (oldest : (s.stack i).reads.find? (fun r => r.pc = pc.val) = some r) (held : s.readable r.addr r.len = false) :
    ∃ t, exec (.unitRelease i pc) s = .next t ∧
      (∃ u ∈ units64 r.addr r.len, ∃ h, s.held? u = some h ∧ h.modified = true ∧
        t.hl.recalls.any (fun x => x.line == u) = true) ∧
      (t.stack i).reads = (s.stack i).reads ∧ t.tl = s.tl ∧ t.mm.dev = s.mm.dev ∧ t.cq = s.cq := by
  have ran : s.unitRelease i pc = (units64 r.addr r.len).foldl (State.recallHeld [.unit i pc]) s := by
    unfold State.unitRelease
    dsimp only
    rw [if_neg (by simp [steady, active, on]), oldest]
    dsimp only
    rw [if_pos (by simp [held])]
    rfl
  obtain ⟨tiling, memory, queues, -, recalled⟩ := foldl_recallHeld [.unit i pc] (units64 r.addr r.len) s
  obtain ⟨u, hu, h, found, dirty⟩ : ∃ u ∈ units64 r.addr r.len, ∃ h, s.held? u = some h ∧ h.modified = true := by
    obtain ⟨u, hu, bad⟩ := List.all_eq_false.mp held
    cases found : s.held? u with
    | none => simp [found] at bad
    | some h => exact ⟨u, hu, h, found, by simpa [found] using bad⟩
  refine ⟨_, congrArg Host.Outcome.next ran, ⟨u, hu, h, found, dirty, recalled u hu h found dirty⟩, ?_, tiling, ?_, queues⟩
  · unfold State.stack
    rw [memory]
  · rw [memory]
end

/-- Settles O44: the oldest read's bytes, or the recall of a line that its range holds. -/
theorem unitReads : Obligations.UnitReads :=
  fun _ _ _ _ steady active on oldest => ⟨unitRelease_delivers steady active on oldest, unitRelease_recalls steady active on oldest⟩

end Sys2Proof.Machine
end

section
/-! SUPPORT. The error ring (R502, R504 to R507, R516, R533): what each step of an entry leaves, put together. -/

namespace Sys2Proof.Machine

/-! ## Counters and held accesses through the trace -/

/-- The counters that a record of the trace may change. -/
def traceCnts : List Nat :=
  [C.TRC_CNT_DROPPED, C.TRC_WR, C.TRC_CNT_RECORDS, C.HL_CNT_RECALLS, C.STOP_TARGET].map fun c => cntKey c 0 0

/-- Accesses held stay held, and only the trace's counters change. -/
structure TraceLeft (s t : State) : Prop where
  held : t.st.held = s.st.held
  cnts : ∀ k, k ∉ traceCnts → look 0 t.rg.cnts k = look 0 s.rg.cnts k

namespace TraceLeft
variable {s t u : State}

theorem refl (s : State) : TraceLeft s s := ⟨rfl, fun _ _ => rfl⟩

theorem trans (h : TraceLeft s t) (h' : TraceLeft t u) : TraceLeft s u :=
  ⟨h'.held.trans h.held, fun k hk => (h'.cnts k hk).trans (h.cnts k hk)⟩

theorem same (h : TraceLeft s t) (held : u.st.held = t.st.held := by rfl) (cnts : u.rg.cnts = t.rg.cnts := by rfl) : TraceLeft s u :=
  h.trans ⟨held, fun _ _ => by rw [cnts]⟩

theorem addCnt (h : TraceLeft s t) {c : Cnt} {n i b : Nat} (hk : cntKey c i b ∈ traceCnts) : TraceLeft s (t.addCnt c n i b) :=
  h.trans ⟨rfl, fun _ hn => look_put_ne _ _ _ (fun e => hn (e ▸ hk))⟩

theorem setInt (h : TraceLeft s t) {f : Field} {i : Nat} : TraceLeft s (t.setInt f i) :=
  h.same (by rw [State.setInt_st]) (by rw [State.setInt_frame]; rfl)

theorem recallLine (h : TraceLeft s t) (line : Nat) (w : List RecallWait) : TraceLeft s (t.recall line w) := by
  unfold State.recall
  split
  · exact h.same
  · refine addCnt ?_ (by decide)
    exact h.same (by simp) (by rw [State.emit_frame])

theorem devWriteLine (h : TraceLeft s t) (a : Nat) (d : List Byte) : TraceLeft s (t.devWriteLine a d) := by
  unfold State.devWriteLine
  split
  · exact h.recallLine _ _
  · exact h.same

theorem devWrite (h : TraceLeft s t) (a : Nat) (d : List Byte) : TraceLeft s (t.devWrite a d) := by
  unfold State.devWrite
  generalize units64 a d.length = l
  induction l generalizing t with
  | nil => exact h
  | cons x r ih => exact ih (h.devWriteLine _ _)

theorem traceStore (h : TraceLeft s t) (r : TraceRec) : TraceLeft s (t.traceStore r) := by
  refine t.traceStore_cases r _ ?_ ?_ (fun a n => ?_)
  · exact (h.addCnt (by decide)).setInt
  · have full : TraceLeft s ((t.setFld F.TRC_STATUS.FULL 1).setInt F.TRC_INT_STATUS.FULL) := setInt h.same
    exact (full.addCnt (by decide)).setInt
  · have stored : TraceLeft s (((t.devWrite a (r.bytes t.tm.now)).addCnt C.TRC_WR 32).addCnt C.TRC_CNT_RECORDS 1) :=
      ((h.devWrite _ _).addCnt (by decide)).addCnt (by decide)
    exact stored.same

theorem traceBudgeted (h : TraceLeft s t) (r : TraceRec) : TraceLeft s (t.traceBudgeted r) := by
  have owed : TraceLeft s t.traceOwed := by
    unfold State.traceOwed
    split
    · exact (h.traceStore _).same
    · exact h
  unfold State.traceBudgeted
  dsimp only
  split
  · have counted : TraceLeft s ((t.traceOwed.addCnt C.TRC_CNT_DROPPED 1).setInt F.TRC_INT_STATUS.DROPPED) :=
      (owed.addCnt (by decide)).setInt
    exact counted.same
  · exact owed.traceStore r

theorem takeStop (h : TraceLeft s t) (cause : Nat) : TraceLeft s (t.takeStop cause) := by
  unfold State.takeStop
  split
  · exact h.same
  · exact h.trans ⟨rfl, fun k hn => look_put_ne _ _ _ (fun e => hn (e ▸ (by decide : cntKey C.STOP_TARGET 0 0 ∈ traceCnts)))⟩

theorem trace (h : TraceLeft s t) (r : TraceRec) : TraceLeft s (t.trace r) := by
  unfold State.trace
  split
  · refine traceBudgeted ?_ r
    unfold State.traceTrigger
    split
    · have fired : TraceLeft s ((t.setFld F.TRC_STATUS.TRIGGERED 1).setInt F.TRC_INT_STATUS.TRIGGER) := setInt h.same
      dsimp only
      split
      · exact fired.takeStop 4
      · exact fired
    · exact h
  · exact h
end TraceLeft

/-! ## An error shown -/

/-- An error is shown from `s` to `t`: neither the collector nor the ring nor a black error changes, nor any work. -/
structure ErrShown (s t : State) : Prop where
  work : SameWork s t
  boot : t.bt = s.bt
  time : t.tm = s.tm
  resets : t.rs = s.rs
  held : t.st.held = s.st.held
  collector : t.er.collector = s.er.collector
  ring : t.er.ring = s.er.ring
  black : t.er.black = s.er.black
  head : t.fld F.ERR_HEAD.SEQ = s.fld F.ERR_HEAD.SEQ
  cnts : ∀ k, k / 2 ^ 32 = 0x40 → k ≠ cntKey C.ERR_CNT_LOST 0 0 → look 0 t.rg.cnts k = look 0 s.rg.cnts k
  stop : s.stopState ≤ 1 → t.stopState ≤ 1

/-- A field that lies where neither the ring's head nor the state of the stop does. -/
def offRing (f : Field) : Prop :=
  fieldSlot (fieldKey F.ERR_HEAD.SEQ 0 0) ≠ fieldSlot (fieldKey f 0 0) ∧
    fieldSlot (fieldKey F.STOP_STATUS.STATE 0 0) ≠ fieldSlot (fieldKey f 0 0)

theorem offRing_header {f : Field} (header : f.off < 0x100) (lo : f.lo < 64) : offRing f := by
  unfold offRing
  simp only [fieldSlot, fieldKey, F.ERR_HEAD.SEQ, F.STOP_STATUS.STATE]
  omega

/-- A stop that is taken is ARMED, one under way stays where it stands. -/
theorem State.takeStop_armed (s : State) (cause : Nat) (h : s.stopState ≤ 1) : (s.takeStop cause).stopState = 1 ∨
    ((s.takeStop cause).stopState = 0 ∧ s.rs.run.isSome = true) := by
  by_cases refused : s.stopState ≠ 0 ∨ s.rs.run.isSome
  · have same : (s.takeStop cause).stopState = s.stopState := by
      rw [State.takeStop_refused _ _ refused]
      exact State.fld_setFld_other _ (by decide)
    rw [same]
    obtain under | resets := refused
    · exact Or.inl (by omega)
    · by_cases zero : s.stopState = 0
      · exact Or.inr ⟨zero, resets⟩
      · exact Or.inl (by omega)
  · refine Or.inl ?_
    unfold State.takeStop
    rw [if_neg refused]
    exact (State.fld_setFld_other _ (by decide)).trans ((State.fld_setFld_other _ (by decide)).trans
      ((State.fld_setFld_other _ (by decide)).trans (State.fld_setFld _ _ _ _ _)))

theorem State.trace_stopState (s : State) (r : TraceRec) (h : s.stopState ≤ 1) : (s.trace r).stopState ≤ 1 := by
  have budgeted : ∀ u : State, u.stopState ≤ 1 → (u.traceBudgeted r).stopState ≤ 1 := fun u hu => by
    have kept : (u.traceBudgeted r).stopState = u.stopState := ((StopKept.refl u).traceBudgeted r).fld (by decide)
    rw [kept]
    exact hu
  unfold State.trace
  split
  · refine budgeted _ ?_
    unfold State.traceTrigger
    split
    · have fired : ((s.setFld F.TRC_STATUS.TRIGGERED 1).setInt F.TRC_INT_STATUS.TRIGGER).stopState ≤ 1 := by
        rw [State.stopState, State.fld_setInt_other _ (by decide), State.fld_setFld_other _ (by decide)]
        exact h
      dsimp only
      split
      · obtain armed | ⟨idle, -⟩ := State.takeStop_armed _ 4 fired <;> omega
      · exact fired
    · exact h
  · exact h

namespace ErrShown
variable {s t u : State}

theorem refl (s : State) : ErrShown s s := ⟨⟨rfl, rfl, rfl, rfl, rfl⟩, rfl, rfl, rfl, rfl, rfl, rfl, rfl, rfl, fun _ _ _ => rfl, id⟩

theorem trans (h : ErrShown s t) (h' : ErrShown t u) : ErrShown s u := by
  obtain ⟨cq, wh, kv, tl, sc⟩ := h.work
  obtain ⟨cq', wh', kv', tl', sc'⟩ := h'.work
  exact ⟨⟨cq'.trans cq, wh'.trans wh, kv'.trans kv, tl'.trans tl, sc'.trans sc⟩, h'.boot.trans h.boot, h'.time.trans h.time,
    h'.resets.trans h.resets, h'.held.trans h.held, h'.collector.trans h.collector, h'.ring.trans h.ring,
    h'.black.trans h.black, h'.head.trans h.head, fun k a b => (h'.cnts k a b).trans (h.cnts k a b),
    fun low => h'.stop (h.stop low)⟩

theorem setFld (h : ErrShown s t) {f : Field} {v i b : Nat}
    (hk : offRing f) : ErrShown s (t.setFld f v i b) :=
  h.trans ⟨⟨rfl, rfl, rfl, rfl, rfl⟩, rfl, rfl, rfl, rfl, rfl, rfl, rfl, State.fld_setFld_slot _ hk.1 _ _ _ _ _, fun _ _ _ => rfl,
    fun low => by rw [State.stopState, State.fld_setFld_slot _ hk.2]; exact low⟩

theorem setInt (h : ErrShown s t) {f : Field} {i : Nat}
    (hk : offRing f) : ErrShown s (t.setInt f i) :=
  h.trans ⟨⟨State.setInt_cq _ _ _, State.setInt_wh _ _ _, State.setInt_kv _ _ _, State.setInt_tl _ _ _, State.setInt_sc _ _ _⟩,
    State.setInt_bt _ _ _, State.setInt_tm _ _ _, State.setInt_rs _ _ _, by rw [State.setInt_st],
    by rw [State.setInt_er], by rw [State.setInt_er], by rw [State.setInt_er], State.fld_setInt_slot _ hk.1 _ _ _,
    fun _ _ _ => by rw [State.setInt_frame]; rfl, fun low => by rw [State.stopState, State.fld_setInt_slot _ hk.2]; exact low⟩

theorem trace (h : ErrShown s t) {r : TraceRec} : ErrShown s (t.trace r) := by
  have left := (TraceLeft.refl t).trace r
  have work := (WorkKept.refl t).trace (r' := r)
  refine h.trans ⟨⟨State.trace_cq _ _, State.trace_wh _ _, State.trace_kv _ _, State.trace_tl _ _, State.trace_sc _ _⟩,
    State.trace_bt _ _, State.trace_tm _ _, State.trace_rs _ _, left.held, by rw [State.trace_er],
    by rw [State.trace_er], by rw [State.trace_er], work.fields _ (by decide) _, fun k hk _ => left.cnts k fun listed => ?_, t.trace_stopState r⟩
  have apart : ∀ k ∈ traceCnts, k / 2 ^ 32 ≠ 0x40 := by decide
  exact apart k listed hk

theorem takeStop (h : ErrShown s t) {cause : Nat} : ErrShown s (t.takeStop cause) := by
  have left := (TraceLeft.refl t).takeStop cause
  have work := (WorkKept.refl t).takeStop (cause := cause)
  refine h.trans ⟨⟨State.takeStop_cq _ _, State.takeStop_wh _ _, State.takeStop_kv _ _, State.takeStop_tl _ _, State.takeStop_sc _ _⟩,
    State.takeStop_bt _ _, State.takeStop_tm _ _, State.takeStop_rs _ _, left.held, by rw [State.takeStop_er],
    by rw [State.takeStop_er], by rw [State.takeStop_er], work.fields _ (by decide) _, fun k hk _ => left.cnts k fun listed => ?_, fun low => ?_⟩
  · have apart : ∀ k ∈ traceCnts, k / 2 ^ 32 ≠ 0x40 := by decide
    exact apart k listed hk
  · obtain armed | ⟨idle, -⟩ := t.takeStop_armed cause low <;> omega

theorem captureFirst (h : ErrShown s t) {e r : ErrRec} : ErrShown s (t.captureFirst e r) := by
  have first : ErrShown s (if t.fld F.ERR_STATUS.FIRST_VALID = 1 then t
      else ({ t with er.first := some { r with first := true } } : State).setFld F.ERR_STATUS.FIRST_VALID 1) := by
    split
    · exact h
    · refine setFld (h.trans ?_) (by unfold offRing; decide)
      exact ⟨⟨rfl, rfl, rfl, rfl, rfl⟩, rfl, rfl, rfl, rfl, rfl, rfl, rfl, rfl, fun _ _ _ => rfl, id⟩
  unfold State.captureFirst
  split
  · exact h
  · dsimp only
    generalize (if t.fld F.ERR_STATUS.FIRST_VALID = 1 then t
      else ({ t with er.first := some { r with first := true } } : State).setFld F.ERR_STATUS.FIRST_VALID 1) = u at first ⊢
    split
    · exact first
    · split
      · exact first
      · refine (((first.setFld ?_).setFld ?_).setFld ?_).setFld ?_ <;> exact offRing_header (of_decide_eq_true rfl) (of_decide_eq_true rfl)
end ErrShown

/-! ## An entry in the ring -/

section
variable {s : State} {e : ErrRec}

theorem State.countErr_shows (s : State) (e : ErrRec) :
    ErrShown (s.addCnt (sevCnt e.sev) 1) (s.countErr e) := by
  unfold State.countErr
  dsimp only
  split
  · exact .refl _
  · exact (ErrShown.refl _).setFld (offRing_header (of_decide_eq_true rfl) (of_decide_eq_true rfl))

theorem sevCnt_key (sev : Nat) : cntKey (sevCnt sev) 0 0 / 2 ^ 32 = 0x40 ∧ cntKey (sevCnt sev) 0 0 ≠ cntKey C.ERR_CNT_LOST 0 0 ∧
    cntKey (sevCnt sev) 0 0 ≠ cntKey C.ERR_CNT_COALESCED 0 0 := by
  unfold sevCnt
  split <;> decide

theorem sevInt_slot (sev : Nat) : offRing (sevInt sev) := by
  unfold sevInt offRing
  split <;> decide

/-- Past the ring, an error is only shown and traced before it acts. -/
theorem ringed_shows (u : State) (e r : ErrRec) (t : TraceRec) :
    ErrShown u (((if u.errMasked e then u else u.setInt (sevInt e.sev)).captureFirst e r).trace t) := by
  have masked : ErrShown u (if u.errMasked e then u else u.setInt (sevInt e.sev)) := by
    split
    · exact .refl u
    · exact (ErrShown.refl u).setInt (sevInt_slot _)
  exact masked.captureFirst.trace

theorem errorRecord_runs (next : firstRec s.er.collector = some e) (on : s.tm.power ≠ .off) (due : e.time + 2000 ≤ s.tm.now) :
    let x := (({ s with er.collector := s.er.collector.erase e } : State).countErr e).ringEnter e
    ∃ v, ErrShown x.1 v ∧ s.errorRecord = v.errActs e := by
  intro x
  refine ⟨_, ringed_shows x.1 e x.2 { type := 0xC, ctx := e.ctx, q := e.q, seq := e.cmd, arg0 := e.code + 65536 * e.sevByte, arg1 := x.2.seq }, ?_⟩
  unfold State.errorRecord
  rw [next]
  exact if_neg (not_or.mpr ⟨on, by omega⟩)

/-- The state with an error counted. -/
def State.errCounted (s : State) (e : ErrRec) : State :=
  ({ s with er.collector := s.er.collector.erase e } : State).countErr e

theorem State.errCounted_counts (s : State) (e : ErrRec) :
    ErrShown (({ s with er.collector := s.er.collector.erase e } : State).addCnt (sevCnt e.sev) 1) (s.errCounted e) :=
  State.countErr_shows _ e

theorem State.errCounted_fld (s : State) (e : ErrRec) {f : Field} {i : Nat} (block : 0x100 ≤ f.off) (off : f.off < 4096) (lo : f.lo < 64) :
    (s.errCounted e).fld f i = s.fld f i := by
  unfold State.errCounted State.countErr
  dsimp only
  split
  · rfl
  · refine State.fld_setFld_slot _ ?_ _ _ _ _ _
    simp only [fieldSlot, fieldKey, F.PG_ERR_COUNT.N]
    omega

theorem State.errCounted_newest (s : State) (e : ErrRec) : (s.errCounted e).newestErr = s.newestErr := by
  have ring : (s.errCounted e).er.ring = s.er.ring := (s.errCounted_counts e).ring
  have head : (s.errCounted e).fld F.ERR_HEAD.SEQ = s.fld F.ERR_HEAD.SEQ := (s.errCounted_counts e).head
  rw [State.newestErr, State.newestErr, head, ring]

theorem State.errCounted_coalesces (s : State) (e : ErrRec) : (s.errCounted e).coalesces e = s.coalesces e := by
  have on : (s.errCounted e).fld F.ERR_CFG.COALESCE = s.fld F.ERR_CFG.COALESCE := s.errCounted_fld e (by decide) (by decide) (by decide)
  rw [State.coalesces, State.coalesces, on, s.errCounted_newest e]

/-- An error that does not coalesce: its record at the head, and what a record overwritten unread shows. -/
theorem State.ringEnter_adds (u : State) (e : ErrRec) (apart : u.coalesces e = false) :
    ErrShown (({ u with er.ring := put {} u.er.ring (u.fld F.ERR_HEAD.SEQ % 64) { e with seq := u.fld F.ERR_HEAD.SEQ } } :
      State).setFld F.ERR_HEAD.SEQ (u.fld F.ERR_HEAD.SEQ + 1)) (u.ringEnter e).1 := by
  unfold State.ringEnter
  rw [if_neg (Bool.eq_false_iff.mp apart)]
  dsimp only
  generalize ({ u with er.ring := put {} u.er.ring (u.fld F.ERR_HEAD.SEQ % 64) { e with seq := u.fld F.ERR_HEAD.SEQ } } :
      State).setFld F.ERR_HEAD.SEQ (u.fld F.ERR_HEAD.SEQ + 1) = v
  split
  · have counted : ErrShown v (v.addCnt C.ERR_CNT_LOST 1) :=
      ⟨⟨rfl, rfl, rfl, rfl, rfl⟩, rfl, rfl, rfl, rfl, rfl, rfl, rfl, rfl, fun k _ apart => look_put_ne _ _ _ apart, id⟩
    exact counted.setInt (by unfold offRing; decide)
  · exact .refl v

theorem errorRecord_enters (next : firstRec s.er.collector = some e) (on : s.tm.power ≠ .off) (due : e.time + 2000 ≤ s.tm.now)
    (apart : s.coalesces e = false) (room : s.fld F.ERR_HEAD.SEQ < 2 ^ 32 - 1) :
    ∃ v, s.errorRecord = v.errActs e ∧
      look {} v.er.ring (s.fld F.ERR_HEAD.SEQ % 64) = { e with seq := s.fld F.ERR_HEAD.SEQ } ∧
      v.fld F.ERR_HEAD.SEQ = s.fld F.ERR_HEAD.SEQ + 1 ∧ v.er.collector = s.er.collector.erase e ∧
      v.cnt (sevCnt e.sev) = (s.cnt (sevCnt e.sev) + 1) % 2 ^ 64 ∧
      (∀ i, i < 64 → i ≠ s.fld F.ERR_HEAD.SEQ % 64 → look {} v.er.ring i = look {} s.er.ring i) ∧
      SameWork s v ∧ v.bt = s.bt ∧ v.tm = s.tm ∧ v.rs = s.rs ∧ v.st.held = s.st.held ∧ v.er.black = s.er.black ∧
      (s.stopState ≤ 1 → v.stopState ≤ 1) := by
  obtain ⟨v, shown, ran⟩ := errorRecord_runs next on due
  change ErrShown ((s.errCounted e).ringEnter e).1 v at shown
  have counted := s.errCounted_counts e
  have entered := (s.errCounted e).ringEnter_adds e ((s.errCounted_coalesces e).trans apart)
  have head : (s.errCounted e).fld F.ERR_HEAD.SEQ = s.fld F.ERR_HEAD.SEQ := counted.head
  have ring : (s.errCounted e).er.ring = s.er.ring := counted.ring
  have cnt : (s.errCounted e).cnt (sevCnt e.sev) = (s.cnt (sevCnt e.sev) + 1) % 2 ^ 64 := by
    obtain ⟨page, lost, -⟩ := sevCnt_key e.sev
    exact (counted.cnts _ page lost).trans (State.cnt_addCnt _ _ _ _ _)
  have erased : (s.errCounted e).er.collector = s.er.collector.erase e := counted.collector
  obtain ⟨cq, wh, kv, tl, sc⟩ := counted.work
  have boot : (s.errCounted e).bt = s.bt := counted.boot
  have time : (s.errCounted e).tm = s.tm := counted.time
  have resets : (s.errCounted e).rs = s.rs := counted.resets
  have held : (s.errCounted e).st.held = s.st.held := counted.held
  have black : (s.errCounted e).er.black = s.er.black := counted.black
  have stop : s.stopState ≤ 1 → (s.errCounted e).stopState ≤ 1 := counted.stop
  have after := entered.trans shown
  rw [head] at after
  generalize s.errCounted e = u at *
  obtain ⟨cq', wh', kv', tl', sc'⟩ := after.work
  refine ⟨v, ran, ?_, ?_, after.collector.trans erased, ?_, fun i _ hi => ?_,
    ⟨cq'.trans cq, wh'.trans wh, kv'.trans kv, tl'.trans tl, sc'.trans sc⟩, after.boot.trans boot, after.time.trans time,
    after.resets.trans resets, after.held.trans held, after.black.trans black, fun low => after.stop ?_⟩
  · rw [after.ring]
    exact look_put_self _ _ _ _
  · rw [after.head, State.fld_setFld]
    exact Nat.mod_eq_of_lt (by show s.fld F.ERR_HEAD.SEQ + 1 < 2 ^ 32; omega)
  · obtain ⟨page, lost, -⟩ := sevCnt_key e.sev
    exact (after.cnts _ page lost).trans cnt
  · rw [after.ring, ← ring]
    exact look_put_ne _ _ _ hi
  · rw [State.stopState, State.fld_setFld_ne _ _ _ _ _ _ _ _ (by decide)]
    exact stop low

/-- An error below black does no more than stop the device. -/
theorem State.errActs_shows (v : State) {e : ErrRec} (low : e.sev ≤ 2) : ErrShown v (v.errActs e) := by
  unfold State.errActs
  split
  · exact .refl v
  · rw [if_neg (by omega)]
    split
    · exact (ErrShown.refl v).takeStop
    · exact .refl v

theorem errorRecord_records (next : firstRec s.er.collector = some e) (on : s.tm.power ≠ .off) (due : e.time + 2000 ≤ s.tm.now)
    (apart : s.coalesces e = false) (free : s.st.held = []) (room : s.fld F.ERR_HEAD.SEQ < 2 ^ 32 - 1) :
    let n := s.fld F.ERR_HEAD.SEQ
    (e.sev ≤ 2 → ∃ t, exec .errorRecord s = .next t ∧ look {} t.er.ring (n % 64) = { e with seq := n } ∧
      t.fld F.ERR_HEAD.SEQ = n + 1 ∧ t.er.collector = s.er.collector.erase e ∧
      t.cnt (sevCnt e.sev) = (s.cnt (sevCnt e.sev) + 1) % 2 ^ 64 ∧
      (∀ i, i < 64 → i ≠ n % 64 → look {} t.er.ring i = look {} s.er.ring i) ∧ SameWork s t ∧ t.bt = s.bt ∧ t.tm = s.tm) ∧
    (e.sev = 3 → e.injected = false → s.stopState = 0 → s.rs.run = none → s.er.black = none →
      ∃ t, exec .errorRecord s = .next t ∧ look {} t.er.ring (n % 64) = { e with seq := n } ∧
        t.fld F.ERR_HEAD.SEQ = n + 1 ∧ t.er.collector = s.er.collector.erase e ∧ t.stopState = 1 ∧
        t.er.black = some e ∧ SameWork s t ∧ t.bt = s.bt ∧ t.tm = s.tm) := by
  intro n
  obtain ⟨v, ran, ring, head, collector, cnt, others, work, boot, time, resets, held, black, stop⟩ := errorRecord_enters next on due apart room
  obtain ⟨cq, wh, kv, tl, sc⟩ := work
  refine ⟨fun low => ?_, fun sev live running quiet none => ?_⟩
  · have acts := v.errActs_shows low
    have drained : s.errorRecord.drain = v.errActs e := by
      rw [ran]
      exact State.drain_of_none (acts.held.trans (held.trans free))
    obtain ⟨cq', wh', kv', tl', sc'⟩ := acts.work
    obtain ⟨page, lost, -⟩ := sevCnt_key e.sev
    exact ⟨_, congrArg Host.Outcome.next drained, by rw [acts.ring]; exact ring, acts.head.trans head,
      acts.collector.trans collector, (acts.cnts _ page lost).trans cnt, fun i hi hn => by rw [acts.ring]; exact others i hi hn,
      ⟨cq'.trans cq, wh'.trans wh, kv'.trans kv, tl'.trans tl, sc'.trans sc⟩, acts.boot.trans boot, acts.time.trans time⟩
  · have stops := (ErrShown.refl v).takeStop (cause := 2)
    have acts : v.errActs e = { v.takeStop 2 with er.black := some e } := by
      unfold State.errActs
      rw [if_neg (by rw [live]; decide), if_pos sev]
      have idle : (v.takeStop 2).rs.run.isSome = false := by rw [stops.resets, resets, quiet]; rfl
      have first : (v.takeStop 2).er.black = .none := by rw [stops.black, black, none]
      unfold State.blackArrives
      rw [if_neg (by rw [idle]; decide), first]
    have drained : s.errorRecord.drain = { v.takeStop 2 with er.black := some e } := by
      rw [ran, acts]
      exact State.drain_of_none (stops.held.trans (held.trans free))
    obtain ⟨cq', wh', kv', tl', sc'⟩ := stops.work
    refine ⟨_, congrArg Host.Outcome.next drained, ?_, stops.head.trans head, stops.collector.trans collector, ?_, rfl,
      ⟨cq'.trans cq, wh'.trans wh, kv'.trans kv, tl'.trans tl, sc'.trans sc⟩, stops.boot.trans boot, stops.time.trans time⟩
    · show look {} (v.takeStop 2).er.ring _ = _
      rw [stops.ring]
      exact ring
    · refine (v.takeStop_armed 2 (stop (by omega))).resolve_right fun h => ?_
      rw [resets, quiet] at h
      exact absurd h.2 Bool.false_ne_true

theorem errorRecord_coalesces (next : firstRec s.er.collector = some e) (on : s.tm.power ≠ .off) (due : e.time + 2000 ≤ s.tm.now)
    (merge : s.fld F.ERR_CFG.COALESCE = 1) (low : e.sev ≤ 1) (some : 1 ≤ s.fld F.ERR_HEAD.SEQ) (free : s.st.held = []) :
    let i := (s.fld F.ERR_HEAD.SEQ - 1) % 64
    let r := look {} s.er.ring i
    r.code = e.code → r.inst = e.inst → r.unit = e.unit → e.time ≤ r.time + 1000000 →
    ∃ t, exec .errorRecord s = .next t ∧ look {} t.er.ring i = { r with repeated := Nat.min 255 (r.repeated + 1) } ∧
      t.fld F.ERR_HEAD.SEQ = s.fld F.ERR_HEAD.SEQ ∧ t.er.collector = s.er.collector.erase e ∧
      t.cnt C.ERR_CNT_COALESCED = (s.cnt C.ERR_CNT_COALESCED + 1) % 2 ^ 64 ∧ SameWork s t := by
  intro i r code inst unit soon
  have merges : s.coalesces e = true := by
    have newest : s.newestErr = .some r := if_neg (by omega)
    rw [State.coalesces, newest]
    simp [merge, low, code, inst, unit, soon]
  obtain ⟨v, shown, ran⟩ := errorRecord_runs next on due
  change ErrShown ((s.errCounted e).ringEnter e).1 v at shown
  have counted := s.errCounted_counts e
  have merges' := (s.errCounted_coalesces e).trans merges
  have head : (s.errCounted e).fld F.ERR_HEAD.SEQ = s.fld F.ERR_HEAD.SEQ := counted.head
  have ring : (s.errCounted e).er.ring = s.er.ring := counted.ring
  have cnt : (s.errCounted e).cnt C.ERR_CNT_COALESCED = s.cnt C.ERR_CNT_COALESCED := by
    obtain ⟨-, -, other⟩ := sevCnt_key e.sev
    exact (counted.cnts _ (by decide) (by decide)).trans (look_put_ne _ _ _ (Ne.symm other))
  have erased : (s.errCounted e).er.collector = s.er.collector.erase e := counted.collector
  have held : (s.errCounted e).st.held = s.st.held := counted.held
  obtain ⟨cq, wh, kv, tl, sc⟩ := counted.work
  generalize s.errCounted e = u at *
  have entered : (u.ringEnter e).1 =
      ({ u with er.ring := put {} s.er.ring i { r with repeated := Nat.min 255 (r.repeated + 1) } } : State).addCnt C.ERR_CNT_COALESCED 1 := by
    unfold State.ringEnter
    rw [if_pos merges', head, ring]
  rw [entered] at shown
  have after := shown.trans (v.errActs_shows (show e.sev ≤ 2 by omega))
  have drained : s.errorRecord.drain = v.errActs e := by
    rw [ran]
    exact State.drain_of_none (after.held.trans (held.trans free))
  obtain ⟨cq', wh', kv', tl', sc'⟩ := after.work
  refine ⟨_, congrArg Host.Outcome.next drained, ?_, after.head.trans head, after.collector.trans erased, ?_,
    ⟨cq'.trans cq, wh'.trans wh, kv'.trans kv, tl'.trans tl, sc'.trans sc⟩⟩
  · rw [after.ring]
    exact look_put_self _ _ _ _
  · refine (after.cnts _ (by decide) (by decide)).trans ?_
    rw [← cnt]
    exact State.cnt_addCnt _ _ _ _ _
end

/-- Settles O28: the entry by its steps, each of which leaves the ring to the one that enters it. -/
theorem errorRing : Obligations.ErrorRing :=
  ⟨fun _ _ next on due apart free room => errorRecord_records next on due apart free room,
   fun _ _ next on due merge low some free => errorRecord_coalesces next on due merge low some free⟩

end Sys2Proof.Machine
end

section
/-! SUPPORT. Warm, recovery and per-cluster resets: the request (R459, R461 to R464, R467). -/

namespace Sys2Proof.Machine

section
variable {s : State}

/-! ## A stop that a reset releases (R464) -/

/-- A reset releases a stop from `s` to `t`. -/
structure StopReleased (s t : State) : Prop where
  moved : MovedOn s t
  queues : t.cq = s.cq
  held : t.st.held = s.st.held
  fields : ∀ k, workKey k = false → ∀ d, look d t.rg.fields k = look d s.rg.fields k

theorem StopReleased.trans {s t u : State} (h : StopReleased s t) (h' : StopReleased t u) : StopReleased s u :=
  ⟨h.moved.trans h'.moved, h'.queues.trans h.queues, h'.held.trans h.held, fun k hk d => (h'.fields k hk d).trans (h.fields k hk d)⟩

theorem State.setFld_released (s : State) (f : Field) (v : Nat) (hk : workKey (fieldKey f 0 0) = true) :
    StopReleased s (s.setFld f v) :=
  ⟨rfl, rfl, rfl, fun _ hn _ => look_put_other _ _ (fun e => by rw [e, hk] at hn; cases hn)⟩

theorem State.trace_released (s : State) (r : TraceRec) : StopReleased s (s.trace r) :=
  ⟨(MovedOn.refl s).trace, State.trace_cq _ _, ((TraceLeft.refl s).trace r).held, ((WorkKept.refl s).trace).fields⟩

theorem State.stopByReset_releases (s : State) : StopReleased s s.stopByReset := by
  unfold State.stopByReset
  split
  · exact ⟨rfl, rfl, rfl, fun _ _ _ => rfl⟩
  · dsimp only
    have partial_ : StopReleased s (if (decide (s.stopState = 1) || decide (s.stopState = 2)) = true
        then s.setFld F.STOP_STATUS.PARTIAL 1 else s) := by
      split
      · exact s.setFld_released _ _ (by decide)
      · exact ⟨rfl, rfl, rfl, fun _ _ _ => rfl⟩
    generalize (if (decide (s.stopState = 1) || decide (s.stopState = 2)) = true
        then s.setFld F.STOP_STATUS.PARTIAL 1 else s) = u at partial_ ⊢
    unfold State.stopOver
    dsimp only
    have running := partial_.trans (u.setFld_released F.STOP_STATUS.STATE 0 (by decide))
    generalize u.setFld F.STOP_STATUS.STATE 0 = v at running ⊢
    have shifted : StopReleased s ((({ v with st.halted := [], st.resumed := [] } : State).addCnt C.STOP_CNT_NS
        (u.tm.now - u.st.cut)).stopShift (u.tm.now - u.st.cut)) := running.trans ⟨rfl, rfl, rfl, fun _ _ _ => rfl⟩
    split
    · exact shifted.trans (State.trace_released _ _)
    · exact shifted

/-! ## What a reset wipes (R460, R462) -/

/-- A map with one value put at the keys of a selection, looked up. -/
theorem look_map_where {α : Type} (d : α) (p : Nat → Bool) (x : α) (m : SMap α) (k : Nat) :
    look d (m.map fun e => if p e.1 then (e.1, x) else e) k = if p k && m.any (fun e => e.1 == k) then x else look d m k := by
  induction m with
  | nil => simp [look]
  | cons e m ih =>
    obtain ⟨j, w⟩ := e
    by_cases hj : j = k
    · subst hj
      by_cases hp : p j = true <;> simp [look, hp]
    · by_cases hp : p j = true <;> simp only [List.map_cons, hp, if_true, if_false, Bool.false_eq_true] <;> unfold look <;>
        rw [if_neg hj, ih] <;> simp only [List.any_cons, beq_eq_false_iff_ne.mpr hj, Bool.false_or, if_neg hj]

theorem look_absent {α : Type} (d : α) (m : SMap α) (k : Nat) (h : m.any (fun e => e.1 == k) = false) : look d m k = d := by
  by_contra other
  have mem := look_mem (d := d) (m := m) (k := k) other
  have none := List.any_eq_false.mp h _ mem
  simp at none

/-- A core wiped keeps what keeps it out of placement. -/
theorem State.core_wipeCores (s : State) (sel : Nat → Bool) (k : Nat) :
    (s.wipeCores sel).core k = if sel (k / 40) then { out := (s.core k).out } else s.core k := by
  let m := s.tl.cores.filter (fun e => !sel (e.1 / 40) || (s.core e.1).out)
  have kept : look {} m k = if (!sel (k / 40) || (s.core k).out) = true then s.core k else {} :=
    look_filter {} s.tl.cores (fun j => !sel (j / 40) || (s.core j).out) k
  have wiped := look_map_where ({} : Core) (fun j => sel (j / 40)) { out := true } m k
  refine Eq.trans wiped ?_
  rw [kept]
  cases selected : sel (k / 40) with
  | false => simp
  | true =>
    cases out : (s.core k).out with
    | false =>
      have gone : m.any (fun e => e.1 == k) = false := by
        rw [List.any_eq_false]
        intro e he same
        have here := (List.mem_filter.mp he).2
        rw [beq_iff_eq.mp same, selected, out] at here
        exact absurd here (by decide)
      simp [gone]
    | true =>
      have there : m.any (fun e => e.1 == k) = true := by
        by_contra absent
        have none := look_absent ({} : Core) m k (Bool.eq_false_iff.mpr absent)
        rw [kept, out, Bool.or_true, if_pos rfl] at none
        rw [none] at out
        exact absurd out (by decide)
      simp [there]

theorem State.fld_testCores (s : State) (sel : Nat → Bool) {f : Field} {i b : Nat} (h : coreTestKey sel (fieldKey f i b) = false) :
    (s.testCores sel).fld f i b = s.fld f i b := by
  have kept := look_filter (resetOf f i) s.rg.fields (fun k => !coreTestKey sel k) (fieldKey f i b)
  simp only [h, Bool.not_false, if_true] at kept
  exact kept

theorem State.wipeClusters_leaves (s : State) :
    (∀ k, s.wipeClusters.core k = { out := (s.core k).out }) ∧
      s.wipeClusters = { s with tl := s.wipeClusters.tl, rg.fields := s.wipeClusters.rg.fields } ∧
      ∀ f : Field, f.cls ≠ 0x11 → ∀ b, b < 4096 → f.off < 4096 → f.lo < 64 → s.wipeClusters.fld f 0 b = s.fld f 0 b := by
  refine ⟨fun k => ?_, rfl, fun f other b hb ho hl => ?_⟩
  · exact (s.core_wipeCores (fun _ => true) k).trans (if_pos rfl)
  · refine (State.fld_testCores (s.wipeCores fun _ => true) (fun _ => true) ?_)
    rw [coreTestKey, keyParts_fieldKey (by decide) hb ho hl]
    simp [other]

/-- Versions wiped from the shared cache leave the tiling, the queues, the registers' fields, the boot unit, the time and the resets. -/
def Remade (s t : State) : Prop :=
  t = { s with mm := t.mm, er := { s.er with collector := t.er.collector, thermN := t.er.thermN }, kv := t.kv, wh := t.wh,
               tl := { s.tl with gauges := t.tl.gauges, counters := t.tl.counters, fences := t.tl.fences, traffic := t.tl.traffic }
               rg.cnts := t.rg.cnts }

theorem Remade.trans {s t u : State} (h : Remade s t) (h' : Remade t u) : Remade s u := by
  unfold Remade at *
  rw [h', h]

theorem Remade.foldl {α : Type} {f : State → α → State} (step : ∀ u x, Remade u (f u x)) (l : List α) (s : State) :
    Remade s (l.foldl f s) := by
  induction l generalizing s with
  | nil => rfl
  | cons x l ih => exact (step s x).trans (ih (f s x))

theorem State.loseVer_remade (s : State) (hit : Nat → Nat → Bool) (v : Ver) : Remade s (s.loseVer hit v) := by
  have remade : Remade s (s.remade v) := by
    unfold State.remade State.remadeAt
    dsimp only
    split <;> rfl
  unfold State.loseVer
  split
  · split
    · exact remade.trans rfl
    · exact remade
  · rfl

theorem State.applyRef_remade (s : State) (u : RefUpd) : Remade s (s.applyRef u) := by
  have counted : ∀ n, Remade s (s.setObjCount u.obj n) := fun n => by
    unfold State.setObjCount
    split <;> rfl
  have held : ∀ v : State, Remade v (v.hold u.tag u.obj) := fun v => by
    unfold State.hold
    dsimp only
    split <;> rfl
  unfold State.applyRef
  dsimp only
  generalize (if u.add then s.objCount u.obj + u.n else s.objCount u.obj - u.n) = n
  split
  · exact (counted _).trans (held _)
  · exact counted _

theorem State.setObjCount_remade (s : State) (o : Obj) (n : Nat) : Remade s (s.setObjCount o n) := by
  unfold State.setObjCount
  split <;> rfl

theorem State.wipeShared_remade (s : State) : Remade s s.wipeShared := by
  unfold State.wipeShared
  dsimp only
  exact (Remade.foldl (fun u v => u.loseVer_remade _ v) _ s).trans rfl

theorem State.rebuild_remade (s : State) : Remade s s.rebuild := by
  unfold State.rebuild
  dsimp only
  have applied : Remade s (s.kv.refq.foldl State.applyRef { s with kv.refq := [] }) :=
    Remade.trans (t := { s with kv.refq := [] }) rfl (Remade.foldl State.applyRef_remade _ _)
  generalize s.kv.refq.foldl State.applyRef { s with kv.refq := [] } = u at applied ⊢
  refine applied.trans (Remade.trans ?_ rfl)
  refine Remade.trans ?_ (Remade.foldl (fun v o => v.setObjCount_remade o _) _ _)
  refine Remade.trans ?_ (Remade.foldl (fun v c => Remade.foldl (fun w a => w.setObjCount_remade _ _) _ v) _ _)
  rfl

/-! ## The start of a warm or recovery reset (R461, R462) -/

/-- What a reset marks first: the device resets, with its reset in hand and shown, and errors and the signature block at rest. -/
def State.resetMarked (s : State) (recovery : Bool) (cause : Nat) : State :=
  let s := s.stopByReset.applyHeld (fun _ => true)
  let s : State := { s with rg.fields := s.rg.fields.filter (fun e => !intStatusKey e.1) }
  let returns := s.rs.clusters.map (·.1)
  let t := Nat.max (2000 + s.wipeNs) (27200 + s.rebuildNs)
  let s : State := { s with
    tm.power := .resetting
    rs.run := some { recovery := recovery, at_ := s.tm.now, ends := s.tm.now + t + 1000, returns := returns }
    rs.clusters := []
    er.black := none, er.hold := false, er.coolSince := none, er.thermN := true
    bt.sign := s.bt.sign.dropBlock }
  let s := ((s.setFld F.RST_STATUS.IN_PROGRESS 1).setFld F.RST_STATUS.CLUSTER_BUSY 0).setFld F.RST_CAUSE.CAUSE cause
  if recovery then s.setFld F.ERR_STATUS.FORCED (b2n (cause = 4)) else s

/-- The queues and the commands in hand as a reset leaves them. -/
def State.resetWork (s : State) (recovery : Bool) : State :=
  let s := s.resetQueues
  let s := if recovery then s else s.clearEnables
  s.cq.cmds.foldl State.resetCmd s

/-- The stores wiped and the counts rebuilt. -/
def State.resetStores (s : State) : State :=
  let s := s.abandonGrants.wipeClusters.wipeUnowned.wipeShared.rebuild
  let s : State := { s with
    hl.filter := [], hl.recalls := [], mm.window := []
    mm.hbm := s.mm.hbm.map (fun e => (e.1, { e.2 with reads := [] })) }
  allClusters.foldl (fun s c => s.setClk c { s.clk c with point := 26, parked := false }) s.resetCtxs

theorem State.resetStart_eq (s : State) (recovery : Bool) (cause : Nat) :
    s.resetStart recovery cause = ((s.resetMarked recovery cause).resetWork recovery).resetStores := by
  cases recovery
  · unfold State.resetStart State.resetMarked State.resetWork State.resetStores
    dsimp only
  · unfold State.resetStart State.resetMarked State.resetWork State.resetStores
    dsimp only

theorem OnlyRegs.trans {s t u : State} (h : OnlyRegs s t) (h' : OnlyRegs t u) : OnlyRegs s u := by
  unfold OnlyRegs at *
  rw [h', h]

/-- One held key's share of the values that come into force. -/
def State.applyPart (sel : KeyParts → Bool) (s : State) (k : Nat) : State :=
  match (fieldsAt (keyParts k).cls (keyParts k).off).find? (fun f => f.lo == (keyParts k).lo) with
  | some f => if sel (keyParts k) then s.applyField f (keyParts k).inst (keyParts k).bank else s
  | none => s

theorem State.applyHeld_eq (s : State) (sel : KeyParts → Bool) :
    s.applyHeld sel = (s.rg.held.map (·.1)).foldl (State.applyPart sel) s := rfl

theorem State.applyHeld_frame (s : State) (sel : KeyParts → Bool) : OnlyRegs s (s.applyHeld sel) := by
  have step : ∀ (u : State) (k : Nat), OnlyRegs u (u.applyPart sel k) := fun u k => by
    unfold State.applyPart
    split
    · split
      · unfold OnlyRegs
        rw [State.applyField_frame]
      · rfl
    · rfl
  rw [State.applyHeld_eq]
  generalize s.rg.held.map (·.1) = l
  induction l generalizing s with
  | nil => rfl
  | cons k l ih => exact (step s k).trans (ih (s.applyPart sel k))

theorem State.resetMarked_marks (s : State) {recovery : Bool} {cause : Nat} (small : cause < 16) :
    let t := s.resetMarked recovery cause
    t.tm = { s.tm with power := .resetting } ∧ (∃ x, t.rs.run = some x ∧ x.recovery = recovery ∧ x.at_ = s.tm.now) ∧
      t.fld F.RST_STATUS.IN_PROGRESS = 1 ∧ t.fld F.RST_CAUSE.CAUSE = cause ∧ t.cq = s.cq ∧ t.tl = s.tl ∧
      t.bt.fuses = s.bt.fuses ∧ t.st.held = s.st.held ∧ t.er.black = none ∧ t.er.hold = false ∧ t.er.coolSince = none ∧
      t.er.collector = s.er.collector := by
  have released := s.stopByReset_releases
  have applied := s.stopByReset.applyHeld_frame (fun _ => true)
  unfold State.resetMarked
  generalize s.stopByReset.applyHeld (fun _ => true) = u at applied ⊢
  generalize s.stopByReset = w at released applied
  obtain ⟨moved, queues, held, -⟩ := released
  unfold MovedOn at moved
  have time : u.tm = s.tm := by rw [applied, moved]
  have tiling : u.tl = s.tl := by rw [applied, moved]
  have boot : u.bt = s.bt := by rw [applied, moved]
  have errors : u.er = s.er := by rw [applied, moved]
  have queues' : u.cq = s.cq := by rw [applied]; exact queues
  have held' : u.st.held = s.st.held := by rw [applied]; exact held
  have cause_w : ∀ v : State, (v.setFld F.RST_CAUSE.CAUSE cause).fld F.RST_CAUSE.CAUSE = cause := fun v =>
    (State.fld_setFld _ _ _ _ _).trans (Nat.mod_eq_of_lt small)
  have progress : ∀ v : State, (((v.setFld F.RST_STATUS.IN_PROGRESS 1).setFld F.RST_STATUS.CLUSTER_BUSY 0).setFld F.RST_CAUSE.CAUSE
      cause).fld F.RST_STATUS.IN_PROGRESS = 1 := fun v => by
    rw [State.fld_setFld_other _ (by decide), State.fld_setFld_other _ (by decide), State.fld_setFld]
    rfl
  dsimp only
  rw [← time, ← tiling, ← boot, ← errors, ← queues', ← held']
  split
  · refine ⟨rfl, ⟨_, rfl, rfl, rfl⟩, ?_, ?_, rfl, rfl, rfl, rfl, rfl, rfl, rfl, rfl⟩
    · rw [State.fld_setFld_other _ (by decide)]
      exact progress _
    · rw [State.fld_setFld_ne _ _ _ _ _ _ _ _ (by decide)]
      exact cause_w _
  · exact ⟨rfl, ⟨_, rfl, rfl, rfl⟩, progress _, cause_w _, rfl, rfl, rfl, rfl, rfl, rfl, rfl, rfl⟩

theorem WorkKept.resetCmd {s t : State} (h : WorkKept s t) {c : Cmd} : WorkKept s (t.resetCmd c) := by
  unfold State.resetCmd
  split
  · exact h.releaseWork.setCmd
  · exact h.discard

/-- A map of queues whose values are changed, looked up. -/
theorem State.resetQueues_enabled (s : State) (q : Nat) : (s.resetQueues.queue q).enabled = (s.queue q).enabled := by
  unfold State.queue State.resetQueues
  dsimp only
  generalize s.cq.queues = m
  induction m with
  | nil => rfl
  | cons e m ih =>
    simp only [List.map_cons, look]
    split
    · rfl
    · exact ih

theorem State.clearEnables_disabled (s : State) (q : Nat) : (s.clearEnables.queue q).enabled = false := by
  unfold State.queue State.clearEnables
  dsimp only
  generalize s.cq.queues = m
  induction m with
  | nil => rfl
  | cons e m ih =>
    simp only [List.map_cons, look]
    split
    · rfl
    · exact ih

/-- What is kept of the work that a reset discards: as work leaves it, but for the queues' enables. -/
theorem State.resetWork_leaves (s : State) (recovery : Bool) :
    let t := s.resetWork recovery
    t.tm = s.tm ∧ t.bt = s.bt ∧ t.rs = s.rs ∧ t.st.held = s.st.held ∧ (∀ k, (t.core k).out = (s.core k).out) ∧
      (∀ f : Field, workKey (fieldKey f 0 0) = false → t.fld f = s.fld f) ∧
      (∀ q, (t.queue q).enabled = if recovery then (s.queue q).enabled else false) ∧
      (t.er.black = s.er.black ∧ t.er.hold = s.er.hold ∧ t.er.coolSince = s.er.coolSince ∧ t.er.blackLater = s.er.blackLater) := by
  let u := if recovery then s.resetQueues else s.resetQueues.clearEnables
  have shape : u = { s with cq := u.cq, hl := u.hl } := by
    unfold u
    split <;> rfl
  have enabled : ∀ q, (u.queue q).enabled = if recovery then (s.queue q).enabled else false := by
    intro q
    unfold u
    split
    · exact s.resetQueues_enabled q
    · exact State.clearEnables_disabled _ q
  have work : WorkKept u (s.resetWork recovery) := (WorkKept.refl u).foldl fun _ _ hu => hu.resetCmd
  obtain ⟨time, boot, -, -, fields, cores, -, resets, held, queues, alarms⟩ := work
  intro t
  clear_value u
  refine ⟨time.trans ?_, boot.trans ?_, resets.trans ?_, held.trans ?_, fun k => (cores k).out.trans ?_,
    fun f hf => (fields _ hf _).trans ?_, fun q => (queues q).trans (enabled q), ?_⟩
  case refine_7 =>
    rw [shape] at alarms
    exact alarms
  case refine_5 => rw [shape]; rfl
  case refine_6 => rw [shape]; rfl
  all_goals rw [shape]

/-- Grants given up change the status of their pages alone. -/
theorem State.abandonGrants_leaves (s : State) :
    s.abandonGrants = { s with mm.granting := [], rg.fields := s.abandonGrants.rg.fields } ∧
      ∀ f : Field, f.cls = 0x0A → f.off < 4096 → f.lo < 64 → s.abandonGrants.fld f = s.fld f := by
  have page : ∀ (u : State) (f g : Field) (v i : Nat), f.cls = 0x0A → f.off < 4096 → f.lo < 64 → 0x20 ≤ g.cls →
      (u.setFld g v i).fld f = u.fld f := fun u f g v i cls off lo own =>
    State.fld_setFld_ne _ _ _ _ _ _ _ _ (by unfold fieldKey; omega)
  have step : ∀ (l : List Granting) (u : State),
      let t := l.foldl (fun s g =>
        (s.setFld (F.OWN_STATUS.BUSY (if g.page < 16 then 0x21 else 0x20)) 0 (g.page % 16)).setFld
          (F.OWN_STATUS.ZEROING (if g.page < 16 then 0x21 else 0x20)) 0 (g.page % 16)) u
      t = { u with rg.fields := t.rg.fields } ∧
        ∀ f : Field, f.cls = 0x0A → f.off < 4096 → f.lo < 64 → t.fld f = u.fld f := by
    intro l
    induction l with
    | nil => exact fun u => ⟨rfl, fun _ _ _ _ => rfl⟩
    | cons g l ih =>
      intro u
      obtain ⟨frame, fields⟩ := ih ((u.setFld (F.OWN_STATUS.BUSY (if g.page < 16 then 0x21 else 0x20)) 0 (g.page % 16)).setFld
          (F.OWN_STATUS.ZEROING (if g.page < 16 then 0x21 else 0x20)) 0 (g.page % 16))
      have own : 0x20 ≤ (if g.page < 16 then 0x21 else 0x20) := by split <;> decide
      refine ⟨frame, fun f cls off lo => (fields f cls off lo).trans ?_⟩
      rw [page _ f _ _ _ cls off lo own, page _ f _ _ _ cls off lo own]
  exact step s.mm.granting { s with mm.granting := [] }

/-- What is wiped last. -/
def State.storesEmptied (s : State) : State :=
  let s : State := { s with
    hl.filter := [], hl.recalls := [], mm.window := []
    mm.hbm := s.mm.hbm.map (fun e => (e.1, { e.2 with reads := [] })) }
  allClusters.foldl (fun s c => s.setClk c { s.clk c with point := 26, parked := false }) s.resetCtxs

theorem foldl_setClk_only (g : State → Nat → Clk) (l : List Nat) (s : State) :
    l.foldl (fun s c => s.setClk c (g s c)) s = { s with pw.clk := (l.foldl (fun s c => s.setClk c (g s c)) s).pw.clk } := by
  induction l generalizing s with
  | nil => rfl
  | cons c l ih =>
    rw [List.foldl_cons]
    exact Eq.trans (ih _) rfl

theorem State.storesEmptied_leaves (s : State) :
    ∃ mm sc clk, s.storesEmptied = { s with hl.filter := [], hl.recalls := [], mm := mm, sc := sc, pw.clk := clk } :=
  ⟨_, _, _, foldl_setClk_only _ _ _⟩

theorem State.resetStores_wipes (s : State) :
    let t := s.resetStores
    (∀ k, t.core k = { out := (s.core k).out }) ∧ t.tm = s.tm ∧ t.bt = s.bt ∧ t.rs = s.rs ∧ t.st.held = s.st.held ∧
      t.cq = s.cq ∧ t.hl.filter = [] ∧
      (∀ f : Field, f.cls = 0x0A → f.off < 4096 → f.lo < 64 → t.fld f = s.fld f) ∧
      (t.er.black = s.er.black ∧ t.er.hold = s.er.hold ∧ t.er.coolSince = s.er.coolSince ∧ t.er.blackLater = s.er.blackLater) := by
  obtain ⟨grants, own⟩ := s.abandonGrants_leaves
  intro t
  have last : t = s.abandonGrants.wipeClusters.wipeUnowned.wipeShared.rebuild.storesEmptied := rfl
  clear_value t
  generalize s.abandonGrants = a at grants own last
  obtain ⟨cores, wiped, fields⟩ := a.wipeClusters_leaves
  generalize a.wipeClusters = b at cores wiped fields last
  have shared := b.wipeUnowned.wipeShared_remade.trans b.wipeUnowned.wipeShared.rebuild_remade
  generalize b.wipeUnowned.wipeShared.rebuild = c at shared last
  obtain ⟨mm, sc, clk, emptied⟩ := c.storesEmptied_leaves
  rw [← last] at emptied
  unfold Remade at shared
  have same : a.core = s.core := by rw [grants]; rfl
  refine ⟨fun k => ?_, ?_, ?_, ?_, ?_, ?_, ?_, fun f cls off lo => ?_, ?_⟩
  · rw [emptied, shared]
    refine (cores k).trans ?_
    rw [same]
  · rw [emptied, shared]
    show b.tm = s.tm
    rw [wiped, grants]
  · rw [emptied, shared]
    show b.bt = s.bt
    rw [wiped, grants]
  · rw [emptied, shared]
    show b.rs = s.rs
    rw [wiped, grants]
  · rw [emptied, shared]
    show b.st.held = s.st.held
    rw [wiped, grants]
  · rw [emptied, shared]
    show b.cq = s.cq
    rw [wiped, grants]
  · rw [emptied]
  · rw [← own f cls off lo, ← fields f (by omega) 0 (by decide) off lo, emptied, shared]
    rfl
  · rw [emptied, shared]
    show b.er.black = s.er.black ∧ b.er.hold = s.er.hold ∧ b.er.coolSince = s.er.coolSince ∧ b.er.blackLater = s.er.blackLater
    rw [wiped, grants]
    exact ⟨rfl, rfl, rfl, rfl⟩

/-- A warm or recovery reset begins (R461, R462): what is gone, and what stays. -/
theorem State.resetStart_begins (s : State) {recovery : Bool} {cause : Nat} (small : cause < 16) :
    let t := s.resetStart recovery cause
    t.tm.power = .resetting ∧ (∃ x, t.rs.run = some x ∧ x.recovery = recovery ∧ x.at_ = s.tm.now) ∧
      t.fld F.RST_STATUS.IN_PROGRESS = 1 ∧ t.fld F.RST_CAUSE.CAUSE = cause ∧
      (∀ q, (t.queue q).enabled = if recovery then (s.queue q).enabled else false) ∧
      (∀ k, t.core k = { out := (s.core k).out }) ∧ t.hl.filter = [] ∧ t.bt.fuses = s.bt.fuses ∧ t.tm.now = s.tm.now ∧
      t.st.held = s.st.held ∧ t.er.black = none ∧ t.er.hold = false ∧ t.er.coolSince = none := by
  obtain ⟨time, run, progress, cause_, queues, tiling, boot, held, black, hold, cool, -⟩ :=
    s.resetMarked_marks (recovery := recovery) small
  intro t
  have shape : t = ((s.resetMarked recovery cause).resetWork recovery).resetStores := s.resetStart_eq _ _
  clear_value t
  generalize s.resetMarked recovery cause = a at *
  obtain ⟨time_b, boot_b, resets_b, held_b, outs_b, fields_b, queues_b, black_b, hold_b, cool_b, -⟩ := a.resetWork_leaves recovery
  generalize a.resetWork recovery = b at *
  obtain ⟨cores, time_c, boot_c, resets_c, held_c, queues_c, filter, fields_c, black_c, hold_c, cool_c, -⟩ := b.resetStores_wipes
  rw [← shape] at cores time_c boot_c resets_c held_c queues_c filter fields_c black_c hold_c cool_c
  have same : a.core = s.core := by
    unfold State.core
    rw [tiling]
  refine ⟨?_, ?_, ?_, ?_, fun q => ?_, fun k => ?_, filter, ?_, ?_, ?_, ?_, ?_, ?_⟩
  · rw [time_c, time_b, time]
  · rw [resets_c, resets_b]
    exact run
  · rw [fields_c _ rfl (by decide) (by decide), fields_b _ (by decide), progress]
  · rw [fields_c _ rfl (by decide) (by decide), fields_b _ (by decide), cause_]
  · rw [State.queue, queues_c]
    refine (queues_b q).trans ?_
    rw [State.queue, queues]
    rfl
  · rw [cores, outs_b, same]
  · rw [boot_c, boot_b, boot]
  · rw [time_c, time_b, time]
  · rw [held_c, held_b, held]
  · rw [black_c, black_b, black]
  · rw [hold_c, hold_b, hold]
  · rw [cool_c, cool_b, cool]

/-! ## The rows of RST_CTRL (R467) -/

section
variable {r : Requester} (hr : r = .firmware ∨ Writable s 0x0A 0 r) (active : s.tm.power = .active) (free : s.st.held = [])

/-- A write of RST_CTRL, by firmware or by a register access that is served. -/
theorem State.resetRow_writes (hr : r = .firmware ∨ Writable s 0x0A 0 r) (v : Nat) :
    ∃ u, (u = s ∨ u = s.addCnt C.GL_CNT_REG_WRITES 1) ∧ s.resetRow r v = (u.rstCtrl r v).drain := by
  unfold State.resetRow
  obtain firm | hw := hr
  · exact ⟨s, Or.inl rfl, if_pos firm⟩
  · split
    · exact ⟨s, Or.inl rfl, rfl⟩
    · exact ⟨_, Or.inr rfl, congrArg State.drain (hw.opWrite _ _ _)⟩

theorem resetCause_small (r : Requester) (c : Bool) : resetCause r c < 16 := by
  cases r <;> cases c <;> decide

include hr active free

theorem resetRow_resets (quiet : s.rs.run = none) (recovery : Bool) :
    let t := s.resetRow r (if recovery then 2 else 1)
    t.tm.power = .resetting ∧ (∃ x, t.rs.run = some x ∧ x.recovery = recovery ∧ x.at_ = s.tm.now) ∧
      t.fld F.RST_STATUS.IN_PROGRESS = 1 ∧ t.fld F.RST_CAUSE.CAUSE = resetCause r false ∧
      (∀ q, (t.queue q).enabled = if recovery then (s.queue q).enabled else false) ∧
      (∀ k, t.core k = { out := (s.core k).out }) ∧ t.hl.filter = [] ∧ t.bt.fuses = s.bt.fuses ∧ t.tm.now = s.tm.now := by
  obtain ⟨u, same, written⟩ := s.resetRow_writes hr (if recovery then 2 else 1)
  have quiet' : u.rs.run = none := by obtain rfl | rfl := same <;> exact quiet
  have active' : u.tm.power = .active := by obtain rfl | rfl := same <;> exact active
  have begun := u.resetStart_begins (recovery := recovery) (resetCause_small r false)
  have request : u.rstCtrl r (if recovery then 2 else 1) = u.resetStart recovery (resetCause r false) := by
    have asked : u.resetRequest recovery (resetCause r false) = u.resetStart recovery (resetCause r false) := by
      unfold State.resetRequest
      rw [quiet']
      exact if_pos active'
    rw [← asked]
    cases recovery <;> rfl
  rw [request] at written
  dsimp only at begun ⊢
  generalize u.resetStart recovery (resetCause r false) = t at begun written
  obtain ⟨power, run, progress, cause_, queues, cores, filter, fuses, now, held, -⟩ := begun
  have drained : t.drain = t := State.drain_of_none (held.trans (by obtain rfl | rfl := same <;> exact free))
  rw [written, drained]
  refine ⟨power, ?_, progress, cause_, fun q => (queues q).trans ?_, fun k => (cores k).trans ?_, filter, fuses.trans ?_, now.trans ?_⟩
  · obtain rfl | rfl := same <;> exact run
  all_goals obtain rfl | rfl := same <;> rfl

theorem clusterReset_begins (idle : s.rs.clusters.any (fun c => c.1 == s.fld F.RST_CLUSTER.CLUSTER) = false) :
    ∃ t, exec (.clusterReset r) s = .next t ∧ t.tm.power = .active ∧
      (t.cluster (s.fld F.RST_CLUSTER.CLUSTER)).removed = true ∧ t.fld F.RST_STATUS.CLUSTER_BUSY = 1 ∧
      t.fld F.RST_CAUSE.CAUSE = resetCause r true ∧
      t.rs.clusters = s.rs.clusters ++ [(s.fld F.RST_CLUSTER.CLUSTER, s.tm.now)] := by
  obtain ⟨u, same, written⟩ := s.resetRow_writes hr 4
  generalize hcl : s.fld F.RST_CLUSTER.CLUSTER = cl at idle ⊢
  have cl_u : u.fld F.RST_CLUSTER.CLUSTER = cl := by obtain rfl | rfl := same <;> exact hcl
  have active' : u.tm.power = .active := by obtain rfl | rfl := same <;> exact active
  have clusters : u.rs.clusters = s.rs.clusters := by obtain rfl | rfl := same <;> rfl
  have now : u.tm.now = s.tm.now := by obtain rfl | rfl := same <;> rfl
  have free' : u.st.held = [] := by obtain rfl | rfl := same <;> exact free
  have released := u.stopByReset_releases
  have taken : TakenOut u.stopByReset (u.stopByReset.takeOut cl) ∧ ((u.stopByReset.takeOut cl).cluster cl).removed = true := by
    by_cases out : (u.stopByReset.cluster cl).removed = true
    · have stays : u.stopByReset.takeOut cl = u.stopByReset := by
        unfold State.takeOut
        exact if_pos out
      rw [stays]
      exact ⟨.refl _, out⟩
    · obtain ⟨taken, removed, -⟩ := State.takeOut_takenOut (Bool.eq_false_iff.mpr out)
      exact ⟨taken, removed⟩
  have request : u.rstCtrl r 4 = u.clusterResetRequest cl (resetCause r true) := by
    rw [← cl_u]
    rfl
  have begins : u.clusterResetRequest cl (resetCause r true) =
      (let v := (((u.stopByReset.takeOut cl).applyHeld (fun p => p.cls = 0x11 && p.inst = cl)).testCores (· == cl))
       { (v.setFld F.RST_STATUS.CLUSTER_BUSY 1).setFld F.RST_CAUSE.CAUSE (resetCause r true) with
         rs.clusters := v.rs.clusters ++ [(cl, v.tm.now)] }) := by
    unfold State.clusterResetRequest
    rw [if_neg (by rw [clusters]; simp [active', idle])]
    rfl
  obtain ⟨taken, removed⟩ := taken
  obtain ⟨moved, -, held, -⟩ := released
  unfold MovedOn at moved
  generalize u.stopByReset.takeOut cl = v at taken removed begins
  have applied := v.applyHeld_frame (fun p => p.cls = 0x11 && p.inst = cl)
  generalize v.applyHeld (fun p => p.cls = 0x11 && p.inst = cl) = w at applied begins
  unfold OnlyRegs at applied
  have tm_w : w.tm = u.tm := by
    rw [applied]
    exact taken.time.trans (by rw [moved])
  have rs_w : w.rs = u.rs := by
    rw [applied]
    exact taken.resets.trans (by rw [moved])
  have held_w : w.st.held = [] := by
    rw [applied]
    exact (taken.held.trans held).trans free'
  have removed_w : (w.cluster cl).removed = true := by
    rw [applied]
    exact removed
  refine ⟨_, congrArg Host.Outcome.next written, ?_⟩
  rw [request, begins, State.drain_of_none (by exact held_w)]
  refine ⟨?_, removed_w, ?_, ?_, ?_⟩
  · show w.tm.power = .active
    rw [tm_w, active']
  · exact (State.fld_setFld_other _ (by decide)).trans (State.fld_setFld _ _ _ _ _)
  · exact (State.fld_setFld _ _ _ _ _).trans (Nat.mod_eq_of_lt (resetCause_small r true))
  · show w.rs.clusters ++ [(cl, w.tm.now)] = _
    rw [rs_w, tm_w, clusters, now]
end

end

end Sys2Proof.Machine
end

section
/-! SUPPORT. The end of a warm, a recovery or a per-cluster reset (R462, R463), and O21. -/

namespace Sys2Proof.Machine

/-- The queues going on after a reset: the work in hand and what the device sends, no field and no counter of the reset unit. -/
structure Resumed (s t : State) : Prop where
  frame : t = { s with hl := t.hl, op := t.op, cq := t.cq, wh := t.wh, sc := t.sc, rg.slots := t.rg.slots, rg.cnts := t.rg.cnts }
  cnts : ∀ c : Cnt, c.cls = 0x0A → c.off < 4096 → t.cnt c = s.cnt c

theorem Resumed.refl (s : State) : Resumed s s := ⟨rfl, fun _ _ _ => rfl⟩

theorem Resumed.trans {s t u : State} (h : Resumed s t) (h' : Resumed t u) : Resumed s u := by
  refine ⟨?_, fun c hc ho => (h'.cnts c hc ho).trans (h.cnts c hc ho)⟩
  rw [h'.frame, h.frame]

theorem Resumed.foldl {α : Type} {f : State → α → State} (step : ∀ u x, Resumed u (f u x)) (l : List α) (s : State) :
    Resumed s (l.foldl f s) := by
  induction l generalizing s with
  | nil => exact .refl s
  | cons x l ih => exact (step s x).trans (ih _)

theorem State.hwr_resumed (s : State) (a : Nat) (d : List Byte) (w : HwrFor) : Resumed s (s.hwr a d w) := by
  rw [State.hwr_frame]
  exact ⟨rfl, fun _ _ _ => rfl⟩

theorem State.hrd_resumed (s : State) (a : Nat) (w : HrdFor) : Resumed s (s.hrd a w) := by
  rw [State.hrd_frame]
  exact ⟨rfl, fun _ _ _ => rfl⟩

/-- A counter of a record taken from the ring cache, or not found there. -/
theorem State.addCnt_resumed (s : State) (d : Cnt) (hd : 0x0A < d.cls) : Resumed s (s.addCnt d 1) :=
  ⟨rfl, fun c hc ho => State.cnt_addCnt_ne _ _ _ _ _ _ _ _ (by unfold cntKey; omega)⟩

theorem State.setQueue_resumed (s : State) (n : Nat) (q : Queue) : Resumed s (s.setQueue n q) := ⟨rfl, fun _ _ _ => rfl⟩

theorem State.cmds_resumed (s : State) (cs : List Cmd) : Resumed s { s with cq.cmds := cs } := ⟨rfl, fun _ _ _ => rfl⟩

theorem State.takeAfresh_resumed (s : State) (n : Nat) (gone : List Nat) : Resumed s (s.takeAfresh n gone) := by
  unfold State.takeAfresh
  dsimp only
  generalize gone.filter _ = begun
  have dropped := Resumed.foldl (f := fun u x => (u.unlockGroups n x).dropCmd n x) (fun _ _ => ⟨rfl, fun _ _ _ => rfl⟩) gone s
  exact dropped.trans ⟨rfl, fun _ _ _ => rfl⟩

theorem State.reexecute_resumed (s : State) (n : Nat) (d : Done) : Resumed s (s.reexecute n d) := by
  unfold State.reexecute
  split
  · exact ⟨rfl, fun _ _ _ => rfl⟩
  · exact .refl s

theorem State.decideQueue_resumed (s : State) (n : Nat) : Resumed s (s.decideQueue n) := by
  unfold State.decideQueue
  dsimp only
  split
  · exact .refl s
  · refine Resumed.trans ?_ (Resumed.foldl (fun x d => x.reexecute_resumed n d) _ _)
    refine Resumed.trans (Resumed.trans ?_ (State.cmds_resumed _ _)) (State.setQueue_resumed _ _ _)
    split
    · exact .refl s
    · exact s.takeAfresh_resumed n _

theorem State.askRecord_resumed (s : State) (n seq : Nat) : Resumed s (s.askRecord n seq) := by
  unfold State.askRecord
  dsimp only
  split
  · refine Resumed.trans ?_ (State.addCnt_resumed _ C.HL_CNT_PUSH_USED (by decide))
    exact ⟨rfl, fun _ _ _ => rfl⟩
  · exact ((s.setQueue_resumed _ _).trans (State.addCnt_resumed _ C.HL_CNT_PUSH_MISSED (by decide))).trans (State.hrd_resumed _ _ _)

theorem State.askUpTo_resumed (fuel : Nat) (s : State) (n : Nat) : Resumed s (State.askUpTo fuel s n) := by
  induction fuel generalizing s with
  | zero => exact .refl s
  | succ fuel ih =>
    unfold State.askUpTo
    dsimp only
    split
    · exact .refl s
    · exact (s.askRecord_resumed _ _).trans (ih _)

theorem State.pumpQueue_resumed (s : State) (n : Nat) : Resumed s (s.pumpQueue n) := by
  unfold State.pumpQueue
  dsimp only
  split
  · exact .refl s
  · split
    · exact .refl s
    · exact (s.setQueue_resumed _ _).trans (State.hwr_resumed _ _ _ _)

theorem State.resumeQueue_resumed (s : State) (n : Nat) : Resumed s (s.resumeQueue n) := by
  unfold State.resumeQueue
  dsimp only
  split
  · exact (State.askUpTo_resumed _ _ _).trans (State.pumpQueue_resumed _ _)
  · exact s.pumpQueue_resumed n

/-- A cluster back in placement: its record, and fields of its die and of itself. -/
structure BackIn (s t : State) : Prop where
  frame : t = { s with tl.clusters := t.tl.clusters, rg.fields := t.rg.fields }
  fields : ∀ f : Field, f.cls = 0x0A → f.off < 4096 → f.lo < 64 → t.fld f = s.fld f

theorem BackIn.trans {s t u : State} (h : BackIn s t) (h' : BackIn t u) : BackIn s u := by
  refine ⟨?_, fun f cls off lo => (h'.fields f cls off lo).trans (h.fields f cls off lo)⟩
  rw [h'.frame, h.frame]

theorem State.putBack_backIn (s : State) (cl : Nat) : BackIn s (s.putBack cl) := by
  unfold State.putBack
  split
  · refine ⟨rfl, fun f cls off lo => ?_⟩
    have placement : fieldKey f 0 0 ≠ fieldKey F.CLS_STATUS.IN_PLACEMENT cl 0 := by
      simp only [fieldKey, F.CLS_STATUS.IN_PLACEMENT]
      omega
    have placed : fieldKey f 0 0 ≠ fieldKey F.CD_STATUS.PLACED (cl / 16) 0 := by
      simp only [fieldKey, F.CD_STATUS.PLACED]
      omega
    exact (State.fld_setFld_ne _ _ _ _ _ _ _ _ placed).trans (State.fld_setFld_ne _ _ _ _ _ _ _ _ placement)
  · exact ⟨rfl, fun _ _ _ _ => rfl⟩

theorem State.putBack_cluster (s : State) (cl : Nat) :
    ((s.putBack cl).cluster cl) = { s.cluster cl with removed := false } := by
  unfold State.putBack
  split
  · exact look_put_self _ _ _ _
  · next there =>
    rw [← Bool.eq_false_iff.mpr there]

/-- A cluster's clock started again. -/
def Clk.restarted (now : Nat) : Clk := { point := 0, changed := some now, idleSince := now }

/-- The reset ended, before the queues go on. -/
def State.resetEnded (s : State) (x : RstRun) : State :=
  let s : State := { s with
    rs.run := none, tm.power := .active, rs.afterBlack := false
    rs.blackEnd := if x.recovery && s.rs.afterBlack then some s.tm.now else s.rs.blackEnd }
  let s := x.returns.foldl State.putBack (allClusters.foldl (fun s c => s.setClk c (Clk.restarted s.tm.now)) s)
  let s := (s.setFld F.RST_STATUS.IN_PROGRESS 0).setFld F.RST_STATUS.LAST (if x.recovery then 3 else 2)
  let s := (s.addCnt (if x.recovery then C.RST_CNT_RECOVERY else C.RST_CNT_WARM) 1).setCnt C.RST_LAST_NS (s.tm.now - x.at_)
  s.setInt F.RST_INT_STATUS.DONE

/-- The queues decide about their work in hand, contexts with none of it are absent, and the queues go on. -/
def State.queuesResumed (s : State) (ns : List Nat) : State :=
  let s := ns.foldl State.decideQueue s
  let s := (s.sc.ctxs.map (·.1)).foldl
    (fun s c => if (s.ctx c).exist && (s.cmdsOf c).isEmpty then s.ctxAbsent c else s) s
  ns.foldl State.resumeQueue s

theorem State.queuesResumed_resumed (s : State) (ns : List Nat) : Resumed s (s.queuesResumed ns) := by
  have decided : Resumed s (ns.foldl State.decideQueue s) := Resumed.foldl (fun u n => u.decideQueue_resumed n) _ _
  refine (decided.trans (Resumed.foldl (fun u c => ?_) _ _)).trans (Resumed.foldl (fun u n => u.resumeQueue_resumed n) _ _)
  split
  · exact ⟨rfl, fun _ _ _ => rfl⟩
  · exact .refl u

theorem State.resetDoneOp_eq {s : State} {x : RstRun} (run : s.rs.run = some x) (past : x.ends ≤ s.tm.now) :
    s.resetDoneOp = (s.resetEnded x).queuesResumed (s.cq.queues.map (·.1)) := by
  unfold State.resetDoneOp
  rw [run]
  exact if_neg (Nat.not_lt.mpr past)

theorem State.resetEnded_ends (s : State) (x : RstRun) :
    let t := s.resetEnded x
    t.tm.power = .active ∧ t.rs.run = none ∧ t.fld F.RST_STATUS.IN_PROGRESS = 0 ∧
      t.fld F.RST_STATUS.LAST = (if x.recovery then 3 else 2) ∧ t.cnt C.RST_LAST_NS = (s.tm.now - x.at_) % 2 ^ 64 ∧
      t.fld F.RST_INT_STATUS.DONE = 1 ∧
      (x.recovery = true → t.cnt C.RST_CNT_RECOVERY = (s.cnt C.RST_CNT_RECOVERY + 1) % 2 ^ 64) ∧
      (x.recovery = false → t.cnt C.RST_CNT_WARM = (s.cnt C.RST_CNT_WARM + 1) % 2 ^ 64) ∧
      t.mm = s.mm ∧ t.bt = s.bt ∧ t.tm.now = s.tm.now ∧ t.er = s.er ∧ t.st = s.st := by
  let a : State := { s with
    rs.run := none, tm.power := .active, rs.afterBlack := false
    rs.blackEnd := if x.recovery && s.rs.afterBlack then some s.tm.now else s.rs.blackEnd }
  let b := allClusters.foldl (fun s c => s.setClk c (Clk.restarted s.tm.now)) a
  let c := x.returns.foldl State.putBack b
  have clocks : b = { a with pw.clk := b.pw.clk } := foldl_setClk_only _ _ _
  have backs : BackIn b c := by
    unfold c
    generalize x.returns = l
    generalize b = u
    induction l generalizing u with
    | nil => exact ⟨rfl, fun _ _ _ _ => rfl⟩
    | cons n l ih => exact (u.putBack_backIn n).trans (ih _)
  have back : c = { a with pw.clk := b.pw.clk, tl.clusters := c.tl.clusters, rg.fields := c.rg.fields } := by
    rw [backs.frame]
    rw [clocks]
  have last : (if x.recovery then 3 else 2) < 2 ^ F.RST_STATUS.LAST.width := by split <;> decide
  have now : c.tm.now = s.tm.now := by rw [back]
  have t_eq : s.resetEnded x = ((((c.setFld F.RST_STATUS.IN_PROGRESS 0).setFld F.RST_STATUS.LAST (if x.recovery then 3 else 2)).addCnt
      (if x.recovery then C.RST_CNT_RECOVERY else C.RST_CNT_WARM) 1).setCnt C.RST_LAST_NS (c.tm.now - x.at_)).setInt
        F.RST_INT_STATUS.DONE := rfl
  intro t
  have ht : t = _ := t_eq
  clear_value t
  subst ht
  have counts : c.rg.cnts = s.rg.cnts := by rw [back]
  refine ⟨?_, ?_, ?_, ?_, ?_, ?_, ?_, ?_, ?_, ?_, ?_, ?_, ?_⟩
  · rw [State.setInt_tm]
    show c.tm.power = _
    rw [back]
  · rw [State.setInt_rs]
    show c.rs.run = _
    rw [back]
  · rw [State.fld_setInt_other _ (by decide)]
    exact (State.fld_setFld_other _ (by decide)).trans (State.fld_setFld _ _ _ _ _)
  · rw [State.fld_setInt_other _ (by decide)]
    exact (State.fld_setFld _ _ _ _ _).trans (Nat.mod_eq_of_lt last)
  · rw [State.cnt_setInt, State.cnt_setCnt, now]
  · exact State.fld_setInt _ _ _
  · intro recovery
    rw [State.cnt_setInt, State.cnt_setCnt_ne _ _ _ _ _ _ _ _ (cntKey_ne (by decide) _ _ _ _), recovery]
    refine (State.cnt_addCnt _ _ _ _ _).trans ?_
    show (look 0 c.rg.cnts _ + 1) % _ = _
    rw [counts]
    rfl
  · intro warm
    rw [State.cnt_setInt, State.cnt_setCnt_ne _ _ _ _ _ _ _ _ (cntKey_ne (by decide) _ _ _ _), warm]
    refine (State.cnt_addCnt _ _ _ _ _).trans ?_
    show (look 0 c.rg.cnts _ + 1) % _ = _
    rw [counts]
    rfl
  · rw [State.setInt_mm]
    show c.mm = _
    rw [back]
  · rw [State.setInt_bt]
    show c.bt = _
    rw [back]
  · rw [State.setInt_tm]
    exact now
  · rw [State.setInt_er]
    show c.er = _
    rw [back]
  · rw [State.setInt_st]
    show c.st = _
    rw [back]

theorem resetDone_ends {s : State} {x : RstRun} (free : s.st.held = []) (run : s.rs.run = some x) (past : x.ends ≤ s.tm.now)
    (quiet : s.er.blackLater = none) :
    ∃ t, exec .resetDone s = .next t ∧ t.tm.power = .active ∧ t.rs.run = none ∧
      t.fld F.RST_STATUS.IN_PROGRESS = 0 ∧ t.fld F.RST_STATUS.LAST = (if x.recovery then 3 else 2) ∧
      t.cnt C.RST_LAST_NS = (s.tm.now - x.at_) % 2 ^ 64 ∧ t.fld F.RST_INT_STATUS.DONE = 1 ∧
      (x.recovery = true → t.cnt C.RST_CNT_RECOVERY = (s.cnt C.RST_CNT_RECOVERY + 1) % 2 ^ 64) ∧
      (x.recovery = false → t.cnt C.RST_CNT_WARM = (s.cnt C.RST_CNT_WARM + 1) % 2 ^ 64) ∧
      t.mm.dev = s.mm.dev ∧ t.bt = s.bt ∧ t.tm.now = s.tm.now := by
  obtain ⟨power, none_, progress, last, ns, done, recoveries, warms, mm, bt, now, er, st⟩ := s.resetEnded_ends x
  have resumed := (s.resetEnded x).queuesResumed_resumed (s.cq.queues.map (·.1))
  rw [← State.resetDoneOp_eq run past] at resumed
  obtain ⟨frame, cnts⟩ := resumed
  generalize s.resetEnded x = u at *
  have ran : exec .resetDone s = .next (s.resetDoneOp.blackAfterReset.drain) := rfl
  generalize s.resetDoneOp = t at *
  have noBlack : t.blackAfterReset = t := by
    unfold State.blackAfterReset
    rw [show t.er.blackLater = none by rw [frame]; exact (congrArg _ er).trans quiet]
  have held : t.st.held = [] := by
    rw [frame]
    exact (congrArg _ st).trans free
  rw [noBlack, State.drain_of_none held] at ran
  have fields : ∀ f, t.fld f = u.fld f := fun f => by rw [frame]; rfl
  refine ⟨t, ran, ?_, ?_, (fields _).trans progress, (fields _).trans last, (cnts _ rfl (by decide)).trans ns, (fields _).trans done,
    fun r => (cnts _ rfl (by decide)).trans (recoveries r), fun w => (cnts _ rfl (by decide)).trans (warms w), ?_, ?_, ?_⟩
  · rw [frame]; exact power
  · rw [frame]; exact none_
  · rw [frame]; exact congrArg _ mm
  · rw [frame]; exact bt
  · rw [frame]; exact now

/-- A cluster whose reset has ended: back in placement, unless its die is removed. -/
theorem clusterResetDone_ends {s : State} (free : s.st.held = []) (cl : Fin 256) {c : Nat × Nat}
    (mine : s.rs.clusters.find? (fun c => c.1 == cl.val) = some c) (past : c.2 + 4300 ≤ s.tm.now) :
    ∃ t, exec (.clusterResetDone cl) s = .next t ∧ (∀ k, k / 40 = cl.val → t.core k = { out := (s.core k).out }) ∧
      (∀ k, k / 40 ≠ cl.val → t.core k = s.core k) ∧
      (t.cluster cl).removed = (decide (s.fld F.CD_STATUS.REMOVED (cl / 16) = 1) && (s.cluster cl).removed) ∧
      (t.cluster cl).layers = [] ∧ (t.clk cl).point = 0 ∧ t.rs.clusters.all (fun c => c.1 != cl.val) = true ∧
      t.fld F.RST_STATUS.LAST = 4 ∧ t.fld F.RST_STATUS.LAST_CLUSTER = cl.val ∧ t.fld F.RST_INT_STATUS.DONE = 1 ∧
      t.cnt C.RST_CNT_CLUSTER = (s.cnt C.RST_CNT_CLUSTER + 1) % 2 ^ 64 ∧ t.mm = s.mm ∧ t.cq = s.cq := by
  let w := s.wipeCores (· == cl.val)
  let a := ({ w.setCluster cl { removed := (s.cluster cl).removed } with
    rs.clusters := s.rs.clusters.filter (fun c => c.1 != cl.val) } : State).setClk cl (Clk.restarted s.tm.now)
  let b := if a.fld F.CD_STATUS.REMOVED (cl / 16) = 1 then a else a.putBack cl
  let d := if b.rs.clusters = [] then b.setFld F.RST_STATUS.CLUSTER_BUSY 0 else b
  have ran : exec (.clusterResetDone cl) s = .next (s.clusterResetDoneOp cl).drain := rfl
  have ended : s.clusterResetDoneOp cl = ((((d.setFld F.RST_STATUS.LAST 4).setFld F.RST_STATUS.LAST_CLUSTER cl).addCnt C.RST_CNT_CLUSTER 1).setCnt
      C.RST_LAST_NS (d.tm.now - c.2)).setInt F.RST_INT_STATUS.DONE := by
    unfold State.clusterResetDoneOp
    rw [mine]
    exact if_neg (Nat.not_lt.mpr past)
  have own : a.cluster cl = { removed := (s.cluster cl).removed } := look_put_self _ _ _ _
  have clk : a.clk cl = Clk.restarted s.tm.now := look_put_self _ _ _ _
  have back : b = { a with tl.clusters := b.tl.clusters, rg.fields := b.rg.fields } ∧ (b.cluster cl).layers = [] ∧
      (b.cluster cl).removed = (decide (s.fld F.CD_STATUS.REMOVED (cl / 16) = 1) && (s.cluster cl).removed) := by
    have same : a.fld F.CD_STATUS.REMOVED (cl / 16) = s.fld F.CD_STATUS.REMOVED (cl / 16) := rfl
    unfold b
    rw [same]
    split
    · next gone => exact ⟨rfl, by rw [own], by rw [own, decide_eq_true gone]; rfl⟩
    · next stays =>
      refine ⟨(a.putBack_backIn cl).frame, ?_, ?_⟩
      · rw [State.putBack_cluster, own]
      · rw [State.putBack_cluster, decide_eq_false stays]
        rfl
  have busy : d = { b with rg.fields := d.rg.fields } := by
    unfold d
    split <;> rfl
  obtain ⟨frame, layers, removed⟩ := back
  have cores : ∀ k, a.core k = if (k / 40 == cl.val) = true then { out := (s.core k).out } else s.core k :=
    s.core_wipeCores (· == cl.val)
  have frame_d : d = { a with tl.clusters := b.tl.clusters, rg.fields := d.rg.fields } := by rw [busy, frame]
  have cluster_d : d.cluster cl = b.cluster cl := by rw [busy]; rfl
  have held : (s.clusterResetDoneOp cl).st.held = [] := by
    rw [ended, State.setInt_st]
    show d.st.held = []
    rw [frame_d]
    exact free
  rw [State.drain_of_none held, ended] at ran
  have core_t : ∀ k, (((((d.setFld F.RST_STATUS.LAST 4).setFld F.RST_STATUS.LAST_CLUSTER cl).addCnt C.RST_CNT_CLUSTER 1).setCnt
      C.RST_LAST_NS (d.tm.now - c.2)).setInt F.RST_INT_STATUS.DONE).core k = a.core k := by
    intro k
    rw [State.core, State.setInt_tl]
    show look {} d.tl.cores k = _
    rw [frame_d]
    rfl
  refine ⟨_, ran, fun k here => ?_, fun k other => ?_, ?_, ?_, ?_, ?_, ?_, ?_, ?_, ?_, ?_, ?_⟩
  · rw [core_t, cores, if_pos (by rw [here]; exact beq_self_eq_true _)]
  · rw [core_t, cores, if_neg (by rw [beq_iff_eq]; exact other)]
  · rw [State.cluster, State.setInt_tl]
    exact (congrArg Cluster.removed cluster_d).trans removed
  · rw [State.cluster, State.setInt_tl]
    exact (congrArg Cluster.layers cluster_d).trans layers
  · rw [State.clk, State.setInt_pw]
    show (look {} d.pw.clk cl).point = 0
    rw [frame_d]
    exact congrArg Clk.point clk
  · rw [State.setInt_rs]
    show d.rs.clusters.all _ = true
    rw [frame_d]
    show (s.rs.clusters.filter (fun c => c.1 != cl.val)).all (fun c => c.1 != cl.val) = true
    exact List.all_eq_true.mpr fun e he => (List.mem_filter.mp he).2
  · rw [State.fld_setInt_other _ (by decide)]
    exact (State.fld_setFld_other _ (by decide)).trans (State.fld_setFld _ _ _ _ _)
  · rw [State.fld_setInt_other _ (by decide)]
    exact (State.fld_setFld _ _ _ _ _).trans (Nat.mod_eq_of_lt cl.isLt)
  · exact State.fld_setInt _ _ _
  · rw [State.cnt_setInt, State.cnt_setCnt_ne _ _ _ _ _ _ _ _ (cntKey_ne (by decide) _ _ _ _), State.cnt_addCnt]
    show (look 0 d.rg.cnts _ + 1) % _ = _
    rw [frame_d]
    rfl
  · rw [State.setInt_mm]
    show d.mm = _
    rw [frame_d]
    rfl
  · rw [State.setInt_cq]
    show d.cq = _
    rw [frame_d]
    rfl

/-- Settles O21: a reset's request and its end (R459, R461 to R463, R467). -/
theorem resets : Obligations.Resets := by
  unfold Obligations.Resets
  refine ⟨fun s r hr active quiet free => ⟨?_, ?_, clusterReset_begins hr active free⟩,
    fun s free => ⟨fun x run past later => resetDone_ends free run past later, fun cl c mine past => clusterResetDone_ends free cl mine past⟩⟩
  · obtain ⟨power, run, progress, cause, queues, cores, filter, fuses, now⟩ := resetRow_resets hr active free quiet false
    exact ⟨_, rfl, power, run, progress, cause, queues, cores, filter, fuses, now⟩
  · obtain ⟨power, run, progress, cause, queues, cores, filter, fuses, now⟩ := resetRow_resets hr active free quiet true
    exact ⟨_, rfl, power, run, progress, cause, queues, cores, filter, fuses, now⟩

end Sys2Proof.Machine
end

section
/-! SUPPORT. Firmware's action on a black error, and the end of a thermal hold (R475, R478, R509, R510): O29. -/

namespace Sys2Proof.Machine

/-- The link of minimal mode set up: the ports, and fields that are not of the boot unit's page. -/
structure Relinked (s t : State) : Prop where
  frame : t = { s with op := t.op, rg.fields := t.rg.fields, rg.slots := t.rg.slots }
  fields : ∀ f : Field, f.cls = 0x0C → f.off < 4096 → f.lo < 64 → t.fld f = s.fld f

theorem Relinked.refl (s : State) : Relinked s s := ⟨rfl, fun _ _ _ _ => rfl⟩

theorem Relinked.trans {s t u : State} (h : Relinked s t) (h' : Relinked t u) : Relinked s u := by
  refine ⟨?_, fun f cls off lo => (h'.fields f cls off lo).trans (h.fields f cls off lo)⟩
  rw [h'.frame, h.frame]

theorem Relinked.foldl {α : Type} {f : State → α → State} (step : ∀ u x, Relinked u (f u x)) (l : List α) (s : State) :
    Relinked s (l.foldl f s) := by
  induction l generalizing s with
  | nil => exact .refl s
  | cons x l ih => exact (step s x).trans (ih _)

theorem State.setFld_relinked (s : State) (g : Field) (v i : Nat) (other : 0x0C < g.cls) : Relinked s (s.setFld g v i) :=
  ⟨rfl, fun f cls off lo => State.fld_setFld_ne _ _ _ _ _ _ _ _ (by unfold fieldKey; omega)⟩

theorem State.sendPort_relinked (s : State) (p : Nat) : Relinked s (s.sendPort p) := by
  rw [State.sendPort_frame]
  exact ⟨rfl, fun _ _ _ _ => rfl⟩

theorem State.minimalLink_relinked (s : State) : Relinked s s.minimalLink := by
  unfold State.minimalLink
  dsimp only
  generalize s.minimalPort = m
  have up := Relinked.foldl (fun u p => u.setFld_relinked F.OP_STATUS.UP (b2n (m = some p)) p (by decide)) (List.range 24) s
  cases m with
  | none => exact up
  | some q =>
    refine ((up.trans (State.setFld_relinked _ _ _ _ (by decide))).trans (Relinked.foldl (fun u p => ?_) _ _)).trans
      (State.sendPort_relinked _ _)
    refine Relinked.trans (t := (u.setPort p _).setPort q _) ?_ (State.sendPort_relinked _ q)
    exact ⟨rfl, fun _ _ _ _ => rfl⟩

/-- What the registers say once minimal mode is entered. -/
def State.minimalShown (s : State) (part inst : Nat) (stack : Option Nat) : State :=
  let s := ((s.setFld F.RST_STATUS.IN_PROGRESS 0).setFld F.RST_STATUS.CLUSTER_BUSY 0).setFld F.PWR_STATUS.STATE 3
  let s := (s.setFld F.BOOT_STATUS.MODE 2).setFld F.BOOT_STATUS.MIN_NO_HBM (b2n stack.isNone)
  let s := s.setFld F.BOOT_STATUS.MIN_STACK (stack.getD 0)
  let s := ((s.setFld F.BOOT_CAUSE.KIND 3).setFld F.BOOT_CAUSE.PART part).setFld F.BOOT_CAUSE.INSTANCE inst
  s.setInt F.BOOT_INT_STATUS.MINIMAL

theorem State.minimalShown_shows (s : State) (part inst : Nat) (stack : Option Nat) :
    let t := s.minimalShown part inst stack
    t.fld F.BOOT_STATUS.MODE = 2 ∧ t.fld F.BOOT_CAUSE.KIND = 3 ∧ t.fld F.BOOT_CAUSE.PART = part % 16 ∧ OnlySignals s t := by
  refine ⟨?_, ?_, ?_, OnlySignals.setInt ?_⟩
  · refine (State.fld_setInt_other _ (by decide)).trans ?_
    refine (State.fld_setFld_other _ (by decide)).trans ?_
    refine (State.fld_setFld_other _ (by decide)).trans ?_
    refine (State.fld_setFld_other _ (by decide)).trans ?_
    refine (State.fld_setFld_other _ (by decide)).trans ?_
    exact (State.fld_setFld_other _ (by decide)).trans (State.fld_setFld _ _ _ _ _)
  · refine (State.fld_setInt_other _ (by decide)).trans ?_
    refine (State.fld_setFld_other _ (by decide)).trans ?_
    exact (State.fld_setFld_other _ (by decide)).trans (State.fld_setFld _ _ _ _ _)
  · refine (State.fld_setInt_other _ (by decide)).trans ?_
    exact (State.fld_setFld_other _ (by decide)).trans (State.fld_setFld _ _ _ _ _)
  · exact (((((((((OnlySignals.refl s).setFld).setFld).setFld).setFld).setFld).setFld).setFld).setFld).setFld

/-- The work discarded as minimal mode is entered (R478). -/
theorem State.enterMinimal_discards (s : State) (part inst : Nat) :
    ∃ (u : State) (stack : Option Nat), s.enterMinimal 3 part inst = (u.minimalShown part inst stack).minimalLink ∧ u.tm.power = .minimal ∧
      u.cq.cmds = [] ∧ u.tl.cores = [] ∧ u.bt = s.bt ∧ u.st.held = s.st.held := by
  obtain ⟨moved, -, held, -⟩ := s.stopByReset_releases
  unfold MovedOn at moved
  refine ⟨_, _, rfl, rfl, rfl, rfl, ?_, held⟩
  show s.stopByReset.bt = s.bt
  rw [moved]

/-- Minimal mode entered (R478): what is gone, what stays, and what the boot unit says. -/
theorem State.enterMinimal_enters (s : State) (part inst : Nat) :
    let t := s.enterMinimal 3 part inst
    t.tm.power = .minimal ∧ t.fld F.BOOT_STATUS.MODE = 2 ∧ t.fld F.BOOT_CAUSE.KIND = 3 ∧
      t.fld F.BOOT_CAUSE.PART = part % 16 ∧ t.cq.cmds = [] ∧ (∀ k, t.core k = {}) ∧ t.bt = s.bt ∧ t.st.held = s.st.held := by
  obtain ⟨u, stack, shape, power, cmds, cores, boot, held⟩ := s.enterMinimal_discards part inst
  obtain ⟨mode, kind, part_, signals⟩ := u.minimalShown_shows part inst stack
  rw [shape]
  generalize u.minimalShown part inst stack = v at *
  obtain ⟨frame, fields⟩ := v.minimalLink_relinked
  generalize v.minimalLink = t at *
  unfold OnlySignals at signals
  refine ⟨?_, (fields _ rfl (by decide) (by decide)).trans mode, (fields _ rfl (by decide) (by decide)).trans kind,
    (fields _ rfl (by decide) (by decide)).trans part_, ?_, fun k => ?_, ?_, ?_⟩
  · rw [frame, signals]
    exact power
  · rw [frame, signals]
    exact cmds
  · rw [frame, signals]
    show look {} u.tl.cores k = {}
    rw [cores]
    rfl
  · rw [frame, signals]
    exact boot
  · rw [frame, signals]
    exact held

/-- A reset for a black error (R475): the error is no longer in hand. -/
theorem State.blackReset_begins {s : State} (active : s.tm.power = .active) (quiet : s.rs.run = none) :
    let t := s.blackReset 3
    t.tm.power = .resetting ∧ (∃ x, t.rs.run = some x ∧ x.recovery = true) ∧ t.fld F.RST_CAUSE.CAUSE = 3 ∧ t.er.black = none ∧
      t.er.hold = false ∧ t.er.coolSince = none ∧ t.bt.fuses = s.bt.fuses ∧ t.st.held = s.st.held := by
  let u : State := { s with er.black := none, rs.afterBlack := true }
  have asked : s.blackReset 3 = u.resetStart true 3 := by
    have quiet' : u.rs.run = none := quiet
    show u.resetRequest true 3 = _
    unfold State.resetRequest
    rw [quiet']
    exact if_pos active
  have begun := u.resetStart_begins (recovery := true) (cause := 3) (by decide)
  rw [asked]
  dsimp only at begun ⊢
  generalize u.resetStart true 3 = t at begun
  obtain ⟨power, ⟨x, run, recovery, -⟩, -, cause, -, -, -, fuses, -, held, black, hold, cool⟩ := begun
  exact ⟨power, ⟨x, run, recovery⟩, cause, black, hold, cool, fuses, held⟩

section
variable {s : State} {e : ErrRec} (active : s.tm.power = .active) (free : s.st.held = [])
include active free

theorem thermalHold_ends {since : Nat} (cool : s.er.coolSince = some since) (hold : s.er.hold = true)
    (past : since + 100000000 ≤ s.tm.now) (quiet : s.rs.run = none) :
    ∃ t, exec .thermalHoldEnd s = .next t ∧ t.tm.power = .resetting ∧ (∃ x, t.rs.run = some x ∧ x.recovery = true) ∧
      t.er.hold = false ∧ t.er.coolSince = none := by
  have ended : s.thermalHoldEndOp = s.blackReset 3 := by
    unfold State.thermalHoldEndOp
    rw [cool]
    exact if_pos ⟨hold, past⟩
  obtain ⟨power, run, -, -, hold_, cool_, -, held⟩ := State.blackReset_begins active quiet
  have ran : exec .thermalHoldEnd s = .next s.thermalHoldEndOp.drain := rfl
  rw [ended, State.drain_of_none (held.trans free)] at ran
  exact ⟨_, ran, power, run, hold_, cool_⟩

variable (black : s.er.black = some e) (open_ : s.er.hold = false) (due : s.stopState = 3 ∨ e.time + 200000 ≤ s.tm.now)
include black open_ due

omit free in
/-- Firmware's action, once the stop is taken or its time has passed. -/
theorem State.blackActionOp_acts :
    s.blackActionOp = if s.inBlackWindow e ∨ minimalCode e.code then s.enterMinimal 3 e.lossPart.1 e.lossPart.2
      else if overheatCode e.code then ({ s with er.hold := true } : State).watchCool
      else s.blackReset 3 := by
  have waits : ¬(s.er.hold = true ∨ (s.stopState ≠ 3 ∧ s.tm.now < e.time + 200000)) := by
    rw [open_]
    simp
    omega
  unfold State.blackActionOp
  rw [black]
  dsimp only
  rw [if_neg waits, if_neg (fun h => h.1 active)]

theorem blackAction_entersMinimal (loss : s.inBlackWindow e = true ∨ minimalCode e.code = true) :
    ∃ t, exec .blackAction s = .next t ∧ t.tm.power = .minimal ∧
      t.fld F.BOOT_STATUS.MODE = 2 ∧ t.fld F.BOOT_CAUSE.KIND = 3 ∧ t.fld F.BOOT_CAUSE.PART = e.lossPart.1 % 16 ∧
      t.cq.cmds = [] ∧ (∀ k, t.core k = {}) ∧ t.bt = s.bt := by
  have acts := State.blackActionOp_acts active black open_ due
  rw [if_pos loss] at acts
  obtain ⟨power, mode, kind, part, cmds, cores, boot, held⟩ := s.enterMinimal_enters e.lossPart.1 e.lossPart.2
  have ran : exec .blackAction s = .next s.blackActionOp.drain := rfl
  rw [acts, State.drain_of_none (held.trans free)] at ran
  exact ⟨_, ran, power, mode, kind, part, cmds, cores, boot⟩

variable (calm : s.inBlackWindow e = false) (kept : minimalCode e.code = false)
include calm kept

theorem blackAction_holds (hot : overheatCode e.code = true) :
    ∃ t, exec .blackAction s = .next t ∧ t.er.hold = true ∧ t.tm = s.tm ∧ t.rg = s.rg ∧ SameWork s t := by
  have acts := State.blackActionOp_acts active black open_ due
  rw [if_neg (by simp [calm, kept]), if_pos hot] at acts
  have watched : ({ s with er.hold := true } : State).watchCool = { s with er := { s.er with
      hold := true, coolSince := if ({ s with er.hold := true } : State).cool then some (s.er.coolSince.getD s.tm.now) else none } } :=
    if_pos rfl
  have drained := State.drain_of_none (s := ({ s with er.hold := true } : State).watchCool) (by rw [watched]; exact free)
  have ran : exec .blackAction s = .next s.blackActionOp.drain := rfl
  rw [acts, drained, watched] at ran
  exact ⟨_, ran, rfl, rfl, rfl, rfl, rfl, rfl, rfl, rfl⟩

theorem blackAction_resets (other : overheatCode e.code = false) (quiet : s.rs.run = none) :
    ∃ t, exec .blackAction s = .next t ∧ t.tm.power = .resetting ∧ (∃ x, t.rs.run = some x ∧ x.recovery = true) ∧
      t.fld F.RST_CAUSE.CAUSE = 3 ∧ t.er.black = none ∧ t.bt.fuses = s.bt.fuses := by
  have acts := State.blackActionOp_acts active black open_ due
  rw [if_neg (by simp [calm, kept]), if_neg (by simp [other])] at acts
  obtain ⟨power, run, cause, gone, -, -, fuses, held⟩ := State.blackReset_begins active quiet
  have ran : exec .blackAction s = .next s.blackActionOp.drain := rfl
  rw [acts, State.drain_of_none (held.trans free)] at ran
  exact ⟨_, ran, power, run, cause, gone, fuses⟩
end

/-- Settles O29: what firmware does about a black error, by its code, and the end of a thermal hold. -/
theorem blackActions : Obligations.BlackActions := by
  unfold Obligations.BlackActions
  intro s active free
  exact ⟨fun e black open_ due => ⟨blackAction_entersMinimal active free black open_ due,
    blackAction_holds active free black open_ due, blackAction_resets active free black open_ due⟩,
    fun e cool hold past quiet => thermalHold_ends active free cool hold past quiet⟩

end Sys2Proof.Machine
end

section
/-! SUPPORT. The trace buffer: marks, the enable, samples and windows (R512 to R514, R526, R575), and O31. -/

namespace Sys2Proof.Machine

/-! ## A record stored -/

/-- Data within one unit of 64 bytes that no line of the host keeps are written at once. -/
theorem State.devWrite_unit {s : State} {a : Nat} {d : List Byte} (some_ : 0 < d.length) (within : a % 64 + d.length ≤ 64)
    (none : s.hl.filter = []) (quiet : s.hl.recalls = []) : s.devWrite a d = s.devPut a d := by
  have one : ceilDiv (a % 64 + d.length) 64 = 1 := by unfold ceilDiv; omega
  have line : s.devWriteLine a d = s.devPut a d := by
    unfold State.devWriteLine
    refine if_neg ?_
    rw [State.held?, none, quiet]
    simp
  unfold State.devWrite units64
  rw [one]
  have low : ¬ a / 64 * 64 < a → a / 64 * 64 = a := by omega
  have high : ¬ a / 64 * 64 + 64 < a + d.length := by omega
  simp only [List.range_one, List.map_cons, List.map_nil, Nat.add_zero, List.foldl_cons, List.foldl_nil, if_neg high]
  have start : (if a / 64 * 64 < a then a else a / 64 * 64) = a := by
    split
    · rfl
    · omega
  rw [start, Nat.sub_self, List.drop_zero, Nat.add_sub_cancel_left, List.take_length, line]

theorem TraceRec.bytes_length (t : TraceRec) (now : Nat) : (t.bytes now).length = 32 := by
  simp [TraceRec.bytes]

section
variable {s : State} {r : Requester}

/-- A record that is neither a trigger nor beyond its budget, with nothing owed, is stored. -/
theorem State.trace_stores {t : TraceRec} (on : s.fld F.TRC_CFG.ENABLE = 1) (listed : bit (s.fld F.TRC_TYPES.MASK) t.type = true)
    (untriggered : s.fld F.TRC_TRIG.TYPE = 0) (paid : s.tr.owedDrop = 0) (budget : s.tr.used + 32 ≤ s.traceBudget) :
    s.trace t = s.traceStore t := by
  have trigger : s.traceTrigger t = s := by
    unfold State.traceTrigger State.traceTriggers
    rw [untriggered]
    rfl
  have owed : s.traceOwed = s := by
    unfold State.traceOwed
    exact if_neg (by simp [paid])
  unfold State.trace
  rw [if_pos ⟨on, listed⟩, trigger]
  unfold State.traceBudgeted
  dsimp only
  rw [owed]
  exact if_neg (Nat.not_lt.mpr budget)

theorem State.trace_masked {t : TraceRec} (masked : bit (s.fld F.TRC_TYPES.MASK) t.type = false) : s.trace t = s := by
  unfold State.trace
  exact if_neg (by simp [masked])

/-- A record stored with room in the buffer, of which the host holds nothing. -/
theorem State.traceStore_puts {t : TraceRec} (none : s.hl.filter = []) (quiet : s.hl.recalls = []) (some_ : 1 ≤ s.fld F.TRC_COUNT.N)
    (aligned : s.cnt C.TRC_WR % 32 = 0) (room : s.fld F.TRC_CFG.WRAP ≠ 0 ∨ s.cnt C.TRC_WR + 32 ≤ s.traceSize) :
    s.traceStore t = { (((s.devPut (s.traceBase + s.cnt C.TRC_WR % s.traceSize) (t.bytes s.tm.now)).addCnt C.TRC_WR 32).addCnt
      C.TRC_CNT_RECORDS 1) with tr := { s.tr with used := s.tr.used + 32 } } := by
  have size : Nat.max 1 s.traceSize = s.traceSize := by
    unfold State.traceSize
    exact Nat.max_eq_right (by omega)
  have fits : ¬(s.fld F.TRC_CFG.WRAP = 0 ∧ s.traceSize < s.cnt C.TRC_WR + 32) := by omega
  have unit : (s.traceBase + s.cnt C.TRC_WR % s.traceSize) % 32 = 0 := by
    have base : s.traceBase % 32 = 0 := by unfold State.traceBase; omega
    have part : s.cnt C.TRC_WR % s.traceSize % 32 = 0 := by
      rw [Nat.mod_mod_of_dvd _ ⟨s.fld F.TRC_COUNT.N * 2 ^ 16, by unfold State.traceSize; omega⟩]
      exact aligned
    omega
  unfold State.traceStore
  dsimp only
  rw [if_neg fits, size, State.devWrite_unit (by rw [TraceRec.bytes_length]; decide) (by rw [TraceRec.bytes_length]; omega) none quiet]
  rfl

theorem mark_stores {v : W32} (hw : Writable s 0x41 0 r) (on : s.fld F.TRC_CFG.ENABLE = 1)
    (listed : bit (s.fld F.TRC_TYPES.MASK) 15 = true) (untriggered : s.fld F.TRC_TRIG.TYPE = 0) (paid : s.tr.owedDrop = 0)
    (budget : s.tr.used + 32 ≤ s.traceBudget) (none : s.hl.filter = []) (quiet : s.hl.recalls = [])
    (some_ : 1 ≤ s.fld F.TRC_COUNT.N) (aligned : s.cnt C.TRC_WR % 32 = 0) (small : s.cnt C.TRC_WR + 32 < 2 ^ 64)
    (room : s.fld F.TRC_CFG.WRAP ≠ 0 ∨ s.cnt C.TRC_WR + 32 ≤ s.traceSize) :
    let a := s.traceBase + s.cnt C.TRC_WR % s.traceSize
    ∃ t, exec (.mark r v) s = .next t ∧
      t.devRead a 32 = toLE 8 s.tm.now ++ toLE 1 0xF ++ toLE 1 0 ++ toLE 2 313 ++ toLE 2 0xFFFF ++ toLE 2 0xFFFF ++ toLE 4 0 ++
        toLE 4 v.toNat ++ toLE 8 0 ∧
      (∀ x, x < a ∨ a + 32 ≤ x → rdByte t.mm.dev x = rdByte s.mm.dev x) ∧
      t.cnt C.TRC_WR = s.cnt C.TRC_WR + 32 ∧ t.cnt C.TRC_CNT_RECORDS = (s.cnt C.TRC_CNT_RECORDS + 1) % 2 ^ 64 ∧
      t.tr.used = s.tr.used + 32 ∧ t.rg.fields = s.rg.fields ∧ SameWork s t := by
  intro a
  let rec_ : TraceRec := { type := 0xF, arg0 := v.toNat }
  let u := s.addCnt C.GL_CNT_REG_WRITES 1
  have wr : u.cnt C.TRC_WR = s.cnt C.TRC_WR := State.cnt_addCnt_ne _ _ _ _ _ _ _ _ (cntKey_ne (by decide) _ _ _ _)
  have records : u.cnt C.TRC_CNT_RECORDS = s.cnt C.TRC_CNT_RECORDS :=
    State.cnt_addCnt_ne _ _ _ _ _ _ _ _ (by decide)
  have put : u.trace rec_ = { (((u.devPut a (rec_.bytes s.tm.now)).addCnt C.TRC_WR 32).addCnt C.TRC_CNT_RECORDS 1) with
      tr := { s.tr with used := s.tr.used + 32 } } := by
    have stored := State.trace_stores (s := u) (t := rec_) on listed untriggered paid budget
    have puts := State.traceStore_puts (s := u) (t := rec_) none quiet some_ (by rw [wr]; exact aligned) (by rw [wr]; exact room)
    rw [stored, puts, wr]
    rfl
  have ran : exec (.mark r v) s = .next (u.trace rec_) := congrArg Host.Outcome.next (hw.opWrite _ _ _)
  rw [put] at ran
  have length : (rec_.bytes s.tm.now).length = 32 := rec_.bytes_length _
  generalize hd : rec_.bytes s.tm.now = d at ran length
  refine ⟨_, ran, ?_, fun x apart => ?_, ?_, ?_, rfl, rfl, rfl, rfl, rfl, rfl, rfl⟩
  · refine Eq.trans ?_ hd.symm
    rw [← length]
    exact rdBytes_wrBytes_self _ _ _
  · exact rdByte_wrBytes_out (by rw [length]; exact apart)
  · refine (State.cnt_addCnt_ne _ C.TRC_CNT_RECORDS C.TRC_WR 1 0 0 0 0 (cntKey_ne (by decide) _ _ _ _)).trans ?_
    refine (State.cnt_addCnt _ C.TRC_WR 32 0 0).trans ?_
    show (u.cnt C.TRC_WR + 32) % 2 ^ 64 = _
    rw [wr]
    exact Nat.mod_eq_of_lt small
  · refine (State.cnt_addCnt _ C.TRC_CNT_RECORDS 1 0 0).trans ?_
    refine congrArg (fun n => (n + 1) % 2 ^ 64) ?_
    exact (State.cnt_addCnt_ne _ C.TRC_WR C.TRC_CNT_RECORDS 32 0 0 0 0 (cntKey_ne (by decide) _ _ _ _)).trans records

/-! ## The enable -/

/-- What TRC_CFG's other fields take, while the engine is not enabled. -/
def State.trcCfgTaken (s : State) (v : Nat) : State :=
  let u := s.setFld F.TRC_CFG.SHARE (bits v 8 4)
  if bits v 1 1 = u.fld F.TRC_CFG.WRAP then u else u.setFld F.TRC_CFG.WRAP (bits v 1 1)

theorem State.trcCfgTaken_takes (s : State) (v : Nat) :
    let t := s.trcCfgTaken v
    t.fld F.TRC_CFG.SHARE = bits v 8 4 ∧ t.fld F.TRC_CFG.WRAP = bits v 1 1 ∧ t.fld F.TRC_CFG.ENABLE = s.fld F.TRC_CFG.ENABLE ∧
      t.traceBufferOk = s.traceBufferOk ∧ OnlyRegs s t := by
  have share : (s.setFld F.TRC_CFG.SHARE (bits v 8 4)).fld F.TRC_CFG.SHARE = bits v 8 4 :=
    (State.fld_setFld _ _ _ _ _).trans (Nat.mod_mod _ _)
  have buffer : ∀ (u : State) (f : Field) (x : Nat), fieldKey F.TRC_BASE.BASE 0 0 ≠ fieldKey f 0 0 →
      fieldKey F.TRC_COUNT.N 0 0 ≠ fieldKey f 0 0 → (u.setFld f x).traceBufferOk = u.traceBufferOk := by
    intro u f x base count
    unfold State.traceBufferOk
    rw [State.fld_setFld_other _ base, State.fld_setFld_other _ count]
    rfl
  have enable : (s.setFld F.TRC_CFG.SHARE (bits v 8 4)).fld F.TRC_CFG.ENABLE = s.fld F.TRC_CFG.ENABLE :=
    State.fld_setFld_other _ (by decide)
  have kept := buffer s F.TRC_CFG.SHARE (bits v 8 4) (by decide) (by decide)
  intro t
  have ht : t = s.trcCfgTaken v := rfl
  unfold State.trcCfgTaken at ht
  dsimp only at ht
  clear_value t
  split at ht
  · next same =>
    subst ht
    exact ⟨share, same.symm, enable, kept, rfl⟩
  · subst ht
    refine ⟨(State.fld_setFld_other _ (by decide)).trans share, (State.fld_setFld _ _ _ _ _).trans (Nat.mod_mod _ _),
      (State.fld_setFld_other _ (by decide)).trans enable, (buffer _ _ _ (by decide) (by decide)).trans kept, rfl⟩

section
variable {v : W32} (hw : Writable s 0x41 0 r)
include hw

theorem trcCfg_written :
    exec (.trcCfgEnable r v) s = .next ((s.addCnt C.GL_CNT_REG_WRITES 1).trcCfgWrite v.toNat) :=
  congrArg Host.Outcome.next (hw.opWrite _ _ _)

theorem trcCfg_enables (off : s.fld F.TRC_CFG.ENABLE = 0) (asked : v.toNat % 2 = 1) :
    (s.traceBufferOk = true → ∃ t, exec (.trcCfgEnable r v) s = .next t ∧ t.fld F.TRC_CFG.ENABLE = 1 ∧
      t.fld F.TRC_CFG.SHARE = bits v.toNat 8 4 ∧ t.fld F.TRC_CFG.WRAP = bits v.toNat 1 1 ∧ t.cnt C.TRC_WR = 0 ∧
      t.fld F.TRC_STATUS.TRIGGERED = 0 ∧ t.fld F.TRC_STATUS.FULL = 0 ∧ t = { s with rg := t.rg, tr := t.tr }) ∧
    (s.traceBufferOk = false → ∃ t, exec (.trcCfgEnable r v) s = .next t ∧ t.fld F.TRC_CFG.ENABLE = 0 ∧
      t.fld (F.PG_STATUS.WRITE_REJECT 0x41) = 1 ∧ OnlyRegs s t) := by
  let u := s.addCnt C.GL_CNT_REG_WRITES 1
  have off_u : u.fld F.TRC_CFG.ENABLE = 0 := off
  obtain ⟨share, wrap, enable, buffer, regs⟩ := u.trcCfgTaken_takes v.toNat
  have decided : u.trcCfgWrite v.toNat = if (u.trcCfgTaken v.toNat).traceBufferOk then (u.trcCfgTaken v.toNat).traceOn
      else (u.trcCfgTaken v.toNat).reject 0x41 0 := by
    unfold State.trcCfgWrite
    dsimp only
    rw [off_u, asked]
    rfl
  have ran : exec (.trcCfgEnable r v) s = .next _ := (trcCfg_written hw).trans (congrArg Host.Outcome.next decided)
  have regs' : OnlyRegs s (u.trcCfgTaken v.toNat) := OnlyRegs.trans (show OnlyRegs s u from rfl) regs
  have buffer' : (u.trcCfgTaken v.toNat).traceBufferOk = s.traceBufferOk := buffer
  generalize u.trcCfgTaken v.toNat = w at *
  rw [buffer'] at ran
  unfold OnlyRegs at regs'
  refine ⟨fun ok => ?_, fun bad => ?_⟩
  · rw [if_pos ok] at ran
    refine ⟨_, ran, ?_, ?_, ?_, ?_, ?_, ?_, ?_⟩
    · refine (State.fld_setFld_other _ (by decide)).trans ?_
      refine (State.fld_setFld_other _ (by decide)).trans ?_
      exact (State.fld_setFld_other _ (by decide)).trans (State.fld_setFld w F.TRC_CFG.ENABLE 1 0 0)
    · refine (State.fld_setFld_other _ (by decide)).trans ?_
      refine (State.fld_setFld_other _ (by decide)).trans ?_
      refine (State.fld_setFld_other _ (by decide)).trans ?_
      exact (State.fld_setFld_other w (by decide)).trans share
    · refine (State.fld_setFld_other _ (by decide)).trans ?_
      refine (State.fld_setFld_other _ (by decide)).trans ?_
      refine (State.fld_setFld_other _ (by decide)).trans ?_
      exact (State.fld_setFld_other w (by decide)).trans wrap
    · exact State.cnt_setCnt (w.setFld F.TRC_CFG.ENABLE 1) C.TRC_WR 0 0 0
    · refine (State.fld_setFld_other _ (by decide)).trans ?_
      exact State.fld_setFld _ F.TRC_STATUS.TRIGGERED 0 0 0
    · refine (State.fld_setFld_other _ (by decide)).trans ?_
      refine (State.fld_setFld_other _ (by decide)).trans ?_
      exact State.fld_setFld _ F.TRC_STATUS.FULL 0 0 0
    · rw [regs']
      rfl
  · rw [if_neg (by rw [bad]; decide)] at ran
    obtain ⟨rejected, others, only⟩ := w.reject_rejects 0x41 0
    exact ⟨_, ran, (others.fld (by decide)).trans (enable.trans off), rejected, OnlyRegs.trans regs' only⟩

theorem trcCfg_disables (on : s.fld F.TRC_CFG.ENABLE = 1) (asked : v.toNat % 2 = 0) :
    ∃ t, exec (.trcCfgEnable r v) s = .next t ∧ t.fld F.TRC_CFG.ENABLE = 0 ∧ OnlyRegs s t := by
  let u := s.addCnt C.GL_CNT_REG_WRITES 1
  have on_u : u.fld F.TRC_CFG.ENABLE = 1 := on
  let w := u.setFld F.TRC_CFG.SHARE (bits v.toNat 8 4)
  have decided : u.trcCfgWrite v.toNat =
      (if bits v.toNat 1 1 = w.fld F.TRC_CFG.WRAP then w else w.reject 0x41 0).setFld F.TRC_CFG.ENABLE 0 := by
    unfold State.trcCfgWrite
    dsimp only
    rw [on_u, asked]
    rfl
  refine ⟨_, (trcCfg_written hw).trans (congrArg Host.Outcome.next decided), State.fld_setFld _ _ _ _ _, ?_⟩
  have regs : OnlyRegs s w := rfl
  refine OnlyRegs.trans (t := if bits v.toNat 1 1 = w.fld F.TRC_CFG.WRAP then w else w.reject 0x41 0) ?_ rfl
  split
  · exact regs
  · exact OnlyRegs.trans regs (w.reject_rejects 0x41 0).2.2
end

/-! ## Samples and windows -/

theorem State.traceStore_lastSample (s : State) (t : TraceRec) : (s.traceStore t).tr.lastSample = s.tr.lastSample := by
  refine s.traceStore_cases t (fun u => u.tr.lastSample = s.tr.lastSample) ?_ ?_ fun a n => ?_
  · rw [State.setInt_tr]; rfl
  · rw [State.setInt_tr]
    show ((s.setFld F.TRC_STATUS.FULL 1).setInt F.TRC_INT_STATUS.FULL).tr.lastSample = _
    rw [State.setInt_tr]; rfl
  · show (s.devWrite a (t.bytes s.tm.now)).tr.lastSample = _
    rw [State.devWrite_tr]

theorem State.trace_lastSample (s : State) (t : TraceRec) : (s.trace t).tr.lastSample = s.tr.lastSample := by
  have triggered : (s.traceTrigger t).tr = s.tr := by
    unfold State.traceTrigger
    dsimp only
    split
    · split
      · rw [State.takeStop_tr, State.setInt_tr]; rfl
      · rw [State.setInt_tr]; rfl
    · rfl
  have owed : ∀ u : State, u.traceOwed.tr.lastSample = u.tr.lastSample := by
    intro u
    unfold State.traceOwed
    split
    · exact State.traceStore_lastSample u _
    · rfl
  have dropped : ∀ u : State, u.traceDrop.tr.lastSample = u.tr.lastSample := by
    intro u
    show ((u.addCnt C.TRC_CNT_DROPPED 1).setInt F.TRC_INT_STATUS.DROPPED).tr.lastSample = _
    rw [State.setInt_tr]
    rfl
  unfold State.trace
  split
  · unfold State.traceBudgeted
    dsimp only
    split
    · rw [dropped, owed, triggered]
    · rw [State.traceStore_lastSample, owed, triggered]
  · rfl

/-- A run of records leaves the work, the time, and when the last samples were taken. -/
structure Sampled (s t : State) : Prop where
  time : t.tm = s.tm
  work : SameWork s t
  sampled : t.tr.lastSample = s.tr.lastSample

theorem Sampled.refl (s : State) : Sampled s s := ⟨rfl, ⟨rfl, rfl, rfl, rfl, rfl⟩, rfl⟩

theorem Sampled.trans {s t u : State} (h : Sampled s t) (h' : Sampled t u) : Sampled s u := by
  obtain ⟨time, ⟨cq, wh, kv, tl, sc⟩, sampled⟩ := h
  obtain ⟨time', ⟨cq', wh', kv', tl', sc'⟩, sampled'⟩ := h'
  exact ⟨time'.trans time, ⟨cq'.trans cq, wh'.trans wh, kv'.trans kv, tl'.trans tl, sc'.trans sc⟩, sampled'.trans sampled⟩

theorem Sampled.foldl {α : Type} {f : State → α → State} (step : ∀ u x, Sampled u (f u x)) (l : List α) (s : State) :
    Sampled s (l.foldl f s) := by
  induction l generalizing s with
  | nil => exact .refl s
  | cons x l ih => exact (step s x).trans (ih _)

theorem State.trace_sampled (s : State) (t : TraceRec) : Sampled s (s.trace t) :=
  ⟨s.trace_tm t, ⟨s.trace_cq t, s.trace_wh t, s.trace_kv t, s.trace_tl t, s.trace_sc t⟩, s.trace_lastSample t⟩

theorem State.sampleInst_sampled (s : State) (cls inst : Nat) : Sampled s (s.sampleInst cls inst) :=
  Sampled.foldl (fun u _ => u.trace_sampled _) _ _

theorem State.sampleInst_masked {cls inst : Nat} (masked : bit (s.fld F.TRC_TYPES.MASK) 11 = false) : s.sampleInst cls inst = s := by
  unfold State.sampleInst
  generalize List.range 12 = l
  induction l with
  | nil => rfl
  | cons n l ih => rw [List.foldl_cons, State.trace_masked masked, ih]

theorem sample_samples (due : s.sampleDue = true) :
    ∃ t, exec .sample s = .next t ∧ t.tr.lastSample = s.tm.now ∧ t.tm = s.tm ∧
      (bit (s.fld F.TRC_TYPES.MASK) 11 = false → t = { s with tr.lastSample := s.tm.now }) ∧
      (let cls := s.fld F.TRC_SAMPLE.CLASS
       t = (List.range ((instancesOf cls).getD 0)).foldl (fun u i => u.sampleInst cls i) { s with tr.lastSample := s.tm.now }) ∧
      SameWork s t := by
  let cls := s.fld F.TRC_SAMPLE.CLASS
  let u : State := { s with tr.lastSample := s.tm.now }
  have ran : s.sample = (List.range ((instancesOf cls).getD 0)).foldl (fun u i => u.sampleInst cls i) u := if_pos due
  obtain ⟨time, work, sampled⟩ := Sampled.foldl (fun u i => u.sampleInst_sampled cls i) (List.range ((instancesOf cls).getD 0)) u
  refine ⟨_, congrArg Host.Outcome.next ran, sampled, time, fun masked => ?_, rfl, work⟩
  generalize List.range ((instancesOf cls).getD 0) = l
  have masked_u : bit (u.fld F.TRC_TYPES.MASK) 11 = false := masked
  show l.foldl (fun u i => u.sampleInst cls i) u = u
  clear_value u
  induction l with
  | nil => rfl
  | cons n l ih => rw [List.foldl_cons, State.sampleInst_masked masked_u, ih]

theorem State.windowOver_ends (s : State) :
    let t := s.windowOver
    t.tr = { s.tr with owedDrop := s.tr.owedDrop + s.tr.dropped, owedWins := s.tr.owedWins + b2n (s.tr.dropped != 0), used := 0,
                       dropped := 0, window := s.tm.now / 10000 } ∧
      t.fld F.TRC_STATUS.THROTTLED = (if s.tr.dropped = 0 then 0 else 1) ∧
      (s.tr.dropped ≠ 0 → Raised s t 0x4101 0 0) ∧ (s.tr.dropped = 0 → t.er = s.er) ∧
      t = { s with rg := t.rg, tr := t.tr, er.collector := t.er.collector } := by
  have shown : ∀ b : Nat, b < 2 → ((s.setFld F.TRC_STATUS.THROTTLED b).addCnt C.TRC_CNT_THROTTLED b).fld F.TRC_STATUS.THROTTLED = b :=
    fun b hb => (State.fld_setFld s F.TRC_STATUS.THROTTLED b 0 0).trans (Nat.mod_eq_of_lt hb)
  unfold State.windowOver
  dsimp only
  by_cases kept : s.tr.dropped = 0
  · have none : b2n (s.tr.dropped != 0) = 0 := by rw [kept]; rfl
    rw [none, if_neg (by decide)]
    refine ⟨rfl, (shown 0 (by decide)).trans (if_pos kept).symm, fun lost => absurd kept lost, fun _ => rfl, rfl⟩
  · have one : b2n (s.tr.dropped != 0) = 1 := by simp [b2n, kept]
    rw [one, if_pos rfl]
    have raised := ((s.setFld F.TRC_STATUS.THROTTLED 1).addCnt C.TRC_CNT_THROTTLED 1).raise_raised 0x4101 0 0 0 0xFFFF 0xFFFF 0 0
    refine ⟨rfl, (shown 1 (by decide)).trans (if_neg kept).symm, fun _ => raised, fun no => absurd no kept, ?_⟩
    simp [State.raise, overheatCode, State.setFld, State.addCnt, State.setCnt]

theorem throttleWindow_begins (past : s.tr.window < s.tm.now / 10000) :
    ∃ t, exec .throttleWindow s = .next t ∧ t.tr.window = s.tm.now / 10000 ∧
      t.tr.used = 0 ∧ t.tr.dropped = 0 ∧ t.tr.owedDrop = s.tr.owedDrop + s.tr.dropped ∧
      t.fld F.TRC_STATUS.THROTTLED = (if s.tr.dropped = 0 then 0 else 1) ∧
      (s.tr.dropped ≠ 0 → Raised s t 0x4101 0 0) ∧ (s.tr.dropped = 0 → t.er = s.er) ∧
      t.tr.lastSample = s.tr.lastSample ∧ t = { s with rg := t.rg, tr := t.tr, er.collector := t.er.collector } := by
  let u := ((s.applyField F.TRC_TYPES.MASK).applyField F.TRC_SAMPLE.US).applyField F.TRC_SAMPLE.CLASS
  have applied : u = { s with rg := u.rg } := by
    unfold u
    rw [State.applyField_frame (State.applyField _ _ _ _) F.TRC_SAMPLE.CLASS, State.applyField_frame (State.applyField _ _ _ _) F.TRC_SAMPLE.US,
      State.applyField_frame s F.TRC_TYPES.MASK]
  have ran : s.throttleWindow = u.windowOver := if_pos past
  obtain ⟨tr, throttled, raised, kept, frame⟩ := u.windowOver_ends
  generalize u.windowOver = t at *
  have own : ∃ g, u = { s with rg := g } := ⟨_, applied⟩
  clear_value u
  obtain ⟨g, rfl⟩ := own
  refine ⟨t, congrArg Host.Outcome.next ran, ?_, ?_, ?_, ?_, throttled, raised, kept, ?_, frame⟩ <;> rw [tr]
end

/-- Settles O31: marks, the enable, samples and windows of the trace. -/
theorem traceBuffer : Obligations.TraceBuffer := by
  unfold Obligations.TraceBuffer
  exact ⟨fun s r v hw on listed untriggered paid budget none quiet some_ aligned small room =>
      mark_stores hw on listed untriggered paid budget none quiet some_ aligned small room,
    fun s => ⟨fun r v hw off asked => trcCfg_enables hw off asked, fun r v hw on asked => trcCfg_disables hw on asked,
      fun due => sample_samples due, fun past => throttleWindow_begins past⟩⟩

end Sys2Proof.Machine
end

section
/-! SUPPORT. Attestation, tree generation and the firmware update (R486 to R493), and O26. -/

namespace Sys2Proof.Machine

/-! ## Signing (R490 to R492) -/

/-- The signer's state once one index of its block is used. -/
def Sign.used (g : Sign) : Sign :=
  { g with next := if g.left - 1 = 0 then none else some (g.next.getD 0 + 1), left := g.left - 1,
           exhausted := g.next.getD 0 + 1 = 2 ^ 30 }

/-- A report signed uses up one index; nothing else of the boot unit changes. -/
theorem State.sign_signs (s : State) (nonce : List Byte) :
    let t := (s.sign nonce).1
    t.bt = { s.bt with sign := s.bt.sign.used } ∧ t.cnt C.SEC_CNT_SIGNED = (s.cnt C.SEC_CNT_SIGNED + 1) % 2 ^ 64 ∧
      t.cnt C.SEC_CNT_RESERVED = s.cnt C.SEC_CNT_RESERVED := by
  let u : State := ({ s with bt.sign := s.bt.sign.used } : State).addCnt C.SEC_CNT_SIGNED 1
  let v := if s.bt.sign.used.exhausted then u.setFld F.SEC_STATUS.NO_SIGN 1 else u
  let w := if 2 ^ 20 ≤ s.indicesLeft ∧ v.indicesLeft < 2 ^ 20 then (v.setInt F.SEC_INT_STATUS.LOW_INDICES).raise 0x0D01 0 else v
  have signed : (s.sign nonce).1 = w.showIndex := rfl
  have exhausted : v.bt = u.bt ∧ ∀ c, v.cnt c = u.cnt c := by
    unfold v
    split <;> exact ⟨rfl, fun _ => rfl⟩
  have low : w.bt = v.bt ∧ ∀ c, w.cnt c = v.cnt c := by
    unfold w
    split
    · exact ⟨State.setInt_bt _ _ _, fun c => State.cnt_setInt v _ _ c _ _⟩
    · exact ⟨rfl, fun _ => rfl⟩
  have shown : ∀ c : Cnt, cntKey c 0 0 ≠ cntKey C.SEC_NEXT_INDEX 0 0 → w.showIndex.cnt c = u.cnt c := fun c apart =>
    (State.cnt_setCnt_ne w _ _ _ _ _ _ _ apart).trans ((low.2 c).trans (exhausted.2 c))
  dsimp only
  rw [signed]
  refine ⟨low.1.trans exhausted.1, (shown _ (by decide)).trans (State.cnt_addCnt _ _ _ _ _),
    (shown _ (by decide)).trans (State.cnt_addCnt_ne _ _ _ _ _ _ _ _ (by decide))⟩

/-- A block reserved (R486, R487): its record is committed, and it is held whole. -/
theorem State.reserve_reserves (s : State) :
    let t := s.reserve
    logValue t.bt.resLog 4 = some s.nextBlock ∧ t.bt.sign.next = some s.nextBlock ∧ t.bt.sign.left = 256 ∧
      t.cnt C.SEC_CNT_RESERVED = (s.cnt C.SEC_CNT_RESERVED + 1) % 2 ^ 64 := by
  have started : ∀ (u : State) (n : Nat), (u.startTree n).bt.resLog = u.bt.resLog ∧ (u.startTree n).bt.sign.next = u.bt.sign.next ∧
      (u.startTree n).bt.sign.left = u.bt.sign.left ∧ ∀ c, (u.startTree n).cnt c = u.cnt c := by
    intro u n
    unfold State.startTree
    dsimp only
    split <;> exact ⟨rfl, rfl, rfl, fun _ => rfl⟩
  unfold State.reserve
  dsimp only
  generalize s.nextBlock - _ = skip
  obtain ⟨log, next, left, cnts⟩ := started
    { (((s.commitRes 4 s.nextBlock).addCnt C.SEC_CNT_RESERVED 1).addCnt C.SEC_CNT_ABANDONED (s.bt.sign.lost + skip)) with
      bt.sign.next := some s.nextBlock, bt.sign.left := 256, bt.sign.lost := 0 } s.nextBlock
  refine ⟨?_, next, left, (cnts _).trans ?_⟩
  · refine (congrArg (fun l => logValue l 4) log).trans ?_
    exact logValue_appendLog_self _ _ _ _
  · refine (State.cnt_addCnt_ne (((s.commitRes 4 s.nextBlock).addCnt C.SEC_CNT_RESERVED 1)) C.SEC_CNT_ABANDONED C.SEC_CNT_RESERVED
      (s.bt.sign.lost + skip) 0 0 0 0 (by decide)).trans ?_
    refine (State.cnt_addCnt _ _ _ _ _).trans ?_
    refine congrArg (fun n => (n + 1) % 2 ^ 64) ?_
    exact State.cnt_addCnt_ne _ _ _ _ _ _ _ _ (by decide)

section
variable {s : State} {nonce : List Byte}

section
variable (serves : s.mgmtServes = true) (whole : nonce.length = 32)
include serves whole

theorem attest_signs {i : Nat} (alive : s.lcState ≠ 4) (more : s.bt.sign.exhausted = false) (next : s.bt.sign.next = some i)
    (left : 1 ≤ s.bt.sign.left) :
    ∃ t, exec (.attest nonce) s = .next t ∧
      .mgmt 3 0 (s.report nonce i ++ (List.range 5396).map (Config.hssSign i (s.report nonce i))) ∈ t.hl.out ∧
      t.bt.sign.next = (if s.bt.sign.left = 1 then none else some (i + 1)) ∧ t.bt.sign.left = s.bt.sign.left - 1 ∧
      t.cnt C.SEC_CNT_SIGNED = (s.cnt C.SEC_CNT_SIGNED + 1) % 2 ^ 64 ∧ t.bt.resLog = s.bt.resLog ∧
      t.bt.fuses = s.bt.fuses := by
  let u := s.addCnt C.MG_CNT_I3C_MSGS 1
  have op : u.attestOp nonce = u.sign nonce := by
    have alive' : u.lcState ≠ 4 := alive
    have more' : u.bt.sign.exhausted = false := more
    have held : u.bt.sign.next.isSome = true := by rw [show u.bt.sign.next = some i from next]; rfl
    have ready : u.treeReady = true := by rw [State.treeReady, held]; rfl
    simp [State.attestOp, whole, alive', more', ready, held]
  have served := State.onI3c_served 3 (fun s => s.attestOp nonce) serves
  dsimp only at served
  rw [op] at served
  obtain ⟨boot, signed, -⟩ := u.sign_signs nonce
  have data : (u.sign nonce).2 = { data := s.report nonce i ++ (List.range 5396).map (Config.hssSign i (s.report nonce i)) } := by
    have index : u.bt.sign.next.getD 0 = i := by rw [show u.bt.sign.next = some i from next]; rfl
    have same : u.report nonce i = s.report nonce i := rfl
    unfold State.sign
    dsimp only
    rw [index, same]
  rw [data] at served
  generalize (u.sign nonce).1 = t at *
  rw [State.emit_mgmt] at served
  refine ⟨_, congrArg Host.Outcome.next served, List.mem_append_right _ (List.mem_singleton_self _), ?_, ?_, ?_, ?_, ?_⟩
  · refine (congrArg (fun b : Bt => b.sign.next) boot).trans ?_
    show (if s.bt.sign.left - 1 = 0 then none else some (s.bt.sign.next.getD 0 + 1)) = _
    rw [next]
    by_cases one : s.bt.sign.left = 1
    · rw [if_pos one, if_pos (by omega)]
    · rw [if_neg one, if_neg (by omega)]
      rfl
  · exact congrArg (fun b : Bt => b.sign.left) boot
  · refine signed.trans ?_
    refine congrArg (fun n => (n + 1) % 2 ^ 64) ?_
    exact State.cnt_addCnt_ne _ _ _ _ _ _ _ _ (by decide)
  · refine (congrArg Bt.resLog boot).trans ?_
    rfl
  · refine (congrArg Bt.fuses boot).trans ?_
    rfl

theorem attest_reserves (alive : s.lcState ≠ 4) (more : s.bt.sign.exhausted = false) (none_ : s.bt.sign.next = none)
    (ready : s.treeReady = true) :
    ∃ t, exec (.attest nonce) s = .next t ∧ logValue t.bt.resLog 4 = some s.nextBlock ∧
      t.bt.sign.next = some (s.nextBlock + 1) ∧ t.bt.sign.left = 255 ∧
      t.cnt C.SEC_CNT_RESERVED = (s.cnt C.SEC_CNT_RESERVED + 1) % 2 ^ 64 := by
  let u := s.addCnt C.MG_CNT_I3C_MSGS 1
  have op : u.attestOp nonce = u.reserve.sign nonce := by
    have alive' : u.lcState ≠ 4 := alive
    have more' : u.bt.sign.exhausted = false := more
    have held : u.bt.sign.next.isSome = false := by rw [show u.bt.sign.next = none from none_]; rfl
    have ready' : u.treeReady = true := ready
    simp [State.attestOp, whole, alive', more', ready', held]
  have served := State.onI3c_served 3 (fun s => s.attestOp nonce) serves
  dsimp only at served
  rw [op] at served
  obtain ⟨log, next, left, reserved⟩ := u.reserve_reserves
  have block : u.nextBlock = s.nextBlock := rfl
  rw [block] at log next
  have counted : u.cnt C.SEC_CNT_RESERVED = s.cnt C.SEC_CNT_RESERVED := State.cnt_addCnt_ne _ _ _ _ _ _ _ _ (by decide)
  rw [counted] at reserved
  generalize u.reserve = v at *
  obtain ⟨boot, -, kept⟩ := v.sign_signs nonce
  generalize v.sign nonce = x at *
  rw [State.emit_mgmt] at served
  refine ⟨_, congrArg Host.Outcome.next served, ?_, ?_, ?_, kept.trans reserved⟩
  · exact (congrArg (fun b : Bt => logValue b.resLog 4) boot).trans log
  · refine (congrArg (fun b : Bt => b.sign.next) boot).trans ?_
    show (if v.bt.sign.left - 1 = 0 then none else some (v.bt.sign.next.getD 0 + 1)) = _
    rw [left, next]
    rfl
  · refine (congrArg (fun b : Bt => b.sign.left) boot).trans ?_
    show v.bt.sign.left - 1 = 255
    rw [left]

theorem attest_exhausted (none_ : s.bt.sign.exhausted = true) :
    ∃ t, exec (.attest nonce) s = .next t ∧ .mgmt 3 2 [] ∈ t.hl.out ∧ t.fld F.SEC_STATUS.NO_SIGN = 1 ∧ t.bt = s.bt := by
  let u := s.addCnt C.MG_CNT_I3C_MSGS 1
  have op : u.attestOp nonce = (u.setFld F.SEC_STATUS.NO_SIGN 1, { status := 2 }) := by
    have none' : u.bt.sign.exhausted = true := none_
    simp [State.attestOp, whole, none']
  have served := State.onI3c_served 3 (fun s => s.attestOp nonce) serves
  dsimp only at served
  rw [op, State.emit_mgmt] at served
  exact ⟨_, congrArg Host.Outcome.next served, List.mem_append_right _ (List.mem_singleton_self _), State.fld_setFld _ _ _ _ _, rfl⟩
end

theorem treeDone_commits {j e : Nat} (running : s.bt.sign.generating = some (j, e)) (powered : s.powered = true)
    (past : e + 1450000000 ≤ s.tm.now) :
    ∃ t, exec .treeDone s = .next t ∧ logValue t.bt.resLog 5 = some j ∧ j ∈ t.bt.sign.stored ∧
      t.bt.sign.generating = none ∧ t.fld F.SEC_STATUS.TREE_GEN = 0 ∧ t.fld F.SEC_STATUS.TREE_READY = 1 ∧
      t.fld F.SEC_INT_STATUS.TREE_DONE = 1 ∧ t.bt.sign.next = s.bt.sign.next := by
  let u : State := { s.commitRes 5 j with bt.sign := { s.bt.sign with
    generating := none, stored := s.bt.sign.stored ++ [j], signedTrees := s.bt.sign.signedTrees ++ [j] } }
  have done : s.treeDone = ((u.setFld F.SEC_STATUS.TREE_GEN 0).setFld F.SEC_STATUS.TREE_READY 1).setInt F.SEC_INT_STATUS.TREE_DONE := by
    unfold State.treeDone
    rw [running]
    exact if_neg (by simp [powered]; omega)
  refine ⟨_, congrArg Host.Outcome.next done, ?_, ?_, ?_, ?_, ?_, State.fld_setInt _ _ _, ?_⟩
  · rw [State.setInt_bt]
    exact logValue_appendLog_self _ _ _ _
  · rw [State.setInt_bt]
    exact List.mem_append_right _ (List.mem_singleton_self _)
  · rw [State.setInt_bt]
    rfl
  · refine (State.fld_setInt_other _ (by decide)).trans ?_
    exact (State.fld_setFld_other _ (by decide)).trans (State.fld_setFld _ _ _ _ _)
  · exact (State.fld_setInt_other _ (by decide)).trans (State.fld_setFld _ _ _ _ _)
  · rw [State.setInt_bt]
    rfl

/-! ## The firmware update (R493) -/

/-- What the last write of a byte put there is found, wherever it stands. -/
theorem find_hostPut (m : Mem) (a : Nat) (b : Byte) (x : Nat) :
    (hostPut m a b).find? (fun c => c.1 == x) = if x = a then some (a, b) else m.find? (fun c => c.1 == x) := by
  induction m with
  | nil => by_cases h : x = a <;> simp [hostPut, h, Ne.symm]
  | cons e m ih =>
    obtain ⟨j, w⟩ := e
    unfold hostPut
    by_cases below : a < j
    · rw [if_pos below]
      rw [List.find?_cons]
      by_cases h : x = a
      · simp [h]
      · simp [h, beq_eq_false_iff_ne.mpr (Ne.symm h)]
    · rw [if_neg below]
      by_cases same : a = j
      · rw [if_pos same]
        subst same
        by_cases h : x = a
        · simp [h]
        · simp [h, beq_eq_false_iff_ne.mpr (Ne.symm h)]
      · rw [if_neg same, List.find?_cons, List.find?_cons, ih]
        by_cases h : x = a
        · subst h
          simp [beq_eq_false_iff_ne.mpr (Ne.symm same)]
        · simp [h]

theorem find_hostPuts (d : List Byte) (m : Mem) (a x : Nat) :
    (hostPuts m a d).find? (fun c => c.1 == x) =
      if a ≤ x ∧ x < a + d.length then some (x, d.getD (x - a) 0) else m.find? (fun c => c.1 == x) := by
  induction d generalizing m a with
  | nil => exact (if_neg (by simp)).symm
  | cons b d ih =>
    unfold hostPuts
    rw [ih, find_hostPut]
    by_cases first : x = a
    · subst first
      simp
    · by_cases within : a + 1 ≤ x ∧ x < a + 1 + d.length
      · rw [if_pos within, if_pos (by simp; omega)]
        obtain ⟨n, rfl⟩ : ∃ n, x = a + 1 + n := ⟨x - (a + 1), by omega⟩
        simp [show a + 1 + n - a = n + 1 by omega]
      · rw [if_neg within, if_neg first, if_neg (by simp; omega)]

/-- The flash after data are written there. -/
theorem State.flashByte_hostPuts {t : State} {d : List Byte} {a : Nat} (put : t.bt.flash = hostPuts s.bt.flash a d)
    (same : t.bt.erased = s.bt.erased) (x : Nat) :
    t.flashByte x = if a ≤ x ∧ x < a + d.length then d.getD (x - a) 0 else s.flashByte x := by
  unfold State.flashByte
  rw [put, find_hostPuts, same]
  by_cases within : a ≤ x ∧ x < a + d.length
  · rw [if_pos within, if_pos within]
  · rw [if_neg within, if_neg within]

/-- Whether a slot's image is good rests on the flash and the fuses alone. -/
theorem State.slotOk_of_boot {t : State} (flash : t.bt.flash = s.bt.flash) (erased : t.bt.erased = s.bt.erased)
    (fuses : t.bt.fuses = s.bt.fuses) (k : Nat) : t.slotOk k = s.slotOk k := by
  have byte : t.flashByte = s.flashByte := by
    funext a
    unfold State.flashByte
    rw [flash, erased]
  have bytes : t.flashBytes = s.flashBytes := by
    funext a n
    unfold State.flashBytes
    rw [byte]
  have delivered : t.asDelivered k = s.asDelivered k := by
    unfold State.asDelivered
    rw [flash, erased]
  unfold State.slotOk State.slotCode State.signedBy fwHeader
  rw [bytes, delivered, fuses]

theorem requestUpdate_starts (serves : s.mgmtServes = true) {size : Nat} (alive : s.lcState ≠ 4) (idle : s.bt.update = none) :
    ∃ t, exec (.requestUpdate size) s = .next t ∧
      t.bt.update = some { slot := 1 - s.fld F.BOOT_STATUS.SLOT, size := Nat.min size 0x1000000, received := 0 } ∧
      t.hl.out = s.hl.out ++ [.mgmt 0x110 0 [], .mgmt 0x115 0 (toLE 4 0 ++ toLE 4 (Nat.min 4096 size))] ∧
      t = { s with bt.update := t.bt.update, hl.out := t.hl.out } := by
  let u : State := { s with
    bt.update := some { slot := 1 - s.fld F.BOOT_STATUS.SLOT, size := Nat.min size 0x1000000, received := 0 } }
  have op : s.requestUpdateOp size =
      (u.emit (.mgmt 0x110 0 [])).emit (.mgmt 0x115 0 (toLE 4 0 ++ toLE 4 (Nat.min 4096 size))) := by
    unfold State.requestUpdateOp
    rw [if_neg (by simp [serves]), if_neg alive, if_neg (by simp [idle])]
    rfl
  rw [State.emit_mgmt, State.emit_mgmt] at op
  exact ⟨_, congrArg Host.Outcome.next op, rfl, List.append_assoc _ _ _, rfl⟩

/-- The image whole: its slot is preferred where it is good. -/
theorem State.updateEnd_ends (u : Update) :
    let t := s.updateEnd u
    t.bt.flash = s.bt.flash ∧ t.bt.erased = s.bt.erased ∧ t.bt.fuses = s.bt.fuses ∧ t.bt.update = none ∧
      t.preferred = (if t.slotOk u.slot then u.slot % 2 else s.preferred) ∧
      (t.slotOk u.slot = true → t.fld F.BOOT_INT_STATUS.FW_STAGED = 1) := by
  let v : State := { s with bt.update := none }
  have decided : s.updateEnd u = if v.slotOk u.slot then
      ((((v.emit (.mgmt (pldm 0x17) 0 [])).preferOp u.slot).emit (.mgmt (pldm 0x18) 0 [])).setInt F.BOOT_INT_STATUS.FW_STAGED)
      else v.emit (.mgmt (pldm 0x17) 1 []) := rfl
  intro t
  have ht : t = _ := decided
  clear_value t
  by_cases good : v.slotOk u.slot = true
  · rw [if_pos good] at ht
    have boot : t.bt = { v.bt with stateLog := appendLog s.bt.stateLog 3 u.slot s.tm.now } := by
      rw [ht, State.setInt_bt]
      rfl
    have still : t.slotOk u.slot = true :=
      (State.slotOk_of_boot (by rw [boot]) (by rw [boot]) (by rw [boot]) _).trans good
    refine ⟨by rw [boot], by rw [boot], by rw [boot], by rw [boot], ?_, fun _ => by rw [ht]; exact State.fld_setInt _ _ _⟩
    rw [if_pos still, State.preferred, boot, logValue_appendLog_self]
    rfl
  · rw [if_neg good, State.emit_mgmt] at ht
    have boot : t.bt = v.bt := by rw [ht]
    have still : ¬t.slotOk u.slot = true := by
      rw [State.slotOk_of_boot (s := v) (by rw [boot]) (by rw [boot]) (by rw [boot])]
      exact good
    refine ⟨by rw [boot], by rw [boot], by rw [boot], by rw [boot], ?_, fun ok => absurd ok still⟩
    rw [if_neg still, State.preferred, boot]
    rfl

theorem firmwareData_writes (serves : s.mgmtServes = true) {u : Update} {data : List Byte} (running : s.bt.update = some u)
    (length : data.length = Nat.min 4096 (u.size - u.received)) :
    ∃ t, exec (.requestFirmwareData u.received data) s = .next t ∧
      (∀ i, i < data.length → t.flashByte (slotBase u.slot + u.received + i) = data.getD i 0) ∧
      (∀ a, a < slotBase u.slot + u.received ∨ slotBase u.slot + u.received + data.length ≤ a → t.flashByte a = s.flashByte a) ∧
      (u.received + data.length < u.size → t.bt.update = some { u with received := u.received + data.length } ∧
        t.preferred = s.preferred) ∧
      (u.size ≤ u.received + data.length → t.bt.update = none ∧
        t.preferred = (if t.slotOk u.slot then u.slot % 2 else s.preferred) ∧
        (t.slotOk u.slot = true → t.fld F.BOOT_INT_STATUS.FW_STAGED = 1)) ∧
      t.bt.fuses = s.bt.fuses := by
  let w : Update := { u with received := u.received + data.length }
  let v : State := { s with
    bt.flash := hostPuts s.bt.flash (slotBase u.slot + u.received) data
    bt.update := some w }
  have written : s.firmwareData u.received data = if u.size ≤ u.received + data.length then v.updateEnd w
      else v.emit (.mgmt (pldm 0x15) 0 (toLE 4 w.received ++ toLE 4 (Nat.min 4096 (w.size - w.received)))) := by
    unfold State.firmwareData
    rw [running]
    exact if_neg (by simp [serves, length])
  have flashed : ∀ t : State, t.bt.flash = v.bt.flash → t.bt.erased = v.bt.erased →
      (∀ i, i < data.length → t.flashByte (slotBase u.slot + u.received + i) = data.getD i 0) ∧
      (∀ a, a < slotBase u.slot + u.received ∨ slotBase u.slot + u.received + data.length ≤ a → t.flashByte a = s.flashByte a) := by
    intro t flash erased
    have byte := State.flashByte_hostPuts (s := s) flash erased
    refine ⟨fun i hi => ?_, fun a apart => ?_⟩
    · rw [byte, if_pos (by omega), Nat.add_sub_cancel_left]
    · rw [byte, if_neg (by omega)]
  by_cases whole : u.size ≤ u.received + data.length
  · rw [if_pos whole] at written
    obtain ⟨flash, erased, fuses, update, preferred, staged⟩ := State.updateEnd_ends (s := v) w
    generalize v.updateEnd w = t at *
    obtain ⟨inside, outside⟩ := flashed t flash erased
    exact ⟨t, congrArg Host.Outcome.next written, inside, outside, fun more => absurd more (by omega),
      fun _ => ⟨update, preferred, staged⟩, fuses⟩
  · rw [if_neg whole, State.emit_mgmt] at written
    obtain ⟨inside, outside⟩ := flashed { v with hl.out := v.hl.out ++ [_] } rfl rfl
    exact ⟨_, congrArg Host.Outcome.next written, inside, outside, fun _ => ⟨rfl, rfl⟩, fun past => absurd past whole, rfl⟩
end

/-- Settles O26: attestation, tree generation and the firmware update. -/
theorem attestationAndUpdate : Obligations.AttestationAndUpdate := by
  unfold Obligations.AttestationAndUpdate
  exact ⟨fun s => ⟨fun nonce i serves whole alive more next left => attest_signs serves whole alive more next left,
      fun nonce serves whole alive more none_ ready => attest_reserves serves whole alive more none_ ready,
      fun nonce serves whole none_ => attest_exhausted serves whole none_,
      fun j e running powered past => treeDone_commits running powered past⟩,
    fun s serves => ⟨fun size alive idle => requestUpdate_starts serves alive idle,
      fun u data running length => firmwareData_writes serves running length⟩⟩

end Sys2Proof.Machine
end

section
/-! SUPPORT. Counts, held objects and the software edits (R47, R185, R188, R191 to R194, R203 to R207), and O54. -/

namespace Sys2Proof.Machine

/-! ## Counts and held objects -/

theorem State.objCount_setObjCount (s : State) (o : Obj) (n : Nat) : (s.setObjCount o n).objCount o = n := by
  cases o <;> exact look_put_self _ _ _ _

theorem State.objCount_setObjCount_ne (s : State) {o o' : Obj} (n : Nat) (apart : o' ≠ o) :
    (s.setObjCount o n).objCount o' = s.objCount o' := by
  cases o with
  | page p =>
    cases o' with
    | page p' => exact look_put_ne _ _ _ (fun e => apart (congrArg Obj.page e))
    | block k' => rfl
  | block k =>
    cases o' with
    | page p' => rfl
    | block k' => exact look_put_ne _ _ _ (fun e => apart (congrArg Obj.block e))

/-- Only the count itself. -/
theorem State.setObjCount_frame (s : State) (o : Obj) (n : Nat) :
    s.setObjCount o n = { s with kv.pgCount := (s.setObjCount o n).kv.pgCount, wh.sbCount := (s.setObjCount o n).wh.sbCount } := by
  cases o <;> rfl

theorem State.hold_frame (s : State) (tag : Nat) (o : Obj) :
    s.hold tag o = { s with kv.holding := (s.hold tag o).kv.holding } ∧ (tag, o) ∈ (s.hold tag o).kv.holding := by
  unfold State.hold
  dsimp only
  split <;> exact ⟨rfl, List.mem_append_right _ (List.mem_singleton_self _)⟩

section
variable {s : State}

theorem countUpdate_counts {u : RefUpd} {r : List RefUpd} (on : s.runs 313 = true) (queued : s.kv.refq = u :: r) :
    let n := s.objCount u.obj
    let m := if u.add then n + u.n else n - u.n
    ∃ t, exec .countUpdate s = .next t ∧ t.kv.refq = r ∧ t.objCount u.obj = m ∧
      (∀ o, o ≠ u.obj → t.objCount o = s.objCount o) ∧
      (m = 0 → n ≠ 0 → s.objStaged u.obj = false → (u.tag, u.obj) ∈ t.kv.holding) ∧
      (m ≠ 0 ∨ s.objStaged u.obj = true → t.kv.holding = s.kv.holding) ∧ t.kv.seqs = s.kv.seqs ∧
      t = { s with kv := t.kv, wh.sbCount := t.wh.sbCount } := by
  intro n m
  let v : State := { s with kv.refq := r }
  let w := v.setObjCount u.obj m
  have staged : w.objStaged u.obj = s.objStaged u.obj := by
    unfold w
    cases u.obj <;> rfl
  have ran : s.countUpdate = if m = 0 ∧ n ≠ 0 ∧ !s.objStaged u.obj then w.hold u.tag u.obj else w := by
    have before : v.objCount u.obj = n := by
      show _ = s.objCount u.obj
      cases u.obj <;> rfl
    have applied : v.applyRef u = if m = 0 ∧ n ≠ 0 ∧ !w.objStaged u.obj then w.hold u.tag u.obj else w := by
      unfold State.applyRef
      dsimp only
      rw [before]
    unfold State.countUpdate
    rw [if_pos on, queued, ← staged]
    exact applied
  have frame := v.setObjCount_frame u.obj m
  have count : w.objCount u.obj = m := v.objCount_setObjCount u.obj m
  have others : ∀ o, o ≠ u.obj → w.objCount o = s.objCount o := fun o apart =>
    (v.objCount_setObjCount_ne m apart).trans (by cases o <;> rfl)
  have keeps : w.kv.refq = r ∧ w.kv.holding = s.kv.holding ∧ w.kv.seqs = s.kv.seqs ∧
      w = { s with kv := w.kv, wh.sbCount := w.wh.sbCount } := by
    unfold w
    rw [frame]
    exact ⟨rfl, rfl, rfl, rfl⟩
  obtain ⟨refq, holding, seqs, shape⟩ := keeps
  clear_value w
  obtain ⟨held, within⟩ := w.hold_frame u.tag u.obj
  by_cases enters : m = 0 ∧ n ≠ 0 ∧ (!s.objStaged u.obj) = true
  · rw [if_pos enters] at ran
    refine ⟨_, congrArg Host.Outcome.next ran, ?_, ?_, fun o apart => ?_, fun _ _ _ => within, fun no => ?_, ?_, ?_⟩
    · rw [held]
      exact refq
    · rw [held]
      refine Eq.trans ?_ count
      cases u.obj <;> rfl
    · rw [held]
      refine Eq.trans ?_ (others o apart)
      cases o <;> rfl
    · obtain ⟨zero, -, free⟩ := enters
      rcases no with more | yes
      · exact absurd zero more
      · rw [yes] at free
        cases free
    · rw [held]
      exact seqs
    · rw [held, shape]
  · rw [if_neg enters] at ran
    exact ⟨w, congrArg Host.Outcome.next ran, refq, count, others,
      fun zero some_ free => absurd ⟨zero, some_, by rw [free]; rfl⟩ enters, fun _ => holding, seqs, shape⟩

theorem holdingReturn_returns {h : Nat × Obj} (on : s.runs 313 = true)
    (oldest : s.kv.holding.find? (fun h => s.baseEpochs.all (fun b => decide (h.1 ≤ b))) = some h) :
    ∃ t, exec .holdingReturn s = .next t ∧ t = { s with rg := t.rg, kv.holding := s.kv.holding.erase h } ∧
      t.rg.fields = s.rg.fields ∧
      (∀ p, h.2 = .page p → t.cnt C.KVP_CNT_RETURNED = (s.cnt C.KVP_CNT_RETURNED + 1) % 2 ^ 64) := by
  let v : State := { s with kv.holding := s.kv.holding.erase h }
  obtain ⟨tag, o⟩ := h
  cases o with
  | page p =>
    have ran : s.holdingReturn = v.addCnt C.KVP_CNT_RETURNED 1 := by
      unfold State.holdingReturn
      rw [if_pos on]
      generalize s.kv.holding.find? _ = f at oldest
      subst oldest
      exact rfl
    exact ⟨_, congrArg Host.Outcome.next ran, rfl, rfl, fun _ _ => State.cnt_addCnt _ _ _ _ _⟩
  | block k =>
    have ran : s.holdingReturn = v := by
      unfold State.holdingReturn
      rw [if_pos on]
      generalize s.kv.holding.find? _ = f at oldest
      subst oldest
      exact rfl
    exact ⟨_, congrArg Host.Outcome.next ran, rfl, rfl, fun _ no => nomatch no⟩
end

/-! ## A sequence's new image (R188, R191) -/

/-- The sequence once an image has become current in its other slot. -/
def Seq.renewed (q : Seq) (im : Image) (epoch : Nat) : Seq :=
  { q.setOther { im with gen := q.image.gen + 1 } with slot := q.other, since := epoch }

theorem Seq.renewed_image (q : Seq) (im : Image) (epoch : Nat) :
    (q.renewed im epoch).image = { im with gen := q.image.gen + 1 } := by
  unfold Seq.renewed Seq.setOther Seq.other
  by_cases first : q.slot = 0
  · rw [if_pos first, if_pos first]
    rfl
  · rw [if_neg first, if_neg first]
    rfl

theorem Seq.renewed_keeps (q : Seq) (im : Image) (epoch : Nat) :
    (q.renewed im epoch).valid = q.valid ∧ (q.renewed im epoch).keepNewest = q.keepNewest ∧ (q.renewed im epoch).decay = q.decay ∧
      (q.renewed im epoch).since = epoch := by
  unfold Seq.renewed Seq.setOther
  split <;> exact ⟨rfl, rfl, rfl, rfl⟩

/-- A sequence takes a new record, under the next epoch; besides, only count changes, memory and what is sent. -/
structure SeqMade (s t : State) (n : Nat) (x : Seq) : Prop where
  kv : ∃ refs, t.kv = { s.kv with epoch := s.kv.epoch + 1, seqs := put {} s.kv.seqs n x, refq := refs }
  fields : t.rg.fields = s.rg.fields
  cq : t.cq = s.cq
  tl : t.tl = s.tl
  wh : t.wh = s.wh

theorem State.dropRefs_frame (s : State) (tag : Nat) (os : List Obj) :
    s.dropRefs tag os = { s with kv.refq := (s.dropRefs tag os).kv.refq } := by
  unfold State.dropRefs
  induction os generalizing s with
  | nil => rfl
  | cons o os ih =>
    rw [List.foldl_cons]
    exact Eq.trans (ih _) rfl

theorem State.putSeq_puts (s : State) (n : Nat) (q : Seq) :
    (s.putSeq n q).kv = { s.kv with seqs := put {} s.kv.seqs n q } ∧ (s.putSeq n q).rg.fields = s.rg.fields ∧
      (s.putSeq n q).cq = s.cq ∧ (s.putSeq n q).tl = s.tl ∧ (s.putSeq n q).wh = s.wh := by
  unfold State.putSeq
  exact ⟨State.devWrite_kv _ _ _, State.devWrite_fields _ _ _, State.devWrite_cq _ _ _, State.devWrite_tl _ _ _,
    State.devWrite_wh _ _ _⟩

theorem State.newImage_made (s : State) (n : Nat) (q : Seq) (im : Image) (gone : List Nat) :
    SeqMade s (s.newImage n q im gone) n (q.renewed im (s.kv.epoch + 1)) := by
  let u := s.nextEpoch
  let v := u.devWrite (u.seqSlot n q.other) ({ im with gen := q.image.gen + 1 } : Image).bytes
  have kv_v : v.kv = u.kv := State.devWrite_kv _ _ _
  have epoch : v.kv.epoch = s.kv.epoch + 1 := by rw [kv_v]; rfl
  have shape : s.newImage n q im gone = (v.putSeq n (q.renewed im v.kv.epoch)).dropRefs
      (v.putSeq n (q.renewed im v.kv.epoch)).kv.epoch (gone.map Obj.page) := rfl
  rw [epoch] at shape
  obtain ⟨kv, fields, cq, tl, wh⟩ := v.putSeq_puts n (q.renewed im (s.kv.epoch + 1))
  generalize v.putSeq n (q.renewed im (s.kv.epoch + 1)) = w at *
  rw [shape, State.dropRefs_frame]
  refine ⟨⟨(w.dropRefs w.kv.epoch (gone.map Obj.page)).kv.refq, ?_⟩, fields.trans (State.devWrite_fields _ _ _), cq.trans (State.devWrite_cq _ _ _),
    tl.trans (State.devWrite_tl _ _ _), wh.trans (State.devWrite_wh _ _ _)⟩
  show ({ w.kv with refq := _ } : Kv) = _
  rw [kv, kv_v]
  rfl

theorem State.seqDestroyNow_made (s : State) (n : Nat) : SeqMade s (s.seqDestroyNow n) n {} := by
  obtain ⟨kv, fields, cq, tl, wh⟩ := s.putSeq_puts n {}
  unfold State.seqDestroyNow
  dsimp only
  generalize s.putSeq n {} = v at *
  rw [State.dropRefs_frame]
  refine ⟨⟨(v.nextEpoch.dropRefs v.nextEpoch.kv.epoch ((s.seq n).image.pages.map Obj.page)).kv.refq, ?_⟩, fields, cq, tl, wh⟩
  show ({ v.kv with epoch := v.kv.epoch + 1, refq := _ } : Kv) = _
  rw [kv]

/-! ## An edit in effect (R203, R204) -/

/-- What an edit makes of its sequence, before it and under the epoch that it begins. -/
structure SeqEdited (e : Edit) (q x : Seq) (epoch : Nat) : Prop where
  created : e.op = 1 → x.valid = true ∧ x.image.pages = []
  destroyed : e.op = 2 → x.valid = false
  renewed : e.op ≠ 1 → e.op ≠ 2 → x.image.gen = q.image.gen + 1 ∧ x.valid = q.valid ∧ x.since = epoch
  dropped : e.op = 3 → x.image = { (q.image.raiseTo (q.image.windowStart + e.arg0.toNat)).1 with gen := q.image.gen + 1 }
  evicted : e.op = 4 →
    x.image = { (q.image.evict (e.arg1.toNat % 64) (q.image.indexAt e.pos)).1 with gen := q.image.gen + 1 }
  policy : e.op = 5 → x.keepNewest = e.arg0.toNat / 65536 ∧ x.decay = e.arg1
  sealed : e.op = 6 → x.image.tailSealed = true ∧ x.image.pages = q.image.pages

theorem seqOf_empty (b : List Byte) : (seqOf b).valid = true ∧ (seqOf b).image.pages = [] := by
  refine ⟨rfl, ?_⟩
  show (List.replicate (field b 8 2) ([] : List Entry)).flatMap _ = []
  simp

/-- An edit that makes a new image of the sequence from the one it finds. -/
theorem Seq.renewed_edited {e : Edit} {q : Seq} {epoch : Nat} (create : e.op ≠ 1) (destroy : e.op ≠ 2) (policy : e.op ≠ 5) :
    SeqEdited e q (q.renewed (editApply e q.image).1 epoch) epoch := by
  have image := q.renewed_image (editApply e q.image).1 epoch
  obtain ⟨valid, -, -, since⟩ := q.renewed_keeps (editApply e q.image).1 epoch
  refine ⟨fun h => absurd h create, fun h => absurd h destroy, fun _ _ => ⟨by rw [image], valid, since⟩, fun h => ?_, fun h => ?_,
    fun h => absurd h policy, fun h => ?_⟩
  · rw [image]
    unfold editApply
    rw [h]
    rfl
  · rw [image]
    unfold editApply
    rw [h]
    rfl
  · rw [image]
    unfold editApply
    rw [h]
    exact ⟨rfl, rfl⟩

/-- An edit of a sequence takes effect: the next epoch, the sequence's new record, EDIT_DONE. -/
theorem State.seqEditNow_edits (s : State) (e : Edit) :
    ∃ u x, s.seqEditNow e = u.setInt F.KVP_INT_STATUS.EDIT_DONE ∧ SeqMade s u e.target x ∧
      SeqEdited e (s.seq e.target) x (s.kv.epoch + 1) := by
  let q := s.seq e.target
  by_cases create : e.op = 1
  · let d := seqOf (s.devRead (e.arg1.toNat * 2 ^ 32 + e.arg0.toNat) 64)
    let v := s.devWrite (s.seqSlot e.target 0) d.img0.bytes
    obtain ⟨kv, fields, cq, tl, wh⟩ := v.putSeq_puts e.target d
    refine ⟨(v.putSeq e.target d).nextEpoch, d, ?_, ⟨⟨s.kv.refq, ?_⟩, fields.trans (State.devWrite_fields _ _ _),
      cq.trans (State.devWrite_cq _ _ _), tl.trans (State.devWrite_tl _ _ _), wh.trans (State.devWrite_wh _ _ _)⟩, ?_⟩
    · unfold State.seqEditNow
      rw [create]
      rfl
    · show ({ (v.putSeq e.target d).kv with epoch := (v.putSeq e.target d).kv.epoch + 1 } : Kv) = _
      rw [kv, show v.kv = s.kv from State.devWrite_kv _ _ _]
    · have no : ∀ k, k ≠ 1 → e.op ≠ k := fun k hk h => hk (h.symm.trans create)
      exact ⟨fun _ => seqOf_empty _, fun h => absurd h (no 2 (by decide)), fun h => absurd create h, fun h => absurd h (no 3 (by decide)),
        fun h => absurd h (no 4 (by decide)), fun h => absurd h (no 5 (by decide)), fun h => absurd h (no 6 (by decide))⟩
  by_cases destroy : e.op = 2
  · refine ⟨s.seqDestroyNow e.target, {}, ?_, s.seqDestroyNow_made e.target, ?_⟩
    · unfold State.seqEditNow
      rw [destroy]
      rfl
    · have no : ∀ k, k ≠ 2 → e.op ≠ k := fun k hk h => hk (h.symm.trans destroy)
      exact ⟨fun h => absurd h create, fun _ => rfl, fun _ h => absurd destroy h, fun h => absurd h (no 3 (by decide)),
        fun h => absurd h (no 4 (by decide)), fun h => absurd h (no 5 (by decide)), fun h => absurd h (no 6 (by decide))⟩
  by_cases policy : e.op = 5
  · let p : Seq := { q with evict := bit e.arg0.toNat 0, scored := bit e.arg0.toNat 1, keepNewest := e.arg0.toNat / 65536, decay := e.arg1 }
    let im : Image := { q.image with scored := bit e.arg0.toNat 1 }
    have same : p.image = q.image := rfl
    have image := p.renewed_image im (s.kv.epoch + 1)
    obtain ⟨valid, keep, decay, since⟩ := p.renewed_keeps im (s.kv.epoch + 1)
    refine ⟨s.newImage e.target p im [], p.renewed im (s.kv.epoch + 1), ?_, s.newImage_made _ _ _ _, ?_⟩
    · unfold State.seqEditNow
      rw [policy]
      rfl
    · have no : ∀ k, k ≠ 5 → e.op ≠ k := fun k hk h => hk (h.symm.trans policy)
      exact ⟨fun h => absurd h create, fun h => absurd h destroy, fun _ _ => ⟨by rw [image, same], valid, since⟩,
        fun h => absurd h (no 3 (by decide)), fun h => absurd h (no 4 (by decide)), fun _ => ⟨keep, decay⟩,
        fun h => absurd h (no 6 (by decide))⟩
  · let r := editApply e q.image
    let v := if e.op = 4 then s.addCnt C.KVP_CNT_EVICTED r.2.length else s
    have counted : v.kv = s.kv ∧ v.rg.fields = s.rg.fields ∧ v.cq = s.cq ∧ v.tl = s.tl ∧ v.wh = s.wh := by
      unfold v
      split <;> exact ⟨rfl, rfl, rfl, rfl, rfl⟩
    have ran : s.seqEditNow e = (v.newImage e.target q r.1 r.2).setInt F.KVP_INT_STATUS.EDIT_DONE := by
      unfold State.seqEditNow
      dsimp only
      congr 1
      split
      · next h => exact absurd h create
      · next h => exact absurd h destroy
      · next h => exact absurd h policy
      · rfl
    obtain ⟨kv_v, fields_v, cq_v, tl_v, wh_v⟩ := counted
    obtain ⟨⟨refs, kv⟩, fields, cq, tl, wh⟩ := v.newImage_made e.target q r.1 r.2
    rw [kv_v] at kv
    exact ⟨_, _, ran, ⟨⟨refs, kv⟩, fields.trans fields_v, cq.trans cq_v, tl.trans tl_v, wh.trans wh_v⟩,
      Seq.renewed_edited create destroy policy⟩

end Sys2Proof.Machine
end

section
/-! SUPPORT. The edit registers' row, deferred edits, and O54. -/

namespace Sys2Proof.Machine

section
variable {s : State} {e : Edit}

/-- The result of the checks shown, before the edit goes on. -/
def State.editShown (s : State) (res : Nat) : State :=
  ((({ s with kv.editNext := s.kv.editNext + 1 } : State).setFld F.KVP_EDIT_STATUS.RESULT res).setFld F.KVP_EDIT_STATUS.DEFERRED 0)

theorem State.editCheck_small (s : State) (e : Edit) : s.editCheck e < 6 := by
  unfold State.editCheck
  dsimp only
  split_ifs <;> decide

theorem State.editShown_shows (s : State) {res : Nat} (small : res < 6) :
    (s.editShown res).fld F.KVP_EDIT_STATUS.RESULT = res ∧ (s.editShown res).fld F.KVP_EDIT_STATUS.DEFERRED = 0 ∧
      (s.editShown res).fld F.KVP_INT_STATUS.EDIT_FULL = s.fld F.KVP_INT_STATUS.EDIT_FULL :=
  ⟨(State.fld_setFld_other _ (by decide)).trans ((State.fld_setFld _ _ _ _ _).trans (Nat.mod_eq_of_lt (by
      show res < 2 ^ 4
      omega))),
    State.fld_setFld _ _ _ _ _,
    (State.fld_setFld_other _ (by decide)).trans (State.fld_setFld_other _ (by decide))⟩

/-- What every end of the edit registers' row shows: the result, EDIT_DONE, and that no command and no branch is touched. -/
structure EditDone (s t : State) (res : Nat) : Prop where
  result : t.fld F.KVP_EDIT_STATUS.RESULT = res
  done : t.fld F.KVP_INT_STATUS.EDIT_DONE = 1
  cq : t.cq = s.cq
  tl : t.tl = s.tl
  branches : t.wh.branches = s.wh.branches
  next : t.kv.editNext = s.kv.editNext + 1

/-- EDIT_DONE set behind what an edit leaves. -/
theorem EditDone.setInt {u : State} {res : Nat} (result : u.fld F.KVP_EDIT_STATUS.RESULT = res) (cq : u.cq = s.cq) (tl : u.tl = s.tl)
    (branches : u.wh.branches = s.wh.branches) (next : u.kv.editNext = s.kv.editNext + 1) :
    EditDone s (u.setInt F.KVP_INT_STATUS.EDIT_DONE) res :=
  ⟨(State.fld_setInt_other _ (by decide)).trans result, State.fld_setInt _ _ _, (State.setInt_cq _ _ _).trans cq,
    (State.setInt_tl _ _ _).trans tl, by rw [State.setInt_wh]; exact branches, by rw [State.setInt_kv]; exact next⟩

/-- The edit of the edit registers, with the entry it names and its serial number. -/
def State.editTaken (s : State) : Edit :=
  { s.editRegs with pos := (s.editImage s.editRegs).startOf (s.editRegs.arg0.toNat % 65536), serial := s.kv.editNext }

/-- A result told: a refused edit ends here, one refused for want of room with EDIT_FULL. -/
def State.editTold (s : State) (res : Nat) : State :=
  if res = 4 ∧ decide (1024 ≤ s.editsWaiting) then
    ((s.editShown res).setInt F.KVP_INT_STATUS.EDIT_FULL).setInt F.KVP_INT_STATUS.EDIT_DONE
  else if res ≠ 0 then (s.editShown res).setInt F.KVP_INT_STATUS.EDIT_DONE else s.editShown res

/-- An edit past its checks: kept with its group, deferred, or in effect at once. -/
def State.editAdmitted (w : State) (e : Edit) : State :=
  if e.branch then
    ((w.setGroup (e.target / 4096) { w.group (e.target / 4096) with edits := (w.group (e.target / 4096)).edits ++ [e] }).setFld
      F.KVP_EDIT_STATUS.DEFERRED 1).setInt F.KVP_INT_STATUS.EDIT_DONE
  else if w.editWaits e then
    (({ w with kv.deferred := w.kv.deferred ++ [e] } : State).setFld F.KVP_EDIT_STATUS.DEFERRED 1).setInt F.KVP_INT_STATUS.EDIT_DONE
  else w.seqEditNow e

/-- The row of the edit registers, by the result of its checks. -/
theorem State.editGo_eq (s : State) :
    s.editGo = if s.editCheck s.editTaken ≠ 0 then s.editTold (s.editCheck s.editTaken)
      else (s.editTold (s.editCheck s.editTaken)).editAdmitted s.editTaken := rfl

theorem State.editGo_admits (ok : s.editCheck s.editTaken = 0) : s.editGo = (s.editShown 0).editAdmitted s.editTaken := by
  rw [State.editGo_eq, if_neg (not_not.mpr ok), ok]
  rfl

/-- An edit that fails a check says which, and changes nothing. -/
theorem State.editGo_refuses {res : Nat} (is : s.editCheck s.editTaken = res) (failed : res ≠ 0) :
    let t := s.editGo
    EditDone s t res ∧ (res = 4 → 1024 ≤ s.editsWaiting → t.fld F.KVP_INT_STATUS.EDIT_FULL = 1) ∧
      (res ≠ 4 ∨ s.editsWaiting < 1024 → t.fld F.KVP_INT_STATUS.EDIT_FULL = s.fld F.KVP_INT_STATUS.EDIT_FULL) ∧
      t.fld F.KVP_EDIT_STATUS.DEFERRED = 0 ∧ t.kv = { s.kv with editNext := t.kv.editNext } ∧ t.wh = s.wh ∧ t.mm = s.mm := by
  have small : res < 6 := is ▸ s.editCheck_small s.editTaken
  obtain ⟨result, deferred, full⟩ := s.editShown_shows small
  have told : s.editGo = s.editTold res := by rw [State.editGo_eq, is, if_pos failed]
  dsimp only
  rw [told]
  unfold State.editTold
  split
  · next over_ =>
    obtain ⟨four, waiting⟩ := over_
    have waiting := of_decide_eq_true waiting
    refine ⟨EditDone.setInt ((State.fld_setInt_other _ (by decide)).trans result) (by rw [State.setInt_cq]; rfl)
      (by rw [State.setInt_tl]; rfl) (by rw [State.setInt_wh]; rfl) (by rw [State.setInt_kv]; rfl), fun _ _ => ?_, fun no => ?_,
      ?_, ?_, ?_, ?_⟩
    · exact (State.fld_setInt_other _ (by decide)).trans (State.fld_setInt _ _ _)
    · omega
    · exact (State.fld_setInt_other _ (by decide)).trans ((State.fld_setInt_other _ (by decide)).trans deferred)
    · rw [State.setInt_kv, State.setInt_kv]; rfl
    · rw [State.setInt_wh, State.setInt_wh]; rfl
    · rw [State.setInt_mm, State.setInt_mm]; rfl
  · next room =>
    refine ⟨EditDone.setInt result rfl rfl rfl rfl, fun four waiting => absurd ⟨four, decide_eq_true waiting⟩ room,
      fun _ => (State.fld_setInt_other _ (by decide)).trans full, (State.fld_setInt_other _ (by decide)).trans deferred, ?_, ?_, ?_⟩
    · rw [State.setInt_kv]; rfl
    · rw [State.setInt_wh]; rfl
    · rw [State.setInt_mm]; rfl

/-- An edit of a branch waits for its group's next step. -/
theorem State.editAdmitted_branch (branch : e.branch = true) :
    let t := (s.editShown 0).editAdmitted e
    EditDone s t 0 ∧ t.fld F.KVP_INT_STATUS.EDIT_FULL = s.fld F.KVP_INT_STATUS.EDIT_FULL ∧
      t.fld F.KVP_EDIT_STATUS.DEFERRED = 1 ∧ t.kv = { s.kv with editNext := t.kv.editNext } ∧ t.mm = s.mm ∧
      (t.group (e.target / 4096)).edits = (s.group (e.target / 4096)).edits ++ [e] := by
  obtain ⟨result, -, full⟩ := s.editShown_shows (res := 0) (by decide)
  unfold State.editAdmitted
  dsimp only
  rw [if_pos branch]
  refine ⟨EditDone.setInt ((State.fld_setFld_other _ (by decide)).trans result) rfl rfl rfl rfl,
    (State.fld_setInt_other _ (by decide)).trans ((State.fld_setFld_other _ (by decide)).trans full),
    (State.fld_setInt_other _ (by decide)).trans (State.fld_setFld _ _ _ _ _), ?_, ?_, ?_⟩
  · rw [State.setInt_kv]; rfl
  · rw [State.setInt_mm]; rfl
  · unfold State.group
    rw [State.setInt_wh]
    exact congrArg Group.edits (look_put_self _ _ _ _)

/-- An edit of a sequence that a command appends to is deferred. -/
theorem State.editAdmitted_deferred (sequence : e.branch = false) (waits : s.editWaits e = true) :
    let t := (s.editShown 0).editAdmitted e
    EditDone s t 0 ∧ t.fld F.KVP_INT_STATUS.EDIT_FULL = s.fld F.KVP_INT_STATUS.EDIT_FULL ∧
      t.fld F.KVP_EDIT_STATUS.DEFERRED = 1 ∧ t.kv.deferred = s.kv.deferred ++ [e] ∧ t.kv.seqs = s.kv.seqs ∧ t.wh = s.wh ∧
      t.mm = s.mm := by
  obtain ⟨result, -, full⟩ := s.editShown_shows (res := 0) (by decide)
  have waits' : (s.editShown 0).editWaits e = true := waits
  unfold State.editAdmitted
  dsimp only
  rw [if_neg (by rw [sequence]; decide), if_pos waits']
  refine ⟨EditDone.setInt ((State.fld_setFld_other _ (by decide)).trans result) rfl rfl rfl rfl,
    (State.fld_setInt_other _ (by decide)).trans ((State.fld_setFld_other _ (by decide)).trans full),
    (State.fld_setInt_other _ (by decide)).trans (State.fld_setFld _ _ _ _ _), ?_, ?_, ?_, ?_⟩
  · rw [State.setInt_kv]; rfl
  · rw [State.setInt_kv]; rfl
  · rw [State.setInt_wh]; rfl
  · rw [State.setInt_mm]; rfl

/-- Any other edit of a sequence takes effect at once. -/
theorem State.editAdmitted_now (sequence : e.branch = false) (goes : s.editWaits e = false) :
    let t := (s.editShown 0).editAdmitted e
    EditDone s t 0 ∧ t.fld F.KVP_INT_STATUS.EDIT_FULL = s.fld F.KVP_INT_STATUS.EDIT_FULL ∧
      t.fld F.KVP_EDIT_STATUS.DEFERRED = 0 ∧ t.kv.epoch = s.kv.epoch + 1 ∧ t.kv.deferred = s.kv.deferred ∧
      (∀ n, n ≠ e.target → t.seq n = s.seq n) ∧ SeqEdited e (s.seq e.target) (t.seq e.target) (s.kv.epoch + 1) := by
  obtain ⟨result, deferred, full⟩ := s.editShown_shows (res := 0) (by decide)
  have goes' : (s.editShown 0).editWaits e = false := goes
  have now : (s.editShown 0).editAdmitted e = (s.editShown 0).seqEditNow e := by
    unfold State.editAdmitted
    rw [if_neg (by rw [sequence]; decide), if_neg (by rw [goes']; decide)]
  dsimp only
  obtain ⟨u, x, ran, ⟨⟨refs, kv⟩, fields, cq, tl, wh⟩, edited⟩ := (s.editShown 0).seqEditNow_edits e
  rw [now, ran]
  have field : ∀ f, u.fld f = (s.editShown 0).fld f := fun f => congrArg (fun m => look (resetOf f 0) m (fieldKey f 0 0)) fields
  have seqs : ∀ n, (u.setInt F.KVP_INT_STATUS.EDIT_DONE).seq n = look {} (put {} s.kv.seqs e.target x) n := by
    intro n
    unfold State.seq
    rw [State.setInt_kv, kv]
    rfl
  refine ⟨EditDone.setInt ((field _).trans result) cq tl (by rw [wh]; rfl) (by rw [kv]; rfl),
    (State.fld_setInt_other _ (by decide)).trans ((field _).trans full),
    (State.fld_setInt_other _ (by decide)).trans ((field _).trans deferred), ?_, ?_, fun n other => ?_, ?_⟩
  · rw [State.setInt_kv, kv]; rfl
  · rw [State.setInt_kv, kv]; rfl
  · rw [seqs]
    exact look_put_ne _ _ _ other
  · rw [seqs, look_put_self]
    exact edited

/-- The row of KVP_EDIT_GO for the operation that the edit registers hold. -/
theorem editCommand_goes {r : Requester} {op : Fin 6} (on : s.runs 313 = true) (hw : Writable s 0x04 0 r)
    (asked : s.fld F.KVP_EDIT_OP.OP = op.val + 1) :
    exec (editCommand op r) s = .next (s.addCnt C.GL_CNT_REG_WRITES 1).editGo := by
  have row : s.editRow r (op.val + 1) = (s.addCnt C.GL_CNT_REG_WRITES 1).editGo := by
    unfold State.editRow
    rw [if_pos ⟨on, asked⟩]
    exact hw.opWrite _ _ _
  rw [← row]
  revert op
  intro op _ _
  fin_cases op <;> rfl

theorem edit_edits {r : Requester} {op : Fin 6} (on : s.runs 313 = true) (hw : Writable s 0x04 0 r)
    (asked : s.fld F.KVP_EDIT_OP.OP = op.val + 1) :
    let e : Edit := { s.editRegs with
      pos := (s.editImage s.editRegs).startOf (s.editRegs.arg0.toNat % 65536), serial := s.kv.editNext }
    let res := s.editCheck e
    let q := s.seq e.target
    ∃ t, exec (editCommand op r) s = .next t ∧ t.fld F.KVP_EDIT_STATUS.RESULT = res ∧
      t.fld F.KVP_INT_STATUS.EDIT_DONE = 1 ∧ t.cq = s.cq ∧ t.tl = s.tl ∧ t.wh.branches = s.wh.branches ∧
      t.kv.editNext = s.kv.editNext + 1 ∧
      (res = 4 → 1024 ≤ s.editsWaiting → t.fld F.KVP_INT_STATUS.EDIT_FULL = 1) ∧
      (res ≠ 4 ∨ s.editsWaiting < 1024 → t.fld F.KVP_INT_STATUS.EDIT_FULL = s.fld F.KVP_INT_STATUS.EDIT_FULL) ∧
      (res ≠ 0 → t.fld F.KVP_EDIT_STATUS.DEFERRED = 0 ∧ t.kv = { s.kv with editNext := t.kv.editNext } ∧ t.wh = s.wh ∧
        t.mm = s.mm) ∧
      (res = 0 → e.branch = true → t.fld F.KVP_EDIT_STATUS.DEFERRED = 1 ∧
        t.kv = { s.kv with editNext := t.kv.editNext } ∧ t.mm = s.mm ∧
        (t.group (e.target / 4096)).edits = (s.group (e.target / 4096)).edits ++ [e]) ∧
      (res = 0 → e.branch = false → s.editWaits e = true → t.fld F.KVP_EDIT_STATUS.DEFERRED = 1 ∧
        t.kv.deferred = s.kv.deferred ++ [e] ∧ t.kv.seqs = s.kv.seqs ∧ t.wh = s.wh ∧ t.mm = s.mm) ∧
      (res = 0 → e.branch = false → s.editWaits e = false → t.fld F.KVP_EDIT_STATUS.DEFERRED = 0 ∧
        t.kv.epoch = s.kv.epoch + 1 ∧ t.kv.deferred = s.kv.deferred ∧ (∀ n, n ≠ e.target → t.seq n = s.seq n) ∧
        (op = 0 → (t.seq e.target).valid = true ∧ (t.seq e.target).image.pages = []) ∧
        (op = 1 → (t.seq e.target).valid = false) ∧
        (2 ≤ op.val → (t.seq e.target).image.gen = q.image.gen + 1 ∧ (t.seq e.target).valid = q.valid ∧
          (t.seq e.target).since = s.kv.epoch + 1) ∧
        (op = 2 → (t.seq e.target).image =
          { (q.image.raiseTo (q.image.windowStart + e.arg0.toNat)).1 with gen := q.image.gen + 1 }) ∧
        (op = 3 → (t.seq e.target).image =
          { (q.image.evict (e.arg1.toNat % 64) (q.image.indexAt e.pos)).1 with gen := q.image.gen + 1 }) ∧
        (op = 4 → (t.seq e.target).keepNewest = e.arg0.toNat / 65536 ∧ (t.seq e.target).decay = e.arg1) ∧
        (op = 5 → (t.seq e.target).image.tailSealed = true ∧ (t.seq e.target).image.pages = q.image.pages)) := by
  intro e res q
  let u := s.addCnt C.GL_CNT_REG_WRITES 1
  have ran : exec (editCommand op r) s = .next u.editGo := editCommand_goes on hw asked
  have taken : u.editTaken = e := rfl
  have checked : u.editCheck u.editTaken = res := rfl
  have code : e.op = op.val + 1 := asked
  by_cases ok : res = 0
  · have admits := State.editGo_admits (s := u) (checked.trans ok)
    rw [taken] at admits
    rw [admits] at ran
    clear admits checked
    clear_value res
    subst ok
    by_cases branch : e.branch = true
    · obtain ⟨⟨result, done, cq, tl, branches, next⟩, full, deferred, kv, mm, edits⟩ :=
        State.editAdmitted_branch (s := u) branch
      exact ⟨_, ran, result, done, cq, tl, branches, next, nofun, fun _ => full, fun no => absurd rfl no,
        fun _ _ => ⟨deferred, kv, mm, edits⟩, fun _ no => absurd branch (by rw [no]; decide),
        fun _ no => absurd branch (by rw [no]; decide)⟩
    have sequence : e.branch = false := Bool.eq_false_iff.mpr branch
    by_cases waits : s.editWaits e = true
    · obtain ⟨⟨result, done, cq, tl, branches, next⟩, full, deferred, list, seqs, wh, mm⟩ :=
        State.editAdmitted_deferred (s := u) sequence waits
      exact ⟨_, ran, result, done, cq, tl, branches, next, nofun, fun _ => full, fun no => absurd rfl no,
        fun _ no => absurd no branch, fun _ _ _ => ⟨deferred, list, seqs, wh, mm⟩,
        fun _ _ no => absurd waits (by rw [no]; decide)⟩
    · obtain ⟨⟨result, done, cq, tl, branches, next⟩, full, deferred, epoch, list, others, edited⟩ :=
        State.editAdmitted_now (s := u) sequence (Bool.eq_false_iff.mpr waits)
      obtain ⟨created, destroyed, renewed, dropped, evicted, policy, sealed⟩ := edited
      refine ⟨_, ran, result, done, cq, tl, branches, next, nofun, fun _ => full, fun no => absurd rfl no,
        fun _ no => absurd no branch, fun _ _ no => absurd no waits, fun _ _ _ => ⟨deferred, epoch, list, others, ?_⟩⟩
      exact ⟨fun h => created (by rw [code, h]; rfl), fun h => destroyed (by rw [code, h]; rfl),
        fun h => renewed (by omega) (by omega), fun h => dropped (by rw [code, h]; rfl), fun h => evicted (by rw [code, h]; rfl),
        fun h => policy (by rw [code, h]; rfl), fun h => sealed (by rw [code, h]; rfl)⟩
  · obtain ⟨⟨result, done, cq, tl, branches, next⟩, over_, full, deferred, kv, wh, mm⟩ := State.editGo_refuses checked ok
    exact ⟨_, ran, result, done, cq, tl, branches, next, over_, full, fun _ => ⟨deferred, kv, wh, mm⟩,
      fun h => absurd h ok, fun h => absurd h ok, fun h => absurd h ok⟩

theorem deferredEdit_edits {n : Nat} (on : s.runs 313 = true) (found : s.kv.deferred.find? (fun e => e.target == n) = some e)
    (free : (s.seq n).appending = false) :
    ∃ t, exec (.deferredEdit n) s = .next t ∧ t.kv.deferred = s.kv.deferred.erase e ∧ t.cq = s.cq ∧
      ((s.seq n).valid = false → t = { s with kv.deferred := s.kv.deferred.erase e }) ∧
      ((s.seq n).valid = true → t.kv.epoch = s.kv.epoch + 1 ∧ t.fld F.KVP_INT_STATUS.EDIT_DONE = 1 ∧
        (e.op = 2 → (t.seq n).valid = false) ∧
        (3 ≤ e.op → (t.seq n).image.gen = (s.seq n).image.gen + 1 ∧ (t.seq n).valid = true) ∧
        (e.op = 6 → (t.seq n).image.tailSealed = true) ∧
        ∀ m, m ≠ n → t.seq m = s.seq m) := by
  obtain rfl : e.target = n := beq_iff_eq.mp (List.find?_some found :)
  let u : State := { s with kv.deferred := s.kv.deferred.erase e }
  have ran : s.deferredEdit e.target = if (s.seq e.target).valid then u.seqEditNow e else u := by
    unfold State.deferredEdit
    rw [found]
    exact if_pos ⟨on, free⟩
  cases valid : (s.seq e.target).valid with
  | false =>
    rw [valid] at ran
    exact ⟨u, congrArg Host.Outcome.next ran, rfl, rfl, fun _ => rfl, fun no => nomatch no⟩
  | true =>
    rw [valid, if_pos rfl] at ran
    obtain ⟨v, x, now, ⟨⟨refs, kv⟩, -, cq, -, -⟩, edited⟩ := u.seqEditNow_edits e
    rw [now] at ran
    have seqs : ∀ m, (v.setInt F.KVP_INT_STATUS.EDIT_DONE).seq m = look {} (put {} s.kv.seqs e.target x) m := by
      intro m
      unfold State.seq
      rw [State.setInt_kv, kv]
    have own : (v.setInt F.KVP_INT_STATUS.EDIT_DONE).seq e.target = x := (seqs _).trans (look_put_self _ _ _ _)
    refine ⟨_, congrArg Host.Outcome.next ran, ?_, (State.setInt_cq _ _ _).trans cq, fun no => (nomatch no),
      fun _ => ⟨?_, State.fld_setInt _ _ _, fun h => ?_, fun h => ?_, fun h => ?_, fun m other => ?_⟩⟩
    · rw [State.setInt_kv, kv]
    · rw [State.setInt_kv, kv]
    · rw [own]
      exact edited.destroyed h
    · rw [own]
      obtain ⟨gen, still, -⟩ := edited.renewed (by omega) (by omega)
      exact ⟨gen, still.trans valid⟩
    · rw [own]
      exact (edited.sealed h).1
    · rw [seqs]
      exact look_put_ne _ _ _ other
end

/-- Settles O54: counts, held objects, and the software edits. -/
theorem referencesAndEdits : Obligations.ReferencesAndEdits := by
  unfold Obligations.ReferencesAndEdits
  exact ⟨fun s on => ⟨fun u r queued => countUpdate_counts on queued, fun h oldest => holdingReturn_returns on oldest⟩,
    fun s on => ⟨fun r op hw asked => edit_edits on hw asked, fun n e found free => deferredEdit_edits on found free⟩⟩

end Sys2Proof.Machine
end

section
/-! SUPPORT. The acceptance of a queue's next record (R31, R32, R380, R390, R391), and O49. -/

namespace Sys2Proof.Machine

/-- The images that an acceptance has checked, with that of one more record. -/
def withChecked (l : List (Nat × Nat × Nat)) : Option (Nat × Nat × Nat) → List (Nat × Nat × Nat)
  | some i => if l.contains i then l else l ++ [i]
  | none => l

theorem mem_withChecked (l : List (Nat × Nat × Nat)) {o : Option (Nat × Nat × Nat)} {i : Nat × Nat × Nat} (hi : i ∈ o) :
    i ∈ withChecked l o := by
  obtain rfl : o = some i := hi
  show i ∈ if l.contains i then l else l ++ [i]
  split
  · next there => simpa using there
  · exact List.mem_append_right _ (List.mem_singleton_self _)

theorem State.hwr1_mem (s : State) (w : HwrFor) (p : Nat × List Byte) : ∃ h ∈ (s.hwr1 w p).hl.hwr, h.what = w := by
  refine ⟨⟨s.hl.nextTag, p.1, p.2, w⟩, ?_, rfl⟩
  rw [State.hwr1, State.emit_frame]
  exact List.mem_append_right _ (List.mem_singleton_self _)

/-- What is written to host memory and not empty is on its way. -/
theorem State.hwr_mem (s : State) (a : Nat) {d : List Byte} (w : HwrFor) (some_ : d ≠ []) : ∃ h ∈ (s.hwr a d w).hl.hwr, h.what = w := by
  have kept : ∀ (l : List (Nat × List Byte)) (u : State), (∃ h ∈ u.hl.hwr, h.what = w) →
      ∃ h ∈ (l.foldl (fun s p => s.hwr1 w p) u).hl.hwr, h.what = w := by
    intro l
    induction l with
    | nil => exact fun _ h => h
    | cons p l ih => exact fun u _ => ih _ (u.hwr1_mem w p)
  unfold State.hwr
  rw [split256, if_neg some_, List.foldl_cons]
  exact kept _ _ (s.hwr1_mem w _)

theorem State.imageKey_of_mm {s t : State} (same : t.mm = s.mm) (r : List Byte) : t.imageKey r = s.imageKey r := by
  unfold State.imageKey State.imageRef State.devRead
  rw [same]

/-- A context that takes a command in: the scheduler's alone. -/
theorem State.ctxAccept_frame (s : State) (ctx : Nat) : s.ctxAccept ctx = { s with sc := (s.ctxAccept ctx).sc } := by
  unfold State.ctxAccept
  split
  · split <;> rfl
  · rfl

theorem State.trace_cnt_other (s : State) (t : TraceRec) {c : Cnt} (other : cntKey c 0 0 ∉ traceCnts) :
    (s.trace t).cnt c = s.cnt c := ((TraceLeft.refl s).trace t).cnts _ other

/-- A record accepted is a command in hand, and its journal entry is on its way. -/
theorem State.accept_accepts (s : State) (n seq : Nat) (r : List Byte) (k : Kind) :
    let t := s.accept n seq r k
    t.cq.cmds = s.cq.cmds ++ [{ q := n, seq := seq, ctx := (s.queue n).ctx, client := (s.queue n).client, kind := k, rec_ := r
                                acceptedAt := s.tm.now, cflags := if (s.queue n).again.contains seq then 9 else 1 }] ∧
      (∃ a, t.queue n = { s.queue n with again := a }) ∧ (∃ h ∈ t.hl.hwr, h.what = .journal n seq) ∧
      t.cnt C.Q_CNT_ACCEPTED = (s.cnt C.Q_CNT_ACCEPTED + 1) % 2 ^ 64 ∧ (∀ i ∈ s.imageKey r, i ∈ t.cq.checked) ∧
      t.wh = s.wh ∧ t.kv = s.kv ∧ t.tl = s.tl := by
  let v := s.hwr ((s.queue n).jnl + 16 * (s.queue n).slotOf seq) (journalEntry seq s.tm.now) (.journal n seq)
  let c : Cmd := { q := n, seq := seq, ctx := (s.queue n).ctx, client := (s.queue n).client, kind := k, rec_ := r
                   acceptedAt := v.tm.now, cflags := if (s.queue n).again.contains seq then 9 else 1 }
  let y : State := (({ v with cq.cmds := v.cq.cmds ++ [c], cq.checked := withChecked v.cq.checked (v.imageKey r) } : State).setQueue n
    { v.queue n with again := (s.queue n).again.filter (· ≠ seq) }).addCnt C.Q_CNT_ACCEPTED 1
  let z := y.trace { type := 1, ctx := (s.queue n).ctx, q := n, seq := seq, arg0 := (s.queue n).client, arg1 := v.tm.now }
  have shape : s.accept n seq r k = z.ctxAccept (s.queue n).ctx := by
    unfold State.accept
    dsimp only
    congr 2
  have cq_v : v.cq = s.cq := State.hwr_cq _ _ _ _
  have time : v.tm = s.tm := State.hwr_tm _ _ _ _
  have sent : ∃ h ∈ v.hl.hwr, h.what = .journal n seq := s.hwr_mem _ _ (by
    intro empty
    have := congrArg List.length empty
    simp [journalEntry] at this)
  have counted : v.cnt C.Q_CNT_ACCEPTED = s.cnt C.Q_CNT_ACCEPTED := by unfold v; rw [State.hwr_frame]; rfl
  have key : v.imageKey r = s.imageKey r := State.imageKey_of_mm (State.hwr_mm _ _ _ _) r
  have wh_v : v.wh = s.wh := State.hwr_wh _ _ _ _
  have kv_v : v.kv = s.kv := State.hwr_kv _ _ _ _
  have tl_v : v.tl = s.tl := State.hwr_tl _ _ _ _
  have queue_v : v.queue n = s.queue n := by unfold State.queue; rw [cq_v]
  clear_value v
  have cq : z.cq = y.cq := State.trace_cq _ _
  have hwr : z.hl.hwr = y.hl.hwr := by
    have traced := State.trace_frame y { type := 1, ctx := (s.queue n).ctx, q := n, seq := seq, arg0 := (s.queue n).client, arg1 := v.tm.now }
    exact (congrArg (fun u : State => u.hl.hwr) traced :)
  have cnt : z.cnt C.Q_CNT_ACCEPTED = y.cnt C.Q_CNT_ACCEPTED := State.trace_cnt_other _ _ (by decide)
  have wh : z.wh = y.wh := State.trace_wh _ _
  have kv : z.kv = y.kv := State.trace_kv _ _
  have tl : z.tl = y.tl := State.trace_tl _ _
  clear_value z
  dsimp only
  rw [shape, State.ctxAccept_frame]
  refine ⟨?_, ⟨(s.queue n).again.filter (· ≠ seq), ?_⟩, ?_, ?_, fun i hi => ?_, wh.trans wh_v, kv.trans kv_v, tl.trans tl_v⟩
  · show z.cq.cmds = _
    rw [cq]
    show v.cq.cmds ++ [c] = _
    rw [cq_v]
    unfold c
    rw [time]
  · show look {} z.cq.queues n = _
    rw [cq]
    refine (look_put_self {} v.cq.queues n _).trans ?_
    rw [queue_v]
  · show ∃ h ∈ z.hl.hwr, _
    rw [hwr]
    exact sent
  · refine cnt.trans ((State.cnt_addCnt _ _ _ _ _).trans ?_)
    exact congrArg (fun x => (x + 1) % 2 ^ 64) counted
  · show i ∈ z.cq.checked
    rw [cq]
    exact mem_withChecked _ (by rw [key]; exact hi)

/-- A completion record that falls due joins its queue's, which then is pumped. -/
theorem State.due_adds (s : State) (n : Nat) (d : Done) :
    let t := s.due n d
    (∃ w, t.queue n = { s.queue n with done := (s.queue n).done ++ [d], writing := w }) ∧ t.cq.cmds = s.cq.cmds ∧
      t.cq.checked = s.cq.checked ∧ t.wh = s.wh ∧ t.kv = s.kv ∧ t.tl = s.tl ∧ t.sc = s.sc ∧ t.mm = s.mm ∧
      t.rg.fields = s.rg.fields ∧ t.rg.cnts = s.rg.cnts := by
  let u := s.setQueue n { s.queue n with done := (s.queue n).done ++ [d] }
  have here : u.queue n = { s.queue n with done := (s.queue n).done ++ [d] } := look_put_self _ _ _ _
  have pumped : (∃ w, (u.pumpQueue n).queue n = { u.queue n with writing := w }) ∧
      (u.pumpQueue n).cq.cmds = u.cq.cmds ∧ (u.pumpQueue n).cq.checked = u.cq.checked ∧ (u.pumpQueue n).wh = u.wh ∧ (u.pumpQueue n).kv = u.kv ∧ (u.pumpQueue n).tl = u.tl ∧
      (u.pumpQueue n).sc = u.sc ∧ (u.pumpQueue n).mm = u.mm ∧ (u.pumpQueue n).rg.fields = u.rg.fields ∧
      (u.pumpQueue n).rg.cnts = u.rg.cnts := by
    unfold State.pumpQueue
    dsimp only
    split
    · exact ⟨⟨_, rfl⟩, rfl, rfl, rfl, rfl, rfl, rfl, rfl, rfl, rfl⟩
    · split
      · exact ⟨⟨_, rfl⟩, rfl, rfl, rfl, rfl, rfl, rfl, rfl, rfl, rfl⟩
      · rw [State.hwr_frame]
        exact ⟨⟨true, look_put_self _ _ _ _⟩, rfl, rfl, rfl, rfl, rfl, rfl, rfl, rfl, rfl⟩
  have shape : s.due n d = u.pumpQueue n := rfl
  obtain ⟨⟨w, own⟩, cmds, checked, wh, kv, tl, sc, mm, fields, cnts⟩ := pumped
  dsimp only
  rw [shape]
  rw [here] at own
  exact ⟨⟨w, own⟩, cmds, checked, wh, kv, tl, sc, mm, fields, cnts⟩

section
variable {s : State} {n : Fin 4096} {r : List Byte} {k : Kind}

theorem State.queue_takeSlot (s : State) (n : Nat) :
    (s.takeSlot n).queue n = { s.queue n with
      position := some ((s.queue n).oldest, seqAfter (s.queue n).next 1)
      inHand := (s.queue n).inHand.filter (fun e => e.1 != (s.queue n).next) } := look_put_self _ _ _ _

theorem kindCommand_takes (k : Kind) (n : Fin 4096) (s : State) : exec (kindCommand k n) s = .next (s.takeRecord n k) := by
  cases k <;> rfl

variable (runs : s.engineRuns = true) (first : s.takesFrom n = true) (next : s.nextRecord n = some r) (kind : recKind r = some k)
include runs first next kind

theorem record_accepted (passes : s.refusal (s.queue n).ctx r = none) :
    let q := s.queue n
    ∃ t, exec (kindCommand k n) s = .next t ∧
      t.cq.cmds = s.cq.cmds ++ [{ q := n, seq := q.next, ctx := q.ctx, client := q.client, kind := k, rec_ := r
                                  acceptedAt := s.tm.now, cflags := if q.again.contains q.next then 9 else 1 }] ∧
      (t.queue n).position = some (q.oldest, seqAfter q.next 1) ∧ (t.queue n).done = q.done ∧
      (∃ h ∈ t.hl.hwr, h.what = .journal n q.next) ∧
      t.cnt C.Q_CNT_ACCEPTED = (s.cnt C.Q_CNT_ACCEPTED + 1) % 2 ^ 64 ∧ (∀ i ∈ s.imageKey r, i ∈ t.cq.checked) ∧
      t.wh = s.wh ∧ t.kv = s.kv ∧ t.tl = s.tl := by
  intro q
  have taken : s.takeRecord n k = (s.takeSlot n).accept n q.next r k := by
    unfold State.takeRecord
    rw [if_pos ⟨runs, first⟩, next]
    dsimp only
    rw [kind]
    dsimp only
    rw [if_pos rfl, passes]
  have ran := (kindCommand_takes k n s).trans (congrArg Host.Outcome.next taken)
  obtain ⟨cmds, ⟨a, own⟩, journal, counted, checked, wh, kv, tl⟩ := (s.takeSlot n).accept_accepts n q.next r k
  rw [State.queue_takeSlot] at cmds own
  refine ⟨_, ran, cmds, by rw [own], by rw [own], journal, counted, ?_, wh, kv, tl⟩
  intro i hi
  exact checked i (by rw [State.imageKey_of_mm (s := s) (t := s.takeSlot n) rfl]; exact hi)

theorem record_refused {f : Fail} (fails : s.refusal (s.queue n).ctx r = some f) :
    let q := s.queue n
    let d (f : Fail) : Done := { seq := q.next, tag := recTag r, time := s.tm.now, detail := f.detail, status := f.code
                                 intr := recIntr r && q.intr }
    ∃ t, exec (kindCommand k n) s = .next t ∧ t.cq.cmds = s.cq.cmds ∧
      (t.queue n).position = some (q.oldest, seqAfter q.next 1) ∧ (t.queue n).done = q.done ++ [d f] ∧
      t.cnt C.Q_CNT_REFUSED = (s.cnt C.Q_CNT_REFUSED + 1) % 2 ^ 64 ∧ t.cq.checked = s.cq.checked ∧ t.wh = s.wh ∧
      t.kv = s.kv ∧ t.tl = s.tl ∧ t.sc = s.sc ∧ t.mm = s.mm ∧ t.rg.fields = s.rg.fields := by
  intro q d
  have taken : s.takeRecord n k = (s.takeSlot n).refuse n q.next r f := by
    unfold State.takeRecord
    rw [if_pos ⟨runs, first⟩, next]
    dsimp only
    rw [kind]
    dsimp only
    rw [if_pos rfl, fails]
  have ran := (kindCommand_takes k n s).trans (congrArg Host.Outcome.next taken)
  let u := (s.takeSlot n).addCnt C.Q_CNT_REFUSED 1
  have own_u : u.queue n = _ := s.queue_takeSlot n
  have due : (s.takeSlot n).refuse n q.next r f = u.due n (d f) := by
    unfold State.refuse
    rw [State.queue_takeSlot]
    rfl
  obtain ⟨⟨w, own⟩, cmds, checked, wh, kv, tl, sc, mm, fields, cnts⟩ := u.due_adds n (d f)
  rw [← due] at own cmds checked wh kv tl sc mm fields cnts
  rw [own_u] at own
  refine ⟨_, ran, cmds, by rw [own], by rw [own], ?_, checked, wh, kv, tl, sc, mm, fields⟩
  exact (congrArg (fun m => look 0 m (cntKey C.Q_CNT_REFUSED 0 0)) cnts).trans (State.cnt_addCnt (s.takeSlot n) _ _ _ _)
end

/-- Settles O49: a record that its acceptance check passes, and one that it refuses. -/
theorem acceptance : Obligations.Acceptance := by
  unfold Obligations.Acceptance
  intro s k n r runs first next kind
  exact ⟨record_accepted runs first next kind, fun f fails => record_refused runs first next kind fails⟩

end Sys2Proof.Machine
end

section
/-! SUPPORT. Slices, overruns and the release of cores (R421 to R427), and O41. -/

namespace Sys2Proof.Machine

/-! ## What the work behind a core's release keeps of a context -/

/-- Yields are not counted; a context with a command in hand keeps one, and the records it has saved. -/
structure ContextKept (ctx : Nat) (s t : State) : Prop where
  yields : t.cnt C.SCHED_CNT_YIELDS = s.cnt C.SCHED_CNT_YIELDS
  saved : (∃ c ∈ s.cq.cmds, c.ctx = ctx) → (∃ c ∈ t.cq.cmds, c.ctx = ctx) ∧ (t.ctx ctx).saved = (s.ctx ctx).saved

namespace ContextKept
variable {ctx : Nat} {s t u : State}

theorem refl (s : State) : ContextKept ctx s s := ⟨rfl, fun h => ⟨h, rfl⟩⟩

theorem trans (h : ContextKept ctx s t) (h' : ContextKept ctx t u) : ContextKept ctx s u :=
  ⟨h'.yields.trans h.yields, fun own => by
    obtain ⟨still, saved⟩ := h.saved own
    obtain ⟨still', saved'⟩ := h'.saved still
    exact ⟨still', saved'.trans saved⟩⟩

theorem same (h : ContextKept ctx s t) (cnts : u.rg.cnts = t.rg.cnts := by rfl) (cmds : u.cq.cmds = t.cq.cmds := by rfl)
    (ctxs : u.sc.ctxs = t.sc.ctxs := by rfl) : ContextKept ctx s u :=
  h.trans ⟨by unfold State.cnt; rw [cnts], fun own => ⟨by rw [cmds]; exact own, by unfold State.ctx; rw [ctxs]⟩⟩

theorem either {c : Prop} [Decidable c] {a b : State} (ha : ContextKept ctx s a) (hb : ContextKept ctx s b) :
    ContextKept ctx s (if c then a else b) := by
  split
  · exact ha
  · exact hb

theorem addCnt (h : ContextKept ctx s t) {c : Cnt} {n i : Nat} (apart : cntKey C.SCHED_CNT_YIELDS 0 0 ≠ cntKey c i 0) :
    ContextKept ctx s (t.addCnt c n i) :=
  h.trans ⟨State.cnt_addCnt_ne _ _ _ _ _ _ _ _ apart, fun own => ⟨own, rfl⟩⟩

theorem trace (h : ContextKept ctx s t) {r : TraceRec} : ContextKept ctx s (t.trace r) :=
  h.trans ⟨State.trace_cnt_other _ _ (by decide), fun own => by
    unfold State.ctx
    rw [State.trace_cq, State.trace_sc]
    exact ⟨own, rfl⟩⟩

theorem devWrite (h : ContextKept ctx s t) {a : Nat} {d : List Byte} : ContextKept ctx s (t.devWrite a d) :=
  h.trans ⟨((TraceLeft.refl t).devWrite a d).cnts _ (by decide), fun own => by
    unfold State.ctx
    rw [State.devWrite_cq, State.devWrite_sc]
    exact ⟨own, rfl⟩⟩

theorem setCtx (h : ContextKept ctx s t) {n : Nat} {x : Ctx} (kept : x.saved = (t.ctx n).saved) : ContextKept ctx s (t.setCtx n x) :=
  h.trans ⟨rfl, fun own => ⟨own, by
    by_cases here : ctx = n
    · subst here
      rw [State.ctx_setCtx]
      exact kept
    · rw [State.ctx_setCtx_ne _ _ _ _ here]⟩⟩

theorem ctxTo (h : ContextKept ctx s t) {n : Nat} {x : CtxSt} : ContextKept ctx s (t.ctxTo n x) := h.setCtx rfl

theorem yieldEnds (h : ContextKept ctx s t) {n : Nat} : ContextKept ctx s (t.yieldEnds n) :=
  either (either h.trace.ctxTo h.trace.ctxTo) h

theorem settle (h : ContextKept ctx s t) : ContextKept ctx s (t.settle ctx) := by
  unfold State.settle
  extract_lets u x cs allHeld noCore
  have hu : ContextKept ctx s u := h.yieldEnds
  split
  · next none =>
    refine either hu (hu.trans ⟨rfl, fun own => ?_⟩)
    obtain ⟨c, hc, mine⟩ := own
    have here : c ∈ cs := List.mem_filter.mpr ⟨hc, beq_iff_eq.mpr mine⟩
    rw [List.isEmpty_iff.mp none] at here
    cases here
  · split
    · exact either hu.ctxTo hu
    · exact either (either hu.ctxTo hu.ctxTo) hu
    · exact either hu hu.ctxTo
    · exact either hu hu.ctxTo
    · exact hu

theorem setCmd (h : ContextKept ctx s t) {c : Cmd} (mine : c.ctx = ctx) : ContextKept ctx s (t.setCmd c) :=
  h.trans ⟨rfl, fun own => ⟨by
    obtain ⟨d, hd, own⟩ := own
    refine ⟨_, List.mem_map_of_mem hd, ?_⟩
    split
    · exact mine
    · exact own, rfl⟩⟩

theorem cisRead (h : ContextKept ctx s t) {m b : Nat} {w : CisFor} : ContextKept ctx s (t.cisRead m b w) := by
  unfold State.cisRead State.cisReq
  dsimp only
  rw [State.emit_frame]
  exact h.same

theorem commitNext (h : ContextKept ctx s t) {c : Cmd} (mine : c.ctx = ctx) : ContextKept ctx s (t.commitNext c) := by
  unfold State.commitNext
  split
  · subst mine
    exact (h.setCmd (c := { c with stage := .staged, hold := none, since := t.tm.now }) rfl).settle
  · split
    · exact h
    · exact either h h.cisRead

theorem outputsDone (h : ContextKept ctx s t) {c : Cmd} (mine : c.ctx = ctx) : ContextKept ctx s (t.outputsDone c) :=
  (h.setCmd (c := { c with work := { c.work with list := cisOutputs c.descs } }) mine).commitNext mine

theorem requestNext (h : ContextKept ctx s t) {c : Cmd} : ContextKept ctx s (t.requestNext c) := by
  unfold State.requestNext
  split
  · exact either h h.same
  · exact h

theorem foldl (h : ContextKept ctx s t) {α : Type} {f : State → α → State}
    (step : ∀ u x, ContextKept ctx s u → ContextKept ctx s (f u x)) {l : List α} : ContextKept ctx s (l.foldl f t) := by
  induction l generalizing t with
  | nil => exact h
  | cons x r ih => exact ih (step t x h)

theorem layersEnd (h : ContextKept ctx s t) {q seq : Nat} (mine : ∀ c, t.cmd? q seq = some c → c.ctx = ctx) :
    ContextKept ctx s (t.layersEnd q seq) := by
  unfold State.layersEnd
  split
  · exact h
  · next c found =>
    have own := mine c found
    extract_lets gone c' u v
    have hu : ContextKept ctx s v := (h.setCmd (c := c') own).foldl fun _ _ hu => hu.requestNext
    split
    · exact h
    · refine either (hu.outputsDone own) ?_
      rw [show c'.ctx = ctx from own]
      exact hu.settle

theorem poolWrite (h : ContextKept ctx s t) {u : Option Nat} {d : List Byte} : ContextKept ctx s (t.poolWrite u d) := by
  unfold State.poolWrite
  split
  · exact h.devWrite
  · exact h

end ContextKept

namespace MovedOn
variable {s t : State}

theorem addCnt (h : MovedOn s t) {c : Cnt} {n i b : Nat} : MovedOn s (t.addCnt c n i b) := h.same

end MovedOn

/-! ## A record kept, and a layer that leaves its cluster -/

theorem State.poolWrite_cq (s : State) (u : Option Nat) (d : List Byte) : (s.poolWrite u d).cq = s.cq ∧ (s.poolWrite u d).tl = s.tl ∧
    (s.poolWrite u d).sc = s.sc ∧ (s.poolWrite u d).tm = s.tm := by
  unfold State.poolWrite
  split
  · exact ⟨State.devWrite_cq _ _ _, State.devWrite_tl _ _ _, State.devWrite_sc _ _ _, State.devWrite_tm _ _ _⟩
  · exact ⟨rfl, rfl, rfl, rfl⟩

theorem State.poolWrite_cnt (s : State) (u : Option Nat) (d : List Byte) :
    (s.poolWrite u d).cnt C.SCHED_CNT_YIELDS = s.cnt C.SCHED_CNT_YIELDS := by
  unfold State.poolWrite
  split
  · exact ((TraceLeft.refl s).devWrite _ _).cnts _ (by decide)
  · rfl

theorem State.writeHeader_writes (s : State) (ctx : Nat) : ∃ u d, s.writeHeader ctx = s.poolWrite u d := by
  unfold State.writeHeader
  exact ⟨_, _, rfl⟩

/-- A core record acknowledged: it is among the records saved, and counted. -/
theorem State.keepRecord_keeps (s : State) (ctx : Nat) (r : SavedCore) :
    let t := s.keepRecord ctx r
    (∃ u, { r with at_ := u } ∈ (t.ctx ctx).saved) ∧ t.cnt C.SCHED_CNT_YIELDS = (s.cnt C.SCHED_CNT_YIELDS + 1) % 2 ^ 64 ∧
      t.cq = s.cq ∧ t.tl = s.tl ∧ t.tm = s.tm := by
  have opened : (s.openSave ctx).cnt C.SCHED_CNT_YIELDS = s.cnt C.SCHED_CNT_YIELDS ∧ (s.openSave ctx).cq = s.cq ∧
      (s.openSave ctx).tl = s.tl ∧ (s.openSave ctx).tm = s.tm := by
    unfold State.openSave
    dsimp only
    split
    · exact ⟨State.cnt_addCnt_ne _ _ _ _ _ _ _ _ (by decide), rfl, rfl, rfl⟩
    · exact ⟨rfl, rfl, rfl, rfl⟩
  obtain ⟨cnt_u, cq_u, tl_u, tm_u⟩ := opened
  let u := s.openSave ctx
  let place := u.poolPlace (ceilDiv r.size 64)
  let v := ((({ u with free := u.free + 1 } : State).setCtx ctx
    { u.ctx ctx with saved := (u.ctx ctx).saved ++ [{ r with at_ := place }] }).addCnt C.SCHED_CNT_YIELDS 1).savedBytes r.size
  have shape : s.keepRecord ctx r = (v.poolWrite place (r.record (v.stepsDone r))).writeHeader ctx := rfl
  dsimp only
  rw [shape]
  have saved : (v.ctx ctx).saved = (u.ctx ctx).saved ++ [{ r with at_ := place }] :=
    congrArg Ctx.saved (State.ctx_setCtx ({ u with free := u.free + 1 } : State) ctx _)
  have counted : v.cnt C.SCHED_CNT_YIELDS = (s.cnt C.SCHED_CNT_YIELDS + 1) % 2 ^ 64 := by
    refine (State.cnt_addCnt_ne _ _ _ _ _ _ _ _ (by decide)).trans ((State.cnt_addCnt _ _ _ _ _).trans ?_)
    exact congrArg (fun n => (n + 1) % 2 ^ 64) cnt_u
  have cq_v : v.cq = s.cq := cq_u
  have tl_v : v.tl = s.tl := tl_u
  have tm_v : v.tm = s.tm := tm_u
  clear_value v
  obtain ⟨cq_w, tl_w, sc_w, tm_w⟩ := v.poolWrite_cq place (r.record (v.stepsDone r))
  have cnt_w := v.poolWrite_cnt place (r.record (v.stepsDone r))
  generalize v.poolWrite place (r.record (v.stepsDone r)) = w at *
  obtain ⟨a, d, header⟩ := w.writeHeader_writes ctx
  rw [header]
  obtain ⟨cq_x, tl_x, sc_x, tm_x⟩ := w.poolWrite_cq a d
  refine ⟨⟨place, ?_⟩, (w.poolWrite_cnt _ _).trans (cnt_w.trans counted), cq_x.trans (cq_w.trans cq_v), tl_x.trans (tl_w.trans tl_v),
    tm_x.trans (tm_w.trans tm_v)⟩
  have same : ((w.poolWrite a d).ctx ctx).saved = (v.ctx ctx).saved := by
    unfold State.ctx at *
    rw [sc_x, sc_w]
  rw [same, saved]
  exact List.mem_append_right _ (List.mem_singleton_self _)

/-- What a layer that leaves its cluster leaves: the time, cores, commands, and what the context has saved. -/
structure LayerLeft (ctx : Nat) (s t : State) : Prop where
  time : t.tm = s.tm
  cores : t.tl.cores = s.tl.cores
  queues : t.cq = s.cq
  context : ContextKept ctx s t

/-- A cluster record put in its place: the context's records and the pool's memory. -/
theorem State.putClRec_leaves (s : State) (ctx cl : Nat) (d : List Byte) : LayerLeft ctx s (s.putClRec ctx cl d) := by
  unfold State.putClRec
  dsimp only
  split
  · exact ⟨rfl, rfl, rfl, .refl s⟩
  · next r _ =>
    let y : Ctx := { s.ctx ctx with clAt := (s.ctx ctx).clAt.filter (fun a => a.cluster ≠ cl) }
    let u := s.setCtx ctx y
    let place := u.poolPlace (ceilDiv (clRecSize r.2 d.length) 64)
    let v := ({ u with free := u.free + 1 } : State).setCtx ctx
      { y with clAt := y.clAt ++ [{ cluster := cl, at_ := place, bytes := d.length }] }
    show LayerLeft ctx s ((v.poolWrite place (_ ++ d)).writeHeader ctx)
    have kept_u : ContextKept ctx s u := (ContextKept.refl s).setCtx (n := ctx) (x := y) rfl
    have kept : ContextKept ctx s v := (kept_u.same (u := { u with free := u.free + 1 })).setCtx
      (congrArg Ctx.saved (State.ctx_setCtx s ctx y)).symm
    have tm : v.tm = s.tm := rfl
    have tl : v.tl = s.tl := rfl
    have cq : v.cq = s.cq := rfl
    clear_value v
    generalize (_ : List Byte) ++ d = e
    obtain ⟨cq_w, tl_w, -, tm_w⟩ := v.poolWrite_cq place e
    have kept_w := kept.poolWrite (u := place) (d := e)
    generalize v.poolWrite place e = w at *
    obtain ⟨a, b, header⟩ := w.writeHeader_writes ctx
    rw [header]
    obtain ⟨cq_x, tl_x, -, tm_x⟩ := w.poolWrite_cq a b
    exact ⟨tm_x.trans (tm_w.trans tm), congrArg Tl.cores (tl_x.trans (tl_w.trans tl)), cq_x.trans (cq_w.trans cq), kept_w.poolWrite⟩

theorem State.layerLeaves_leaves (s : State) (ctx : Nat) (p : Place) (cl : Nat) : LayerLeft ctx s (s.layerLeaves ctx p cl) := by
  unfold State.layerLeaves
  split
  · exact ⟨rfl, rfl, rfl, .refl s⟩
  · extract_lets kept y u x had recs
    have kept_u : ContextKept ctx s u := (ContextKept.refl s).same
    split
    · exact ⟨rfl, rfl, rfl, .refl s⟩
    · split
      · exact ⟨rfl, rfl, rfl, kept_u⟩
      · let v := (u.setCtx ctx { x with clRecs := recs }).savedBytes (if had then 128 else 192)
        have kept_v : ContextKept ctx s v := (kept_u.setCtx (n := ctx) (x := { x with clRecs := recs }) rfl).addCnt (c := C.SCHED_CNT_SAVED_BYTES) (by decide)
        obtain ⟨tm, cores, cq, more⟩ := v.putClRec_leaves ctx cl []
        exact ⟨tm, cores, cq, kept_v.trans more⟩

/-- A core released: it is free, and what its context has saved stays. -/
theorem State.release_frees (v : State) {ctx core : Nat} {p : Place} (mine : ∀ c, v.cmd? p.q p.seq = some c → c.ctx = ctx) :
    let t := ((((v.freeCore core).layerLeaves ctx p (core / 40)).idleNow (core / 40)).layersEnd p.q p.seq).settle ctx
    t.core core = (v.core core).freed ∧ t.tm = v.tm ∧ ContextKept ctx v t := by
  obtain ⟨tm_a, cores_a, cq_a, kept_a⟩ := (v.freeCore core).layerLeaves_leaves ctx p (core / 40)
  have freed : (v.freeCore core).core core = (v.core core).freed := State.core_setCore _ _ _
  have kept_f : ContextKept ctx v (v.freeCore core) := (ContextKept.refl v).same
  have cq_f : (v.freeCore core).cq = v.cq := rfl
  have tm_f : (v.freeCore core).tm = v.tm := rfl
  generalize v.freeCore core = f at *
  generalize f.layerLeaves ctx p (core / 40) = a at *
  have idle : (a.idleNow (core / 40)).tm = a.tm ∧ (a.idleNow (core / 40)).tl = a.tl ∧ (a.idleNow (core / 40)).cq = a.cq ∧
      ContextKept ctx a (a.idleNow (core / 40)) := by
    unfold State.idleNow
    split
    · exact ⟨rfl, rfl, rfl, (ContextKept.refl a).same⟩
    · exact ⟨rfl, rfl, rfl, .refl a⟩
  obtain ⟨tm_b, tl_b, cq_b, kept_b⟩ := idle
  generalize a.idleNow (core / 40) = b at *
  have found : ∀ c, b.cmd? p.q p.seq = some c → c.ctx = ctx := by
    intro c hc
    refine mine c ?_
    rw [← hc]
    unfold State.cmd?
    rw [cq_b, cq_a, cq_f]
  have moved : MovedOn b ((b.layersEnd p.q p.seq).settle ctx) := (MovedOn.refl b).layersEnd.settle
  have kept : ContextKept ctx b ((b.layersEnd p.q p.seq).settle ctx) := ((ContextKept.refl b).layersEnd found).settle
  generalize (b.layersEnd p.q p.seq).settle ctx = t at *
  unfold MovedOn at moved
  refine ⟨?_, ?_, ((kept_f.trans kept_a).trans kept_b).trans kept⟩
  · rw [← freed, moved]
    show look {} b.tl.cores core = _
    rw [tl_b, cores_a]
    rfl
  · rw [moved]
    exact tm_b.trans (tm_a.trans tm_f)

section
variable {s : State} {core : Fin 10240} {p : Place} {ctx : Nat} (place : (s.core core).place = some p)
  (mine : s.coreCtx core = some ctx) (on : s.runs (core / 40) = true)

/-- The record that a core standing at its mark leaves (log 43). -/
def State.markRecord (s : State) (core : Nat) (p : Place) : SavedCore :=
  { q := p.q, seq := p.seq, cluster := core / 40, position := s.position core p, point := 0, layer := p.layer
    place := p, mask := (match s.corePlan core with | some pl => pl.fixedLive | none => 0)
    wells := (s.core core).wells.filter (fun e => bit (match s.corePlan core with | some pl => pl.fixedLive | none => 0) (e.1 / 256))
    csAddr := 0, csLen := 0, bytes := [], queue := [] }

include place mine in
/-- The command of a core's layer is the context's. -/
theorem State.coreCtx_owner : ∀ c, s.cmd? p.q p.seq = some c → c.ctx = ctx := by
  intro c found
  unfold State.coreCtx at mine
  rw [place] at mine
  dsimp only at mine
  rw [found] at mine
  exact Option.some.inj mine

include place mine on

theorem coreRelease_frees (over_ : (s.core core).ended = true) (unsaved : (s.core core).saving = none) :
    ∃ t, exec (.coreRelease core) s = .next t ∧ (t.core core).place = none ∧ (t.core core).queue = [] ∧
      t.cnt C.SCHED_CNT_YIELDS = s.cnt C.SCHED_CNT_YIELDS ∧ t.tm = s.tm := by
  have ran : s.coreRelease core =
      ((((s.freeCore core).layerLeaves ctx p (core / 40)).idleNow (core / 40)).layersEnd p.q p.seq).settle ctx := by
    unfold State.coreRelease
    dsimp only
    rw [place, mine]
    dsimp only
    rw [if_neg (by simp [on, over_]), unsaved]
    dsimp only
    rw [if_pos over_]
  obtain ⟨own, tm, kept⟩ := s.release_frees (core := core) (State.coreCtx_owner place mine)
  exact ⟨_, congrArg Host.Outcome.next ran, by rw [own]; rfl, by rw [own]; rfl, kept.yields, tm⟩

theorem coreRelease_saves {r : SavedCore} (saving : (s.core core).saving = some r) :
    ∃ t, exec (.coreRelease core) s = .next t ∧ (t.core core).place = none ∧ (t.core core).saving = none ∧
      t.cnt C.SCHED_CNT_YIELDS = (s.cnt C.SCHED_CNT_YIELDS + 1) % 2 ^ 64 ∧ t.tm = s.tm ∧
      (∀ c l, s.cmd? p.q p.seq = some c → l ∈ c.layers → l.ord = p.layer → l.ended = false →
        r.q = p.q → r.seq = p.seq → r.layer = p.layer → ∃ x ∈ (t.ctx ctx).saved, x = { r with at_ := x.at_ }) := by
  have ran : s.coreRelease core = (((((s.keepRecord ctx r).freeCore core).layerLeaves ctx p (core / 40)).idleNow (core / 40)).layersEnd
      p.q p.seq).settle ctx := by
    unfold State.coreRelease
    dsimp only
    rw [place, mine]
    dsimp only
    rw [if_neg (by simp [on, saving]), saving]
  obtain ⟨⟨u, saved⟩, yields, cq, tl, tm⟩ := s.keepRecord_keeps ctx r
  generalize s.keepRecord ctx r = v at *
  have owner := State.coreCtx_owner place mine
  obtain ⟨own, tm_t, kept⟩ := v.release_frees (ctx := ctx) (core := core) (p := p) (by unfold State.cmd? at *; rw [cq]; exact owner)
  refine ⟨_, congrArg Host.Outcome.next ran, by rw [own]; rfl, by rw [own]; rfl, kept.yields.trans yields, tm_t.trans tm,
    fun c l found _ _ _ _ _ _ => ⟨{ r with at_ := u }, ?_, rfl⟩⟩
  · have held : c ∈ v.cq.cmds := by
      rw [cq]
      exact List.mem_of_find?_eq_some found
    rw [(kept.saved ⟨c, held, owner c found⟩).2]
    exact saved

theorem coreRelease_leavesMark (open_ : (s.core core).ended = false) (unsaved : (s.core core).saving = none)
    (stands : s.idleYields core ctx p = true) :
    ∃ t, exec (.coreRelease core) s = .next t ∧ (t.core core).place = none ∧
      t.cnt C.SCHED_CNT_YIELDS = (s.cnt C.SCHED_CNT_YIELDS + 1) % 2 ^ 64 ∧ t.tm = s.tm := by
  have ran : s.coreRelease core = (((((s.keepRecord ctx (s.markRecord core p)).freeCore core).layerLeaves ctx p (core / 40)).idleNow
      (core / 40)).layersEnd p.q p.seq).settle ctx := by
    unfold State.coreRelease
    dsimp only
    rw [place, mine]
    dsimp only
    rw [if_neg (by simp [on, stands]), unsaved]
    dsimp only
    rw [if_neg (by simp [open_])]
    rfl
  obtain ⟨-, yields, cq, tl, tm⟩ := s.keepRecord_keeps ctx (s.markRecord core p)
  generalize s.keepRecord ctx (s.markRecord core p) = v at *
  have owner := State.coreCtx_owner place mine
  obtain ⟨own, tm_t, kept⟩ := v.release_frees (ctx := ctx) (core := core) (p := p) (by unfold State.cmd? at *; rw [cq]; exact owner)
  exact ⟨_, congrArg Host.Outcome.next ran, by rw [own]; rfl, kept.yields.trans yields, tm_t.trans tm⟩
end

/-! ## Slices -/

section
variable {s : State} {n : Fin 4096}

/-- A slice begins: the context's, with the held slice length in force. -/
theorem State.startSlice_starts (s : State) (n : Nat) :
    let t := s.startSlice n
    t.ctx n = { s.ctx n with sliceStart := s.tm.now, sliceLen := (t.ctx n).sliceLen } ∧ t.cq = s.cq ∧ t.tl = s.tl ∧ t.mm = s.mm ∧
      t.er = s.er ∧ t.fld F.SCHED_INT_STATUS.POOL_SHORT = s.fld F.SCHED_INT_STATUS.POOL_SHORT := by
  have apart := (s.applyField_others (f := F.SCHED_SLICE.US) (g := F.SCHED_INT_STATUS.POOL_SHORT) (i := 0) (b := 0) (j := 0) (c := 0)
    (by decide)).1
  have frame := s.applyField_frame F.SCHED_SLICE.US 0 0
  unfold State.startSlice
  dsimp only
  generalize s.applyField F.SCHED_SLICE.US = u at *
  have ctx : u.ctx n = s.ctx n := by rw [frame]; rfl
  have now : u.tm = s.tm := by rw [frame]
  refine ⟨?_, ?_, ?_, ?_, ?_, apart⟩
  · rw [State.ctx_setCtx, ctx, now]
  · rw [frame]; rfl
  · rw [frame]; rfl
  · rw [frame]; rfl
  · rw [frame]; rfl

/-- Cores that yield at their wait are all that changes. -/
theorem State.yieldAtWait_frame (s : State) (c : Nat) : s.yieldAtWait c = { s with tl.cores := (s.yieldAtWait c).tl.cores } := by
  unfold State.yieldAtWait
  split
  · unfold State.yieldCore
    dsimp only
    split <;> rfl
  · rfl

theorem foldl_yieldAtWait (l : List Nat) (s : State) :
    l.foldl (fun s k => s.yieldAtWait k) s = { s with tl.cores := (l.foldl (fun s k => s.yieldAtWait k) s).tl.cores } := by
  induction l generalizing s with
  | nil => rfl
  | cons k l ih =>
    rw [List.foldl_cons]
    refine Eq.trans (ih _) ?_
    rw [State.yieldAtWait_frame s k]

section
variable (on : s.runs 313 = true) (running : (s.ctx n).st = .running) (past : (s.ctx n).sliceStart + (s.ctx n).sliceLen ≤ s.tm.now)
include on running past

theorem sliceEnd_renews (alone : s.othersWait n = false) (none : s.outWaits = false) :
    ∃ t, exec (.sliceEnd n) s = .next t ∧ (t.ctx n).st = .running ∧
      (t.ctx n).sliceStart = s.tm.now ∧ t.cq = s.cq ∧ t.tl = s.tl ∧ t.mm = s.mm := by
  have ran : s.sliceEnd n = s.startSlice n := by
    unfold State.sliceEnd
    dsimp only
    rw [if_neg (by simp [on, running, Nat.not_lt.mpr past]), if_pos (by simp [alone, none])]
  obtain ⟨own, cq, tl, mm, -, -⟩ := s.startSlice_starts n
  exact ⟨_, congrArg Host.Outcome.next ran, by rw [own]; exact running, by rw [own], cq, tl, mm⟩

variable (waits : s.othersWait n = true ∨ s.outWaits = true)
include waits

theorem sliceEnd_short (short : s.poolFree < s.worstSave n) :
    ∃ t, exec (.sliceEnd n) s = .next t ∧ (t.ctx n).st = .running ∧ (t.ctx n).sliceStart = s.tm.now ∧
      t.fld F.SCHED_INT_STATUS.POOL_SHORT = 1 ∧ Raised s t 0x0102 0 0 ∧ t.cq = s.cq ∧ t.tl = s.tl ∧ t.mm = s.mm := by
  let u := (s.setInt F.SCHED_INT_STATUS.POOL_SHORT).raise 0x0102 0 0 0 n
  have ran : s.sliceEnd n = u.startSlice n := by
    unfold State.sliceEnd
    dsimp only
    rw [if_neg (by simp [on, running, Nat.not_lt.mpr past]), if_neg (by simpa [imp_iff_not_or] using waits), if_pos short]
  obtain ⟨own, cq, tl, mm, er, shown⟩ := u.startSlice_starts n
  have raised : Raised (s.setInt F.SCHED_INT_STATUS.POOL_SHORT) u 0x0102 0 0 := State.raise_raised _ _ _ _ _ _ _ _ _
  have ctx : u.ctx n = s.ctx n := by
    show (s.setInt F.SCHED_INT_STATUS.POOL_SHORT).ctx n = _
    unfold State.ctx
    rw [State.setInt_sc]
  have now : u.tm = s.tm := State.setInt_tm _ _ _
  refine ⟨_, congrArg Host.Outcome.next ran, by rw [own, ctx]; exact running, by rw [own, now],
    shown.trans (State.fld_setInt _ _ _), ?_, cq.trans (State.setInt_cq _ _ _), tl.trans (State.setInt_tl _ _ _),
    mm.trans (State.setInt_mm _ _ _)⟩
  unfold Raised at *
  rw [er, ← now]
  exact raised

theorem sliceEnd_yields (room : s.worstSave n ≤ s.poolFree) :
    ∃ t, exec (.sliceEnd n) s = .next t ∧ (t.ctx n).st = .yielding ∧ (t.ctx n).yieldSince = s.tm.now ∧
      (t.ctx n).swapping = s.outWaits ∧ t.cq = s.cq := by
  let u := s.trace { type := 7, flags := 1, ctx := n }
  have parts : u.sc = s.sc ∧ u.tm = s.tm ∧ u.cq = s.cq := ⟨State.trace_sc _ _, State.trace_tm _ _, State.trace_cq _ _⟩
  have counted : ∃ v : State, v.sc = s.sc ∧ v.tm = s.tm ∧ v.cq = s.cq ∧ s.sliceEnd n =
      ((v.setCtx n { s.ctx n with st := .yielding, yieldSince := v.tm.now, overran := false, swapping := v.outWaits }).ctxCores
        n).foldl (fun s k => s.yieldAtWait k)
        (v.setCtx n { s.ctx n with st := .yielding, yieldSince := v.tm.now, overran := false, swapping := v.outWaits }) := by
    unfold State.sliceEnd
    dsimp only
    rw [if_neg (by simp [on, running, Nat.not_lt.mpr past]), if_neg (by simpa [imp_iff_not_or] using waits),
      if_neg (Nat.not_lt.mpr room)]
    cases (s.ctx n).client with
    | none => exact ⟨u, parts.1, parts.2.1, parts.2.2, rfl⟩
    | some c => exact ⟨u.addCnt C.CL_CNT_PREEMPTED 1 0 c, parts.1, parts.2.1, parts.2.2, rfl⟩
  obtain ⟨v, sc, tm, cq, ran⟩ := counted
  have out : v.outWaits = s.outWaits := by
    unfold State.outWaits State.freeSlot
    rw [sc]
  rw [foldl_yieldAtWait] at ran
  have own := State.ctx_setCtx v n { s.ctx n with st := .yielding, yieldSince := v.tm.now, overran := false, swapping := v.outWaits }
  refine ⟨_, congrArg Host.Outcome.next ran, ?_, ?_, ?_, cq⟩
  · exact congrArg Ctx.st own
  · refine (congrArg Ctx.yieldSince own).trans ?_
    show v.tm.now = _
    rw [tm]
  · exact (congrArg Ctx.swapping own).trans out
end

theorem sliceOverrun_marks (on : s.runs 313 = true) (yielding : (s.ctx n).st = .yielding) (first : (s.ctx n).overran = false)
    (past : (s.ctx n).yieldSince + Nat.max 1 (s.fld F.SCHED_GRACE.US) * 1000 ≤ s.tm.now) :
    ∃ t, exec (.sliceOverrun n) s = .next t ∧ (t.ctx n).overran = true ∧ (t.ctx n).st = .yielding ∧
      t.fld F.SCHED_INT_STATUS.OVERRUN = 1 ∧ Raised s t 0x0101 0 0 ∧
      (∀ c ∈ t.cq.cmds, c.ctx = n.val → s.coresOf c.q c.seq ≠ [] → bit c.cflags 5 = true) ∧ t.tl = s.tl ∧ t.mm = s.mm := by
  let u := (s.setCtx n { s.ctx n with overran := true }).raise 0x0101 0 0 0 n
  let v := u.setInt F.SCHED_INT_STATUS.OVERRUN
  have counted : ∃ w : State, w.sc = v.sc ∧ w.er = v.er ∧ w.tl = v.tl ∧ w.mm = v.mm ∧ w.cq = v.cq ∧ w.rg.fields = v.rg.fields ∧
      s.sliceOverrun n = { w with cq.cmds := w.cq.cmds.map (fun c =>
        if c.ctx = n.val ∧ !(w.coresOf c.q c.seq).isEmpty then { c with cflags := Nat.lor c.cflags 32 } else c) } := by
    unfold State.sliceOverrun
    dsimp only
    rw [if_neg (by simp [on, yielding, first, Nat.not_lt.mpr past])]
    split
    · next c _ => exact ⟨v.addCnt C.CL_CNT_OVERRUNS 1 0 c, rfl, rfl, rfl, rfl, rfl, rfl, rfl⟩
    · exact ⟨v, rfl, rfl, rfl, rfl, rfl, rfl, rfl⟩
  have own : v.ctx n = { s.ctx n with overran := true } := by
    unfold State.ctx
    rw [State.setInt_sc]
    exact State.ctx_setCtx s n _
  have er_v : v.er = u.er := State.setInt_er _ _ _
  have tl_v : v.tl = s.tl := State.setInt_tl _ _ _
  have mm_v : v.mm = s.mm := State.setInt_mm _ _ _
  have shown : v.fld F.SCHED_INT_STATUS.OVERRUN = 1 := State.fld_setInt _ _ _
  have raised : Raised (s.setCtx n { s.ctx n with overran := true }) u 0x0101 0 0 := State.raise_raised _ _ _ _ _ _ _ _ _
  obtain ⟨w, sc, er, tl, mm, -, fields, ran⟩ := counted
  have ctx : w.ctx n = { s.ctx n with overran := true } := by
    rw [← own]
    unfold State.ctx
    rw [sc]
  refine ⟨_, congrArg Host.Outcome.next ran, ?_, ?_, ?_, ?_, fun c hc mine cores => ?_, tl.trans tl_v, mm.trans mm_v⟩
  · exact congrArg Ctx.overran ctx
  · exact (congrArg Ctx.st ctx).trans yielding
  · exact (congrArg (fun m => look (resetOf F.SCHED_INT_STATUS.OVERRUN 0) m (fieldKey F.SCHED_INT_STATUS.OVERRUN 0 0)) fields).trans shown
  · obtain ⟨e, he, what⟩ := raised
    exact ⟨e, by show e ∈ w.er.collector; rw [er, er_v]; exact he, what⟩
  · obtain ⟨d, -, is⟩ := List.mem_map.mp hc
    have same : w.coresOf = s.coresOf := by
      unfold State.coresOf
      rw [tl, tl_v]
    rw [same] at is
    split at is
    · rw [← is]
      exact bit_lor_two_pow_self d.cflags 5
    · next no =>
      subst is
      exact absurd ⟨mine, by simpa using cores⟩ no
end

/-- Settles O41: slices that end or overrun, and cores released. -/
theorem slicesAndReleases : Obligations.SlicesAndReleases := by
  unfold Obligations.SlicesAndReleases
  exact ⟨fun s n on => ⟨fun running past => ⟨sliceEnd_renews on running past, sliceEnd_short on running past,
        sliceEnd_yields on running past⟩, fun yielding first past => sliceOverrun_marks on yielding first past⟩,
    fun s core p ctx place mine on => ⟨coreRelease_frees place mine on, fun r saving => coreRelease_saves place mine on saving,
      coreRelease_leavesMark place mine on⟩⟩

end Sys2Proof.Machine
end

section
/-! SUPPORT. Uncorrected errors of HBM and of the shared cache (R305, R307, R579), and O43. -/

namespace Sys2Proof.Machine

/-! ## What a loss of data leaves of a stack -/

/-- A stack stays in or out of service, and no uncorrected read of it is counted. -/
structure UesKept (i : Fin 12) (s t : State) : Prop where
  offline : (t.stack i).offline = (s.stack i).offline
  count : t.cnt C.HBMC_CNT_UE i = s.cnt C.HBMC_CNT_UE i

namespace UesKept
variable {i : Fin 12} {s t u : State}

theorem refl (s : State) : UesKept i s s := ⟨rfl, rfl⟩

theorem trans (h : UesKept i s t) (h' : UesKept i t u) : UesKept i s u :=
  ⟨h'.offline.trans h.offline, h'.count.trans h.count⟩

theorem same (h : UesKept i s t) (hbm : u.mm.hbm = t.mm.hbm := by rfl) (cnts : u.rg.cnts = t.rg.cnts := by rfl) : UesKept i s u :=
  h.trans ⟨by unfold State.stack; rw [hbm], by unfold State.cnt; rw [cnts]⟩

theorem either {c : Prop} [Decidable c] {a b : State} (ha : UesKept i s a) (hb : UesKept i s b) : UesKept i s (if c then a else b) := by
  split
  · exact ha
  · exact hb

theorem foldl (h : UesKept i s t) {α : Type} {f : State → α → State} (step : ∀ u x, UesKept i s u → UesKept i s (f u x))
    {l : List α} : UesKept i s (l.foldl f t) := by
  induction l generalizing t with
  | nil => exact h
  | cons x r ih => exact ih (step t x h)

theorem setCnt (h : UesKept i s t) {c : Cnt} {v k b : Nat} (other : C.HBMC_CNT_UE.off % 4096 ≠ c.off % 4096) :
    UesKept i s (t.setCnt c v k b) :=
  h.trans ⟨rfl, State.cnt_setCnt_ne _ _ _ _ _ _ _ _ (cntKey_ne other _ _ _ _)⟩

theorem addCnt (h : UesKept i s t) {c : Cnt} {n k b : Nat} (other : C.HBMC_CNT_UE.off % 4096 ≠ c.off % 4096) :
    UesKept i s (t.addCnt c n k b) := h.setCnt other

theorem ue_untraced (i : Fin 12) : cntKey C.HBMC_CNT_UE i 0 ∉ traceCnts := by revert i; decide

theorem devWrite (h : UesKept i s t) {a : Nat} {d : List Byte} : UesKept i s (t.devWrite a d) := by
  refine h.trans ⟨?_, ((TraceLeft.refl t).devWrite a d).cnts _ (ue_untraced i)⟩
  have frame := t.devWrite_frame a d
  unfold State.DevWritten at frame
  unfold State.stack
  rw [frame]

theorem trace (h : UesKept i s t) {r : TraceRec} : UesKept i s (t.trace r) := by
  refine h.trans ⟨?_, ((TraceLeft.refl t).trace r).cnts _ (ue_untraced i)⟩
  have frame := t.trace_frame r
  unfold State.Traced at frame
  unfold State.stack
  rw [frame]

theorem setInt (h : UesKept i s t) {f : Field} {k : Nat} : UesKept i s (t.setInt f k) :=
  h.same (by rw [State.setInt_mm]) (by rw [State.setInt_frame]; rfl)

theorem yieldEnds (h : UesKept i s t) {ctx : Nat} : UesKept i s (t.yieldEnds ctx) :=
  either (either h.trace.same h.trace.same) h

theorem settle (h : UesKept i s t) {ctx : Nat} : UesKept i s (t.settle ctx) := by
  have moved : ∀ c : CtxSt, UesKept i s ((t.yieldEnds ctx).ctxTo ctx c) := fun _ => h.yieldEnds.same
  unfold State.settle
  dsimp only
  split
  · exact either h.yieldEnds h.yieldEnds.same
  · split
    · exact either (moved _) h.yieldEnds
    · exact either (either (moved _) (moved _)) h.yieldEnds
    · exact either h.yieldEnds (moved _)
    · exact either h.yieldEnds (moved _)
    · exact h.yieldEnds

theorem holdCmd (h : UesKept i s t) {c : Cmd} {w : Hold} : UesKept i s (t.holdCmd c w) := by
  unfold State.holdCmd
  extract_lets wh u r v
  have record : UesKept i s u := h.same
  have recorded : UesKept i s r := record.trace
  have signal : UesKept i s v := either record (either (either recorded.setInt recorded.setInt.same) recorded)
  exact signal.settle

theorem clearClusters (h : UesKept i s t) {q seq : Nat} : UesKept i s (t.clearClusters q seq) :=
  foldl h.same fun _ _ hu => either hu.same hu

theorem releaseWork (h : UesKept i s t) {q seq : Nat} : UesKept i s (t.releaseWork q seq) := by
  have freed : UesKept i s ((t.coresOf q seq).foldl State.freeCore t) := h.foldl fun _ _ hu => hu.same
  refine (freed.clearClusters (q := q) (seq := seq)).trans ⟨?_, rfl⟩
  exact look_map_proj (p := Stack.offline)
    (g := fun x => { x with reads := x.reads.filter (fun r => !(t.coresOf q seq).contains r.core) }) (fun _ => rfl) _ i

theorem setObjCount (h : UesKept i s t) {o : Obj} {n : Nat} : UesKept i s (t.setObjCount o n) := by
  rw [State.setObjCount_frame]
  exact h.same

theorem unstage (h : UesKept i s t) {os : List Obj} : UesKept i s (t.unstage os) := by
  refine h.foldl fun u o hu => ?_
  cases o with
  | page p =>
    refine devWrite ?_
    exact either (addCnt hu.same (by decide)) hu.same
  | block k => exact hu.same

theorem applyRef (h : UesKept i s t) {u : RefUpd} : UesKept i s (t.applyRef u) := by
  unfold State.applyRef
  dsimp only
  generalize (if u.add then t.objCount u.obj + u.n else t.objCount u.obj - u.n) = m
  split
  · rw [(State.hold_frame _ _ _).1]
    exact h.setObjCount.same
  · exact h.setObjCount

theorem unrelease (h : UesKept i s t) {os : List Obj} : UesKept i s (t.unrelease os) :=
  h.foldl fun _ o hu => (hu.applyRef (u := { obj := o, add := true, n := 1, tag := 0 })).same

theorem putSeq (h : UesKept i s t) {n : Nat} {q : Seq} : UesKept i s (t.putSeq n q) := devWrite h.same

theorem newImage (h : UesKept i s t) {n : Nat} {q : Seq} {im : Image} {gone : List Nat} : UesKept i s (t.newImage n q im gone) := by
  refine foldl ?_ fun _ _ hu => hu.same
  refine putSeq (devWrite ?_)
  exact setCnt (h.same) (by decide)

theorem sealTail (h : UesKept i s t) {n : Nat} : UesKept i s (t.sealTail n) := either h.newImage h

theorem endAppend (h : UesKept i s t) {c : Cmd} : UesKept i s (t.endAppend c) :=
  h.foldl fun _ _ hu => either hu.putSeq.sealTail hu

theorem discard (h : UesKept i s t) {c : Cmd} : UesKept i s (t.discard c) := by
  unfold State.discard
  extract_lets s1 s2 s3 s4 s5 client s6 s7
  have freed : UesKept i s s3 := unstage (foldl h.releaseWork fun _ _ hu => hu.setObjCount)
  have reversed : UesKept i s s5 := (unrelease (freed.foldl fun _ _ hu => hu.applyRef)).endAppend
  have counted : UesKept i s s7 := (reversed.addCnt (by decide)).setCnt (by decide)
  exact counted.same

theorem waitRederive (h : UesKept i s t) {c : Cmd} : UesKept i s (t.waitRederive c) := by
  unfold State.waitRederive
  dsimp only
  split
  · exact h.discard.holdCmd
  · exact h.discard

theorem remade (h : UesKept i s t) {v : Ver} : UesKept i s (t.remade v) := either h.same h.same

theorem loseVer (h : UesKept i s t) {hit : Nat → Nat → Bool} {v : Ver} : UesKept i s (t.loseVer hit v) :=
  either (either (h.remade.addCnt (by decide)) h.remade) h.same

theorem loseCmds (h : UesKept i s t) {hit : Nat → Nat → Bool} : UesKept i s (t.loseCmds hit) :=
  h.foldl fun _ _ hu => either hu.waitRederive (either hu.discard hu)

theorem lose (h : UesKept i s t) {hit : Nat → Nat → Bool} : UesKept i s (t.lose hit) :=
  loseCmds (h.foldl fun _ _ hu => hu.loseVer)

end UesKept

/-! ## HBM_UE -/

theorem pcOf_lt (a : Nat) : pcOf a < 64 :=
  Nat.xor_lt_two_pow (n := 6) (Nat.mod_lt _ (by decide)) (Nat.mod_lt _ (by decide))

section
variable {s : State} {i : Fin 12}

/-- The first retirement of a stack marks it, and reports it. -/
theorem State.retireMarks_marks (s : State) (i : Fin 12) {pc : Nat} (small : pc < 64) :
    let t := s.retireMarks i pc
    (t.stack i).retired = [pc] ∧ t.fld F.HBMC_STATUS.RETIRED i = 1 ∧ t.fld F.HBMC_STATUS.RETIRED_PC i = pc ∧
      t.fld F.HBMC_INT_STATUS.PC_RETIRED i = 1 ∧ Raised s t 0x2103 2 i ∧ t.tm = s.tm ∧ t.bt = s.bt ∧
      (∀ e ∈ s.er.collector, e ∈ t.er.collector) ∧ t.fld F.HBMC_FAULT.PC i = s.fld F.HBMC_FAULT.PC i ∧
      t.fld F.HBMC_FAULT.KIND i = s.fld F.HBMC_FAULT.KIND i := by
  let u := ((s.stack i).reads.filter (fun r => r.pc = pc)).foldl (fun s r => s.failRead i r) s
  have failed : u = { s with mm.poison := u.mm.poison, rg.cnts := u.rg.cnts } := by
    unfold u
    generalize (s.stack i).reads.filter (fun r => r.pc = pc) = l
    induction l generalizing s with
    | nil => rfl
    | cons r l ih =>
      rw [List.foldl_cons]
      exact Eq.trans (ih _) rfl
  let v := ((u.setStack i { s.stack i with retired := [pc], reads := (s.stack i).reads.filter (fun r => r.pc ≠ pc) }).setFld
    F.HBMC_STATUS.RETIRED 1 i).setFld F.HBMC_STATUS.RETIRED_PC pc i
  have marks : s.retireMarks i pc = (v.setInt F.HBMC_INT_STATUS.PC_RETIRED i).raise 0x2103 2 i pc := rfl
  have field : ∀ f, u.fld f i = s.fld f i := fun f => by rw [failed]; rfl
  have tm : u.tm = s.tm := by rw [failed]
  have bt : u.bt = s.bt := by rw [failed]
  have er : u.er = s.er := by rw [failed]
  have raised := (v.setInt F.HBMC_INT_STATUS.PC_RETIRED i).raise_raised 0x2103 2 i pc 0xFFFF 0xFFFF 0 0
  clear_value u
  dsimp only
  rw [marks]
  refine ⟨?_, ?_, ?_, State.fld_setInt _ _ _, ?_, ?_, ?_, fun e he => List.mem_append_left _ ?_, ?_, ?_⟩
  · rw [State.stack_raise, State.stack_setInt]
    exact congrArg Stack.retired (look_put_self _ _ _ _)
  · exact (State.fld_setInt_other _ (by decide)).trans ((State.fld_setFld_other _ (by decide)).trans (State.fld_setFld _ _ _ _ _))
  · exact (State.fld_setInt_other _ (by decide)).trans ((State.fld_setFld _ _ _ _ _).trans (Nat.mod_eq_of_lt small))
  · obtain ⟨e, he, code, sev, inst, time⟩ := raised
    refine ⟨e, he, code, sev, inst, time.trans ?_⟩
    rw [State.setInt_tm]
    exact congrArg Tm.now tm
  · exact (State.setInt_tm _ _ _).trans tm
  · exact (State.setInt_bt _ _ _).trans bt
  · rw [State.setInt_er]
    show e ∈ u.er.collector
    rw [er]
    exact he
  · refine (State.fld_setInt_other _ (by decide)).trans ?_
    refine (State.fld_setFld_other _ (by decide)).trans ((State.fld_setFld_other _ (by decide)).trans (field _))
  · refine (State.fld_setInt_other _ (by decide)).trans ?_
    refine (State.fld_setFld_other _ (by decide)).trans ((State.fld_setFld_other _ (by decide)).trans (field _))

/-- The error noted, counted and reported, its unit poisoned. -/
def State.ueNoted (s : State) (stack a : Nat) : State :=
  let dev := stack * 2 ^ 36 + a
  let pc := pcOf dev
  let u := ((s.addCnt C.HBMC_CNT_UE 1 stack).setFld F.HBMC_FAULT.PC pc stack).setFld F.HBMC_FAULT.KIND 1 stack
  let v := u.raise 0x2102 2 stack pc 0xFFFF 0xFFFF 0 (memDetail dev)
  let us := ((List.range 4).map (dev / 256 * 4 + ·)).filter (fun u => !v.mm.poison.contains u)
  ({ v with mm.poison := v.mm.poison ++ us } : State).setStack stack
    { s.stack stack with ues := (s.stack stack).ues ++ [(pc, unitIndex a, s.tm.now)] }

theorem State.ueNoted_notes (s : State) (i : Fin 12) (a : Nat) :
    let t := s.ueNoted i a
    t.fld F.HBMC_FAULT.PC i = pcOf (i * 2 ^ 36 + a) ∧ t.fld F.HBMC_FAULT.KIND i = 1 ∧ Raised s t 0x2102 2 i ∧ t.tm = s.tm ∧
      t.bt = s.bt ∧ t.stack i = { s.stack i with ues := (s.stack i).ues ++ [(pcOf (i * 2 ^ 36 + a), unitIndex a, s.tm.now)] } ∧
      t.cnt C.HBMC_CNT_UE i = (s.cnt C.HBMC_CNT_UE i + 1) % 2 ^ 64 := by
  let u := ((s.addCnt C.HBMC_CNT_UE 1 i).setFld F.HBMC_FAULT.PC (pcOf (i * 2 ^ 36 + a)) i).setFld F.HBMC_FAULT.KIND 1 i
  exact ⟨(State.fld_setFld_other _ (by decide)).trans ((State.fld_setFld (s.addCnt C.HBMC_CNT_UE 1 i) _ _ _ _).trans
      (Nat.mod_eq_of_lt (pcOf_lt _))), State.fld_setFld ((s.addCnt C.HBMC_CNT_UE 1 i).setFld F.HBMC_FAULT.PC _ i) _ _ _ _,
    u.raise_raised 0x2102 2 i _ _ _ _ _, rfl, rfl, look_put_self _ _ _ _, State.cnt_addCnt _ _ _ _ _⟩

theorem State.hbmUe_eq {a : Nat} (on : s.tm.power ≠ .off) (served : (s.stack i).offline = false) :
    s.hbmUe i a = if 2 ≤ (({ s.stack i with ues := (s.stack i).ues ++ [(pcOf (i * 2 ^ 36 + a), unitIndex a, s.tm.now)] } : Stack).recentUes
        (pcOf (i * 2 ^ 36 + a)) s.tm.now).length then (s.ueNoted i a).retire i (pcOf (i * 2 ^ 36 + a))
      else (s.ueNoted i a).lose (fun home u => home = 0 && u = (i * 2 ^ 36 + a) / 256) := by
  unfold State.hbmUe
  exact if_neg (by simp [on, served])

theorem hbmUe_errs (on : s.tm.power ≠ .off) (served : (s.stack i).offline = false) (a : BitVec 36) :
    let pc := pcOf (i * 2 ^ 36 + a.toNat)
    let y : Stack := { s.stack i with ues := (s.stack i).ues ++ [(pc, unitIndex a.toNat, s.tm.now)] }
    let again := 2 ≤ (y.recentUes pc s.tm.now).length
    ∃ t, exec (.hbmUe i a) s = .next t ∧ t.fld F.HBMC_FAULT.PC i = pc ∧ t.fld F.HBMC_FAULT.KIND i = 1 ∧
      Raised s t 0x2102 2 i ∧ t.tm = s.tm ∧ t.bt = s.bt ∧
      (¬ again → (t.stack i).retired = (s.stack i).retired ∧ (t.stack i).offline = false ∧
        t.cnt C.HBMC_CNT_UE i = (s.cnt C.HBMC_CNT_UE i + 1) % 2 ^ 64) ∧
      (again → (s.stack i).retired = [] → (t.stack i).retired = [pc] ∧ t.fld F.HBMC_STATUS.RETIRED i = 1 ∧
        t.fld F.HBMC_STATUS.RETIRED_PC i = pc ∧ t.fld F.HBMC_INT_STATUS.PC_RETIRED i = 1 ∧ Raised s t 0x2103 2 i) ∧
      (again → (s.stack i).retired ≠ [] → pc ∉ (s.stack i).retired →
        (t.stack i).offline = true ∧ t.fld F.HBMC_STATUS.OFFLINE i = 1 ∧ Raised s t 0x2104 3 i) := by
  intro pc y again
  have ran : exec (.hbmUe i a) s = .next (s.hbmUe i a.toNat) := rfl
  have split_ : s.hbmUe i a.toNat = if again then (s.ueNoted i a.toNat).retire i pc
      else (s.ueNoted i a.toNat).lose (fun home u => home = 0 && u = (i * 2 ^ 36 + a.toNat) / 256) := State.hbmUe_eq on served
  obtain ⟨place, kind, raised, tm, bt, stack, count⟩ := s.ueNoted_notes i a.toNat
  rw [split_] at ran
  generalize s.ueNoted i a.toNat = u at *
  have retired_u : (u.stack i).retired = (s.stack i).retired := by rw [stack]
  have offline_u : (u.stack i).offline = false := by rw [stack]; exact served
  have since : ∀ {t : State} {code sev : Nat}, Raised u t code sev i → Raised s t code sev i := fun ⟨e, he, c, v, n, time⟩ =>
    ⟨e, he, c, v, n, time.trans (congrArg Tm.now tm)⟩
  by_cases twice : again
  · rw [if_pos twice] at ran
    by_cases first : (s.stack i).retired = []
    · have shape := State.retire_of_none (pc := pc) (retired_u.trans first)
      obtain ⟨retired, shown, shown_pc, status, error, tm_m, bt_m, errors, place_m, kind_m⟩ :=
        u.retireMarks_marks i (pc := pc) (pcOf_lt _)
      have kept := ((StacksKept.refl (u.retireMarks i pc)).groupsLost (pcHit i pc)).lose (pcHit i pc)
      have work := ((WorkKept.refl (u.retireMarks i pc)).groupsLost (hit := pcHit i pc)).lose (hit := pcHit i pc)
      rw [← shape] at kept work
      generalize u.retireMarks i pc = m at *
      have field : ∀ f : Field, f.cls = 0x21 → f.off < 4096 → f.lo < 64 → (u.retire i pc).fld f i = m.fld f i :=
        fun f cls off lo => kept.fld f i cls off lo
      refine ⟨_, ran, (field _ rfl (by decide) (by decide)).trans (place_m.trans place),
        (field _ rfl (by decide) (by decide)).trans (kind_m.trans kind), kept.raised ?_, kept.time.trans (tm_m.trans tm),
        work.boot.trans (bt_m.trans bt), fun no => absurd twice no, fun _ _ => ⟨(kept.retired i).trans retired,
        (field _ rfl (by decide) (by decide)).trans shown, (field _ rfl (by decide) (by decide)).trans shown_pc,
        (field _ rfl (by decide) (by decide)).trans status, kept.raised (since error)⟩, fun _ no => absurd first no⟩
      obtain ⟨e, he, what⟩ := raised
      exact ⟨e, errors e he, what⟩
    · by_cases old : pc ∈ (s.stack i).retired
      · have shape : u.retire i pc = u := by
          unfold State.retire
          exact if_pos (by rw [retired_u]; simpa using old)
        rw [shape] at ran
        exact ⟨u, ran, place, kind, raised, tm, bt, fun no => absurd twice no, fun _ none => absurd none first,
          fun _ _ fresh => absurd old fresh⟩
      · have shape := State.retire_of_some (s := u) (i := i) (pc := pc) (by rw [retired_u]; exact first) (by rw [retired_u]; exact old)
        rw [shape] at ran
        have down := ((u.setStack i { u.stack i with offline := true }).setFld F.HBMC_STATUS.OFFLINE 1 i).raise_raised
          0x2104 3 i pc 0xFFFF 0xFFFF 0 0
        refine ⟨_, ran, (State.fld_setFld_other _ (by decide)).trans place, (State.fld_setFld_other _ (by decide)).trans kind, ?_,
          tm, bt, fun no => absurd twice no, fun _ none => absurd none first, fun _ _ _ => ⟨?_, State.fld_setFld _ _ _ _ _, since down⟩⟩
        · obtain ⟨e, he, what⟩ := raised
          exact ⟨e, List.mem_append_left _ he, what⟩
        · exact congrArg Stack.offline (look_put_self {} u.mm.hbm i _)
  · rw [if_neg twice] at ran
    let hit : Nat → Nat → Bool := fun home u => home = 0 && u = (i * 2 ^ 36 + a.toNat) / 256
    have kept := (StacksKept.refl u).lose hit
    have work := (WorkKept.refl u).lose (hit := hit)
    have ues := (UesKept.refl (i := i) u).lose (hit := hit)
    refine ⟨_, ran, (kept.fld _ i rfl (by decide) (by decide)).trans place, (kept.fld _ i rfl (by decide) (by decide)).trans kind,
      kept.raised raised, kept.time.trans tm, work.boot.trans bt,
      fun _ => ⟨(kept.retired i).trans retired_u, ues.offline.trans offline_u, ues.count.trans count⟩,
      fun yes => absurd yes twice, fun yes => absurd yes twice⟩
end

/-! ## CACHE_UE -/

section
variable {s : State} {p : Fin 4} {off : Fin 100663296}

/-- The error reported, its unit poisoned. -/
def State.sliceNoted (s : State) (slice off : Nat) : State :=
  let s := s.raise 0x2002 2 slice 0 0xFFFF 0xFFFF 0 (memDetail (slice * 2 ^ 27 + off))
  { s with mm.poisonShared := s.mm.poisonShared ++
      [(slice * 2 ^ 27 + off) / 64].filter (fun u => !s.mm.poisonShared.contains u) }

theorem State.sliceNoted_notes (s : State) (slice off : Nat) :
    Raised s (s.sliceNoted slice off) 0x2002 2 slice ∧ (slice * 2 ^ 27 + off) / 64 ∈ (s.sliceNoted slice off).mm.poisonShared := by
  refine ⟨s.raise_raised 0x2002 2 slice 0 0xFFFF 0xFFFF 0 _, ?_⟩
  show _ ∈ s.mm.poisonShared ++ [(slice * 2 ^ 27 + off) / 64].filter (fun u => !s.mm.poisonShared.contains u)
  by_cases there : (slice * 2 ^ 27 + off) / 64 ∈ s.mm.poisonShared
  · exact List.mem_append_left _ there
  · exact List.mem_append_right _ (List.mem_filter.mpr ⟨List.mem_singleton_self _, by
      rw [Bool.not_eq_true', List.contains_eq_mem]
      exact decide_eq_false there⟩)

/-- The unit is restored: it is poisoned no more. -/
def State.sliceRestored (s : State) (slice off : Nat) : State :=
  { s.sliceNoted slice off with
    mm.poisonShared := (s.sliceNoted slice off).mm.poisonShared.filter (· ≠ (slice * 2 ^ 27 + off) / 64) }

theorem State.sliceRestored_restores (s : State) (slice off : Nat) :
    Raised s (s.sliceRestored slice off) 0x2002 2 slice ∧ (slice * 2 ^ 27 + off) / 64 ∉ (s.sliceRestored slice off).mm.poisonShared := by
  refine ⟨s.raise_raised 0x2002 2 slice 0 0xFFFF 0xFFFF 0 _, fun there => ?_⟩
  simpa using (List.mem_filter.mp there).2

/-- The image of request w waits for a grant again. -/
def State.refetched (s : State) (w : WinReq) : State :=
  s.refetchWindow w (fun s _ => s)

theorem State.refetched_waits (s : State) (w : WinReq) :
    let v := s.refetched w
    v.er = s.er ∧ v.tm = s.tm ∧ v.tl = s.tl ∧ v.st = s.st ∧ v.mm.poisonShared = s.mm.poisonShared ∧ v.mm.dev = s.mm.dev ∧
      v.mm.window = s.mm.window.map (fun x => if x = w then { w with granted := false } else x) ∧
      ∀ c, s.cmd? w.q w.seq = some c → v.cmd? w.q w.seq = some { c with
        layers := c.layers.map (fun l => if l.ord = w.layer then { l with windowReady := false } else l) } := by
  unfold State.refetched State.refetchWindow
  dsimp only
  let u : State := { s with mm.window := s.mm.window.map (fun x => if x = w then { w with granted := false } else x) }
  split
  next c there =>
    obtain ⟨q, seq⟩ := s.cmd?_key _ _ _ there
    refine ⟨rfl, rfl, rfl, rfl, rfl, rfl, rfl, fun d hd => ?_⟩
    obtain rfl : c = d := Option.some.inj (there.symm.trans hd)
    let d : Cmd := { c with layers := c.layers.map (fun l => if l.ord = w.layer then { l with windowReady := false } else l) }
    have set := State.cmd?_setCmd u d c (by show s.cmd? c.q c.seq = some c; rw [q, seq]; exact there)
    have named : (u.setCmd d).cmd? w.q w.seq = (u.setCmd d).cmd? d.q d.seq := by
      show (u.setCmd d).cmd? w.q w.seq = (u.setCmd d).cmd? c.q c.seq
      rw [q, seq]
    exact named.trans set
  next none =>
    refine ⟨rfl, rfl, rfl, rfl, rfl, rfl, rfl, fun d hd => ?_⟩
    exact absurd (none.symm.trans hd) (by simp)

theorem State.redealReaders_held (s : State) (w : WinReq) : (s.redealReaders w).st.held = s.st.held := by
  unfold State.redealReaders
  refine (List.foldlRecOn (motive := WorkKept s) _ _ (.refl s) fun t h k _ => ?_).held
  split
  · split
    · exact h.dropReads.redeal
    · exact h
  · exact h

theorem State.redealReaders_none {s : State} {w : WinReq}
    (unread : ∀ k ∈ s.coresOf w.q w.seq, ∀ x ∈ (s.core k).place, x.layer ≠ w.layer ∨ x.item = none) : s.redealReaders w = s := by
  unfold State.redealReaders
  generalize s.coresOf w.q w.seq = ks at unread
  induction ks with
  | nil => rfl
  | cons k ks ih =>
    rw [List.foldl_cons]
    refine (congrArg (List.foldl _ · ks) ?_).trans (ih fun j hj => unread j (List.mem_cons_of_mem _ hj))
    split
    next p placed =>
      refine if_neg fun ⟨same, held⟩ => ?_
      rcases unread k List.mem_cons_self p placed with other | none
      · exact other same
      · rw [none] at held
        cases held
    · rfl

/-! What an error of the shared cache comes to, by the place of its unit. -/

variable (active : s.tm.power = .active) {slice off : Nat} {recovery : State → State} {redeal : State → WinReq → State}
include active

theorem State.cacheUe_system (system : off < s.fld F.PDIE_SYS.SIZE slice * 65536) :
    s.cacheUe slice off recovery redeal = recovery (s.sliceNoted slice off) := by
  unfold State.cacheUe
  exact (if_neg (not_not.mpr active)).trans (if_pos system)

variable (outside : ¬ off < s.fld F.PDIE_SYS.SIZE slice * 65536)
include outside

theorem State.cacheUe_plain
    (plain : ¬((s.windowQuarter slice).1 ≤ off ∧ off < (s.windowQuarter slice).1 + (s.windowQuarter slice).2)) :
    s.cacheUe slice off recovery redeal =
      (s.sliceNoted slice off).lose (fun home u => home = 1 && u = (slice * 2 ^ 27 + off) / 256) := by
  unfold State.cacheUe
  exact (if_neg (not_not.mpr active)).trans ((if_neg outside).trans (if_neg plain))

variable (quarter : (s.windowQuarter slice).1 ≤ off ∧ off < (s.windowQuarter slice).1 + (s.windowQuarter slice).2)
include quarter

theorem State.cacheUe_unused (unused : s.windowAt slice off = none) :
    s.cacheUe slice off recovery redeal = s.sliceRestored slice off := by
  have here : (s.sliceRestored slice off).windowAt slice off = none := unused
  unfold State.cacheUe
  refine (if_neg (not_not.mpr active)).trans ((if_neg outside).trans ((if_pos quarter).trans ?_))
  dsimp only
  split
  next w there => exact absurd (here.symm.trans there) (by simp)
  next => rfl

theorem State.cacheUe_image {w : WinReq} (image : s.windowAt slice off = some w) :
    s.cacheUe slice off recovery redeal = redeal ((s.sliceRestored slice off).refetched w) w := by
  have here : (s.sliceRestored slice off).windowAt slice off = some w := image
  unfold State.cacheUe
  refine (if_neg (not_not.mpr active)).trans ((if_neg outside).trans ((if_pos quarter).trans ?_))
  dsimp only
  split
  next x there =>
    obtain rfl : w = x := Option.some.inj (here.symm.trans there)
    rfl
  next none => exact absurd (here.symm.trans none) (by simp)
end

/-- With no command in hand, and no version of the log or of a reader over the bytes, nothing is lost. -/
theorem State.lose_nothing {s : State} {hit : Nat → Nat → Bool} (idle : s.cq.cmds = [])
    (clear : ∀ v ∈ s.loggedVers ++ s.readVers, rangeHit hit v.range = false) : s.lose hit = s := by
  have none : (s.loggedVers ++ s.readVers).filter (fun v => rangeHit hit v.range && !s.isTraj v.desc) = [] :=
    List.filter_eq_nil_iff.mpr fun v hv => by simp [clear v hv]
  unfold State.lose
  rw [none]
  show s.loseCmds hit = s
  unfold State.loseCmds
  rw [idle]
  rfl

theorem cacheUe_errs {s : State} (p : Fin 4) (off : Fin 100663296) (active : s.tm.power = .active) (quiet : s.rs.run = none)
    (free : s.st.held = []) :
    (s.fld F.PDIE_SYS.SIZE p * 65536 ≤ off →
       let u := (p * 2 ^ 27 + off.val) / 64
       let quarter := (s.windowQuarter p).1 ≤ off ∧ off < (s.windowQuarter p).1 + (s.windowQuarter p).2
       (¬ quarter → ∃ t, exec (.cacheUe p off) s = .next t ∧ Raised s t 0x2002 2 p ∧ t.tm = s.tm ∧
         (s.cq.cmds = [] → (∀ v ∈ s.loggedVers ++ s.readVers, rangeHit (fun home x => home = 1 && x = u / 4) v.range = false) →
           u ∈ t.mm.poisonShared ∧ t.mm.dev = s.mm.dev ∧ t.mm.shared = s.mm.shared ∧ SameWork s t)) ∧
       (quarter → s.windowAt p off = none → ∃ t, exec (.cacheUe p off) s = .next t ∧ Raised s t 0x2002 2 p ∧
         u ∉ t.mm.poisonShared ∧ t.mm.window = s.mm.window ∧ t.mm.dev = s.mm.dev ∧ t.tm = s.tm ∧ SameWork s t) ∧
       (∀ w, quarter → s.windowAt p off = some w →
         ∃ v : State, exec (.cacheUe p off) s = .next (v.redealReaders w) ∧ Raised s v 0x2002 2 p ∧
           u ∉ v.mm.poisonShared ∧ v.mm.dev = s.mm.dev ∧ v.tl = s.tl ∧ v.tm = s.tm ∧
           v.mm.window = s.mm.window.map (fun x => if x = w then { w with granted := false } else x) ∧
           (∀ c, s.cmd? w.q w.seq = some c → v.cmd? w.q w.seq = some { c with
             layers := c.layers.map (fun l => if l.ord = w.layer then { l with windowReady := false } else l) }) ∧
           ((∀ k ∈ s.coresOf w.q w.seq, ∀ x ∈ (s.core k).place, x.layer ≠ w.layer ∨ x.item = none) →
             v.redealReaders w = v))) ∧
     (off < s.fld F.PDIE_SYS.SIZE p * 65536 →
       ∃ t, exec (.cacheUe p off) s = .next t ∧ t.tm.power = .resetting ∧ t.fld F.RST_CAUSE.CAUSE = 3 ∧
         (∃ x, t.rs.run = some x ∧ x.recovery = true)) := by
  have ran : exec (.cacheUe p off) s =
      .next (s.cacheUe p off (fun s => s.resetRequest true 3) State.redealReaders).drain := rfl
  refine ⟨fun outside => ⟨fun plain => ?_, fun quarter unused => ?_, fun w quarter image => ?_⟩, fun system => ?_⟩
  · rw [State.cacheUe_plain active (by omega) plain] at ran
    obtain ⟨raised, poisoned⟩ := s.sliceNoted_notes p off
    have held : (s.sliceNoted p off).st.held = [] := free
    have tm : (s.sliceNoted p off).tm = s.tm := rfl
    have rest : (s.sliceNoted p off).mm.dev = s.mm.dev ∧ (s.sliceNoted p off).mm.shared = s.mm.shared ∧
        SameWork s (s.sliceNoted p off) := ⟨rfl, rfl, rfl, rfl, rfl, rfl, rfl⟩
    have idle_n : s.cq.cmds = [] → (s.sliceNoted p off).cq.cmds = [] := fun idle => idle
    have vers : (s.sliceNoted p off).loggedVers ++ (s.sliceNoted p off).readVers = s.loggedVers ++ s.readVers := rfl
    generalize s.sliceNoted p off = n at *
    let hit : Nat → Nat → Bool := fun home u => home = 1 && u = (p * 2 ^ 27 + off) / 256
    have kept := (StacksKept.refl n).lose hit
    rw [State.drain_of_none (((WorkKept.refl n).lose (hit := hit)).held.trans held)] at ran
    refine ⟨_, ran, kept.raised raised, kept.time.trans tm, fun idle clear => ?_⟩
    have nothing : n.lose hit = n := by
      refine State.lose_nothing (idle_n idle) fun v hv => ?_
      rw [vers] at hv
      have same : hit = fun home x => decide (home = 1) && decide (x = (p * 2 ^ 27 + off.val) / 64 / 4) := by
        simp only [hit, Nat.div_div_eq_div_mul]
      rw [same]
      exact clear v hv
    exact nothing.symm ▸ ⟨poisoned, rest⟩
  · rw [State.cacheUe_unused active (by omega) quarter unused] at ran
    obtain ⟨raised, restored⟩ := s.sliceRestored_restores p off
    rw [State.drain_of_none (show (s.sliceRestored p off).st.held = [] from free)] at ran
    exact ⟨_, ran, raised, restored, rfl, rfl, rfl, rfl, rfl, rfl, rfl, rfl⟩
  · rw [State.cacheUe_image active (by omega) quarter image] at ran
    obtain ⟨raised, restored⟩ := s.sliceRestored_restores p off
    have held_r : (s.sliceRestored p off).st.held = [] := free
    have dev_r : (s.sliceRestored p off).mm.dev = s.mm.dev := rfl
    have tl_r : (s.sliceRestored p off).tl = s.tl := rfl
    have tm_r : (s.sliceRestored p off).tm = s.tm := rfl
    have window_r : (s.sliceRestored p off).mm.window = s.mm.window := rfl
    have cmd_r : (s.sliceRestored p off).cmd? = s.cmd? := rfl
    generalize s.sliceRestored p off = r at *
    obtain ⟨er, tm, tl, st, poison, dev, window, layer⟩ := r.refetched_waits w
    generalize r.refetched w = v at *
    rw [State.drain_of_none ((v.redealReaders_held w).trans ((congrArg (·.held) st).trans held_r))] at ran
    refine ⟨v, ran, ?_, poison ▸ restored, dev.trans dev_r, tl.trans tl_r, tm.trans tm_r, window.trans (by rw [window_r]),
      fun c hc => layer c (by rw [cmd_r]; exact hc), fun unread => State.redealReaders_none ?_⟩
    · obtain ⟨e, he, what⟩ := raised
      exact ⟨e, er ▸ he, what⟩
    · have cores : v.coresOf = s.coresOf := by
        unfold State.coresOf
        rw [tl, tl_r]
      have core : v.core = s.core := by
        unfold State.core
        rw [tl, tl_r]
      rw [cores, core]
      exact unread
  · rw [State.cacheUe_system active system] at ran
    have idle : (s.sliceNoted p off).rs.run = none := quiet
    have on : (s.sliceNoted p off).tm.power = .active := active
    have held : (s.sliceNoted p off).st.held = [] := free
    generalize s.sliceNoted p off = n at *
    have request : n.resetRequest true 3 = n.resetStart true 3 := by
      unfold State.resetRequest
      rw [idle]
      exact if_pos on
    obtain ⟨power, ⟨x, run, recovery, -⟩, -, cause, -, -, -, -, -, held_t, -⟩ := n.resetStart_begins (recovery := true) (cause := 3) (by decide)
    rw [request, State.drain_of_none (held_t.trans held)] at ran
    exact ⟨_, ran, power, cause, x, run, recovery⟩

/-- Settles O43: `State.retireMarks` and `State.lose` keep what an HBM error shows, and an error of the shared cache is
told by the place of its unit. -/
theorem memoryErrors : Obligations.MemoryErrors :=
  ⟨fun _ _ a on served => hbmUe_errs on served a, fun _ p off active quiet free => cacheUe_errs p off active quiet free⟩

end Sys2Proof.Machine
end

section
/-! SUPPORT. Jobs claimed and items completed (R241, R262, R266 to R271), and O38. -/

namespace Sys2Proof.Machine

variable {s t : State} {cl n core : Nat}

theorem SeqLayer.is_key {l : SeqLayer} {q seq layer : Nat} (h : l.is q seq layer = true) : l.q = q ∧ l.seq = seq ∧ l.layer = layer := by
  simpa [SeqLayer.is, and_assoc] using h

theorem SeqLayer.is_self (l : SeqLayer) : l.is l.q l.seq l.layer = true := by
  simp [SeqLayer.is]

/-- The layer put in the place of one with its key is the one found under that key. -/
theorem find_replaced {ls : List SeqLayer} {l m : SeqLayer} (there : m ∈ ls) (q : m.q = l.q) (seq : m.seq = l.seq)
    (layer : m.layer = l.layer) :
    (ls.map (fun m => if m.is l.q l.seq l.layer then l else m)).find? (fun m => m.is l.q l.seq l.layer) = some l := by
  induction ls with
  | nil => cases there
  | cons x xs ih =>
    by_cases here : x.is l.q l.seq l.layer = true
    · rw [List.map_cons, if_pos here]
      exact List.find?_cons_of_pos (p := fun m : SeqLayer => m.is l.q l.seq l.layer) l.is_self
    · rw [List.map_cons, if_neg here]
      refine (List.find?_cons_of_neg (p := fun m : SeqLayer => m.is l.q l.seq l.layer) here).trans (ih ((List.mem_cons.mp there).resolve_left fun same => here ?_))
      rw [← same, ← q, ← seq, ← layer]
      exact m.is_self

theorem State.seqLayer_putSeqLayer {l m : SeqLayer} (there : m ∈ (s.cluster cl).layers) (q : m.q = l.q) (seq : m.seq = l.seq)
    (layer : m.layer = l.layer) : (s.putSeqLayer cl l).seqLayer? cl l.q l.seq l.layer = some l := by
  unfold State.seqLayer? State.putSeqLayer
  rw [State.cluster_setCluster]
  exact find_replaced there q seq layer

/-! ## CLAIM -/

/-- A layer that is not dispatched does not go on. -/
theorem State.goOnHere_waits {q seq layer : Nat} {l : SeqLayer} (there : s.seqLayer? cl q seq layer = some l)
    (waits : l.dispatched = false) : s.goOnHere cl q seq layer = s := by
  unfold State.goOnHere State.goOn
  split
  next sl c found _ =>
    obtain rfl : l = sl := Option.some.inj (there.symm.trans found)
    split
    · rfl
    · exact if_pos (Or.inl (by rw [waits]; rfl))
  · rfl

/-- The state with job j claimed for layer l, before the layer goes on. -/
def State.jobGot (s : State) (cl : Nat) (l : SeqLayer) (j : Job) (reclaimed : Bool) : State :=
  let s := s.putSeqLayer cl { l with ahead := l.ahead ++ [j] }
  let s := s.addCnt C.SEQ_CNT_JOBS 1 cl
  let s := if reclaimed then s.addCnt C.SEQ_CNT_RECLAIMED 1 cl else s
  let ctx := match s.cmd? l.q l.seq with | some c => c.ctx | none => 0xFFFF
  s.trace
    { type := 5, source := cl, ctx := ctx, q := l.q, seq := l.seq, arg0 := j.job
      arg1 := j.gen + l.counter * 256 + cl * 2 ^ 18 }

theorem State.gotJob_eq (s : State) (cl : Nat) (l : SeqLayer) (j : Job) (reclaimed : Bool) :
    s.gotJob cl l j reclaimed = (s.jobGot cl l j reclaimed).goOnHere cl l.q l.seq l.layer := rfl

theorem State.jobGot_gets {l : SeqLayer} {j : Job} {reclaimed : Bool} (there : l ∈ (s.cluster cl).layers) :
    let u := s.jobGot cl l j reclaimed
    u.seqLayer? cl l.q l.seq l.layer = some { l with ahead := l.ahead ++ [j] } ∧ u.tl.counters = s.tl.counters ∧
      u.tl.fences = s.tl.fences ∧ u.tl.traffic = s.tl.traffic ∧ u.tl.cores = s.tl.cores ∧ u.cq = s.cq ∧ u.tm = s.tm := by
  unfold State.jobGot
  extract_lets a b c ctx
  have kept : c.tl = a.tl ∧ c.cq = a.cq ∧ c.tm = a.tm := by
    cases reclaimed <;> exact ⟨rfl, rfl, rfl⟩
  obtain ⟨tl, cq, tm⟩ := kept
  unfold State.seqLayer? State.cluster
  rw [State.trace_tl, State.trace_cq, State.trace_tm, tl, cq, tm]
  exact ⟨State.seqLayer_putSeqLayer (l := { l with ahead := l.ahead ++ [j] }) there rfl rfl rfl, rfl, rfl, rfl, rfl, rfl, rfl⟩

/-- A record of the trace leaves every counter of another class than its own. -/
theorem State.trace_cnt_class (s : State) (r : TraceRec) {c : Cnt} {i : Nat} (apart : ∀ k ∈ traceCnts, k / 2 ^ 32 ≠ c.cls)
    (small : i < 256) (off : c.off < 4096) : (s.trace r).cnt c i = s.cnt c i :=
  ((TraceLeft.refl s).trace r).cnts _ fun listed => apart _ listed (by unfold cntKey; omega)

theorem State.jobGot_counts (s : State) (cl : Fin 256) (l : SeqLayer) (j : Job) (reclaimed : Bool) :
    (s.jobGot cl l j reclaimed).cnt C.SEQ_CNT_JOBS cl = (s.cnt C.SEQ_CNT_JOBS cl + 1) % 2 ^ 64 ∧
      (reclaimed = true → (s.jobGot cl l j reclaimed).cnt C.SEQ_CNT_RECLAIMED cl = (s.cnt C.SEQ_CNT_RECLAIMED cl + 1) % 2 ^ 64) := by
  unfold State.jobGot
  extract_lets a b c ctx
  rw [State.trace_cnt_class _ _ (by decide) cl.isLt (by decide), State.trace_cnt_class _ _ (by decide) cl.isLt (by decide)]
  have jobs : b.cnt C.SEQ_CNT_JOBS cl = (s.cnt C.SEQ_CNT_JOBS cl + 1) % 2 ^ 64 := State.cnt_addCnt _ _ _ _ _
  have apart : b.cnt C.SEQ_CNT_RECLAIMED cl = s.cnt C.SEQ_CNT_RECLAIMED cl :=
    State.cnt_addCnt_ne _ _ _ _ _ _ _ _ (cntKey_ne (by decide) _ _ _ _)
  cases reclaimed with
  | false => exact ⟨jobs, fun no => nomatch no⟩
  | true =>
    refine ⟨(State.cnt_addCnt_ne _ _ _ _ _ _ _ _ (cntKey_ne (by decide) _ _ _ _)).trans jobs, fun _ => ?_⟩
    exact (State.cnt_addCnt _ _ _ _ _).trans (by rw [apart])

/-! The three ends of a claim. -/

section
variable {l : SeqLayer} (on : s.runs cl = true)
  (claims : (s.cluster cl).layers.find? (fun l => l.counter == n && s.mayClaim cl l) = some l)
include on claims

theorem State.claim_reclaims {f : Fence} (fence : s.tl.fences.find? (fun f => f.counter == n && f.reclaim) = some f) :
    s.claim cl n = ((({ s with tl.fences := claimFence f s.tl.fences } : State).setCounter n
      { s.counter n with rq := (s.counter n).rq - 1 }).jobGot cl l { job := f.job, mask := f.mask, gen := f.gen } true).goOnHere
        cl l.q l.seq l.layer := by
  unfold State.claim
  refine (if_pos on).trans ?_
  rw [claims]
  dsimp only
  rw [fence]
  exact State.gotJob_eq _ _ _ _ _

variable (none : s.tl.fences.find? (fun f => f.counter == n && f.reclaim) = none)
include none

theorem State.claim_takes (more : (s.counter n).next < (s.counter n).limit) :
    s.claim cl n = ((s.setCounter n { s.counter n with next := (s.counter n).next + 1 }).jobGot cl l
      { job := (s.counter n).next, mask := 2 ^ ((s.counter n).items + 1) - 1, gen := 0 } false).goOnHere cl l.q l.seq l.layer := by
  unfold State.claim
  refine (if_pos on).trans ?_
  rw [claims]
  dsimp only
  rw [none]
  exact (if_pos more).trans (State.gotJob_eq _ _ _ _ _)

theorem State.claim_exhausts (end_ : (s.counter n).limit ≤ (s.counter n).next) :
    s.claim cl n = (s.putSeqLayer cl { l with exhausted := true }).goOnHere cl l.q l.seq l.layer := by
  unfold State.claim
  refine (if_pos on).trans ?_
  rw [claims]
  dsimp only
  rw [none]
  exact if_neg (Nat.not_lt.mpr end_)
end

theorem claim_claims (cl : Fin 256) (n : Fin 1024) (l : SeqLayer) (runs : s.runs cl = true)
    (claims : (s.cluster cl).layers.find? (fun l => l.counter == n.val && s.mayClaim cl l) = some l) :
    let x := s.counter n
    let on (u : State) : State := u.goOnHere cl l.q l.seq l.layer
    let same (u : State) : Prop := (∀ k, u.core k = s.core k) ∧ u.tl.traffic = s.tl.traffic ∧ u.cq = s.cq ∧ u.tm = s.tm ∧
      (l.dispatched = false → on u = u)
    (∀ f, s.tl.fences.find? (fun f => f.counter == n.val && f.reclaim) = some f →
      ∃ u : State, exec (.claim cl n) s = .next (on u) ∧ u.counter n = { x with rq := x.rq - 1 } ∧
        u.seqLayer? cl l.q l.seq l.layer = some { l with ahead := l.ahead ++ [{ job := f.job, mask := f.mask, gen := f.gen }] } ∧
        u.tl.fences = claimFence f s.tl.fences ∧
        u.cnt C.SEQ_CNT_RECLAIMED cl = (s.cnt C.SEQ_CNT_RECLAIMED cl + 1) % 2 ^ 64 ∧ same u) ∧
    (s.tl.fences.find? (fun f => f.counter == n.val && f.reclaim) = none → x.next < x.limit →
      ∃ u : State, exec (.claim cl n) s = .next (on u) ∧ u.counter n = { x with next := x.next + 1 } ∧
        (∀ m, m ≠ n.val → u.counter m = s.counter m) ∧
        u.seqLayer? cl l.q l.seq l.layer =
          some { l with ahead := l.ahead ++ [{ job := x.next, mask := 2 ^ (x.items + 1) - 1, gen := 0 }] } ∧
        u.cnt C.SEQ_CNT_JOBS cl = (s.cnt C.SEQ_CNT_JOBS cl + 1) % 2 ^ 64 ∧ u.tl.fences = s.tl.fences ∧ same u) ∧
    (s.tl.fences.find? (fun f => f.counter == n.val && f.reclaim) = none → x.limit ≤ x.next →
      ∃ u : State, exec (.claim cl n) s = .next (on u) ∧ u.tl.counters = s.tl.counters ∧
        u.seqLayer? cl l.q l.seq l.layer = some { l with exhausted := true } ∧ u.tl.fences = s.tl.fences ∧ same u) := by
  intro x on same
  have there : l ∈ (s.cluster cl).layers := List.mem_of_find?_eq_some claims
  have ran : exec (.claim cl n) s = .next (s.claim cl n) := rfl
  have still : ∀ {u : State} {m : SeqLayer}, u.seqLayer? cl l.q l.seq l.layer = some m → m.dispatched = l.dispatched →
      u.tl.cores = s.tl.cores → u.tl.traffic = s.tl.traffic → u.cq = s.cq → u.tm = s.tm → same u :=
    fun layer dispatched cores traffic cq tm => ⟨fun k => by unfold State.core; rw [cores], traffic, cq, tm, fun waits =>
      State.goOnHere_waits layer (dispatched.trans waits)⟩
  have counter : ∀ {u v : State} (m : Nat), u.tl.counters = v.tl.counters → u.counter m = v.counter m := fun m same => by
    unfold State.counter
    rw [same]
  refine ⟨fun f fence => ?_, fun none more => ?_, fun none end_ => ?_⟩
  · rw [State.claim_reclaims runs claims fence] at ran
    let v := ({ s with tl.fences := claimFence f s.tl.fences } : State).setCounter n { x with rq := x.rq - 1 }
    obtain ⟨layer, counters, fences, traffic, cores, cq, tm⟩ :=
      State.jobGot_gets (s := v) (cl := cl) (j := { job := f.job, mask := f.mask, gen := f.gen }) (reclaimed := true) there
    exact ⟨_, ran, (counter n counters).trans (State.counter_setCounter _ _ _), layer, fences,
      (v.jobGot_counts _ _ _ _).2 rfl, still layer rfl cores traffic cq tm⟩
  · rw [State.claim_takes runs claims none more] at ran
    let v := s.setCounter n { x with next := x.next + 1 }
    obtain ⟨layer, counters, fences, traffic, cores, cq, tm⟩ := State.jobGot_gets (s := v) (cl := cl)
      (j := { job := x.next, mask := 2 ^ (x.items + 1) - 1, gen := 0 }) (reclaimed := false) there
    exact ⟨_, ran, (counter n counters).trans (State.counter_setCounter _ _ _),
      fun m other => (counter m counters).trans (State.counter_setCounter_ne _ _ _ _ other), layer,
      (v.jobGot_counts _ _ _ _).1, fences, still layer rfl cores traffic cq tm⟩
  · rw [State.claim_exhausts runs claims none end_] at ran
    have layer : (s.putSeqLayer cl { l with exhausted := true }).seqLayer? cl l.q l.seq l.layer = some { l with exhausted := true } :=
      State.seqLayer_putSeqLayer (l := { l with exhausted := true }) there rfl rfl rfl
    exact ⟨_, ran, rfl, layer, rfl, still layer rfl rfl rfl rfl rfl⟩

/-! ## ITEM_COMPLETE -/

/-- The words issued to a core go behind those it holds. -/
theorem State.issueWords_holds (s : State) (core : Nat) (ws : List QWord) :
    let k := (s.issueWords core ws).core core
    k.queue ++ k.issue = (s.core core).queue ++ (s.core core).issue ++ ws ∧ k.place = (s.core core).place := by
  have shape : (s.issueWords core ws).core core =
      ({ s.core core with issue := (s.core core).issue ++ ws } : Core).refill (s.core core).queue := State.core_setCore _ _ _
  rw [shape]
  unfold Core.refill
  exact ⟨by simp, rfl⟩

/-- Item k of the layer's job is done. -/
def State.jobMarked (s : State) (cl : Nat) (sl : SeqLayer) (k : Nat) : State :=
  match sl.job with
  | some j => s.putSeqLayer cl { sl with job := some { j with done := Nat.lor j.done (2 ^ k) } }
  | none => s

theorem State.jobMarked_keeps (s : State) (cl : Nat) (sl : SeqLayer) (k : Nat) :
    let t := s.jobMarked cl sl k
    t.tl.traffic = s.tl.traffic ∧ t.tl.counters = s.tl.counters ∧ t.tl.cores = s.tl.cores ∧ t.tm = s.tm ∧ t.cq = s.cq := by
  unfold State.jobMarked
  split <;> exact ⟨rfl, rfl, rfl, rfl, rfl⟩

theorem State.jobMarked_marks {sl : SeqLayer} {j : Job} {k q seq layer : Nat} (job : sl.job = some j)
    (there : s.seqLayer? cl q seq layer = some sl) :
    (s.jobMarked cl sl k).seqLayer? cl q seq layer = some { sl with job := some { j with done := Nat.lor j.done (2 ^ k) } } := by
  obtain ⟨rfl, rfl, rfl⟩ := SeqLayer.is_key (List.find?_some (p := fun l : SeqLayer => l.is q seq layer) there)
  have marked : s.jobMarked cl sl k = s.putSeqLayer cl { sl with job := some { j with done := Nat.lor j.done (2 ^ k) } } := by
    unfold State.jobMarked
    rw [job]
  rw [marked]
  exact State.seqLayer_putSeqLayer (l := { sl with job := some { j with done := Nat.lor j.done (2 ^ k) } })
    (List.mem_of_find?_eq_some there) rfl rfl rfl

/-- The state with item r left the core, before its layer goes on. -/
def State.itemLeft (s : State) (r : ItemRun) (pl : Place) (sl : SeqLayer) (core : Nat) : State :=
  let cl := core / 40
  let k := r.item % Nat.max 1 r.p.jobItems
  let t : Traffic :=
    { q := pl.q, seq := pl.seq, cl := cl, counter := pl.counter, job := pl.job, item := k, gen := pl.gen }
  let s : State := { s with tl.traffic := s.tl.traffic ++ [t] }
  let s := s.trace { type := 6, source := cl, ctx := r.c.ctx, q := r.c.q, seq := r.c.seq, arg0 := r.item, arg1 := core }
  let s := s.jobMarked cl sl k
  let last := !(sl.deal.any (fun d => d.2 = sl.cores.findIdx? (· == core) || d.2.isNone))
  let s := s.setCore core { s.core core with place := some { pl with item := none, due := [], outs := [] } }
  if r.p.markAfter pl.job last then s.issueWords core [r.p.yieldWord] else s

theorem State.itemLeaves_eq (s : State) (r : ItemRun) (pl : Place) (sl : SeqLayer) (core : Nat) :
    s.itemLeaves r pl sl core = (s.itemLeft r pl sl core).goOnHere (core / 40) pl.q pl.seq pl.layer := rfl

theorem State.itemLeft_leaves (v : State) (r : ItemRun) (pl : Place) (sl : SeqLayer) (core : Nat) :
    let k := r.item % Nat.max 1 r.p.jobItems
    let last := sl.deal.any (fun d => d.2 = sl.cores.findIdx? (· == core) || d.2.isNone) = false
    let u := v.itemLeft r pl sl core
    u.tl.traffic = v.tl.traffic ++ [⟨pl.q, pl.seq, core / 40, pl.counter, pl.job, k, pl.gen, none⟩] ∧
      u.tl.counters = v.tl.counters ∧ u.tm = v.tm ∧ u.cq = v.cq ∧
      (r.p.markAfter pl.job (decide last) = false →
        u.core core = { v.core core with place := some { pl with item := none, due := [], outs := [] } }) ∧
      (r.p.markAfter pl.job (decide last) = true →
        (u.core core).place = some { pl with item := none, due := [], outs := [] } ∧
        (u.core core).queue ++ (u.core core).issue = (v.core core).queue ++ (v.core core).issue ++ [r.p.yieldWord]) ∧
      (∀ j, sl.job = some j → v.seqLayer? (core / 40) pl.q pl.seq pl.layer = some sl →
        u.seqLayer? (core / 40) pl.q pl.seq pl.layer = some { sl with job := some { j with done := Nat.lor j.done (2 ^ k) } }) := by
  intro k last
  unfold State.itemLeft
  extract_lets cl t tl a b c last' kept d u
  have same : last' = decide last := by
    simp only [last', last, Bool.decide_eq_false]
  have tl_b : b.tl = a.tl := State.trace_tl _ _
  have tm_b : b.tm = v.tm := State.trace_tm _ _
  have cq_b : b.cq = v.cq := State.trace_cq _ _
  clear_value b
  obtain ⟨traffic_c, counters_c, cores_c, tm_c, cq_c⟩ : c.tl.traffic = b.tl.traffic ∧ c.tl.counters = b.tl.counters ∧
      c.tl.cores = b.tl.cores ∧ c.tm = b.tm ∧ c.cq = b.cq := b.jobMarked_keeps cl sl k
  have layer_c : ∀ j, sl.job = some j → v.seqLayer? cl pl.q pl.seq pl.layer = some sl →
      c.seqLayer? cl pl.q pl.seq pl.layer = some { sl with job := some { j with done := Nat.lor j.done (2 ^ k) } } :=
    fun j job there => State.jobMarked_marks job (by
      unfold State.seqLayer? State.cluster
      rw [tl_b]
      exact there)
  have core_c : c.core core = v.core core := by
    show look {} c.tl.cores core = look {} a.tl.cores core
    rw [cores_c, tl_b]
  rw [tl_b] at traffic_c counters_c cores_c
  rw [tm_b] at tm_c
  rw [cq_b] at cq_c
  clear_value c
  have core_d : d.core core = { v.core core with place := some { pl with item := none, due := [], outs := [] } } :=
    (State.core_setCore _ _ _).trans (by rw [show kept = v.core core from core_c])
  have issued := d.issueWords_holds core [r.p.yieldWord]
  rw [core_d] at issued
  by_cases mark : r.p.markAfter pl.job last' = true
  · have shape : u = d.issueWords core [r.p.yieldWord] := if_pos mark
    rw [shape, ← same]
    exact ⟨traffic_c, counters_c, tm_c, cq_c, fun no => absurd (mark.symm.trans no) (by simp), fun _ => ⟨issued.2, issued.1⟩, layer_c⟩
  · have shape : u = d := if_neg mark
    rw [shape, ← same]
    exact ⟨traffic_c, counters_c, tm_c, cq_c, fun _ => core_d, fun yes => absurd yes mark, layer_c⟩

theorem State.itemComplete_completes {pl : Place} {r : ItemRun} {sl : SeqLayer} (placed : (s.core core).place = some pl)
    (run : s.itemRun core = some r) (layer : s.seqLayer? (core / 40) pl.q pl.seq pl.layer = some sl)
    (done : s.itemDone core r.item = true)
    (here : ∀ x ∈ s.boxReads r core, s.homePoisoned x.1 x.2 16 = false ∧ s.homeReadable x.1 x.2 16 = true) :
    s.itemComplete core = ((s.finishItem r core).putKvs r.c r.l r.p core r.item).itemLeaves r pl sl core := by
  have clean : ¬ (s.boxReads r core).any (fun x => s.homePoisoned x.1 x.2 16) = true := fun bad => by
    obtain ⟨x, hx, lost⟩ := List.any_eq_true.mp bad
    rw [(here x hx).1] at lost
    cases lost
  have readable : ¬ (s.boxReads r core).any (fun x => !s.homeReadable x.1 x.2 16) = true := fun bad => by
    obtain ⟨x, hx, held⟩ := List.any_eq_true.mp bad
    rw [(here x hx).2] at held
    cases held
  unfold State.itemComplete
  rw [run, placed]
  dsimp only
  rw [layer]
  exact (if_neg (by simp [done])).trans ((if_neg clean).trans (if_neg readable))

/-- Settles O38: a claim by `State.jobGot`, an item's end by `State.itemLeft`. -/
theorem claimsAndItems : Obligations.ClaimsAndItems :=
  ⟨fun _ cl n l runs claims => claim_claims cl n l runs claims, fun _ core pl r sl placed run layer done readable =>
    ⟨_, congrArg Host.Outcome.next ((State.itemComplete_completes placed run layer done readable).trans (State.itemLeaves_eq _ _ _ _ _)),
      State.itemLeft_leaves _ r pl sl core⟩⟩

end Sys2Proof.Machine
end

section
/-! SUPPORT. The start of a command (R383 to R385, R395), the weight window's grants (R320 to R323), a reduction's end
(R327, R328), and O50. -/

namespace Sys2Proof.Machine

variable {s t : State} {c d : Cmd}

/-! ## Device writes with no line of the host -/

theorem wrBytes_append (m : Mem) (a : Nat) (l r : List Byte) : wrBytes m a (l ++ r) = wrBytes (wrBytes m a l) (a + l.length) r := by
  induction l generalizing m a with
  | nil => rfl
  | cons x l ih =>
    rw [List.cons_append, wrBytes, wrBytes, ih, List.length_cons, Nat.add_assoc, Nat.add_comm 1]

/-- No line is held by the host or recalled. -/
def State.Unheld (s : State) : Prop := s.hl.filter = [] ∧ s.hl.recalls = []

theorem State.devWriteLine_puts (unheld : s.Unheld) (a : Nat) (l : List Byte) : s.devWriteLine a l = s.devPut a l := by
  obtain ⟨none, quiet⟩ := unheld
  unfold State.devWriteLine
  refine if_neg ?_
  rw [State.held?, none, quiet]
  simp

/-- The first bytes of l, and those that follow them within its next line. -/
theorem take_append_line (l : List Byte) {i j : Nat} (h : i ≤ j) (fits : i ≤ l.length) :
    l.take i ++ (l.drop i).take (min l.length j - i) = l.take j := by
  have whole : l.take j = l.take (min l.length j) := by
    rw [Nat.min_comm, ← List.take_take, List.take_length]
  have cut : min l.length j = i + (min l.length j - i) := by omega
  rw [whole]
  conv_rhs => rw [cut, List.take_add]

theorem State.devWrite_writes (unheld : s.Unheld) (a : Nat) (l : List Byte) :
    (s.devWrite a l).mm.dev = wrBytes s.mm.dev a l ∧ (s.devWrite a l).Unheld := by
  have lines : ∀ j, j ≤ ceilDiv (a % 64 + l.length) 64 →
      let t := ((List.range j).map (fun i => a / 64 + i)).foldl (fun s u =>
        let lo := if u * 64 < a then a else u * 64
        let hi := if u * 64 + 64 < a + l.length then u * 64 + 64 else a + l.length
        s.devWriteLine lo ((l.drop (lo - a)).take (hi - lo))) s
      t.mm.dev = wrBytes s.mm.dev a (l.take ((a / 64 + j) * 64 - a)) ∧ t.Unheld := by
    intro j
    induction j with
    | zero =>
      intro _
      have none : (a / 64 + 0) * 64 - a = 0 := by omega
      rw [none]
      exact ⟨rfl, unheld⟩
    | succ j ih =>
      intro within
      obtain ⟨dev, free⟩ := ih (by omega)
      dsimp only at dev free ⊢
      rw [List.range_succ, List.map_append, List.foldl_append, List.map_cons, List.map_nil, List.foldl_cons, List.foldl_nil]
      generalize ((List.range j).map (fun i => a / 64 + i)).foldl _ s = t at dev free ⊢
      have low : (if (a / 64 + j) * 64 < a then a else (a / 64 + j) * 64) = a + ((a / 64 + j) * 64 - a) := by
        split <;> omega
      have first : (a / 64 + j) * 64 - a ≤ l.length := by
        unfold ceilDiv at within
        omega
      have high : (if (a / 64 + j) * 64 + 64 < a + l.length then (a / 64 + j) * 64 + 64 else a + l.length) -
          (a + ((a / 64 + j) * 64 - a)) = min l.length ((a / 64 + (j + 1)) * 64 - a) - ((a / 64 + j) * 64 - a) := by
        split <;> omega
      rw [low, high, Nat.add_sub_cancel_left, State.devWriteLine_puts free]
      refine ⟨?_, free⟩
      show wrBytes t.mm.dev _ _ = _
      have length : (l.take ((a / 64 + j) * 64 - a)).length = (a / 64 + j) * 64 - a := by
        rw [List.length_take]
        omega
      rw [dev, ← take_append_line l (i := (a / 64 + j) * 64 - a) (j := (a / 64 + (j + 1)) * 64 - a) (by omega) first,
        wrBytes_append, length]
  have all := lines _ (Nat.le_refl _)
  have whole : l.take ((a / 64 + ceilDiv (a % 64 + l.length) 64) * 64 - a) = l :=
    List.take_of_length_le (by unfold ceilDiv; omega)
  dsimp only at all
  rw [whole] at all
  exact all

/-! ## What settling a context leaves -/

/-- Only the schedule of contexts has moved. -/
def OnlySchedule (s t : State) : Prop := t = { s with sc := t.sc }

theorem OnlySchedule.either {p : Prop} [Decidable p] {u v : State} (hu : OnlySchedule s u) (hv : OnlySchedule s v) :
    OnlySchedule s (if p then u else v) := by
  split
  · exact hu
  · exact hv

theorem State.yieldEnds_off (off : s.fld F.TRC_CFG.ENABLE = 0) (ctx : Nat) : OnlySchedule s (s.yieldEnds ctx) := by
  unfold State.yieldEnds
  dsimp only
  rw [State.trace_off _ _ off]
  exact .either (.either rfl rfl) rfl

/-- With the trace off, settling a context moves only the schedule. -/
theorem State.settle_off (off : s.fld F.TRC_CFG.ENABLE = 0) (ctx : Nat) : OnlySchedule s (s.settle ctx) := by
  have ended := State.yieldEnds_off off ctx
  unfold State.settle
  extract_lets u
  change OnlySchedule s u at ended
  have moved : ∀ x : Sc, OnlySchedule s { u with sc := x } := fun x => by
    show { u with sc := x } = { s with sc := x }
    rw [ended]
  split
  · exact .either ended (moved _)
  · split
    · exact .either (moved _) ended
    · exact .either (.either (moved _) (moved _)) ended
    · exact .either ended (moved _)
    · exact .either ended (moved _)
    · exact ended

theorem State.yieldEnds_cq (s : State) (ctx : Nat) : (s.yieldEnds ctx).cq = s.cq := by
  unfold State.yieldEnds
  extract_lets x u
  split
  · split <;> exact State.trace_cq _ _
  · rfl

theorem State.settle_cq (s : State) (ctx : Nat) : (s.settle ctx).cq = s.cq := by
  have ended := s.yieldEnds_cq ctx
  unfold State.settle
  extract_lets u
  change u.cq = s.cq at ended
  split
  · split <;> exact ended
  · split
    · split <;> exact ended
    · split
      · split <;> exact ended
      · exact ended
    · split <;> exact ended
    · split <;> exact ended
    · exact ended

theorem State.cmd_settle (s : State) (ctx q seq : Nat) : (s.settle ctx).cmd? q seq = s.cmd? q seq := by
  unfold State.cmd?
  rw [State.settle_cq]

/-- A command set under its own key is in hand. -/
theorem State.cmd_set {q seq : Nat} (there : s.cmd? q seq = some c) (q_d : d.q = c.q) (seq_d : d.seq = c.seq) :
    (s.setCmd d).cmd? q seq = some d := by
  obtain ⟨rfl, rfl⟩ := s.cmd?_key _ _ _ there
  have set := State.cmd?_setCmd s d c (by rw [q_d, seq_d]; exact there)
  rw [q_d, seq_d] at set
  exact set

/-! ## A command held, freed of its hold, and begun -/

theorem State.holdCmd_holds {q seq : Nat} (there : s.cmd? q seq = some c) (h : Hold) :
    let t := s.holdCmd c h
    t.cmd? q seq = some { c with hold := some h, since := if c.hold = some h then c.since else s.tm.now } ∧
      t.kv = s.kv ∧ t.wh = s.wh ∧ t.tl = s.tl := by
  unfold State.holdCmd
  extract_lets wh a b u
  have held : a.cmd? q seq = some { c with hold := some h, since := if c.hold = some h then c.since else s.tm.now } :=
    State.cmd_set there rfl rfl
  have kept : u.cq = a.cq ∧ u.kv = s.kv ∧ u.wh = s.wh ∧ u.tl = s.tl := by
    have traced : b.cq = a.cq ∧ b.kv = s.kv ∧ b.wh = s.wh ∧ b.tl = s.tl :=
      ⟨State.trace_cq _ _, State.trace_kv _ _, State.trace_wh _ _, State.trace_tl _ _⟩
    clear_value b
    simp only [u]
    split
    · exact ⟨rfl, rfl, rfl, rfl⟩
    · split
      · split
        · simpa using traced
        · show (b.setInt _).cq = _ ∧ (b.setInt _).kv = _ ∧ (b.setInt _).wh = _ ∧ (b.setInt _).tl = _
          simpa using traced
      · exact traced
  obtain ⟨cq, kv, wh_u, tl⟩ := kept
  have settled : MovedOn u (u.settle c.ctx) := (MovedOn.refl u).settle
  refine ⟨?_, (congrArg State.kv settled).trans kv, (congrArg State.wh settled).trans wh_u, (congrArg State.tl settled).trans tl⟩
  rw [State.cmd_settle]
  unfold State.cmd? at held ⊢
  rw [cq]
  exact held

/-- The memory, the registers and the host's lines are as they were. -/
def StillHere (s t : State) : Prop := t.mm = s.mm ∧ t.rg = s.rg ∧ t.hl = s.hl ∧ t.tm = s.tm

theorem OnlySchedule.still (h : OnlySchedule s t) : StillHere s t :=
  have same : t = { s with sc := t.sc } := h
  ⟨(congrArg State.mm same :), (congrArg State.rg same :), (congrArg State.hl same :), (congrArg State.tm same :)⟩

theorem State.unhold_frees {q seq : Nat} (there : s.cmd? q seq = some c) :
    (s.unhold c).cmd? q seq = some { c with hold := none } ∧ MovedOn s (s.unhold c) ∧
      (c.hold = none ∨ s.fld F.TRC_CFG.ENABLE = 0 → StillHere s (s.unhold c)) := by
  unfold State.unhold
  split
  next free =>
    refine ⟨?_, .refl s, fun _ => ⟨rfl, rfl, rfl, rfl⟩⟩
    rw [there]
    show _ = some { c with hold := none }
    rw [← free]
  next h held =>
    extract_lets a
    have set : a.cmd? q seq = some { c with hold := none } := State.cmd_set there rfl rfl
    have moved : MovedOn s a := (MovedOn.refl s).setCmd
    refine ⟨?_, MovedOn.settle (.either moved moved.trace), fun quiet => ?_⟩
    · rw [State.cmd_settle]
      split
      · exact set
      · unfold State.cmd?
        rw [State.trace_cq]
        exact set
    · have off : a.fld F.TRC_CFG.ENABLE = 0 := quiet.resolve_left (by rw [held]; simp)
      rw [State.trace_off _ _ off, ite_self]
      have settled := State.settle_off off c.ctx
      exact settled.still

/-- Command c begun on the descriptors us. -/
def Cmd.started (c : Cmd) (us : List DescUse) : Cmd := { c with stage := .running, hold := none, begun := true, descs := us }

section
variable (kept : (inputsOf (s.usesOf c.rec_)).any s.isLost = false)
include kept

theorem State.begin_barrier (kind : c.kind = .barrier) :
    s.begin c = (s.setCmd (c.started (s.usesOf c.rec_))).outputsDone (c.started (s.usesOf c.rec_)) := by
  cases c
  cases kind
  exact if_neg (ne_true_of_eq_false kept)

theorem State.begin_run (kind : c.kind = .run) :
    s.begin c = ((s.setCmd (c.started (s.usesOf c.rec_))).readCisterns (c.started (s.usesOf c.rec_))).startRun
      (c.started (s.usesOf c.rec_)) := by
  cases c
  cases kind
  exact if_neg (ne_true_of_eq_false kept)

theorem State.begin_move (kind : c.kind = .move ∨ c.kind = .checkpoint) :
    s.begin c = ((s.setCmd (c.started (s.usesOf c.rec_))).readCisterns (c.started (s.usesOf c.rec_))).moveWork
      (c.started (s.usesOf c.rec_)) := by
  cases c
  rcases kind with kind | kind <;> cases kind <;> exact if_neg (ne_true_of_eq_false kept)
end

/-- With no output for a cistern a command's outputs are complete at once: it is staged. -/
theorem State.outputsDone_stages {q seq : Nat} (there : s.cmd? q seq = some d) (q_c : c.q = d.q) (seq_c : c.seq = d.seq)
    (none : cisOutputs c.descs = []) :
    (∃ x, (s.outputsDone c).cmd? q seq = some x ∧ x.stage = .staged ∧ x.hold = .none ∧ x.begun = c.begun ∧ x.result = c.result) ∧
      MovedOn s (s.outputsDone c) ∧ (s.fld F.TRC_CFG.ENABLE = 0 → StillHere s (s.outputsDone c)) := by
  let e : Cmd := { c with work := { c.work with list := cisOutputs c.descs } }
  let x : Cmd := { e with stage := .staged, hold := .none, since := s.tm.now }
  have shape : s.outputsDone c = ((s.setCmd e).setCmd x).settle c.ctx := by
    unfold State.outputsDone State.commitNext
    dsimp only
    split
    next => rfl
    next first rest some_ => exact absurd (some_.symm.trans none) (by simp)
  rw [shape]
  refine ⟨⟨x, ?_, rfl, rfl, rfl, rfl⟩, (MovedOn.refl s).setCmd.setCmd.settle, fun off => ?_⟩
  · rw [State.cmd_settle]
    exact State.cmd_set (State.cmd_set there q_c seq_c) rfl rfl
  · have settled := State.settle_off (s := (s.setCmd e).setCmd x) off c.ctx
    exact settled.still

end Sys2Proof.Machine
end

section
/-! SUPPORT. The starts of BARRIER, RUN and moves, the grants of the weight window and a reduction's end, and O50. -/

namespace Sys2Proof.Machine

variable {s t : State} {c d : Cmd} {q seq : Nat}

theorem MovedOn.apart (h : MovedOn s t) : t.kv = s.kv ∧ t.wh = s.wh ∧ t.tl = s.tl := by
  unfold MovedOn at h
  rw [h]
  exact ⟨rfl, rfl, rfl⟩

theorem State.usesOf_barrier {r : List Byte} (kind : recKind r = some .barrier) : s.usesOf r = [] := by
  unfold State.usesOf State.named
  rw [kind]
  rfl

theorem State.usesOf_of_mm (mm : t.mm = s.mm) (r : List Byte) : t.usesOf r = s.usesOf r := by
  unfold State.usesOf State.named State.devRead
  rw [mm]

theorem State.isLost_of_mm (mm : t.mm = s.mm) : t.isLost = s.isLost := by
  unfold State.isLost
  rw [mm]

/-! ## What the start of a run does to its command -/

theorem State.takePages_cq (n : Nat) (s : State) (ctx : Nat) : (State.takePages n s ctx).2.cq = s.cq := by
  induction n generalizing s with
  | zero => rfl
  | succ n ih =>
    unfold State.takePages
    split
    · rfl
    next p u taken =>
      refine (ih u).trans ?_
      unfold State.takePage at taken
      split at taken
      · cases taken
      · split at taken
        · cases taken
        · obtain ⟨-, rfl⟩ := Prod.mk.inj (Option.some.inj taken)
          refine (State.devWrite_cq _ _ _).trans ?_
          show State.cq (if _ then _ else _) = _
          split
          · exact State.devWrite_cq _ _ _
          · rfl

theorem State.appendOne_cq (s : State) (c : Cmd) (n k : Nat) : (s.appendOne c n k).1.cq = s.cq := by
  unfold State.appendOne
  extract_lets x per before r u v im fit
  have taken : r.2.cq = s.cq := State.takePages_cq _ _ _
  have checked : u.cq = r.2.cq := by
    simp only [u]
    unfold State.lowCheck
    dsimp only
    split
    · exact State.setInt_cq _ _ _
    · rfl
  exact (State.devWrite_cq _ _ _).trans (checked.trans taken)

/-- What an append leaves of command c: its key, its stage, its descriptors and its layers. -/
structure Cmd.Appending (c d : Cmd) : Prop where
  key : d.q = c.q ∧ d.seq = c.seq
  stage : d.stage = c.stage ∧ d.hold = c.hold ∧ d.begun = c.begun
  descs : d.descs = c.descs
  layers : d.layers = c.layers

theorem State.startAppend_appends (s : State) (c : Cmd) : (s.startAppend c).1.cq = s.cq ∧ c.Appending (s.startAppend c).2 := by
  unfold State.startAppend
  refine List.foldlRecOn (motive := fun a : State × Cmd => a.1.cq = s.cq ∧ c.Appending a.2) _ _
    ⟨rfl, ⟨rfl, rfl⟩, ⟨rfl, rfl, rfl⟩, rfl, rfl⟩ fun a h x _ => ?_
  obtain ⟨cq, key, stage, descs, layers⟩ := h
  exact ⟨(State.appendOne_cq _ _ _ _).trans cq, key, stage, descs, layers⟩

theorem State.layersOf_plans (s : State) (c : Cmd) :
    (s.layersOf c).map (fun l => l.plan) = Config.imagePlans (s.runImage c).desc (s.runImage c).version (runSegment c) := by
  unfold State.layersOf
  dsimp only
  rw [List.map_map]
  refine List.ext_getElem (by simp) fun i h _ => ?_
  rw [List.getElem_map, List.getElem_range]
  exact (List.getElem_eq_getD _).symm

theorem State.requestFirst_cq (s : State) (c : Cmd) : (s.requestFirst c).cq = s.cq := by
  unfold State.requestFirst
  extract_lets u
  refine List.foldlRecOn (motive := fun t : State => t.cq = s.cq) _ _ ?_ fun t h l _ => ?_
  · simp only [u]
    rw [State.applyField_frame]
  · unfold State.requestWindow
    split <;> exact h

/-- A run with layers runs them: its record in hand has them, and is otherwise as it was begun. -/
theorem State.startRun_runs (there : s.cmd? q seq = some d) (q_c : c.q = d.q) (seq_c : c.seq = d.seq)
    (some_ : Config.imagePlans (s.runImage c).desc (s.runImage c).version (runSegment c) ≠ []) :
    ∃ x, (s.startRun c).cmd? q seq = some x ∧ x.stage = c.stage ∧ x.hold = c.hold ∧ x.begun = c.begun ∧ x.descs = c.descs ∧
      x.layers.map (fun l => l.plan) = Config.imagePlans (s.runImage c).desc (s.runImage c).version (runSegment c) := by
  unfold State.startRun
  extract_lets ps ng gr cr u tl v reads epoch w r z
  have mm_v : v.mm = s.mm ∧ v.cq = s.cq := by
    simp only [v]
    clear_value gr
    cases gr <;> exact ⟨rfl, rfl⟩
  obtain ⟨mm, cq⟩ : w.mm = s.mm ∧ w.cq = s.cq := by
    simp only [w]
    clear_value cr
    cases cr <;> exact mm_v
  have image : w.runImage c = s.runImage c := by
    unfold State.runImage State.imageRef State.devRead
    rw [mm]
  have plans := w.layersOf_plans c
  rw [image] at plans
  obtain ⟨cq_r, ⟨q_r, seq_r⟩, ⟨stage, hold, begun⟩, descs, layers⟩ : r.1.cq = w.cq ∧ Cmd.Appending _ r.2 :=
    State.startAppend_appends _ _
  have set : z.cmd? q seq = some r.2 :=
    State.cmd_set (by unfold State.cmd?; rw [cq_r, cq]; exact there) (q_r.trans q_c) (seq_r.trans seq_c)
  have first : r.2.layers.isEmpty = false := by
    refine Bool.eq_false_iff.mpr fun none => some_ ?_
    rw [← plans, ← show r.2.layers = w.layersOf c from layers, List.isEmpty_iff.mp none]
    rfl
  rw [first, if_neg (by simp)]
  refine ⟨r.2, ?_, stage, hold, begun, descs, layers ▸ plans⟩
  unfold State.cmd?
  rw [State.requestFirst_cq]
  exact set

/-! ## What a move does -/

theorem State.countRead_counts (s : State) (home a n : Nat) :
    s.countRead home a n = { s with rg.slots := (s.countRead home a n).rg.slots } := by
  unfold State.countRead
  split <;> rfl

theorem inputsOf_pair {src dst : DescUse} (input : src.out = false) (output : dst.out = true) : inputsOf [src, dst] = [src] := by
  simp [inputsOf, input, output]

theorem DescUse.range_input {u : DescUse} (input : u.out = false) :
    u.range = ((descOf u.img).home, (descOf u.img).addr, (descOf u.img).storedLen) := by
  unfold DescUse.range
  exact if_neg (ne_true_of_eq_false input)

theorem State.homeWrite_writes {home : Nat} (near : home < 2) (unheld : s.Unheld) (a : Nat) (l : List Byte) :
    (s.homeWrite home a l).homeRead home a l.length = l ∧ (s.homeWrite home a l).cq = s.cq ∧
      (s.homeWrite home a l).rg.fields = s.rg.fields := by
  obtain rfl | rfl : home = 0 ∨ home = 1 := by omega
  · refine ⟨?_, State.devWrite_cq _ _ _, State.devWrite_fields _ _ _⟩
    show rdBytes (s.devWrite a l).mm.dev a l.length = l
    rw [(State.devWrite_writes unheld a l).1]
    exact rdBytes_wrBytes_self _ _ _
  · exact ⟨rdBytes_wrBytes_self _ _ _, rfl, rfl⟩

theorem State.homeRead_of_mm (mm : t.mm = s.mm) : t.homeRead = s.homeRead := by
  funext home a n
  unfold State.homeRead State.devRead
  rw [mm]

theorem cisOutputs_near {us : List DescUse} (near : ∀ u ∈ us, (descOf u.img).home ≠ 3) : cisOutputs us = [] := by
  unfold cisOutputs
  refine List.filter_eq_nil_iff.mpr fun i _ => ?_
  split
  next u there => simp [near u (List.mem_of_getElem? there)]
  next => simp

section
variable {src dst : DescUse} {raw : List Byte} (uses : c.descs = [src, dst]) (input : src.out = false) (output : dst.out = true)
  (from_ : (descOf src.img).home < 2) (onto : (descOf dst.img).home < 2)
  (clean : s.homePoisoned (descOf src.img).home (descOf src.img).addr (descOf src.img).storedLen = false)
  (read : (descOf src.img).expand
    (s.homeRead (descOf src.img).home (descOf src.img).addr (descOf src.img).storedLen) = some raw)
include uses input output from_

theorem readCisterns_near : s.readCisterns c = s := by
  unfold State.readCisterns
  rw [uses, inputsOf_pair input output]
  exact if_neg (by rw [DescUse.range_input input]; show (descOf src.img).home ≠ 3; omega)

include onto clean read

theorem State.moveWork_moves
    (fits : (if (descOf dst.img).home = 1 then (raw, 0) else storeAs (descOf dst.img).compress raw).1.length ≤ (descOf dst.img).allocLen) :
    let e := descOf dst.img
    let o := if e.home = 1 then (raw, 0) else storeAs e.compress raw
    s.moveWork c = ((s.countRead (descOf src.img).home (descOf src.img).addr (descOf src.img).storedLen).homeWrite e.home dst.store
      o.1).outputsDone { c with result := o.2 } := by
  intro e o
  have counted := s.countRead_counts (descOf src.img).home (descOf src.img).addr (descOf src.img).storedLen
  have here : c.inputsHere = true := by
    unfold Cmd.inputsHere
    rw [uses, inputsOf_pair input output, List.all_cons, DescUse.range_input input]
    simp
    omega
  have bytes : (s.countRead (descOf src.img).home (descOf src.img).addr (descOf src.img).storedLen).inputBytes c src =
      s.homeRead (descOf src.img).home (descOf src.img).addr (descOf src.img).storedLen := by
    rw [counted]
    unfold State.inputBytes
    rw [DescUse.range_input input]
    exact if_neg (by show (descOf src.img).home ≠ 3; omega)
  have clean' : (s.countRead (descOf src.img).home (descOf src.img).addr (descOf src.img).storedLen).homePoisoned
      (descOf src.img).home (descOf src.img).addr (descOf src.img).storedLen = false := by
    rw [counted]
    exact clean
  unfold State.moveWork
  split
  next x y listed =>
    obtain ⟨rfl, rfl⟩ : x = src ∧ y = dst := by simpa using listed.symm.trans uses
    dsimp only
    rw [here, clean', bytes, read]
    refine (if_neg (by simp)).trans ((if_neg (by simp)).trans ((if_neg (Nat.not_lt.mpr fits)).trans ?_))
    unfold State.stageBytes
    rw [if_neg (by omega)]
  next other => exact absurd uses (other _ _)
end

/-! ## COMMAND_START -/

theorem State.readCisterns_keeps (s : State) (c : Cmd) : (s.readCisterns c).cq = s.cq ∧ (s.readCisterns c).mm = s.mm := by
  unfold State.readCisterns
  refine List.foldlRecOn (motive := fun t : State => t.cq = s.cq ∧ t.mm = s.mm) _ _ ⟨rfl, rfl⟩ fun t h u _ => ?_
  split
  · unfold State.cisReadRange
    split
    · exact h
    · split
      · exact h
      · exact ⟨(State.emit_cq _ _).trans h.1, (State.emit_mm _ _).trans h.2⟩
  · exact h

section
variable (on : s.runs 313 = true) (there : s.cmd? q seq = some c) (runs : s.queueRuns c.q = true) (stage : c.stage = .waiting)
  (command : c.wellhead = false) (resident : s.resident c.ctx = true) (derived : c.hold ≠ some .rederive)
  (readable : s.inputsReadable (s.usesOf c.rec_) = true)
include on there runs stage command resident derived readable

theorem State.commandStart_holds {h : Hold} (held : s.startHold c = some h) : s.commandStart q seq = s.holdCmd c h := by
  unfold State.commandStart
  rw [there]
  dsimp only
  rw [if_pos ⟨on, runs, stage, by rw [command]; rfl, resident, derived⟩, readable, held]
  rfl

theorem State.commandStart_begins (free : s.startHold c = none) :
    s.commandStart q seq = ((s.unhold c).begin { c with hold := none }).settle c.ctx := by
  unfold State.commandStart
  rw [there]
  dsimp only
  rw [if_pos ⟨on, runs, stage, by rw [command]; rfl, resident, derived⟩, readable, free]
  rfl

theorem commandStart_barrier (free : s.startHold c = none) (kind : c.kind = .barrier) (barrier : recKind c.rec_ = some .barrier) :
    ∃ x, (s.commandStart q seq).cmd? q seq = some x ∧ x.stage = .staged ∧ x.hold = none ∧ x.begun = true ∧
      (s.commandStart q seq).kv = s.kv ∧ (s.commandStart q seq).wh = s.wh ∧ (s.commandStart q seq).tl = s.tl := by
  rw [State.commandStart_begins on there runs stage command resident derived readable free]
  obtain ⟨freed, moved, -⟩ := State.unhold_frees there
  generalize s.unhold c = v at *
  have none : v.usesOf c.rec_ = [] := State.usesOf_barrier barrier
  let e : Cmd := ({ c with hold := .none } : Cmd).started []
  have shape : v.begin { c with hold := .none } = (v.setCmd e).outputsDone e := by
    have begun := State.begin_barrier (s := v) (c := { c with hold := .none }) (by show (inputsOf (v.usesOf c.rec_)).any _ = _; rw [none]; rfl) kind
    have uses : v.usesOf ({ c with hold := .none } : Cmd).rec_ = [] := none
    rw [uses] at begun
    exact begun
  rw [shape]
  have set : (v.setCmd e).cmd? q seq = some e := State.cmd_set freed rfl rfl
  obtain ⟨⟨x, staged, stage_x, hold, begun, -⟩, moved_x, -⟩ := State.outputsDone_stages (c := e) set rfl rfl rfl
  have all : MovedOn s (((v.setCmd e).outputsDone e).settle c.ctx) := (moved.setCmd.trans moved_x).settle
  exact ⟨x, (State.cmd_settle _ _ _ _).trans staged, stage_x, hold, begun, all.apart⟩

theorem commandStart_run (free : s.startHold c = none) (kind : c.kind = .run) (quiet : c.hold = none ∨ s.fld F.TRC_CFG.ENABLE = 0)
    (kept : (inputsOf (s.usesOf c.rec_)).any s.isLost = false)
    (some_ : Config.imagePlans (s.runImage c).desc (s.runImage c).version (runSegment c) ≠ []) :
    ∃ x, (s.commandStart q seq).cmd? q seq = some x ∧ x.stage = .running ∧ x.hold = none ∧ x.begun = true ∧
      x.descs = s.usesOf c.rec_ ∧
      x.layers.map (fun l => l.plan) = Config.imagePlans (s.runImage c).desc (s.runImage c).version (runSegment c) := by
  rw [State.commandStart_begins on there runs stage command resident derived readable free]
  obtain ⟨freed, -, still⟩ := State.unhold_frees there
  obtain ⟨mm, -⟩ := still quiet
  generalize s.unhold c = v at *
  have uses : v.usesOf c.rec_ = s.usesOf c.rec_ := State.usesOf_of_mm mm _
  have kept_v : (inputsOf (v.usesOf c.rec_)).any v.isLost = false := by
    rw [uses, State.isLost_of_mm mm]
    exact kept
  let e : Cmd := ({ c with hold := .none } : Cmd).started (s.usesOf c.rec_)
  have shape : v.begin { c with hold := .none } = ((v.setCmd e).readCisterns e).startRun e :=
    (State.begin_run (s := v) (c := { c with hold := .none }) kept_v kind).trans (by rw [show v.usesOf ({ c with hold := .none } : Cmd).rec_ = _ from uses])
  have set : (v.setCmd e).cmd? q seq = some e := State.cmd_set freed rfl rfl
  obtain ⟨cq, mm_w⟩ := (v.setCmd e).readCisterns_keeps e
  have there_w : ((v.setCmd e).readCisterns e).cmd? q seq = some e := by
    unfold State.cmd? at set ⊢
    rw [cq]
    exact set
  have image : ((v.setCmd e).readCisterns e).runImage e = s.runImage c := by
    unfold State.runImage State.imageRef State.devRead
    rw [mm_w, show (v.setCmd e).mm = s.mm from mm]
    rfl
  have running := State.startRun_runs (c := e) there_w rfl rfl (by rw [image]; exact some_)
  rw [image] at running
  obtain ⟨x, hx, what⟩ := running
  rw [shape, State.cmd_settle]
  exact ⟨x, hx, what⟩

theorem State.commandStart_moves {src dst : DescUse} {raw : List Byte} (free : s.startHold c = none)
    (kind : c.kind = .move ∨ c.kind = .checkpoint) (off : s.fld F.TRC_CFG.ENABLE = 0) (unheld : s.Unheld)
    (uses : s.usesOf c.rec_ = [src, dst]) (input : src.out = false) (output : dst.out = true) (kept : s.isLost src = false)
    (from_ : (descOf src.img).home < 2) (onto : (descOf dst.img).home < 2)
    (clean : s.homePoisoned (descOf src.img).home (descOf src.img).addr (descOf src.img).storedLen = false)
    (read : (descOf src.img).expand
      (s.homeRead (descOf src.img).home (descOf src.img).addr (descOf src.img).storedLen) = some raw)
    (fits : (if (descOf dst.img).home = 1 then (raw, 0) else storeAs (descOf dst.img).compress raw).1.length ≤ (descOf dst.img).allocLen) :
    let e := descOf dst.img
    let o := if e.home = 1 then (raw, 0) else storeAs e.compress raw
    ∃ x, (s.commandStart q seq).cmd? q seq = some x ∧ x.stage = .staged ∧ x.result = o.2 ∧
      (s.commandStart q seq).homeRead e.home dst.store o.1.length = o.1 := by
  intro e o
  rw [State.commandStart_begins on there runs stage command resident derived readable free]
  obtain ⟨freed, -, still⟩ := State.unhold_frees there
  obtain ⟨mm, rg, hl, -⟩ := still (.inr off)
  generalize s.unhold c = v at *
  have uses_v : v.usesOf c.rec_ = [src, dst] := (State.usesOf_of_mm mm _).trans uses
  have kept_v : (inputsOf (v.usesOf c.rec_)).any v.isLost = false := by
    rw [uses_v, inputsOf_pair input output, State.isLost_of_mm mm]
    simp [kept]
  let b : Cmd := ({ c with hold := .none } : Cmd).started [src, dst]
  have shape : v.begin { c with hold := .none } = ((v.setCmd b).readCisterns b).moveWork b :=
    (State.begin_move (s := v) (c := { c with hold := .none }) kept_v kind).trans
      (by rw [show v.usesOf ({ c with hold := .none } : Cmd).rec_ = _ from uses_v])
  have set : (v.setCmd b).cmd? q seq = some b := State.cmd_set freed rfl rfl
  have mm_b : (v.setCmd b).mm = s.mm := mm
  have off_b : (v.setCmd b).fld F.TRC_CFG.ENABLE = 0 := by
    show look _ v.rg.fields _ = 0
    rw [rg]
    exact off
  have unheld_b : (v.setCmd b).Unheld := by
    show v.hl.filter = [] ∧ v.hl.recalls = []
    rw [hl]
    exact unheld
  have near := readCisterns_near (s := v.setCmd b) (c := b) rfl input output from_
  have moved := State.moveWork_moves (s := v.setCmd b) (c := b) rfl input output from_ onto
    (by unfold State.homePoisoned State.poisoned; rw [mm_b]; exact clean) (by rw [State.homeRead_of_mm mm_b]; exact read) fits
  rw [shape, near, moved]
  have counted := (v.setCmd b).countRead_counts (descOf src.img).home (descOf src.img).addr (descOf src.img).storedLen
  generalize (v.setCmd b).countRead (descOf src.img).home (descOf src.img).addr (descOf src.img).storedLen = w at *
  have unheld_w : w.Unheld := by rw [counted]; exact unheld_b
  have off_w : w.fld F.TRC_CFG.ENABLE = 0 := by rw [counted]; exact off_b
  have there_w : w.cmd? q seq = some b := by rw [counted]; exact set
  obtain ⟨written, cq, fields⟩ := State.homeWrite_writes onto unheld_w dst.store o.1
  show ∃ x, (((w.homeWrite e.home dst.store o.1).outputsDone _).settle c.ctx).cmd? q seq = some x ∧ _
  generalize w.homeWrite e.home dst.store o.1 = y at *
  have there_y : y.cmd? q seq = some b := by
    unfold State.cmd? at there_w ⊢
    rw [cq]
    exact there_w
  have off_y : y.fld F.TRC_CFG.ENABLE = 0 := by
    unfold State.fld at off_w ⊢
    rw [fields]
    exact off_w
  have none : cisOutputs [src, dst] = [] := cisOutputs_near (by
    rintro u (_ | ⟨_, _ | ⟨_, ⟨⟩⟩⟩)
    · omega
    · omega)
  obtain ⟨⟨x, staged, stage_x, -, -, result⟩, -, still_y⟩ :=
    State.outputsDone_stages (c := { b with result := o.2 }) there_y rfl rfl none
  obtain ⟨mm_z, rg_z, -⟩ := still_y off_y
  generalize y.outputsDone _ = z at *
  have off_z : z.fld F.TRC_CFG.ENABLE = 0 := by
    unfold State.fld at off_y ⊢
    rw [rg_z]
    exact off_y
  refine ⟨x, (State.cmd_settle _ _ _ _).trans staged, stage_x, result, ?_⟩
  rw [State.homeRead_of_mm ((State.settle_off off_z c.ctx).still.1.trans mm_z)]
  exact written
end

/-! ## The weight window -/

/-- The image of request w is granted its place; the command's layer may use it. -/
theorem State.windowHere_grants {w : WinReq} {n : Nat} (there : s.cmd? w.q w.seq = some c) :
    let t := s.windowHere c w n
    t.mm.window = s.mm.window.map (fun x => if x = w then { w with granted := true, at_ := s.windowPlace w.bytes } else x) ∧
      t.cmd? w.q w.seq = some { c with layers := c.layers.map (fun l => if l.ord = w.layer then { l with windowReady := true } else l) } ∧
      t.rg.fields = s.rg.fields ∧ t.mm.dev = s.mm.dev ∧ t.tl = s.tl := by
  unfold State.windowHere
  extract_lets a mm u v
  obtain ⟨mm_v, fields, tl, cq⟩ : v.mm = u.mm ∧ v.rg.fields = s.rg.fields ∧ v.tl = s.tl ∧ v.cq = s.cq :=
    List.foldlRecOn (motive := fun t : State => t.mm = u.mm ∧ t.rg.fields = s.rg.fields ∧ t.tl = s.tl ∧ t.cq = s.cq) _ _
      ⟨rfl, rfl, rfl, rfl⟩ fun t h p _ => h
  refine ⟨congrArg (·.window) mm_v, State.cmd_set (c := c) ?_ rfl rfl, fields, congrArg (·.dev) mm_v, tl⟩
  unfold State.cmd? at there ⊢
  rw [cq]
  exact there

theorem windowGrant_run {w : WinReq} {u : DescUse} {raw : List Byte} (on : s.runs 313 = true)
    (asked : s.mm.window.find? (fun w => !w.granted) = some w) (there : s.cmd? w.q w.seq = some c) (kind : c.kind ≠ .step)
    (room : s.windowUsed + w.bytes ≤ s.windowRing)
    (weights : (c.layers.find? (fun l => l.ord == w.layer)).bind (fun l => s.layerWeights c l (s.imageBaseOf c)) = some u)
    (readable : s.homeReadable u.range.1 u.range.2.1 u.range.2.2 = true)
    (clean : s.homePoisoned u.range.1 u.range.2.1 u.range.2.2 = false)
    (here : u.range.1 = 3 → c.blocksHere u.range.2.1 u.range.2.2 = true)
    (read : (descOf u.img).expand (s.inputBytes c u) = some raw) :
    s.windowGrant = (s.countRead u.range.1 u.range.2.1 u.range.2.2).windowHere c w raw.length := by
  unfold State.windowGrant
  rw [if_pos on, asked]
  dsimp only
  rw [there]
  dsimp only
  rw [if_neg (Nat.not_lt.mpr room), if_neg kind, weights]
  dsimp only
  rw [readable, clean, if_neg (by simp), if_neg (by simp), if_neg fun both => by simp [here both.1] at both, read]

theorem windowGrant_step {w : WinReq} {l : Layer} (on : s.runs 313 = true)
    (asked : s.mm.window.find? (fun w => !w.granted) = some w) (there : s.cmd? w.q w.seq = some c) (kind : c.kind = .step)
    (room : s.windowUsed + w.bytes ≤ s.windowRing) (layer : c.layers.find? (fun l => l.ord == w.layer) = some l)
    (readable : s.readable (s.stepWeights c l).1 (s.stepWeights c l).2 = true)
    (clean : s.poisoned (s.stepWeights c l).1 (s.stepWeights c l).2 = false) :
    s.windowGrant = (s.countRead 0 (s.stepWeights c l).1 (s.stepWeights c l).2).windowHere c w (s.stepWeights c l).2 := by
  have clean' : s.homePoisoned 0 (s.stepWeights c l).1 (s.stepWeights c l).2 = false := clean
  unfold State.windowGrant
  rw [if_pos on, asked]
  dsimp only
  rw [there]
  dsimp only
  rw [if_neg (Nat.not_lt.mpr room), if_pos kind, layer]
  dsimp only
  rw [readable, clean', if_neg (by simp), if_neg (by simp)]

/-- A grant that first counts the bytes it reads. -/
theorem windowHere_counted {w : WinReq} {home a n k : Nat} (there : s.cmd? w.q w.seq = some c)
    (granted : s.windowGrant = (s.countRead home a n).windowHere c w k) :
    ∃ t, exec .windowGrant s = .next t ∧
      t.mm.window = s.mm.window.map (fun x => if x = w then { w with granted := true, at_ := s.windowPlace w.bytes } else x) ∧
      t.cmd? w.q w.seq = some { c with layers := c.layers.map (fun l => if l.ord = w.layer then { l with windowReady := true } else l) } ∧
      t.rg.fields = s.rg.fields ∧ t.mm.dev = s.mm.dev ∧ t.tl = s.tl := by
  have ran : exec .windowGrant s = .next s.windowGrant := rfl
  rw [granted, s.countRead_counts home a n] at ran
  exact ⟨_, ran, State.windowHere_grants there⟩

/-! ## The end of a reduction -/

/-- The stage's bytes written, and what was reduced counted. -/
def State.reduced (s : State) (stage len n : Nat) (sum : List Byte) : State :=
  let s := s.homeWrite 0 stage sum
  let s := s.addCnt C.PDIE_CNT_REDUCED (len * n) (stackDie stage)
  let s := s.addCnt C.HBMC_CNT_ADDED (len * (n - 1)) (stage / 2 ^ 36 % 16)
  s.setInt F.PDIE_INT_STATUS.RED_DONE (stackDie stage)

theorem State.readAll_counts (s : State) (us : List DescUse) :
    let t := us.foldl (fun s u => s.countRead u.range.1 u.range.2.1 u.range.2.2) s
    t = { s with rg.slots := t.rg.slots } := by
  refine List.foldlRecOn (motive := fun t : State => t = { s with rg.slots := t.rg.slots }) _ _ rfl fun t h u _ => ?_
  have counted := t.countRead_counts u.range.1 u.range.2.1 u.range.2.2
  generalize t.countRead u.range.1 u.range.2.1 u.range.2.2 = v at *
  rw [counted, h]

theorem State.reductionDone_sums {u : DescUse} {srcs : List DescUse} {sum : List Byte} (on : s.runs 313 = true)
    (there : s.cmd? q seq = some c) (kind : c.kind = .reduce) (stage : c.stage = .running) (descs : c.descs = u :: srcs)
    (here : c.inputsHere = true) (turn : s.reduceBehind c = false) (readable : s.inputsReadable c.descs = true)
    (clean : c.descs.any (fun u => s.homePoisoned u.range.1 u.range.2.1 u.range.2.2) = false)
    (summed : s.sumOf c u srcs = some sum) :
    s.reductionDone q seq = ((c.descs.foldl (fun s u => s.countRead u.range.1 u.range.2.1 u.range.2.2) s).reduced
      (field c.rec_ 0x20 8) (descOf u.img).allocLen srcs.length sum).outputsDone c := by
  have counted := s.readAll_counts c.descs
  have clean' : c.descs.any (fun u => (c.descs.foldl (fun s u => s.countRead u.range.1 u.range.2.1 u.range.2.2) s).homePoisoned
      u.range.1 u.range.2.1 u.range.2.2) = false := by
    rw [counted]
    exact clean
  have summed' : (c.descs.foldl (fun s u => s.countRead u.range.1 u.range.2.1 u.range.2.2) s).sumOf c u srcs = some sum := by
    rw [counted]
    exact summed
  unfold State.reductionDone
  rw [there]
  dsimp only
  split
  next none => exact absurd (none.symm.trans descs) (by simp)
  next t l listed =>
    obtain ⟨rfl, rfl⟩ : t = u ∧ l = srcs := by simpa using listed.symm.trans descs
    rw [if_pos ⟨on, kind, stage, here, by rw [turn]; rfl⟩, readable, clean', summed']
    exact rfl

theorem State.reduced_writes (s : State) (stage len n : Nat) (sum : List Byte) :
    let t := s.reduced stage len n sum
    t.fld F.PDIE_INT_STATUS.RED_DONE (stackDie stage) = 1 ∧ t.kv = s.kv ∧ t.wh = s.wh ∧ t.cq = s.cq ∧
      t.fld F.TRC_CFG.ENABLE = s.fld F.TRC_CFG.ENABLE ∧
      (s.Unheld → t.mm.dev = wrBytes s.mm.dev stage sum) := by
  unfold State.reduced
  extract_lets u v w
  have kept : w.kv = s.kv ∧ w.wh = s.wh ∧ w.cq = s.cq ∧ w.rg.fields = s.rg.fields :=
    ⟨State.devWrite_kv _ _ _, State.devWrite_wh _ _ _, State.devWrite_cq _ _ _, State.devWrite_fields _ _ _⟩
  have dev : s.Unheld → w.mm.dev = wrBytes s.mm.dev stage sum := fun unheld => (State.devWrite_writes unheld stage sum).1
  clear_value w
  obtain ⟨kv, wh, cq, fields⟩ := kept
  refine ⟨State.fld_setInt _ _ _, (State.setInt_kv _ _ _).trans kv, (State.setInt_wh _ _ _).trans wh,
    (State.setInt_cq _ _ _).trans cq, (State.fld_setInt_slot w (f := F.PDIE_INT_STATUS.RED_DONE) (g := F.TRC_CFG.ENABLE) (by decide) _ _ _).trans ?_, fun unheld => ?_⟩
  · unfold State.fld
    rw [fields]
  · rw [State.setInt_mm]
    exact dev unheld

theorem reductionDone_reduces {u : DescUse} {srcs : List DescUse} {sum : List Byte} (on : s.runs 313 = true)
    (there : s.cmd? q seq = some c) (kind : c.kind = .reduce) (stage_c : c.stage = .running) (descs : c.descs = u :: srcs)
    (here : c.inputsHere = true) (turn : s.reduceBehind c = false) (readable : s.inputsReadable c.descs = true)
    (outputs : cisOutputs c.descs = []) (clean : c.descs.any (fun u => s.homePoisoned u.range.1 u.range.2.1 u.range.2.2) = false)
    (summed : s.sumOf c u srcs = some sum) :
    let stage := field c.rec_ 0x20 8
    let t := s.reductionDone q seq
    (∃ x, t.cmd? q seq = some x ∧ x.stage = .staged) ∧
      t.fld F.PDIE_INT_STATUS.RED_DONE (stackDie stage) = 1 ∧ t.kv = s.kv ∧ t.wh = s.wh ∧
      (s.fld F.TRC_CFG.ENABLE = 0 → s.Unheld → t.mm.dev = wrBytes s.mm.dev stage sum) := by
  intro stage t
  have shape : t = _ := State.reductionDone_sums on there kind stage_c descs here turn readable clean summed
  have counted := s.readAll_counts c.descs
  generalize c.descs.foldl (fun s u => s.countRead u.range.1 u.range.2.1 u.range.2.2) s = v at *
  obtain ⟨done, kv, wh, cq, enable, dev⟩ := v.reduced_writes stage (descOf u.img).allocLen srcs.length sum
  have there_w : (v.reduced stage (descOf u.img).allocLen srcs.length sum).cmd? q seq = some c := by
    unfold State.cmd?
    rw [cq, counted]
    exact there
  rw [shape]
  change (∃ x, ((v.reduced stage _ _ sum).outputsDone c).cmd? q seq = some x ∧ _) ∧ _
  generalize v.reduced stage (descOf u.img).allocLen srcs.length sum = w at *
  obtain ⟨⟨x, staged, stage_x, -⟩, moved, still⟩ := State.outputsDone_stages (c := c) there_w rfl rfl outputs
  obtain ⟨kv_t, wh_t, -⟩ := moved.apart
  refine ⟨⟨x, staged, stage_x⟩, ?_, kv_t.trans (kv.trans (by rw [counted])), wh_t.trans (wh.trans (by rw [counted])), fun off unheld => ?_⟩
  · exact ((WorkKept.refl w).outputsDone.fields _ (workKey_false (by decide) (by decide) _ _) _).trans done
  · rw [(still (by rw [enable, counted]; exact off)).1, dev (by rw [counted]; exact unheld), counted]

/-- Settles O50: a start by `State.holdCmd` and `State.begin`, a grant by `State.windowHere`, a reduction by `State.reduced`. -/
theorem commandStarts : Obligations.CommandStarts := by
  intro s on
  refine ⟨fun q seq c there runs stage command resident derived readable => ⟨fun h held => ?_, fun free kind barrier => ?_,
    fun free kind quiet kept some_ => ?_, fun src dst raw free kind off filter recalls uses input output kept from_ onto clean read fits => ?_⟩,
    fun w c u raw asked there kind room weights readable clean here read => ?_,
    fun w c l asked there kind room layer readable clean => ?_,
    fun q seq c u srcs sum there kind stage descs here turn readable outputs clean summed => ?_⟩
  · have holds := State.holdCmd_holds there h
    rw [← State.commandStart_holds on there runs stage command resident derived readable held] at holds
    exact ⟨_, rfl, holds⟩
  · obtain ⟨x, begun⟩ := commandStart_barrier on there runs stage command resident derived readable free kind barrier
    exact ⟨_, x, rfl, begun⟩
  · obtain ⟨x, begun⟩ := commandStart_run on there runs stage command resident derived readable free kind quiet kept some_
    exact ⟨_, x, rfl, begun⟩
  · obtain ⟨x, moved⟩ := State.commandStart_moves on there runs stage command resident derived readable free kind off
      ⟨filter, recalls⟩ uses input output kept from_ onto clean read fits
    exact ⟨_, x, rfl, moved⟩
  · exact windowHere_counted there (windowGrant_run on asked there kind room weights readable clean here read)
  · exact windowHere_counted there (windowGrant_step on asked there kind room layer readable clean)
  · obtain ⟨⟨x, staged, stage_x⟩, done, kv, wh, dev⟩ :=
      reductionDone_reduces on there kind stage descs here turn readable outputs clean summed
    refine ⟨_, x, rfl, staged, stage_x, done, kv, wh, fun off filter recalls => ?_⟩
    have written := dev off ⟨filter, recalls⟩
    refine ⟨?_, fun a out => ?_⟩
    · unfold State.devRead
      rw [written]
      exact rdBytes_wrBytes_self _ _ _
    · rw [written]
      exact rdByte_wrBytes_out out

end Sys2Proof.Machine
end

section
/-! SUPPORT. What the effects of a publication leave: the time, the commands, the queues, and the groups' states (R33, R393). -/

namespace Sys2Proof.Machine

/-! ## The wellhead's page of registers (class 0x02) -/

/-- The fields of the wellhead's page are kept. -/
def WhPage (s t : State) : Prop := ∀ k, k / 2 ^ 38 = 2 → ∀ d, look d t.rg.fields k = look d s.rg.fields k

namespace WhPage
variable {s t u : State}

theorem refl (s : State) : WhPage s s := fun _ _ _ => rfl

theorem trans (h : WhPage s t) (h' : WhPage t u) : WhPage s u := fun k hk d => (h' k hk d).trans (h k hk d)

theorem same (h : WhPage s t) (fields : u.rg.fields = t.rg.fields := by rfl) : WhPage s u :=
  h.trans fun _ _ _ => by rw [fields]

theorem either {c : Prop} [Decidable c] {a b : State} (ha : WhPage s a) (hb : WhPage s b) : WhPage s (if c then a else b) := by
  split
  · exact ha
  · exact hb

theorem setFld (h : WhPage s t) {f : Field} {v i b : Nat} (hk : fieldKey f i b / 2 ^ 38 ≠ 2) : WhPage s (t.setFld f v i b) :=
  h.trans fun _ hp _ => look_put_other _ _ (fun e => hk (e ▸ hp))

theorem setInt (h : WhPage s t) {f : Field} {i : Nat} (hk : fieldKey f i 0 / 2 ^ 38 ≠ 2) : WhPage s (t.setInt f i) :=
  (h.setFld (v := 1) hk).same (State.setInt_fields t f i)

theorem addCnt (h : WhPage s t) {c : Cnt} {n i b : Nat} : WhPage s (t.addCnt c n i b) := h.same

theorem devWrite (h : WhPage s t) (a : Nat) (d : List Byte) : WhPage s (t.devWrite a d) := h.same (State.devWrite_fields _ _ _)

theorem traceStore (h : WhPage s t) (r : TraceRec) : WhPage s (t.traceStore r) := by
  refine t.traceStore_cases r _ ?_ ?_ (fun a n => ?_)
  · exact h.addCnt.setInt (by decide)
  · exact ((h.setFld (by decide)).setInt (by decide)).addCnt.setInt (by decide)
  · exact (h.devWrite _ _).same

theorem traceBudgeted (h : WhPage s t) (r : TraceRec) : WhPage s (t.traceBudgeted r) := by
  have owed : WhPage s t.traceOwed := either (h.traceStore _).same h
  have counted : WhPage s ((t.traceOwed.addCnt C.TRC_CNT_DROPPED 1).setInt F.TRC_INT_STATUS.DROPPED) :=
    owed.addCnt.setInt (by decide)
  exact either counted.same (owed.traceStore r)

theorem takeStop (h : WhPage s t) (cause : Nat) : WhPage s (t.takeStop cause) := by
  have armed : WhPage s ((((t.setFld F.STOP_STATUS.STATE 1).setFld F.STOP_STATUS.CAUSE cause).setFld F.STOP_STATUS.REFUSED 0).setFld
      F.STOP_STATUS.PARTIAL 0) :=
    (((h.setFld (by decide)).setFld (by decide)).setFld (by decide)).setFld (by decide)
  exact either (h.setFld (by decide)) armed.same

theorem trace (h : WhPage s t) (r : TraceRec) : WhPage s (t.trace r) := by
  have fires : WhPage s ((t.setFld F.TRC_STATUS.TRIGGERED 1).setInt F.TRC_INT_STATUS.TRIGGER) :=
    (h.setFld (by decide)).setInt (by decide)
  have triggered : WhPage s (t.traceTrigger r) := either (either (fires.takeStop 4) fires) h
  exact either (triggered.traceBudgeted r) h

theorem yieldEnds (h : WhPage s t) {ctx : Nat} : WhPage s (t.yieldEnds ctx) :=
  either (either (h.trace _).same (h.trace _).same) h

theorem settle (h : WhPage s t) {ctx : Nat} : WhPage s (t.settle ctx) := by
  unfold State.settle
  extract_lets u
  have ended : WhPage s u := h.yieldEnds
  split
  · exact either ended ended.same
  · split
    · exact either ended.same ended
    · exact either (either ended.same ended.same) ended
    · exact either ended ended.same
    · exact either ended ended.same
    · exact ended

end WhPage

/-! ## Updates that leave the queues, the groups and the branches -/

/-- Neither time, command, queue, group nor branch changes, nor the wellhead's page. -/
structure Quiet (s t : State) : Prop where
  time : t.tm = s.tm
  cmds : t.cq.cmds = s.cq.cmds
  queues : t.cq.queues = s.cq.queues
  groups : t.wh.groups = s.wh.groups
  branches : t.wh.branches = s.wh.branches
  page : WhPage s t

namespace Quiet
variable {s t u : State}

theorem refl (s : State) : Quiet s s := ⟨rfl, rfl, rfl, rfl, rfl, .refl s⟩

theorem trans (h : Quiet s t) (h' : Quiet t u) : Quiet s u :=
  ⟨h'.time.trans h.time, h'.cmds.trans h.cmds, h'.queues.trans h.queues, h'.groups.trans h.groups, h'.branches.trans h.branches,
    h.page.trans h'.page⟩

theorem same (h : Quiet s t) (time : u.tm = t.tm := by rfl) (cmds : u.cq.cmds = t.cq.cmds := by rfl)
    (queues : u.cq.queues = t.cq.queues := by rfl) (groups : u.wh.groups = t.wh.groups := by rfl)
    (branches : u.wh.branches = t.wh.branches := by rfl) (fields : u.rg.fields = t.rg.fields := by rfl) : Quiet s u :=
  h.trans ⟨time, cmds, queues, groups, branches, (WhPage.refl t).same fields⟩

theorem either {c : Prop} [Decidable c] {a b : State} (ha : Quiet s a) (hb : Quiet s b) : Quiet s (if c then a else b) := by
  split
  · exact ha
  · exact hb

theorem foldl (h : Quiet s t) {α : Type} {f : State → α → State} (step : ∀ u x, Quiet s u → Quiet s (f u x)) {l : List α} :
    Quiet s (l.foldl f t) :=
  List.foldlRecOn (motive := Quiet s) l f h fun u hu x _ => step u x hu

/-- An update that leaves these parts of the state whole. -/
theorem parts (h : Quiet s t) (tm : u.tm = t.tm) (cq : u.cq = t.cq) (wh : u.wh = t.wh) (page : WhPage t u) : Quiet s u :=
  h.trans ⟨tm, by rw [cq], by rw [cq], by rw [wh], by rw [wh], page⟩

theorem devWrite (h : Quiet s t) {a : Nat} {d : List Byte} : Quiet s (t.devWrite a d) :=
  h.parts (State.devWrite_tm _ _ _) (State.devWrite_cq _ _ _) (State.devWrite_wh _ _ _) ((WhPage.refl t).devWrite _ _)

theorem hwr (h : Quiet s t) {a : Nat} {d : List Byte} {w : HwrFor} : Quiet s (t.hwr a d w) :=
  h.parts (State.hwr_tm _ _ _ _) (State.hwr_cq _ _ _ _) (State.hwr_wh _ _ _ _) ((WhPage.refl t).same (State.hwr_fields _ _ _ _))

theorem setInt (h : Quiet s t) {f : Field} {i : Nat} (apart : fieldKey f i 0 / 2 ^ 38 ≠ 2) : Quiet s (t.setInt f i) :=
  h.parts (State.setInt_tm _ _ _) (State.setInt_cq _ _ _) (State.setInt_wh _ _ _) ((WhPage.refl t).setInt apart)

theorem settle (h : Quiet s t) {ctx : Nat} : Quiet s (t.settle ctx) := by
  have moved : MovedOn t (t.settle ctx) := (MovedOn.refl t).settle
  unfold MovedOn at moved
  exact h.parts (by rw [moved]) (State.settle_cq _ _) (by rw [moved]) (WhPage.refl t).settle

/-! ### Counts, epochs and images -/

theorem dropRefs (h : Quiet s t) {tag : Nat} {os : List Obj} : Quiet s (t.dropRefs tag os) :=
  h.foldl fun _ _ hu => hu.same

theorem nextEpoch (h : Quiet s t) : Quiet s t.nextEpoch := h.same

theorem putSeq (h : Quiet s t) {n : Nat} {q : Seq} : Quiet s (t.putSeq n q) := devWrite h.same

theorem putImage (h : Quiet s t) {k : Nat} {im : Image} : Quiet s (t.putImage k im) := devWrite h.same

theorem newImage (h : Quiet s t) {n : Nat} {q : Seq} {im : Image} {gone : List Nat} : Quiet s (t.newImage n q im gone) :=
  h.nextEpoch.devWrite.putSeq.dropRefs

theorem swapImage (h : Quiet s t) {n : Nat} {q : Seq} {im : Image} {gone : List Nat} : Quiet s (t.swapImage n q im gone) :=
  h.devWrite.putSeq.dropRefs

theorem sealTail (h : Quiet s t) {n : Nat} : Quiet s (t.sealTail n) := either h.newImage h

theorem publishAppend (h : Quiet s t) {c : Cmd} : Quiet s (t.publishAppend c) :=
  either h ((h.nextEpoch.foldl fun _ _ hu => hu.swapImage).foldl fun _ _ hu => hu.sealTail)

theorem setObjCount (h : Quiet s t) {o : Obj} {n : Nat} : Quiet s (t.setObjCount o n) := by
  cases o <;> exact h.same

theorem unstage (h : Quiet s t) {os : List Obj} : Quiet s (t.unstage os) := by
  refine h.foldl fun u o hu => ?_
  cases o with
  | page p => exact (either (c := _ = 0) (same (same hu)) (same hu)).devWrite
  | block k => exact hu.same

/-! ### The lineage -/

theorem rewrite (h : Quiet s t) {old new : LinRec} : Quiet s (t.rewrite old new) := by
  refine either h ((either h h.hwr).foldl fun u i hu => ?_)
  split
  · exact either (either hu hu.hwr) (either hu hu.hwr).hwr
  · exact hu

theorem setRec (h : Quiet s t) {old new : LinRec} : Quiet s (t.setRec old new) := either h (rewrite h.same)

theorem coverSource (h : Quiet s t) {c : Cmd} : Quiet s (t.coverSource c) := by
  unfold State.coverSource
  split
  · extract_lets v
    split
    · exact h.setRec
    · exact h
  · exact h

theorem retireAll (h : Quiet s t) {n : Nat} : Quiet s (State.retireAll n t) := by
  induction n generalizing t with
  | zero => exact h
  | succ n ih =>
    unfold State.retireAll
    split
    · exact h
    · exact ih h.setRec

theorem settleLog (h : Quiet s t) : Quiet s t.settleLog :=
  (h.retireAll.foldl fun _ _ hu => hu.setRec).same

/-! ### The work behind a command -/

theorem idleNow (h : Quiet s t) {cl : Nat} : Quiet s (t.idleNow cl) := either h.same h

theorem clearClusters (h : Quiet s t) {q seq : Nat} : Quiet s (t.clearClusters q seq) :=
  foldl (same h) fun _ _ hu => hu.idleNow

theorem releaseWork (h : Quiet s t) {q seq : Nat} : Quiet s (t.releaseWork q seq) :=
  same (clearClusters (h.foldl (f := State.freeCore) fun _ _ hu => hu.same))

end Quiet

/-! ## Updates that leave the queues, and every group's state -/

/-- What a group's holder sees of it. -/
structure Group.Held (x y : Group) : Prop where
  state : y.state = x.state
  lock : y.lock = x.lock
  owner : y.owner = x.owner

/-- Neither time, command nor queue changes; every group keeps its state, its lock and its owner. -/
structure Passing (s t : State) : Prop where
  time : t.tm = s.tm
  cmds : t.cq.cmds = s.cq.cmds
  queues : t.cq.queues = s.cq.queues
  groups : ∀ g, (s.group g).Held (t.group g)

theorem Quiet.passing {s t : State} (h : Quiet s t) : Passing s t :=
  ⟨h.time, h.cmds, h.queues, fun g => by unfold State.group; rw [h.groups]; exact ⟨rfl, rfl, rfl⟩⟩

namespace Passing
variable {s t u : State}

theorem refl (s : State) : Passing s s := (Quiet.refl s).passing

theorem trans (h : Passing s t) (h' : Passing t u) : Passing s u :=
  ⟨h'.time.trans h.time, h'.cmds.trans h.cmds, h'.queues.trans h.queues, fun g =>
    ⟨(h'.groups g).state.trans (h.groups g).state, (h'.groups g).lock.trans (h.groups g).lock,
      (h'.groups g).owner.trans (h.groups g).owner⟩⟩

/-- An update that leaves time, commands, queues and groups whole. -/
theorem same (h : Passing s t) (time : u.tm = t.tm := by rfl) (cmds : u.cq.cmds = t.cq.cmds := by rfl)
    (queues : u.cq.queues = t.cq.queues := by rfl) (groups : u.wh.groups = t.wh.groups := by rfl) : Passing s u :=
  h.trans ⟨time, cmds, queues, fun g => by unfold State.group; rw [groups]; exact ⟨rfl, rfl, rfl⟩⟩

theorem quiet (h : Passing s t) (q : Quiet t u) : Passing s u := h.trans q.passing

theorem either {c : Prop} [Decidable c] {a b : State} (ha : Passing s a) (hb : Passing s b) : Passing s (if c then a else b) := by
  split
  · exact ha
  · exact hb

theorem foldl (h : Passing s t) {α : Type} {f : State → α → State} (step : ∀ u x, Passing s u → Passing s (f u x)) {l : List α} :
    Passing s (l.foldl f t) :=
  List.foldlRecOn (motive := Passing s) l f h fun u hu x _ => step u x hu

theorem setGroup (h : Passing s t) {g : Nat} {x : Group} (held : (t.group g).Held x) : Passing s (t.setGroup g x) :=
  h.trans ⟨rfl, rfl, rfl, fun k => by
    by_cases here : k = g
    · subst here
      rw [State.group_setGroup]
      exact held
    · rw [State.group_setGroup_ne _ _ _ _ here]
      exact ⟨rfl, rfl, rfl⟩⟩

theorem devWrite (h : Passing s t) {a : Nat} {d : List Byte} : Passing s (t.devWrite a d) := h.quiet (Quiet.refl t).devWrite

theorem hwr (h : Passing s t) {a : Nat} {d : List Byte} {w : HwrFor} : Passing s (t.hwr a d w) := h.quiet (Quiet.refl t).hwr

theorem histWrite (h : Passing s t) {g : Nat} {r : List Byte} : Passing s (t.histWrite g r) := by
  unfold State.histWrite
  extract_lets x base
  split
  · refine hwr (setGroup h ?_)
    exact ⟨rfl, rfl, rfl⟩
  · exact h

theorem putBranch (h : Passing s t) {k : Nat} {b : Branch} : Passing s (t.putBranch k b) := by
  have put_ : Passing s { t with wh.branches := put {} t.wh.branches k b } := h.same
  exact put_.devWrite

theorem dropEdits (h : Passing s t) {k : Nat} : Passing s (t.dropEdits k) := by
  unfold State.dropEdits
  extract_lets g x
  clear_value g
  refine setGroup h ?_
  exact ⟨rfl, rfl, rfl⟩

theorem freeBranch (h : Passing s t) {k : Nat} : Passing s (t.freeBranch k) := h.putBranch.dropEdits

theorem destroyBranch (h : Passing s t) {k : Nat} : Passing s (t.destroyBranch k) :=
  (h.quiet (Quiet.refl t).nextEpoch.dropRefs).freeBranch

theorem publishFork (h : Passing s t) {c : Cmd} : Passing s (t.publishFork c) := by
  unfold State.publishFork
  extract_lets g u v a w
  have made : Passing s v := (h.foldl fun _ _ hu => hu.destroyBranch).foldl fun _ _ hu => hu.putBranch
  have listed : Passing s w := either made (made.quiet (Quiet.refl v).devWrite)
  exact histWrite listed.same

theorem publishPrune (h : Passing s t) {c : Cmd} : Passing s (t.publishPrune c) := by
  unfold State.publishPrune
  extract_lets g u a w
  have freed : Passing s u := h.foldl fun _ _ hu => hu.destroyBranch
  have listed : Passing s w := either freed (freed.quiet (Quiet.refl u).devWrite)
  exact histWrite listed.same

theorem publishGroupStep (h : Passing s t) {c : Cmd} {g : Nat} : Passing s (t.publishGroupStep c g) := by
  unfold State.publishGroupStep
  extract_lets x es a r b y d
  have written : Passing s b := histWrite (h.foldl fun _ _ hu => hu.histWrite)
  have kept : Passing s d := written.setGroup ⟨rfl, rfl, rfl⟩
  exact either kept (kept.quiet ((Quiet.refl _).setInt (by decide)))

theorem publishStep (h : Passing s t) {c : Cmd} : Passing s (t.publishStep c) := by
  unfold State.publishStep
  extract_lets r d a b e f
  have returned : Passing s r.1 :=
    h.quiet ((Quiet.refl t).foldl (f := fun s o => s.setObjCount o 0) fun _ _ hu => hu.setObjCount).unstage
  have stepped : Passing s a := returned.foldl fun u e hu => by
    split
    · exact (hu.quiet (Quiet.refl _).putImage).putBranch
    · exact hu
  have tagged : Passing s b := (stepped.foldl fun _ _ hu => hu.quiet (Quiet.refl _).nextEpoch).quiet (Quiet.refl _).nextEpoch
  exact same (foldl (f := fun s g => s.publishGroupStep d g) (tagged.quiet (Quiet.refl _).dropRefs) fun _ _ hu => hu.publishGroupStep)

end Passing
end Sys2Proof.Machine
end

section
/-! SUPPORT. The order of a publication: PUBLISH, LINEAGE_SPACE_FREED and DESCRIPTOR_SWAP (R33, R34, R393, R394, R400), and O51. -/

namespace Sys2Proof.Machine

variable {s t : State} {c : Cmd} {q seq : Nat}

/-! ## PUBLISH -/

section
variable (on : s.runs 313 = true) (there : s.cmd? q seq = some c) (staged : c.stage = .staged)
include on there staged

omit on staged in
theorem State.publish_waits (waits : ¬(s.linkUp = true ∧ c.journalled = true ∧ s.earlierDone c = true ∧ s.fenceMet c.rec_ = true ∧
    s.swapPending c = false)) : s.publish q seq = s := by
  unfold State.publish
  rw [there]
  exact if_neg fun ⟨_, link, _, journal, earlier, fence, swap⟩ =>
    waits ⟨link, journal, earlier, fence, by simpa using swap⟩

theorem State.publish_writes (ready : s.linkUp = true ∧ c.journalled = true ∧ s.earlierDone c = true ∧ s.fenceMet c.rec_ = true ∧
    s.swapPending c = false) : s.publish q seq = s.writeLineage c := by
  obtain ⟨link, journal, earlier, fence, swap⟩ := ready
  unfold State.publish
  rw [there]
  exact if_pos ⟨on, link, staged, journal, earlier, fence, by rw [swap]; rfl⟩
end

/-- A layout that ends with a field of some bytes has some bytes. -/
theorem layout_some (len : Nat) (ps : List (Nat × Nat × Nat)) {p : Nat × Nat × Nat} (some_ : 0 < p.2.1) : layout len (ps ++ [p]) ≠ [] := by
  unfold layout
  rw [List.foldl_append, List.foldl_cons, List.foldl_nil]
  intro empty
  have none := congrArg List.length empty
  rw [List.length_append, List.length_append, toLE_length] at none
  simp at none
  omega

theorem LinRec.bytesOf_some (r : LinRec) : r.bytesOf ≠ [] := by
  have head : layout 64 ([(0, 8, r.index), (8, 2, r.q), (0xA, 2, r.ctx), (0xC, 4, r.seq), (0x10, 8, r.time),
    (0x18, 2, r.slots.length)] ++ [(0x1A, 1, r.flags)]) ≠ [] := layout_some _ _ Nat.one_pos
  unfold LinRec.bytesOf
  exact List.append_ne_nil_of_left_ne_nil (List.append_ne_nil_of_left_ne_nil (List.append_ne_nil_of_left_ne_nil head _) _) _

/-! What settling a context leaves of the counters and of the writes to host memory. -/

theorem State.yieldEnds_left (s : State) (ctx : Nat) : (s.yieldEnds ctx).hl.hwr = s.hl.hwr ∧ TraceLeft s (s.yieldEnds ctx) := by
  unfold State.yieldEnds
  extract_lets x u
  have traced : u.hl.hwr = s.hl.hwr ∧ TraceLeft s u := ⟨by
    have frame := s.trace_frame { type := 7, flags := 2, ctx := ctx, arg0 := x.saved.length, arg1 := x.savedBytes }
    unfold State.Traced at frame
    show (State.trace s _).hl.hwr = _
    rw [frame], (TraceLeft.refl s).trace _⟩
  split
  · split <;> exact ⟨traced.1, traced.2.same⟩
  · exact ⟨rfl, .refl s⟩

theorem State.settle_left (s : State) (ctx : Nat) : (s.settle ctx).hl.hwr = s.hl.hwr ∧ TraceLeft s (s.settle ctx) := by
  have ended := s.yieldEnds_left ctx
  unfold State.settle
  extract_lets u
  change u.hl.hwr = s.hl.hwr ∧ TraceLeft s u at ended
  have moved : ∀ x : Sc, ({ u with sc := x } : State).hl.hwr = s.hl.hwr ∧ TraceLeft s { u with sc := x } := fun x =>
    ⟨ended.1, ended.2.same⟩
  split
  · split
    · exact ended
    · exact moved _
  · split
    · split
      · exact moved _
      · exact ended
    · split
      · split <;> exact moved _
      · exact ended
    · split
      · exact ended
      · exact moved _
    · split
      · exact ended
      · exact moved _
    · exact ended

/-- The lineage record of command c, at offset off of the log. -/
def State.linRecord (s : State) (c : Cmd) (off : Nat) : LinRec :=
  let slots := s.slotsOf c s.cq.linNext
  { index := s.cq.linNext, q := c.q, ctx := c.ctx, seq := c.seq, time := s.tm.now, nondet := s.nondetOf c, retired := false
    rec_ := c.rec_, slots := slots, off := off, bytes := recordBytes slots.length }

/-- Record r of command c joins the log and is on its way to it. -/
def State.recordPlaced (s : State) (c : Cmd) (r : LinRec) : State :=
  let s := s.setCmd { c with stage := .lineage, lineIndex := r.index, waitsLog := false }
  let s : State := { s with
    cq.lineage := s.cq.lineage ++ [r], cq.linNext := r.index + 1, cq.linOff := r.off + r.bytes }
  (s.hwr (s.linBase + r.off) r.bytesOf (.lineage r.index)).addCnt C.LIN_CNT_RECORDS 1

theorem State.writeLineage_eq {off : Nat} (room : s.linPlace (recordBytes (s.slotsOf c s.cq.linNext).length) = some off) :
    s.writeLineage c = (s.recordPlaced c (s.linRecord c off)).settle c.ctx := by
  unfold State.writeLineage State.recordPlaced State.linRecord
  dsimp only
  rw [room]

theorem State.hwr_cnts (s : State) (a : Nat) (d : List Byte) (w : HwrFor) : (s.hwr a d w).rg.cnts = s.rg.cnts := by
  rw [State.hwr_frame]

theorem State.addCnt_leaves (s : State) (c : Cnt) (n : Nat) : (s.addCnt c n).cq = s.cq ∧ (s.addCnt c n).hl = s.hl := ⟨rfl, rfl⟩

/-- A lineage record placed in the log is on its way to it. -/
theorem State.recordPlaced_places (there : s.cmd? q seq = some c) (r : LinRec) :
    let t := (s.recordPlaced c r).settle c.ctx
    t.cmd? q seq = some { c with stage := .lineage, lineIndex := r.index, waitsLog := false } ∧
      t.cq.lineage = s.cq.lineage ++ [r] ∧
      t.cq.linNext = r.index + 1 ∧ t.cq.linOff = r.off + r.bytes ∧
      (∃ h ∈ t.hl.hwr, h.what = .lineage r.index) ∧
      t.cnt C.LIN_CNT_RECORDS = (s.cnt C.LIN_CNT_RECORDS + 1) % 2 ^ 64 ∧ t.kv = s.kv ∧ t.wh = s.wh ∧ t.tl = s.tl := by
  intro t
  let u : State := s.setCmd { c with stage := .lineage, lineIndex := r.index, waitsLog := false }
  let v : State := { u with cq.lineage := u.cq.lineage ++ [r], cq.linNext := r.index + 1, cq.linOff := r.off + r.bytes }
  have shape : t = ((v.hwr (v.linBase + r.off) r.bytesOf (.lineage r.index)).addCnt C.LIN_CNT_RECORDS 1).settle c.ctx := rfl
  clear_value t
  have set : u.cmd? q seq = some { c with stage := .lineage, lineIndex := r.index, waitsLog := false } := State.cmd_set there rfl rfl
  have sent := State.hwr_mem v (v.linBase + r.off) (.lineage r.index) r.bytesOf_some
  have cq_w := State.hwr_cq v (v.linBase + r.off) r.bytesOf (.lineage r.index)
  have kv_w := State.hwr_kv v (v.linBase + r.off) r.bytesOf (.lineage r.index)
  have wh_w := State.hwr_wh v (v.linBase + r.off) r.bytesOf (.lineage r.index)
  have tl_w := State.hwr_tl v (v.linBase + r.off) r.bytesOf (.lineage r.index)
  have cnts_w := State.hwr_cnts v (v.linBase + r.off) r.bytesOf (.lineage r.index)
  have lineage : v.cq.lineage = s.cq.lineage ++ [r] ∧ v.cq.linNext = r.index + 1 ∧ v.cq.linOff = r.off + r.bytes ∧
      v.kv = s.kv ∧ v.wh = s.wh ∧ v.tl = s.tl ∧ v.rg = s.rg := ⟨rfl, rfl, rfl, rfl, rfl, rfl, rfl⟩
  have set_v : v.cmd? q seq = some { c with stage := .lineage, lineIndex := r.index, waitsLog := false } := set
  generalize v.hwr (v.linBase + r.off) r.bytesOf (.lineage r.index) = w at *
  clear_value v
  obtain ⟨lineage, next, off, kv_v, wh_v, tl_v, rg_v⟩ := lineage
  have moved : MovedOn w ((w.addCnt C.LIN_CNT_RECORDS 1).settle c.ctx) := (MovedOn.refl w).addCnt.settle
  obtain ⟨kv, wh, tl⟩ := moved.apart
  obtain ⟨hwr, left⟩ := (w.addCnt C.LIN_CNT_RECORDS 1).settle_left c.ctx
  have count : (w.addCnt C.LIN_CNT_RECORDS 1).cnt C.LIN_CNT_RECORDS = (s.cnt C.LIN_CNT_RECORDS + 1) % 2 ^ 64 := by
    refine (State.cnt_addCnt _ _ _ _ _).trans ?_
    unfold State.cnt
    rw [cnts_w, rg_v]
  obtain ⟨cq_x, hwr_x⟩ := w.addCnt_leaves C.LIN_CNT_RECORDS 1
  generalize w.addCnt C.LIN_CNT_RECORDS 1 = x at *
  have kept : (x.settle c.ctx).cnt C.LIN_CNT_RECORDS = x.cnt C.LIN_CNT_RECORDS := left.cnts _ (by decide)
  have cq : (x.settle c.ctx).cq = v.cq := (State.settle_cq _ _).trans (cq_x.trans cq_w)
  rw [shape]
  refine ⟨?_, by rw [cq, lineage], by rw [cq, next], by rw [cq, off], by rw [hwr, hwr_x]; exact sent,
    kept.trans count, kv.trans (kv_w.trans kv_v), wh.trans (wh_w.trans wh_v), tl.trans (tl_w.trans tl_v)⟩
  unfold State.cmd? at set_v ⊢
  rw [cq]
  exact set_v

theorem State.writeLineage_waits (there : s.cmd? q seq = some c)
    (full : s.linPlace (recordBytes (s.slotsOf c s.cq.linNext).length) = none) (first : c.waitsLog = false) :
    let t := s.writeLineage c
    t.cmd? q seq = some { c with waitsLog := true } ∧
      t.fld F.Q_INT_STATUS.LINEAGE_FULL = 1 ∧ Raised s t 0x0302 1 0 ∧ t.cq.lineage = s.cq.lineage ∧ t.mm = s.mm ∧
      t.kv = s.kv ∧ t.wh = s.wh ∧ t.tl = s.tl := by
  have set : (s.setCmd { c with waitsLog := true }).cmd? q seq = some { c with waitsLog := true } := State.cmd_set there rfl rfl
  let u := (s.setCmd { c with waitsLog := true }).raise 0x0302 1 0 0 c.ctx c.q c.seq
  have shape : s.writeLineage c = u.setInt F.Q_INT_STATUS.LINEAGE_FULL := by
    unfold State.writeLineage
    dsimp only
    rw [full]
    exact if_neg (ne_true_of_eq_false first)
  obtain ⟨e, he, what⟩ : Raised s u 0x0302 1 0 := (s.setCmd { c with waitsLog := true }).raise_raised 0x0302 1 0 0 _ _ _ _
  dsimp only
  rw [shape]
  have cq : (u.setInt F.Q_INT_STATUS.LINEAGE_FULL).cq = u.cq := State.setInt_cq _ _ _
  refine ⟨?_, State.fld_setInt _ _ _, ⟨e, by rw [State.setInt_er]; exact he, what⟩, by rw [cq]; rfl, State.setInt_mm _ _ _,
    State.setInt_kv _ _ _, State.setInt_wh _ _ _, State.setInt_tl _ _ _⟩
  unfold State.cmd? at set ⊢
  rw [cq]
  exact set

/-- With no command that waits for the log, its oldest retired records are freed and nothing else happens. -/
theorem State.lineageSpaceFreed_frees (on : s.runs 313 = true) (none : s.cq.cmds.all (fun c => !c.waitsLog) = true) :
    s.lineageSpaceFreed = { s with cq.lineage := freeOldest s.cq.lineage } := by
  have nobody : s.freeLog.cq.cmds.find? (fun c => c.waitsLog) = .none := by
    refine List.find?_eq_none.mpr fun c hc => ?_
    simpa using List.all_eq_true.mp none c hc
  unfold State.lineageSpaceFreed
  rw [if_pos on]
  dsimp only
  rw [nobody]
  rfl

/-! ## The end of a command -/

theorem State.due_leaves (s : State) {n m : Nat} (d : Done) (other : m ≠ n) : (s.due n d).queue m = s.queue m ∧ (s.due n d).tm = s.tm := by
  let u := s.setQueue n { s.queue n with done := (s.queue n).done ++ [d] }
  have there : u.queue m = s.queue m := look_put_ne _ _ _ other
  have shape : s.due n d = u.pumpQueue n := rfl
  rw [shape, ← there, show s.tm = u.tm from rfl]
  clear_value u
  unfold State.pumpQueue
  dsimp only
  split
  · exact ⟨rfl, rfl⟩
  · split
    · exact ⟨rfl, rfl⟩
    · unfold State.queue
      rw [State.hwr_cq, State.hwr_tm]
      exact ⟨look_put_ne _ _ _ other, rfl⟩

/-- Group x once command (q, seq) has let go of it. -/
def Group.unlocked (x : Group) (q seq : Nat) : Group :=
  if x.lock = some (q, seq) then { x with lock := none, state := if x.state = 2 then 1 else x.state } else x

theorem State.group_unlockGroups (s : State) (q seq g : Nat) : (s.unlockGroups q seq).group g = (s.group g).unlocked q seq := by
  have same : s.wh.groups.map (fun e =>
      if e.2.lock = some (q, seq) then (e.1, { e.2 with lock := none, state := if e.2.state = 2 then 1 else e.2.state }) else e) =
      s.wh.groups.map (fun e => (e.1, e.2.unlocked q seq)) := by
    refine List.map_congr_left fun e _ => ?_
    unfold Group.unlocked
    split <;> rfl
  unfold State.unlockGroups State.group
  dsimp only
  rw [same]
  exact look_map_snd (fun x : Group => x.unlocked q seq) rfl _ g

/-- The state of command c's end, before its completion record falls due. -/
def State.ended (s : State) (c : Cmd) (status : Nat) : State :=
  let s := ((s.releaseWork c.q c.seq).unlockGroups c.q c.seq).draw.2
  let s := s.dropCmd c.q c.seq
  let s := if status = 0 then (s.addCnt C.Q_CNT_PUBLISHED 1).addCnt C.CL_CNT_PUBLISHED 1 0 c.client
    else s.addCnt C.Q_CNT_NO_EFFECT 1
  let s := if bit c.cflags 3 then s.addCnt C.Q_CNT_REEXECUTED 1 else s
  s.trace { type := 3, ctx := c.ctx, q := c.q, seq := c.seq, arg0 := status, arg1 := c.cflags }

theorem State.ended_leaves (s : State) (c : Cmd) (status : Nat) :
    let t := s.ended c status
    t.tm = s.tm ∧ t.cmd? c.q c.seq = none ∧ t.cq.queues = s.cq.queues ∧ t.wh.branches = s.wh.branches ∧
      ∀ g, t.group g = (s.group g).unlocked c.q c.seq := by
  unfold State.ended
  extract_lets a b d e
  have freed := (Quiet.refl s).releaseWork (q := c.q) (seq := c.seq)
  have groups : ∀ g, a.group g = (s.group g).unlocked c.q c.seq := fun g => by
    refine ((s.releaseWork c.q c.seq).group_unlockGroups c.q c.seq g).trans ?_
    unfold State.group
    rw [freed.groups]
  have a_tm : a.tm = s.tm := freed.time
  have a_queues : a.cq.queues = s.cq.queues := freed.queues
  have a_branches : a.wh.branches = s.wh.branches := freed.branches
  clear_value a
  have b_cmd : b.cmd? c.q c.seq = none := State.cmd?_dropCmd _ _ _
  have d_same : d.tm = b.tm ∧ d.cq = b.cq ∧ d.wh = b.wh := by
    simp only [d]
    split <;> exact ⟨rfl, rfl, rfl⟩
  have e_same : e.tm = b.tm ∧ e.cq = b.cq ∧ e.wh = b.wh := by
    simp only [e]
    split <;> exact d_same
  obtain ⟨tm, cq, wh⟩ := e_same
  refine ⟨(State.trace_tm _ _).trans (tm.trans a_tm), ?_, ?_, ?_, fun g => ?_⟩
  · unfold State.cmd? at b_cmd ⊢
    rw [State.trace_cq, cq]
    exact b_cmd
  · rw [State.trace_cq, cq]
    exact a_queues
  · rw [State.trace_wh, wh]
    exact a_branches
  · rw [← groups g]
    unfold State.group
    rw [State.trace_wh, wh]
    rfl

theorem State.complete_completes (s : State) (c : Cmd) (status result : Nat) :
    let t := s.complete c status result
    t.cmd? c.q c.seq = none ∧
      (∃ d ∈ (t.queue c.q).done, d.seq = c.seq ∧ d.status = status ∧ d.tag = recTag c.rec_ ∧ d.flags = c.cflags ∧ d.time = s.tm.now ∧
        d.result = result) ∧
      (∀ m, m ≠ c.q → t.queue m = s.queue m) ∧ t.wh.branches = s.wh.branches ∧ ∀ g, t.group g = (s.group g).unlocked c.q c.seq := by
  obtain ⟨tm, gone, queues, branches, groups⟩ := s.ended_leaves c status
  intro t
  obtain ⟨d, shape, fields⟩ : ∃ d : Done, t = ((s.ended c status).due c.q d).settle c.ctx ∧ d.seq = c.seq ∧ d.status = status ∧
      d.tag = recTag c.rec_ ∧ d.flags = c.cflags ∧ d.time = (s.ended c status).tm.now ∧ d.result = result :=
    ⟨_, rfl, rfl, rfl, rfl, rfl, rfl, rfl⟩
  clear_value t
  generalize s.ended c status = e at *
  obtain ⟨⟨w, own⟩, cmds, -, wh, -⟩ := e.due_adds c.q d
  have others := fun m (other : m ≠ c.q) => (e.due_leaves d other).1
  generalize e.due c.q d = u at *
  have settled := (Quiet.refl u).settle (ctx := c.ctx)
  rw [← shape] at settled
  have queue_t : ∀ m, t.queue m = u.queue m := fun m => by unfold State.queue; rw [settled.queues]
  have queue_e : ∀ m, e.queue m = s.queue m := fun m => by unfold State.queue; rw [queues]
  refine ⟨?_, ⟨d, ?_, ?_⟩, fun m other => ?_, ?_, fun g => ?_⟩
  · unfold State.cmd? at gone ⊢
    rw [settled.cmds, cmds]
    exact gone
  · rw [queue_t, own]
    exact List.mem_append_right _ (List.mem_singleton_self _)
  · rw [← tm]
    exact fields
  · rw [queue_t, others m other, queue_e]
  · rw [settled.branches, wh, branches]
  · rw [← groups g]
    unfold State.group
    rw [settled.groups, wh]

/-! ## What a publication does to groups and branches -/

theorem State.histWrite_branches (s : State) (g : Nat) (r : List Byte) : (s.histWrite g r).wh.branches = s.wh.branches := by
  unfold State.histWrite
  extract_lets x base
  split
  · rw [State.hwr_wh]
    rfl
  · rfl

theorem State.branch_putBranch (s : State) (g b : Nat) (x : Branch) : (s.putBranch (branchKey g b) x).branch g b = x := by
  unfold State.branch
  generalize branchKey g b = k
  unfold State.putBranch
  extract_lets wh u
  rw [State.devWrite_wh]
  exact look_put_self _ _ _ _

/-- An OPEN makes its group and the group's root branch (R393). -/
theorem State.publishOpen_opens (s : State) (c : Cmd) :
    let t := s.publishOpen c
    (t.group (c.groups.headD 0)).state = 1 ∧ (t.group (c.groups.headD 0)).owner = c.ctx ∧ (t.branch (c.groups.headD 0) 0).state = 1 ∧
      t.tm = s.tm ∧ t.cq.cmds = s.cq.cmds ∧ t.cq.queues = s.cq.queues := by
  unfold State.publishOpen
  extract_lets g n x k im u v image w t
  have opened : u.group g = s.openedGroup c x k := State.group_setGroup _ _ _
  have root : v.branch g 0 = _ := State.branch_putBranch _ _ _ _
  have first : Passing u v := ((Passing.refl u).quiet (Quiet.refl u).putImage).putBranch
  have sealed : Quiet v w := .either (Quiet.refl v).nextEpoch.putSeq (Quiet.refl v).newImage
  have whole : Passing u t := (first.quiet sealed).histWrite
  have branches : t.wh.branches = v.wh.branches := (State.histWrite_branches _ _ _).trans sealed.branches
  obtain ⟨state, -, owner⟩ := whole.groups g
  refine ⟨state.trans (by rw [opened]; rfl), owner.trans (by rw [opened]; rfl), ?_, whole.time, whole.cmds, whole.queues⟩
  have same : t.branch g 0 = v.branch g 0 := by
    unfold State.branch
    rw [branches]
  rw [same, root]

/-- A CLOSE leaves its group free. -/
theorem State.publishClose_closes (s : State) (c : Cmd) :
    let t := s.publishClose c
    (t.group (c.groups.headD 0)).state = 0 ∧ t.tm = s.tm ∧ t.cq.cmds = s.cq.cmds ∧ t.cq.queues = s.cq.queues := by
  unfold State.publishClose State.closeGroup
  extract_lets g x live v w
  have destroyed : Passing s v := ((Passing.refl s).histWrite).foldl fun _ _ hu => hu.destroyBranch
  have returned : Passing s w := by
    simp only [w]
    split
    · exact destroyed.quiet (Quiet.refl v).dropRefs
    · exact destroyed
  exact ⟨congrArg Group.state (State.group_setGroup _ _ _), returned.time, returned.cmds, returned.queues⟩

/-- The state with the command's outputs swapped into its descriptors. -/
def State.outputsSwapped (s : State) (c : Cmd) : State :=
  let s := s.keepOld c
  let slots := match s.cq.lineage.find? (fun r => r.index == c.lineIndex) with | some r => r.slots | none => []
  slots.foldl (fun s x => if x.out then s.devWrite x.desc x.img else s) s

theorem State.outputsSwapped_quiet (s : State) (c : Cmd) : Quiet s (s.outputsSwapped c) := by
  unfold State.outputsSwapped
  extract_lets a slots
  have kept : Quiet s a := (Quiet.refl s).same
  exact kept.foldl fun _ _ hu => .either hu.devWrite hu

/-- What is staged by a command is staged no more, and a checkpoint covers its source. -/
def State.workKept (s : State) (c : Cmd) : State :=
  (s.unstage (c.work.taken.filter (fun o => !c.work.stepDrops.contains o))).coverSource c

theorem State.workKept_quiet (s : State) (c : Cmd) : Quiet s (s.workKept c) := (Quiet.refl s).unstage.coverSource

theorem State.publishEffects_open (s : State) {c : Cmd} (kind : c.kind = .open_) :
    s.publishEffects c = ((s.outputsSwapped c).publishOpen c).workKept c := by
  cases c
  cases kind
  rfl

theorem State.publishEffects_close (s : State) {c : Cmd} (kind : c.kind = .close) :
    s.publishEffects c = ((s.outputsSwapped c).publishClose c).workKept c := by
  cases c
  cases kind
  rfl

/-- Every other command leaves its groups' states, locks and owners. -/
theorem State.publishEffects_passing (s : State) {c : Cmd} (opens : c.kind ≠ .open_) (closes : c.kind ≠ .close) :
    Passing s (s.publishEffects c) := by
  have swapped := (s.outputsSwapped_quiet c).passing
  have kept : ∀ u, Passing s u → Passing s (u.workKept c) := fun u hu => hu.quiet (u.workKept_quiet c)
  unfold State.publishEffects
  extract_lets a slots b d e
  change Passing s b at swapped
  refine kept d ?_
  simp only [d]
  split
  next kind => exact absurd kind opens
  next => exact swapped.publishStep
  next => exact swapped.publishFork
  next => exact swapped.publishPrune
  next kind => exact absurd kind closes
  next => exact swapped.quiet (Quiet.refl b).publishAppend
  next => exact swapped

theorem State.publishEffects_steady (s : State) (c : Cmd) :
    let t := s.publishEffects c
    t.tm = s.tm ∧ t.cq.cmds = s.cq.cmds ∧ t.cq.queues = s.cq.queues := by
  have swapped := s.outputsSwapped_quiet c
  by_cases opens : c.kind = .open_
  · rw [s.publishEffects_open opens]
    obtain ⟨-, -, -, tm, cmds, queues⟩ := (s.outputsSwapped c).publishOpen_opens c
    have kept := ((s.outputsSwapped c).publishOpen c).workKept_quiet c
    exact ⟨kept.time.trans (tm.trans swapped.time), kept.cmds.trans (cmds.trans swapped.cmds),
      kept.queues.trans (queues.trans swapped.queues)⟩
  · by_cases closes : c.kind = .close
    · rw [s.publishEffects_close closes]
      obtain ⟨-, tm, cmds, queues⟩ := (s.outputsSwapped c).publishClose_closes c
      have kept := ((s.outputsSwapped c).publishClose c).workKept_quiet c
      exact ⟨kept.time.trans (tm.trans swapped.time), kept.cmds.trans (cmds.trans swapped.cmds),
        kept.queues.trans (queues.trans swapped.queues)⟩
    · have passed := s.publishEffects_passing opens closes
      exact ⟨passed.time, passed.cmds, passed.queues⟩

/-! ## DESCRIPTOR_SWAP -/

theorem Group.unlocked_open {x : Group} (open_ : x.state = 1) (q seq : Nat) : (x.unlocked q seq).state = 1 := by
  unfold Group.unlocked
  split
  · simp [open_]
  · exact open_

theorem Group.unlocked_owner (x : Group) (q seq : Nat) : (x.unlocked q seq).owner = x.owner := by
  unfold Group.unlocked
  split <;> rfl

theorem Group.unlocked_free {x : Group} (free : x.state = 0) (q seq : Nat) : (x.unlocked q seq).state = 0 := by
  unfold Group.unlocked
  split
  · simp [free]
  · exact free

theorem Group.unlocked_busy {x : Group} {q seq : Nat} (lock : x.lock = some (q, seq)) (busy : x.state = 2) :
    (x.unlocked q seq).state = 1 ∧ (x.unlocked q seq).lock = none := by
  unfold Group.unlocked
  rw [if_pos lock]
  simp [busy]

theorem State.descriptorSwap_swaps (on : s.runs 313 = true) (there : s.cmd? q seq = some c) (stage : c.stage = .lineage)
    (written : s.hl.hwr.all (fun h => h.what ≠ .lineage c.lineIndex) = true) :
    s.descriptorSwap q seq = ((s.publishEffects c).complete { c with stage := .finished } 0
      ((s.publishEffects c).resultOf c)).settleLog := by
  unfold State.descriptorSwap
  rw [there]
  exact if_pos ⟨on, stage, written⟩

theorem State.resultOf_move (s : State) {c : Cmd} (kind : c.kind = .move ∨ c.kind = .checkpoint) : s.resultOf c = c.result :=
  if_pos kind

theorem descriptorSwap_publishes (on : s.runs 313 = true) (there : s.cmd? q seq = some c) (stage : c.stage = .lineage)
    (written : s.hl.hwr.all (fun h => h.what ≠ .lineage c.lineIndex) = true) :
    let t := s.descriptorSwap q seq
    t.cmd? q seq = none ∧
      (∃ d ∈ (t.queue c.q).done, d.seq = c.seq ∧ d.status = 0 ∧ d.tag = recTag c.rec_ ∧ d.flags = c.cflags ∧
        d.time = s.tm.now ∧ (c.kind = .move ∨ c.kind = .checkpoint → d.result = c.result)) ∧
      (∀ m, m ≠ c.q → t.queue m = s.queue m) ∧
      (c.kind = .open_ → (t.group (c.groups.headD 0)).state = 1 ∧ (t.group (c.groups.headD 0)).owner = c.ctx ∧
        (t.branch (c.groups.headD 0) 0).state = 1) ∧
      (c.kind = .close → (t.group (c.groups.headD 0)).state = 0) ∧
      (∀ g, c.kind = .step ∨ c.kind = .fork ∨ c.kind = .prune → (s.group g).lock = some (c.q, c.seq) →
        (s.group g).state = 2 → (t.group g).state = 1 ∧ (t.group g).lock = none) := by
  obtain ⟨rfl, rfl⟩ := s.cmd?_key _ _ _ there
  intro t
  have shape : t = _ := State.descriptorSwap_swaps on there stage written
  clear_value t
  obtain ⟨tm, cmds, queues⟩ := s.publishEffects_steady c
  have opened := s.publishEffects_open (c := c)
  have closed := s.publishEffects_close (c := c)
  have passed := s.publishEffects_passing (c := c)
  have result := (s.publishEffects c).resultOf_move (c := c)
  generalize s.publishEffects c = p at *
  obtain ⟨gone, ⟨d, due, fields⟩, others, branches, groups⟩ :=
    p.complete_completes { c with stage := .finished } 0 (p.resultOf c)
  generalize p.complete _ 0 (p.resultOf c) = u at *
  have logged : Quiet u t := shape ▸ (Quiet.refl u).settleLog
  have queue_t : ∀ m, t.queue m = u.queue m := fun m => by unfold State.queue; rw [logged.queues]
  have group_t : ∀ g, t.group g = (p.group g).unlocked c.q c.seq := fun g => by
    rw [← groups g]
    unfold State.group
    rw [logged.groups]
  have branches_t : t.wh.branches = p.wh.branches := logged.branches.trans branches
  obtain ⟨seq_d, status, tag, flags, time, result_d⟩ := fields
  refine ⟨?_, ⟨d, queue_t _ ▸ due, seq_d, status, tag, flags, time.trans (by rw [tm]), fun kind => result_d.trans (result kind)⟩,
    fun m other => ?_, fun kind => ?_, fun kind => ?_, fun g kind lock busy => ?_⟩
  · unfold State.cmd? at gone ⊢
    rw [logged.cmds]
    exact gone
  · rw [queue_t, others m other]
    unfold State.queue
    rw [queues]
  · obtain ⟨state, owner, root, -⟩ := (s.outputsSwapped c).publishOpen_opens c
    have kept := ((s.outputsSwapped c).publishOpen c).workKept_quiet c
    rw [← opened kind] at kept
    have group_p : p.group = ((s.outputsSwapped c).publishOpen c).group := by unfold State.group; rw [kept.groups]
    rw [group_t, group_p]
    refine ⟨Group.unlocked_open state _ _, (Group.unlocked_owner _ _ _).trans owner, ?_⟩
    unfold State.branch at root ⊢
    rw [branches_t, kept.branches]
    exact root
  · obtain ⟨state, -⟩ := (s.outputsSwapped c).publishClose_closes c
    have kept := ((s.outputsSwapped c).publishClose c).workKept_quiet c
    rw [← closed kind] at kept
    have group_p : p.group = ((s.outputsSwapped c).publishClose c).group := by unfold State.group; rw [kept.groups]
    rw [group_t, group_p]
    exact Group.unlocked_free state _ _
  · obtain ⟨state_p, lock_p, -⟩ := (passed (by rcases kind with k | k | k <;> rw [k] <;> decide)
      (by rcases kind with k | k | k <;> rw [k] <;> decide)).groups g
    rw [group_t]
    exact Group.unlocked_busy (lock_p.trans lock) (state_p.trans busy)

/-- Settles O51: a publication waits, or places its lineage record; what its effects leave is told by `Quiet` and `Passing`. -/
theorem publication : Obligations.Publication := by
  intro s on
  refine ⟨fun q seq c there staged => ⟨fun waits => ?_, fun off ready room => ?_, fun ready full first => ?_⟩, fun none => ?_,
    fun q seq c there stage written => ⟨_, rfl, descriptorSwap_publishes on there stage written⟩⟩
  · exact congrArg Host.Outcome.next (State.publish_waits there waits)
  · have ran : exec (.publish q seq) s = .next (s.publish q seq.toNat) := rfl
    rw [State.publish_writes on there staged ready, State.writeLineage_eq room] at ran
    exact ⟨_, ran, State.recordPlaced_places there (s.linRecord c off)⟩
  · have ran : exec (.publish q seq) s = .next (s.publish q seq.toNat) := rfl
    rw [State.publish_writes on there staged ready] at ran
    exact ⟨_, ran, State.writeLineage_waits there full first⟩
  · exact ⟨_, rfl, State.lineageSpaceFreed_frees on none⟩

end Sys2Proof.Machine
end

section
/-! SUPPORT. The tests before a wellhead command (R41, R54, R74), what a start engages, and what a command without effect leaves. -/

namespace Sys2Proof.Machine

variable {s t : State} {c d : Cmd} {q seq : Nat}

namespace Quiet

theorem hold (h : Quiet s t) {tag : Nat} {o : Obj} : Quiet s (t.hold tag o) := either h.same h.same

theorem applyRef (h : Quiet s t) {u : RefUpd} : Quiet s (t.applyRef u) := by
  unfold State.applyRef
  extract_lets n m v
  have counted : Quiet s v := h.setObjCount
  exact either counted.hold counted

theorem addRefs (h : Quiet s t) {os : List Obj} {n : Nat} : Quiet s (t.addRefs os n) := h.foldl fun _ _ hu => hu.applyRef

theorem unrelease (h : Quiet s t) {os : List Obj} : Quiet s (t.unrelease os) := h.foldl fun _ _ hu => hu.applyRef.same

theorem endAppend (h : Quiet s t) {c : Cmd} : Quiet s (t.endAppend c) := h.foldl fun _ _ hu => either hu.putSeq.sealTail hu

end Quiet

/-! ## A command that ends without effect -/

/-- What a command has made is discarded: the command is to start anew. -/
theorem State.discard_discards (there : s.cmd? q seq = some d) (q_c : c.q = d.q) (seq_c : c.seq = d.seq) :
    let t := s.discard c
    (∃ x, t.cmd? q seq = some x ∧ x.q = c.q ∧ x.seq = c.seq ∧ x.rec_ = c.rec_) ∧ t.wh.branches = s.wh.branches ∧
      WhPage s t := by
  unfold State.discard
  extract_lets a b e f g client h i x
  have freed : Quiet s a := (Quiet.refl s).releaseWork
  have returned : Quiet s e := (freed.foldl (f := fun s o => s.setObjCount o 0) fun _ _ hu => hu.setObjCount).unstage
  have counted : Quiet s f := returned.foldl fun _ _ hu => hu.applyRef
  have whole : Quiet s i := counted.unrelease.endAppend.same
  refine ⟨⟨_, State.cmd_set (c := d) ?_ q_c seq_c, rfl, rfl, rfl⟩, whole.branches, whole.page⟩
  unfold State.cmd? at there ⊢
  rw [whole.cmds]
  exact there

theorem State.ended_page (s : State) (c : Cmd) (status : Nat) : WhPage s (s.ended c status) := by
  unfold State.ended
  extract_lets a b d e
  have released : WhPage s b := (Quiet.refl s).releaseWork.page.same
  have counted : WhPage s d := .either released.addCnt.addCnt released.addCnt
  have reexecuted : WhPage s e := .either counted.addCnt counted
  exact reexecuted.trace _

theorem State.complete_page (s : State) (c : Cmd) (status result : Nat) : WhPage s (s.complete c status result) := by
  obtain ⟨d, shape⟩ : ∃ d : Done, s.complete c status result = ((s.ended c status).due c.q d).settle c.ctx := ⟨_, rfl⟩
  obtain ⟨-, -, -, -, -, -, -, -, fields, -⟩ := (s.ended c status).due_adds c.q d
  rw [shape]
  exact ((s.ended_page c status).same fields).settle

/-- A command without effect leaves the device: its completion record, with the status, falls due. -/
theorem State.noEffect_ends (there : s.cmd? q seq = some d) (q_c : c.q = d.q) (seq_c : c.seq = d.seq) (status : Nat) :
    let t := s.noEffect c status
    t.cmd? q seq = none ∧
      (∃ d ∈ (t.queue c.q).done, d.seq = c.seq ∧ d.status = status ∧ d.tag = recTag c.rec_) ∧ t.wh.branches = s.wh.branches ∧
      WhPage s t := by
  obtain ⟨q_d, seq_d⟩ := s.cmd?_key _ _ _ there
  have q_k : c.q = q := q_c.trans q_d
  have seq_k : c.seq = seq := seq_c.trans seq_d
  obtain ⟨⟨x, hx, q_x, seq_x, rec_x⟩, branches, page⟩ := State.discard_discards (s := s.disengage c) (c := c) there q_c seq_c
  intro t
  have shape : t = ((s.disengage c).discard c).complete { x with cflags := c.cflags } status 0 := by
    show s.noEffect c status = _
    unfold State.noEffect
    dsimp only
    rw [q_k, seq_k, hx]
  have page_t : WhPage s t := by
    rw [shape]
    exact ((WhPage.refl s).same.trans page).trans (State.complete_page _ _ _ _)
  clear_value t
  have completed := ((s.disengage c).discard c).complete_completes { x with cflags := c.cflags } status 0
  rw [← shape] at completed
  obtain ⟨gone, ⟨y, due, seq_y, status_y, tag, -⟩, -, branches_t, -⟩ := completed
  have gone' : t.cmd? x.q x.seq = none := gone
  have due' : y ∈ (t.queue x.q).done := due
  rw [q_x, seq_x, q_k, seq_k] at gone'
  rw [q_x] at due'
  exact ⟨gone', ⟨y, due', seq_y.trans seq_x, status_y, tag.trans (congrArg recTag rec_x)⟩, branches_t.trans branches, page_t⟩

/-! ## The tests look at the wellhead alone -/

section
variable (wh : t.wh = s.wh)
include wh

theorem State.group_of_wh : t.group = s.group := by unfold State.group; rw [wh]
theorem State.branch_of_wh : t.branch = s.branch := by unfold State.branch; rw [wh]
theorem State.liveAll_of_wh : t.liveAll = s.liveAll := by unfold State.liveAll; rw [wh]
theorem State.histFull_of_wh : t.histFull = s.histFull := by unfold State.histFull; rw [State.group_of_wh wh]
theorem State.stepRecords_of_wh : t.stepRecords = s.stepRecords := by
  unfold State.stepRecords
  rw [State.group_of_wh wh, State.branch_of_wh wh]
theorem State.openFor_of_wh : t.openFor = s.openFor := by unfold State.openFor; rw [State.group_of_wh wh]
theorem State.wbranch_of_wh : t.wbranch = s.wbranch := by unfold State.wbranch; rw [wh]
theorem State.indicesIn_of_wh : t.indicesIn = s.indicesIn := by
  unfold State.indicesIn
  rw [State.group_of_wh wh, State.wbranch_of_wh wh]

theorem State.whTest_of_wh (born : t.bornPending c = s.bornPending c)
    (root : c.kind = .open_ → t.rootSeq? c = s.rootSeq? c ∧ t.badRoot c = s.badRoot c) : t.whTest c = s.whTest c := by
  unfold State.whTest
  rw [State.group_of_wh wh, State.branch_of_wh wh, State.liveAll_of_wh wh, State.histFull_of_wh wh, State.stepRecords_of_wh wh,
    State.openFor_of_wh wh, State.indicesIn_of_wh wh, born]
  dsimp only
  split
  next kind => rw [(root kind).1, (root kind).2]
  all_goals rfl
end

theorem State.bornPending_setCmd {x : Cmd} (q_x : x.q = c.q) (seq_x : x.seq = c.seq) :
    (s.setCmd x).bornPending c = s.bornPending c := by
  have others : (s.setCmd x).cq.cmds.filter (fun d => d.begun && !(d.q == c.q && d.seq == c.seq)) =
      s.cq.cmds.filter (fun d => d.begun && !(d.q == c.q && d.seq == c.seq)) := by
    show (s.cq.cmds.map (fun d => if d.q == x.q && d.seq == x.seq then x else d)).filter _ = _
    rw [q_x, seq_x]
    generalize s.cq.cmds = l
    induction l with
    | nil => rfl
    | cons d l ih =>
      by_cases key : (d.q == c.q && d.seq == c.seq) = true
      · rw [List.map_cons, if_pos key, List.filter_cons_of_neg (by simp [q_x, seq_x]), List.filter_cons_of_neg (by rw [key]; simp), ih]
      · rw [List.map_cons, if_neg key, List.filter_cons, List.filter_cons, ih]
  unfold State.bornPending
  rw [others]

end Sys2Proof.Machine
end

section
/-! SUPPORT. The start of a wellhead command (R38, R39, R54, R62, R63, R67 to R69), and O52. -/

namespace Sys2Proof.Machine

variable {s t : State} {c d : Cmd} {q seq : Nat}

/-! ## The groups locked -/

/-- Group x locked by command c. -/
def Group.busy (x : Group) (c : Cmd) : Group := { x with state := 2, lock := some (c.q, c.seq) }

theorem State.lockAll_locks (s : State) (c : Cmd) (gs : List Nat) :
    let t := gs.foldl (fun s g => s.setGroup g { (s.group g) with state := 2, lock := some (c.q, c.seq) }) s
    t = { s with wh.groups := t.wh.groups } ∧ (∀ g ∈ gs, t.group g = (s.group g).busy c) ∧ ∀ g, g ∉ gs → t.group g = s.group g := by
  induction gs generalizing s with
  | nil => exact ⟨rfl, fun g hg => (List.not_mem_nil hg).elim, fun _ _ => rfl⟩
  | cons g gs ih =>
    obtain ⟨frame, locked, others⟩ := ih (s.setGroup g { (s.group g) with state := 2, lock := some (c.q, c.seq) })
    rw [List.foldl_cons]
    refine ⟨frame, fun h hh => ?_, fun h hh => ?_⟩
    · by_cases again : h ∈ gs
      · rw [locked h again]
        by_cases here : h = g
        · subst here
          rw [State.group_setGroup]
          rfl
        · rw [State.group_setGroup_ne _ _ _ _ here]
      · obtain rfl : h = g := (List.mem_cons.mp hh).resolve_right again
        rw [others h again, State.group_setGroup]
        rfl
    · obtain ⟨other, out⟩ : h ≠ g ∧ h ∉ gs := by simpa using hh
      rw [others h out, State.group_setGroup_ne _ _ _ _ other]

/-! ## What a start engages -/

theorem State.readCisterns_leaves (s : State) (c : Cmd) :
    let t := s.readCisterns c
    t.cq = s.cq ∧ t.mm = s.mm ∧ t.wh = s.wh ∧ t.kv = s.kv ∧ t.rg.fields = s.rg.fields := by
  unfold State.readCisterns
  refine List.foldlRecOn (motive := fun t : State => t.cq = s.cq ∧ t.mm = s.mm ∧ t.wh = s.wh ∧ t.kv = s.kv ∧
    t.rg.fields = s.rg.fields) _ _ ⟨rfl, rfl, rfl, rfl, rfl⟩ fun t h u _ => ?_
  split
  · unfold State.cisReadRange
    split
    · exact h
    · split
      · exact h
      · unfold State.cisRead State.cisReq
        dsimp only
        rw [State.emit_frame]
        exact h
  · exact h

/-- Command c with what a start engages for it. -/
def Cmd.Engages (c d : Cmd) : Prop :=
  d = { c with gaugeRun := d.gaugeRun, counterRun := d.counterRun, epoch := d.epoch, work := { c.work with groups := d.work.groups } }

/-- The state with what a started command engages: its groups, its gauges and counters, and its reads. -/
def State.whEngaged (s : State) (c : Cmd) : State × Cmd :=
  let s := s.lockGroups c
  let s := c.groups.foldl
    (fun s g => s.trace { type := 8, ctx := c.ctx, q := c.q, seq := c.seq, arg0 := recOp c.rec_, arg1 := g }) s
  let ps := if c.kind = .step then s.stepPlans c else []
  let ng := if c.kind = .step then s.gaugesOf (s.stepImage c) ps else 0
  let gr := if ng = 0 then none else takeRun 16384 ng s.free s.gaugeRuns
  let cr := if ps.isEmpty then none else takeRun 256 (countersOf ps) (s.free + 1) s.counterRuns
  let s : State := { s with free := s.free + 2 }
  let s : State := match gr with
    | some (b, n) => { s with tl.gauges := s.tl.gauges.filter (fun e => !(decide (b ≤ e.1) && decide (e.1 < b + n))) }
    | none => s
  let s := s.clearCounters cr
  let c := { c with
    gaugeRun := gr, counterRun := cr, epoch := some s.kv.epoch, work := { c.work with groups := c.groups } }
  ((s.setCmd c).readCisterns c, c)

theorem State.traces_keep (s : State) (gs : List Nat) (r : Nat → TraceRec) :
    let t := gs.foldl (fun s g => s.trace (r g)) s
    t.wh = s.wh ∧ t.kv = s.kv ∧ t.cq = s.cq ∧ (s.fld F.TRC_CFG.ENABLE = 0 → t = s) := by
  induction gs generalizing s with
  | nil => exact ⟨rfl, rfl, rfl, fun _ => rfl⟩
  | cons g gs ih =>
    obtain ⟨wh, kv, cq, same⟩ := ih (s.trace (r g))
    rw [List.foldl_cons]
    refine ⟨wh.trans (State.trace_wh _ _), kv.trans (State.trace_kv _ _), cq.trans (State.trace_cq _ _), fun off => ?_⟩
    have none := State.trace_off s (r g) off
    rw [none] at same ⊢
    exact same off

theorem State.whEngaged_engages (there : s.cmd? q seq = some c) :
    let r := s.whEngaged c
    r.1.cmd? q seq = some r.2 ∧ c.Engages r.2 ∧ r.1.wh = (s.lockGroups c).wh ∧ r.1.kv = s.kv ∧
      (s.fld F.TRC_CFG.ENABLE = 0 → r.1.mm = s.mm ∧ r.1.rg.fields = s.rg.fields) := by
  unfold State.whEngaged
  extract_lets a b ps ng gr cr u tl v w work x
  have lock : a.kv = s.kv ∧ a.cq = s.cq ∧ a.mm = s.mm ∧ a.rg = s.rg := by
    simp only [a]
    unfold State.lockGroups
    split
    · exact ⟨rfl, rfl, rfl, rfl⟩
    · rw [(s.lockAll_locks c c.groups).1]
      exact ⟨rfl, rfl, rfl, rfl⟩
  obtain ⟨kv_a, cq_a, mm_a, rg_a⟩ := lock
  obtain ⟨wh_b, kv_b, cq_b, same⟩ : b.wh = a.wh ∧ b.kv = a.kv ∧ b.cq = a.cq ∧ (a.fld F.TRC_CFG.ENABLE = 0 → b = a) :=
    a.traces_keep c.groups _
  have kept_v : v.wh = b.wh ∧ v.kv = b.kv ∧ v.cq = b.cq ∧ v.mm = b.mm ∧ v.rg = b.rg := by
    simp only [v]
    clear_value gr
    cases gr <;> exact ⟨rfl, rfl, rfl, rfl, rfl⟩
  obtain ⟨wh_w, kv_w, cq_w, mm_w, rg_w⟩ : w.wh = b.wh ∧ w.kv = b.kv ∧ w.cq = b.cq ∧ w.mm = b.mm ∧ w.rg = b.rg := by
    simp only [w]
    clear_value cr
    cases cr <;> exact kept_v
  obtain ⟨cq_r, mm_r, wh_r, kv_r, fields_r⟩ := (w.setCmd x).readCisterns_leaves x
  have set : (w.setCmd x).cmd? q seq = some x := State.cmd_set (c := c) (by
    unfold State.cmd? at there ⊢
    rw [cq_w, cq_b, cq_a]
    exact there) rfl rfl
  refine ⟨?_, rfl, wh_r.trans (wh_w.trans wh_b), kv_r.trans (kv_w.trans (kv_b.trans kv_a)), fun off => ?_⟩
  · unfold State.cmd? at set ⊢
    rw [cq_r]
    exact set
  · have off_a : a.fld F.TRC_CFG.ENABLE = 0 := by
      unfold State.fld at off ⊢
      rw [rg_a]
      exact off
    have b_a := same off_a
    exact ⟨mm_r.trans (mm_w.trans (by rw [b_a, mm_a])), fields_r.trans ((congrArg Regs.fields rg_w).trans (by rw [b_a, rg_a]))⟩

/-! ## WH_COMMAND_START -/

/-- The state with command c begun, its hold over. -/
def State.whBegun (s : State) (c : Cmd) : State := (s.unhold c).setCmd (c.started (s.usesOf c.rec_))

section
variable (on : s.runs 313 = true) (there : s.cmd? q seq = some c) (runs : s.queueRuns c.q = true) (stage : c.stage = .waiting)
  (wellhead : c.wellhead = true) (resident : s.resident c.ctx = true) (room : s.whRunning < s.whMax)
  (core : c.kind ≠ .prune ∨ s.someCoreFree = true) (readable : s.inputsReadable (s.usesOf c.rec_) = true)
include on there runs stage wellhead resident room core readable

theorem State.whCommandStart_holds {h : Hold} (held : s.whStartHold c = some h) : s.whCommandStart q seq = s.holdCmd c h := by
  unfold State.whCommandStart
  rw [there]
  dsimp only
  rw [if_pos ⟨on, runs, stage, wellhead, resident, room, core⟩, readable, held]
  rfl

variable (free : s.whStartHold c = none)
  (kept : (inputsOf (s.usesOf c.rec_)).any (s.whBegun c).isLost = false)
include free kept

theorem State.whCommandStart_fails {st : Nat} (fails : (s.whBegun c).whTest (c.started (s.usesOf c.rec_)) = some st) :
    s.whCommandStart q seq = (s.whBegun c).whFail (c.started (s.usesOf c.rec_)) st := by
  unfold State.whCommandStart
  rw [there]
  dsimp only
  rw [if_pos ⟨on, runs, stage, wellhead, resident, room, core⟩, readable, free]
  refine (if_neg (by simp)).trans ((if_neg (ne_true_of_eq_false kept)).trans ?_)
  split
  next st' failed =>
    obtain rfl : st = st' := Option.some.inj (fails.symm.trans failed)
    rfl
  next passed => exact absurd (fails.symm.trans passed) (by simp)

theorem State.whCommandStart_engages (passes : (s.whBegun c).whTest (c.started (s.usesOf c.rec_)) = none) :
    s.whCommandStart q seq = (((s.whBegun c).whEngaged (c.started (s.usesOf c.rec_))).1.whWork
      ((s.whBegun c).whEngaged (c.started (s.usesOf c.rec_))).2).settle c.ctx := by
  unfold State.whCommandStart
  rw [there]
  dsimp only
  rw [if_pos ⟨on, runs, stage, wellhead, resident, room, core⟩, readable, free]
  refine (if_neg (by simp)).trans ((if_neg (ne_true_of_eq_false kept)).trans ?_)
  split
  next st failed => exact absurd (passes.symm.trans failed) (by simp)
  next => rfl
end

/-! What the begun command leaves. -/

theorem State.trace_lost (s : State) (r : TraceRec) : (s.trace r).mm.lost = s.mm.lost := by
  have frame := s.trace_frame r
  unfold State.Traced at frame
  rw [frame]

theorem State.yieldEnds_lost (s : State) (ctx : Nat) : (s.yieldEnds ctx).mm.lost = s.mm.lost := by
  unfold State.yieldEnds
  extract_lets x u
  split
  · split <;> exact State.trace_lost _ _
  · rfl

theorem State.settle_lost (s : State) (ctx : Nat) : (s.settle ctx).mm.lost = s.mm.lost := by
  have ended := s.yieldEnds_lost ctx
  unfold State.settle
  extract_lets u
  change u.mm.lost = s.mm.lost at ended
  split
  · split <;> exact ended
  · split
    · split <;> exact ended
    · split
      · split <;> exact ended
      · exact ended
    · split <;> exact ended
    · split <;> exact ended
    · exact ended

theorem State.unhold_lost (s : State) (c : Cmd) : (s.unhold c).mm.lost = s.mm.lost := by
  unfold State.unhold
  split
  · rfl
  · refine (State.settle_lost _ _).trans ?_
    split
    · rfl
    · exact State.trace_lost _ _

theorem State.bornPending_of_cq (cq : t.cq = s.cq) (c : Cmd) : t.bornPending c = s.bornPending c := by
  unfold State.bornPending
  rw [cq]

theorem State.unhold_born (s : State) (c : Cmd) : (s.unhold c).bornPending c = s.bornPending c := by
  unfold State.unhold
  split
  · rfl
  · extract_lets u
    have set : u.bornPending c = s.bornPending c := State.bornPending_setCmd rfl rfl
    refine (State.bornPending_of_cq (State.settle_cq _ _) c).trans ?_
    split
    · exact set
    · exact (State.bornPending_of_cq (State.trace_cq _ _) c).trans set

theorem State.whBegun_begins (there : s.cmd? q seq = some c) :
    let w := s.whBegun c
    w.cmd? q seq = some (c.started (s.usesOf c.rec_)) ∧ w.wh = s.wh ∧ w.kv = s.kv ∧ w.isLost = s.isLost ∧
      (s.fld F.TRC_CFG.ENABLE = 0 → w.mm = s.mm ∧ w.rg.fields = s.rg.fields) := by
  obtain ⟨freed, moved, still⟩ := State.unhold_frees there
  obtain ⟨kv, wh, -⟩ := moved.apart
  refine ⟨State.cmd_set freed rfl rfl, wh, kv, ?_, fun off => ?_⟩
  · unfold State.isLost
    show (fun u => (s.unhold c).mm.lost.contains _) = _
    rw [State.unhold_lost]
  · obtain ⟨mm, rg, -⟩ := still (.inr off)
    exact ⟨mm, congrArg Regs.fields rg⟩

/-- The tests of a begun command are those of the waiting one on its descriptors. -/
theorem State.whTest_begun (there : s.cmd? q seq = some c) (still : c.kind = .open_ → s.fld F.TRC_CFG.ENABLE = 0) :
    (s.whBegun c).whTest (c.started (s.usesOf c.rec_)) = s.whTest { c with descs := s.usesOf c.rec_ } := by
  obtain ⟨-, wh, kv, -, quiet⟩ := State.whBegun_begins there
  have same : s.whTest (c.started (s.usesOf c.rec_)) = s.whTest { c with descs := s.usesOf c.rec_ } := rfl
  rw [← same]
  refine State.whTest_of_wh wh ?_ fun kind => ?_
  · exact (State.bornPending_setCmd rfl rfl).trans (s.unhold_born c)
  · obtain ⟨mm, fields⟩ := quiet (still kind)
    constructor
    · unfold State.rootSeq? State.seq State.fld
      rw [kv, fields]
    · unfold State.badRoot State.imageRef State.devRead
      rw [mm]

/-- A wellhead command that fails a test ends with the test's status. -/
theorem State.whFail_ends (there : s.cmd? q seq = some d) (q_c : c.q = d.q) (seq_c : c.seq = d.seq) (st : Nat) :
    let t := s.whFail c st
    t.cmd? q seq = none ∧ (∃ d ∈ (t.queue c.q).done, d.seq = c.seq ∧ d.status = st ∧ d.tag = recTag c.rec_) ∧
      (st = 7 → t.fld F.WH_INT_STATUS.HISTORY_FULL = 1) ∧ t.wh.branches = s.wh.branches := by
  unfold State.whFail
  extract_lets u
  have marked : u.cq = s.cq ∧ u.wh = s.wh ∧ (st = 7 → u.fld F.WH_INT_STATUS.HISTORY_FULL = 1) := by
    simp only [u]
    split
    · exact ⟨State.setInt_cq _ _ _, State.setInt_wh _ _ _, fun _ => State.fld_setInt _ _ _⟩
    · exact ⟨rfl, rfl, fun yes => absurd yes ‹_›⟩
  clear_value u
  obtain ⟨cq, wh, full⟩ := marked
  have there_u : u.cmd? q seq = some d := by
    unfold State.cmd? at there ⊢
    rw [cq]
    exact there
  obtain ⟨gone, due, branches, page⟩ := State.noEffect_ends (c := c) there_u q_c seq_c st
  refine ⟨gone, due, fun yes => ?_, branches.trans (by rw [wh])⟩
  exact (page _ (by decide) _).trans (full yes)

/-- A command that is staged at once. -/
theorem State.stagedNow_stages {x : Cmd} (there : s.cmd? q seq = some d) (q_x : x.q = d.q) (seq_x : x.seq = d.seq) :
    let t := s.stagedNow x
    (∃ y, t.cmd? q seq = some y ∧ y.stage = .staged ∧ y.hold = none ∧ y.begun = x.begun ∧ y.work = x.work) ∧ t.wh = s.wh ∧ t.kv = s.kv := by
  unfold State.stagedNow
  have set : (s.setCmd { x with stage := .staged, hold := none, since := s.tm.now }).cmd? q seq = _ := State.cmd_set there q_x seq_x
  have moved : MovedOn s ((s.setCmd { x with stage := .staged, hold := none, since := s.tm.now }).settle x.ctx) :=
    (MovedOn.refl s).setCmd.settle
  obtain ⟨kv, wh, -⟩ := moved.apart
  exact ⟨⟨_, (State.cmd_settle _ _ _ _).trans set, rfl, rfl, rfl, rfl⟩, wh, kv⟩

end Sys2Proof.Machine
end

section
/-! SUPPORT. What a started FORK, PRUNE, CLOSE and OPEN make, holds that end, groups re-derived (R41, R68, R74, R75), and O52. -/

namespace Sys2Proof.Machine

variable {s t : State} {c d : Cmd} {q seq : Nat}

theorem Cmd.Engages.kept (h : c.Engages d) : (d.kind = c.kind ∧ d.stage = c.stage ∧ d.hold = c.hold ∧ d.begun = c.begun) ∧
    (d.q = c.q ∧ d.seq = c.seq ∧ d.ctx = c.ctx ∧ d.rec_ = c.rec_) ∧ d.descs = c.descs ∧ d.data = c.data ∧
      d.work.branches = c.work.branches := by
  unfold Cmd.Engages at h
  rw [h]
  exact ⟨⟨rfl, rfl, rfl, rfl⟩, ⟨rfl, rfl, rfl, rfl⟩, rfl, rfl, rfl⟩

/-! ## The work of each command -/

theorem State.forkWork_forks (there : s.cmd? q seq = some c) :
    let t := s.forkWork c
    (∃ y, t.cmd? q seq = some y ∧ y.stage = .staged ∧ y.hold = none ∧ y.begun = c.begun) ∧ t.wh.groups = s.wh.groups ∧
      t.wh.branches = s.wh.branches := by
  have staged : ∀ (u : State) (x : Cmd), Quiet s u → x.q = c.q → x.seq = c.seq → x.begun = c.begun →
      (∃ y, (u.stagedNow x).cmd? q seq = some y ∧ y.stage = .staged ∧ y.hold = none ∧ y.begun = c.begun) ∧
        (u.stagedNow x).wh.groups = s.wh.groups ∧ (u.stagedNow x).wh.branches = s.wh.branches := by
    intro u x kept q_x seq_x begun_x
    have there_u : u.cmd? q seq = some c := by
      unfold State.cmd? at there ⊢
      rw [kept.cmds]
      exact there
    obtain ⟨⟨y, hy, stage, hold, begun, -⟩, wh, -⟩ := State.stagedNow_stages there_u q_x seq_x
    exact ⟨⟨y, hy, stage, hold, begun.trans begun_x⟩, (congrArg Wh.groups wh).trans kept.groups,
      (congrArg Wh.branches wh).trans kept.branches⟩
  exact staged _ _ (Quiet.refl s).addRefs rfl rfl rfl

/-- A STEP's work begins later; a FORK and a CLOSE are staged at once. -/
theorem State.whWork_works (there : s.cmd? q seq = some c) (running : c.stage = .running) (free : c.hold = none)
    (kind : c.kind = .step ∨ c.kind = .fork ∨ c.kind = .close) :
    let t := s.whWork c
    (∃ y, t.cmd? q seq = some y ∧ y.stage = (if c.kind = .step then .running else .staged) ∧ y.hold = none ∧ y.begun = c.begun) ∧
      t.wh.groups = s.wh.groups ∧ t.wh.branches = s.wh.branches := by
  obtain kind | kind | kind := kind
  · have idle : s.whWork c = s := by
      unfold State.whWork
      rw [kind]
    rw [idle, kind]
    exact ⟨⟨c, there, running, free, rfl⟩, rfl, rfl⟩
  · have forks : s.whWork c = s.forkWork c := by
      unfold State.whWork
      rw [kind]
    rw [forks, kind]
    exact State.forkWork_forks there
  · have closes : s.whWork c = s.stagedNow c := by
      unfold State.whWork
      rw [kind]
    rw [closes, kind]
    obtain ⟨⟨y, hy, stage, hold, begun, -⟩, wh, -⟩ := State.stagedNow_stages there rfl rfl
    exact ⟨⟨y, hy, stage, hold, begun⟩, congrArg Wh.groups wh, congrArg Wh.branches wh⟩

/-- The inputs of command c are near, and none of them is poisoned. -/
def State.InputsNear (s : State) (c : Cmd) : Prop :=
  ∀ u ∈ inputsOf c.descs, u.range.1 ≠ 3 ∧ s.homePoisoned u.range.1 u.range.2.1 u.range.2.2 = false

theorem State.InputsNear.here (near : s.InputsNear c) : c.inputsHere = true := by
  unfold Cmd.inputsHere
  exact List.all_eq_true.mpr fun u hu => by simp [(near u hu).1]

theorem State.pruneWork_ranks (near : s.InputsNear c) :
    let g := c.groups.headD 0
    let idx := s.indicesIn c g (· ≠ 0)
    let kept := ((idx.foldl (fun l b => rankInsert (s.rankScore c g b, b) l) []).map (·.2)).take (field c.rec_ 0x12 2)
    s.pruneWork c = s.stagedNow { c with
      work := { c.work with list := kept, stepped := (idx.filter (fun b => !kept.contains b)).map (wbKey g) } } := by
  have clean : (inputsOf c.descs).any (fun u => s.homePoisoned u.range.1 u.range.2.1 u.range.2.2) = false :=
    List.any_eq_false.mpr fun u hu => by simp [(near u hu).2]
  unfold State.pruneWork
  rw [near.here]
  exact (if_neg (by simp)).trans (if_neg (ne_true_of_eq_false clean))

theorem State.takeBlock_takes (some_ : s.sbFreeList ≠ []) :
    ∃ k ∈ s.sbFreeList, s.takeBlock =
      some (k, { s with free := s.free + 1, wh.sbCount := put 0 s.wh.sbCount k 1, wh.sbStaged := k :: s.wh.sbStaged }) := by
  have within : Config.pick s.free % Nat.max 1 s.sbFreeList.length < s.sbFreeList.length := by
    have pos : 0 < s.sbFreeList.length := List.length_pos_iff.mpr some_
    have bound := Nat.mod_lt (Config.pick s.free) (show 0 < Nat.max 1 s.sbFreeList.length from Nat.lt_of_lt_of_le Nat.one_pos (Nat.le_max_left _ _))
    have same : Nat.max 1 s.sbFreeList.length = s.sbFreeList.length := Nat.max_eq_right pos
    omega
  refine ⟨_, List.getElem_mem within, ?_⟩
  unfold State.takeBlock
  rw [List.getElem?_eq_getElem within]

theorem State.addRefs_pages (s : State) (ps : List Nat) (n : Nat) : (s.addRefs (ps.map Obj.page) n).wh = s.wh := by
  unfold State.addRefs
  rw [List.foldl_map]
  refine List.foldlRecOn (motive := fun t : State => t.wh = s.wh) _ _ rfl fun t h p _ => ?_
  unfold State.applyRef
  extract_lets k m v
  have same : v.wh = s.wh := h
  split
  · unfold State.hold
    extract_lets tags
    split <;> exact same
  · exact same

theorem State.openWork_opens {u : DescUse} {us : List DescUse} {p : Seq} {raw : List Byte} (there : s.cmd? q seq = some d)
    (q_c : c.q = d.q) (seq_c : c.seq = d.seq)
    (descs : c.descs = u :: us) (input : u.out = false) (near : s.InputsNear c) (root : s.rootSeq? c = some p)
    (some_ : s.sbFreeList ≠ []) (read : (descOf u.img).expand (s.inputBytes c u) = some raw) :
    let t := s.openWork c
    ∃ y k, t.cmd? q seq = some y ∧ y.stage = .staged ∧ y.hold = none ∧ y.begun = c.begun ∧ k ∈ s.sbFreeList ∧
      y.work.taken = [.block k] ∧ t.objCount (.block k) = 2 ∧ y.work.images = [(k, { p.image with tailSealed := true })] ∧
      t.wh.groups = s.wh.groups ∧ t.wh.branches = s.wh.branches := by
  obtain ⟨k, free, takes⟩ := State.takeBlock_takes some_
  have first : u ∈ inputsOf c.descs := by
    rw [descs]
    exact List.mem_filter.mpr ⟨List.mem_cons_self, by rw [input]; rfl⟩
  obtain ⟨far, clean⟩ := near u first
  let im : Image := { p.image with tailSealed := true }
  let a : State := { s with free := s.free + 1, wh.sbCount := put 0 s.wh.sbCount k 1, wh.sbStaged := k :: s.wh.sbStaged }
  let b : State := (a.countRead u.range.1 u.range.2.1 u.range.2.2).setObjCount (.block k) 2
  let w : State := (b.devWrite (b.sbAddr k) (rootBytes (descOf u.img) raw)).addRefs (im.pages.map Obj.page) 1
  let x : Cmd := { c with work := { c.work with
    list := [k], images := [(k, im)], taken := [.block k], added := (im.pages.map Obj.page).map (fun o => (o, 1)) } }
  have shape : s.openWork c = w.stagedNow x := by
    have clean' : a.homePoisoned u.range.1 u.range.2.1 u.range.2.2 = false := clean
    unfold State.openWork
    split
    next a l root' j b' listed rooted took =>
      obtain ⟨rfl, -⟩ : a = u ∧ l = us := by simpa using listed.symm.trans descs
      obtain rfl : root' = p := Option.some.inj (rooted.symm.trans root)
      obtain ⟨rfl, rfl⟩ := Prod.mk.inj (Option.some.inj (took.symm.trans takes))
      rw [near.here]
      refine (if_neg (by simp)).trans ((if_neg (ne_true_of_eq_false clean')).trans ?_)
      rw [read]
    next none => exact (none _ _ _ _ _ descs root takes).elim
  have counted : (a.countRead u.range.1 u.range.2.1 u.range.2.2) = { a with rg.slots := _ } := a.countRead_counts _ _ _
  have count_b : b.wh.sbCount = put 0 (put 0 s.wh.sbCount k 1) k 2 ∧ b.wh.groups = s.wh.groups ∧ b.wh.branches = s.wh.branches ∧
      b.cq = s.cq := by
    simp only [b]
    rw [counted]
    exact ⟨rfl, rfl, rfl, rfl⟩
  have wh_w : w.wh = b.wh := (State.addRefs_pages _ _ _).trans (State.devWrite_wh _ _ _)
  have quiet_w : Quiet b w := (Quiet.refl b).devWrite.addRefs
  clear_value b
  obtain ⟨count, groups, branches, cq⟩ := count_b
  have there_w : w.cmd? q seq = some d := by
    unfold State.cmd? at there ⊢
    rw [quiet_w.cmds, cq]
    exact there
  clear_value w
  have staged := State.stagedNow_stages (x := x) there_w q_c seq_c
  rw [← shape] at staged
  obtain ⟨⟨y, hy, stage, hold, begun, work⟩, wh, -⟩ := staged
  refine ⟨y, k, hy, stage, hold, begun, free, by rw [work], ?_, by rw [work], (congrArg Wh.groups (wh.trans wh_w)).trans groups,
    (congrArg Wh.branches (wh.trans wh_w)).trans branches⟩
  show look 0 (s.openWork c).wh.sbCount k = 2
  rw [wh, wh_w, count]
  exact look_put_self _ _ _ _

theorem State.lockGroups_of_wh (wh : t.wh = s.wh) : (t.lockGroups c).wh = (s.lockGroups c).wh := by
  unfold State.lockGroups
  split
  · exact wh
  · generalize c.groups = gs
    induction gs generalizing s t with
    | nil => exact wh
    | cons g gs ih =>
      refine ih ?_
      unfold State.setGroup State.group
      dsimp only
      rw [wh]

/-- The groups as the command's start locks them. -/
theorem State.lockGroups_locks (s : State) {c : Cmd} (other : c.kind ≠ .open_) :
    (∀ g ∈ c.groups, (s.lockGroups c).group g = (s.group g).busy c) ∧ (∀ g, g ∉ c.groups → (s.lockGroups c).group g = s.group g) ∧
      (s.lockGroups c).wh.branches = s.wh.branches := by
  have shape : s.lockGroups c = _ := if_neg other
  obtain ⟨frame, locked, others⟩ := s.lockAll_locks c c.groups
  rw [shape]
  refine ⟨locked, others, ?_⟩
  rw [frame]

theorem State.inputBytes_of_mm {u : State} {x : Cmd} (mm : u.mm = s.mm) (data : x.data = c.data) (d : DescUse) :
    u.inputBytes x d = s.inputBytes c d := by
  unfold State.inputBytes Cmd.blockBytes Cmd.block?
  rw [State.homeRead_of_mm mm, data]

/-- The state and the command that a PRUNE or an OPEN works on see the wellhead, the inputs and the memory as they stood. -/
theorem State.InputsNear.engaged {u : State} {x : Cmd} (mm : u.mm = s.mm) (descs : x.descs = s.usesOf c.rec_)
    (near : ∀ u ∈ inputsOf (s.usesOf c.rec_), u.range.1 ≠ 3 ∧ s.homePoisoned u.range.1 u.range.2.1 u.range.2.2 = false) :
    u.InputsNear x := by
  intro y hy
  rw [descs] at hy
  unfold State.homePoisoned State.poisoned
  rw [mm]
  exact near y hy

section
variable {u : State} {x : Cmd} (other : c.kind ≠ .open_) (wh : u.wh = (s.lockGroups c).wh)
include other wh

theorem State.group_locked (g : Nat) : u.group g = (s.group g).busy c ∨ u.group g = s.group g := by
  obtain ⟨locked, others, -⟩ := s.lockGroups_locks other
  have same : u.group g = (s.lockGroups c).group g := by
    unfold State.group
    rw [wh]
  rw [same]
  by_cases hg : g ∈ c.groups
  · exact .inl (locked g hg)
  · exact .inr (others g hg)

theorem State.branches_locked : u.wh.branches = s.wh.branches := (congrArg Wh.branches wh).trans (s.lockGroups_locks other).2.2

theorem State.indicesIn_locked (work : x.work.branches = c.work.branches) : u.indicesIn x = s.indicesIn c := by
  funext g p
  have capacity : (u.group g).capacity = (s.group g).capacity := by
    obtain same | same := State.group_locked other wh g <;> rw [same] <;> rfl
  unfold State.indicesIn State.wbranch
  rw [capacity, work, State.branches_locked other wh]

theorem State.rankScore_locked {us : List DescUse} (mm : u.mm = s.mm) (descs : x.descs = us) (data : x.data = c.data) :
    u.rankScore x = s.rankScore { c with descs := us } := by
  funext g b
  obtain ⟨mode, gamma, seed⟩ : (u.group g).scoreMode = (s.group g).scoreMode ∧ (u.group g).gamma = (s.group g).gamma ∧
      (u.group g).seed = (s.group g).seed := by
    obtain same | same := State.group_locked other wh g <;> rw [same] <;> exact ⟨rfl, rfl, rfl⟩
  have branch : u.branch g b = s.branch g b := by
    unfold State.branch
    rw [State.branches_locked other wh]
  have bytes := fun d => State.inputBytes_of_mm (c := { c with descs := us }) (x := x) mm data d
  unfold State.rankScore
  dsimp only
  rw [mode, gamma, seed, branch, descs]
  simp only [bytes]
end

/-- An OPEN that nothing holds finds a free state block. -/
theorem State.whStartHold_room (free : s.whStartHold c = none) (kind : c.kind = .open_) : s.sbFreeList ≠ [] := by
  intro empty
  have other : c.kind ≠ .step := by rw [kind]; decide
  unfold State.whStartHold at free
  simp only [if_neg other] at free
  split_ifs at free with _ _ _ _ _ _ last
  exact last (by rw [empty, kind]; rfl)

/-! ## WH_COMMAND_START, clause by clause -/

section
variable (on : s.runs 313 = true) (there : s.cmd? q seq = some c) (runs : s.queueRuns c.q = true) (stage : c.stage = .waiting)
  (wellhead : c.wellhead = true) (resident : s.resident c.ctx = true) (room : s.whRunning < s.whMax)
  (core : c.kind ≠ .prune ∨ s.someCoreFree = true) (readable : s.inputsReadable (s.usesOf c.rec_) = true)
  (free : s.whStartHold c = none) (kept : (inputsOf (s.usesOf c.rec_)).any s.isLost = false)
include on there runs stage wellhead resident room core readable free kept

theorem whCommandStart_fails {st : Nat} (other : c.kind ≠ .open_)
    (fails : s.whTest { c with descs := s.usesOf c.rec_ } = some st) :
    let t := s.whCommandStart q seq
    t.cmd? q seq = none ∧ (∃ d ∈ (t.queue c.q).done, d.seq = c.seq ∧ d.status = st ∧ d.tag = recTag c.rec_) ∧
      (st = 7 → t.fld F.WH_INT_STATUS.HISTORY_FULL = 1) ∧ t.wh.branches = s.wh.branches := by
  obtain ⟨begun, wh, -, lost, -⟩ := State.whBegun_begins there
  have same := State.whTest_begun there fun kind => absurd kind other
  rw [State.whCommandStart_fails on there runs stage wellhead resident room core readable free (by rw [lost]; exact kept)
    (same.trans fails)]
  have ends := State.whFail_ends (c := c.started (s.usesOf c.rec_)) begun rfl rfl st
  rw [wh] at ends
  exact ends

/-- What a start that passes its tests hands to the command's work. -/
theorem State.whCommandStart_works (passes : s.whTest { c with descs := s.usesOf c.rec_ } = none)
    (still : c.kind = .open_ → s.fld F.TRC_CFG.ENABLE = 0) :
    ∃ (u : State) (x : Cmd), s.whCommandStart q seq = (u.whWork x).settle c.ctx ∧ u.cmd? q seq = some x ∧
      (c.started (s.usesOf c.rec_)).Engages x ∧ u.wh = (s.lockGroups c).wh ∧ u.kv = s.kv ∧
      (s.fld F.TRC_CFG.ENABLE = 0 → u.mm = s.mm ∧ u.rg.fields = s.rg.fields) := by
  obtain ⟨begun, wh, kv, lost, quiet⟩ := State.whBegun_begins there
  have same := State.whTest_begun there still
  obtain ⟨set, engages, wh_r, kv_r, quiet_r⟩ := State.whEngaged_engages begun
  refine ⟨_, _, State.whCommandStart_engages on there runs stage wellhead resident room core readable free
    (by rw [lost]; exact kept) (same.trans passes), set, engages, wh_r.trans ?_, kv_r.trans kv, fun off => ?_⟩
  · exact State.lockGroups_of_wh (c := c) wh
  · obtain ⟨mm, fields⟩ := quiet off
    have off_w : (s.whBegun c).fld F.TRC_CFG.ENABLE = 0 := by
      unfold State.fld at off ⊢
      rw [fields]
      exact off
    obtain ⟨mm_r, fields_r⟩ := quiet_r off_w
    exact ⟨mm_r.trans mm, fields_r.trans fields⟩
theorem whCommandStart_begins (passes : s.whTest { c with descs := s.usesOf c.rec_ } = none)
    (kind : c.kind = .step ∨ c.kind = .fork ∨ c.kind = .close) :
    let t := s.whCommandStart q seq
    ∃ x, t.cmd? q seq = some x ∧ x.begun = true ∧ x.hold = none ∧
      x.stage = (if c.kind = .step then .running else .staged) ∧ t.wh.branches = s.wh.branches ∧
      (∀ g ∈ c.groups, (t.group g).state = 2 ∧ (t.group g).lock = some (c.q, c.seq)) ∧
      ∀ g, g ∉ c.groups → t.group g = s.group g := by
  have other : c.kind ≠ .open_ := by rcases kind with k | k | k <;> rw [k] <;> decide
  obtain ⟨u, x, shape, set, engages, wh, -⟩ := State.whCommandStart_works on there runs stage wellhead resident room core readable free kept
    passes fun k => absurd k other
  obtain ⟨locked, others, branches⟩ := s.lockGroups_locks other
  obtain ⟨⟨kind_x, stage_x, hold_x, begun_x⟩, -⟩ := engages.kept
  obtain ⟨⟨y, hy, stage_y, hold_y, begun_y⟩, groups_w, branches_w⟩ :=
    State.whWork_works set stage_x hold_x (by rw [kind_x]; exact kind)
  have settled := (Quiet.refl (u.whWork x)).settle (ctx := c.ctx)
  intro t
  have shape_t : t = (u.whWork x).settle c.ctx := shape
  clear_value t
  rw [← shape_t] at settled
  have group_t : ∀ g, t.group g = (s.lockGroups c).group g := fun g => by
    unfold State.group
    rw [settled.groups, groups_w, wh]
  refine ⟨y, ?_, begun_y.trans begun_x, hold_y, by rw [stage_y, kind_x]; rfl,
    settled.branches.trans (branches_w.trans ((congrArg Wh.branches wh).trans branches)), fun g hg => ?_, fun g hg => ?_⟩
  · rw [shape_t]
    exact (State.cmd_settle _ _ _ _).trans hy
  · rw [group_t, locked g hg]
    exact ⟨rfl, rfl⟩
  · rw [group_t, others g hg]
theorem whCommandStart_prunes (passes : s.whTest { c with descs := s.usesOf c.rec_ } = none) (off : s.fld F.TRC_CFG.ENABLE = 0)
    (near : ∀ u ∈ inputsOf (s.usesOf c.rec_), u.range.1 ≠ 3 ∧ s.homePoisoned u.range.1 u.range.2.1 u.range.2.2 = false)
    (kind : c.kind = .prune) :
    let g := c.groups.headD 0
    let idx := s.indicesIn c g (· ≠ 0)
    let kept := ((idx.foldl (fun l b => rankInsert (s.rankScore { c with descs := s.usesOf c.rec_ } g b, b) l) []).map (·.2)).take
      (field c.rec_ 0x12 2)
    let t := s.whCommandStart q seq
    ∃ x, t.cmd? q seq = some x ∧ x.begun = true ∧ x.hold = none ∧
      x.stage = .staged ∧ x.work.list = kept ∧
      x.work.stepped = (idx.filter (fun b => !kept.contains b)).map (wbKey g) ∧ t.wh.branches = s.wh.branches ∧
      (t.group g).state = 2 ∧ (t.group g).lock = some (c.q, c.seq) ∧ ∀ h, h ≠ g → t.group h = s.group h := by
  intro g idx list t
  have other : c.kind ≠ .open_ := by rw [kind]; decide
  obtain ⟨u, x, shape, set, engages, wh, -, still⟩ := State.whCommandStart_works on there runs stage wellhead resident room core readable
    free kept passes fun k => absurd k other
  obtain ⟨mm, -⟩ := still off
  obtain ⟨locked, others, branches⟩ := s.lockGroups_locks other
  obtain ⟨⟨kind_x, -, -, begun_x⟩, ⟨q_x, seq_x, -, rec_x⟩, descs, data, work⟩ := engages.kept
  have groups : c.groups = [g] := by
    show c.groups = [(if c.kind = .step then stepMask c.rec_ else [field c.rec_ 0x11 1]).headD 0]
    unfold Cmd.groups
    rw [if_neg (by rw [kind]; decide)]
    rfl
  have head : x.groups.headD 0 = g := by
    show (if x.kind = .step then stepMask x.rec_ else [field x.rec_ 0x11 1]).headD 0 = g
    rw [kind_x, rec_x]
    rfl
  have indices : u.indicesIn x = s.indicesIn c := State.indicesIn_locked other wh work
  have ranks : u.rankScore x = s.rankScore { c with descs := s.usesOf c.rec_ } := State.rankScore_locked other wh mm descs data
  have prunes := State.pruneWork_ranks (State.InputsNear.engaged (c := c) mm descs near)
  dsimp only at prunes
  rw [head, indices, ranks, show field x.rec_ 0x12 2 = field c.rec_ 0x12 2 from congrArg (field · 0x12 2) rec_x] at prunes
  have works : u.whWork x = u.pruneWork x := by
    unfold State.whWork
    rw [show x.kind = .prune from kind_x.trans kind]
  have staged := State.stagedNow_stages (s := u) (d := x) (x := { x with
      work := { x.work with list := list, stepped := (idx.filter (fun b => !list.contains b)).map (wbKey g) } }) set rfl rfl
  obtain ⟨⟨y, hy, stage_y, hold_y, begun_y, work_y⟩, wh_y, -⟩ := staged
  have prunes' : u.whWork x = u.stagedNow { x with
      work := { x.work with list := list, stepped := (idx.filter (fun b => !list.contains b)).map (wbKey g) } } := works.trans prunes
  rw [← prunes'] at hy wh_y
  have settled := (Quiet.refl (u.whWork x)).settle (ctx := c.ctx)
  have shape_t : t = (u.whWork x).settle c.ctx := shape
  clear_value t
  rw [← shape_t] at settled
  have group_t : ∀ g, t.group g = (s.lockGroups c).group g := fun g => by
    unfold State.group
    rw [settled.groups, wh_y, wh]
  refine ⟨y, ?_, begun_y.trans begun_x, hold_y, stage_y, by rw [work_y], by rw [work_y],
    settled.branches.trans ((congrArg Wh.branches (wh_y.trans wh)).trans branches), ?_, ?_, fun h hh => ?_⟩
  · rw [shape_t]
    exact (State.cmd_settle _ _ _ _).trans hy
  · rw [group_t, locked g (by rw [groups]; exact List.mem_singleton_self _)]
    rfl
  · rw [group_t, locked g (by rw [groups]; exact List.mem_singleton_self _)]
    rfl
  · rw [group_t, others h (by rw [groups]; simpa using hh)]

theorem whCommandStart_opens {u₀ : DescUse} {us : List DescUse} {p : Seq} {raw : List Byte}
    (passes : s.whTest { c with descs := s.usesOf c.rec_ } = none) (off : s.fld F.TRC_CFG.ENABLE = 0)
    (near : ∀ u ∈ inputsOf (s.usesOf c.rec_), u.range.1 ≠ 3 ∧ s.homePoisoned u.range.1 u.range.2.1 u.range.2.2 = false)
    (kind : c.kind = .open_) (uses : s.usesOf c.rec_ = u₀ :: us) (input : u₀.out = false) (root : s.rootSeq? c = some p)
    (read : (descOf u₀.img).expand (s.inputBytes { c with descs := s.usesOf c.rec_ } u₀) = some raw) :
    let t := s.whCommandStart q seq
    ∃ x k, t.cmd? q seq = some x ∧ x.begun = true ∧ x.hold = none ∧
      x.stage = .staged ∧ k ∈ s.sbFreeList ∧ x.work.taken = [.block k] ∧ t.objCount (.block k) = 2 ∧
      x.work.images = [(k, { p.image with tailSealed := true })] ∧ t.wh.branches = s.wh.branches ∧
      t.wh.groups = s.wh.groups := by
  intro t
  obtain ⟨u, x, shape, set, engages, wh, kv, still⟩ := State.whCommandStart_works on there runs stage wellhead resident room core readable
    free kept passes fun _ => off
  obtain ⟨mm, fields⟩ := still off
  obtain ⟨⟨kind_x, -, -, begun_x⟩, ⟨q_x, seq_x, ctx_x, rec_x⟩, descs, data, work⟩ := engages.kept
  have wh_u : u.wh = s.wh := wh.trans (by
    unfold State.lockGroups
    rw [if_pos kind])
  have root_u : u.rootSeq? x = some p := by
    unfold State.rootSeq? State.seq State.fld at root ⊢
    rw [kv, fields, rec_x, ctx_x]
    exact root
  have list_u : u.sbFreeList = s.sbFreeList := by
    unfold State.sbFreeList State.sbTotal State.sbIsFree State.sbCountOf State.holdsObj State.fld
    rw [kv, fields, wh_u]
  have some_ : u.sbFreeList ≠ [] := by
    rw [list_u]
    exact State.whStartHold_room free kind
  have read_u : (descOf u₀.img).expand (u.inputBytes x u₀) = some raw := by
    rw [← read]
    exact congrArg _ (State.inputBytes_of_mm mm data u₀)
  have opens := State.openWork_opens set rfl rfl (descs.trans uses) input (State.InputsNear.engaged (c := c) mm descs near) root_u some_ read_u
  have works : u.whWork x = u.openWork x := by
    unfold State.whWork
    rw [show x.kind = .open_ from kind_x.trans kind]
  rw [← works] at opens
  obtain ⟨y, k, hy, stage_y, hold_y, begun_y, free_k, taken, count, images, groups, branches⟩ := opens
  have shape_t : t = (u.whWork x).settle c.ctx := shape
  clear_value t
  have wh_t : t.wh = (u.whWork x).wh := by
    rw [shape_t]
    exact ((MovedOn.refl (u.whWork x)).settle (ctx := c.ctx)).apart.2.1
  refine ⟨y, k, ?_, begun_y.trans begun_x, hold_y, stage_y, list_u ▸ free_k, taken, ?_, images,
    (congrArg Wh.branches wh_t).trans (branches.trans (by rw [wh_u])), (congrArg Wh.groups wh_t).trans (groups.trans (by rw [wh_u]))⟩
  · rw [shape_t]
    exact (State.cmd_settle _ _ _ _).trans hy
  · show look 0 t.wh.sbCount k = 2
    rw [wh_t]
    exact count

end

/-! ## Holds that end and groups re-derived -/

theorem State.holdResume_resumes (on : s.runs 313 = true) (there : s.cmd? q seq = some c) (held : c.hold ≠ none)
    (ended : s.holdOver c = true) : s.holdResume q seq = s.unhold c := by
  unfold State.holdResume
  rw [there]
  exact if_pos ⟨on, Option.isSome_iff_ne_none.mpr held, ended⟩

/-- The bytes of the ranges rs are poisoned no more. -/
theorem State.remade_clean (s : State) (rs : List (Nat × Nat × Nat)) :
    let t := rs.foldl State.remadeAt s
    t = { s with mm := t.mm } ∧ t.mm.dev = s.mm.dev ∧ t.mm.shared = s.mm.shared ∧
      (∀ x, x ∉ s.mm.poison → x ∉ t.mm.poison) ∧ (∀ x, x ∉ s.mm.poisonShared → x ∉ t.mm.poisonShared) ∧
      ∀ r ∈ rs, t.homePoisoned r.1 r.2.1 r.2.2 = false := by
  induction rs generalizing s with
  | nil => exact ⟨rfl, rfl, rfl, fun _ h => h, fun _ h => h, fun r hr => (List.not_mem_nil hr).elim⟩
  | cons r rs ih =>
    rw [List.foldl_cons]
    have first : s.remadeAt r = { s with mm := (s.remadeAt r).mm } ∧ (s.remadeAt r).mm.dev = s.mm.dev ∧
        (s.remadeAt r).mm.shared = s.mm.shared ∧ (∀ x, x ∉ s.mm.poison → x ∉ (s.remadeAt r).mm.poison) ∧
        (∀ x, x ∉ s.mm.poisonShared → x ∉ (s.remadeAt r).mm.poisonShared) ∧
        (r.1 = 0 → ∀ x ∈ units64 r.2.1 r.2.2, x ∉ (s.remadeAt r).mm.poison) ∧
        (r.1 ≠ 0 → ∀ x ∈ units64 r.2.1 r.2.2, x ∉ (s.remadeAt r).mm.poisonShared) := by
      unfold State.remadeAt
      dsimp only
      split
      next home =>
        refine ⟨rfl, rfl, rfl, fun x hx out => hx (List.mem_of_mem_filter out), fun _ h => h, fun _ x hx out => ?_,
          fun other => absurd home other⟩
        simpa [hx] using (List.mem_filter.mp out).2
      next home =>
        refine ⟨rfl, rfl, rfl, fun _ h => h, fun x hx out => hx (List.mem_of_mem_filter out), fun same => absurd same home,
          fun _ x hx out => ?_⟩
        simpa [hx] using (List.mem_filter.mp out).2
    obtain ⟨frame, dev, shared, poison, poisonShared, clean, cleanShared⟩ := first
    obtain ⟨frame_t, dev_t, shared_t, poison_t, poisonShared_t, clean_t⟩ := ih (s.remadeAt r)
    generalize s.remadeAt r = u at *
    generalize rs.foldl State.remadeAt u = t at *
    refine ⟨?_, dev_t.trans dev, shared_t.trans shared, fun x hx => poison_t x (poison x hx),
      fun x hx => poisonShared_t x (poisonShared x hx), fun r' hr' => ?_⟩
    · rw [frame_t, frame]
    · rcases List.mem_cons.mp hr' with rfl | later
      · unfold State.homePoisoned State.poisoned
        split
        · exact List.any_eq_false.mpr fun x hx => by simpa using poison_t x (clean ‹_› x hx)
        · exact List.any_eq_false.mpr fun x hx => by
            simpa using poisonShared_t x (cleanShared (by rw [‹r'.1 = 1›]; decide) x hx)
        · rfl
      · exact clean_t r' later

theorem rederiveDone_opens (on : s.runs 313 = true) {g : Nat} (derived : (s.group g).state = 3) :
    let t := s.rederiveDone g
    t.group g = { s.group g with state := 1, lock := none } ∧
      (∀ h, h ≠ g → t.group h = s.group h) ∧ t.wh.branches = s.wh.branches ∧
      (∀ r ∈ s.groupRanges g, t.homePoisoned r.1 r.2.1 r.2.2 = false) ∧ t.mm.dev = s.mm.dev ∧ t.mm.shared = s.mm.shared ∧
      t.fld F.WH_INT_STATUS.REDERIVE_DONE = 1 ∧ t.kv = s.kv ∧ t.cq = s.cq ∧ t.tl = s.tl := by
  have shape : s.rederiveDone g = ((((s.groupRanges g).foldl State.remadeAt s).setGroup g
      { s.group g with state := 1, lock := none }).setInt F.WH_INT_STATUS.REDERIVE_DONE) := if_pos ⟨on, derived⟩
  intro t
  have shape_t : t = _ := shape
  clear_value t
  obtain ⟨frame, dev, shared, -, -, clean⟩ := s.remade_clean (s.groupRanges g)
  generalize (s.groupRanges g).foldl State.remadeAt s = u at *
  obtain ⟨wh, kv, cq, tl⟩ : u.wh = s.wh ∧ u.kv = s.kv ∧ u.cq = s.cq ∧ u.tl = s.tl := by
    rw [frame]
    exact ⟨rfl, rfl, rfl, rfl⟩
  have group : ∀ h, u.group h = s.group h := fun h => by unfold State.group; rw [wh]
  let v := u.setGroup g { s.group g with state := 1, lock := none }
  have wh_t : t.wh = v.wh := by rw [shape_t]; exact State.setInt_wh _ _ _
  have mm_t : t.mm = u.mm := by rw [shape_t]; exact State.setInt_mm _ _ _
  have group_t : ∀ h, t.group h = v.group h := fun h => by unfold State.group; rw [wh_t]
  refine ⟨(group_t g).trans (State.group_setGroup _ _ _), fun h other => ?_, (congrArg Wh.branches wh_t).trans (congrArg Wh.branches wh :),
    fun r hr => ?_, (congrArg Mm.dev mm_t).trans dev, (congrArg Mm.shared mm_t).trans shared, ?_, ?_, ?_, ?_⟩
  · rw [group_t, State.group_setGroup_ne _ _ _ _ other, group]
  · have same := clean r hr
    unfold State.homePoisoned State.poisoned at same ⊢
    rw [mm_t]
    exact same
  · rw [shape_t]
    exact State.fld_setInt _ _ _
  · rw [shape_t, State.setInt_kv]
    exact kv
  · rw [shape_t, State.setInt_cq]
    exact cq
  · rw [shape_t, State.setInt_tl]
    exact tl

/-- Settles O52: a start is held, fails its test, or hands `State.whEngaged` to the command's work. -/
theorem wellheadStarts : Obligations.WellheadStarts := by
  intro s on
  refine ⟨fun q seq c there runs stage wellhead resident room core readable => ⟨fun h held => ?_, fun st free kept other fails => ?_,
    fun free kept passes kind => ?_, fun free kept passes off near => ⟨fun kind => ?_, fun u us p raw kind uses input root read => ?_⟩⟩,
    fun q seq c there held ended => ?_, fun g derived => ⟨_, rfl, rederiveDone_opens on derived⟩⟩
  · have holds := State.holdCmd_holds there h
    rw [← State.whCommandStart_holds on there runs stage wellhead resident room core readable held] at holds
    exact ⟨_, rfl, holds⟩
  · exact ⟨_, rfl, whCommandStart_fails on there runs stage wellhead resident room core readable free kept other fails⟩
  · obtain ⟨x, begins⟩ := whCommandStart_begins on there runs stage wellhead resident room core readable free kept passes kind
    exact ⟨_, x, rfl, begins⟩
  · obtain ⟨x, prunes⟩ := whCommandStart_prunes on there runs stage wellhead resident room core readable free kept passes off near kind
    exact ⟨_, x, rfl, prunes⟩
  · obtain ⟨x, k, opens⟩ := whCommandStart_opens on there runs stage wellhead resident room core readable free kept passes off near kind
      uses input root read
    exact ⟨_, x, k, rfl, opens⟩
  · obtain ⟨freed, moved, still⟩ := State.unhold_frees there
    rw [← State.holdResume_resumes on there held ended] at freed moved still
    obtain ⟨kv, wh, tl⟩ := moved.apart
    exact ⟨_, rfl, freed, kv, wh, tl, fun off => congrArg Regs.fields (still (.inr off)).2.1⟩

end Sys2Proof.Machine
end

section
/-! SUPPORT. A step of a group begins, is held, and is closed (R46, R48, R53, R54, R69, R200), and O53. -/

namespace Sys2Proof.Machine

variable {s t : State} {c d : Cmd} {q seq : Nat}

/-! ## Branches of a command's work -/

/-- An entry put in a map is found there, when it is not the map's default. -/
theorem find_put_self {α : Type} [DecidableEq α] {z v : α} (some_ : v ≠ z) (m : SMap α) (k : Nat) :
    (put z m k v).find? (fun e => e.1 == k) = some (k, v) := by
  induction m with
  | nil => rw [put, if_neg some_]; simp
  | cons e m ih =>
    obtain ⟨j, w⟩ := e
    rw [put]
    by_cases before : k < j
    · rw [if_pos before, if_neg some_]
      simp
    · by_cases here : k = j
      · rw [if_neg before, if_pos here, if_neg some_]
        simp
      · rw [if_neg before, if_neg here, List.find?_cons_of_neg (by simpa using fun e => here e.symm)]
        exact ih

theorem find_put_other {α : Type} [DecidableEq α] {z v : α} (some_ : v ≠ z) (m : SMap α) {j k : Nat} (other : j ≠ k) :
    (put z m k v).find? (fun e => e.1 == j) = m.find? (fun e => e.1 == j) := by
  induction m with
  | nil => rw [put, if_neg some_]; simp [other.symm]
  | cons e m ih =>
    obtain ⟨i, w⟩ := e
    rw [put]
    by_cases before : k < i
    · rw [if_pos before, if_neg some_, List.find?_cons_of_neg (by simpa using other.symm)]
    · by_cases here : k = i
      · subst here
        rw [if_neg before, if_pos rfl, if_neg some_, List.find?_cons_of_neg (by simpa using other.symm),
          List.find?_cons_of_neg (by simpa using other.symm)]
      · rw [if_neg before, if_neg here, List.find?_cons, List.find?_cons, ih]

/-! ## The close of one branch -/

theorem Branch.after_some (br : Branch) (x : Group) (im : Image) (n : Nat) (h : HeadOut) : br.after x im n h ≠ {} := by
  intro none
  have steps : br.steps + 1 = 0 := congrArg Branch.steps none
  omega

/-- What the close of branches leaves of the command: its work's branches and images alone have moved. -/
def Cmd.Closing (c d : Cmd) : Prop := d = { c with work := { c.work with branches := d.work.branches, images := d.work.images } }

theorem State.wbranch_of (branches : d.work.branches.find? (fun e => e.1 == q) = c.work.branches.find? (fun e => e.1 == q))
    (wh : t.wh.branches = s.wh.branches) : t.wbranch d q = s.wbranch c q := by
  unfold State.wbranch
  rw [branches, wh]

theorem State.closeBranch_closes {k n : Nat} (h : HeadOut) (block : (s.wbranch c k).block ≠ none) :
    let r := s.closeBranch c n k h
    Quiet s r.1 ∧ c.Closing r.2 ∧ (∃ im, r.1.wbranch r.2 k = (s.wbranch c k).after (s.group (k / 4096)) im n h) ∧
      (∀ j, j ≠ k → r.1.wbranch r.2 j = s.wbranch c j) ∧ r.1.kv = s.kv ∧ r.1.tl = s.tl := by
  obtain ⟨b, there⟩ := Option.ne_none_iff_exists'.mp block
  obtain ⟨im, images, shape⟩ : ∃ im images, s.closeBranch c n k h = (s.devWrite (s.sbAddr b) (h.state.take s.sbSize),
      { c with work := { c.work with
        branches := put {} c.work.branches k ((s.wbranch c k).after (s.group (k / 4096)) im n h), images := images } }) := by
    unfold State.closeBranch
    dsimp only
    rw [there]
    exact ⟨_, _, rfl⟩
  rw [shape]
  have wrote : Quiet s (s.devWrite (s.sbAddr b) (h.state.take s.sbSize)) := (Quiet.refl s).devWrite
  have some_ := Branch.after_some (s.wbranch c k) (s.group (k / 4096)) im n h
  refine ⟨wrote, rfl, ⟨im, ?_⟩, fun j other => ?_, State.devWrite_kv _ _ _, State.devWrite_tl _ _ _⟩
  · unfold State.wbranch at some_ ⊢
    dsimp only
    rw [find_put_self some_]
  · exact State.wbranch_of (find_put_other some_ _ other) wrote.branches

/-- The close of the branches ks, one after another. -/
def State.closeAll (s : State) (c : Cmd) (n : Nat) (heads : List HeadOut) (ks : List Nat) : State × Cmd :=
  ks.foldl (fun (t : State × Cmd) k => match headFor heads k with
    | some h => t.1.closeBranch t.2 n k h
    | none => t) (s, c)

theorem State.closeAll_closes (n : Nat) (heads : List HeadOut) (ks : List Nat)
    (ready : ∀ k ∈ ks, (headFor heads k).isSome = true ∧ (s.wbranch c k).block ≠ none) (apart : ks.Nodup) :
    let r := s.closeAll c n heads ks
    Quiet s r.1 ∧ c.Closing r.2 ∧
      (∀ k ∈ ks, ∀ h, headFor heads k = some h → ∃ im, r.1.wbranch r.2 k = (s.wbranch c k).after (s.group (k / 4096)) im n h) ∧
      (∀ j, j ∉ ks → r.1.wbranch r.2 j = s.wbranch c j) ∧ r.1.kv = s.kv ∧ r.1.tl = s.tl := by
  induction ks generalizing s c with
  | nil => exact ⟨.refl s, rfl, fun k hk => (List.not_mem_nil hk).elim, fun _ _ => rfl, rfl, rfl⟩
  | cons k ks ih =>
    obtain ⟨out, apart'⟩ := List.nodup_cons.mp apart
    obtain ⟨some_, block⟩ := ready k List.mem_cons_self
    obtain ⟨h, head⟩ := Option.isSome_iff_exists.mp some_
    obtain ⟨quiet, closing, ⟨im, closed⟩, others, kv, tl⟩ := State.closeBranch_closes (n := n) h block
    have shape : s.closeAll c n heads (k :: ks) = (s.closeBranch c n k h).1.closeAll (s.closeBranch c n k h).2 n heads ks := by
      unfold State.closeAll
      rw [List.foldl_cons, head]
    rw [shape]
    generalize s.closeBranch c n k h = r at *
    have kept : ∀ j ∈ ks, r.1.wbranch r.2 j = s.wbranch c j := fun j hj => others j fun same => out (same ▸ hj)
    obtain ⟨quiet', closing', closed', others', kv', tl'⟩ := ih (s := r.1) (c := r.2)
      (fun j hj => by rw [kept j hj]; exact ready j (List.mem_cons_of_mem _ hj)) apart'
    have group : r.1.group = s.group := by unfold State.group; rw [quiet.groups]
    refine ⟨quiet.trans quiet', ?_, fun j hj h' head' => ?_, fun j hj => ?_, kv'.trans kv, tl'.trans tl⟩
    · unfold Cmd.Closing at closing closing' ⊢
      rw [closing', closing]
    · rcases List.mem_cons.mp hj with rfl | later
      · obtain rfl : h = h' := Option.some.inj (head.symm.trans head')
        exact ⟨im, (others' j out).trans closed⟩
      · obtain ⟨im', done⟩ := closed' j later h' head'
        exact ⟨im', by rw [done, kept j later, group]⟩
    · obtain ⟨other, later⟩ : j ≠ k ∧ j ∉ ks := by simpa using hj
      exact (others' j later).trans (others j other)

/-! ## STEP_CLOSE -/

theorem State.homeWrite_quiet (s : State) (home a : Nat) (l : List Byte) :
    Quiet s (s.homeWrite home a l) ∧ (s.homeWrite home a l).kv = s.kv ∧ (s.homeWrite home a l).tl = s.tl := by
  unfold State.homeWrite
  split
  · exact ⟨(Quiet.refl s).devWrite, State.devWrite_kv _ _ _, State.devWrite_tl _ _ _⟩
  · exact ⟨(Quiet.refl s).same, rfl, rfl⟩
  · exact ⟨.refl s, rfl, rfl⟩

theorem State.writeRows_quiet (s : State) (b c : Cmd) (heads : List HeadOut) (g : Nat) :
    Quiet s (s.writeRows b c heads g) ∧ (s.writeRows b c heads g).kv = s.kv ∧ (s.writeRows b c heads g).tl = s.tl := by
  unfold State.writeRows
  extract_lets x d n
  split
  · exact ⟨.refl s, rfl, rfl⟩
  · refine List.foldlRecOn (motive := fun t : State => Quiet s t ∧ t.kv = s.kv ∧ t.tl = s.tl) _ _ ⟨.refl s, rfl, rfl⟩ fun t h j _ => ?_
    obtain ⟨quiet, kv, tl⟩ := h
    obtain ⟨quiet', kv', tl'⟩ := t.homeWrite_quiet d.home _ _
    exact ⟨quiet.trans quiet', kv'.trans kv, tl'.trans tl⟩

/-- The state and the command with a step's rows written and its record moved on, of command c whose branches r has closed. -/
def Cmd.stepMoved (c : Cmd) (r : State × Cmd) (heads : List HeadOut) : State × Cmd :=
  let gs := (r.2.work.stepped.map (· / 4096)).dedup
  let v := gs.foldl (fun u g => u.writeRows c r.2 heads g) r.1
  (v, { r.2 with
    layers := []
    tileBase := r.2.tileBase + v.stepTiles c
    work := { r.2.work with
      inStep := false, step := r.2.work.step + 1
      ran := r.2.groups.map (fun g => (g, r.2.work.ranOf g + b2n (gs.contains g)))
      list := [r.2.work.list.headD 0 + r.2.work.stepped.length] } })

/-- The state and the command with a step's branches closed and its rows written. -/
def State.stepClosed (s : State) (c : Cmd) (heads : List HeadOut) : State × Cmd :=
  c.stepMoved (s.closeAll c (Config.imageTokens (s.stepImage c).desc (s.stepImage c).version) heads c.work.stepped) heads

theorem Cmd.stepMoved_moves (c : Cmd) (r : State × Cmd) (heads : List HeadOut) :
    let m := c.stepMoved r heads
    Quiet r.1 m.1 ∧ m.1.kv = r.1.kv ∧ m.1.tl = r.1.tl ∧ (m.2.q = r.2.q ∧ m.2.seq = r.2.seq ∧ m.2.rec_ = r.2.rec_) ∧
      (m.2.work.step = r.2.work.step + 1 ∧ m.2.work.inStep = false ∧ m.2.layers = []) ∧ m.2.work.branches = r.2.work.branches := by
  intro m
  obtain ⟨quiet, kv, tl⟩ : Quiet r.1 m.1 ∧ m.1.kv = r.1.kv ∧ m.1.tl = r.1.tl := by
    refine List.foldlRecOn (motive := fun t : State => Quiet r.1 t ∧ t.kv = r.1.kv ∧ t.tl = r.1.tl) _ _ ⟨.refl _, rfl, rfl⟩
      fun t h g _ => ?_
    obtain ⟨quiet, kv, tl⟩ := h
    obtain ⟨quiet', kv', tl'⟩ := t.writeRows_quiet c r.2 heads g
    exact ⟨quiet.trans quiet', kv'.trans kv, tl'.trans tl⟩
  exact ⟨quiet, kv, tl, ⟨rfl, rfl, rfl⟩, ⟨rfl, rfl, rfl⟩, rfl⟩

theorem State.stepClosed_closes {heads : List HeadOut} (apart : c.work.stepped.Nodup)
    (ready : ∀ k ∈ c.work.stepped, (headFor heads k).isSome = true ∧ (s.wbranch c k).block ≠ none) :
    let r := s.stepClosed c heads
    Quiet s r.1 ∧ r.1.kv = s.kv ∧ r.1.tl = s.tl ∧ (r.2.q = c.q ∧ r.2.seq = c.seq ∧ r.2.rec_ = c.rec_) ∧
      (r.2.work.step = c.work.step + 1 ∧ r.2.work.inStep = false ∧ r.2.layers = []) ∧
      ∀ k ∈ c.work.stepped, ∀ h, headFor heads k = some h → ∃ im, r.1.wbranch r.2 k =
        (s.wbranch c k).after (s.group (k / 4096)) im (Config.imageTokens (s.stepImage c).desc (s.stepImage c).version) h := by
  obtain ⟨quiet, closing, closed, -, kv, tl⟩ := State.closeAll_closes
    (Config.imageTokens (s.stepImage c).desc (s.stepImage c).version) heads c.work.stepped ready apart
  unfold State.stepClosed
  generalize s.closeAll c (Config.imageTokens (s.stepImage c).desc (s.stepImage c).version) heads c.work.stepped = u at *
  obtain ⟨quiet', kv', tl', ⟨q_r, seq_r, rec_r⟩, ⟨step, inStep, layers⟩, branches⟩ := c.stepMoved_moves u heads
  unfold Cmd.Closing at closing
  have key : u.2.q = c.q ∧ u.2.seq = c.seq ∧ u.2.rec_ = c.rec_ ∧ u.2.work.step = c.work.step := by
    rw [closing]
    exact ⟨rfl, rfl, rfl, rfl⟩
  obtain ⟨q_u, seq_u, rec_u, step_u⟩ := key
  refine ⟨quiet.trans quiet', kv'.trans kv, tl'.trans tl, ⟨q_r.trans q_u, seq_r.trans seq_u, rec_r.trans rec_u⟩,
    ⟨step.trans (by rw [step_u]), inStep, layers⟩, fun k hk h head => ?_⟩
  obtain ⟨im, done⟩ := closed k hk h head
  exact ⟨im, (State.wbranch_of (by rw [branches]) quiet'.branches).trans done⟩

/-- A close moves the command to its next step, or stages it after the last one. -/
theorem State.stepClose_ends {heads : List HeadOut} (on : s.runs 313 = true) (there : s.cmd? q seq = some c) (kind : c.kind = .step)
    (running : c.stage = .running) (inStep : c.work.inStep = true) (ended : c.layers.all (fun l => l.ended) = true)
    (ready : ∀ k ∈ c.work.stepped, (headFor heads k).isSome = true) :
    let r := s.stepClosed c heads
    let w := r.1.setCmd r.2
    s.stepClose q seq heads = w.stagedNow r.2 ∨ s.stepClose q seq heads = w.settle r.2.ctx ∧ r.2.work.step ≠ field r.2.rec_ 0x11 1 := by
  have all : c.work.stepped.all (fun k => (headFor heads k).isSome) = true := List.all_eq_true.mpr ready
  intro r w
  have shape : s.stepClose q seq heads =
      if r.2.work.step = field r.2.rec_ 0x11 1 ∨ r.2.groups.all (fun g => (w.indicesIn r.2 g (· = 1)).isEmpty)
      then w.stagedNow r.2 else w.settle r.2.ctx := by
    unfold State.stepClose
    rw [there]
    dsimp only
    rw [if_pos (⟨on, kind, running, inStep, ended, all⟩ : s.runs 313 = true ∧ c.kind = .step ∧ c.stage = .running ∧ c.work.inStep = true ∧
      c.layers.all (fun l => l.ended) = true ∧ c.work.stepped.all (fun k => (headFor heads k).isSome) = true)]
    rfl
  rw [shape]
  split
  · exact .inl rfl
  next more => exact .inr ⟨rfl, fun last => more (.inl last)⟩

theorem stepClose_closes {heads : List HeadOut} (on : s.runs 313 = true) (there : s.cmd? q seq = some c) (kind : c.kind = .step)
    (running : c.stage = .running) (inStep : c.work.inStep = true) (ended : c.layers.all (fun l => l.ended) = true)
    (ready : ∀ k ∈ c.work.stepped, (headFor heads k).isSome = true ∧ (s.wbranch c k).block ≠ none) (apart : c.work.stepped.Nodup) :
    let t := s.stepClose q seq heads
    ∃ x, t.cmd? q seq = some x ∧ x.work.step = c.work.step + 1 ∧
      x.work.inStep = false ∧ x.layers = [] ∧ (c.work.step + 1 = field c.rec_ 0x11 1 → x.stage = .staged) ∧
      (∀ k ∈ c.work.stepped, ∀ h, headFor heads k = some h →
        let b := s.wbranch c k
        let y := t.wbranch x k
        y.score = BitVec.ofNat 32
          (f32add b.score.toNat (f32mul (gammaPow (s.group (k / 4096)).gamma b.steps) h.reward.toNat)) ∧
        y.value = h.value ∧ y.steps = b.steps + 1 ∧
        y.positions = b.positions + Config.imageTokens (s.stepImage c).desc (s.stepImage c).version) ∧
      t.wh.branches = s.wh.branches ∧ t.kv = s.kv ∧ t.tl = s.tl := by
  have ends := State.stepClose_ends on there kind running inStep ended fun k hk => (ready k hk).1
  obtain ⟨quiet, kv, tl, ⟨q_r, seq_r, rec_r⟩, ⟨step, inStep_r, layers⟩, closed⟩ := State.stepClosed_closes (heads := heads) apart ready
  intro t
  dsimp only at ends quiet kv tl q_r seq_r rec_r step inStep_r layers closed
  change t = _ ∨ t = _ ∧ _ at ends
  clear_value t
  generalize s.stepClosed c heads = r at *
  have there_r : r.1.cmd? q seq = some c := by
    unfold State.cmd? at there ⊢
    rw [quiet.cmds]
    exact there
  have set : (r.1.setCmd r.2).cmd? q seq = some r.2 := State.cmd_set there_r q_r seq_r
  obtain ⟨x, hx, work, layers_x, staged, whole⟩ : ∃ x, t.cmd? q seq = some x ∧ x.work = r.2.work ∧ x.layers = r.2.layers ∧
      (c.work.step + 1 = field c.rec_ 0x11 1 → x.stage = .staged) ∧ MovedOn r.1 t := by
    obtain rfl | ⟨rfl, more⟩ := ends
    · refine ⟨_, (State.cmd_settle _ _ _ _).trans (State.cmd_set set rfl rfl), rfl, rfl, fun _ => rfl, ?_⟩
      exact (MovedOn.refl r.1).setCmd.setCmd.settle
    · exact ⟨r.2, (State.cmd_settle _ _ _ _).trans set, rfl, rfl, fun last => absurd (step.trans (last.trans (by rw [rec_r]))) more,
        (MovedOn.refl r.1).setCmd.settle⟩
  obtain ⟨kv_t, wh_t, tl_t⟩ := whole.apart
  refine ⟨x, hx, by rw [work]; exact step, by rw [work]; exact inStep_r, layers_x.trans layers, staged, fun k hk h head => ?_,
    (congrArg Wh.branches wh_t).trans quiet.branches, kv_t.trans kv, tl_t.trans tl⟩
  obtain ⟨im, done⟩ := closed k hk h head
  have same : t.wbranch x k = r.1.wbranch r.2 k := State.wbranch_of (by rw [work]) (by rw [wh_t])
  dsimp only
  rw [same, done]
  exact ⟨rfl, rfl, rfl, rfl⟩

end Sys2Proof.Machine
end

section
/-! SUPPORT. The start of a step of a group: what is engaged, what is held, and what runs (R46, R48, R54, R69, R200), and O53. -/

namespace Sys2Proof.Machine

variable {s t u : State} {c d : Cmd} {q seq : Nat}

/-! ## Groups that begin to evict -/

/-- Two records of a group that differ in the step at which it began to evict, at most. -/
def Group.Evicting (x y : Group) : Prop := y = { x with evictStep := y.evictStep }

/-- The state in which the groups of gs evict from step n on. -/
def State.evictFrom (s : State) (n : Nat) (gs : List Nat) : State :=
  gs.foldl (fun s g => if (s.group g).evictStep.isNone then s.setGroup g { (s.group g) with evictStep := some n } else s) s

theorem State.evictFrom_leaves (s : State) (n : Nat) (gs : List Nat) :
    s.evictFrom n gs = { s with wh := { s.wh with groups := (s.evictFrom n gs).wh.groups } } ∧
      ∀ g, (s.group g).Evicting ((s.evictFrom n gs).group g) := by
  refine List.foldlRecOn (motive := fun t : State => t = { s with wh := { s.wh with groups := t.wh.groups } } ∧
    ∀ g, (s.group g).Evicting (t.group g)) _ _ ⟨rfl, fun _ => rfl⟩ fun t h g _ => ?_
  obtain ⟨frame, groups⟩ := h
  dsimp only
  split
  · refine ⟨?_, fun j => ?_⟩
    · conv_lhs => rw [frame]
      rfl
    · by_cases here : j = g
      · subst here
        rw [State.group_setGroup]
        have same := groups j
        unfold Group.Evicting at same ⊢
        conv_lhs => rw [same]
      · rw [State.group_setGroup_ne _ _ _ _ here]
        exact groups j
  · exact ⟨frame, groups⟩

/-! ## What the start of a step does to its command -/

/-- What the staging of branches leaves of a command: all but its work, and there the step. -/
def Cmd.Staging (c d : Cmd) : Prop := d = { c with work := d.work } ∧ d.work.step = c.work.step

theorem Cmd.Staging.trans {e : Cmd} (h : c.Staging d) (h' : d.Staging e) : c.Staging e := by
  obtain ⟨same, step⟩ := h
  obtain ⟨same', step'⟩ := h'
  refine ⟨?_, step'.trans step⟩
  conv_lhs => rw [same', same]

theorem Quiet.addCnt (h : Quiet s t) {k : Cnt} {n i b : Nat} : Quiet s (t.addCnt k n i b) := h.same

theorem Quiet.writePageRecord (h : Quiet s t) {p : Nat} : Quiet s (t.writePageRecord p) := h.devWrite

theorem Quiet.takePage (h : Quiet s t) {ctx p : Nat} (took : t.takePage ctx = some (p, u)) : Quiet s u := by
  unfold State.takePage at took
  split at took
  · cases took
  · split at took
    · cases took
    · extract_lets foreign a z b v at took
      have taken : Quiet s z := by
        simp only [z]
        exact .either (.addCnt (.addCnt (.devWrite h.same))) h.same
      have ready : Quiet s b := taken.same
      clear_value b
      obtain ⟨-, rfl⟩ := Prod.mk.inj (Option.some.inj took)
      exact Quiet.writePageRecord ready.same

theorem Quiet.takePages (h : Quiet s t) {n ctx : Nat} : Quiet s (State.takePages n t ctx).2 := by
  induction n generalizing t with
  | zero => exact h
  | succ n ih =>
    unfold State.takePages
    split
    · exact h
    next p u taken => exact ih (h.takePage taken)

theorem Quiet.takeBlock (h : Quiet s t) {k : Nat} (took : t.takeBlock = some (k, u)) : Quiet s u := by
  unfold State.takeBlock at took
  split at took
  · cases took
  · obtain ⟨-, rfl⟩ := Prod.mk.inj (Option.some.inj took)
    exact h.same

theorem Quiet.lowCheck (h : Quiet s t) {before : Nat} : Quiet s (t.lowCheck before) := by
  unfold State.lowCheck
  extract_lets m
  exact .either (h.setInt (by decide)) h

theorem State.stageBranch_stages (s : State) (c : Cmd) (tokens gi : Nat) (p : Prep) :
    Quiet s (s.stageBranch c tokens gi p).1 ∧ c.Staging (s.stageBranch c tokens gi p).2 := by
  unfold State.stageBranch
  extract_lets br g
  split
  · exact ⟨.refl s, rfl, rfl⟩
  next k u took => exact ⟨((Quiet.refl s).takeBlock took).dropRefs.takePages, rfl, rfl⟩

/-- The branches of ps, staged one after another. -/
def State.stageAll (s : State) (c : Cmd) (tokens : Nat) (ps : List Prep) : State × Cmd :=
  ps.foldl (fun t p => t.1.stageBranch t.2 tokens (c.groups.findIdx (· == p.key / 4096)) p) (s, c)

theorem State.stageAll_stages (s : State) (c : Cmd) (tokens : Nat) (ps : List Prep) :
    Quiet s (s.stageAll c tokens ps).1 ∧ c.Staging (s.stageAll c tokens ps).2 := by
  refine List.foldlRecOn (motive := fun t : State × Cmd => Quiet s t.1 ∧ c.Staging t.2) _ _ ⟨.refl s, rfl, rfl⟩ fun t h p _ => ?_
  obtain ⟨quiet, staging⟩ := h
  obtain ⟨quiet', staging'⟩ := State.stageBranch_stages t.1 t.2 tokens (c.groups.findIdx (· == p.key / 4096)) p
  exact ⟨quiet.trans quiet', staging.trans staging'⟩

/-- Each segment of a step runs the image's plans of that segment. -/
theorem State.stepLayers_plans (s : State) (c : Cmd) : (s.stepLayers c).map (fun l => l.plan) =
    (s.stepSegments c).flatMap (Config.imagePlans (s.stepImage c).desc (s.stepImage c).version) := by
  unfold State.stepLayers
  dsimp only
  generalize s.stepSegments c = gs
  suffices all : ∀ (a : List Layer), (gs.foldl _ a).map (fun l : Layer => l.plan) = a.map (fun l => l.plan) ++ gs.flatMap _ from
    all []
  induction gs with
  | nil => intro a; simp
  | cons g gs ih =>
    intro a
    rw [List.foldl_cons, ih, List.flatMap_cons, List.map_append, List.append_assoc, List.map_map]
    congr 2
    refine List.ext_getElem (by simp) fun i h _ => ?_
    rw [List.getElem_map, List.getElem_range]
    exact (List.getElem_eq_getD _).symm

theorem State.requestFirst_wh (s : State) (c : Cmd) : (s.requestFirst c).wh = s.wh := by
  unfold State.requestFirst
  extract_lets u
  refine List.foldlRecOn (motive := fun t : State => t.wh = s.wh) _ _ ?_ fun t h l _ => ?_
  · simp only [u]
    rw [State.applyField_frame]
  · unfold State.requestWindow
    split <;> exact h

/-- The start of a step that is neither held for a block nor for pages: its pages freed, its branches staged, its layers made. -/
def State.stepGoes (s : State) (c : Cmd) (tokens : Nat) (ps : List Prep) (freed : List Nat) : State :=
  let s := s.unhold c
  let before := s.kvpFree
  let r := s.returnFreed { c with hold := none, work := { c.work with stepped := [], mass := [] } } freed
  let t := r.1.stageAll r.2 tokens ps
  let evs := ps.foldl (fun n p => n + p.evicted) 0
  let s := (t.1.lowCheck before).addCnt C.KVP_CNT_EVICTED evs
  let c := { t.2 with work := { t.2.work with inStep := true }, layers := s.stepLayers t.2 }
  let s := s.setCmd c
  (if c.layers.any (fun l => l.windowBytes ≠ 0) then s.requestFirst c else s).settle c.ctx

theorem State.stepGoes_goes (there : s.cmd? q seq = some c) (tokens : Nat) (ps : List Prep) (freed : List Nat) :
    ∃ x, (s.stepGoes c tokens ps freed).cmd? q seq = some x ∧ x.hold = none ∧ x.work.inStep = true ∧ x.work.step = c.work.step ∧
      (s.stepGoes c tokens ps freed).wh.branches = s.wh.branches ∧
      x.layers.map (fun l => l.plan) = (s.stepSegments c).flatMap (Config.imagePlans (s.stepImage c).desc (s.stepImage c).version) := by
  unfold State.stepGoes
  extract_lets a before left r b evs v worked work x w
  obtain ⟨there_a, moved, -⟩ := State.unhold_frees there
  obtain ⟨-, wh_a, -⟩ := moved.apart
  change a.cmd? q seq = _ at there_a
  change a.wh = _ at wh_a
  clear_value a
  have freed_r : Quiet a r.1 := (Quiet.foldl (.refl a) fun _ _ h => h.setObjCount).unstage
  have staging_r : ({ c with hold := none } : Cmd).Staging r.2 := ⟨rfl, rfl⟩
  clear_value r
  obtain ⟨staged, staging⟩ : Quiet r.1 b.1 ∧ r.2.Staging b.2 := State.stageAll_stages _ _ _ _
  clear_value b
  have quiet : Quiet a v := Quiet.same (freed_r.trans staged).lowCheck
  clear_value v
  obtain ⟨same, step⟩ := staging_r.trans staging
  have set : w.cmd? q seq = some x := by
    refine State.cmd_set (c := { c with hold := none }) ?_ ?_ ?_
    · unfold State.cmd? at there_a ⊢
      rw [quiet.cmds]
      exact there_a
    · exact (congrArg Cmd.q same :)
    · exact (congrArg Cmd.seq same :)
  have group : ∀ g, v.group g = s.group g := fun g => by
    unfold State.group
    rw [quiet.groups, wh_a]
  have image : v.stepImage b.2 = s.stepImage c := by
    unfold State.stepImage
    rw [same, group]
  have segments : v.stepSegments b.2 = s.stepSegments c := by
    unfold State.stepSegments
    rw [same]
    simp only [group]
    rfl
  refine ⟨x, ?_, (congrArg Cmd.hold same :), rfl, step, ?_, (v.stepLayers_plans b.2).trans (by rw [image, segments])⟩
  · rw [State.cmd_settle]
    split
    · unfold State.cmd? at set ⊢
      rw [State.requestFirst_cq]
      exact set
    · exact set
  · obtain ⟨-, wh, -⟩ := ((MovedOn.refl _).settle (ctx := x.ctx)).apart
    rw [wh]
    have kept : w.wh.branches = s.wh.branches := quiet.branches.trans (congrArg Wh.branches wh_a)
    split
    · rw [State.requestFirst_wh]
      exact kept
    · exact kept

/-! ## STEP_START -/

theorem State.returnStepDrops_none (none_ : c.work.stepDrops = []) : s.returnStepDrops c = (s, c) := by
  unfold State.returnStepDrops
  obtain ⟨q, seq, ctx, client, kind, rec_, acceptedAt, journalled, stage, hold, epoch, cflags, status, result, detail, descs, gauges,
    counters, reserved, appendTo, layers, work⟩ := c
  obtain ⟨groups, step, inStep, branches, images, taken, added, drops, stepDrops⟩ := work
  dsimp only at none_ ⊢
  subst none_
  simp [State.unstage]

/-- The start of a step that may run and whose inputs can be read: held for a block, held for pages, or it goes. -/
theorem State.stepStart_starts (on : s.runs 313 = true) (there : s.cmd? q seq = some c) (kind : c.kind = .step)
    (running : c.stage = .running) (resident : s.resident c.ctx = true) (free : (s.ctx c.ctx).st ≠ .yielding)
    (idle : c.work.inStep = false) (more : c.work.step < field c.rec_ 0x11 1) (here : c.inputsHere = true)
    (readable : s.inputsReadable c.descs = true) (none_ : c.work.stepDrops = []) :
    let u := s.setCmd c
    let tokens := Config.imageTokens (s.stepImage c).desc (s.stepImage c).version
    let plan := u.planStep c tokens u.kvpFree c.groups
    let preps := plan.flatMap (fun p => p.2.2)
    let freed := preps.flatMap (fun p => p.freed)
    let e := u.evictFrom c.work.step ((plan.filter (fun p => p.2.1)).map (·.1))
    s.stepStart q seq =
      if e.sbFreeList.length < preps.length then e.holdCmd c .state
      else if e.kvpFree + freed.length < preps.foldl (fun n p => n + e.prepNeed tokens p) 0 then e.holdCmd c .page
      else e.stepGoes c tokens preps freed := by
  intro u tokens plan preps freed e
  unfold State.stepStart
  rw [there]
  dsimp only
  rw [if_pos ⟨on, resident, free, kind, running, by simp [idle], more, here⟩, if_neg (by simp [readable]),
    State.returnStepDrops_none none_]
  rfl

theorem stepStart_starts (on : s.runs 313 = true) (there : s.cmd? q seq = some c) (kind : c.kind = .step)
    (running : c.stage = .running) (resident : s.resident c.ctx = true) (free : (s.ctx c.ctx).st ≠ .yielding)
    (idle : c.work.inStep = false) (more : c.work.step < field c.rec_ 0x11 1) (here : c.inputsHere = true)
    (readable : s.inputsReadable c.descs = true) (none_ : c.work.stepDrops = []) :
    let u := s.setCmd c
    let im := s.stepImage c
    let tokens := Config.imageTokens im.desc im.version
    let preps := (u.planStep c tokens u.kvpFree c.groups).flatMap (fun p => p.2.2)
    let pages := preps.foldl (fun n p => n + u.prepNeed tokens p) 0
    let free := u.kvpFree + (preps.flatMap (fun p => p.freed)).length
    let t := s.stepStart q seq
    (u.sbFreeList.length < preps.length →
      ∃ x, t.cmd? q seq = some x ∧ x.hold = some .state ∧
        x.work.inStep = false ∧ t.kv = s.kv ∧ t.wh.branches = s.wh.branches ∧ t.wh.sbCount = s.wh.sbCount) ∧
    (preps.length ≤ u.sbFreeList.length → free < pages →
      ∃ x, t.cmd? q seq = some x ∧ x.hold = some .page ∧
        x.work.inStep = false ∧ t.kv = s.kv ∧ t.wh.branches = s.wh.branches ∧ t.wh.sbCount = s.wh.sbCount) ∧
    (preps.length ≤ u.sbFreeList.length → pages ≤ free →
      ∃ x, t.cmd? q seq = some x ∧ x.hold = none ∧
        x.work.inStep = true ∧ x.work.step = c.work.step ∧ t.wh.branches = s.wh.branches ∧
        x.layers.map (fun l => l.plan) = (s.stepSegments c).flatMap (Config.imagePlans im.desc im.version)) := by
  intro u im tokens preps pages room t
  obtain ⟨e, shape⟩ : ∃ e, e = u.evictFrom c.work.step
      (((u.planStep c tokens u.kvpFree c.groups).filter (fun p => p.2.1)).map (·.1)) := ⟨_, rfl⟩
  have starts : t = if e.sbFreeList.length < preps.length then e.holdCmd c .state
      else if e.kvpFree + (preps.flatMap (fun p => p.freed)).length < preps.foldl (fun n p => n + e.prepNeed tokens p) 0
      then e.holdCmd c .page else e.stepGoes c tokens preps (preps.flatMap (fun p => p.freed)) := by
    rw [shape]
    exact State.stepStart_starts on there kind running resident free idle more here readable none_
  obtain ⟨frame, groups⟩ := u.evictFrom_leaves c.work.step
    (((u.planStep c tokens u.kvpFree c.groups).filter (fun p => p.2.1)).map (·.1))
  rw [← shape] at frame groups
  have blocks : e.sbFreeList = u.sbFreeList := by rw [frame]; rfl
  have pool : e.kvpFree = u.kvpFree := by rw [frame]; rfl
  have needs : e.prepNeed = u.prepNeed := by rw [frame]; rfl
  rw [blocks, pool, needs] at starts
  change t = if u.sbFreeList.length < preps.length then _ else if room < pages then _ else _ at starts
  have there_e : e.cmd? q seq = some c := by
    rw [frame]
    exact State.cmd_set there rfl rfl
  have kept : e.kv = s.kv ∧ e.wh.branches = s.wh.branches ∧ e.wh.sbCount = s.wh.sbCount := by
    rw [frame]
    exact ⟨rfl, rfl, rfl⟩
  have groups_e : ∀ g, (s.group g).Evicting (e.group g) := groups
  clear_value t preps pages room tokens u
  obtain ⟨kv, branches, sbCount⟩ := kept
  have held : ∀ h, t = e.holdCmd c h → ∃ x, t.cmd? q seq = some x ∧ x.hold = some h ∧
      x.work.inStep = false ∧ t.kv = s.kv ∧ t.wh.branches = s.wh.branches ∧ t.wh.sbCount = s.wh.sbCount := by
    rintro h rfl
    obtain ⟨set, kv_t, wh_t, -⟩ := State.holdCmd_holds there_e h
    exact ⟨_, set, rfl, idle, kv_t.trans kv, by rw [wh_t]; exact branches, by rw [wh_t]; exact sbCount⟩
  refine ⟨fun short => ?_, fun enough short => ?_, fun enough enough' => ?_⟩
  · rw [if_pos short] at starts
    exact held _ starts
  · rw [if_neg (Nat.not_lt.mpr enough), if_pos short] at starts
    exact held _ starts
  · rw [if_neg (Nat.not_lt.mpr enough), if_neg (Nat.not_lt.mpr enough')] at starts
    rw [starts]
    obtain ⟨x, set, hold, inStep, step, branches_t, plans⟩ := State.stepGoes_goes there_e tokens preps (preps.flatMap (fun p => p.freed))
    refine ⟨x, set, hold, inStep, step, branches_t.trans branches, plans.trans ?_⟩
    have image : ∀ g, (e.group g).image = (s.group g).image ∧ (e.group g).imageVersion = (s.group g).imageVersion ∧
        (e.group g).flags = (s.group g).flags := fun g => by
      have same := groups_e g
      unfold Group.Evicting at same
      rw [same]
      exact ⟨rfl, rfl, rfl⟩
    have ref : e.stepImage c = s.stepImage c := by
      unfold State.stepImage
      simp only [image]
    have segments : e.stepSegments c = s.stepSegments c := by
      unfold State.stepSegments
      simp only [image]
    rw [ref, segments]

/-- Settles O53: a step's start is held or goes, and its close closes each branch it stepped. -/
theorem stepRuns : Obligations.StepRuns := by
  unfold Obligations.StepRuns
  intro s q seq c on there kind running
  refine ⟨fun resident free idle more here readable none_ => ?_, fun heads inStep ended ready apart => ?_⟩
  · obtain ⟨state, page, goes⟩ := stepStart_starts on there kind running resident free idle more here readable none_
    refine ⟨fun short => ?_, fun enough short => ?_, fun enough enough' => ?_⟩
    · obtain ⟨x, h⟩ := state short
      exact ⟨_, x, rfl, h⟩
    · obtain ⟨x, h⟩ := page enough short
      exact ⟨_, x, rfl, h⟩
    · obtain ⟨x, h⟩ := goes enough enough'
      exact ⟨_, x, rfl, h⟩
  · obtain ⟨x, h⟩ := stepClose_closes on there kind running inStep ended ready apart
    exact ⟨_, x, rfl, h⟩

end Sys2Proof.Machine
end

section
/-! SUPPORT. What a placement scan can do (R265, R417 to R421, R428): a core newly placed was free, and no cluster takes a fifth
layer. -/

namespace Sys2Proof.Machine

/-! ## What a scan leaves -/

/-- The registers of a core that say whether it may be placed. -/
def Field.Placing (f : Field) : Prop := f = F.CORE_CFG.PLACE ∨ f = F.CORE_STATUS.OFFLINE ∨ f = F.CORE_STATUS.TESTING

theorem coreKey_placing {f : Field} (placing : f.Placing) (c i : Nat) : workKey (fieldKey (f.core (c % 40)) i 0) = false := by
  have row : ∀ k : Fin 40, ∀ g ∈ [F.CORE_CFG.PLACE, F.CORE_STATUS.OFFLINE, F.CORE_STATUS.TESTING],
      workSlots.contains (fieldSlot (fieldKey (g.core k) 0 0)) = false ∧
      ∀ w ∈ workFields, w < fieldKey (g.core k) 0 0 ∨ fieldSlot w ≠ fieldSlot (fieldKey (g.core k) 0 0) := by decide
  obtain ⟨slot, page⟩ := row ⟨c % 40, Nat.mod_lt _ (by decide)⟩ f (by simpa [Field.Placing] using placing)
  exact workKey_false slot page i 0

/-- Two registers of cores at different places of a core's row are apart, whichever the cores. -/
theorem coreKey_apart {f g : Field} (apart : fieldKey g 0 0 % 4096 ≠ fieldKey f 0 0 % 4096) (c d : Nat) :
    fieldKey (g.core (c % 40)) (c / 40) 0 ≠ fieldKey (f.core (d % 40)) (d / 40) 0 := by
  rw [fieldKey_core, fieldKey_core, fieldKey_inst g, fieldKey_inst f]
  omega

/-- A state and one that a placement scan can reach from it. -/
structure Scanned (s t : State) : Prop where
  time : t.tm = s.tm
  boot : t.bt = s.bt
  fields : ∀ f : Field, f.Placing → ∀ k, t.coreFld f k = s.coreFld f k
  out : ∀ k, (t.core k).out = (s.core k).out
  removed : ∀ k, (t.cluster k).removed = (s.cluster k).removed
  placed : ∀ k, (s.core k).place = none → (t.core k).place ≠ none → s.coreFree k = true ∧ (s.cluster (k / 40)).removed = false
  layers : ∀ k, (s.cluster k).layers.length ≤ 4 → (t.cluster k).layers.length ≤ 4

namespace Scanned

/-! The relation holds of a state and itself, and each rule below carries it over one more update of the later state. -/

variable {s t u : State}

theorem refl (s : State) : Scanned s s := ⟨rfl, rfl, fun _ _ _ => rfl, fun _ => rfl, fun _ => rfl, fun _ no yes => absurd no yes, fun _ => id⟩

/-- A core without a place that is free later was free before. -/
theorem free (h : Scanned s t) {k : Nat} (no : (s.core k).place = none) (free : t.coreFree k = true) : s.coreFree k = true := by
  unfold State.coreFree at free ⊢
  rw [h.fields _ (.inl rfl), h.fields _ (.inr (.inl rfl)), h.fields _ (.inr (.inr rfl)), h.out] at free
  simp only [Bool.and_eq_true, no, Option.isNone_none, and_true] at free ⊢
  exact ⟨free.1.1, free.2⟩

theorem trans (h : Scanned s t) (h' : Scanned t u) : Scanned s u := by
  refine ⟨h'.time.trans h.time, h'.boot.trans h.boot, fun f hf k => (h'.fields f hf k).trans (h.fields f hf k),
    fun k => (h'.out k).trans (h.out k), fun k => (h'.removed k).trans (h.removed k), fun k no yes => ?_,
    fun k few => h'.layers k (h.layers k few)⟩
  by_cases still : (t.core k).place = none
  · obtain ⟨free, present⟩ := h'.placed k still yes
    exact ⟨h.free no free, (h.removed _).symm.trans present⟩
  · exact h.placed k no still

theorem work (h : Scanned s t) (w : WorkKept t u) : Scanned s u :=
  h.trans ⟨w.time, w.boot, fun _ hf k => w.fields _ (coreKey_placing hf k _) _, fun k => (w.cores k).out,
    fun k => (w.clusters k).removed, fun k no yes => absurd ((w.cores k).place no) yes,
    fun k few => (w.clusters k).layers.trans few⟩

theorem either {c : Prop} [Decidable c] {a b : State} (ha : Scanned s a) (hb : Scanned s b) : Scanned s (if c then a else b) := by
  split
  · exact ha
  · exact hb

theorem foldl (h : Scanned s t) {α : Type} {f : State → α → State} (step : ∀ u x, Scanned s u → Scanned s (f u x)) {l : List α} :
    Scanned s (l.foldl f t) :=
  List.foldlRecOn (motive := Scanned s) l f h fun u hu x _ => step u x hu

/-- An update that leaves the cores, the clusters and the registers of placement. -/
theorem regs (h : Scanned s t) (time : u.tm = t.tm) (boot : u.bt = t.bt) (cores : u.tl.cores = t.tl.cores)
    (clusters : u.tl.clusters = t.tl.clusters) (fields : ∀ f : Field, f.Placing → ∀ k, u.coreFld f k = t.coreFld f k) :
    Scanned s u := by
  have core : ∀ k, u.core k = t.core k := fun k => by unfold State.core; rw [cores]
  have cluster : ∀ k, u.cluster k = t.cluster k := fun k => by unfold State.cluster; rw [clusters]
  exact h.trans ⟨time, boot, fields, fun k => by rw [core], fun k => by rw [cluster],
    fun k no yes => absurd ((core k).symm ▸ no) yes, fun k few => by rw [cluster]; exact few⟩

theorem same (h : Scanned s t) (time : u.tm = t.tm := by rfl) (boot : u.bt = t.bt := by rfl)
    (cores : u.tl.cores = t.tl.cores := by rfl) (clusters : u.tl.clusters = t.tl.clusters := by rfl)
    (fields : u.rg.fields = t.rg.fields := by rfl) : Scanned s u :=
  h.regs time boot cores clusters fun f _ k => by unfold State.coreFld State.fld; rw [fields]

theorem setCluster (h : Scanned s t) {cl : Nat} {x : Cluster} (removed : x.removed = (t.cluster cl).removed)
    (layers : (t.cluster cl).layers.length ≤ 4 → x.layers.length ≤ 4) : Scanned s (t.setCluster cl x) := by
  refine h.trans ⟨rfl, rfl, fun _ _ _ => rfl, fun _ => rfl, fun k => ?_, fun k no yes => absurd no yes, fun k few => ?_⟩
  · by_cases here : k = cl
    · subst here
      rw [State.cluster_setCluster, removed]
    · rw [State.cluster_setCluster_ne _ _ _ _ here]
  · by_cases here : k = cl
    · subst here
      rw [State.cluster_setCluster]
      exact layers few
    · rw [State.cluster_setCluster_ne _ _ _ _ here]
      exact few

/-- A core that was free at the start is placed. -/
theorem setCore (h : Scanned s t) {core : Nat} {x : Core} (out : x.out = (t.core core).out)
    (free : s.coreFree core = true ∧ (s.cluster (core / 40)).removed = false) : Scanned s (t.setCore core x) := by
  refine ⟨h.time, h.boot, h.fields, fun k => ?_, h.removed, fun k no yes => ?_, h.layers⟩
  · by_cases here : k = core
    · subst here
      rw [State.core_setCore, out, h.out]
    · rw [State.core_setCore_ne _ _ _ _ here, h.out]
  · by_cases here : k = core
    · subst here
      exact free
    · rw [State.core_setCore_ne _ _ _ _ here] at yes
      exact h.placed k no yes

theorem applyField (h : Scanned s t) {f : Field} {core : Nat}
    (apart : ∀ g : Field, g.Placing → fieldKey g 0 0 % 4096 ≠ fieldKey f 0 0 % 4096 := by rintro _ (rfl | rfl | rfl) <;> decide) :
    Scanned s (t.applyField (f.core (core % 40)) (core / 40)) := by
  have frame := State.applyField_frame t (f.core (core % 40)) (core / 40) 0
  exact h.regs (by rw [frame]) (by rw [frame]) (by rw [frame]) (by rw [frame])
    fun g hg k => (State.applyField_others t (coreKey_apart (apart g hg) k core)).1

theorem setCoreFld (h : Scanned s t) {f : Field} {core v : Nat}
    (apart : ∀ g : Field, g.Placing → fieldKey g 0 0 % 4096 ≠ fieldKey f 0 0 % 4096 := by rintro _ (rfl | rfl | rfl) <;> decide) :
    Scanned s (t.setCoreFld f core v) :=
  h.regs rfl rfl rfl rfl fun g hg k => State.fld_setFld_ne _ _ _ _ _ _ _ _ (coreKey_apart (apart g hg) k core)

/-- A core keeps its place. -/
theorem coreStays (h : Scanned s t) {core : Nat} {x : Core} (out : x.out = (t.core core).out := by rfl)
    (place : x.place = (t.core core).place := by rfl) : Scanned s (t.setCore core x) :=
  h.work ((WorkKept.refl t).setCore ⟨out, fun no => place.trans no⟩)

theorem coreBoundary (h : Scanned s t) {c : Cmd} {p : Plan} {core : Nat} : Scanned s (t.coreBoundary c p core) := by
  unfold State.coreBoundary
  extract_lets a im now k k'
  have applied : Scanned s a := .either h h.applyField.applyField
  have kept : k.out = (a.core core).out ∧ k.place = (a.core core).place := ⟨rfl, rfl⟩
  have kept' : k'.out = (a.core core).out ∧ k'.place = (a.core core).place := by
    simp only [k']
    split <;> exact kept
  exact .either (setCoreFld (applied.coreStays kept'.1 kept'.2)) (applied.coreStays kept.1 kept.2)

theorem resumeTables (h : Scanned s t) {sl : SeqLayer} {cores : List Nat} : Scanned s (t.resumeTables sl cores) := by
  unfold State.resumeTables
  split
  · exact h
  · split
    · exact h
    · exact h.foldl fun _ _ hu => hu.coreBoundary

theorem wake (h : Scanned s t) {cl : Nat} : Scanned s (t.wake cl) := h.work (WorkKept.refl t).wake

theorem ctxRuns (h : Scanned s t) {ctx : Nat} : Scanned s (t.ctxRuns ctx) :=
  h.work (WorkKept.refl t).ctxRuns

theorem goOnHere (h : Scanned s t) {cl q seq layer : Nat} : Scanned s (t.goOnHere cl q seq layer) := h.work (WorkKept.refl t).goOnHere

theorem resumeCore (h : Scanned s t) {ctx cl pos core : Nat} {sl : SeqLayer}
    (free : s.coreFree core = true ∧ (s.cluster (core / 40)).removed = false) : Scanned s (t.resumeCore ctx sl cl pos core) := by
  have out : ((t.core core).freed.wellsFor ctx).out = (t.core core).out := by
    unfold Core.wellsFor
    dsimp only
    split <;> rfl
  unfold State.resumeCore
  extract_lets x pl
  split
  · exact h.setCore out free
  · extract_lets u k was k'
    have placed : Scanned s (u.setCore core k') := setCore (t := u) h.same out free
    exact placed.work (WorkKept.refl _).issueWords.pump

end Scanned

/-! ## Free cores -/

theorem mem_freeCores {s : State} {cl k : Nat} (h : k ∈ s.freeCores cl) : s.coreFree k = true ∧ k / 40 = cl := by
  obtain ⟨mem, free⟩ := List.mem_filter.mp h
  obtain ⟨i, hi, rfl⟩ := List.mem_map.mp mem
  have lt := List.mem_range.mp hi
  exact ⟨free, by omega⟩

theorem State.clusterTakes_iff {s : State} {cl n : Nat} : s.clusterTakes cl n = true ↔
    (s.cluster cl).removed = false ∧ (∀ r ∈ s.rs.clusters, r.1 ≠ cl) ∧ (s.cluster cl).layers.length < 4 ∧
      n ≤ (s.freeCores cl).length := by
  unfold State.clusterTakes
  simp [and_assoc]

namespace Scanned
variable {s t u : State}

theorem resumeLayer (h : Scanned s t) {ctx cl : Nat} {sl : SeqLayer} : Scanned s (t.resumeLayer ctx cl sl) := by
  unfold State.resumeLayer
  split
  · exact h
  next takes =>
    obtain ⟨present, -, few, -⟩ := State.clusterTakes_iff.mp (by simpa using takes)
    split
    · exact h.wake
    · split
      · exact h
      · extract_lets cores y a x b c d
        have put : Scanned t a := (Scanned.refl t).setCluster rfl fun _ => by
          rw [List.length_append]
          exact few
        have left : Scanned t b := put.same
        have resumed : Scanned t c := by
          refine left.foldl fun v i hv => ?_
          split
          next k at_ =>
            obtain ⟨free, here⟩ := mem_freeCores (List.mem_of_mem_take (List.mem_of_getElem? at_))
            exact hv.resumeCore ⟨free, by rw [here]; exact present⟩
          · exact hv
        have tables : Scanned t d := resumed.resumeTables
        exact h.trans tables.ctxRuns.goOnHere

theorem resumeAll (h : Scanned s t) {ctx : Nat} : Scanned s (t.resumeAll ctx) := h.foldl fun _ _ hu => hu.resumeLayer

theorem emptyLayer (h : Scanned s t) {c : Cmd} {l : Layer} {p : Plan} : Scanned s (t.emptyLayer c l p) := by
  unfold State.emptyLayer
  extract_lets a
  have opened : Scanned s a := h.same
  split
  · exact opened
  · exact opened.work (WorkKept.refl _).setCmd.layersEnd

theorem placeOn (h : Scanned s t) {c : Cmd} {l : Layer} {p : Plan} {cl : Nat} (takes : t.clusterTakes cl l.n = true) :
    Scanned s (t.placeOn c l p cl) := by
  obtain ⟨present, -, few, -⟩ := State.clusterTakes_iff.mp takes
  unfold State.placeOn
  extract_lets cores n x sl a b v
  have put : Scanned t a := (Scanned.refl t).setCluster rfl fun _ => by
    rw [List.length_append]
    exact few
  have placed : Scanned t b := by
    refine List.foldlRecOn (motive := Scanned t) _ _ put fun w hw k hk => ?_
    obtain ⟨free, here⟩ := mem_freeCores (List.mem_of_mem_take hk)
    refine hw.setCore ?_ ⟨free, by rw [here]; exact present⟩
    unfold Core.wellsFor
    dsimp only
    split <;> rfl
  have awake : Scanned t v := placed.wake
  refine h.trans ?_
  split
  · exact awake.same
  · exact awake

theorem offer (h : Scanned s t) {q seq ord : Nat} {p : Plan} {cls : List Nat} : Scanned s (t.offer q seq ord p cls) := by
  induction cls generalizing t with
  | nil => exact h
  | cons cl cls ih =>
    unfold State.offer
    split
    · exact h
    · split
      · exact h
      · refine .either h ?_
        split
        next takes =>
          obtain ⟨qualifies, -⟩ := (Bool.and_eq_true _ _).mp takes
          obtain ⟨takes', -⟩ := (Bool.and_eq_true _ _).mp qualifies
          exact ih (h.placeOn takes')
        · exact ih h

theorem placedTrace (h : Scanned s t) {c : Cmd} {ord : Nat} : Scanned s (t.placedTrace c ord) :=
  h.work (WorkKept.refl t).placedTrace

theorem placeLayer (h : Scanned s t) {q seq ord : Nat} : Scanned s (t.placeLayer q seq ord) := by
  unfold State.placeLayer
  split
  · exact h
  · split
    · exact h
    · have opened : ∀ c l p, Scanned s (t.openLayer c l p) := fun _ _ _ => h.same
      exact .either h (.either h.emptyLayer (.either h.offer (.either h (opened _ _ _).offer.placedTrace.ctxRuns)))

theorem placementScan (h : Scanned s t) : Scanned s t.placementScan := by
  have scanned : Scanned s (t.scanOrder.foldl
      (fun u ctx => ((u.resumeAll ctx).ctxLayers ctx).foldl (fun u l => u.placeLayer l.1 l.2.1 l.2.2) (u.resumeAll ctx)) t) :=
    h.foldl fun _ _ hu => hu.resumeAll.foldl fun _ _ hv => hv.placeLayer
  exact .either scanned.same h

end Scanned

end Sys2Proof.Machine
end

section
/-! SUPPORT. A ready layer, alone in its context, is placed on the first cluster that qualifies (R265, R417 to R421, R428). -/

namespace Sys2Proof.Machine

variable {s t u : State} {c d : Cmd} {l : Layer} {p : Plan} {cl q seq ord : Nat}

/-! ## The cores of a placement -/

/-- Cores set one after another, each from its own record and the time. -/
theorem State.setCores_sets {f : Nat → Core → Core} {ks : List Nat} (apart : ks.Nodup) :
    let t := ks.foldl (fun s k => s.setCore k (f s.tm.now (s.core k))) s
    (∀ k ∈ ks, t.core k = f s.tm.now (s.core k)) ∧ (∀ k, k ∉ ks → t.core k = s.core k) ∧ t = { s with tl := { s.tl with cores := t.tl.cores } } := by
  induction ks generalizing s with
  | nil => exact ⟨fun k hk => (List.not_mem_nil hk).elim, fun _ _ => rfl, rfl⟩
  | cons k ks ih =>
    obtain ⟨out, apart'⟩ := List.nodup_cons.mp apart
    obtain ⟨set, others, frame⟩ := ih (s := s.setCore k (f s.tm.now (s.core k))) apart'
    refine ⟨fun j hj => ?_, fun j hj => ?_, ?_⟩
    · rcases List.mem_cons.mp hj with rfl | later
      · exact (others j out).trans (State.core_setCore _ _ _)
      · exact (set j later).trans (congrArg (f s.tm.now) (State.core_setCore_ne _ _ _ _ fun same => out (same ▸ later)))
    · obtain ⟨other, later⟩ : j ≠ k ∧ j ∉ ks := by simpa using hj
      exact (others j later).trans (State.core_setCore_ne _ _ _ _ other)
    · exact frame

theorem State.freeCores_nodup (s : State) (cl : Nat) : (s.freeCores cl).Nodup :=
  (List.nodup_range.map fun a b (same : cl * 40 + a = cl * 40 + b) => by omega).filter _

/-! ## One placement -/

theorem State.wake_wakes (s : State) (cl : Nat) :
    ((s.clk cl).parked = true → ((s.wake cl).clk cl).parked = false ∧ ((s.wake cl).clk cl).awake = s.tm.now + 4000) ∧
      (∀ d, d ≠ cl → (s.wake cl).clk d = s.clk d) ∧ s.wake cl = { s with pw := (s.wake cl).pw } := by
  unfold State.wake
  refine ⟨fun parked => ?_, fun d other => ?_, ?_⟩
  · rw [if_pos parked, State.clk_setClk]
    exact ⟨rfl, rfl⟩
  · split
    · exact State.clk_setClk_ne _ _ _ _ other
    · rfl
  · split <;> rfl

/-- The layer as cluster cl's sequencer takes it, on its n lowest free cores. -/
def State.layerOn (s : State) (c : Cmd) (l : Layer) (cl : Nat) : SeqLayer :=
  { q := c.q, seq := c.seq, layer := l.ord, counter := c.counterOf l, n := l.n, cores := (s.freeCores cl).take l.n }

/-- A core with a place of layer l of command c, taken at time now. -/
def Core.placedFor (k : Core) (c : Cmd) (l : Layer) (now : Nat) : Core :=
  { (k.freed.wellsFor c.ctx) with
    place := some { q := c.q, seq := c.seq, layer := l.ord, counter := c.counterOf l, since := now } }

/-- A change of the clusters, then one of the cores, changes these alone. -/
theorem State.clusters_then_cores (clusters : t = { s with tl := { s.tl with clusters := t.tl.clusters } })
    (cores : u = { t with tl := { t.tl with cores := u.tl.cores } }) :
    u = { s with tl := { s.tl with cores := u.tl.cores, clusters := u.tl.clusters } } := by
  have same : u.tl.clusters = t.tl.clusters := by rw [cores]
  rw [same]
  conv_lhs => rw [cores, clusters]

/-- Cluster cl with layer l of command c, and its cores placed. -/
def State.takesLayer (s : State) (c : Cmd) (l : Layer) (p : Plan) (cl : Nat) : State :=
  ((s.freeCores cl).take l.n).foldl (fun u k => u.setCore k ((u.core k).placedFor c l u.tm.now))
    (s.setCluster cl { s.cluster cl with
      layers := (s.cluster cl).layers ++ [s.layerOn c l cl]
      owner := if touchesCluster c p then some (c.q, c.seq) else (s.cluster cl).owner })

/-- The command with layer l placed on cluster cl. -/
def Cmd.placedOn (d : Cmd) (l : Layer) (cl : Nat) : Cmd :=
  { d with layers := d.layers.map (fun m =>
      if m.ord = l.ord then { m with placed := m.placed.filter (· ≠ cl) ++ [cl] } else m) }

theorem State.takesLayer_takes (s : State) (c : Cmd) (l : Layer) (p : Plan) (cl : Nat) :
    let cores := (s.freeCores cl).take l.n
    let t := s.takesLayer c l p cl
    (t.cluster cl).layers = (s.cluster cl).layers ++ [s.layerOn c l cl] ∧ (∀ e, e ≠ cl → t.cluster e = s.cluster e) ∧
      (∀ k ∈ cores, t.core k = (s.core k).placedFor c l s.tm.now) ∧ (∀ k, k ∉ cores → t.core k = s.core k) ∧
      t = { s with tl := { s.tl with cores := t.tl.cores, clusters := t.tl.clusters } } := by
  have apart : ((s.freeCores cl).take l.n).Nodup := (State.freeCores_nodup s cl).sublist (List.take_sublist _ _)
  obtain ⟨set, others, frame⟩ := State.setCores_sets (f := fun now y => y.placedFor c l now)
    (s := s.setCluster cl { s.cluster cl with
      layers := (s.cluster cl).layers ++ [s.layerOn c l cl]
      owner := if touchesCluster c p then some (c.q, c.seq) else (s.cluster cl).owner }) apart
  refine ⟨?_, fun e other => ?_, set, others, State.clusters_then_cores rfl frame⟩
  · exact (congrArg (fun u => (State.cluster u cl).layers) frame).trans (congrArg Cluster.layers (State.cluster_setCluster _ _ _))
  · exact (congrArg (fun u => State.cluster u e) frame).trans (State.cluster_setCluster_ne _ _ _ _ other)

theorem State.placeOn_eq (there : s.cmd? c.q c.seq = some d) :
    s.placeOn c l p cl = ((s.takesLayer c l p cl).wake cl).setCmd (d.placedOn l cl) := by
  obtain ⟨-, -, -, -, frame⟩ := s.takesLayer_takes c l p cl
  obtain ⟨-, -, frame'⟩ := (s.takesLayer c l p cl).wake_wakes cl
  have there' : ((s.takesLayer c l p cl).wake cl).cmd? c.q c.seq = some d := by
    rw [frame', frame]
    exact there
  unfold State.placeOn
  extract_lets cores n x sl a b v
  have same : v = (s.takesLayer c l p cl).wake cl := rfl
  rw [same, there']
  rfl

/-- What a placement of layer l of command c on cluster cl does. -/
theorem State.placeOn_places (there : s.cmd? c.q c.seq = some d) :
    let cores := (s.freeCores cl).take l.n
    let t := s.placeOn c l p cl
    (t.cluster cl).layers = (s.cluster cl).layers ++ [s.layerOn c l cl] ∧ (∀ e, e ≠ cl → t.cluster e = s.cluster e) ∧
      (∀ k ∈ cores, t.core k = (s.core k).placedFor c l s.tm.now) ∧ (∀ k, k ∉ cores → t.core k = s.core k) ∧
      ((s.clk cl).parked = true → (t.clk cl).parked = false ∧ (t.clk cl).awake = s.tm.now + 4000) ∧
      (∀ e, e ≠ cl → t.clk e = s.clk e) ∧
      (t.tl.counters = s.tl.counters ∧ t.tm = s.tm ∧ t.sc = s.sc) ∧ t.cmd? c.q c.seq = some (d.placedOn l cl) := by
  intro cores t
  have shape : t = _ := State.placeOn_eq there
  clear_value t
  obtain ⟨layers, clusters, placed, others, frame⟩ := s.takesLayer_takes c l p cl
  obtain ⟨woken, clocks, frame'⟩ := (s.takesLayer c l p cl).wake_wakes cl
  generalize s.takesLayer c l p cl = a at *
  generalize a.wake cl = b at *
  have there' : b.cmd? c.q c.seq = some d := by
    rw [frame', frame]
    exact there
  have tl : t.tl = a.tl := by rw [shape, frame']; rfl
  have pw : t.pw = b.pw := by rw [shape]; rfl
  have clk : a.clk = s.clk := by rw [frame]; rfl
  have now : a.tm = s.tm := by rw [frame]
  have core : t.core = a.core := by unfold State.core; rw [tl]
  have cluster : t.cluster = a.cluster := by unfold State.cluster; rw [tl]
  have clock : t.clk = b.clk := by unfold State.clk; rw [pw]
  rw [core, cluster, clock]
  rw [clk, now] at woken
  obtain ⟨q_d, seq_d⟩ := b.cmd?_key _ _ _ there'
  refine ⟨layers, clusters, placed, others, woken, fun e other => by rw [clocks e other, clk], ⟨?_, ?_, ?_⟩, ?_⟩
  · rw [tl, frame]
  · rw [shape, frame', frame]; rfl
  · rw [shape, frame', frame]; rfl
  · rw [shape]
    exact State.cmd_set there' rfl rfl

end Sys2Proof.Machine
end

section
/-! SUPPORT. A layer offered to the clusters in turn (R265, R418 to R421). -/

namespace Sys2Proof.Machine

variable {s t u : State} {c d : Cmd} {l : Layer} {p : Plan} {cl q seq ord n : Nat} {cls rest : List Nat}

/-! ## Where a layer stands -/

theorem State.mem_layerClusters (on : (s.cluster cl).layers.any (fun m => m.is c.q c.seq l.ord) = true) : cl ∈ s.layerClusters c l := by
  have some_ : look {} s.tl.clusters cl ≠ {} := fun none => by
    rw [State.cluster, none] at on
    simp at on
  exact List.mem_append_left _ (List.mem_map.mpr ⟨_, List.mem_filter.mpr ⟨look_mem some_, on⟩, rfl⟩)

/-! ## Offers -/

theorem State.offer_stops (there : s.cmd? q seq = some c) (layer : c.layers.find? (fun m => m.ord == ord) = some l)
    (enough : l.k ≤ (s.layerClusters c l).length) : s.offer q seq ord p cls = s := by
  cases cls with
  | nil => rfl
  | cons e cls =>
    unfold State.offer
    rw [there]
    dsimp only
    rw [layer]
    exact if_pos (.inr enough)

section
variable (there : s.cmd? q seq = some c) (layer : c.layers.find? (fun m => m.ord == ord) = some l)
  (grows : s.layerGrows c l = true) (fewer : (s.layerClusters c l).length < l.k)
include there layer grows fewer

theorem State.offer_cons (e : Nat) : s.offer q seq ord p (e :: cls) =
    if s.qualifies c p l.n e && !(s.cluster e).layers.any (fun m => m.is q seq ord) then (s.placeOn c l p e).offer q seq ord p cls
    else s.offer q seq ord p cls := by
  conv_lhs => unfold State.offer
  rw [there]
  dsimp only
  rw [layer]
  exact if_neg (by simp [grows, fewer])

theorem State.offer_skips (none : ∀ e ∈ cls, s.qualifies c p l.n e = false) :
    s.offer q seq ord p (cls ++ rest) = s.offer q seq ord p rest := by
  induction cls with
  | nil => rfl
  | cons e cls ih =>
    rw [List.cons_append, State.offer_cons there layer grows fewer, if_neg (by simp [none e List.mem_cons_self])]
    exact ih fun f hf => none f (List.mem_cons_of_mem _ hf)

end

/-- What offers to other clusters leave of cluster cl, of the counters, and of the command's context n. -/
structure Elsewhere (cl q seq n : Nat) (s t : State) : Prop where
  cluster : t.cluster cl = s.cluster cl
  cores : ∀ k, k / 40 = cl → t.core k = s.core k
  clock : t.clk cl = s.clk cl
  counters : t.tl.counters = s.tl.counters
  time : t.tm = s.tm
  contexts : t.sc = s.sc
  cmd : (∃ x, s.cmd? q seq = some x ∧ x.ctx = n) → ∃ x, t.cmd? q seq = some x ∧ x.ctx = n

theorem Elsewhere.refl (s : State) : Elsewhere cl q seq n s s := ⟨rfl, fun _ _ => rfl, rfl, rfl, rfl, rfl, id⟩

theorem Elsewhere.trans (h : Elsewhere cl q seq n s t) (h' : Elsewhere cl q seq n t u) : Elsewhere cl q seq n s u :=
  ⟨h'.cluster.trans h.cluster, fun k hk => (h'.cores k hk).trans (h.cores k hk), h'.clock.trans h.clock,
    h'.counters.trans h.counters, h'.time.trans h.time, h'.contexts.trans h.contexts, fun x => h'.cmd (h.cmd x)⟩

theorem State.placeOn_elsewhere (there : s.cmd? q seq = some c) {e : Nat} (other : cl ≠ e) :
    Elsewhere cl q seq n s (s.placeOn c l p e) := by
  obtain ⟨rfl, rfl⟩ := s.cmd?_key _ _ _ there
  obtain ⟨-, clusters, -, cores, -, clocks, ⟨counters, time, contexts⟩, set⟩ := State.placeOn_places (l := l) (p := p) (cl := e) there
  refine ⟨clusters cl other, fun k hk => cores k fun on => other ?_, clocks cl other, counters, time, contexts, fun had => ?_⟩
  · exact hk.symm.trans (mem_freeCores (List.mem_of_mem_take on)).2
  · obtain ⟨x, hx, ctx⟩ := had
    obtain rfl := Option.some.inj (there.symm.trans hx)
    exact ⟨_, set, ctx⟩

theorem State.offer_elsewhere (out : cl ∉ cls) : Elsewhere cl q seq n s (s.offer q seq ord p cls) := by
  induction cls generalizing s with
  | nil => exact .refl s
  | cons e cls ih =>
    obtain ⟨other, out'⟩ : cl ≠ e ∧ cl ∉ cls := by simpa using out
    unfold State.offer
    split
    · exact .refl s
    next c there =>
      split
      · exact .refl s
      · split
        · exact .refl s
        · split
          · exact (State.placeOn_elsewhere there other).trans (ih out')
          · exact ih out'

/-- The clusters in turn: those before cl, cl, and those behind it. -/
theorem range_around (within : cl < n) : ∃ before behind, List.range n = before ++ cl :: behind ∧ (∀ e ∈ before, e < cl) ∧ cl ∉ behind := by
  obtain ⟨before, behind, shape⟩ := List.append_of_mem (List.mem_range.mpr within)
  have sorted := List.pairwise_lt_range (n := n)
  rw [shape, List.pairwise_append] at sorted
  obtain ⟨-, later, first⟩ := sorted
  obtain ⟨later, -⟩ := List.pairwise_cons.mp later
  exact ⟨before, behind, shape, fun e he => first e he cl List.mem_cons_self, fun on => absurd (later cl on) (lt_irrefl _)⟩

/-- A layer offered to all clusters is placed on the first that qualifies, and on others only where it takes more than one. -/
theorem State.offer_places (there : s.cmd? q seq = some c) (only : c.layers = [l]) (grows : s.layerGrows c l = true)
    (nowhere : s.layerClusters c l = []) (some_ : 0 < l.k) (within : cl < 256) (takes : s.qualifies c p l.n cl = true)
    (first : ∀ e, e < cl → s.qualifies c p l.n e = false) :
    let cores := (s.freeCores cl).take l.n
    let t := s.offer q seq l.ord p (List.range 256)
    (t.cluster cl).layers = (s.cluster cl).layers ++ [s.layerOn c l cl] ∧
      (∀ k ∈ cores, t.core k = (s.core k).placedFor c l s.tm.now) ∧
      ((s.clk cl).parked = true → (t.clk cl).parked = false ∧ (t.clk cl).awake = s.tm.now + 4000) ∧
      (t.tl.counters = s.tl.counters ∧ t.tm = s.tm ∧ t.sc = s.sc) ∧ (∃ x, t.cmd? q seq = some x ∧ x.ctx = c.ctx) ∧
      (l.k = 1 → (∀ e, e ≠ cl → t.cluster e = s.cluster e) ∧ ∀ k, k ∉ cores → t.core k = s.core k) := by
  obtain ⟨rfl, rfl⟩ := s.cmd?_key _ _ _ there
  have layer : c.layers.find? (fun m => m.ord == l.ord) = some l := by simp [only]
  obtain ⟨before, behind, turns, early, out⟩ := range_around within
  have fewer : (s.layerClusters c l).length < l.k := by
    rw [nowhere]
    exact some_
  have free : (s.cluster cl).layers.any (fun m => m.is c.q c.seq l.ord) = false := by
    by_contra on
    have here := State.mem_layerClusters (by simpa using on)
    rw [nowhere] at here
    cases here
  have ran : s.offer c.q c.seq l.ord p (List.range 256) = (s.placeOn c l p cl).offer c.q c.seq l.ord p behind := by
    rw [turns, State.offer_skips there layer grows fewer fun e he => first e (early e he),
      State.offer_cons there layer grows fewer, if_pos (by rw [takes, free]; rfl)]
  obtain ⟨layers, clusters, placed, others, woken, -, ⟨counters, time, contexts⟩, set⟩ :=
    State.placeOn_places (l := l) (p := p) (cl := cl) there
  dsimp only
  rw [ran]
  generalize s.placeOn c l p cl = v at *
  have later : Elsewhere cl c.q c.seq c.ctx v (v.offer c.q c.seq l.ord p behind) := State.offer_elsewhere out
  refine ⟨by rw [later.cluster]; exact layers, fun k hk => ?_, fun parked => by rw [later.clock]; exact woken parked,
    ⟨later.counters.trans counters, later.time.trans time, later.contexts.trans contexts⟩, later.cmd ⟨_, set, rfl⟩, fun single => ?_⟩
  · rw [later.cores k (mem_freeCores (List.mem_of_mem_take hk)).2]
    exact placed k hk
  · have stops : v.offer c.q c.seq l.ord p behind = v := by
      have on : (v.cluster cl).layers.any (fun m => m.is c.q c.seq l.ord) = true := by
        rw [layers, List.any_append]
        simp [State.layerOn, SeqLayer.is]
      refine State.offer_stops (l := { l with placed := l.placed.filter (· ≠ cl) ++ [cl] }) set ?_ ?_
      · simp [Cmd.placedOn, only]
      · show l.k ≤ _
        rw [single]
        exact List.length_pos_of_mem (State.mem_layerClusters (c := c.placedOn l cl)
          (l := { l with placed := l.placed.filter (· ≠ cl) ++ [cl] }) on)
    rw [stops]
    exact ⟨clusters, others⟩

end Sys2Proof.Machine
end

section
/-! SUPPORT. A placement scan of one layer (R265, R417 to R421, R428). -/

namespace Sys2Proof.Machine

variable {s t u : State} {c d : Cmd} {l : Layer} {p : Plan} {cl q seq ord n : Nat}

/-! ## Traces of a placement, and the slice that begins -/

theorem State.placedTrace_keeps (s : State) (c : Cmd) (ord : Nat) :
    let t := s.placedTrace c ord
    t.tl = s.tl ∧ t.cq = s.cq ∧ t.tm = s.tm ∧ t.sc = s.sc ∧ t.pw = s.pw := by
  unfold State.placedTrace
  split
  · exact ⟨rfl, rfl, rfl, rfl, rfl⟩
  · split
    · exact ⟨rfl, rfl, rfl, rfl, rfl⟩
    · extract_lets n first a v
      have kept : a.tl = s.tl ∧ a.cq = s.cq ∧ a.tm = s.tm ∧ a.sc = s.sc ∧ a.pw = s.pw := by
        simp only [a]
        split
        · exact ⟨State.trace_tl _ _, State.trace_cq _ _, State.trace_tm _ _, State.trace_sc _ _, State.trace_pw _ _⟩
        · exact ⟨rfl, rfl, rfl, rfl, rfl⟩
      clear_value a
      simp only [v]
      split
      · exact ⟨rfl, rfl, rfl, rfl, rfl⟩
      · simpa using kept

theorem State.ctxRuns_runs (s : State) (n : Nat) :
    let t := s.ctxRuns n
    t.tl = s.tl ∧ t.cq = s.cq ∧ t.tm = s.tm ∧ t.pw = s.pw ∧
      ((s.ctx n).st = .ready → s.ctxCores n ≠ [] → (t.ctx n).st = .running ∧ (t.ctx n).sliceStart = s.tm.now) := by
  intro t
  have shape : t = s.ctxRuns n := rfl
  clear_value t
  unfold State.ctxRuns at shape
  split at shape
  next runs =>
    obtain ⟨own, cq, tl, -⟩ := (s.ctxTo n .running).startSlice_starts n
    have frame := State.applyField_frame (s.ctxTo n .running) F.SCHED_SLICE.US 0 0
    subst shape
    refine ⟨tl, cq, ?_, ?_, fun _ _ => ?_⟩
    · unfold State.startSlice; dsimp only; rw [frame]; rfl
    · unfold State.startSlice; dsimp only; rw [frame]; rfl
    · rw [own]
      refine ⟨congrArg Ctx.st (State.ctx_setCtx _ _ _), rfl⟩
  next stays =>
    subst shape
    refine ⟨rfl, rfl, rfl, rfl, fun ready some_ => absurd ⟨ready, ?_⟩ stays⟩
    simpa using some_

/-! ## The scan -/

theorem State.core_coresOf {k : Nat} {pl : Place} (place : (s.core k).place = some pl) : k ∈ s.coresOf pl.q pl.seq := by
  have some_ : look {} s.tl.cores k ≠ {} := fun none => by
    rw [State.core, none] at place
    cases place
  refine List.mem_map.mpr ⟨_, List.mem_filter.mpr ⟨look_mem some_, ?_⟩, rfl⟩
  have place' : (look {} s.tl.cores k).place = some pl := place
  dsimp only
  rw [place']
  simp

theorem State.mem_ctxCores {k : Nat} {pl : Place} (place : (s.core k).place = some pl) (there : s.cmd? pl.q pl.seq = some c)
    (ctx : c.ctx = n) : k ∈ s.ctxCores n := by
  obtain ⟨q, seq⟩ := s.cmd?_key _ _ _ there
  refine List.mem_flatMap.mpr ⟨c, List.mem_filter.mpr ⟨List.mem_of_find?_eq_some there, by simp [ctx]⟩, ?_⟩
  rw [q, seq]
  exact State.core_coresOf place

/-- Layer l of command c, begun over its jobs. -/
def State.layerOpened (s : State) (c : Cmd) (l : Layer) (p : Plan) : Layer :=
  { l with started := true, n := Nat.min p.jobItems 40, k := Nat.min (s.layerJobs c l p) 256 }

/-- A ready layer, alone in its command and nowhere yet, is opened, offered to the clusters, and its context runs. -/
theorem State.placeLayer_opens (there : s.cmd? c.q c.seq = some c) (only : c.layers = [l]) (fresh : l.started = false)
    (ready : s.layerReady c l (s.layerPlan c l) = true) (jobs : 0 < s.layerJobs c l (s.layerPlan c l)) (within : cl < 256)
    (takes : s.qualifies c (s.layerPlan c l) (Nat.min (s.layerPlan c l).jobItems 40) cl = true) :
    s.placeLayer c.q c.seq l.ord = ((((s.openLayer c l (s.layerPlan c l)).offer c.q c.seq l.ord (s.layerPlan c l) (List.range 256)).placedTrace
      c l.ord).ctxRuns c.ctx) := by
  have layer : c.layers.find? (fun m => m.ord == l.ord) = some l := by simp [only]
  have some_ : (List.range 256).any (fun e => s.qualifies c (s.layerPlan c l) (Nat.min (s.layerPlan c l).jobItems 40) e) = true :=
    List.any_eq_true.mpr ⟨cl, List.mem_range.mpr within, takes⟩
  unfold State.placeLayer
  rw [there]
  dsimp only
  rw [layer]
  dsimp only
  rw [if_neg (by simp [ready]), if_neg (by simp [jobs.ne']), if_neg (by simp [fresh]), if_neg (by rw [some_]; simp)]

theorem State.openLayer_opens (there : s.cmd? c.q c.seq = some c) (only : c.layers = [l]) :
    let o := s.openLayer c l p
    let d := { c with layers := [s.layerOpened c l p] }
    o.cmd? c.q c.seq = some d ∧ o.counter (c.counterOf l) =
        { next := 0, limit := s.layerJobs c l p, done := 0, rq := 0, items := p.jobItems - 1 } ∧
      o.qualifies d p = s.qualifies c p ∧ o.cluster = s.cluster ∧ o.core = s.core ∧ o.clk = s.clk ∧ o.tm = s.tm ∧ o.sc = s.sc ∧
      o.freeCores = s.freeCores ∧ o.layerClusters d (s.layerOpened c l p) = s.layerClusters c l := by
  intro o d
  have shape : o = (s.setCounter (c.counterOf l)
      { next := 0, limit := s.layerJobs c l p, done := 0, rq := 0, items := p.jobItems - 1 }).setCmd d := by
    simp only [o, d, State.openLayer, State.layerOpened]
    rw [only]
    simp
  clear_value o
  rw [shape]
  exact ⟨State.cmd_set (c := c) there rfl rfl, State.counter_setCounter _ _ _, rfl, rfl, rfl, rfl, rfl, rfl, rfl, rfl⟩

theorem State.placeLayer_places (there : s.cmd? c.q c.seq = some c) (only : c.layers = [l]) (fresh : l.started = false)
    (nowhere : s.layerClusters c l = []) (ready : s.layerReady c l (s.layerPlan c l) = true)
    (jobs : 0 < s.layerJobs c l (s.layerPlan c l)) (within : cl < 256)
    (takes : s.qualifies c (s.layerPlan c l) (Nat.min (s.layerPlan c l).jobItems 40) cl = true)
    (first : ∀ e, e < cl → s.qualifies c (s.layerPlan c l) (Nat.min (s.layerPlan c l).jobItems 40) e = false) :
    let p := s.layerPlan c l
    let w := Nat.min p.jobItems 40
    let cores := (s.freeCores cl).take w
    let t := s.placeLayer c.q c.seq l.ord
    t.counter (c.counterOf l) = { next := 0, limit := s.layerJobs c l p, done := 0, rq := 0, items := p.jobItems - 1 } ∧
      (t.cluster cl).layers = (s.cluster cl).layers ++
        [{ q := c.q, seq := c.seq, layer := l.ord, counter := c.counterOf l, n := w, cores := cores }] ∧
      (∀ k ∈ cores, t.core k = (s.core k).placedFor c l s.tm.now) ∧
      (s.layerJobs c l p = 1 → (∀ e, e ≠ cl → t.cluster e = s.cluster e) ∧ ∀ k, k ∉ cores → t.core k = s.core k) ∧
      ((s.clk cl).parked = true → (t.clk cl).parked = false ∧ (t.clk cl).awake = s.tm.now + 4000) ∧
      ((s.ctx c.ctx).st = .ready → 0 < w → (t.ctx c.ctx).st = .running ∧ (t.ctx c.ctx).sliceStart = s.tm.now) := by
  intro p w cores t
  have ran : t = _ := State.placeLayer_opens there only fresh ready jobs within takes
  clear_value t
  obtain ⟨there_o, counter, qualifies, cluster, core, clk, tm, sc, freeCores, layerClusters⟩ := State.openLayer_opens (p := p) there only
  change t = (((s.openLayer c l p).offer c.q c.seq l.ord p (List.range 256)).placedTrace c l.ord).ctxRuns c.ctx at ran
  generalize s.openLayer c l p = o at *
  have grows : o.layerGrows { c with layers := [s.layerOpened c l p] } (s.layerOpened c l p) = true := by
    unfold State.layerGrows
    rw [layerClusters, nowhere]
    change (_ || (_ && (decide ((o.counter (c.counterOf l)).next < (o.counter (c.counterOf l)).limit) || _))) = true
    rw [counter]
    simp [State.layerOpened, jobs, p]
  obtain ⟨layers, placed, woken, ⟨counters, time, contexts⟩, ⟨x, hx, ctx⟩, single⟩ :=
    State.offer_places (p := p) (cl := cl) there_o rfl grows (layerClusters.trans nowhere)
      (show 0 < Nat.min (s.layerJobs c l p) 256 from Nat.lt_min.mpr ⟨jobs, by decide⟩) within
      (by rw [qualifies]; exact takes) (fun e he => by rw [qualifies]; exact first e he)
  dsimp only [State.layerOpened] at layers placed woken time counters contexts hx ctx single
  rw [cluster] at layers single
  rw [core, tm] at placed
  rw [clk, tm] at woken
  rw [freeCores] at placed single
  rw [core] at single
  have counter_v : (o.offer c.q c.seq l.ord p (List.range 256)).counter (c.counterOf l) = o.counter (c.counterOf l) := by
    unfold State.counter
    rw [counters]
  generalize o.offer c.q c.seq l.ord p (List.range 256) = v at *
  obtain ⟨tl_b, cq_b, tm_b, sc_b, pw_b⟩ := v.placedTrace_keeps c l.ord
  generalize v.placedTrace c l.ord = b at *
  obtain ⟨tl_t, cq_t, tm_t, pw_t, runs⟩ := b.ctxRuns_runs c.ctx
  rw [← ran] at tl_t cq_t tm_t pw_t runs
  have tl : t.tl = v.tl := tl_t.trans tl_b
  have pw : t.pw = v.pw := pw_t.trans pw_b
  have now : b.tm = s.tm := tm_b.trans (time.trans tm)
  have core_t : t.core = v.core := by unfold State.core; rw [tl]
  have cluster_t : t.cluster = v.cluster := by unfold State.cluster; rw [tl]
  have clk_t : t.clk = v.clk := by unfold State.clk; rw [pw]
  have counter_t : t.counter = v.counter := by unfold State.counter; rw [tl]
  rw [core_t, cluster_t, clk_t, counter_t]
  refine ⟨counter_v.trans counter, ?_, placed, fun one => single ?_, woken, fun waits some_ => ?_⟩
  · rw [layers]
    unfold State.layerOn
    rw [freeCores]
    rfl
  · rw [one]
    rfl
  · rw [now] at runs
    refine runs ?_ ?_
    · unfold State.ctx
      rw [sc_b, contexts, sc]
      exact waits
    · obtain ⟨-, -, -, enough⟩ := State.clusterTakes_iff.mp ((Bool.and_eq_true _ _).mp takes).1
      obtain ⟨k, hk⟩ : ∃ k, k ∈ cores := by
        refine List.exists_mem_of_length_pos ?_
        rw [List.length_take]
        exact Nat.lt_min.mpr ⟨some_, some_.trans_le enough⟩
      have place : (b.core k).place = some
          { q := c.q, seq := c.seq, layer := l.ord, counter := c.counterOf l, since := s.tm.now } := by
        have same : b.core = v.core := by unfold State.core; rw [tl_b]
        rw [same, placed k hk]
        rfl
      refine List.ne_nil_of_mem (State.mem_ctxCores place (c := x) ?_ ctx)
      unfold State.cmd? at hx ⊢
      rw [cq_b]
      exact hx

/-- A scan of the one layer of the one context in its order. -/
theorem State.placementScan_one (on : s.runs 313 = true) (enabled : s.fld F.SCHED_CFG.ENABLE = 1) (order : s.scanOrder = [n])
    (home : (s.ctx n).clRecs = []) (mine : s.cmdsOf n = [c]) (only : c.layers = [l]) :
    ∃ x, s.placementScan = { s.placeLayer c.q c.seq l.ord with sc.unplaced := x } := by
  have resumed : s.resumeAll n = s := by
    unfold State.resumeAll
    rw [home]
    rfl
  have layers : s.ctxLayers n = [(c.q, c.seq, l.ord)] := by
    unfold State.ctxLayers
    rw [mine, List.flatMap_cons, only]
    rfl
  unfold State.placementScan
  rw [if_pos ⟨on, enabled⟩, order]
  dsimp only [List.foldl_cons, List.foldl_nil]
  rw [resumed, layers]
  exact ⟨_, rfl⟩

end Sys2Proof.Machine
end

section
/-! SUPPORT. A dispatch message gives a cluster its layer and its cores their tables (R104, R135, R136, R259), and O37. -/

namespace Sys2Proof.Machine

variable {s t u : State} {c d : Cmd} {l : Layer} {p : Plan} {sl : SeqLayer} {cl q seq ord n : Nat}

/-! ## A core at the boundary of a layer -/

/-- A register's keys of two cores are apart. -/
theorem coreKey_ne (f : Field) {j k : Nat} (other : k ≠ j) : fieldKey (f.core (k % 40)) (k / 40) 0 ≠ fieldKey (f.core (j % 40)) (j / 40) 0 := by
  rw [fieldKey_core, fieldKey_core, fieldKey_inst f (k / 40), fieldKey_inst f (j / 40)]
  omega

theorem State.coreFld_setCoreFld_ne (s : State) (f : Field) {j k : Nat} (v : Nat) (other : k ≠ j) :
    (s.setCoreFld f j v).coreFld f k = s.coreFld f k := State.fld_setFld_ne _ _ _ _ _ _ _ _ (coreKey_ne f other)

theorem State.applyField_coreFld (s : State) {f g : Field} (apart : fieldKey g 0 0 % 4096 ≠ fieldKey f 0 0 % 4096) (j k : Nat) :
    (s.applyField (f.core (j % 40)) (j / 40)).coreFld g k = s.coreFld g k :=
  (State.applyField_others s (coreKey_apart apart k j)).1

theorem b2n_cut (b : Bool) : b2n b % 2 ^ 1 = b2n b := by cases b <;> rfl

theorem State.applyField_onlyRegs (s : State) (f : Field) (i b : Nat) : OnlyRegs s (s.applyField f i b) := by
  have frame := State.applyField_frame s f i b
  unfold OnlyRegs
  conv_lhs => rw [frame]
  conv_rhs => rw [frame]

/-- A core's record at the start of a layer of plan p of command c. -/
def State.coreAtLayer (s : State) (c : Cmd) (p : Plan) (y : Core) : Core :=
  { y with
    cmdSeed := recSeed c.rec_, lastCmd := some (c.q, c.seq)
    tables := if p.tables = true ∧ y.tableSet ≠ some (tableSetOf (s.cmdImage c) p) then s.tablesOf (s.cmdImage c) p else y.tables
    tableSet := if p.tables = true then some (tableSetOf (s.cmdImage c) p) else y.tableSet }

theorem State.coreAtLayer_twice (s : State) (c : Cmd) (p : Plan) (y : Core) :
    s.coreAtLayer c p (s.coreAtLayer c p y) = s.coreAtLayer c p y := by
  by_cases tables : p.tables = true <;> simp [State.coreAtLayer, tables]

/-- What ELT_COMPAT shows of a core with the tables of plan p. -/
def State.compatOf (s : State) (c : Cmd) (p : Plan) : Nat :=
  b2n (Config.tableCompat (s.cmdImage c).desc (s.cmdImage c).version p.tableOff)

theorem State.coreBoundary_bounds (s : State) (c : Cmd) (p : Plan) (core : Nat) :
    let t := s.coreBoundary c p core
    t.core core = s.coreAtLayer c p (s.core core) ∧
      (∀ k, k ≠ core → t.core k = s.core k) ∧
      (p.tables = true → t.coreFld F.CORE_CFG.ELT_COMPAT core = s.compatOf c p) ∧
      (∀ k, k ≠ core → t.coreFld F.CORE_CFG.ELT_COMPAT k = s.coreFld F.CORE_CFG.ELT_COMPAT k) ∧
      t = { s with rg := t.rg, tl := { s.tl with cores := t.tl.cores } } := by
  have applied : ∀ a : State, a = (if (s.core core).lastCmd = some (c.q, c.seq) then s
      else (s.applyField (F.CORE_CFG.W40_SAT.core (core % 40)) (core / 40)).applyField
        (F.CORE_CFG.NARROW_SAT.core (core % 40)) (core / 40)) →
      OnlyRegs s a ∧ ∀ k, a.coreFld F.CORE_CFG.ELT_COMPAT k = s.coreFld F.CORE_CFG.ELT_COMPAT k := by
    rintro a rfl
    split
    · exact ⟨rfl, fun _ => rfl⟩
    · exact ⟨(State.applyField_onlyRegs _ _ _ _).trans (State.applyField_onlyRegs _ _ _ _), fun k =>
        (State.applyField_coreFld _ (by decide) _ _).trans (State.applyField_coreFld _ (by decide) _ _)⟩
  intro t
  have shape : t = s.coreBoundary c p core := rfl
  clear_value t
  unfold State.coreBoundary at shape
  extract_lets a im now k k' at shape
  obtain ⟨frame, compat⟩ := applied a rfl
  clear_value a
  have image : im = s.cmdImage c := by simp only [im]; rw [frame]; rfl
  have made : a.tablesOf (s.cmdImage c) p = s.tablesOf (s.cmdImage c) p := by rw [frame]; rfl
  have core_a : a.core = s.core := by rw [frame]; rfl
  clear_value im
  subst image
  by_cases tables : p.tables = true
  · rw [if_pos tables] at shape
    have core_k : k' = s.coreAtLayer c p (s.core core) := by
      simp only [k', k, now, State.coreAtLayer, tables, true_and, ne_eq, ite_not, if_true, core_a, made]
      by_cases held : (s.core core).tableSet = some (tableSetOf (s.cmdImage c) p)
      · rw [if_pos held, if_pos held, ← held]
      · rw [if_neg held, if_neg held]
    subst shape
    refine ⟨(State.core_setCore a core k').trans core_k, fun j other => ?_, fun _ => ?_, fun j other => ?_, ?_⟩
    · exact (State.core_setCore_ne a _ _ _ other).trans (by rw [core_a])
    · exact (State.coreFld_setCoreFld _ _ _ _).trans (b2n_cut _)
    · exact (State.coreFld_setCoreFld_ne _ _ _ other).trans (compat j)
    · clear_value k'
      rw [frame]
      rfl
  · rw [if_neg tables] at shape
    subst shape
    refine ⟨(State.core_setCore a core k).trans ?_, fun j other => ?_, fun yes => absurd yes tables, fun j other => compat j, ?_⟩
    · simp only [k, now, State.coreAtLayer, tables, core_a]
      rfl
    · exact (State.core_setCore_ne a _ _ _ other).trans (by rw [core_a])
    · clear_value k
      rw [frame]
      rfl

/-- The cores of a layer at its boundary, one after another. -/
theorem State.coreBoundaries_bound (ks : List Nat) (s : State) (c : Cmd) (p : Plan) :
    let t := ks.foldl (fun s k => s.coreBoundary c p k) s
    (∀ k ∈ ks, t.core k = s.coreAtLayer c p (s.core k)) ∧ (∀ k, k ∉ ks → t.core k = s.core k) ∧
      (p.tables = true → ∀ k ∈ ks, t.coreFld F.CORE_CFG.ELT_COMPAT k = s.compatOf c p) ∧
      (∀ k, k ∉ ks → t.coreFld F.CORE_CFG.ELT_COMPAT k = s.coreFld F.CORE_CFG.ELT_COMPAT k) ∧
      t = { s with rg := t.rg, tl := { s.tl with cores := t.tl.cores } } := by
  induction ks generalizing s with
  | nil => exact ⟨fun k hk => (List.not_mem_nil hk).elim, fun _ _ => rfl, fun _ k hk => (List.not_mem_nil hk).elim, fun _ _ => rfl, rfl⟩
  | cons core ks ih =>
    obtain ⟨bound, others, shown, rest, frame⟩ := s.coreBoundary_bounds c p core
    obtain ⟨bound', others', shown', rest', frame'⟩ := ih (s.coreBoundary c p core)
    rw [List.foldl_cons]
    generalize s.coreBoundary c p core = a at *
    have made : a.coreAtLayer c p = s.coreAtLayer c p := by rw [frame]; rfl
    have compat : a.compatOf c p = s.compatOf c p := by rw [frame]; rfl
    generalize ks.foldl (fun s k => s.coreBoundary c p k) a = b at *
    rw [made] at bound'
    rw [compat] at shown'
    refine ⟨fun k hk => ?_, fun k hk => ?_, fun tables k hk => ?_, fun k hk => ?_, ?_⟩
    · by_cases later : k ∈ ks
      · rw [bound' k later]
        by_cases here : k = core
        · rw [here, bound, State.coreAtLayer_twice]
        · rw [others k here]
      · obtain rfl : k = core := by simpa [later] using hk
        rw [others' k later, bound]
    · obtain ⟨other, later⟩ : k ≠ core ∧ k ∉ ks := by simpa using hk
      rw [others' k later, others k other]
    · by_cases later : k ∈ ks
      · exact shown' tables k later
      · obtain rfl : k = core := by simpa [later] using hk
        rw [rest' k later, shown tables]
    · obtain ⟨other, later⟩ : k ≠ core ∧ k ∉ ks := by simpa using hk
      rw [rest' k later, rest k other]
    · conv_lhs => rw [frame', frame]

/-! ## A layer that has no job goes on to nothing -/

theorem State.dealItems_idle (there : s.seqLayer? cl c.q c.seq l.ord = some sl) (job : sl.job = none) (more : sl.exhausted = false) :
    s.dealItems c l p cl = s := by
  unfold State.dealItems
  rw [there]
  refine List.foldlRecOn (motive := fun t : State => t = s) _ _ rfl fun t h pos _ => ?_
  subst h
  rw [there]
  split
  next x d here _ =>
    obtain rfl := Option.some.inj here
    split
    · rfl
    · split
      · rfl
      · rw [job]
        exact if_neg (by simp [more])
  · rfl

theorem State.goOnHere_idle (there : s.seqLayer? cl q seq ord = some sl) (cmd : s.cmd? q seq = some c)
    (layer : c.layers.find? (fun x => x.ord == ord) = some l) (job : sl.job = none) (none_ : sl.ahead = [])
    (more : sl.exhausted = false) : s.goOnHere cl q seq ord = s := by
  obtain ⟨rfl, rfl⟩ := s.cmd?_key _ _ _ cmd
  obtain rfl : l.ord = ord := by simpa using List.find?_some layer
  unfold State.goOnHere State.goOn
  rw [there, cmd]
  dsimp only
  rw [layer]
  dsimp only
  rw [job, none_]
  dsimp only
  rw [State.dealItems_idle there job more, ite_self]

/-! ## DISPATCH_MESSAGE -/

/-- The state with layer sl of command c dispatched to cluster cl, before it goes on. -/
def State.layerDispatched (s : State) (cl q seq ord : Nat) (sl : SeqLayer) (c : Cmd) (p : Plan) : State :=
  let s := if s.serves cl q seq ord then s else s.applyField F.SEQ_CFG.CLAIM_AHEAD cl
  let s := sl.cores.foldl (fun s core => s.coreBoundary c p core) s
  s.putSeqLayer cl { sl with dispatched := true }

theorem State.dispatchMessage_dispatches (there : s.seqLayer? cl q seq ord = some sl) (cmd : s.cmd? q seq = some c)
    (layer : c.layers.find? (fun x => x.ord == ord) = some l) (waits : sl.dispatched = false) (runs : s.runs cl = true)
    (awake : (s.clk cl).awake ≤ s.tm.now) :
    s.dispatchMessage cl q seq ord = (s.layerDispatched cl q seq ord sl c (s.layerPlan c l)).goOnHere cl q seq ord := by
  unfold State.dispatchMessage
  rw [there, cmd]
  dsimp only
  rw [if_neg (by simp [waits, runs, Nat.not_lt.mpr awake]), layer]
  rfl

theorem State.layerDispatched_sets (there : s.seqLayer? cl q seq ord = some sl) (c : Cmd) (p : Plan) :
    let u := s.layerDispatched cl q seq ord sl c p
    u.seqLayer? cl q seq ord = some { sl with dispatched := true } ∧
      (∀ k ∈ sl.cores, u.core k = s.coreAtLayer c p (s.core k) ∧
        (p.tables = true → u.coreFld F.CORE_CFG.ELT_COMPAT k = s.compatOf c p)) ∧
      (∀ k, k ∉ sl.cores → u.core k = s.core k) ∧ u.cq = s.cq ∧ u.mm = s.mm ∧ u.tl.counters = s.tl.counters ∧
      u.tl.traffic = s.tl.traffic := by
  unfold State.layerDispatched
  extract_lets a b u
  have regs : OnlyRegs s a := by
    simp only [a]
    split
    · rfl
    · exact State.applyField_onlyRegs _ _ _ _
  obtain ⟨bound, others, shown, -, frame⟩ : _ ∧ _ ∧ _ ∧ _ ∧ b = _ := a.coreBoundaries_bound sl.cores c p
  change ∀ k ∈ sl.cores, b.core k = _ at bound
  change ∀ k, k ∉ sl.cores → b.core k = _ at others
  change _ → ∀ k ∈ sl.cores, b.coreFld _ k = _ at shown
  clear_value a b
  unfold OnlyRegs at regs
  have cluster : b.cluster = s.cluster := by rw [frame, regs]; rfl
  have core : a.core = s.core := by rw [regs]; rfl
  have made : a.coreAtLayer c p = s.coreAtLayer c p := by rw [regs]; rfl
  have compat : a.compatOf c p = s.compatOf c p := by rw [regs]; rfl
  rw [core, made] at bound
  rw [core] at others
  rw [compat] at shown
  have on : sl ∈ (b.cluster cl).layers := by
    rw [cluster]
    exact List.mem_of_find?_eq_some there
  obtain ⟨rfl, rfl, rfl⟩ := SeqLayer.is_key (List.find?_some (p := fun m : SeqLayer => m.is q seq ord) there)
  refine ⟨State.seqLayer_putSeqLayer (l := { sl with dispatched := true }) on rfl rfl rfl,
    fun k hk => ⟨bound k hk, fun tables => shown tables k hk⟩, others, ?_, ?_, ?_, ?_⟩
  · exact (congrArg State.cq frame).trans (congrArg State.cq regs :)
  · exact (congrArg State.mm frame).trans (congrArg State.mm regs :)
  · exact (congrArg (fun v : State => v.tl.counters) frame).trans (congrArg (fun v : State => v.tl.counters) regs :)
  · exact (congrArg (fun v : State => v.tl.traffic) frame).trans (congrArg (fun v : State => v.tl.traffic) regs :)

/-! ## O37 -/

theorem dispatchMessage_gives (there : s.seqLayer? cl q seq ord = some sl) (cmd : s.cmd? q seq = some c)
    (layer : c.layers.find? (fun x => x.ord == ord) = some l) (waits : sl.dispatched = false) (runs : s.runs cl = true)
    (awake : (s.clk cl).awake ≤ s.tm.now) :
    let p := s.layerPlan c l
    ∃ u : State, s.dispatchMessage cl q seq ord = u.goOnHere cl q seq ord ∧
      u.seqLayer? cl q seq ord = some { sl with dispatched := true } ∧
      (∀ k ∈ sl.cores, u.core k = s.coreAtLayer c p (s.core k) ∧
        (p.tables = true → u.coreFld F.CORE_CFG.ELT_COMPAT k = s.compatOf c p)) ∧
      (∀ k, k ∉ sl.cores → u.core k = s.core k) ∧ u.cq = s.cq ∧ u.mm = s.mm ∧ u.tl.counters = s.tl.counters ∧
      u.tl.traffic = s.tl.traffic ∧
      (sl.job = none → sl.ahead = [] → sl.exhausted = false → u.goOnHere cl q seq ord = u) := by
  intro p
  obtain ⟨set, cores, others, cq, mm, counters, traffic⟩ := State.layerDispatched_sets there c p
  refine ⟨_, State.dispatchMessage_dispatches there cmd layer waits runs awake, set, cores, others, cq, mm, counters, traffic,
    fun job none_ more => State.goOnHere_idle set ?_ layer job none_ more⟩
  unfold State.cmd? at cmd ⊢
  rw [cq]
  exact cmd

/-- Settles O37: a dispatch by what each core gets at its layer's boundary, a scan by what it can do to a core and a cluster, and
a scan of one layer by its first placement. -/
theorem dispatchAndPlacement : Obligations.DispatchAndPlacement := by
  unfold Obligations.DispatchAndPlacement
  refine ⟨fun s cl q seq ord sl c l there cmd layer waits runs awake => ?_, fun s on enabled => ⟨?_, ?_⟩⟩
  · obtain ⟨u, ran, set, cores, rest⟩ := dispatchMessage_gives there cmd layer waits runs awake
    exact ⟨u, congrArg Host.Outcome.next ran, set, fun k hk => ⟨(cores k hk).1, fun tables _ => (cores k hk).2 tables⟩, rest⟩
  · have scanned := (Scanned.refl s).placementScan
    exact ⟨_, rfl, scanned.placed, scanned.layers, scanned.boot, scanned.time⟩
  · intro n c l cl order home mine there only fresh nowhere p w ready jobs within takes first cores
    obtain ⟨x, ran⟩ := State.placementScan_one on enabled order home mine only
    obtain ⟨counter, layers, placed, single, woken, runs⟩ :=
      State.placeLayer_places there only fresh nowhere ready jobs within takes first
    have ctx : c.ctx = n := by
      have held : c ∈ s.cmdsOf n := by rw [mine]; exact List.mem_cons_self
      simpa using (List.mem_filter.mp held).2
    rw [ctx] at runs
    exact ⟨_, congrArg Host.Outcome.next ran, counter, layers, placed, single, woken, runs⟩

end Sys2Proof.Machine
end
